-- ==== Sys2Proof/Word.lean ====
section
/-! DEFINITION. Word types of the Q64: the byte, the 32-bit register (R4) and the wider words the manual treats as bits. -/

namespace Sys2Proof

/-- One byte of memory (R3). -/
abbrev Byte := BitVec 8

/-- A 16-bit field. -/
abbrev Half := BitVec 16

/-- One register of the register region (R4: registers are 32 bits wide). -/
abbrev Word := BitVec 32

/-- A 64-bit field. -/
abbrev Dword := BitVec 64

end Sys2Proof
end

