-- ==== Sys2Proof/Syntax.lean ====
section
/-! DEFINITION. The commands of the block: one constructor per row of spec/opcode_table.json, with the
operands the row's rule names. Numbers of units (tiles, queues, dies, cameras, ports) are natural numbers
checked against the part when the command runs; register values, field values and packet bytes are bit vectors. -/

namespace Sys2Proof

/-- Who issues a register write (R165, R394, R422, R459). -/
inductive Agent where
  /-- the host, through BAR0 or BAR2 -/
  | host
  /-- the Die Controller of the unit's die -/
  | dieController
  /-- the Pregus firmware -/
  | pregusFirmware
deriving DecidableEq, Repr

/-- The level of a unit in DIE_RECOV_CTRL.KIND (R404). -/
inductive UnitKind where
  | slot | cluster | region | die
deriving DecidableEq, Repr

/-- What a BIST of a unit located (R164, R424, R425). -/
inductive BistFault where
  /-- no fault -/
  | none
  /-- one DPU (r, c), or row r's deskew line in column c -/
  | dpu (row col : Nat)
  /-- more than one DPU of a row, or the row's broadcast register or wires -/
  | row (row : Nat)
  /-- a column's sum registers, slack stage or conversion stages, or DPUs of it in several rows -/
  | col (col : Nat)
  /-- spare row 0 (A) or 1 (B) -/
  | spareRow (k : Nat)
  /-- the spare column -/
  | spareCol
  /-- row `row` of bank `bank` of the tile memory -/
  | memRow (bank row : Nat)
  /-- shadow load path, swap control, pipeline control or result staging, or anything else not repairable -/
  | unrepairable
deriving DecidableEq, Repr

/-- The targets of the rotating self-tests (R378). -/
inductive TestTarget where
  | tileEcc | kindling | residue | ageMonitor | checkValue | syncDir | dieEcc | comparator | mirrorChecker | checkerEngine
deriving DecidableEq, Repr

/-- Which checks a mirrored record passes where it is received (R392): that of its header, and that of the record as a whole. -/
structure MirrorCheck where
  headerOk : Bool
  recordOk : Bool
deriving DecidableEq, Repr

/-- The tiles and the clusters of a unit whose state a dump cannot read (R414, R415). -/
structure HungParts where
  tiles : List Nat
  clusters : List Nat
deriving DecidableEq, Repr

/-- The conditions by which a region or a die is declared hung (R405), and the link that failed (R408). -/
inductive HangCause where
  | bothClusters | peatPort | controllers | fabric | pll
deriving DecidableEq, Repr

/-- IEEE 1149.1 instructions (R453). -/
inductive JtagOp where
  | bypass | idcode | samplePreload | extest | clamp | highz
deriving DecidableEq, Repr

/-- A provisioning command's act (R446, R450). -/
inductive Provision where
  /-- program key slot `slot` with DIGEST and ROLES -/
  | program (slot : Nat) (digest : List Byte) (roles : Nat)
  /-- set REVOKED of key slot `slot` -/
  | revoke (slot : Nat)
  /-- fuse RACK_EN -/
  | rackEn
  /-- fuse VEHICLE_LOCK -/
  | vehicleLock
deriving DecidableEq, Repr

/-- The commands. -/
inductive Instr where
  -- matrix engine (R76): the oldest unexecuted in-flight command of queue `q`
  | mm (q : Nat)
  | conv (q : Nat)
  | gslice (q : Nat)
  -- vector engine
  | binary (q : Nat)
  | unary (q : Nat)
  | cvt (q : Nat)
  | reduce (q : Nat)
  | pool (q : Nat)
  | norm (q : Nat)
  | softmax (q : Nat)
  | scatter (q : Nat)
  -- data engine
  | copy (q : Nat)
  | fill (q : Nat)
  | send (q : Nat)
  | msgwin (q : Nat)
  | publish (q : Nat)
  -- sync engine
  | sync (q : Nat)
  | setsync (q : Nat)
  | ring (q : Nat)
  -- command front end; `tile` is the tile that would run the command (R103)
  | commandStart (q tile : Nat)
  | commandRetire (q : Nat) (cycles : Word)
  | shadowLoadSwap (tile : Nat)
  | doorbell (q : Nat) (value : Word)
  | syncSignalApply (cluster : Nat)
  | messageArrive (tile : Nat)
  | stagingUpdate
  -- beats, schedule and records
  | beatStart
  | scheduleRelease
  | syncSet
  | recordCommit
  -- safety
  | mirrorHeaderReceive (check : MirrorCheck)
  | mirrorHeaderTimeout
  | compare
  | safeReadbackCheck (safeAHigh safeBHigh : Bool)
  | release
  | checkerRunComplete
  | checksumVerify (entry : Nat)
  | selfTestStep (target : TestTarget) (unit : Nat) (pass : Bool)
  | selfTestStarved (target : TestTarget) (unit : Nat)
  | ashMirrorProgram
  | ashFetch (hi : Word)
  | ashFetchComplete
  -- sensor intake and image pipeline
  | frameStart (receiver vc : Nat) (csiFn : Half)
  | linePacket (receiver vc dataType : Nat) (payload : List Byte) (headerOk crcOk : Bool)
  | frameEnd (receiver vc : Nat)
  | cameraNoFrameStart (camera : Nat)
  | pipelineFrameStart (pipe : Nat)
  | pipelineFrameComplete (pipe : Nat)
  | arm (die index : Nat) (value : Word)
  | rangePacketReceive (mac : Nat)
  | rangeReplayInject (mac : Nat)
  | gridClose
  | decoderTailWrite (die : Nat) (value : Word)
  | decoderEntryStart (die : Nat)
  | decoderEntryFinish (die : Nat)
  | replayFrameOffer (die : Nat)
  -- time base, Ethernet and triggers
  | tbTick
  | step
  | reepoch
  | reepochApply
  | tbIncrWrite (lo hi : Word)
  | tbSnapRead
  | tbCapRead (n : Nat)
  | offsetMeasurement (offset : Int)
  | sourceLost
  | holdoverExpire
  | timeWordSend
  | timeWordReceive (die : Nat)
  | followerTimeout (die : Nat)
  | followerCrossCheck (die : Nat)
  | triggerPulseStart (trig : Nat)
  | triggerPulseEnd (trig : Nat)
  | captureEdge (cap : Nat) (level : Bool)
  | windowClose (cmp : Nat)
  | ethReceive (mac : Nat) (frame : List Byte) (fcsOk : Bool)
  | ethHpEnable (mac : Nat) (lo hi : Word)
  | ethHpDoorbell (mac : Nat) (value : Word)
  | ethHpTransmit (mac : Nat)
  | latticeTimeExchange (port : Nat) (offset : Int)
  -- hangs, recovery and self-repair
  | engineWatchdog (q : Nat) (cycles : Word)
  | tilePoll (die slot : Nat) (answered : Bool)
  | clusterHang (cluster : Nat)
  | regionHang (region : Nat) (cause : HangCause)
  | dieHang (die : Nat) (cause : HangCause)
  | linkTimeout (die : Nat) (isRing : Bool) (stillFails : Bool)
  | longWait (q : Nat)
  | fenceDrainEnd (die : Nat)
  | dumpWrite (die : Nat) (hung : HungParts)
  | resetComplete (die : Nat) (found : List (Nat × BistFault)) (entryTestOk : Bool)
  | reconcile
  | heartbeat (die : Nat)
  | controllerTakeover (die : Nat) (selfTestOk : Bool)
  | agingMeasure (die slot : Nat) (fStressed fRef : Nat)
  | emberBist (cluster : Nat) (found : BistFault)
  | fence (die : Nat) (kind : UnitKind) (unit : Nat)
  | reset (die : Nat) (kind : UnitKind) (unit : Nat)
  | ret (die : Nat) (kind : UnitKind) (unit : Nat)
  | kill (die : Nat)
  | bist (die : Nat) (kind : UnitKind) (unit : Nat)
  | resume (q : Nat) (value : Word)
  | busyClr (tile : Nat)
  | tilArrRepairWrite (agent : Agent) (tile : Nat) (value : Word)
  -- memory maintenance
  | scrubLine (addr : Nat) (testFails : Bool)
  | scrubPassOverrun (addr : Nat)
  | clearDirtyLine (addr : Nat)
  | dramMr4Poll (channel : Nat) (twoX : Bool)
  | dramRetrain (channel : Nat)
  -- transactions, update and security
  | commit
  | abort
  | txnVote (die : Nat)
  | txnDecide
  | txnApply
  | stagePregus
  | stageDie (die : Nat) (selfTestOk : Bool)
  | stageImage
  | stageRegion (region : Nat)
  | unstage
  | save
  | ratchet (comp : Nat)
  | attest
  | unlock
  -- check-value units: cluster 0 to 15, or 16 for the Pregus unit
  | cvuCtxInit (agent : Agent) (unit ctx : Nat) (value : Word)
  | cvuFeed (agent : Agent) (unit ctx size : Nat) (data : Word)
  | cvuResultRead (unit ctx index : Nat)
  | scanStart (agent : Agent) (unit : Nat)
  | scanEnd (unit : Nat)
  -- host link
  | registerWrite (agent : Agent) (offset : Nat) (value : Word)
  | hostMemoryWrite (offset : Nat) (bytes : List Byte) (poisoned : Bool)
  | hostMemoryRead (offset len : Nat) (poisoned : Bool)
  | flashOpen (slot : Nat)
  | flashClose
  | flashWindowWrite (offset : Nat) (bytes : List Byte)
  | uciEvtRead
  | mbTx (word15 : Word)
  | mbRxRead
  | ucieTrainingDone (m0Up m0X8 m1Up m1X8 : Bool) (rate : Nat)
  | ucieModuleDown (modIdx : Nat) (retrained : Bool) (x8 : Bool) (rate : Nat)
  | hostLinkReset
  -- Lattice ports
  | latticeTrainingDone (port : Nat) (trained : Bool) (fourLanes : Bool)
  | flitReceive (port : Nat) (flit : List Byte)
  | replayTimeout (port : Nat) (retrainsFailed : Nat)
  | portDown (port : Nat)
  | write (port : Nat)
  | writeAck (port : Nat)
  | signal (port : Nat)
  | signalAck (port : Nat)
  | hello (port : Nat)
  | setChip (port : Nat)
  | setRoute (port : Nat)
  | ack (port : Nat)
  | resetNotice (port : Nat)
  | returnNotice (port : Nat)
  | linkDown (port : Nat)
  | host (port : Nat)
  | time (port : Nat)
  | latSysChipWrite (value : Word)
  | latRouteWrite (chip : Nat) (value : Word)
  -- power, clocks, thermal and pins
  | prgPorNRelease (testEnLow bistOk : Bool) (fitted : List (Nat × List Nat))
  | prgPorNAssert (ns : Nat)
  | pgoodRise (die : Nat)
  | pgoodTimeout (die : Nat)
  | pgoodFall (die : Nat)
  | thermalSample (die : Nat) (temps volts : List Int) (valid : List Bool)
  | thermalTrip (die : Nat)
  | overLog (die : Nat)
  | sscOffWrite (die : Nat) (value : Word)
  | pwrIocfgWrite (trig : Nat) (value : Word)
  | jtagInstruction (op : JtagOp)
  | provisioningCommand (cmd : Provision) (signerSlot : Nat) (message signature : List Byte)
  | msixUnmask (vector : Nat)
  | hostRegisterRead (offset size : Nat)
  | latticeLaneDegrade (port : Nat)
  | ptpMessageSend (mac : Nat) (frame : List Byte) (tsCtrl : Dword)
  | modulationMinimum (die : Nat)
deriving DecidableEq, Repr

end Sys2Proof
end

