-- ==== Sys2Proof/Decode.lean ====
section
/-! DEFINITION. The commands that a word spells. The block has no instruction decoder, and no row of the table
gives its command any bits. -/

namespace Sys2Proof

/-- The command that the table's bits spell: no row gives bits, so no word spells a command. -/
def decodeTableWord (_nbits _w : Nat) : Option Instr := none

end Sys2Proof
end

