-- ==== Sys2Proof/Config.lean ====
section
/-! DEFINITION. What the manual leaves open, as constants with no body: free values (a free number for each draw, which
the State counts), and the functions that other standards or the part's fuses define. No proof can see a value of them;
a claim that mentions one holds for every value. -/

namespace Sys2Proof.Config

/-- The free number of a draw (`State.draws` counts the draws). -/
opaque freeNat : Nat → Nat

/-- What a SCATTER into INT32 adds for an element that is no integer (R78): format code and element code. -/
opaque scatterFree : Nat → Nat → Nat

/-- LPDDR5X bank and row of a block of 4 KiB of a DRAM channel (R137, R139): channel, block. -/
opaque dramRow : Nat → Nat → Nat

/-- The expected interval between the measurements of a PTP or gPTP source, in ns (R339): SOURCE. -/
opaque sourceInterval : Nat → Nat

/-- The free byte at a position of a draw. -/
opaque freeByte : Nat → Nat → Byte

/-- SEC_CHAL (R454): the draw and the byte. -/
opaque challenge : Nat → Nat → Byte

/-- ML-DSA-87 verification (FIPS 204; R36, R447): public key, message, signature. -/
opaque mldsaVerify : List Byte → List Byte → List Byte → Bool

/-- ML-DSA-87 signing (FIPS 204; R452): secret key, message. -/
opaque mldsaSign : List Byte → List Byte → List Byte

/-- ML-DSA.KeyGen_internal (FIPS 204; R451): the public and the secret key of a seed. -/
opaque mldsaKeygen : List Byte → List Byte × List Byte

/-- DEV_SECRET, 32 bytes in OTP that no bus can read (R451), by byte. -/
opaque devSecret : Nat → Byte

/-- The pixels of a RAW16, RAW20 or RAW24 payload (MIPI CSI-2 v3.0; R276): data type, payload, pixel number. -/
opaque csiPixel : Nat → List Byte → Nat → Nat

end Sys2Proof.Config
end

