-- ==== Sys2Proof/Machine/Bits.lean ====
section
/-! DEFINITION. Bit fields, byte order and saturation: the helpers the other files share. Fields are read as
natural numbers; R3: every multi-byte quantity is little-endian. -/

namespace Sys2Proof.Machine

/-- The value of a little-endian byte sequence (R3). -/
def leNat : List Byte → Nat
  | [] => 0
  | b :: t => b.toNat + 256 * leNat t

/-- The `n` bytes of `v`, least significant first (R3). -/
def leBytes : Nat → Nat → List Byte
  | 0, _ => []
  | n + 1, v => BitVec.ofNat 8 v :: leBytes n (v / 256)

/-- Bits hi:lo of `x`. -/
def fld (x hi lo : Nat) : Nat := x / 2 ^ lo % 2 ^ (hi - lo + 1)

/-- Bit `i` of `x`. -/
def bit (x i : Nat) : Bool := x / 2 ^ i % 2 == 1

/-- A Boolean as a bit at position `i`. -/
def atBit (b : Bool) (i : Nat) : Nat := if b then 2 ^ i else 0

/-- The two's-complement value of the low `w` bits of `x`. -/
def toSigned (w x : Nat) : Int :=
  let v := x % 2 ^ w
  if v ≥ 2 ^ (w - 1) then (v : Int) - (2 ^ w : Nat) else v

/-- The low `w` bits of an integer in two's complement. -/
def ofSigned (w : Nat) (x : Int) : Nat := (x % ((2 ^ w : Nat) : Int)).toNat

/-- `x` held between `lo` and `hi`. -/
def clampInt (lo hi x : Int) : Int := if x < lo then lo else if x > hi then hi else x

/-- Quotient rounded up. -/
def ceilDiv (a b : Nat) : Nat := (a + b - 1) / b

/-- A counter register that saturates at all ones. -/
def satInc {w : Nat} (x : BitVec w) (n : Nat := 1) : BitVec w :=
  if x.toNat + n < 2 ^ w then BitVec.ofNat w (x.toNat + n) else BitVec.allOnes w

/-- Bytes `off` to `off + n - 1` of a byte sequence; bytes beyond its end read 0. -/
def slice (bs : List Byte) (off n : Nat) : List Byte :=
  let t := (bs.drop off).take n
  t ++ List.replicate (n - t.length) 0

/-- The little-endian value of `n` bytes at `off`. -/
def leAt (bs : List Byte) (off n : Nat) : Nat := leNat ((bs.drop off).take n)

/-- The big-endian value of a byte sequence (network order). -/
def beNat (bs : List Byte) : Nat := bs.foldl (fun a b => a * 256 + b.toNat) 0

/-- The `n` bytes of `v`, most significant first (network order). -/
def beBytes (n v : Nat) : List Byte := (leBytes n v).reverse

/-- Overwrites bytes of `bs` from `off` on with `xs`. -/
def patch (bs : List Byte) (off : Nat) (xs : List Byte) : List Byte :=
  bs.take off ++ xs ++ bs.drop (off + xs.length)

/-- The list with `f` applied to its element at an index. -/
def modifyAt {α : Type} (f : α → α) : List α → Nat → List α
  | [], _ => []
  | a :: t, 0 => f a :: t
  | a :: t, n + 1 => a :: modifyAt f t n

/-- Zero bytes. -/
def zeros (n : Nat) : List Byte := List.replicate n 0

/-- A list cut into pieces of `n`, the last one shorter. -/
def chunksAux {α : Type} (n : Nat) : Nat → List α → List (List α)
  | 0, _ => []
  | _, [] => []
  | fuel + 1, l => l.take n :: chunksAux n fuel (l.drop n)

/-- A list cut into pieces of `n` elements, the last one shorter. -/
def chunks {α : Type} (n : Nat) (l : List α) : List (List α) := chunksAux n l.length l

end Sys2Proof.Machine
end

