-- ==== Sys2Proof/Machine/Crc.lean ====
section
/-! DEFINITION. The six polynomials and every check value (15_check_values.md, R389 to R392). -/

namespace Sys2Proof.Machine

/-- One line of the polynomial table (R389); `rpoly` is the polynomial with its bits reversed (R390). -/
structure Poly where
  width : Nat
  poly : Nat
  rpoly : Nat
  init : Nat
  reflected : Bool
  xorOut : Nat

/-- The polynomial of a POLY code; codes above 5 are not used. -/
def polyOf : Nat → Poly
  | 0 => { width := 8, poly := 0x1D, rpoly := 0xB8, init := 0xFF, reflected := false, xorOut := 0xFF }
  | 1 => { width := 16, poly := 0x1021, rpoly := 0x8408, init := 0xFFFF, reflected := false, xorOut := 0 }
  | 2 => { width := 32, poly := 0x04C11DB7, rpoly := 0xEDB88320, init := 0xFFFFFFFF, reflected := true,
           xorOut := 0xFFFFFFFF }
  | 3 => { width := 32, poly := 0x1EDC6F41, rpoly := 0x82F63B78, init := 0xFFFFFFFF, reflected := true,
           xorOut := 0xFFFFFFFF }
  | 4 => { width := 32, poly := 0xF4ACFB13, rpoly := 0xC8DF352F, init := 0xFFFFFFFF, reflected := true,
           xorOut := 0xFFFFFFFF }
  | _ => { width := 64, poly := 0x42F0E1EBA9EA3693, rpoly := 0xC96C5795D7870F42, init := 0xFFFFFFFFFFFFFFFF,
           reflected := true, xorOut := 0xFFFFFFFFFFFFFFFF }

/-- One bit step of a reflected CRC (R390). -/
def crcBitRefl (p : Poly) (reg : Nat) : Nat := if reg % 2 = 1 then (reg / 2) ^^^ p.rpoly else reg / 2

/-- One bit step of a CRC that is not reflected (R390). -/
def crcBitPlain (p : Poly) (reg : Nat) : Nat :=
  let sh := reg * 2 % 2 ^ p.width
  if bit reg (p.width - 1) then sh ^^^ p.poly else sh

/-- One byte of R390. -/
def crcByte (p : Poly) (reg : Nat) (b : Byte) : Nat :=
  if p.reflected then Nat.repeat (crcBitRefl p) 8 (reg ^^^ b.toNat)
  else Nat.repeat (crcBitPlain p) 8 (reg ^^^ (b.toNat * 2 ^ (p.width - 8)))

/-- The register after a byte sequence, from `reg` (R390). -/
def crcRun (p : Poly) (reg : Nat) (bs : List Byte) : Nat := bs.foldl (crcByte p) reg

/-- The check value of a byte sequence (R390). -/
def crc (code : Nat) (bs : List Byte) : Nat :=
  let p := polyOf code
  crcRun p p.init bs ^^^ p.xorOut

/-- CRC-16 over a fold value, an address or a sequence number as 8 bytes, and the covered bytes (R391, R392). -/
def crc16Fold (foldValue : Nat) (bs : List Byte) : Nat := crc 1 (leBytes 8 foldValue ++ bs)

/-- The FCS of an Ethernet frame (R345), the CRC-32 of IEEE 802.3 (PRESUMED, assumption 154): CRC-32 of R389, low byte first. -/
def fcsOf (frame : List Byte) : List Byte := leBytes 4 (crc 2 frame)

end Sys2Proof.Machine
end

