-- ==== Sys2Proof/Machine/Ecc.lean ====
section
/-! DEFINITION. The two codes of 04_memory.md (R122, R123) and the decode of a read (R124). A stored unit is held
as its intended data beside the list of its codeword positions that are flipped; both codes are linear, so the
syndrome of a read is the sum of the columns of the flipped positions. -/

namespace Sys2Proof.Machine

/-- Number of one bits of an 8-bit value. -/
def weight8 (v : Nat) : Nat := ((List.range 8).filter (fun i => bit v i)).length

/-- List L of code S: the 8-bit values of weight 3, then 5, then 7, each ascending (R122). -/
def listL : List Nat :=
  (List.range 256).filter (fun v => weight8 v == 3) ++ (List.range 256).filter (fun v => weight8 v == 5) ++
    (List.range 256).filter (fun v => weight8 v == 7)

/-- The column of a position of code S: message bits 0 to 108 (data 0 to 63, address 64 to 108), check bit j at
109 + j (R122). -/
def colS (p : Nat) : Nat := if p < 109 then listL.getD p 0 else 2 ^ (p - 109)

/-- What a read's decode finds (R124). -/
inductive EccOutcome where
  /-- the syndrome is zero -/
  | clean
  /-- one or two errors, at these positions -/
  | corrected (positions : List Nat)
  /-- an error located in an address position -/
  | address
  | uncorrectable
deriving DecidableEq, Repr

/-- Decode of code S (R124). -/
def decodeS (flips : List Nat) : EccOutcome :=
  let s := flips.foldl (fun a p => a ^^^ colS p) 0
  if s = 0 then .clean
  else match (List.range 117).find? (fun p => colS p == s) with
    | some p => if 64 ≤ p ∧ p < 109 then .address else .corrected [p]
    | none => .uncorrectable

/-- One multiplication by α in GF(2^9), x^9 + x^4 + 1 (R123). -/
def gfMulX (a : Nat) : Nat := if 256 ≤ a then (a * 2 - 512) ^^^ 17 else a * 2

/-- Product in GF(2^9). -/
def gfMul (a b : Nat) : Nat :=
  (List.range 9).foldl (fun acc i => if bit b i then acc ^^^ Nat.repeat gfMulX i a else acc) 0

/-- α to the power `n`. -/
def gfPow (n : Nat) : Nat := Nat.repeat gfMulX n 1

/-- Decode of code D (R124). Positions 0 to 17 are check bits, 18 to 273 data, 274 to 316 address bits; 317 is the
overall parity bit. With an even parity and the syndromes of one error, the second error is the parity bit itself
(DEDUCED, assumption 131: R123 stores 19 check bits and corrects two errors in them). -/
def decodeD (flips : List Nat) : EccOutcome :=
  let code := flips.filter (· < 317)
  let s1 := code.foldl (fun a p => a ^^^ gfPow p) 0
  let s3 := code.foldl (fun a p => a ^^^ gfPow (3 * p)) 0
  let odd := flips.length % 2 == 1
  let cube := gfMul s1 (gfMul s1 s1)
  let isAddr := fun p => decide (274 ≤ p ∧ p < 317)
  if s1 = 0 ∧ s3 = 0 then (if odd then .corrected [317] else .clean)
  else if s3 = cube then
    match (List.range 317).find? (fun p => gfPow p == s1) with
    | some p => if isAddr p then .address else if odd then .corrected [p] else .corrected [p, 317]
    | none => .uncorrectable
  else if odd || s1 == 0 then .uncorrectable
  else
    let roots := (List.range 511).filter (fun p =>
      let x := gfPow p
      gfMul s1 (gfMul x x) ^^^ gfMul (gfMul s1 s1) x ^^^ s3 ^^^ cube == 0)
    if roots.any isAddr then .address
    else if roots.length = 2 ∧ roots.all (· < 317) then .corrected roots
    else .uncorrectable

/-- Decode of a unit of 8 bytes (code S) or 32 bytes (code D). -/
def decodeUnit (size : Nat) (flips : List Nat) : EccOutcome :=
  if flips = [] then .clean else if size = 8 then decodeS flips else decodeD flips

/-- The data bits left wrong after a decode: flipped positions the decode did not correct, and positions it wrongly
corrected. -/
def residualBits (size : Nat) (flips fixed : List Nat) : List Nat :=
  let all := (flips.filter (fun p => !fixed.contains p)) ++ (fixed.filter (fun p => !flips.contains p))
  if size = 8 then all.filter (· < 64)
  else (all.filter (fun p => decide (18 ≤ p ∧ p < 274))).map (· - 18)

/-- Flips bit `k` of a byte sequence. -/
def flipBit (bs : List Byte) (k : Nat) : List Byte := modifyAt (fun b => b ^^^ BitVec.ofNat 8 (2 ^ (k % 8))) bs (k / 8)

end Sys2Proof.Machine
end

