-- ==== Sys2Proof/Machine/ImageTypes.lean ====
section
/-! DEFINITION. The structure image as data (02_structure_image.md, R34 to R56; 11 R279; 12 R328; 13 R353; 14 R356):
the fields of every section of a validated image, in the manual's names. -/

namespace Sys2Proof.Machine

/-- The part number (R1, DIE_TOPO.VARIANT). -/
inductive Part where
  | q64 | q48
deriving DecidableEq, Repr

/-- The stepping (DIE_TOPO.STEPPING). -/
inductive Stepping where
  | a1 | b0
deriving DecidableEq, Repr

/-- One TILE_MAP entry (R39). -/
structure TileMapEntry where
  role : Nat
  balGroup : Nat
  goldenQueue : Nat
deriving DecidableEq, Repr

/-- CHANNEL_SPLIT (R41). -/
structure ChannelSplit where
  strictPipes : Nat
  rangeMacs : Nat
  gridX : Nat
  gridY : Nat
  cellMm : Nat
  chkPyrCarve : Nat
  cmpOffset : Nat
  cmpLength : Nat
deriving DecidableEq, Repr

/-- One REGIONS entry (R42). -/
structure RegionEntry where
  fencePolicy : Nat
  updateOrder : Nat
  dieServer : Nat
deriving DecidableEq, Repr

/-- One QUEUE_ALLOC entry (R43). -/
structure QueueAlloc where
  queue : Nat
  engine : Nat
  doorbellOnly : Bool
  ringBase : Nat
  ringLog2 : Nat
  balGroup : Nat
deriving DecidableEq, Repr

/-- One schedule entry (R91). `sync` is a sync reference; `release` tells RELEASE from SYNC_SET. -/
structure SchedEntry where
  beat : Nat
  release : Bool
  count : Nat
  queue : Nat
  offsetNs : Nat
  sync : Nat
  value : Nat
deriving DecidableEq, Repr

/-- One SCHEDULE section (R45): its place in the section table and its fields. -/
structure Schedule where
  index : Nat
  inst : Nat
  modeId : Nat
  missing : Nat
  commitTile : Nat
  busyNs : Nat
  slackNs : Nat
  entries : List SchedEntry
deriving DecidableEq, Repr

/-- One CARVEOUTS entry (R46). `owner` is a region, or 0xF0 for the package. -/
structure Carveout where
  id : Nat
  dram : Bool
  eccClass : Nat
  owner : Nat
  base : Nat
  size : Nat
deriving DecidableEq, Repr

/-- One RESOURCES entry (R54). -/
structure ResourceClaim where
  kind : Nat
  index : Nat
  feature : Nat
  featureInst : Nat
deriving DecidableEq, Repr

/-- One CAMERA_BIND entry (R48). -/
structure CameraBind where
  camera : Nat
  receiver : Nat
  vc : Nat
  dataType : Nat
  pipe : Nat
  facet : Nat
  fsyncTrig : Nat
  latencyNs : Nat
  staleNs : Nat
deriving DecidableEq, Repr

/-- SAFETY (R50). -/
structure SafetySec where
  frameNs : Nat
  beatNs : Nat
  consec : Nat
  k : Nat
  m : Nat
  latentMs : Nat
  maxAgeNs : Nat
  slackReserveNs : Nat
  clockFloorMhz : Nat
deriving DecidableEq, Repr

/-- One MODE_SET entry (R52). -/
structure ModeEntry where
  modeId : Nat
  determinism : Nat
  balance : Nat
  safety : Nat
  input : Nat
deriving DecidableEq, Repr

/-- One field entry of PAYLOAD (R94). -/
structure PayField where
  off : Nat
  len : Nat
  omitMask : Nat
deriving DecidableEq, Repr

/-- PAYLOAD (R94): the ring entry and the fields. -/
structure PayloadSec where
  ringLog2 : Nat
  ringCarve : Nat
  stageOff : Nat
  fields : List PayField
deriving DecidableEq, Repr

/-- INTAKE camera entry (R279, KIND 1). -/
structure IntakeCamera where
  camera : Nat
  width : Nat
  height : Nat
  embLines : Nat
  rawCarve : Nat
  noteCarve : Nat
  frameSync : Nat
  rawOff : Nat
  noteOff : Nat
deriving DecidableEq, Repr

/-- INTAKE template entry (R279, KIND 2). `rot` is row-major. -/
structure RangeTemplate where
  mac : Nat
  etherType : Nat
  udpPort : Nat
  hdrLen : Nat
  ptStride : Nat
  ptMax : Nat
  coord : Nat
  xOff : Nat
  yOff : Nat
  zOff : Nat
  unitUm : Nat
  latencyNs : Nat
  rot : List Int
  trans : List Int
  zMin : Int
  zMax : Int
  fwdCarve : Nat
  fwdLog2 : Nat
  fwdOff : Nat
  fwdSync : Nat
deriving DecidableEq, Repr

/-- INTAKE decoder entry or range replay entry (R279, KIND 3 and 4): `unit` is the die or the MAC. -/
structure ReplayRing where
  unit : Nat
  ringCarve : Nat
  ringLog2 : Nat
  ringOff : Nat
deriving DecidableEq, Repr

/-- INTAKE (R279). -/
structure IntakeSec where
  ratioDef : Nat
  graceNs : Nat
  cameras : List IntakeCamera
  templates : List RangeTemplate
  decoders : List ReplayRing
  rangeReplays : List ReplayRing
deriving DecidableEq, Repr

/-- TIME trigger entry (R353, KIND 1). -/
structure TimeTrigger where
  trig : Nat
  cmp : Nat
  baseSecond : Bool
  divider : Nat
  activeLow : Bool
  phaseNs : Nat
  widthNs : Nat
deriving DecidableEq, Repr

/-- TIME capture entry (R353, KIND 2). -/
structure TimeCapture where
  cap : Nat
  filt : Nat
  edge : Nat
deriving DecidableEq, Repr

/-- TIME monitor entry (R353, KIND 3). -/
structure TimeMonitor where
  cmp : Nat
  cap : Nat
  missEn : Bool
  startNs : Nat
  lenNs : Nat
deriving DecidableEq, Repr

/-- TIME (R353). -/
structure TimeSec where
  source : Nat
  ethSrcPort : Nat
  capSrcPort : Nat
  ptpDomain : Nat
  ptpMasterMacs : Nat
  slewPpm : Nat
  lockNs : Nat
  holdoverMs : Nat
  reepochEn : Bool
  triggers : List TimeTrigger
  captures : List TimeCapture
  monitors : List TimeMonitor
deriving DecidableEq, Repr

/-- ISP camera entry (R328, KIND 1). -/
structure IspCamera where
  camera : Nat
  exposures : Nat
  cfa : Nat
  outFmt : Nat
  chMode : Nat
  levels : Nat
  pack : Nat
  outCarve : Nat
  statCarve : Nat
  paramCarve : Nat
  outOff : Nat
  statOff : Nat
  paramOff : Nat
  freeSync : Nat
deriving DecidableEq, Repr

/-- ISP (R328). -/
structure IspSec where
  chkSlot : Nat
  cameras : List IspCamera
deriving DecidableEq, Repr

/-- A checker layer (R356, KIND 1). -/
structure ChkLayer where
  op : Nat
  srcA : Nat
  srcB : Nat
  dst : Nat
  k : Nat
  stride : Nat
  relu : Bool
  cin : Nat
  cout : Nat
  shift : Nat
  outW : Nat
  outH : Nat
  wOff : Nat
  tLen : Nat
deriving DecidableEq, Repr

/-- A checksum entry (R356, KIND 2). -/
structure ChkSum where
  region : Nat
  addr : Nat
  len : Nat
  crc64 : Nat
deriving DecidableEq, Repr

/-- CHECKER (R356). -/
structure CheckerSec where
  tol : Nat
  minCells : Nat
  occThresh : Nat
  cmpX : Nat
  cmpY : Nat
  cmpBeat : Nat
  releaseFrames : Nat
  chkBudgetNs : Nat
  layers : List ChkLayer
  sums : List ChkSum
  blob : List Byte
deriving DecidableEq, Repr

/-- The header fields that act after validation (R35). -/
structure ImageHeader where
  variants : Nat
  steppings : Nat
  deploy : Nat
  chipCount : Nat
  secVersion : Nat
  imageId : Nat
  keySlot : Nat
  format : Nat
  bodyDigest : List Byte
deriving DecidableEq, Repr

/-- A structure image (R34, R38). -/
structure Image where
  header : ImageHeader
  tileMap : List TileMapEntry
  split : ChannelSplit
  regions : List RegionEntry
  queues : List QueueAlloc
  schedules : List Schedule
  carves : List Carveout
  resources : List ResourceClaim
  cameraBinds : List CameraBind
  safety : SafetySec
  startMode : Nat
  modes : List ModeEntry
  payload : PayloadSec
  intake : IntakeSec
  time : TimeSec
  isp : IspSec
  checker : CheckerSec
  /-- bytes of the sections that R443 compares: CHANNEL_SPLIT, REGIONS, RESOURCES, CAMERA_BIND, INTAKE, TIME, ISP, PAYLOAD entry 0 -/
  fixed : List (List Byte) := []
deriving DecidableEq, Repr

end Sys2Proof.Machine
end

