-- ==== Sys2Proof/Machine/SMap.lean ====
section
/-! DEFINITION. Sparse maps: a list of key and value pairs in ONE canonical form (keys strictly rising, no entry
equal to the default), so that equal contents are equal data. Memory, queues, tiles and every other numbered
collection of the State are sparse maps; what an unlisted key reads as is the map's default. -/

namespace Sys2Proof.Machine

/-- A sparse map from numbers to `α`. -/
abbrev SMap (α : Type) := List (Nat × α)

/-- The value of key `k`: the listed value, or the default. Keys rise, so that a greater key ends the search. -/
def SMap.get {α : Type} (d : α) : SMap α → Nat → α
  | [], _ => d
  | (k', v) :: t, k => if k < k' then d else if k = k' then v else SMap.get d t k

/-- One cell in front of a map, left out when it holds the default. -/
def SMap.consCell {α : Type} [DecidableEq α] (d : α) (k : Nat) (v : α) (m : SMap α) : SMap α :=
  if v = d then m else (k, v) :: m

/-- Writes `v` at key `k`, keeping the canonical form (in which no key at or below `k` follows the entry of `k`). -/
def SMap.set {α : Type} [DecidableEq α] (d : α) : SMap α → Nat → α → SMap α
  | [], k, v => SMap.consCell d k v []
  | (k', v') :: t, k, v =>
    if k < k' then SMap.consCell d k v ((k', v') :: t)
    else if k = k' then SMap.consCell d k v (t.dropWhile (fun e => decide (e.1 ≤ k)))
    else (k', v') :: SMap.set d t k v

/-- Applies `f` to the value of key `k`. -/
def SMap.update {α : Type} [DecidableEq α] (d : α) (m : SMap α) (k : Nat) (f : α → α) : SMap α :=
  SMap.set d m k (f (SMap.get d m k))

/-- Every key of the map is above `lo`, keys rise, and no entry equals the default. -/
def SMap.wfFrom {α : Type} [DecidableEq α] (d : α) : Option Nat → SMap α → Bool
  | _, [] => true
  | lo, (k, v) :: t =>
    (match lo with | none => true | some l => decide (l < k)) && decide (v ≠ d) && SMap.wfFrom d (some k) t

/-- The canonical form. -/
def SMap.wf {α : Type} [DecidableEq α] (d : α) (m : SMap α) : Bool := SMap.wfFrom d none m

end Sys2Proof.Machine
end

