-- ==== Sys2Proof/Machine/Types.lean ====
section
/-! DEFINITION. The parts of the State: one structure per block of the manual, with its registers under the
manual's names. A field's docstring gives register or item, rule, and reset value; INVENTORY.md lists them all. -/

namespace Sys2Proof.Machine

/-- An instant or a length of time, counted in units of 2^-32 ns (R330, R332: full width, FRAC included). -/
abbrev Instant := Nat

/-- A time-stamp with what a time-stamp word carries (R331). -/
structure Stamp where
  at_ : Instant := 0
  epoch : Byte := 0
  valid : Bool := false
  locked : Bool := false
deriving DecidableEq, Repr

/-- A unit's state (R404). -/
inductive UnitState where
  | inService | fencing | fenced | suspect | resetting | testing | retired | off
deriving DecidableEq, Repr

/-- How far the return of a TESTING unit has come (R417). -/
inductive RecStage where
  /-- BIST and the entry test (steps 2, 3) -/
  | tests
  /-- the host's restore (step 4) -/
  | restore
  /-- the checksum entries of the unit still to verify (step 5) -/
  | checks
  /-- waits for its frame boundary (step 6) -/
  | ready
deriving DecidableEq, Repr

/-- A tile slot, cluster, region or die as a unit of recovery (R404, R421). -/
structure UnitSt where
  /-- authoritative state | R404 | IN_SERVICE -/
  state : UnitState := .inService
  /-- host view (DIE_SLOT_STATE.STATE, RGN_STATE) | R421 | IN_SERVICE -/
  hostView : UnitState := .inService
  /-- the Pregus copy | R421 | IN_SERVICE -/
  pregusView : UnitState := .inService
  /-- CAUSE: event of the latest fence | R404 | 0 -/
  cause : Nat := 0
  /-- GEN of the island, mod 2^13 | R421 | 0 -/
  gen : BitVec 13 := 0
  /-- GEN of the host view | R421 | 0 -/
  genHost : BitVec 13 := 0
  /-- GEN of the Pregus copy | R421 | 0 -/
  genPregus : BitVec 13 := 0
  /-- rounds in which the three GEN values differed | R421 | 0 -/
  genRounds : Nat := 0
  /-- instant of the latest fence | R409, R414 | 0 -/
  fencedAt : Stamp := {}
  /-- beat number at the latest fence (dump header) | R415 | 0 -/
  fencedBeat : Nat := 0
  /-- UNIT of its fence entry, which its dump carries | R414, R415 | 255 -/
  fencedTag : Nat := 255
  /-- the unit is to be dumped and reset: after a fault fence, or a RESET request | R414, R416 | false -/
  resetReq : Bool := false
  /-- progress of the return | R417 | tests -/
  stage : RecStage := .tests
  /-- first beat at whose frame boundary or later the unit may return | R417 | 0 -/
  readyBeat : Nat := 0
  /-- checksum entries verified for this return | R376, R417 | none -/
  sumsDone : List Nat := []
  /-- PERMANENT of RGN_STATE | R427 | 0 -/
  permanent : Bool := false
deriving DecidableEq, Repr

/-- A command descriptor (R70). -/
structure Desc where
  opcode : Byte := 0
  flags : Byte := 0
  seq : Half := 0
  waitRef : Word := 0
  waitValue : Word := 0
  signalRef : Word := 0
  signalAdd : Word := 0
  budget : Word := 0
  src0 : Dword := 0
  src1 : Dword := 0
  dst : Dword := 0
  param : Dword := 0
  ext : Half := 0
  opId : Half := 0
  satThresh : Half := 0
  crc : Half := 0
deriving DecidableEq, Repr

/-- The element formats (R169). -/
inductive Fmt where
  | int4 | qg4 | int8 | uint8 | e4m3 | e5m2 | fp16 | bf16 | fp32 | int16 | int32 | xa96
deriving DecidableEq, Repr

/-- A tensor descriptor as decoded (R74): DIM0 to DIM3 are `d0` to `d3`. -/
structure Tensor where
  base : Nat
  fmt : Fmt
  layout : Nat
  rank : Nat
  scale : Nat
  d0 : Nat
  d1 : Nat
  d2 : Nat
  d3 : Nat
  scaleAddr : Nat
deriving DecidableEq, Repr

/-- A scale header as decoded (R194). -/
structure ScaleHdr where
  gran : Nat
  stats : Bool
  count : Nat
  nblk : Nat
  scales : Nat
  stags : Nat
  statsAddr : Nat
deriving DecidableEq, Repr

/-- A command in flight (R82): its descriptor and what its execution has left to report at retirement. -/
structure InFlight where
  desc : Desc := {}
  /-- position p mod 2^16 of the descriptor (R68) -/
  pos : Half := 0
  /-- the tile that runs it (R103) -/
  tile : Nat := 0
  /-- its number in the order of all starts (the model's own field), by which an engine runs its commands | R156 -/
  order : Nat := 0
  /-- its weight sets that have been swapped in | R154 -/
  swaps : Nat := 0
  /-- low 32 bits of the beat in which it started -/
  startBeat : Word := 0
  /-- its execution has ended -/
  executed : Bool := false
  /-- acknowledgements of its SEND (R87) or of its remote signal (R477) that it still waits for -/
  acksDue : Nat := 0
  /-- its signal has been applied or sent, by the target of its SEND or as a remote signal (R87, R477) -/
  sigDone : Bool := false
  status : Byte := 0
  sat : Bool := false
  xaSat : Bool := false
  skipped : Bool := false
  trunc : Bool := false
  nanIn : Bool := false
  infIn : Bool := false
  /-- tensor descriptors and scale headers as the front end read them (R80) -/
  src0 : Option Tensor := none
  src1 : Option Tensor := none
  dst : Option Tensor := none
  hdr0 : Option ScaleHdr := none
  hdr1 : Option ScaleHdr := none
  hdrD : Option ScaleHdr := none
  /-- job seed and sample indices by batch position, read at the start (R188) -/
  rngSeed : Dword := 0
  samples : List Nat := []
  /-- the QUEUE_ALLOC entry under which it started, once an ACTIVATE has replaced its queue | R445 | none -/
  old : Option QueueAlloc := none
deriving DecidableEq, Repr

/-- A queue (R68, TIL_QSTATE, TIL_QCTRL). -/
structure QueueSt where
  /-- TIL_QSTATE.HEAD | R68 | 0 -/
  head : Half := 0
  /-- TAIL | R68 | 0 -/
  tail : Half := 0
  /-- TIL_QSTATE.ERR | R85 | 0 -/
  err : Bool := false
  /-- TIL_QSTATE.WAIT | R86 | 0 -/
  wait : Bool := false
  /-- TIL_QSTATE.DBERR | R69 | 0 -/
  dberr : Bool := false
  /-- TIL_QSTATE.CREDIT | R92 | 0 -/
  credit : Byte := 0
  /-- grant instants of the unused credits, oldest first | R93 | none -/
  grants : List Instant := []
  /-- commands in flight, oldest first; TIL_QSTATE.INFLIGHT is their number | R82 | none -/
  inflight : List InFlight := []
  /-- TIL_QCTRL.DISCARD | R85 | 0 -/
  discard : Bool := false
  /-- TIL_QCTRL.RESUME_ERR | R85 | 0 -/
  resumeErr : Bool := false
  /-- instant since which the head command waits | R407 | none -/
  waitSince : Option Instant := none
  /-- SEV-220 has been raised for this wait | R407 | false -/
  longRaised : Bool := false
  /-- status of the latest completion (dump queue entry) | R415 | 0 -/
  lastStatus : Byte := 0
deriving DecidableEq, Repr

/-- A message window (R87). -/
structure Window where
  defined : Bool := false
  base : Nat := 0
  size : Nat := 0
deriving DecidableEq, Repr

/-- A message on its way to a tile (R23, R87, R196): the dies it passes, runs of bytes by their offset in the message, its
extent, the signal that the target applies, and the sending command (queue and position), none for a Lattice request. -/
structure Message where
  route : List Nat := []
  window : Nat
  offset : Nat
  extent : Nat
  parts : List (Nat × List Byte)
  signal : Option (Word × Word)
  sender : Option (Nat × Nat)
deriving DecidableEq, Repr

/-- One logical tile: registers of its TIL block and its engines' state. -/
structure TileSt where
  /-- TIL_MISSED | R92 | 0 -/
  missed : Word := 0
  /-- TIL_MSGDROP | R88 | 0 -/
  msgdrop : Word := 0
  /-- TIL_MEMERR.CE_COUNT | R124 | 0 -/
  ceCount : Half := 0
  /-- TIL_MEMERR.UE_COUNT | R124 | 0 -/
  ueCount : Byte := 0
  /-- TIL_MEMERR.LAST_STATUS | R124 | 0 -/
  memLast : Byte := 0
  /-- TIL_MEMADDR | R124 | 0 -/
  memAddr : Word := 0
  /-- TIL_ARR_CTRL.RESIDUE | R167 | 0 -/
  residue : Bool := false
  /-- TIL_ARR_CTRL.HOLD | R165 | 0 -/
  hold : Bool := false
  /-- TIL_ARR_STATUS.RES_COL | R167 | 0 -/
  resCol : BitVec 6 := 0
  /-- TIL_ARR_STATUS.RESIDUE_ERR | R167 | 0 -/
  residueErr : Bool := false
  /-- TIL_ARR_STATUS.REPAIR_WERR | R165 | 0 -/
  repairWerr : Bool := false
  /-- TIL_ARR_STATUS bits 3:0 (L_NAN, L_INF, L_TRUNC, L_XASAT) | R168 | 0 -/
  lNan : Bool := false
  lInf : Bool := false
  lTrunc : Bool := false
  lXasat : Bool := false
  /-- TIL_ARR_LASTOP | R168 | 0 -/
  lastOp : Word := 0
  /-- TIL_ARR_BUSY.COUNT | R168 | 0 -/
  busy : Word := 0
  /-- TIL_TAGERR | R202 | 0 -/
  tagErr : Word := 0
  /-- TIL_TAGCMD | R202 | 0 -/
  tagCmd : Word := 0
  /-- TIL_TAGBLK | R202 | 0 -/
  tagBlk : Word := 0
  /-- TIL_WDOG.HANG_MULT | R405 | 4 -/
  hangMult : BitVec 4 := 4
  /-- TIL_WDOG.LIMIT | R405 | 0x1000 -/
  limit : BitVec 14 := 0x1000
  /-- TIL_WDOG.ABORTS | R406 | 0 -/
  aborts : Byte := 0
  /-- message windows 0 to 15 | R87 | none defined -/
  windows : SMap Window := []
  /-- messages arrived at the tile's DE, oldest first | R87 | none -/
  msgs : List Message := []
  /-- active weight registers of the DPUs, row * 33 + column | R142, R160 | 0 -/
  active : SMap (BitVec 256) := []
  /-- shadow weight registers | R142, R160 | 0 -/
  shadow : SMap (BitVec 256) := []
  /-- engines (0 ME, 1 VE, 2 DE) whose Kindling holds a parity error | R109 | none -/
  kindBad : List Nat := []
  /-- a GSLICE has retired with 0x00 in the current frame | R372 | false -/
  gsliceOk : Bool := false
  /-- the tile owes the zero-fill of its whole memory | R134 | false -/
  mustZero : Bool := false
deriving DecidableEq, Repr

/-- A CVU feed context (R394 to R397). -/
structure CvuCtx where
  /-- CVU_CTX_STATUS.POLY | R395 | 0 -/
  poly : BitVec 3 := 0
  /-- CRC register | R395, R396 | 0xFF: CVU_RESULT reads 0 (DEDUCED, assumption 166) -/
  reg : Dword := 0xFF
  /-- pending bytes, oldest first, at most 16 | R395 | none -/
  fifo : List Byte := []
  /-- OVF | R395 | 0 -/
  ovf : Bool := false
  /-- WERR | R395 | 0 -/
  werr : Bool := false
deriving DecidableEq, Repr

/-- A check-value unit (R394 to R401). -/
structure CvuSt where
  ctx0 : CvuCtx := {}
  ctx1 : CvuCtx := {}
  /-- CVU_SCAN_ADDR, 48 bits | R398 | 0 -/
  scanAddr : BitVec 48 := 0
  /-- CVU_SCAN_LEN | R398 | 0 -/
  scanLen : Word := 0
  /-- CVU_SCAN_CTRL.POLY | R398 | 5 -/
  scanPoly : BitVec 3 := 5
  /-- CVU_SCAN_STATUS.BUSY | R398 | 0 -/
  busy : Bool := false
  /-- SCAN_WERR | R398 | 0 -/
  werr : Bool := false
  /-- SCAN_COUNT | R401 | 0 -/
  count : Byte := 0
  /-- SCAN_LAST_STATUS | R401 | 0 -/
  lastStatus : Byte := 0
  /-- CVU_SCAN_RESULT | R401 | 0 -/
  result : Dword := 0
  /-- address, length in bytes and POLY of the running scan | R398 | 0 -/
  runAddr : Nat := 0
  runLen : Nat := 0
  runPoly : Nat := 0
  /-- lines of it read so far, the CRC register, and the status that ends it | R398 to R400 | 0 -/
  runLines : Nat := 0
  runReg : Nat := 0
  runStat : Nat := 0
deriving DecidableEq, Repr

/-- A cluster: its sync object directory and its check-value unit. -/
structure ClusterSt where
  /-- CLU_SYNC[n].COUNT, n < 2048 | R86 | 0 -/
  sync : SMap Word := []
  /-- SYNC_SET entries (order 0) and SETSYNC operations (order 1 + tile) of this cycle: order, object, value | R86 | none -/
  sets : List (Nat × Nat × Word) := []
  /-- signals of this cycle | R86 | none -/
  signals : List (Nat × Word) := []
  /-- the cluster's CVU | R394 | reset values -/
  cvu : CvuSt := {}
deriving DecidableEq, Repr

/-- A region's job seed registers (R188). -/
structure RegionSt where
  /-- RGN_RNG_CTRL.VALID | R188 | 0 -/
  rngValid : Bool := false
  /-- RGN_RNG_CTRL.WERR | R188 | 0 -/
  rngWerr : Bool := false
  /-- RGN_RNG_SEED | R186 | 0 -/
  seed : Dword := 0
  /-- RGN_RNG_TAB, address bits 47:3 | R188 | 0 -/
  tab : BitVec 48 := 0
deriving DecidableEq, Repr

/-- A physical tile slot (R27, R166, R426). -/
structure SlotSt where
  /-- recovery state of the slot | R404 | IN_SERVICE -/
  u : UnitSt := {}
  /-- TIL_ARR_REPAIR | R161, R165 | 0 (from repair map) -/
  repair : Word := 0
  /-- errors of the physical columns: what is wrong in the sum that leaves a column's slack stage (a condition of the hardware, by
column) | R167, R189 | none (DESIGN CHOICE) -/
  colErr : SMap Int := []
  /-- row of the one DPU for whose fault the spare column was taken; none when it serves for a fault of its column | R164 | none -/
  colFor : Option Nat := none
  /-- DIE_AGING.DRIFT | R426 | 0 -/
  drift : Half := 0
  /-- DIE_AGING.RETIRE | R426 | 0 -/
  retire : Bool := false
  /-- DIE_AGING.WARN | R426 | 0 -/
  warn : Bool := false
deriving DecidableEq, Repr

/-- An entry of the repair map (R139). -/
structure RepairEntry where
  kind : Nat
  die : Nat
  unit : Nat
  row : Nat
  spare : Nat
deriving DecidableEq, Repr

/-- The repair map in force (R139). -/
structure RepairMap where
  /-- GENERATION | R139 | 0 -/
  generation : Nat := 0
  /-- entries in the order they were added | R139 | none -/
  entries : List RepairEntry := []
  /-- by global cluster: the slot that serves each logical index | R15, R29 | 0, 1, 2, 3 -/
  slotOf : SMap (List Nat) := []
deriving DecidableEq, Repr

/-- A DRAM channel (DRAM_CH_STATUS). -/
structure ChanSt where
  /-- LAST_STATUS | R140 | 0 -/
  last : Byte := 0
  /-- LINK_RETRY | R120 | 0 -/
  linkRetry : Byte := 0
  /-- UE_COUNT | R124 | 0 -/
  ue : Byte := 0
  /-- DENSITY | R118 | 0 -/
  density : BitVec 3 := 0
  /-- REFRESH_2X | R121 | 0 -/
  refresh2x : Bool := false
  /-- PPR_PENDING | R137 | 0 -/
  pprPending : Bool := false
  /-- TRAIN_FAIL | R119 | 0 -/
  trainFail : Bool := false
  /-- TRAINED | R119 | 0 -/
  trained : Bool := false
  /-- POPULATED | R118 | 0 -/
  populated : Bool := false
  /-- transfer attempts in a row that link ECC will find wrong (the state of the wire) | R120 | 0 -/
  linkBad : Nat := 0
  /-- instant of the latest MR4 poll and of the latest retraining | R121 | 0 -/
  pollAt : Instant := 0
  retrainAt : Instant := 0
deriving DecidableEq, Repr

/-- A Peat bank's spares (R137). -/
structure PeatSt where
  /-- PEAT_ERR.LAST_STATUS | R124 | 0 -/
  last : Byte := 0
  /-- PEAT_ERR.UE_COUNT | R124 | 0 -/
  ue : Byte := 0
  /-- spare rows used by bank | R137 | 0 (from repair map) -/
  rowsUsed : SMap Nat := []
  /-- spare banks used | R137 | 0 (from repair map) -/
  banksUsed : Nat := 0
deriving DecidableEq, Repr

/-- A time word on a Pregus link: its send instant, the cycle, the INCR and the epoch at the sending, and the request (R346, R368). -/
structure TimeWord where
  at_ : Instant := 0
  tick : Nat := 0
  incr : BitVec 36 := 0x200000000
  epoch : Byte := 0
  req : Bool := false
deriving DecidableEq, Repr

/-- A time follower of a base die (R346, R348). -/
structure FollowerSt where
  /-- its reading when it was last set, and the cycle of its clock then | R346 | 0 -/
  base : Instant := 0
  baseTick : Nat := 0
  /-- the INCR it runs with, that of the latest time word | R346 | 0x2_0000_0000 (DESIGN CHOICE) -/
  incr : BitVec 36 := 0x200000000
  /-- the epoch of its reading | R336, R346 | 0 -/
  epoch : Byte := 0
  /-- no word has come for 16 us since the latest one | R348 | false -/
  lost : Bool := false
  /-- its time is valid | R348 | true (DESIGN CHOICE) -/
  valid : Bool := true
  /-- instant of the latest time word received | R348 | 0 -/
  lastWord : Instant := 0
  /-- a time word sent and not yet received | R346, R368 | none -/
  wire : Option TimeWord := none
  /-- the safe-state request that the latest time word carried | R368 | false -/
  reqSeen : Bool := false
deriving DecidableEq, Repr

/-- A finished replay entry (R296): its camera and frame, and the decoded planes. -/
structure Offer where
  frame : Nat := 0
  camera : Nat := 0
  sample : Nat := 0
  void : Bool := false
  truncated : Bool := false
  jpeg : Bool := false
  planes : List (List Nat) := []
deriving DecidableEq, Repr

/-- The replay decoder of a die (R295 to R304). -/
structure DecoderSt where
  /-- CSI_DEC_CTRL.ERR | R298 | 0 -/
  err : Bool := false
  /-- CSI_DEC_CTRL.HEAD | R295 | 0 -/
  head : BitVec 15 := 0
  /-- CSI_DEC_CTRL.TAIL | R295 | 0 -/
  tail : BitVec 15 := 0
  /-- an entry is being decoded | R295 | false -/
  busy : Bool := false
  /-- the entry's bytes | R295 | none -/
  entry : List Byte := []
  /-- status of the entry | R297 | 0 -/
  status : Byte := 0
  /-- data ended early | R298 | false -/
  trunc : Bool := false
  /-- the decoded planes after augmentation, row-major, and their size | R299, R301, R304 | none -/
  planes : List (List Nat) := []
  width : Nat := 0
  height : Nat := 0
  jpeg : Bool := false
  /-- finished entries waiting to be offered, with their CAP_OFF_NS | R296 | none -/
  offers : List (Offer × Nat) := []
deriving DecidableEq, Repr

/-- A frame that is received, waits for its pipeline or is in it (R281 to R288, R318). -/
structure FrameJob where
  camera : Nat := 0
  facet : Nat := 0
  /-- device frame k -/
  k : Nat := 0
  capture : Stamp := {}
  csiFn : Nat := 0
  /-- raw slot, 0 or 1 -/
  slot : Nat := 0
  /-- note flags gathered so far -/
  flags : Nat := 0
  /-- image lines and embedded-data lines received, and image lines padded, cut, zeroed or missing -/
  lines : Nat := 0
  emb : Nat := 0
  badLines : Nat := 0
  sample : Nat := 0
  replay : Bool := false
  void : Bool := false
  jpeg : Bool := false
  /-- decoded planes of a JPEG frame -/
  planes : List (List Nat) := []
  /-- the frame has been received whole, or the decoder has finished it -/
  ended : Bool := false
  /-- start instant: the reading, and the time since power-on -/
  start : Instant := 0
  startMono : Instant := 0
  /-- the arm of this frame failed -/
  paramErr : Bool := false
deriving DecidableEq, Repr

/-- A camera context (R281 to R288). -/
structure CamSt where
  /-- CSI_CAM_HEALTH.STALE | R283 | 0 -/
  stale : Byte := 0
  /-- CSI_CAM_HEALTH.FAULT | R285 | 0 -/
  fault : Byte := 0
  /-- CSI_CAM_HEALTH.SKIP | R282 | 0 -/
  skip : Byte := 0
  /-- CSI_CAM_HEALTH.LOST | R287 | 0 -/
  lost : Byte := 0
  /-- CSI_CAM_OK.COUNT | R288 | 0 -/
  ok : Word := 0
  /-- notes written since the image loaded | R288 | 0 -/
  noteSeq : Word := 0
  /-- statistics records written since the image loaded | R324 | 0 -/
  statSeq : Word := 0
  /-- device frame of the latest frame not dropped | R282 | none -/
  lastFrame : Option Nat := none
  /-- device frame of the latest Frame Start | R287 | none -/
  lastStart : Option Nat := none
  /-- the outage of R287 has been raised | R287 | false -/
  outage : Bool := false
  /-- device frames already examined for a Frame Start | R287 | 0 -/
  lostTo : Nat := 0
  /-- device frame of the frame being received | R285 | none -/
  cur : Option Nat := none
  /-- frames waiting for the pipeline, oldest first | R283 | none -/
  waiting : List FrameJob := []
deriving DecidableEq, Repr

/-- An image pipeline (ISP_PIPE_STATUS, ISP_PIPE_LAST). -/
structure PipeSt where
  /-- ISP_PIPE_STATUS.WAIT_FREE | R318 | 0 -/
  waitFree : Bool := false
  /-- ISP_PIPE_STATUS.FRAMES | R322 | 0 -/
  frames : BitVec 24 := 0
  /-- ISP_PIPE_LAST.DURATION_US | R322 | 0 -/
  durUs : Half := 0
  /-- ISP_PIPE_LAST.FRAME | R322 | 0 -/
  lastFrame : Half := 0
  /-- the frame in progress (BUSY, FACET) | R283 | none -/
  cur : Option FrameJob := none
  /-- a frame chosen under R283 that waits under R318 | R318 | none -/
  chosen : Option FrameJob := none
  /-- checker copies written since the image loaded | R319 | 0 -/
  chkSeq : Word := 0
deriving DecidableEq, Repr

/-- A Facet (ISP_FCTX). -/
structure FctxSt where
  /-- ARM | R326 | 0 -/
  arm : Bool := false
  /-- ARM_BANK | R326 | 0 -/
  armBank : Bool := false
  /-- ACTIVE | R326 | 0 -/
  active : Bool := false
  /-- HAS_PARAMS | R327 | 0 -/
  hasParams : Bool := false
  /-- ARM_ERR | R327 | 0 -/
  armErr : Bool := false
  /-- ERR_CAUSE | R327 | 0 -/
  errCause : BitVec 3 := 0
  /-- the bank in force as copied (PARAM_SEQ is its first word) | R326 | none -/
  bank : List Byte := []
deriving DecidableEq, Repr

/-- A temperature and voltage sensor (THM_SENS). -/
structure SensSt where
  temp : BitVec 11 := 0
  volt : BitVec 11 := 0
  valid : Bool := false
deriving DecidableEq, Repr

/-- What a planned fence is for (R411, R424, R442). -/
inductive FencePurpose where
  | repair | bist | update
deriving DecidableEq, Repr

/-- A planned fence that drains (R409): kind, global unit number, the end of its drain limit, and its purpose. -/
structure FenceReq where
  kind : UnitKind
  unit : Nat
  drainUntil : Instant
  purpose : FencePurpose
deriving DecidableEq, Repr

/-- A Lattice packet (R476). -/
structure Packet where
  kind : Nat := 0
  cls : Nat := 0
  vl : Nat := 0
  dst : Nat := 0
  src : Nat := 0
  word4 : Nat := 0
  tag : Nat := 0
  word12 : Nat := 0
  data : List Byte := []
deriving DecidableEq, Repr

/-- A Lattice port (LAT_PORT_STATUS). -/
structure PortSt where
  /-- STATE | R472 | 0 DOWN -/
  state : BitVec 3 := 0
  /-- RETRAINS | R474 | 0 -/
  retrains : Byte := 0
  /-- REPLAYS | R474 | 0 -/
  replays : Byte := 0
  /-- DROPS | R479 | 0 -/
  drops : Byte := 0
  /-- SEQ of the next flit sent | R473 | 0 -/
  txSeq : BitVec 12 := 0
  /-- SEQ of the next flit expected | R473 | 0 -/
  rxSeq : BitVec 12 := 0
  /-- flits sent and not acknowledged, oldest first, at most 512 | R474 | none -/
  replayBuf : List (List Byte) := []
  /-- replays without progress | R474 | 0 -/
  noProgress : Nat := 0
  /-- flits of the packet being received | R473 | none -/
  partialRx : List Byte := []
  /-- packets received and not yet processed, oldest first | R473 | none -/
  inbox : List Packet := []
  /-- flits that have left the port, oldest first (the wire out) | R473 | none -/
  outbox : List (List Byte) := []
  /-- requests outstanding through the port: tag, queue, position of the command | R477, R483 | none -/
  outstanding : List (Nat × Nat × Nat) := []
  /-- credits used at the far end, in flits, by class * 2 + VL | R475 | 0 -/
  crUsed : SMap Nat := []
  /-- credits owed to the far end, by class * 2 + VL | R475 | 0 -/
  crOwed : SMap Nat := []
  /-- packets that wait for credits or for places in the replay buffer: class * 2 + VL, payloads of their flits | R474, R475 | none -/
  txWait : List (Nat × List (List Byte)) := []
  /-- the packet that is being sent: class * 2 + VL, payloads of the flits left | R473 | none -/
  txOpen : Option (Nat × List (List Byte)) := none
  /-- a flit has been received good since the port trained (ACKV) | R473 | false -/
  rxAny : Bool := false
  /-- requests of other chips sent on through the port and not answered yet: the port on which each came, and its header | R483 | none -/
  transit : List (Nat × Packet) := []
  /-- the latest ACK or credit, or the packet that ended an idle time | R474 | 0 -/
  heardAt : Instant := 0
  /-- status 0x97 of a failed training | R472 | 0 -/
  trainStatus : Byte := 0
  /-- the link's LAST time exchange reading | R481 | 0 -/
  timeOffset : Int := 0
deriving DecidableEq, Repr

/-- Firmware of a component as loaded (R439). -/
structure Firmware where
  version : Nat := 0
  peerMin : Nat := 0
  secVersion : Nat := 0
  imageFmt : Nat := 0
  settingsFmt : Nat := 0
  digest : List Byte := []
deriving DecidableEq, Repr

/-- A die: Die Controller block, PEAT, DRAM, CSI, ISP, LAT, PWR and THM blocks. -/
structure DieSt where
  /-- recovery state of the die | R404 | IN_SERVICE -/
  u : UnitSt := {}
  /-- DIE_RECOV_CTRL OP, KIND, UNIT | R404 | 0 -/
  recovCtrl : Word := 0
  /-- DIE_RECOV_STATUS.LAST_STATUS | R404 | 0 -/
  recovLast : Byte := 0
  /-- dumps written by this die since the image loaded | R415 | 0 -/
  dumpSeq : Word := 0
  /-- DIE_RECOV_STATUS.DROPS | R409, R410 | 0 -/
  drops : Byte := 0
  /-- DIE_DUMP_BASE | R414 | 0 -/
  dumpLo : Word := 0
  dumpHi : Word := 0
  /-- DIE_KILL | R428 | 0 -/
  kill : Word := 0
  /-- DIE_KILL_CARVE[0..3] | R428 | 0xFFFF_FFFF -/
  killCarve : SMap Word := []
  /-- DIE_CTRLPROC | R423 | 0 -/
  aRetired : Bool := false
  bRetired : Bool := false
  swaps : BitVec 7 := 0
  serving : Bool := false
  /-- instant of the latest heartbeat | R423 | 0 -/
  beatAt : Instant := 0
  /-- instant until which no new recovery starts, after a takeover | R423 | 0 -/
  holdUntil : Instant := 0
  /-- firmware of processors A and B | R22, R440 | none -/
  fwA : Firmware := {}
  fwB : Firmware := {}
  /-- planned fences that drain (DIE_RECOV_STATUS.BUSY is 1 while there is one or a unit is RESETTING) | R409 | none -/
  fences : List FenceReq := []
  peat : PeatSt := {}
  dec : DecoderSt := {}
  follower : FollowerSt := {}
  port : PortSt := {}
  /-- PWR_CLKCTRL.WERR | R496 | 0 -/
  clkWerr : Bool := false
  /-- PWR_CLKCTRL.MOD in force | R496 | 1 -/
  clkMod : BitVec 2 := 1
  /-- PWR_CLKCTRL.SSC_OFF in force | R496 | 0 -/
  sscOff : Bool := false
  /-- pending MOD and SSC_OFF | R496 | none -/
  clkPending : Option (BitVec 2 × Bool) := none
  /-- THM_DIE_STATUS.TJ_MAX | R507 | 0 -/
  tjMax : BitVec 11 := 0
  /-- THM_DIE_STATUS.F_NOM | R508 | 1000 -/
  fNom : Nat := 1000
  /-- evaluations in a row in which f_t was above f_nom | R508 | 0 -/
  riseRun : Nat := 0
  /-- THM_DIE_STATUS.BAD3 | R507 | 0 -/
  bad3 : Bool := false
  /-- THM_DIE_STATUS.OVER | R508 | 0 -/
  overFlag : Bool := false
  /-- instant of the latest OVER log entry | R508 | none -/
  overAt : Option Instant := none
  /-- THM_DIE_STATUS.TRIPPED | R504 | 0 -/
  tripped : Bool := false
  /-- the die is off after a trip until the host restarts it | R504 | false -/
  tripOff : Bool := false
  /-- instants of the trips since the package reset, newest first | R504 | none -/
  trips : List Instant := []
  /-- THM_SENS[s] | R507 | 0 -/
  sens : SMap SensSt := []
  /-- the die has been sampled since its reset was released | R507 | false -/
  sampled : Bool := false
  /-- PWR_EN_d ball | R492 | 0 -/
  pwrEn : Bool := false
  /-- PGOOD_d as accepted | R492 | 0 -/
  pgood : Bool := false
  /-- instant at which PWR_EN_d rose | R492 | 0 -/
  pwrAt : Instant := 0
deriving DecidableEq, Repr

/-- A MAC of the Range Intake (RNG_MAC_STATUS, R289 to R294). -/
structure RangeMacSt where
  /-- DROP_FULL | R289 | 0 -/
  dropFull : Byte := 0
  /-- NOMATCH | R290 | 0 -/
  noMatch : Byte := 0
  /-- LATE | R293 | 0 -/
  late : Byte := 0
  /-- SEEN | R293 | 0 -/
  seen : Bool := false
  /-- frames whose grid is open and for which a packet has matched | R293 | none -/
  matched : List Nat := []
  /-- packets in the MAC's packet buffers, oldest first, with replay flag; a replayed one is its template number and payload | R289,
R303 | none -/
  buf : List (Stamp × Bool × List Byte) := []
  /-- next slot of the range replay ring, and the reading at which the Range Intake reached it | R303 | 0, 0 -/
  replayPos : Nat := 0
  replayAt : Instant := 0
deriving DecidableEq, Repr

/-- A grid cell (R292): COUNT, and ZMAX or none for the empty value 0x8000. -/
structure GridCell where
  count : Nat := 0
  zmax : Option Int := none
deriving DecidableEq, Repr

/-- The host network path of a MAC (R469, R470). -/
structure HpSt where
  /-- ETH_HP_CB[m] | R469 | 0 -/
  cbLo : Word := 0
  cbHi : Word := 0
  /-- ETH_HP_STATUS.ENABLED | R469 | 0 -/
  enabled : Bool := false
  /-- ETH_HP_STATUS.LAST_STATUS | R470 | 0 -/
  last : Byte := 0
  /-- ETH_HP_STATUS.RX_DROP | R470 | 0 -/
  rxDrop : Half := 0
  /-- rings read from the control block | R469 | 0 -/
  txRing : Nat := 0
  rxRing : Nat := 0
  txLog2 : Nat := 0
  rxLog2 : Nat := 0
  /-- tails of ETH_HP_DB[m] and descriptors done | R470 | 0 -/
  txTail : Half := 0
  rxTail : Half := 0
  txDone : Half := 0
  rxDone : Half := 0
  /-- SEQ of the next transmit and receive completion | R469 | 0 (DESIGN CHOICE) -/
  txSeq : Word := 0
  rxSeq : Word := 0
  /-- frames that have left the MAC with their FCS, oldest first (the wire out) | R345, R470 | none -/
  sent : List (List Byte) := []
  /-- PTP messages handed to the time firmware, oldest first, with their stamps | R342 | none -/
  ptp : List (Stamp × List Byte) := []
  /-- completions of the frames that the time firmware has sent: status, and the transmit stamp under MODE 1 and 2 | R344 | none -/
  ptpDone : List (Byte × Option Stamp) := []
deriving DecidableEq, Repr

/-- The time base (TB block, R330 to R340). -/
structure TimeBase where
  /-- SEC | R330 | 0 -/
  sec : BitVec 48 := 0
  /-- NS | R330 | 0 -/
  ns : BitVec 30 := 0
  /-- FRAC | R330 | 0 -/
  frac : BitVec 32 := 0
  /-- TB_INCR | R335 | 0x2_0000_0000 -/
  incr : BitVec 36 := 0x200000000
  /-- low word of TB_INCR held for its high word | R335 | 0 -/
  incrHeld : Word := 0
  /-- cycles of the 500 MHz counter clock since power-on (the model's own field) | R330 | 0 (DESIGN CHOICE) -/
  ticks : Nat := 0
  /-- TB_SET[0..2] | R334 | 0 -/
  set0 : Word := 0
  set1 : Word := 0
  set2 : Word := 0
  /-- TB_REEPOCH | R336 | 0 -/
  reepoch : Dword := 0
  /-- TB_SNAP[0..3] | R331 | 0 -/
  snap0 : Word := 0
  snap1 : Word := 0
  snap2 : Word := 0
  snap3 : Word := 0
  /-- TB_STATUS.LAST_STATUS | R333 | 0 -/
  last : Byte := 0
  /-- TB_STATUS.EPOCH | R336 | 0 -/
  epoch : Byte := 0
  /-- the moves of the re-epochs so far, newest first (the model's own field) | R336 | none -/
  moves : List Int := []
  /-- TB_STATUS.CAP_OVF | R351 | 0 -/
  capOvf : Bool := false
  /-- TB_STATUS.REEPOCH_PEND: the boundary it waits for and TB_REEPOCH.DELTA of the accepted request | R336 | none -/
  reepochAt : Option (Instant × Int) := none
  /-- TB_STATUS.HOLDOVER | R339 | 0 -/
  holdover : Bool := false
  /-- TB_STATUS.VALID | R339 | 1 -/
  valid : Bool := true
  /-- TB_STATUS.LOCKED | R339 | 0 -/
  locked : Bool := false
  /-- TB_STATUS.STEPPED | R334 | 0 -/
  stepped : Bool := false
  /-- offsets in a row within and above LOCK_NS | R339 | 0 -/
  goodRun : Nat := 0
  badRun : Nat := 0
  /-- instant at which holdover began | R339 | 0 -/
  holdAt : Instant := 0
  /-- instant of the latest measurement, at first that of the image's activation | R339 | 0 -/
  measuredAt : Instant := 0
  /-- the whole second whose PPS edge is awaited | R338 | 0 -/
  ppsNext : Nat := 0
  /-- SEV-157 has been raised in this loss of lock | R339 | false -/
  bigRaised : Bool := false
  /-- T0 of R89, once the start has applied; a re-epoch may move it below 0 | R64, R336 | none -/
  t0 : Option Int := none
  /-- capture FIFOs | R351 | empty -/
  caps : SMap (List Stamp) := []
  /-- level last accepted on CAP_n | R351 | low (DESIGN CHOICE) -/
  capLevel : SMap Bool := []
  /-- the cycle after the one at which the latest level of CAP_n was accepted, 0 before the first | R351 | 0 -/
  capTick : SMap Nat := []
  /-- ticks left of the active pulse of TRIG_t, 0 when inactive | R349 | 0 -/
  pulse : SMap Nat := []
  /-- frame or second after the latest one whose pulse has been handled, by trigger | R349 | 0 -/
  trigNext : SMap Nat := []
  /-- next frame whose window closes, and the frames from it on in whose window an edge has come, by comparator | R352 | 0 -/
  monNext : SMap Nat := []
  monSeen : SMap (List Nat) := []
  /-- PWR_IOCFG[t] and a write held for the end of the pulse | R500 | 0x5 -/
  iocfg : SMap Word := []
  iocfgHeld : SMap (Option Word) := []
  /-- ETH_TSLAT[m] | R341 | 0 -/
  tslat : SMap Word := []
deriving DecidableEq, Repr

/-- A PUBLISH on its way to the staging record (R95): the sending command (queue, position), PAY_OFF, the bytes and the
capture word. -/
structure StageUpdate where
  sender : Nat × Nat
  off : Nat
  bytes : List Byte
  capture : Dword
deriving DecidableEq, Repr

/-- The staging record of the commit tile (R94, R95) and updates on their way to it. -/
structure StagingSt where
  /-- payload bytes by offset | R95 | 0 -/
  payload : SMap Byte := []
  /-- capture times by PAY_OFF, as time words | R95, R97 | 0 -/
  capture : SMap Dword := []
  /-- PUBLISH updates not yet written, oldest first | R95 | none -/
  updates : List StageUpdate := []
deriving DecidableEq, Repr

/-- Beats, schedule and result ring (03). -/
structure BeatSt where
  /-- number of the next beat to start | R89 | 0 -/
  next : Nat := 0
  /-- number of the next beat whose record is committed | R96 | 0 -/
  commitNext : Nat := 0
  /-- next entry of the schedule in force | R91 | 0 -/
  schedPos : Nat := 0
  /-- frame number of the latest beat | R89 | 0 -/
  frame : Nat := 0
  /-- WR_SEQ of the next record | R100 | 0 -/
  wrSeq : Word := 0
  /-- ALIVE of the next record | R98 | 0 -/
  alive : Byte := 0
  /-- LOST | R101 | 0 -/
  lost : Word := 0
  /-- beats without record since the commit tile was lost | R19 | 0 -/
  gap : Word := 0
  /-- INVALID is owed to the next record (R140, R202, R321, R406) | R99 | false -/
  invalidNext : Bool := false
  /-- frames below this number carry INVALID (R18, R65, R337) | R18 | 0 -/
  invalidBefore : Nat := 0
  /-- frames below this number carry INVALID only because of R337 | R337 | 0 -/
  reepochBefore : Nat := 0
  /-- SATURATED is owed to the next record | R99 | false -/
  satNext : Bool := false
  /-- LATE records of the current frame | R373 | 0 -/
  lateCount : Nat := 0
  staging : StagingSt := {}
  /-- region whose alternate schedule runs (CTX_MODE.MISSING), 0xF none | R18 | none -/
  missing : Option Nat := none
  /-- missing regions in the order in which they went missing | R19 | none -/
  missOrder : List Nat := []
  /-- mode and region of the schedule that ran before the latest frame boundary (the record of the last beat of a frame is
  committed after the boundary) | R18, R96 | 0, none -/
  prevMode : Nat := 0
  prevMissing : Option Nat := none
deriving DecidableEq, Repr

/-- A record or header on its way to the safety controller (R374, R392): the header with its CRC-16. `full` is the whole record at
CMP_BEAT, empty at other beats; `marked` and `reepochOnly` tell why a record is INVALID: for a cause that row 1 of R363 counts, or
through R337 alone. -/
structure Mirror where
  beat : Nat
  header : List Byte
  check : Nat
  full : List Byte
  marked : Bool
  reepochOnly : Bool
deriving DecidableEq, Repr

/-- A checker run (R360). -/
structure CheckerRun where
  k : Nat
  noInput : Bool
  /-- buffer contents and shapes H, W, C by buffer number -/
  bufs : List (Nat × Nat × Nat × Nat × List Int)
  startedAt : Instant
deriving DecidableEq, Repr

/-- The safety controller and comparator (SAF block, 14). -/
structure SafetySt where
  /-- SAF_STATUS.REQ | R367 | 0 -/
  req : Bool := false
  /-- instant at which the request was decided | R368 | 0 -/
  reqAt : Instant := 0
  /-- SAF_STATUS.FIRST_SEV | R367 | 0 -/
  firstSev : BitVec 9 := 0
  /-- SAF_STATUS.LAST_STATUS | R370 | 0 -/
  last : Byte := 0
  /-- level of ball SAFE_A_N | R368, R499 | low -/
  safeA : Bool := false
  /-- level of ball SAFE_B | R368, R499 | high -/
  safeB : Bool := true
  /-- levels read back (SAFE_A_RB, SAFE_B_RB) | R368 | 0, 1 -/
  safeARb : Bool := false
  safeBRb : Bool := true
  /-- outcomes of the comparisons since the start or the release, newest first: counted as disagreeing | R366 | none -/
  hist : List Bool := []
  /-- outcomes of all comparisons, newest first, at most 256 | R370 | none -/
  cmps : List Bool := []
  /-- SAF_LASTCMP CMP, COUNTED, ROW, U_C, U_M | R363 | 0 -/
  cmp : Nat := 0
  counted : Bool := false
  row : Nat := 0
  uC : Nat := 0
  uM : Nat := 0
  /-- SAF_COUNTS.CHK_ONLY | R363 | 0 -/
  chkOnly : Half := 0
  /-- SAF_COUNTS.MAIN_ONLY | R363 | 0 -/
  mainOnly : Half := 0
  /-- instant of the latest completed comparison | R365 | none -/
  cmpAt : Option Instant := none
  /-- input frame of the next comparison | R364 | 0 -/
  cmpNext : Nat := 0
  /-- an accepted release waits for its boundary | R370 | false -/
  releasePend : Bool := false
  /-- first frame after the latest cause marked S | R370 | 0 -/
  causeFrame : Nat := 0
  /-- headers sent and not yet received, oldest first | R374 | none -/
  mirrors : List Mirror := []
  /-- next beat whose header is awaited | R374 | 0 -/
  mirrorNext : Nat := 0
  /-- BEAT of the latest header | R374 | none -/
  prevBeat : Option Nat := none
  /-- mirrored record of CMP_BEAT, and whether its CRC passes | R374 | none -/
  mirrored : Option (Mirror × Bool) := none
  /-- the checker run in progress | R360 | none -/
  run : Option CheckerRun := none
  /-- buffer 31 of the finished run: input frame, no input, finish instant, elements | R360 | none -/
  result : Option (Nat × Bool × Instant × List Int) := none
  /-- failed Pregus self-test targets in service | R370 | none -/
  failedTests : List TestTarget := []
  /-- self-test progress by target and unit: steps done, round start | R378 | 0 -/
  tests : SMap (Nat × Instant) := []
  /-- instant at which the start transaction applied, from which the first rounds count | R377, R379 | 0 -/
  testsFrom : Instant := 0
  /-- checksum entries verified in the first frame | R376 | none -/
  sumsDone : List Nat := []
deriving DecidableEq, Repr

/-- The Ash log (R384 to R387). -/
structure AshSt where
  /-- ring entries in PSRAM by slot s mod 131072, 64 bytes each | R384 | empty -/
  ring : SMap (List Byte) := []
  /-- SAF_ASH_HEAD | R385 | 0 (restored at start-up) -/
  head : Dword := 0
  /-- entries of the page not yet programmed, oldest first, with the instant of the first | R384 | none -/
  page : List (List Byte) := []
  pageAt : Instant := 0
  /-- next page of the flash mirror | R384 | 0 (restored at start-up) -/
  mirrorPage : Nat := 0
  /-- SAF_ASH_SEL | R387 | 0 -/
  selLo : Word := 0
  selHi : Word := 0
  /-- SAF_ASH_DATA | R387 | 0 -/
  data : List Byte := []
  /-- SAF_ASH_STATUS RD_BUSY, RD_GONE, RD_FLASH | R387 | 0 -/
  rdBusy : Bool := false
  rdGone : Bool := false
  rdFlash : Bool := false
  /-- SEV, UNIT, status, recurrences and latest stamp of the events of the current frame | R386 | none -/
  seen : List (Nat × Nat × Nat × Nat × Stamp) := []
deriving DecidableEq, Repr

/-- One entry of the event FIFO (R464). -/
structure EvtEntry where
  word0 : Word
  stamp : Stamp
deriving DecidableEq, Repr

/-- The last answer on the host link: status of the completion (0 successful, 1 Unsupported Request, 2 Completer Abort) and data. -/
structure HostResp where
  kind : Nat := 0
  data : List Byte := []
deriving DecidableEq, Repr

/-- The host-link island (UCI block, R456 to R468). -/
structure HostLinkSt where
  /-- UCI_LINK.RATE | R465 | 0 -/
  rate : BitVec 4 := 0
  /-- UCI_LINK.MODS | R465 | 0 -/
  mods : BitVec 4 := 0
  /-- UCI_LINK.RETRAINS | R466 | 0 -/
  retrains : Byte := 0
  /-- UCI_LINK.REPLAYS | R466 | 0 -/
  replays : Byte := 0
  /-- status 0x98 of a failed training | R465 | 0 -/
  trainStatus : Byte := 0
  /-- UCI_ERR LAST_STATUS, POISONED, ABORTS, DROPS | R459 to R461 | 0 -/
  errLast : Byte := 0
  poisoned : Byte := 0
  aborts : Byte := 0
  drops : Byte := 0
  /-- event FIFO, oldest first, at most 1024 | R464 | empty -/
  events : List EvtEntry := []
  /-- UCI_IRQ.OVF | R464 | 0 -/
  ovf : Bool := false
  /-- UCI_IRQ.LOST | R464 | 0 -/
  lost : Byte := 0
  /-- UCI_IRQ.RING_LOG2 | R463 | 0x1F -/
  ringLog2 : BitVec 5 := 0x1F
  /-- UCI_MB_TX[i] | R480 | 0 -/
  mbTx : SMap Word := []
  /-- UCI_MB_STATUS.LAST_STATUS | R480 | 0 -/
  mbLast : Byte := 0
  /-- receive FIFO of the mailbox, at most 64 | R480 | empty -/
  mbRx : List (List Byte) := []
  /-- UCI_FLASH BUSY, OPENED, SLOT, LAST_STATUS, DROPS | R468 | 0 -/
  flBusy : Bool := false
  flOpened : Bool := false
  flSlot : BitVec 3 := 0
  /-- the slot that is open | R468 | 0 -/
  flOpenSlot : Nat := 0
  flLast : Byte := 0
  flDrops : Half := 0
  /-- sectors erased since OPEN | R468 | none -/
  flErased : List Nat := []
  /-- AER: a Poisoned TLP has been reported (configuration space) | R461 | 0 -/
  aerPoison : Bool := false
  /-- power state D3hot (configuration space) | R456 | D0 -/
  d3hot : Bool := false
  /-- MSI-X enable (configuration space) | R456, R467 | 0 -/
  msixEnable : Bool := false
  /-- vectors unmasked | R467 | none -/
  unmasked : SMap Bool := []
  /-- pending bits (PBA) | R467 | 0 -/
  pba : SMap Bool := []
  /-- message address and data words of the MSI-X table, by vector * 4 + word 0 to 2 | R459 | 0 -/
  msixTable : SMap Word := []
  /-- MSI-X messages sent, newest first (the wire to the host) | R463 | none -/
  sent : List Nat := []
  /-- the latest completion returned to the host | R460 | none -/
  resp : HostResp := {}
deriving DecidableEq, Repr

/-- An entry of a transaction list (R432). -/
structure TxnEntry where
  op : Nat
  target : Nat
  value : Word
  mask : Word
deriving DecidableEq, Repr

/-- A committed transaction (R433 to R437). `target` is T; none while a START is held for the first step. -/
structure Txn where
  id : Word
  entries : List TxnEntry
  target : Option Instant
  /-- CTX_TXN_WHEN as an instant, for a held START -/
  when_ : Instant
  /-- the beat that starts at T; none for a START -/
  beat : Option Nat
  /-- votes in, by die -/
  voted : List (Nat × Bool)
  /-- the decision sent -/
  decision : Option Bool
  /-- the decision left too late to reach a die before T (R436) -/
  late : Bool := false
deriving DecidableEq, Repr

/-- The transaction coordinator, mode and image registers (CTX block). -/
structure CtxSt where
  /-- CTX_TXN_CTRL.BY_BEAT | R434 | 0 -/
  byBeat : Bool := false
  /-- CTX_TXN_STATUS.LAST_STATUS | R433 | 0 -/
  txnLast : Byte := 0
  /-- the pending transaction (PENDING, PREPARED, DECIDED) | R435 | none -/
  txn : Option Txn := none
  /-- entries held for a unit fenced after its owner voted: die, entry | R437 | none -/
  heldEntries : List (Nat × TxnEntry) := []
  /-- CTX_TXN_ADDR | R433 | 0 -/
  addrLo : Word := 0
  addrHi : Word := 0
  /-- CTX_TXN_WHEN[0..2] | R434 | 0 -/
  when0 : Word := 0
  when1 : Word := 0
  when2 : Word := 0
  /-- CTX_IMG_STATUS STATUS, SECTION, STEP, FALLBACK, SLOT | R57, R66 | 0, 0xFF, 0, 0, 0 -/
  imgStatus : Byte := 0
  imgSection : Byte := 0xFF
  imgStep : BitVec 4 := 0
  fallback : Bool := false
  slot : Bool := false
  /-- CTX_IMG_CONFLICT | R55 | 0xFF00_0000 -/
  conflict : Word := 0xFF000000
  /-- MODE_ID in force (CTX_MODE) | R61 | none until an image is active -/
  mode : Nat := 0
deriving DecidableEq, Repr

/-- The settings block (R441). -/
structure Settings where
  fmt : Nat := 0
  /-- DIE_DUMP_BASE by die -/
  dumpLo : SMap Word := []
  dumpHi : SMap Word := []
  /-- TIL_WDOG HANG_MULT and LIMIT by tile -/
  hangMult : SMap Nat := []
  limit : SMap Nat := []
  /-- ETH_TSLAT by MAC -/
  tslat : SMap Word := []
deriving DecidableEq, Repr

/-- Update (UPD block) and the firmware of the Pregus die. -/
structure UpdSt where
  /-- the slot selector of the flash: active slot of Pregus firmware, Die Controller firmware and structure image | R438 | 0 -/
  selPregus : Bool := false
  selDie : Bool := false
  selImage : Bool := false
  /-- the settings block of the flash, none while it is erased | R441 | none -/
  settings : Option Settings := none
  /-- flash slots from which the firmware in force was started | R448 | 0 -/
  runPregus : Bool := false
  runDie : Bool := false
  /-- UPD_CTRL OP and UNIT | R442 | 0 -/
  ctrl : Word := 0
  /-- UPD_STATUS.HITLESS | R443 | 0 -/
  hitless : Bool := false
  /-- UPD_STATUS.LAST_STATUS | R442 | 0 -/
  last : Byte := 0
  /-- UPD_STATUS.STAGED | R442 | 0 -/
  staged : BitVec 14 := 0
  /-- Pregus firmware in force and in the inactive bank | R442 | none -/
  pregus : Firmware := {}
  pregusStaged : Firmware := {}
  /-- flash slot from which the standby processors were staged | R442 | 0 -/
  dieSlot : Bool := false
  /-- until when an activation of Pregus firmware holds INCR, as a count of ticks in ns | R445 | 0 -/
  servicesFrom : Instant := 0
  /-- the staged image and its flash slot | R442 | none -/
  image : Option Image := none
  imageSlot : Bool := false
  /-- components staged and not activated since, bits PREGUS DIE STRUCT | R449 | none -/
  unproven : BitVec 3 := 0
deriving DecidableEq, Repr

/-- An OTP key slot (R446). -/
structure KeySlot where
  programmed : Bool := false
  digest : List Byte := []
  roles : Nat := 0
  revoked : Bool := false
deriving DecidableEq, Repr

/-- Security: SEC block and OTP fuses (R446 to R454). -/
structure SecSt where
  /-- SEC_CTRL.COMP | R449 | 0 -/
  comp : BitVec 2 := 0
  /-- SEC_STATUS.LAST_STATUS | R449 | 0 -/
  last : Byte := 0
  /-- SEC_STATUS.BOOT_STATUS | R448 | 0 -/
  bootStatus : Byte := 0
  /-- SEC_STATUS.DEBUG | R453 | 0 -/
  debugLevel : BitVec 2 := 0
  /-- SEC_NONCE[i] | R452 | 0 -/
  nonce : SMap Word := []
  /-- SEC_REPORT_ADDR | R452 | 0 -/
  reportLo : Word := 0
  reportHi : Word := 0
  /-- draws of SEC_CHAL made so far; SEC_CHAL is the free value of this draw | R454 | 0 -/
  chalDraw : Nat := 0
  /-- OTP key slots 0 to 7 | R446 | slot 0 with roles 3 (fuses) -/
  keys : SMap KeySlot := [(0, { programmed := true, digest := List.replicate 64 0, roles := 3 })]
  /-- OTP anti-rollback counters PREGUS, DIE, STRUCT | R449 | 0 (fuses) -/
  cntPregus : Nat := 0
  cntDie : Nat := 0
  cntStruct : Nat := 0
  /-- OTP RACK_EN | R450 | 0 (fuse) -/
  rackEn : Bool := false
  /-- OTP VEHICLE_LOCK | R450 | 0 (fuse) -/
  vehicleLock : Bool := false
  /-- TEST_EN_N was low at the release of the reset | R453 | false -/
  testMode : Bool := false
  /-- instruction in the JTAG port | R453 | BYPASS -/
  jtag : JtagOp := .bypass
deriving DecidableEq, Repr

/-- The Range Intake (R289 to R294). -/
structure RangeSt where
  /-- per MAC | R289 | reset values -/
  macs : SMap RangeMacSt := []
  /-- packets forwarded by template | R294 | 0 -/
  tmplSeq : SMap Word := []
  /-- cells of the open grids by frame, then iy * GRID_X + ix | R292 | empty -/
  grids : SMap (SMap GridCell) := []
  /-- packets binned by frame | R360 | 0 -/
  binned : SMap Nat := []
  /-- next frame whose grid closes | R293 | 0 -/
  next : Nat := 0
deriving DecidableEq, Repr

/-- A message of another chip whose packets arrive: its source, what the header of its next packet has (TAG, WRITE's offset 4 and 12
fields), what stood where its packets wrote, newest first, and the acknowledgement of its packets once it is dropped (R88, R477). -/
structure RemoteMsg where
  src : Nat
  tag : Nat
  word4 : Nat
  offset : Nat
  old : List (Nat × List Byte) := []
  dropped : Option Nat := none
deriving DecidableEq, Repr

/-- The Lattice system registers (R478, R479). -/
structure LatSt where
  /-- LAT_SYS.NUMBERED | R479 | 0 -/
  numbered : Bool := false
  /-- LAT_SYS TOPO, CHIP, FM_CHIP, TIME_MASTER, COUNT_M1 | R478, R479 | 0 -/
  topo : BitVec 3 := 0
  chip : BitVec 4 := 0
  fmChip : BitVec 4 := 0
  timeMaster : BitVec 4 := 0
  countM1 : BitVec 4 := 0
  /-- LAT_ROUTE[c] | R478 | 0x7777 -/
  routes : SMap Half := []
  /-- next TAG of a request | R476 | 0 -/
  tag : Word := 0
  /-- SEQ of the next management message sent | R480 | 0 -/
  mgmtSeq : Word := 0
  /-- messages of other chips of which not every packet has come, or that were dropped | R88, R477 | none -/
  msgs : List RemoteMsg := []
deriving DecidableEq, Repr

/-- Where the start-up stands (R63, R448, R66). -/
inductive Boot where
  /-- PRG_POR_N is held low, or a Pregus sensor tripped (R503) -/
  | held
  /-- TEST_EN_N was low: no firmware runs (R453) -/
  | testMode
  /-- the ROM found no valid Pregus firmware (R448) -/
  | recovery
  /-- steps 3 and later: dies are powered up in turn; `d` is the die whose PGOOD is awaited -/
  | powering (d : Nat)
  /-- start-up stopped: no image passed, or DRAM training failed (R66, R119) -/
  | failed
  /-- an image is active -/
  | running
deriving DecidableEq, Repr

end Sys2Proof.Machine
end

