-- ==== Sys2Proof/Machine/State.lean ====
section
/-! DEFINITION. The State of the package: plain data, everything the manual gives the Q64, the queue of the
commands that wait, and the machine right after power-on with PRG_POR_N low (State.reset). -/

namespace Sys2Proof.Machine

/-- Faults of the block. There is none: every failure the manual names is a status code, a safety event or a
counter of the State, and a command of the table always ends in a next state. -/
inductive Fault where
deriving DecidableEq, Repr

/-- Refusals of the block. -/
inductive Refusal where
  /-- Raised by an arm of `exec` alone, for a command that has no meaning yet: safe, the command does not run. -/
  | notModelled (mnemonic : String)
deriving DecidableEq, Repr

/-- The package. -/
structure State where
  /-- commands that wait, first in first out | the model's own field | empty -/
  pending : List Instr := []
  /-- DIE_TOPO.VARIANT | R1 | Q64 (per part) -/
  part : Part := .q64
  /-- DIE_TOPO.STEPPING | R1 | B0 (per part) -/
  stepping : Stepping := .b0
  /-- devices fitted on the twelve channels: density code, and the data rates in MT/s that they support and at which the channel
trains | R118, R119 | none -/
  fitted : List (Nat × List Nat) := []
  /-- data rate in MT/s at which the channels run, 0 before training | R119 | 0 -/
  dramRate : Nat := 0
  /-- the SRAM, checksum and checker tests of start-up BIST pass (a condition of the hardware) | R63 | true (DESIGN CHOICE) -/
  bistOk : Bool := true
  /-- the Tanex is held in reset | R63 | true -/
  tanexReset : Bool := true
  /-- THERMTRIP_N is driven low | R498 | false -/
  thermTrip : Bool := false
  /-- THM_SENS[s] of the Pregus die | R507 | 0 -/
  prgSens : SMap SensSt := []
  /-- where the start-up stands | R63 | held in reset -/
  boot : Boot := .held
  /-- tile memory, Peat and DRAM by device address | R105 | bytes read 0 (DESIGN CHOICE) -/
  mem : SMap Byte := []
  /-- flipped codeword bits of the stored ECC units, by unit address | R122 to R124 | none -/
  flips : SMap (List Nat) := []
  /-- Peat lines of 64 bytes tagged dirty, by address / 64 | R135 | none -/
  peatDirty : SMap Bool := []
  /-- DRAM blocks of 4 KiB tagged dirty, by address / 4096 | R136 | none -/
  dramDirty : SMap Bool := []
  /-- by scrubbed memory: the line after the latest one scrubbed, the number of its pass and the start of that pass | R127 | 0 -/
  scrubPos : SMap Nat := []
  scrubPass : SMap Nat := []
  scrubStart : SMap Instant := []
  /-- instant at which the first passes began | R127 | 0 -/
  scrubFrom : Instant := 0
  /-- by row: 1 + the latest pass in which its errors were corrected | R137 | 0 -/
  rowsHit : SMap Nat := []
  /-- by bank: 1 + the pass, and the errors corrected in it | R141 | 0 -/
  bankCe : SMap (Nat × Nat) := []
  /-- units whose rows are to be tested, by address | R137, R141 | none -/
  rowTests : List Nat := []
  /-- rows that post-package repair has replaced in the DRAM devices | R137 | none -/
  pprDone : List RepairEntry := []
  /-- flash of the Pregus die | R468 | bytes read 0xFF (DESIGN CHOICE) -/
  flash : SMap Byte := []
  /-- by logical tile -/
  tiles : SMap TileSt := []
  /-- by queue number -/
  queues : SMap QueueSt := []
  /-- by global cluster -/
  clusters : SMap ClusterSt := []
  /-- recovery state by global cluster | R404 | IN_SERVICE -/
  cluUnits : SMap UnitSt := []
  /-- by global region -/
  regions : SMap RegionSt := []
  /-- recovery state by global region | R404 | IN_SERVICE -/
  rgnUnits : SMap UnitSt := []
  /-- the repair map in force -/
  repair : RepairMap := {}
  /-- by physical tile -/
  slots : SMap SlotSt := []
  /-- by global channel -/
  chans : SMap ChanSt := []
  /-- by die -/
  dies : SMap DieSt := []
  /-- by camera context -/
  cams : SMap CamSt := []
  /-- by pipeline -/
  pipes : SMap PipeSt := []
  /-- Facets by pipeline * 2 + slot -/
  fctx : SMap FctxSt := []
  range : RangeSt := {}
  /-- host network paths by MAC -/
  hp : SMap HpSt := []
  tb : TimeBase := {}
  beat : BeatSt := {}
  saf : SafetySt := {}
  ash : AshSt := {}
  link : HostLinkSt := {}
  ctx : CtxSt := {}
  upd : UpdSt := {}
  sec : SecSt := {}
  lat : LatSt := {}
  /-- the Pregus check-value unit | R394 | reset values -/
  cvu : CvuSt := {}
  /-- the active image | R57 | none -/
  image : Option Image := none
  /-- units that a fault has made suspect and that the Die Controllers have still to fence: level, number, event | R141, R404 | none -/
  suspects : List (UnitKind × Nat × Nat) := []
  /-- commands started so far (the model's own field) | R156 | 0 (DESIGN CHOICE) -/
  starts : Nat := 0
  /-- draws of free values made so far (the model's own field) | - | 0 (DESIGN CHOICE) -/
  draws : Nat := 0
deriving DecidableEq, Repr

/-- The package at power-on, with PRG_POR_N low: every register at its reset value (R497). -/
def State.reset : State := {}

end Sys2Proof.Machine
end

