-- ==== Sys2Proof/Machine/Ops.lean ====
section
/-! DEFINITION. The named operations over the State that the commands share: the numbers of units, accessors, time,
interrupts, events, the Ash log and the safe-state request. -/

namespace Sys2Proof.Machine

/-! ### Numbers of units (R1, R2, R27, R30) -/

/-- Logical tiles of the part. -/
def Part.tiles : Part → Nat
  | .q64 => 64
  | .q48 => 48

/-- Queues of the part (R2). -/
def Part.queues (p : Part) : Nat := p.tiles * 512

/-- Global clusters of the part. -/
def Part.clusters (p : Part) : Nat := p.tiles / 4

/-- Global regions of the part. -/
def Part.regions (p : Part) : Nat := p.tiles / 8

/-- Tile of a queue (R27). -/
def tileOfQueue (q : Nat) : Nat := q / 512

/-- Global cluster of a tile (R27). -/
def clusterOfTile (t : Nat) : Nat := t / 4

/-- Global region of a tile (R27). -/
def regionOfTile (t : Nat) : Nat := t / 8

/-- Die of a tile (R27). -/
def dieOfTile (t : Nat) : Nat := t / 16

/-- The dies that a transfer from die `a` to die `b` passes (R23): ring neighbours take the direct link, opposite dies the way of
increasing number. -/
def dieRoute (a b : Nat) : List Nat :=
  if a = b then [a] else if (a + 2) % 4 = b then [a, (a + 1) % 4, b] else [a, b]

/-! ### Accessors -/

def State.tile (s : State) (t : Nat) : TileSt := SMap.get {} s.tiles t
def State.updTile (s : State) (t : Nat) (f : TileSt → TileSt) : State := { s with tiles := SMap.update {} s.tiles t f }
def State.queue (s : State) (q : Nat) : QueueSt := SMap.get {} s.queues q
def State.updQueue (s : State) (q : Nat) (f : QueueSt → QueueSt) : State :=
  { s with queues := SMap.update {} s.queues q f }
def State.cluster (s : State) (c : Nat) : ClusterSt := SMap.get {} s.clusters c
def State.updCluster (s : State) (c : Nat) (f : ClusterSt → ClusterSt) : State :=
  { s with clusters := SMap.update {} s.clusters c f }
def State.cluUnit (s : State) (c : Nat) : UnitSt := SMap.get {} s.cluUnits c
def State.updCluUnit (s : State) (c : Nat) (f : UnitSt → UnitSt) : State :=
  { s with cluUnits := SMap.update {} s.cluUnits c f }
def State.region (s : State) (g : Nat) : RegionSt := SMap.get {} s.regions g
def State.updRegion (s : State) (g : Nat) (f : RegionSt → RegionSt) : State :=
  { s with regions := SMap.update {} s.regions g f }
def State.rgnUnit (s : State) (g : Nat) : UnitSt := SMap.get {} s.rgnUnits g
def State.updRgnUnit (s : State) (g : Nat) (f : UnitSt → UnitSt) : State :=
  { s with rgnUnits := SMap.update {} s.rgnUnits g f }
def State.slot (s : State) (p : Nat) : SlotSt := SMap.get {} s.slots p
def State.updSlot (s : State) (p : Nat) (f : SlotSt → SlotSt) : State := { s with slots := SMap.update {} s.slots p f }
def State.chan (s : State) (c : Nat) : ChanSt := SMap.get {} s.chans c
def State.updChan (s : State) (c : Nat) (f : ChanSt → ChanSt) : State := { s with chans := SMap.update {} s.chans c f }
def State.die (s : State) (d : Nat) : DieSt := SMap.get {} s.dies d
def State.updDie (s : State) (d : Nat) (f : DieSt → DieSt) : State := { s with dies := SMap.update {} s.dies d f }
def State.cam (s : State) (c : Nat) : CamSt := SMap.get {} s.cams c
def State.updCam (s : State) (c : Nat) (f : CamSt → CamSt) : State := { s with cams := SMap.update {} s.cams c f }
def State.pipe (s : State) (p : Nat) : PipeSt := SMap.get {} s.pipes p
def State.updPipe (s : State) (p : Nat) (f : PipeSt → PipeSt) : State := { s with pipes := SMap.update {} s.pipes p f }
def State.facet (s : State) (i : Nat) : FctxSt := SMap.get {} s.fctx i
def State.updFacet (s : State) (i : Nat) (f : FctxSt → FctxSt) : State := { s with fctx := SMap.update {} s.fctx i f }
def State.mac (s : State) (m : Nat) : RangeMacSt := SMap.get {} s.range.macs m
def State.updMac (s : State) (m : Nat) (f : RangeMacSt → RangeMacSt) : State :=
  { s with range := { s.range with macs := SMap.update {} s.range.macs m f } }
def State.hpath (s : State) (m : Nat) : HpSt := SMap.get {} s.hp m
def State.updHpath (s : State) (m : Nat) (f : HpSt → HpSt) : State := { s with hp := SMap.update {} s.hp m f }
def State.port (s : State) (d : Nat) : PortSt := (s.die d).port
def State.updPort (s : State) (d : Nat) (f : PortSt → PortSt) : State := s.updDie d (fun x => { x with port := f x.port })
def State.updTb (s : State) (f : TimeBase → TimeBase) : State := { s with tb := f s.tb }
def State.updBeat (s : State) (f : BeatSt → BeatSt) : State := { s with beat := f s.beat }
def State.updSaf (s : State) (f : SafetySt → SafetySt) : State := { s with saf := f s.saf }
def State.updAsh (s : State) (f : AshSt → AshSt) : State := { s with ash := f s.ash }
def State.updLink (s : State) (f : HostLinkSt → HostLinkSt) : State := { s with link := f s.link }
def State.updCtx (s : State) (f : CtxSt → CtxSt) : State := { s with ctx := f s.ctx }
def State.updUpd (s : State) (f : UpdSt → UpdSt) : State := { s with upd := f s.upd }
def State.updSec (s : State) (f : SecSt → SecSt) : State := { s with sec := f s.sec }
def State.updLat (s : State) (f : LatSt → LatSt) : State := { s with lat := f s.lat }

/-! ### Sync references (R72) -/

/-- CHIP of a sync reference. -/
def refChip (r : Nat) : Nat := fld r 19 16
/-- CLUSTER of a sync reference. -/
def refCluster (r : Nat) : Nat := fld r 14 11
/-- OBJECT of a sync reference. -/
def refObject (r : Nat) : Nat := r % 2048
/-- Bits 31:20 and 15 are 0 (R72). -/
def refLayoutOk (r : Nat) : Bool := decide (r < 2 ^ 20) && !bit r 15

/-- This chip's number (R479); 0 before it is numbered. -/
def State.chip (s : State) : Nat := s.lat.chip.toNat

/-! ### The active image -/

/-- The values taken before an image is active: the default frame and beat (00, Defaults), SOURCE NONE, SLEW_PPM 500
(R334, R335), nothing claimed. -/
def Image.blank : Image where
  header := { variants := 3, steppings := 3, deploy := 0, chipCount := 1, secVersion := 0, imageId := 0, keySlot := 0,
              format := 0x0100, bodyDigest := [] }
  tileMap := []
  split := { strictPipes := 0, rangeMacs := 0, gridX := 16, gridY := 16, cellMm := 500, chkPyrCarve := 0,
             cmpOffset := 0, cmpLength := 4 }
  regions := []
  queues := []
  schedules := []
  carves := []
  resources := []
  cameraBinds := []
  safety := { frameNs := 33333333, beatNs := 2000, consec := 2, k := 3, m := 8, latentMs := 1000,
              maxAgeNs := 50000000, slackReserveNs := 50, clockFloorMhz := 995 }
  startMode := 0
  modes := []
  payload := { ringLog2 := 8, ringCarve := 0, stageOff := 0, fields := [] }
  intake := { ratioDef := 1, graceNs := 0, cameras := [], templates := [], decoders := [], rangeReplays := [] }
  time := { source := 0, ethSrcPort := 0, capSrcPort := 0, ptpDomain := 0, ptpMasterMacs := 0, slewPpm := 500,
            lockNs := 100, holdoverMs := 1000, reepochEn := false, triggers := [], captures := [], monitors := [] }
  isp := { chkSlot := 0, cameras := [] }
  checker := { tol := 0, minCells := 1, occThresh := 1, cmpX := 8, cmpY := 8, cmpBeat := 0, releaseFrames := 2,
               chkBudgetNs := 0, layers := [], sums := [], blob := [] }

/-- The active image, or the values that stand for it before one is active. -/
def State.img (s : State) : Image := s.image.getD Image.blank

/-- The mode in force (CTX_MODE, R58 to R60). -/
def State.mode (s : State) : ModeEntry :=
  (s.img.modes.find? (fun m => m.modeId == s.ctx.mode)).getD
    { modeId := s.ctx.mode, determinism := 1, balance := 0, safety := 2, input := 1 }

def State.isBench (s : State) : Bool := s.mode.safety == 3
def State.compares (s : State) : Bool := s.mode.safety == 1 || s.mode.safety == 3
def State.isReplay (s : State) : Bool := s.mode.input == 2

/-- The QUEUE_ALLOC entry of a queue (R43): none means the queue is disabled. -/
def State.alloc (s : State) (q : Nat) : Option QueueAlloc := s.img.queues.find? (fun a => a.queue == q)

/-- ROLE of a tile (R39). -/
def State.role (s : State) (t : Nat) : Nat := ((s.img.tileMap[t]?).map (·.role)).getD 0

/-- The schedule of mode `m` with INSTANCE 0 or 1 + g (R45). -/
def Image.schedule (i : Image) (mode : Nat) (missing : Option Nat) : Option Schedule :=
  i.schedules.find? (fun x => x.modeId == mode && x.inst == (match missing with | none => 0 | some g => 1 + g))

/-- The schedule in force (R17, R62). -/
def State.schedule (s : State) : Option Schedule := s.img.schedule s.ctx.mode s.beat.missing

/-- The physical tile that serves a logical tile (R27, R29). -/
def State.slotOfTile (s : State) (t : Nat) : Nat :=
  clusterOfTile t * 5 + (SMap.get [0, 1, 2, 3] s.repair.slotOf (clusterOfTile t)).getD (t % 4) (t % 4)

/-- The commit tile of the schedule in force (R45). -/
def State.commitTile (s : State) : Nat := ((s.schedule).map (·.commitTile)).getD 0

/-! ### Time (R330 to R332) -/

/-- Instants per nanosecond. -/
def perNs : Nat := 2 ^ 32

/-- An instant of whole nanoseconds. -/
def nsInst (ns : Nat) : Instant := ns * perNs

/-- The reading of a counter (R330). -/
def TimeBase.now (tb : TimeBase) : Instant := (tb.sec.toNat * 10 ^ 9 + tb.ns.toNat) * perNs + tb.frac.toNat

/-- The Pregus reading. -/
def State.now (s : State) : Instant := s.tb.now

/-- The time that has passed since power-on, which no STEP and no re-epoch moves: every span of time that a rule gives is measured
on it. -/
def State.mono (s : State) : Instant := nsInst (2 * s.tb.ticks)

/-- Sets the counter to an instant (R333), with SEC taken mod 2^48. -/
def TimeBase.setNow (tb : TimeBase) (t : Instant) : TimeBase :=
  { tb with sec := BitVec.ofNat 48 (t / perNs / 10 ^ 9), ns := BitVec.ofNat 30 (t / perNs % 10 ^ 9),
            frac := BitVec.ofNat 32 (t % perNs) }

/-- A stamp of the Pregus time base at instant `t` (R331). -/
def State.stampAt (s : State) (t : Instant) : Stamp :=
  { at_ := t, epoch := s.tb.epoch, valid := s.tb.valid, locked := s.tb.locked }

/-- The stamp of now. -/
def State.stamp (s : State) : Stamp := s.stampAt s.now

/-- The span of the counter: 2^48 s. -/
def counterSpan : Nat := nsInst (2 ^ 48 * 10 ^ 9)

/-- The reading of a die's follower (R25, R346): its own counter under R330, which no STEP and no re-epoch moves before the next time
word. Every 500 MHz clock of the package counts the same cycles (DESIGN CHOICE, assumption 153): a follower that has lost its words
runs on with the INCR of the latest, and what it has drifted is drawn where a cross-check finds it. -/
def State.dieNow (s : State) (d : Nat) : Instant :=
  let f := (s.die d).follower
  (f.base + (s.tb.ticks - f.baseTick) * f.incr.toNat) % counterSpan

/-- A stamp given by a die: VALID is 0 while its follower has no valid time (R25, R348). -/
def State.dieStamp (s : State) (d : Nat) : Stamp :=
  { s.stampAt (s.dieNow d) with epoch := (s.die d).follower.epoch, valid := s.tb.valid && (s.die d).follower.valid }

/-- What the re-epochs after an epoch have moved the counter by; T0 moved with it (R336). -/
def State.movedSince (s : State) (epoch : Byte) : Int := (s.tb.moves.take (s.tb.epoch - epoch).toNat).foldl (· + ·) 0

/-- An instant read in an epoch, as the epoch in force counts it, for the frame that holds it (R337). -/
def State.toEpoch (s : State) (epoch : Byte) (t : Instant) : Instant := ((t : Int) + s.movedSince epoch).toNat

/-- A die's reading as the epoch in force counts it. -/
def State.dieFrameTime (s : State) (d : Nat) : Instant := s.toEpoch (s.die d).follower.epoch (s.dieNow d)

/-- The 8-byte time word of an instant (R98, R331). -/
def timeWordOf (t : Instant) : Nat := (t / perNs / 10 ^ 9) % 2 ^ 34 * 2 ^ 30 + t / perNs % 10 ^ 9

/-- The instant of an 8-byte time word, with no fraction. -/
def instOfTimeWord (w : Nat) : Instant := nsInst (w / 2 ^ 30 * 10 ^ 9 + w % 2 ^ 30)

/-- The 12-byte time-stamp word (R331). -/
def stampBytes (x : Stamp) : List Byte :=
  leBytes 8 (timeWordOf x.at_) ++ leBytes 2 (x.at_ % perNs / 2 ^ 16) ++ [x.epoch] ++
    [BitVec.ofNat 8 (atBit x.valid 0 + atBit x.locked 1)]

/-- The 10-byte PTP timestamp in network order: 6 bytes of seconds, 4 of nanoseconds (R331). -/
def ptpBytes (t : Instant) : List Byte := beBytes 6 (t / perNs / 10 ^ 9) ++ beBytes 4 (t / perNs % 10 ^ 9)

/-! ### Frames and beats (R89, R90) -/

def State.frameNs (s : State) : Nat := s.img.safety.frameNs
def State.beatNs (s : State) : Nat := s.img.safety.beatNs

/-- Whether the start transaction has applied. -/
def State.started (s : State) : Bool := s.tb.t0.isSome

/-- T0; 0 before the start. -/
def State.t0 (s : State) : Int := s.tb.t0.getD 0

/-- The first beat of frame `k` (R89). -/
def State.firstBeat (s : State) (k : Nat) : Nat := ceilDiv (k * s.frameNs) s.beatNs

/-- The frame that holds beat `n`: the last one whose first beat is not after `n` (R89). -/
def State.frameOfBeat (s : State) (n : Nat) : Nat := n * s.beatNs / s.frameNs

/-- Start of beat `n` (R89). -/
def State.beatStart (s : State) (n : Nat) : Instant := (s.t0 + nsInst (n * s.beatNs)).toNat

/-- Start of frame `k` (R89). -/
def State.frameStart (s : State) (k : Nat) : Instant := (s.t0 + nsInst (k * s.frameNs)).toNat

/-- The beat index of beat `n` within its frame (R89). -/
def State.beatIndex (s : State) (n : Nat) : Nat := n - s.firstBeat (s.frameOfBeat n)

/-- Whether beat `n` is beat 0 of its frame. -/
def State.isBoundary (s : State) (n : Nat) : Bool := s.beatIndex n == 0

/-- The frame whose half-open window holds instant `t`, none before T0 (R281, R332). -/
def State.frameAt (s : State) (t : Instant) : Option Nat :=
  if s.started && decide (s.t0 ≤ t) then some ((t - s.t0).toNat / nsInst s.frameNs) else none

/-- A pending re-epoch has reached its boundary (R336). -/
def State.reepochDue (s : State) : Bool := match s.tb.reepochAt with
  | some (t, _) => decide (t ≤ s.now)
  | none => false

/-- The beat in progress, 0 before the first. -/
def State.curBeat (s : State) : Nat := s.beat.next - 1

/-- The instant of the next frame boundary (R89), from the beats not yet started. -/
def State.nextBoundaryBeat (s : State) : Nat :=
  if s.isBoundary s.beat.next then s.beat.next else s.firstBeat (s.frameOfBeat s.beat.next + 1)

/-! ### The schedule and the commit (R91, R96) -/

/-- The next entry of the schedule in force. -/
def State.schedNext (s : State) : Option SchedEntry := (s.schedule).bind fun x => x.entries[s.beat.schedPos]?

/-- The instant of an entry in the frame of the latest beat (R91). -/
def State.entryAt (s : State) (e : SchedEntry) : Instant :=
  s.beatStart (s.firstBeat s.beat.frame + e.beat) + nsInst e.offsetNs

/-- What starts at instant `t` waits for a transaction with an instant at or before it (R436). -/
def State.heldByTxn (s : State) (t : Instant) : Bool :=
  match s.ctx.txn with
  | some x => match x.target with
    | some y => decide (y ≤ t ∧ t ≤ s.now)
    | none => false
  | none => false

/-- The next entry, once the start has applied, its frame has begun and its instant has come. -/
def State.schedDue (s : State) : Option SchedEntry :=
  if s.started ∧ 0 < s.beat.next then
    match s.schedNext with
    | some e => if s.entryAt e ≤ s.now ∧ !(s.heldByTxn (s.entryAt e)) then some e else none
    | none => none
  else none

/-- A RELEASE whose instant has come adds its credits before the engines arbitrate (R92). -/
def State.releaseDue (s : State) : Bool := match s.schedDue with | some e => e.release | none => false

/-- The record of a beat is due: the next beat's instant has come (R96). -/
def State.commitDue (s : State) : Bool :=
  s.started && decide (s.beat.commitNext < s.beat.next) && decide (s.beatStart (s.beat.commitNext + 1) ≤ s.now)

/-- The schedule under which beat `n` ran: that of the running frame, or the one before the boundary. -/
def State.schedOfBeat (s : State) (n : Nat) : Nat × Option Nat :=
  if s.frameOfBeat n < s.beat.frame then (s.beat.prevMode, s.beat.prevMissing) else (s.ctx.mode, s.beat.missing)

/-- The commit tile of beat `n`. -/
def State.commitTileOf (s : State) (n : Nat) : Nat :=
  let x := s.schedOfBeat n
  ((s.img.schedule x.1 x.2).map (·.commitTile)).getD 0

/-- A commit goes before every command of the commit tile's DE that has not yet started (R96). -/
def State.commitFirst (s : State) (tile engine : Nat) : Bool :=
  engine == 2 && s.commitDue && s.commitTileOf s.beat.commitNext == tile

/-- A pending transaction whose instant T has come and that has still to be applied or rolled back: it goes before every engine and
before the schedule entries of T (R436). -/
def State.txnDue (s : State) : Bool :=
  match s.ctx.txn with
  | some t => match t.target with
    | some x => decide (x ≤ s.now)
    | none => false
  | none => false

/-! ### Interrupts (R463, R467) -/

/-- Sends MSI-X vector `v`: at once, or when it is enabled and unmasked again (PBA). -/
def HostLinkSt.msix (l : HostLinkSt) (v : Nat) : HostLinkSt :=
  if v < 2048 ∧ ¬ (16 ≤ v ∧ v < 64) then
    if l.msixEnable && SMap.get false l.unmasked v then { l with sent := v :: l.sent }
    else { l with pba := SMap.set false l.pba v true }
  else l

def State.msix (s : State) (v : Nat) : State := s.updLink (fun l => l.msix v)

/-- The vector of a safety event (R463). -/
def vectorOfSev (sev : Nat) : Nat :=
  if sev ≤ 50 then 0 else if sev ≤ 100 then 2 else if sev ≤ 150 then 3 else if sev ≤ 200 then 4
  else if sev ≤ 250 then 1 else if sev ≤ 300 then 5 else 6

/-! ### The Ash log (R384 to R386) -/

/-- An entry of 64 bytes (R385). -/
def ashEntry (seq : Nat) (stamp : Stamp) (kind status sev unit count : Nat) (detail : List Byte) : List Byte :=
  let body := leBytes 8 seq ++ stampBytes stamp ++ leBytes 1 kind ++ leBytes 1 status ++ leBytes 2 sev ++
    leBytes 1 unit ++ zeros 3 ++ leBytes 4 count ++ slice detail 0 24 ++ zeros 6
  body ++ leBytes 2 (crc16Fold seq body)

/-- Writes an entry at the head of the ring and into the page for the flash mirror (R384). -/
def AshSt.append (a : AshSt) (now : Instant) (stamp : Stamp) (kind status sev unit count : Nat)
    (detail : List Byte) : AshSt :=
  let e := ashEntry a.head.toNat stamp kind status sev unit count detail
  { a with
    ring := SMap.set [] a.ring (a.head.toNat % 131072) e
    head := a.head + 1
    page := a.page ++ [e]
    pageAt := if a.page = [] then now else a.pageAt }

/-- Appends an entry that no event raised. -/
def State.log (s : State) (kind status unit : Nat) (detail : List Byte) : State :=
  s.updAsh (fun a => a.append s.mono s.stamp kind status 0 unit 1 detail)

/-- The log entry of an event: written at once, or counted when its SEV and UNIT already have an entry in the
current frame (R386). -/
def AshSt.logEvent (a : AshSt) (now : Instant) (stamp : Stamp) (sev unit status : Nat) (detail : List Byte) : AshSt :=
  if a.seen.any (fun e => e.1 == sev && e.2.1 == unit) then
    { a with seen := a.seen.map (fun e =>
        if e.1 == sev && e.2.1 == unit then (sev, unit, status, e.2.2.2.1 + 1, stamp) else e) }
  else
    { a.append now stamp 1 status sev unit 1 detail with seen := a.seen ++ [(sev, unit, status, 0, stamp)] }

/-- The further entries of a frame boundary: one for each pair that recurred (R386). -/
def AshSt.flush (a : AshSt) (now : Instant) : AshSt :=
  let again := a.seen.filter (fun e => decide (0 < e.2.2.2.1))
  let a' := again.foldl (fun acc e => acc.append now e.2.2.2.2 1 e.2.2.1 e.1 e.2.1 e.2.2.2.1 []) a
  { a' with seen := [] }

/-! ### Safe state and events (R367, R368, R388, R464) -/

/-- Drives the two outputs as the request, and BENCH, demand (R368, R369). -/
def State.driveSafe (s : State) : State :=
  s.updSaf (fun f => { f with safeA := !f.req || s.isBench, safeB := f.req && !s.isBench })

/-- The safe-state request (R367): latched; a cause while it is active, or while start-up has failed (R369),
changes nothing. -/
def State.requestSafe (s : State) (sev : Nat) : State :=
  if s.saf.req || s.boot == .failed then s
  else
    ((s.updSaf (fun f => { f with
        req := true, reqAt := s.mono, firstSev := BitVec.ofNat 9 sev })).driveSafe).msix 0

/-- The events that the event table marks S in every case (R388); SEV-018 requests it in the first frame only. -/
def sevRequestsSafe (sev : Nat) : Bool := [3, 9, 10, 12, 13, 14, 20, 22, 23, 24].contains sev

/-- The compute-side events whose reaction I marks the next record and that no rule of R365 marks otherwise (R388). -/
def sevMarksNext (sev : Nat) : Bool := sev == 16 || sev == 19

/-- A cause marked S: the first frame after it counts for the release under MAIN, and a release that waits for its
boundary is refused (R370). -/
def State.noteCause (s : State) : State :=
  s.updSaf (fun f => { f with causeFrame := s.beat.frame + 1, releasePend := false, last := if f.releasePend then 0x52 else f.last })

/-- Word 0 of an event FIFO entry (R464). -/
def evtWord0 (sev unit status : Nat) : Word := BitVec.ofNat 32 (sev % 512 + unit % 256 * 2 ^ 16 + status % 256 * 2 ^ 24)

/-- Enters an event in the FIFO with its vector, or counts it as lost (R463, R464); SEV-305 goes to the Ash log once
for each overflow, which is a dropped entry while OVF was clear (DEDUCED, assumption 20). -/
def State.fifo (s : State) (sev unit status : Nat) (stamp : Stamp) : State :=
  if s.link.events.length < 1024 then
    (s.updLink (fun l => { l with events := l.events ++ [{ word0 := evtWord0 sev unit status, stamp := stamp }] })).msix
      (vectorOfSev sev)
  else
    let s1 := s.updLink (fun l => { l with ovf := true, lost := satInc l.lost })
    if s.link.ovf then s1 else s1.updAsh (fun a => a.logEvent s.mono stamp 305 0xFF 0 [])

/-- Raises a safety event: event FIFO, Ash log and, for an event marked S, the safe-state request (R367, R386,
R388, R464). -/
def State.raiseAt (s : State) (sev unit status : Nat) (stamp : Stamp) (detail : List Byte) : State :=
  let s0 := (s.fifo sev unit status stamp).updAsh (fun a => a.logEvent s.mono stamp sev unit status detail)
  let s1 := if sevMarksNext sev then s0.updBeat (fun b => { b with invalidNext := true }) else s0
  if sevRequestsSafe sev then (s1.noteCause).requestSafe sev else s1

/-- Raises an event with the Pregus stamp of now and no detail. -/
def State.raise (s : State) (sev unit status : Nat) : State := s.raiseAt sev unit status s.stamp []

/-- Raises an event seen on a die, with the die's stamp. -/
def State.raiseDie (s : State) (d sev unit status : Nat) : State := s.raiseAt sev unit status (s.dieStamp d) []

/-- A further draw of a free value: its number, and the state after it. -/
def State.draw (s : State) : Nat × State := (s.draws, { s with draws := s.draws + 1 })

end Sys2Proof.Machine
end

