-- ==== Sys2Proof/Machine/Mem.lean ====
section
/-! DEFINITION. Memory (04_memory.md): the device address map, carve-outs and who may reach them, reads decoded by
the ECC class, writes by ECC unit, and the dirty tags of a kill. -/

namespace Sys2Proof.Machine

/-- Where a device address lies (R105). -/
inductive Place where
  | tile (t : Nat)
  | peat (d : Nat)
  | dram (d : Nat)
  | none
deriving DecidableEq, Repr

def tileSize : Nat := 0x800000
def peatBase : Nat := 0x4000000000
def peatSize : Nat := 0x10000000
def regBase : Nat := 0x8000000000
def dramBase : Nat := 0x10000000000
def dramWindow : Nat := 0x800000000

/-- Capacity of a channel in bytes from its DENSITY code (R118). -/
def ChanSt.capacity (c : ChanSt) : Nat := c.density.toNat * 2 * 2 ^ 30

/-- Populated bytes of a die's DRAM window: seven eighths of the fitted capacity (R105, R118). -/
def State.dramPopulated (s : State) (d : Nat) : Nat :=
  ((s.chan (d * 3)).capacity + (s.chan (d * 3 + 1)).capacity + (s.chan (d * 3 + 2)).capacity) * 7 / 8

/-- The place of an address; `none` outside every populated range (R105). -/
def State.place (s : State) (a : Nat) : Place :=
  if a / tileSize < s.part.tiles then .tile (a / tileSize)
  else if peatBase ≤ a ∧ a < peatBase + 4 * peatSize then .peat ((a - peatBase) / peatSize)
  else if dramBase ≤ a ∧ a < dramBase + 4 * dramWindow then
    let d := (a - dramBase) / dramWindow
    if (a - dramBase) % dramWindow < s.dramPopulated d then .dram d else .none
  else .none

/-- Local channel of an offset in a die window (R106). -/
def dramLocalChannel (off : Nat) : Nat := off / 4096 % 3

/-- Global channel of a DRAM address (R106). -/
def dramChannel (a : Nat) : Nat :=
  let o := a - dramBase
  o / dramWindow * 3 + dramLocalChannel (o % dramWindow)

/-- Channel offset of a DRAM address (R106). -/
def dramChannelOffset (a : Nat) : Nat :=
  let o := (a - dramBase) % dramWindow
  o / 4096 / 3 * 4096 + o % 4096

/-- Channel address of the 8 inline check bytes of a DRAM address's line, above the channel's data (R107). -/
def State.checkBytesAddr (s : State) (a : Nat) : Nat :=
  (s.chan (dramChannel a)).capacity * 7 / 8 + 8 * (dramChannelOffset a / 64)

/-- The carve-out that holds an address (R46). -/
def Image.carveAt (i : Image) (a : Nat) : Option Carveout :=
  i.carves.find? (fun c => decide (c.base ≤ a ∧ a < c.base + c.size))

/-- The carve-out with an ID (R46). -/
def Image.carve (i : Image) (id : Nat) : Option Carveout := i.carves.find? (fun c => c.id == id)

/-- Base address of the carve-out with an ID. -/
def Image.carveBase (i : Image) (id : Nat) : Nat := ((i.carve id).map (·.base)).getD 0

/-- Whether bytes `a` to `a + n - 1` lie inside one carve-out. -/
def State.inCarve (s : State) (a n : Nat) : Bool :=
  match s.img.carveAt a with
  | some c => decide (a + n ≤ c.base + c.size)
  | none => false

/-- Size in bytes of the ECC unit at an address: code D for tile memory and class WGT, code S for ACT (R125). -/
def State.unitSize (s : State) (a : Nat) : Nat :=
  match s.place a with
  | .tile _ => 32
  | _ => match s.img.carveAt a with
    | some c => if c.eccClass = 2 then 32 else 8
    | none => 8

/-! ### Dirty tags (R135, R136) -/

/-- Whether an address lies in a line or block tagged dirty. -/
def State.isDirty (s : State) (a : Nat) : Bool :=
  if a < dramBase then SMap.get false s.peatDirty (a / 64) else SMap.get false s.dramDirty (a / 4096)

/-- Stored bytes, as intended, of a range. -/
def SMap.bytes (m : SMap Byte) (a n : Nat) : List Byte := (List.range n).map (fun i => SMap.get 0 m (a + i))

/-- The one canonical form of memory: addresses strictly rising, and no byte listed that an unlisted address reads as (0). -/
def Memory.wf (m : SMap Byte) : Bool := SMap.wf 0 m

/-- Writes consecutive bytes. -/
def SMap.setBytes (m : SMap Byte) (a : Nat) (bs : List Byte) : SMap Byte :=
  (bs.foldl (fun acc b => (SMap.set 0 acc.1 acc.2 b, acc.2 + 1)) (m, a)).1

/-- Drops the error record of every unit that starts in a range. -/
def dropFlips (f : SMap (List Nat)) (a n : Nat) : SMap (List Nat) := f.filter (fun e => !(decide (a ≤ e.1 ∧ e.1 < a + n)))

/-- Removes every entry of a range: the bytes then read as 0. -/
def clearRange (m : SMap Byte) (a n : Nat) : SMap Byte := m.filter (fun e => !(decide (a ≤ e.1 ∧ e.1 < a + n)))

/-- Writes zeros over a range and makes its units clean. -/
def State.zeroRange (s : State) (a n : Nat) : State :=
  { s with mem := clearRange s.mem a n, flips := dropFlips s.flips a n }

/-- A write to a dirty line or block first zeroes it and clears its tag (R135, R136). -/
def State.undirty (s : State) (a : Nat) : State :=
  if s.isDirty a then
    if a < dramBase then { s.zeroRange (a / 64 * 64) 64 with peatDirty := SMap.set false s.peatDirty (a / 64) false }
    else { s.zeroRange (a / 4096 * 4096) 4096 with dramDirty := SMap.set false s.dramDirty (a / 4096) false }
  else s

/-! ### The repair map (R137, R139) -/

/-- An entry as 8 bytes. -/
def RepairEntry.bytes (e : RepairEntry) : List Byte :=
  leBytes 1 e.kind ++ leBytes 1 e.die ++ leBytes 2 e.unit ++ leBytes 3 e.row ++ leBytes 1 e.spare

/-- A flash copy of the map: header and entries. -/
def RepairMap.bytes (m : RepairMap) : List Byte :=
  let h := leBytes 4 0x50525351 ++ leBytes 2 0x0100 ++ leBytes 2 m.entries.length ++ leBytes 8 m.generation ++ zeros 40
  let es := m.entries.flatMap RepairEntry.bytes
  h ++ leBytes 8 (crc 5 (h ++ es)) ++ es

/-- Writes flash bytes. -/
def State.flashPut (s : State) (off : Nat) (bs : List Byte) : State :=
  { s with flash := (bs.foldl (fun acc b => (SMap.set 0xFF acc.1 acc.2 b, acc.2 + 1)) (s.flash, off)).1 }

/-- Records a repair: GENERATION rises once, both flash copies are written, the older one first (no state between the two shows),
and the Ash log takes each entry (R139, R385, R425). A map that has no room for the entries keeps what it holds (DESIGN CHOICE,
assumption 146). -/
def State.recordRepairs (s : State) (es : List RepairEntry) : State :=
  if es = [] ∨ 8192 < s.repair.entries.length + es.length then s
  else
    let s1 := { s with repair := { s.repair with generation := s.repair.generation + 1, entries := s.repair.entries ++ es } }
    let b := s1.repair.bytes
    es.foldl (fun acc e => acc.log 3 0 0xFF (e.bytes ++ leBytes 8 s1.repair.generation)) ((s1.flashPut 0x20000 b).flashPut 0x40000 b)

def State.recordRepair (s : State) (e : RepairEntry) : State := s.recordRepairs [e]

/-- A DRAM row is recorded for post-package repair at the next start-up, once (R137, R141). Bank and row of LPDDR5X and the spare that
the device takes are free values, for the manual does not map an address to them. -/
def State.repairDramRow (s : State) (a d : Nat) : State :=
  let c := dramChannel a
  let row := Config.dramRow c (dramChannelOffset a / 4096) % 2 ^ 24
  if s.repair.entries.any (fun e => e.kind == 7 && e.unit == c && e.row == row) then s
  else
    (s.updChan c (fun x => { x with pprPending := true })).recordRepair
      { kind := 7, die := d, unit := c, row := row, spare := Config.dramRow c (row + 2 ^ 24) % 256 }

/-- A row whose uncorrectable unit was read is to be tested (R137, R141): the address of the unit. -/
def State.oweRowTest (s : State) (u : Nat) : State := { s with rowTests := if s.rowTests.contains u then s.rowTests else s.rowTests ++ [u] }

/-! ### Reads (R124) -/

/-- The outcome of a read: the state after its counters and events, a status, and the bytes read so far. -/
structure Fetch where
  st : State
  status : Nat
  data : List Byte

/-- Bank, row and unit fields of TIL_MEMADDR with VALID for a tile-memory address (R110, R124). -/
def memAddrWord (a : Nat) : Nat :=
  let o := a % tileSize
  atBit true 31 + fld o 11 7 * 2 ^ 26 + fld o 22 12 * 2 ^ 15 + fld o 6 5 * 2 ^ 13

/-- Counters and event of an uncorrectable read, and what becomes of its row (R124, R137, R140, R141). -/
def State.noteUncorrectable (s : State) (a : Nat) : State × Nat :=
  match s.place a with
  | .tile t =>
    ((s.updTile t (fun x => { x with ueCount := satInc x.ueCount, memLast := 0x30,
                                     memAddr := BitVec.ofNat 32 (memAddrWord a) })).raiseDie (dieOfTile t) 51 t 0x30
      |>.oweRowTest a, 0x30)
  | .peat d =>
    ((s.updDie d (fun x => { x with peat := { x.peat with ue := satInc x.peat.ue, last := 0x31 } })).raiseDie d 52 d 0x31
      |>.oweRowTest a, 0x31)
  | _ =>
    let d := (a - dramBase) / dramWindow
    (((s.updChan (dramChannel a) (fun x => { x with ue := satInc x.ue, last := 0x32 })).raiseDie d 53 d 0x32).repairDramRow a d, 0x32)

/-- SEV-054 of a failed address check outside tile memory; the region that owns the carve-out is suspect (R124, R140; DEDUCED,
assumption 21). -/
def State.suspectOwner (s : State) (a d : Nat) : State :=
  let s1 := s.raiseDie d 54 d 0x33
  match s.img.carveAt a with
  | some c => if c.owner < 8 then { s1 with suspects := s1.suspects ++ [(.region, c.owner, 54)] } else s1
  | none => s1

/-- Counters, event and suspicion of a failed address check (R124, R140, R141): the tile, or the region that owns the
carve-out, is suspect (DEDUCED, assumption 21). -/
def State.noteAddress (s : State) (a : Nat) : State :=
  match s.place a with
  | .tile t =>
    let s1 := (s.updTile t (fun x => { x with ueCount := satInc x.ueCount, memLast := 0x33,
                                              memAddr := BitVec.ofNat 32 (memAddrWord a) })).raiseDie (dieOfTile t) 54 t 0x33
    { s1 with suspects := s1.suspects ++ [(.slot, s1.slotOfTile t, 54)] }
  | .peat d => (s.updDie d (fun x => { x with peat := { x.peat with ue := satInc x.peat.ue, last := 0x33 } })).suspectOwner a d
  | _ => (s.updChan (dramChannel a) (fun x => { x with ue := satInc x.ue, last := 0x33 })).suspectOwner a ((a - dramBase) / dramWindow)

/-- A corrected read: counted in tile memory (R124, TIL_MEMERR). -/
def State.noteCorrected (s : State) (a : Nat) : State :=
  match s.place a with
  | .tile t => s.updTile t (fun x => { x with ceCount := satInc x.ceCount })
  | _ => s

/-- The data a decode gives for the unit at `u`. -/
def State.unitData (s : State) (u size : Nat) (fixed : List Nat) : List Byte :=
  (residualBits size (SMap.get [] s.flips u) fixed).foldl flipBit (SMap.bytes s.mem u size)

/-- One transfer of a DRAM channel (R120): up to three retries, then status 0x35 with SEV-056 and a retraining (R141). -/
def State.linkTry (s : State) (u : Nat) : State × Nat :=
  match s.place u with
  | .dram d =>
    let c := dramChannel u
    let bad := (s.chan c).linkBad
    if bad = 0 then (s, 0)
    else if bad < 4 then (s.updChan c (fun x => { x with linkBad := 0, linkRetry := satInc x.linkRetry bad }), 0)
    else
      ((s.updChan c (fun x => { x with linkBad := bad - 4, linkRetry := satInc x.linkRetry 3, last := 0x35,
                                       retrainAt := s.mono })).raiseDie d 56 d 0x35, 0x35)
  | _ => (s, 0)

/-- The decode of a stored unit (R124); a dirty line reads as zeros, unchecked (R135, R136). -/
def State.fetchStored (s : State) (u size : Nat) : Fetch :=
  if s.isDirty u then { st := s, status := 0, data := zeros size }
  else match decodeUnit size (SMap.get [] s.flips u) with
    | .clean => { st := s, status := 0, data := s.unitData u size [] }
    | .corrected ps => { st := s.noteCorrected u, status := 0, data := s.unitData u size ps }
    | .address => { st := s.noteAddress u, status := 0x33, data := [] }
    | .uncorrectable => let r := s.noteUncorrectable u; { st := r.1, status := r.2, data := [] }

/-- Reads one ECC unit (R120, R124). -/
def State.fetchUnit (s : State) (u size : Nat) : Fetch :=
  let l := s.linkTry u
  if l.2 ≠ 0 then { st := l.1, status := l.2, data := [] } else l.1.fetchStored u size

/-- The ECC units that hold bytes `a` to `a + n - 1`, ascending, with their sizes. -/
def State.unitsFrom (s : State) : Nat → Nat → Nat → List (Nat × Nat)
  | 0, _, _ => []
  | fuel + 1, u, stop =>
    if u < stop then
      let z := s.unitSize u
      (u, z) :: s.unitsFrom fuel (u + z) stop
    else []

def State.units (s : State) (a n : Nat) : List (Nat × Nat) :=
  let z := s.unitSize a
  s.unitsFrom (n / 8 + 6) (a / z * z) (a + n)

/-- Reads one ECC unit of a line: the line is one transfer, which its first unit makes (R118, R120, R130). -/
def State.fetchPart (s : State) (first : Bool) (u size : Nat) : Fetch := if first then s.fetchUnit u size else s.fetchStored u size

/-- Reads units until one fails; `line` is the line of the unit before. -/
def State.fetchUnits (line : Option Nat) : List (Nat × Nat) → Fetch → Fetch
  | [], f => f
  | (u, z) :: t, f =>
    if f.status ≠ 0 then f
    else
      let g := f.st.fetchPart (line != some (u / 64)) u z
      State.fetchUnits (some (u / 64)) t { g with data := f.data ++ g.data }

/-- Reads bytes `a` to `a + n - 1`; on a failure the data is cut short. -/
def State.fetch (s : State) (a n : Nat) : Fetch :=
  let f := State.fetchUnits none (s.units a n) { st := s, status := 0, data := [] }
  { f with data := (f.data.drop (a % s.unitSize a)).take n }

/-- Reads several ranges in order, until one fails. -/
def State.fetchAll : List (Nat × Nat) → State → State × Nat × List (List Byte)
  | [], s => (s, 0, [])
  | (a, n) :: t, s =>
    let f := s.fetch a n
    if f.status ≠ 0 then (f.st, f.status, [])
    else
      let r := State.fetchAll t f.st
      (r.1, r.2.1, f.data :: r.2.2)

/-! ### Writes (R126) -/

/-- Writes the bytes of `bs` (which starts at `a`) that fall in the unit `u`: a unit covered in part is read first, and
left unchanged when that read fails (R126). Gives the status of that read. `first`: the unit makes the transfer of its line. -/
def State.storeUnit (s : State) (first : Bool) (u size a : Nat) (bs : List Byte) : State × Nat :=
  let s0 := s.undirty u
  let lo := max a u
  let hi := min (a + bs.length) (u + size)
  let part := (bs.drop (lo - a)).take (hi - lo)
  if lo = u ∧ hi = u + size then
    let l := if first then s0.linkTry u else (s0, 0)
    if l.2 ≠ 0 then l
    else ({ l.1 with mem := SMap.setBytes l.1.mem lo part, flips := SMap.set [] l.1.flips u [] }, 0)
  else
    let f := s0.fetchPart first u size
    if f.status ≠ 0 then (f.st, f.status)
    else
      ({ f.st with mem := SMap.setBytes (SMap.setBytes f.st.mem u f.data) lo part
                   flips := SMap.set [] f.st.flips u [] }, 0)

/-- Writes units in ascending order; stops at the first failure when `stop` is set, else passes over it. Gives the latest
failing status. `line`: the line of the unit before, and whether its transfer failed; such a line is left whole (R130). -/
def State.storeUnits (stop : Bool) (a : Nat) (bs : List Byte) (line : Option (Nat × Bool)) : List (Nat × Nat) → State × Nat → State × Nat
  | [], r => r
  | (u, z) :: t, (s, st) =>
    if (st ≠ 0 && stop) || line == some (u / 64, true) then State.storeUnits stop a bs line t (s, st)
    else
      let r := s.storeUnit (line != some (u / 64, false)) u z a bs
      State.storeUnits stop a bs (some (u / 64, r.2 == 0x35)) t (r.1, if r.2 ≠ 0 then r.2 else st)

/-- A command's write: it ends at the first unit whose read-modify-write fails (R126, R85). -/
def State.store (s : State) (a : Nat) (bs : List Byte) : State × Nat :=
  State.storeUnits true a bs none (s.units a bs.length) (s, 0)

/-- A host write: a unit whose read fails is left, the others are written (R460). -/
def State.storeHost (s : State) (a : Nat) (bs : List Byte) : State × Nat :=
  State.storeUnits false a bs none (s.units a bs.length) (s, 0)

/-- A write of the block itself to a place it owns (records, completion entries, notes). -/
def State.put (s : State) (a : Nat) (bs : List Byte) : State := (s.store a bs).1

/-! ### Who may reach a carve-out (R129, R131, R418) -/

/-- The state of a region for the readers of its carve-outs: its own, or its die's while that is not in service. -/
def State.effRegion (s : State) (g : Nat) : UnitState :=
  let d := (s.die (g / 2)).u.state
  if d = .inService then (s.rgnUnit g).state else d

/-- Whether a region's carve-outs are closed to the agent of region `own` (none: an agent of no region): the region is
fenced, or TESTING and the agent is not its own (R131, R410, R418). -/
def State.regionClosed (s : State) (own : Option Nat) (g : Nat) : Bool :=
  match s.effRegion g with
  | .inService | .fencing => false
  | .testing => own != some g
  | .off => false
  | _ => true

/-- Whether a die is in reset or has no power. -/
def State.dieDown (s : State) (d : Nat) : Bool :=
  (s.die d).u.state == .resetting || (s.die d).u.state == .off || !(s.die d).pgood

/-- Whether the Peat or DRAM at an address lies on a die in reset or without power (R131). -/
def State.placeDown (s : State) (a : Nat) : Bool :=
  match s.place a with
  | .peat d => s.dieDown d
  | .dram d => s.dieDown d
  | _ => false

/-- Whether a byte of `a` to `a + n - 1` lies in a carve-out of a closed region, or on a die in reset (status 0x38, R131). A
range of `n` bytes lies in at most two windows of dies, so that its ends tell the dies. -/
def State.carveClosed (s : State) (own : Option Nat) (a n : Nat) : Bool :=
  s.img.carves.any (fun c => decide (c.base < a + n ∧ a < c.base + c.size ∧ c.owner < 8) && s.regionClosed own c.owner) ||
    s.placeDown a || s.placeDown (a + n - 1)

/-- Reads `n` bytes that lie in one carve-out, for an agent of no region; none where they do not, where the carve-out is closed, and
where they cannot be read (R129, R131). -/
def State.readOpen (s : State) (a n : Nat) : State × Option (List Byte) :=
  if !(s.inCarve a n) || s.carveClosed none a n then (s, none)
  else
    let f := s.fetch a n
    (f.st, if f.status = 0 then some f.data else none)

end Sys2Proof.Machine
end

