-- ==== Sys2Proof/Machine/Num.lean ====
section
/-! DEFINITION. Number formats, the XA96 accumulator, rounding and stochastic rounding (06_exact_arithmetic.md), and
the QG4 code (R170, R206). Every value is an exact rational number until its one rounding. -/

namespace Sys2Proof.Machine

/-- 2 to an integer power. -/
def pow2 (e : Int) : Rat := if 0 ≤ e then ((2 ^ e.toNat : Nat) : Rat) else 1 / ((2 ^ (-e).toNat : Nat) : Rat)

/-- floor(log2 |x|) of a non-zero rational. -/
def log2Floor (x : Rat) : Int :=
  let p := x.num.natAbs
  let e : Int := (Nat.log2 p : Int) - (Nat.log2 x.den : Int)
  let below := if 0 ≤ e then decide (p < x.den * 2 ^ e.toNat) else decide (p * 2 ^ (-e).toNat < x.den)
  if below then e - 1 else e

/-- Nearest integer, ties to even (RNE). -/
def rne (x : Rat) : Int :=
  let f := x.floor
  let d := x - (f : Rat)
  if d < 1 / 2 then f else if d > 1 / 2 then f + 1 else if f % 2 = 0 then f else f + 1

/-- Magnitude truncated, sign restored. -/
def truncZero (x : Rat) : Int := if x < 0 then -((-x).floor) else x.floor

/-- Integer square root. -/
def isqrt (n : Nat) : Nat :=
  ((List.range (Nat.log2 n / 2 + 1)).reverse).foldl
    (fun r i => if (r + 2 ^ i) * (r + 2 ^ i) ≤ n then r + 2 ^ i else r) 0

/-- √x as a rational that rounds like it: the exact root, or the middle of the interval of width 2^-P that holds it,
which holds no rounding boundary of any format (R234). -/
def sqrtSticky (x : Rat) : Rat :=
  let p := 600
  let n := (x * ((4 ^ p : Nat) : Rat)).floor.toNat
  let r := isqrt n
  let exact := ((r * r : Nat) : Rat) = x * ((4 ^ p : Nat) : Rat)
  ((r : Rat) + (if exact then 0 else 1 / 2)) / ((2 ^ p : Nat) : Rat)

/-- A value: not a number, an infinity, or an exact number (R171: −0 has the value zero). -/
inductive Val where
  | nan | pinf | ninf
  | fin (x : Rat)
deriving DecidableEq, Repr

/-- The format of a code (R74, R169). -/
def Fmt.ofCode : Nat → Option Fmt
  | 1 => some .int4 | 2 => some .qg4 | 3 => some .int8 | 4 => some .uint8 | 5 => some .e4m3 | 6 => some .e5m2
  | 7 => some .fp16 | 8 => some .bf16 | 9 => some .fp32 | 10 => some .int16 | 11 => some .int32 | 12 => some .xa96
  | _ => none

/-- The code of a format. -/
def Fmt.code : Fmt → Nat
  | .int4 => 1 | .qg4 => 2 | .int8 => 3 | .uint8 => 4 | .e4m3 => 5 | .e5m2 => 6 | .fp16 => 7 | .bf16 => 8
  | .fp32 => 9 | .int16 => 10 | .int32 => 11 | .xa96 => 12

/-- Stored width in bits (R169). -/
def Fmt.bits : Fmt → Nat
  | .int4 | .qg4 => 4
  | .int8 | .uint8 | .e4m3 | .e5m2 => 8
  | .fp16 | .bf16 | .int16 => 16
  | .fp32 | .int32 => 32
  | .xa96 => 128

/-- The classes of the matrix array (R169). -/
def Fmt.is4 (f : Fmt) : Bool := f == .int4 || f == .qg4
def Fmt.is8 (f : Fmt) : Bool := f == .int8 || f == .uint8 || f == .e4m3 || f == .e5m2
def Fmt.is16 (f : Fmt) : Bool := f == .fp16 || f == .bf16

/-- A floating-point layout: exponent bits, mantissa bits and bias. -/
structure FloatFmt where
  ebits : Nat
  mbits : Nat
  bias : Nat

/-- Layout of a floating-point format; none for the others (R169). -/
def Fmt.float : Fmt → Option FloatFmt
  | .e4m3 => some ⟨4, 3, 7⟩
  | .e5m2 => some ⟨5, 2, 15⟩
  | .fp16 => some ⟨5, 10, 15⟩
  | .bf16 => some ⟨8, 7, 127⟩
  | .fp32 => some ⟨8, 23, 127⟩
  | _ => none

/-- The magnitudes q of the QG4 indices, in units of 1/32 (R170). -/
def qgMag : List Nat := [0, 3, 6, 9, 13, 16, 22, 32]

/-- Decode of a floating-point code (R169, R171). -/
def decodeFloat (f : Fmt) (l : FloatFmt) (c : Nat) : Val :=
  let neg := bit c (l.ebits + l.mbits)
  let e := fld c (l.ebits + l.mbits - 1) l.mbits
  let m := c % 2 ^ l.mbits
  let top := 2 ^ l.ebits - 1
  let sgn : Rat := if neg then -1 else 1
  let finite : Val :=
    if e = 0 then .fin (sgn * (m : Rat) * pow2 (1 - (l.bias : Int) - (l.mbits : Int)))
    else .fin (sgn * ((2 ^ l.mbits + m : Nat) : Rat) * pow2 ((e : Int) - (l.bias : Int) - (l.mbits : Int)))
  if f = .e4m3 then (if e = top ∧ m = 7 then .nan else finite)
  else if e = top then (if m ≠ 0 then .nan else if neg then .ninf else .pinf)
  else finite

/-- The value of a stored code (R169, R170); XA96 elements are decoded by `XA.ofBytes`. -/
def decodeCode (f : Fmt) (c : Nat) : Val :=
  match f.float with
  | some l => decodeFloat f l c
  | none => match f with
    | .qg4 =>
      let q : Rat := ((qgMag.getD (c % 8) 0 : Nat) : Rat) / 32
      .fin (if bit c 3 then -q else q)
    | .uint8 => .fin ((c % 256 : Nat) : Rat)
    | f => .fin ((toSigned f.bits c : Int) : Rat)

/-! ### The accumulator (R173 to R180) -/

/-- An XA96 element: S × 2^(EXP − 32) with its flags (R173). -/
structure XA where
  s : Int := 0
  exp : Int := 0
  sat : Bool := false
  trunc : Bool := false
  nan : Bool := false
  pinf : Bool := false
  ninf : Bool := false
deriving DecidableEq, Repr

/-- Canonical zero (R174). -/
def XA.zero : XA := {}

/-- The largest magnitude of S (R174). -/
def xaMax : Int := 2 ^ 95 - 1

/-- The flags of one element in their byte (R173). -/
def XA.flagByte (x : XA) : Nat := atBit x.sat 0 + atBit x.trunc 1 + atBit x.nan 2 + atBit x.pinf 3 + atBit x.ninf 4

/-- The 16 stored bytes (R173). -/
def XA.bytes (x : XA) : List Byte :=
  leBytes 12 (ofSigned 96 x.s) ++ leBytes 2 (ofSigned 16 x.exp) ++ leBytes 1 x.flagByte ++ zeros 1

/-- The element in 16 stored bytes (R173). -/
def XA.ofBytes (b : List Byte) : XA :=
  let fl := leAt b 14 1
  { s := toSigned 96 (leAt b 0 12), exp := toSigned 16 (leAt b 12 2), sat := bit fl 0, trunc := bit fl 1,
    nan := bit fl 2, pinf := bit fl 3, ninf := bit fl 4 }

/-- Whether 16 stored bytes are canonical (R173, R174). -/
def xaCanonical (b : List Byte) : Bool :=
  let x := XA.ofBytes b
  let specials := (if x.nan then 1 else 0) + (if x.pinf then 1 else 0) + (if x.ninf then 1 else 0)
  decide (-xaMax ≤ x.s ∧ x.s ≤ xaMax) && (decide (x.s ≠ 0) || decide (x.exp = 0)) &&
    decide (-294 ≤ x.exp ∧ x.exp ≤ 227) && decide (specials ≤ (1 : Nat)) && decide (leAt b 14 1 < 32) &&
    decide (leAt b 15 1 = 0)

/-- The special value of an element with a flag set, else its number (R181). -/
def XA.val (x : XA) : Val :=
  if x.nan then .nan else if x.pinf then .pinf else if x.ninf then .ninf
  else .fin ((x.s : Rat) * pow2 (x.exp - 32))

/-- NAN, PINF and NINF after a union of flags (R178 step 1). -/
def XA.settle (x : XA) : XA :=
  let n := x.nan || (x.pinf && x.ninf)
  { x with nan := n, pinf := x.pinf && !n, ninf := x.ninf && !n }

/-- An integer shifted right with its magnitude truncated (R178 step 3). -/
def shrTrunc (x : Int) (k : Nat) : Int := if x < 0 then -((x.natAbs / 2 ^ k : Nat) : Int) else ((x.natAbs / 2 ^ k : Nat) : Int)

/-- The sum of two accumulator values (R178). -/
def XA.add (x y : XA) : XA :=
  let fl : XA := ({ sat := x.sat || y.sat, trunc := x.trunc || y.trunc, nan := x.nan || y.nan,
                    pinf := x.pinf || y.pinf, ninf := x.ninf || y.ninf } : XA).settle
  if x.s = 0 then { fl with s := y.s, exp := if y.s = 0 then 0 else y.exp }
  else if y.s = 0 then { fl with s := x.s, exp := x.exp }
  else
    let e := if x.exp < y.exp then y.exp else x.exp
    let kx := (e - x.exp).toNat
    let ky := (e - y.exp).toNat
    let lost := x.s.natAbs % 2 ^ kx ≠ 0 ∨ y.s.natAbs % 2 ^ ky ≠ 0
    let sum := shrTrunc x.s kx + shrTrunc y.s ky
    let overRange := xaMax < sum ∨ sum < -xaMax
    let s := clampInt (-xaMax) xaMax sum
    { fl with s := s, exp := if s = 0 then 0 else e, trunc := fl.trunc || decide lost, sat := fl.sat || decide overRange }

/-- A contribution to a block (R176, R177): an exact product or scaled partial, or a special one. -/
abbrev Term := Val

/-- Sum of one block on the native grid: every term is a multiple of 2^-32 (R175). -/
def blockNative (ts : List Term) : XA :=
  let fl : XA := ({ nan := ts.contains .nan, pinf := ts.contains .pinf, ninf := ts.contains .ninf } : XA).settle
  let sum := ts.foldl (fun a t => match t with | .fin x => a + x | _ => a) (0 : Rat)
  { fl with s := (sum * ((2 ^ 32 : Nat) : Rat)).floor }

/-- Sum of one windowed block (R176): the terms are placed 60 bits below the anchor. -/
def blockWindow (ts : List Term) : XA :=
  let fl : XA := ({ nan := ts.contains .nan, pinf := ts.contains .pinf, ninf := ts.contains .ninf } : XA).settle
  let xs := ts.filterMap (fun t => match t with | .fin x => if x = 0 then none else some x | _ => none)
  match xs with
  | [] => fl
  | x0 :: rest =>
    let a := rest.foldl (fun m x => max m (log2Floor x)) (log2Floor x0)
    let q := pow2 (a - 60)
    let placed := xs.map (fun x => truncZero (x / q))
    let lost := xs.any (fun x => decide (((truncZero (x / q) : Int) : Rat) * q ≠ x))
    let s := placed.foldl (· + ·) 0
    { fl with s := s, exp := if s = 0 then 0 else a - 60 + 32, trunc := lost }

/-- Entry of a value into the accumulator (R180). -/
def XA.enter : Val → XA
  | .nan => { nan := true }
  | .pinf => { pinf := true }
  | .ninf => { ninf := true }
  | .fin x =>
    let g := x * ((2 ^ 32 : Nat) : Rat)
    if g.den = 1 ∧ (if x < 0 then -x else x) < ((2 ^ 63 : Nat) : Rat) then { s := g.num } else blockWindow [.fin x]

/-- The pairwise tree by ascending index (R179). -/
def xaPairs : List XA → List XA
  | a :: b :: t => XA.add a b :: xaPairs t
  | l => l

/-- The canonical reduction tree over its leaves (R179). -/
def xaTreeAux : Nat → List XA → XA
  | _, [] => XA.zero
  | _, [a] => a
  | 0, a :: _ => a
  | fuel + 1, l => xaTreeAux fuel (xaPairs l)

def xaTree (l : List XA) : XA := xaTreeAux l.length l

/-! ### Products of values -/

/-- Sign of a non-zero value: true when negative; 0 has none. -/
def Val.neg : Val → Bool
  | .ninf => true
  | .fin x => decide (x < 0)
  | _ => false

/-- A product of two values (R176 step 6, R229). -/
def Val.mul : Val → Val → Val
  | .nan, _ => .nan
  | _, .nan => .nan
  | .fin x, .fin y => .fin (x * y)
  | .fin x, b => if x = 0 then .nan else if Val.neg b != decide (x < 0) then .ninf else .pinf
  | a, .fin y => if y = 0 then .nan else if Val.neg a != decide (y < 0) then .ninf else .pinf
  | a, b => if Val.neg a != Val.neg b then .ninf else .pinf

/-- A value times a positive finite factor. -/
def Val.scale (v : Val) (k : Rat) : Val := match v with | .fin x => .fin (x * k) | w => w

/-- A sum of two values (R229). -/
def Val.add : Val → Val → Val
  | .nan, _ => .nan
  | _, .nan => .nan
  | .pinf, .ninf => .nan
  | .ninf, .pinf => .nan
  | .pinf, _ => .pinf
  | .ninf, _ => .ninf
  | _, .pinf => .pinf
  | _, .ninf => .ninf
  | .fin x, .fin y => .fin (x + y)

/-- The opposite value. -/
def Val.negate : Val → Val
  | .nan => .nan
  | .pinf => .ninf
  | .ninf => .pinf
  | .fin x => .fin (-x)

/-- Strictly smaller in the order of R228, for values that are not NaN. -/
def Val.lt : Val → Val → Bool
  | .fin x, .fin y => decide (x < y)
  | .ninf, .ninf => false
  | .ninf, _ => true
  | _, .ninf => false
  | .pinf, _ => false
  | _, .pinf => true
  | _, _ => false

/-- The larger of two values; a NaN wins (R228). -/
def Val.max (a b : Val) : Val := if a = .nan then a else if b = .nan then b else if Val.lt a b then b else a

/-- The smaller of two values; a NaN wins (R228). -/
def Val.min (a b : Val) : Val := if a = .nan then a else if b = .nan then b else if Val.lt b a then b else a

/-! ### Rounding (R181 to R187, R206, R208) -/

/-- An output element: its code, whether it counts as saturated (R183, R206) or non-finite (R207), and E of R208. -/
structure Rounded where
  code : Nat
  sat : Bool := false
  nonfinite : Bool := false
  err : Int := 0
deriving DecidableEq, Repr

/-- The grid around V (R181 step 4): the neighbour at or below V, and the spacing. -/
structure GridPt where
  low : Rat
  step : Rat

/-- The grid of a format other than QG4 with an unbounded exponent range (R181). -/
def gridOf (f : Fmt) (v : Rat) : GridPt :=
  match f.float with
  | some l =>
    let emin : Int := 1 - (l.bias : Int)
    let e := if v = 0 then emin else max (log2Floor v) emin
    let q := pow2 (e - (l.mbits : Int))
    { low := (((v / q).floor : Int) : Rat) * q, step := q }
  | none => { low := (((v).floor : Int) : Rat), step := 1 }

/-- Stochastic choice between the neighbours with the random word `u` (R187). -/
def stochasticUp (v low step : Rat) (u : Nat) : Bool :=
  decide ((u : Int) < ((v - low) / step * ((2 ^ 32 : Nat) : Rat)).floor)

/-- V rounded to its grid: to nearest even, or stochastically with a random word (R181 step 4, R187). -/
def roundGrid (g : GridPt) (v : Rat) (u : Option Nat) : Rat :=
  if v = g.low then v
  else match u with
    | some r => if stochasticUp v g.low g.step r then g.low + g.step else g.low
    | none => ((rne (v / g.step) : Int) : Rat) * g.step

/-- E of R208 for a value V written as R on a grid of spacing `step`. -/
def errOf (v r step : Rat) : Int := truncZero ((v - r) / step * ((2 ^ 16 : Nat) : Rat))

/-- Largest finite code of a floating-point format, and codes of its NaN and infinity (R182). -/
def floatTop : Fmt → Nat
  | .e4m3 => 0x7E | .e5m2 => 0x7B | .fp16 => 0x7BFF | .bf16 => 0x7F7F | .fp32 => 0x7F7FFFFF | _ => 0
def floatNan : Fmt → Nat
  | .e4m3 => 0x7F | .e5m2 => 0x7F | .fp16 => 0x7E00 | .bf16 => 0x7FC0 | .fp32 => 0x7FC00000 | _ => 0
def floatInf : Fmt → Nat
  | .e4m3 => 0x7F | .e5m2 => 0x7C | .fp16 => 0x7C00 | .bf16 => 0x7F80 | .fp32 => 0x7F800000 | _ => 0
/-- What a finite overflow gives (R182). -/
def floatOver : Fmt → Nat
  | .e4m3 => 0x7E | .e5m2 => 0x7B | f => floatInf f

/-- Range of an integer format. -/
def intRange : Fmt → Int × Int
  | .uint8 => (0, 255)
  | f => (-(2 ^ (f.bits - 1) : Int), 2 ^ (f.bits - 1) - 1)

/-- Magnitude code of a representable non-negative number. -/
def floatCode (l : FloatFmt) (x : Rat) : Nat :=
  let emin : Int := 1 - (l.bias : Int)
  let e := if x = 0 then emin else max (log2Floor x) emin
  (e - emin).toNat * 2 ^ l.mbits + (x / pow2 (e - (l.mbits : Int))).floor.toNat

/-- Rounding to a floating-point format (R181, R182). -/
def roundFloat (f : Fmt) (l : FloatFmt) (v : Val) (u : Option Nat) : Rounded :=
  let signBit := 2 ^ (l.ebits + l.mbits)
  match v with
  | .nan => { code := floatNan f, nonfinite := true }
  | .pinf => { code := floatInf f, nonfinite := true }
  | .ninf => { code := if f = .e4m3 then 0x7F else signBit + floatInf f, nonfinite := true }
  | .fin x =>
    if x = 0 then { code := 0 }
    else
      let g := gridOf f x
      let r := roundGrid g x u
      let mag := if r < 0 then -r else r
      let top := match decodeFloat f l (floatTop f) with | .fin t => t | _ => 0
      let sgn := if x < 0 then signBit else 0
      if top < mag then { code := sgn + floatOver f, sat := true }
      else { code := sgn + floatCode l mag, err := errOf x r g.step }

/-- Rounding to an integer format (R181 to R183). -/
def roundInt (f : Fmt) (v : Val) (u : Option Nat) : Rounded :=
  let lo := (intRange f).1
  let hi := (intRange f).2
  match v with
  | .nan => { code := 0, sat := true, nonfinite := true }
  | .pinf => { code := ofSigned f.bits hi, sat := true, nonfinite := true }
  | .ninf => { code := ofSigned f.bits lo, sat := true, nonfinite := true }
  | .fin x =>
    let g := gridOf f x
    let r := (roundGrid g x u).floor
    if r < lo then { code := ofSigned f.bits lo, sat := true }
    else if hi < r then { code := ofSigned f.bits hi, sat := true }
    else { code := ofSigned f.bits r, err := errOf x (r : Rat) 1 }

/-- The signed QG4 levels in ascending order with their codes, in units of 1/32 (R170). -/
def qgLevels : List (Int × Nat) :=
  [(-32, 15), (-22, 14), (-16, 13), (-13, 12), (-9, 11), (-6, 10), (-3, 9), (0, 0), (3, 1), (6, 2), (9, 3), (13, 4),
   (16, 5), (22, 6), (32, 7)]

/-- Rounding to QG4 (R206). -/
def roundQg (v : Val) (u : Option Nat) : Rounded :=
  match v with
  | .nan => { code := 0, sat := true, nonfinite := true }
  | .pinf => { code := 7, sat := true, nonfinite := true }
  | .ninf => { code := 15, sat := true, nonfinite := true }
  | .fin x =>
    if x = 0 then { code := 0 }
    else
      let y := x * 32
      if y > 32 then { code := 7, sat := true }
      else if y < -32 then { code := 15, sat := true }
      else
        let below := (qgLevels.filter (fun l => decide (((l.1 : Int) : Rat) ≤ y))).getLastD (-32, 15)
        let above := (qgLevels.find? (fun l => decide (y < ((l.1 : Int) : Rat)))).getD (32, 7)
        let lo : Rat := below.1
        let hi : Rat := above.1
        let pick : Int × Nat :=
          if y = lo then below
          else match u with
            | some r => if stochasticUp y lo (hi - lo) r then above else below
            | none =>
              if y - lo < hi - y then below else if hi - y < y - lo then above
              else if below.2 % 8 % 2 = 0 then below else above
        let code := if pick.1 = 0 ∧ x < 0 then 8 else pick.2
        { code := code, err := if y = lo then 0 else errOf y (pick.1 : Rat) (hi - lo) }

/-- The one rounding of a value to an output format other than XA96 (R181, R206). -/
def roundTo (f : Fmt) (v : Val) (u : Option Nat) : Rounded :=
  match f with
  | .qg4 => roundQg v u
  | _ => match f.float with
    | some l => roundFloat f l v u
    | none => roundInt f v u

/-- One rounding to FP32 (fp32() of R240, R253). -/
def fp32 (x : Val) : Val := decodeCode .fp32 (roundTo .fp32 x none).code

/-! ### Philox 4×32-10 (R185, R186) -/

/-- Four counter words. -/
structure Ctr where
  c0 : Nat
  c1 : Nat
  c2 : Nat
  c3 : Nat
deriving DecidableEq, Repr

/-- One round (R185). -/
def philoxRound (c : Ctr) (k0 k1 : Nat) : Ctr :=
  let p0 := 0xD2511F53 * c.c0
  let p1 := 0xCD9E8D57 * c.c2
  { c0 := (p1 / 2 ^ 32) ^^^ c.c1 ^^^ k0, c1 := p1 % 2 ^ 32, c2 := (p0 / 2 ^ 32) ^^^ c.c3 ^^^ k1, c3 := p0 % 2 ^ 32 }

/-- Rounds from `i` on, the key advancing before every round but the first. -/
def philoxRounds : Nat → Ctr → Nat → Nat → Ctr
  | 0, c, _, _ => c
  | n + 1, c, k0, k1 =>
    philoxRounds n (philoxRound c k0 k1) ((k0 + 0x9E3779B9) % 2 ^ 32) ((k1 + 0xBB67AE85) % 2 ^ 32)

/-- The generator (R185). -/
def philox (c : Ctr) (k0 k1 : Nat) : Ctr := philoxRounds 10 c k0 k1

/-- Word `i` of a generator output. -/
def Ctr.word (c : Ctr) (i : Nat) : Nat := if i = 0 then c.c0 else if i = 1 then c.c1 else if i = 2 then c.c2 else c.c3

/-- The random word of element `e` of a sample (R186): `use` is bits 31:16 of c1. -/
def randomWord (seed opId use sample e : Nat) : Nat :=
  (philox { c0 := e / 4 % 2 ^ 32, c1 := opId % 2 ^ 16 + use * 2 ^ 16, c2 := sample % 2 ^ 32, c3 := sample / 2 ^ 32 % 2 ^ 32 }
    (seed % 2 ^ 32) (seed / 2 ^ 32 % 2 ^ 32)).word (e % 4)

end Sys2Proof.Machine
end

