-- ==== Sys2Proof/Machine/Operands.lean ====
section
/-! DEFINITION. Tensor operands: descriptors (R70, R74, R75), element places, scale headers and granularity (R192 to
R197), the reach of a command (R81, R105) and sync references (R72). -/

namespace Sys2Proof.Machine

/-- A multiple of 32 not below `n` (R75). -/
def pad32 (n : Nat) : Nat := ceilDiv n 32 * 32

/-- Elements stored, padding lanes included (R195). -/
def Tensor.storedElems (t : Tensor) : Nat :=
  (if t.layout = 2 then t.d0 else pad32 t.d0) * t.d1 * t.d2 * t.d3

/-- Stored bytes (R195). -/
def Tensor.storedBytes (t : Tensor) : Nat := ceilDiv (t.storedElems * t.fmt.bits) 8

/-- Number of stream blocks (R195). -/
def Tensor.nblk (t : Tensor) : Nat := ceilDiv t.storedBytes 4096

/-- Offset of the data-tag trailer from BASE (R196). -/
def Tensor.trailerOff (t : Tensor) : Nat := ceilDiv t.storedBytes 64 * 64

/-- Bytes of the extent: stored bytes, and the trailer of a scaled tensor (R196). -/
def Tensor.extent (t : Tensor) : Nat :=
  if t.scale = 0 then t.storedBytes else t.trailerOff + ceilDiv t.nblk 64 * 64

/-- Elements, without padding lanes. -/
def Tensor.elems (t : Tensor) : Nat := t.d0 * t.d1 * t.d2 * t.d3

/-- Storage index of element (i3, i2, i1, i0) (R74, R75). -/
def Tensor.index (t : Tensor) (i3 i2 i1 i0 : Nat) : Nat :=
  if t.layout = 0 then (((i3 * t.d2 + i2) * t.d1 + i1) * ceilDiv t.d0 32 + i0 / 32) * 32 + i0 % 32
  else if t.layout = 1 then (i0 / 32 * t.d1 + i1) * 32 + i0 % 32
  else ((i3 * t.d2 + i2) * t.d1 + i1) * t.d0 + i0

/-- First byte, relative to BASE, of the element with a storage index. -/
def Tensor.byteOff (t : Tensor) (idx : Nat) : Nat := idx * t.fmt.bits / 8

/-- Bytes that hold one element. -/
def Tensor.elemBytes (t : Tensor) : Nat := max 1 (t.fmt.bits / 8)

/-- The scale that governs an element (R192): `idx` is its storage index. -/
def Tensor.scaleIndex (t : Tensor) (i1 i0 idx : Nat) : Nat :=
  if t.scale = 1 then 0 else if t.scale = 2 then (if t.layout = 1 then i1 else i0) else idx / 32

/-- COUNT derived from the descriptor (R192). -/
def Tensor.scaleCount (t : Tensor) : Nat :=
  if t.scale = 1 then 1
  else if t.scale = 2 then (if t.layout = 1 then t.d1 else t.d0)
  else if t.layout = 0 then t.d3 * t.d2 * t.d1 * ceilDiv t.d0 32 else ceilDiv t.d0 32 * t.d1

/-- A descriptor in 32 bytes, with no check (R74); none where FORMAT is no code. -/
def Tensor.parse (b : List Byte) : Option Tensor :=
  (Fmt.ofCode (leAt b 8 1)).map fun f =>
    { base := leAt b 0 8, fmt := f, layout := leAt b 9 1, rank := leAt b 10 1, scale := leAt b 11 1 % 4,
      d0 := leAt b 12 3, d1 := leAt b 15 3, d2 := leAt b 18 3, d3 := leAt b 21 3, scaleAddr := leAt b 24 6 }

/-- The limits of step 6 of R80 (R8, R74). `b` is the descriptor's 32 bytes. -/
def tensorLimitsOk (b : List Byte) : Bool :=
  match Tensor.parse b with
  | none => false
  | some t =>
    let dims := [t.d0, t.d1, t.d2, t.d3]
    decide (t.base < 2 ^ 48) && decide (t.base % 64 = 0) && decide (t.layout ≤ 2) &&
      decide (1 ≤ t.rank ∧ t.rank ≤ 4) && dims.all (fun d => decide (1 ≤ d ∧ d ≤ 2 ^ 20)) &&
      (dims.drop t.rank).all (fun d => d == 1) && decide (t.elems ≤ 2 ^ 34) &&
      (t.layout != 1 || (t.d2 == 1 && t.d3 == 1)) && decide (leAt b 11 1 < 4) &&
      (t.scale != 0 || t.scaleAddr == 0)

/-- CRC of a tensor descriptor read at `a` (R74). -/
def tensorCrcOk (a : Nat) (b : List Byte) : Bool := leAt b 30 2 == crc16Fold a (b.take 30)

/-! ### Reach (R81, R105, R129) -/

/-- Whether every byte of a range lies in carve-outs that satisfy `p`. -/
def carvesCover (i : Image) (p : Carveout → Bool) : Nat → Nat → Nat → Bool
  | 0, _, _ => false
  | fuel + 1, a, stop =>
    if stop ≤ a then true
    else match i.carveAt a with
      | some c => p c && carvesCover i p fuel (c.base + c.size) stop
      | none => false

/-- Whether every byte of a range lies in carve-outs that satisfy `p` (R129). -/
def State.inCarves (s : State) (p : Carveout → Bool) (a n : Nat) : Bool :=
  carvesCover s.img p (s.img.carves.length + 1) a (a + n)

/-- Whether a range lies in the memory of a tile (R12, R81). -/
def State.inTile (s : State) (t a n : Nat) : Bool :=
  decide (t < s.part.tiles) && decide (t * tileSize ≤ a ∧ a + n ≤ (t + 1) * tileSize)

/-- Whether a command of a queue of region `g`, run on tile `t`, may read a range; `bal` is the queue's BAL_GROUP (R81). -/
def State.mayRead (s : State) (t bal a n : Nat) : Bool :=
  (bal == 0 && s.inTile t a n) || s.inCarves (fun _ => true) a n

/-- Whether it may write the range (R81). -/
def State.mayWrite (s : State) (t g bal a n : Nat) : Bool :=
  (bal == 0 && s.inTile t a n) || s.inCarves (fun c => c.owner == g || c.owner == 0xF0) a n

/-! ### Elements in memory -/

/-- What a read of bytes gives once its errors are corrected, with no effect (for bytes already read and checked). -/
def State.peek (s : State) (a n : Nat) : List Byte :=
  let bytes := (s.units a n).flatMap fun u =>
    if s.isDirty u.1 then zeros u.2
    else match decodeUnit u.2 (SMap.get [] s.flips u.1) with
      | .corrected ps => s.unitData u.1 u.2 ps
      | _ => s.unitData u.1 u.2 []
  (bytes.drop (a % s.unitSize a)).take n

/-- Stored code of the element with a storage index. -/
def State.code (s : State) (t : Tensor) (idx : Nat) : Nat :=
  let b := leNat (s.peek (t.base + t.byteOff idx) t.elemBytes)
  if t.fmt.bits = 4 then (if idx % 2 = 0 then b % 16 else b / 16) else b

/-- Stored value of the element with a storage index; an XA96 element by its flags and number (R181). -/
def State.elem (s : State) (t : Tensor) (idx : Nat) : Val :=
  if t.fmt = .xa96 then (XA.ofBytes (s.peek (t.base + t.byteOff idx) 16)).val else decodeCode t.fmt (s.code t idx)

/-- The XA96 element with a storage index. -/
def State.xaElem (s : State) (t : Tensor) (idx : Nat) : XA := XA.ofBytes (s.peek (t.base + t.byteOff idx) 16)

/-- An FP32 scale as a number (R197); 1 where it is none. -/
def State.scaleAt (s : State) (h : ScaleHdr) (i : Nat) : Rat :=
  match decodeCode .fp32 (leNat (s.peek (h.scales + 4 * i) 4)) with
  | .fin x => x
  | _ => 1

/-- A scale of an operand's stream; a missing scale is 1 (R204, R205). -/
def State.scaleOf (s : State) (h : Option ScaleHdr) (i : Nat) : Rat :=
  match h with
  | some hd => s.scaleAt hd i
  | none => 1

/-- Whether an FP32 scale passes the guard (R184). -/
def scaleLegal (c : Nat) : Bool :=
  match decodeCode .fp32 c with
  | .fin x => decide (pow2 (-40) ≤ x) && decide (x ≤ pow2 40)
  | _ => false

/-- Where a padded index reads: an index of the input, or nothing in zero mode (R213). -/
def padIndex (mode : Nat) (i : Int) (n : Nat) : Option Nat :=
  if 0 ≤ i ∧ i < n then some i.toNat
  else if mode = 0 then none
  else if mode = 1 then some (if i < 0 then 0 else n - 1)
  else some (if i < 0 then (-i).toNat else (2 * ((n : Int) - 1) - i).toNat)

/-- Packs codes of a format into bytes, lower index in the lower bits (R75). -/
def packCodes (f : Fmt) : List Nat → List Byte
  | [] => []
  | c :: t =>
    if f.bits = 4 then
      match t with
      | [] => leBytes 1 (c % 16)
      | c2 :: t2 => leBytes 1 (c % 16 + c2 % 16 * 16) ++ packCodes f t2
    else leBytes (f.bits / 8) c ++ packCodes f t

end Sys2Proof.Machine
end

