-- ==== Sys2Proof/Machine/CmdDecode.lean ====
section
/-! DEFINITION. The command descriptor and the ten decode steps of the front end (R70 to R81; formats and shapes of
R146, R147, R211 to R217, R225, R229, R230, R240, R246, R247, R254, R371; scales of R184, R193, R198; start checks of
R133 and R188). -/

namespace Sys2Proof.Machine

/-- A descriptor in 64 bytes (R70). -/
def Desc.parse (b : List Byte) : Desc :=
  { opcode := BitVec.ofNat 8 (leAt b 0 1), flags := BitVec.ofNat 8 (leAt b 1 1), seq := BitVec.ofNat 16 (leAt b 2 2)
    waitRef := BitVec.ofNat 32 (leAt b 4 4), waitValue := BitVec.ofNat 32 (leAt b 8 4)
    signalRef := BitVec.ofNat 32 (leAt b 12 4), signalAdd := BitVec.ofNat 32 (leAt b 16 4)
    budget := BitVec.ofNat 32 (leAt b 20 4), src0 := BitVec.ofNat 64 (leAt b 24 8)
    src1 := BitVec.ofNat 64 (leAt b 32 8), dst := BitVec.ofNat 64 (leAt b 40 8)
    param := BitVec.ofNat 64 (leAt b 48 8), ext := BitVec.ofNat 16 (leAt b 56 2)
    opId := BitVec.ofNat 16 (leAt b 58 2), satThresh := BitVec.ofNat 16 (leAt b 60 2)
    crc := BitVec.ofNat 16 (leAt b 62 2) }

/-- FLAGS.WAIT, SIGNAL, FENCE and IRQ (R70). -/
def Desc.hasWait (d : Desc) : Bool := bit d.flags.toNat 0
def Desc.hasSignal (d : Desc) : Bool := bit d.flags.toNat 1
def Desc.hasFence (d : Desc) : Bool := bit d.flags.toNat 2
def Desc.hasIrq (d : Desc) : Bool := bit d.flags.toNat 3
/-- EXT.ROUND and EXT.ACC (R70). -/
def Desc.round (d : Desc) : Nat := d.ext.toNat % 4
def Desc.acc (d : Desc) : Bool := bit d.ext.toNat 2
/-- Bits hi:lo of PARAM. -/
def Desc.p (d : Desc) (hi lo : Nat) : Nat := fld d.param.toNat hi lo

/-- The opcodes (R76). -/
inductive Op where
  | mm | conv | gslice | binary | unary | cvt | reduce | pool | norm | softmax | scatter
  | copy | fill | send | msgwin | publish | sync | setsync | ring
deriving DecidableEq, Repr

/-- The opcode of a code (R76). -/
def Op.ofCode : Nat → Option Op
  | 0x01 => some .mm | 0x02 => some .conv | 0x03 => some .gslice
  | 0x20 => some .binary | 0x21 => some .unary | 0x22 => some .cvt | 0x23 => some .reduce | 0x24 => some .pool
  | 0x25 => some .norm | 0x26 => some .softmax | 0x27 => some .scatter
  | 0x40 => some .copy | 0x41 => some .fill | 0x42 => some .send | 0x43 => some .msgwin | 0x44 => some .publish
  | 0x60 => some .sync | 0x61 => some .setsync | 0x62 => some .ring
  | _ => none

/-- The engine of an opcode: 0 ME, 1 VE, 2 DE, 3 SE (R76). -/
def Op.engine : Op → Nat
  | .mm | .conv | .gslice => 0
  | .copy | .fill | .send | .msgwin | .publish => 2
  | .sync | .setsync | .ring => 3
  | _ => 1

/-- What an operand field holds (R76). -/
inductive Use where
  | unused | tensor | tensorOrZero | address
deriving DecidableEq, Repr

/-- The uses of SRC0, SRC1 and DST (R76). -/
def Op.uses : Op → Use × Use × Use
  | .mm | .conv | .gslice | .binary | .norm | .scatter => (.tensor, .tensor, .tensor)
  | .unary | .cvt | .reduce | .pool | .copy => (.tensor, .unused, .tensor)
  | .softmax => (.tensor, .tensorOrZero, .tensorOrZero)
  | .fill => (.unused, .unused, .tensor)
  | .send => (.tensor, .unused, .unused)
  | .publish => (.tensor, .address, .unused)
  | _ => (.unused, .unused, .unused)

/-- Whether an operand field names a tensor descriptor. -/
def Use.names (u : Use) (a : Nat) : Bool := u == .tensor || (u == .tensorOrZero && a != 0)

/-- The PARAM bits an opcode leaves reserved are zero (R76, R77, R246); FILL is judged by `fillParamOk`. -/
def Op.paramReservedOk (o : Op) (d : Desc) : Bool :=
  let x := d.param.toNat
  match o with
  | .gslice | .fill => true
  | .conv => decide (x < 2 ^ 53)
  | .pool => decide (x < 2 ^ 55)
  | .binary | .unary => decide (x < 2 ^ 8)
  | .reduce => decide (x < 2 ^ 10)
  | .norm => decide (x < 2 ^ 32)
  | .softmax => decide (x < 2 ^ 57)
  | .send => decide (x < 2 ^ 48) && decide (fld x 15 14 = 0)
  | .msgwin => decide (x < 2 ^ 56) && decide (fld x 7 4 = 0) && !bit x 31
  | .publish => decide (x < 2 ^ 16)
  | .ring => decide (x < 2 ^ 32) && !bit x 15
  | _ => decide (x = 0)

/-- PARAM of a FILL has no bit above the element width (R132); an XA96 element takes all 64. -/
def fillParamOk (f : Fmt) (d : Desc) : Bool := f == .xa96 || decide (d.param.toNat < 2 ^ f.bits)

/-! ### Convolution geometry (R77, R212, R214, R217) -/

/-- The fields of the geometry (R77). -/
structure Geom where
  kh : Nat
  kw : Nat
  sh : Nat
  sw : Nat
  dh : Nat
  dw : Nat
  pt : Nat
  pb : Nat
  pl : Nat
  pr : Nat
  padMode : Nat
  depthwise : Bool
deriving DecidableEq, Repr

/-- The geometry in PARAM (R77). -/
def Desc.geom (d : Desc) : Geom :=
  { kh := d.p 4 0, kw := d.p 9 5, sh := d.p 14 10, sw := d.p 19 15, dh := d.p 24 20, dw := d.p 29 25,
    pt := d.p 34 30, pb := d.p 39 35, pl := d.p 44 40, pr := d.p 49 45, padMode := d.p 51 50,
    depthwise := bit d.param.toNat 52 }

/-- An output size, possibly zero or less (R214). -/
def outSize (h pa pb dil k str : Nat) : Int :=
  Int.fdiv ((h : Int) + pa + pb - (dil : Int) * ((k : Int) - 1) - 1) str + 1

/-- OH and OW (R214). -/
def Geom.oh (g : Geom) (h : Nat) : Int := outSize h g.pt g.pb g.dh g.kh g.sh
def Geom.ow (g : Geom) (w : Nat) : Int := outSize w g.pl g.pr g.dw g.kw g.sw

/-- The range checks of R214: non-zero sizes, strides and dilations, a known padding mode, reflect within the input. -/
def Geom.rangeOk (g : Geom) (h w : Nat) : Bool :=
  [g.kh, g.kw, g.sh, g.sw, g.dh, g.dw].all (fun x => decide (0 < x)) && decide (g.padMode ≤ 2) &&
    (g.padMode != 2 ||
      (decide (g.pt + 1 ≤ h) && decide (g.pb + 1 ≤ h) && decide (g.pl + 1 ≤ w) && decide (g.pr + 1 ≤ w)))

/-- K_row of an operand pair; none for a pair the array does not take (R146). -/
def kRow (a w : Fmt) : Option Nat :=
  if a.is8 && (w.is8 || w.is4) then some 32
  else if a.is4 && w.is4 then some 64
  else if a.is4 && w.is8 then some 32
  else if a.is16 && (w.is16 || w.is8 || w.is4) then some 16
  else none

/-- DST formats of the matrix array (R147). -/
def meDstOk (f : Fmt) : Bool :=
  [Fmt.fp32, .fp16, .bf16, .int32, .int16, .int8, .uint8, .e4m3, .e5m2, .xa96].contains f

/-- Reduction length K of a CONV (R211, R217). -/
def convK (g : Geom) (c : Nat) : Nat := if g.depthwise then g.kh * g.kw else g.kh * g.kw * pad32 c

/-! ### Steps 8 and 9: formats and shapes -/

/-- The operands a decode step looks at. -/
structure Opnds where
  d : Desc
  src0 : Option Tensor
  src1 : Option Tensor
  dst : Option Tensor

/-- EXT.ACC and EXT.ROUND (R79). -/
def extOk (o : Op) (x : Opnds) : Bool :=
  let accOk := !x.d.acc || ((o == .mm || o == .conv || o == .cvt) &&
    (match x.dst with | some t => t.fmt == .xa96 | none => false))
  let narrow := match x.dst with | some t => decide (t.fmt.bits < 32) | none => false
  accOk && decide (x.d.round ≤ 1) && (x.d.round == 0 || narrow)

/-- Formats of the ME opcodes (R146, R147, R217). -/
def meFormatsOk (o : Op) (d : Desc) (a w t : Tensor) : Bool :=
  match kRow a.fmt w.fmt with
  | none => false
  | some kr =>
    let g := d.geom
    let dwOk := o != .conv || !g.depthwise || (a.fmt.is8 && (w.fmt.is8 || w.fmt.is4))
    let k := if o == .conv then convK g a.d0 else a.d0
    let kPass := if o == .conv && g.depthwise then 32 else 32 * kr
    dwOk && meDstOk t.fmt && (t.fmt == .xa96 || decide (k ≤ kPass))

/-- Step 8 of R80 for each opcode: the formats are legal. -/
def formatsOk (o : Op) (x : Opnds) : Bool :=
  match o, x.src0, x.src1, x.dst with
  | .mm, some a, some w, some t => meFormatsOk .mm x.d a w t
  | .conv, some a, some w, some t => meFormatsOk .conv x.d a w t
  | .gslice, some a, some w, some t => meFormatsOk .gslice x.d a w t
  | .binary, some a, some w, some t => a.fmt != .xa96 && w.fmt != .xa96 && t.fmt != .xa96
  | .unary, some _, _, some t => t.fmt != .xa96
  | .reduce, some a, _, some t =>
    if x.d.p 7 0 = 1 then a.fmt == t.fmt else if x.d.p 7 0 = 2 then t.fmt == .int32 else true
  | .pool, some a, _, some t =>
    a.fmt != .xa96 && (if x.d.p 54 53 = 0 then a.fmt == t.fmt else meDstOk t.fmt && t.fmt != .xa96)
  | .norm, some a, some w, some t =>
    a.fmt != .xa96 && a.fmt != .qg4 && w.fmt == .fp32 && meDstOk t.fmt && t.fmt != .xa96
  | .softmax, some a, m, t =>
    [Fmt.fp32, .fp16, .bf16].contains a.fmt &&
      (match t with | some d => [Fmt.fp32, .fp16, .bf16, .e4m3, .e5m2].contains d.fmt | none => true) &&
      (match m with | some b => b.fmt == .uint8 && b.layout == 2 && b.rank == 2 | none => true)
  | .scatter, some _, some w, some t => w.fmt == .int32 && (t.fmt == .int32 || t.fmt == .xa96)
  | .copy, some a, _, some t => a.fmt == t.fmt
  | _, _, _, _ => true

def sameDims (a t : Tensor) : Bool := a.d0 == t.d0 && a.d1 == t.d1 && a.d2 == t.d2 && a.d3 == t.d3

/-- Shapes of an MM or GSLICE (R147). -/
def mmShapesOk (a w t : Tensor) : Bool :=
  a.layout == 0 && w.layout == 1 && t.layout == 0 && a.d0 == w.d0 && w.d1 == t.d0 && a.d1 == t.d1 &&
    a.d2 == t.d2 && a.d3 == t.d3

/-- Shapes of a CONV that need no output size (R211, R217). -/
def convShapesOk (g : Geom) (a w t : Tensor) : Bool :=
  a.layout == 0 && w.layout == 1 && t.layout == 0 && w.d0 == convK g a.d0 &&
    (if g.depthwise then w.d1 == a.d0 && t.d0 == a.d0 else w.d1 == t.d0) && a.d3 == t.d3

/-- The codes one axis gives: 0x13 for a size of zero or less, 0x19 where DST has another dimension. With a stride of zero
the formula gives no size, and neither check applies to that axis. -/
def axisCodes (stride : Nat) (size : Int) (dst : Nat) : List Nat :=
  if stride = 0 then [] else (if size ≤ 0 then [0x13] else []) ++ (if (dst : Int) = size then [] else [0x19])

/-- The codes the output size of R214 gives. -/
def outSizeCodes (g : Geom) (a t : Tensor) : List Nat :=
  axisCodes g.sh (g.oh a.d2) t.d2 ++ axisCodes g.sw (g.ow a.d1) t.d1

/-- SRC1 of a BINARY is broadcast over its size-1 dimensions (R229). -/
def broadcastOk (a w : Tensor) : Bool :=
  (w.d0 == 1 || w.d0 == a.d0) && (w.d1 == 1 || w.d1 == a.d1) && (w.d2 == 1 || w.d2 == a.d2) && (w.d3 == 1 || w.d3 == a.d3)

/-- The shape of a REDUCE's DST: SRC0 with the axis set to 1 (R230). -/
def reduceShape (a : Tensor) (axis : Nat) : Nat × Nat × Nat × Nat :=
  (if axis = 0 then 1 else a.d0, if axis = 1 then 1 else a.d1, if axis = 2 then 1 else a.d2, if axis = 3 then 1 else a.d3)

/-- Rows of a SOFTMAX (R246). -/
def softmaxRows (a : Tensor) : Nat := a.d1 * a.d2 * a.d3

/-- The mask covers the command (R254). -/
def maskCovers (d : Desc) (a m : Tensor) : Bool :=
  let rows := softmaxRows a
  let last := d.p 56 51 * 1024 + a.d0 - 1
  decide (m.d0 % 64 = 0) &&
    (if bit d.param.toNat 50 then decide (ceilDiv rows 32 ≤ m.d1) && decide (last / 32 < 8 * m.d0)
     else decide (rows ≤ m.d1) && decide (last < 8 * m.d0))

/-- Whether two ranges share a byte. -/
def overlaps (a n b m : Nat) : Bool := decide (a < b + m) && decide (b < a + n)

/-- Status 0x51: what GSLICE asks beyond MM (R371). -/
def gsliceOk (s : State) (q : Nat) (d : Desc) (a w t : Tensor) : Bool :=
  let kPass := 32 * ((kRow a.fmt w.fmt).getD 32)
  decide ((s.img.tileMap[tileOfQueue q]?).map (·.goldenQueue) = some (q % 512)) && decide (kPass ≤ w.d0) &&
    decide (w.d1 % 32 = 0) && decide (32 ≤ a.d1 * a.d2 * a.d3) && t.fmt != .xa96 && !d.acc && d.round == 0

/-- The codes step 9 of R80 finds: 0x13, 0x19, 0x1A, 0x51. -/
def step9 (s : State) (q : Nat) (o : Op) (x : Opnds) : List Nat :=
  let d := x.d
  match o, x.src0, x.src1, x.dst with
  | .mm, some a, some w, some t => if mmShapesOk a w t then [] else [0x19]
  | .gslice, some a, some w, some t =>
    (if mmShapesOk a w t then [] else [0x19]) ++ (if gsliceOk s q d a w t then [] else [0x51])
  | .conv, some a, some w, some t =>
    outSizeCodes d.geom a t ++ (if convShapesOk d.geom a w t then [] else [0x19]) ++
      (if d.geom.rangeOk a.d2 a.d1 then [] else [0x1A])
  | .pool, some a, _, some t =>
    outSizeCodes d.geom a t ++
      (if a.layout == 0 && t.layout == 0 && a.d0 == t.d0 && a.d3 == t.d3 then [] else [0x19]) ++
      (if d.geom.rangeOk a.d2 a.d1 && !d.geom.depthwise && decide (d.p 54 53 ≤ 1) then [] else [0x1A])
  | .binary, some a, some w, some t =>
    (if broadcastOk a w && sameDims a t then [] else [0x19]) ++ (if d.p 7 0 ≤ 4 then [] else [0x1A])
  | .unary, some a, _, some t =>
    (if sameDims a t then [] else [0x19]) ++ (if d.p 7 0 ≤ 8 then [] else [0x1A])
  | .cvt, some a, _, some t => if sameDims a t then [] else [0x19]
  | .reduce, some a, _, some t =>
    (if reduceShape a (d.p 9 8) = (t.d0, t.d1, t.d2, t.d3) then [] else [0x19]) ++ (if d.p 7 0 ≤ 2 then [] else [0x1A])
  | .norm, some a, some w, some t =>
    let epsOk := match decodeCode .fp32 (d.p 31 0) with
      | .fin e => decide (pow2 (-126) ≤ e) && decide (e ≤ 1)
      | _ => false
    (if sameDims a t && w.layout == 2 && w.d0 == a.d0 && w.d1 == 2 && w.d2 == 1 && w.d3 == 1 then [] else [0x19]) ++
      (if epsOk then [] else [0x1A])
  | .softmax, some a, m, t =>
    let mode := d.p 49 48
    let sa := d.p 47 0
    let sn := softmaxRows a * 32
    let hits := fun (u : Option Tensor) => match u with | some v => overlaps sa sn v.base v.extent | none => false
    (if a.layout == 0 && (match t with | some v => sameDims a v || mode == 1 | none => mode == 1) &&
        (match m with | some b => maskCovers d a b | none => true) then [] else [0x19]) ++
      (if decide (mode ≤ 2) && decide (d.p 56 51 * 1024 + a.d0 ≤ 65536) && decide (sa % 64 = 0) && !hits (some a) &&
        !hits m && !hits t && (mode != 1 || d.dst == 0) then [] else [0x1A])
  | .scatter, some a, some w, _ => if sameDims a w then [] else [0x19]
  | .copy, some a, _, some t => if sameDims a t then [] else [0x19]
  | .send, _, _, _ => if d.p 5 0 < s.part.tiles ∨ d.p 9 6 ≠ s.chip then [] else [0x1A]
  | .msgwin, _, _, _ =>
    if d.p 30 8 % 64 = 0 ∧ 64 ≤ d.p 55 32 ∧ d.p 30 8 + d.p 55 32 ≤ tileSize then [] else [0x1A]
  | .publish, some a, _, _ =>
    (if a.layout = 2 ∧ a.storedBytes = d.p 15 8 then [] else [0x19]) ++
      (if s.img.payload.fields.any (fun f => f.off == d.p 7 0 && f.len == d.p 15 8) then [] else [0x1A])
  | .ring, _, _, _ => if d.p 14 0 < s.part.queues then [] else [0x1A]
  | _, _, _, _ => []

/-! ### Step 10: scales (R184, R193, R198) -/

/-- Whether a tensor may have its SCALE by its format and layout alone (R193). -/
def scaleSelfOk (t : Tensor) : Bool :=
  t.scale == 0 ||
    (((t.fmt.is4 || t.fmt.is8 || t.fmt == .int16) && (t.scale != 3 || t.layout != 2)) ||
      (t.fmt == .xa96 && t.scale != 3))

/-- DST is XA96, so that its scales are deferred (R193, R201). -/
def Opnds.xaDst (x : Opnds) : Bool := match x.dst with | some t => t.fmt == .xa96 | none => false

/-- The granularities the table of R193 permits for SRC0 (role 0), SRC1 (1) and DST (2); 0 is an unscaled operand. -/
def granOk (o : Op) (xaDst : Bool) (role g : Nat) : Bool :=
  match o with
  | .mm | .conv | .gslice =>
    if role = 2 then !xaDst || decide (g ≤ 2)
    else if xaDst then g == 0 || g == 3
    else role == 1 || decide (g ≠ 2)
  | .cvt => role != 2 || !xaDst || decide (g ≤ 2)
  | .copy | .send | .fill => true
  | _ => g == 0

/-- Whether an operand's SCALE is legal for the command (R193). -/
def useScaleOk (o : Op) (x : Opnds) (role : Nat) (t : Tensor) : Bool := scaleSelfOk t && granOk o x.xaDst role t.scale

/-- The conditions of R193 on all operands; the two of a COPY have the same SCALE. -/
def scaleOk (o : Op) (x : Opnds) : Bool :=
  let ok := fun (role : Nat) (t : Option Tensor) => match t with | some v => useScaleOk o x role v | none => true
  let sc := fun (t : Option Tensor) => match t with | some v => v.scale | none => 0
  ok 0 x.src0 && ok 1 x.src1 && ok 2 x.dst && (o != .copy || sc x.src0 == sc x.dst)

/-- Whether the command reads the header of an operand: COPY and SEND read none (R203). -/
def readsHeader (o : Op) : Bool := o != .copy && o != .send

/-- Whether the command applies the scales of SRC0 and SRC1, and of DST (R184, R201). A SCALE that R193 forbids
is not applied, so that its scales are not read (DEDUCED, assumption 37). -/
def appliesSrcScale (o : Op) : Bool := o == .mm || o == .conv || o == .gslice || o == .cvt
def appliesDstScale (o : Op) (t : Tensor) : Bool := appliesSrcScale o && t.fmt != .xa96

/-- A scale header in 64 bytes (R194). -/
def ScaleHdr.parse (b : List Byte) : ScaleHdr :=
  { gran := leAt b 0 1, stats := bit (leAt b 1 1) 0, count := leAt b 4 4, nblk := leAt b 8 4, scales := leAt b 16 8,
    stags := leAt b 24 8, statsAddr := leAt b 32 8 }

/-- The running context of a command: queue, tile that runs it, BAL_GROUP. -/
structure Ctx where
  q : Nat
  tile : Nat
  bal : Nat

def Ctx.region (c : Ctx) : Nat := regionOfTile (tileOfQueue c.q)

/-- Whether a header passes R198; `a` is its address, `b` its bytes. -/
def headerOk (s : State) (c : Ctx) (t : Tensor) (a : Nat) (b : List Byte) : Bool :=
  let h := ScaleHdr.parse b
  leAt b 62 2 == crc16Fold a (b.take 62) && h.gran == t.scale && h.count == t.scaleCount && h.nblk == t.nblk &&
    decide (leAt b 1 1 < 2) && decide (leAt b 2 2 = 0) && decide (leAt b 12 4 = 0) &&
    (b.drop 40).take 22 == zeros 22 &&
    decide (h.scales % 64 = 0) && decide (h.stags % 64 = 0) &&
    s.mayRead c.tile c.bal h.scales (4 * h.count) && s.mayRead c.tile c.bal h.stags h.nblk &&
    (if h.stats then decide (h.statsAddr % 64 = 0) && s.mayWrite c.tile c.region c.bal h.statsAddr 192
     else decide (h.statsAddr = 0))

/-- A read of bytes by a command: status 0x38 where a carve-out of the range is closed to its region (R131, R418). -/
def State.cmdFetch (s : State) (c : Ctx) (a n : Nat) : Fetch :=
  if s.carveClosed (some c.region) a n then { st := s, status := 0x38, data := [] } else s.fetch a n

/-- The status of a read as a condition of its decode step: none where it is 0 (DEDUCED, assumption 142). -/
def memCode (st : Nat) : List Nat := if st = 0 then [] else [st]

/-- Reads and checks the header of an operand, and its scales where the command applies them (R131, R184, R198, R199):
the state, the codes found, a memory status among them, and the header. -/
def checkHeader (s : State) (c : Ctx) (t : Tensor) (applies : Bool) : State × List Nat × Option ScaleHdr :=
  if t.scale = 0 then (s, [], none)
  else if t.scaleAddr % 64 ≠ 0 ∨ !(s.mayRead c.tile c.bal t.scaleAddr 64) then (s, [0x2E], none)
  else
    let f := s.cmdFetch c t.scaleAddr 64
    if f.status ≠ 0 then (f.st, [f.status], none)
    else if !(headerOk s c t t.scaleAddr f.data) then (f.st, [0x2E], none)
    else
      let h := ScaleHdr.parse f.data
      if applies then
        let g := f.st.cmdFetch c h.scales (4 * h.count)
        (g.st, memCode g.status ++ (if (chunks 4 g.data).all (fun x => scaleLegal (leNat x)) then [] else [0x24]), some h)
      else (f.st, [], some h)

/-! ### The whole decode -/

/-- The lowest code of a step, 0 for none (R10). -/
def lowest : List Nat → Nat
  | [] => 0
  | c :: t => t.foldl min c

/-- Reads a tensor descriptor; one that lies out of reach or is misaligned is left to step 7. -/
def fetchTensor (s : State) (c : Ctx) (u : Use) (a : Nat) : State × Nat × Option (List Byte) :=
  if !(u.names a) then (s, 0, none)
  else if a % 32 ≠ 0 ∨ !(s.mayRead c.tile c.bal a 32) then (s, 0, none)
  else
    let f := s.cmdFetch c a 32
    (f.st, f.status, if f.status = 0 then some f.data else none)

/-- The result of a decode: the state after its reads, a status (0: the command may start) and the operands. -/
structure Decoded where
  st : State
  status : Nat
  fl : InFlight

/-- Step 7: every descriptor and every extent lies in reach (R81, R105, R196, R247), and a queue of a balance group names no
tile-memory address, which the PARAM of a MSGWIN is (R81). -/
def reachOk (s : State) (c : Ctx) (o : Op) (x : Opnds) : Bool :=
  let d := x.d
  let desc := fun (u : Use) (a : Nat) => !(u.names a) || (decide (a % 32 = 0) && s.mayRead c.tile c.bal a 32)
  let us := o.uses
  let rd := fun (t : Option Tensor) => match t with | some v => s.mayRead c.tile c.bal v.base v.extent | none => true
  let wr := fun (t : Option Tensor) => match t with
    | some v => s.mayWrite c.tile c.region c.bal v.base v.extent
    | none => true
  desc us.1 d.src0.toNat && desc us.2.1 d.src1.toNat && desc us.2.2 d.dst.toNat && rd x.src0 && rd x.src1 && wr x.dst &&
    (o != .publish || s.mayRead c.tile c.bal d.src1.toNat 8) && (o != .msgwin || c.bal == 0) &&
    (o != .softmax || (match x.src0 with
      | some a =>
        let n := softmaxRows a * 32
        s.mayRead c.tile c.bal (d.p 47 0) n && (decide (2 ≤ d.p 49 48) || s.mayWrite c.tile c.region c.bal (d.p 47 0) n)
      | none => true))

/-- Step 10's sync references (R72): a wait names its own cluster; a signal, and the object of a SETSYNC, any cluster of any
chip. -/
def refsOk (s : State) (c : Ctx) (o : Op) (d : Desc) : Bool :=
  let w := d.waitRef.toNat
  let g := d.signalRef.toNat
  (!d.hasWait || (refLayoutOk w && refChip w == s.chip && refCluster w == clusterOfTile c.tile)) &&
    (!(d.hasSignal || o == .setsync) || (refLayoutOk g && decide (refCluster g < s.part.clusters)))

/-- Steps 1 to 4 of R80 on a descriptor read at `a` for position `p`. -/
def steps1to4 (engine p a : Nat) (b : List Byte) : Nat × Option Op :=
  let d := Desc.parse b
  if leAt b 62 2 ≠ crc16Fold a (b.take 62) then (0x10, none)
  else if d.seq.toNat ≠ p % 2 ^ 16 then (0x16, none)
  else match Op.ofCode d.opcode.toNat with
    | none => (0x14, none)
    | some o =>
      if o.engine ≠ engine then (0x14, none)
      else
        let us := o.uses
        let addrOk := fun (u : Use) (v : Nat) => decide (v < 2 ^ 48) && (u != .unused || v == 0)
        if decide (d.flags.toNat < 16) && decide (d.ext.toNat < 8) && addrOk us.1 d.src0.toNat &&
            addrOk us.2.1 d.src1.toNat && addrOk us.2.2 d.dst.toNat && o.paramReservedOk d then (0, some o)
        else (0x15, some o)

/-- Steps 5 to 9 on the tensor descriptors read; `mem` are the memory statuses of those reads, which stand in step 5. -/
def steps5to9 (s : State) (c : Ctx) (o : Op) (d : Desc) (mem : List Nat) (b0 b1 bd : Option (List Byte)) : Nat × Opnds :=
  let ts := fun (b : Option (List Byte)) => b.bind Tensor.parse
  let x : Opnds := { d := d, src0 := ts b0, src1 := ts b1, dst := ts bd }
  let crcOk := fun (a : Nat) (b : Option (List Byte)) => match b with | some v => tensorCrcOk a v | none => true
  let limOk := fun (b : Option (List Byte)) => match b with | some v => tensorLimitsOk v | none => true
  let fillBad := o == .fill && (match bd, x.dst with
    | some v, some t => tensorCrcOk d.dst.toNat v && tensorLimitsOk v && !fillParamOk t.fmt d
    | _, _ => false)
  if fillBad then (0x15, x)
  else if !(crcOk d.src0.toNat b0 && crcOk d.src1.toNat b1 && crcOk d.dst.toNat bd) then (0x11, x)
  else if mem ≠ [] then (lowest mem, x)
  else if !(limOk b0 && limOk b1 && limOk bd) then (0x12, x)
  else if !(reachOk s c o x) then (0x17, x)
  else if !(formatsOk o x && extOk o x) then (0x18, x)
  else (lowest (step9 s c.q o x), x)

/-- The random seed and sample table of a command with stochastic rounding: the state, the code and the indices (R188). -/
def randomChecks (s : State) (c : Ctx) (x : Opnds) : State × List Nat × List Nat :=
  if x.d.round ≠ 1 then (s, [], [])
  else
    let r := s.region c.region
    let n := match x.dst with | some t => t.d3 | none => 0
    if !r.rngValid then (s, [0x21], [])
    else if !(s.mayRead c.tile c.bal r.tab.toNat (8 * n)) then (s, [0x22], [])
    else
      let f := s.cmdFetch c r.tab.toNat (8 * n)
      (f.st, memCode f.status, (chunks 8 f.data).map leNat)

/-- A COPY whose DST extent meets its SRC extent (R133). -/
def copyOverlaps (o : Op) (x : Opnds) : Bool :=
  o == .copy && (match x.src0, x.dst with
    | some a, some t => overlaps a.base a.extent t.base t.extent
    | _, _ => false)

/-- Start checks after decode, as one step: the COPY overlap (R133) and the random seed and sample table (R188). -/
def startChecks (s : State) (c : Ctx) (o : Op) (x : Opnds) : State × Nat × List Nat :=
  let r := randomChecks s c x
  (r.1, lowest ((if copyOverlaps o x then [0x36] else []) ++ r.2.1), r.2.2)

/-- The header of an operand, where the command reads one (R198, R203). -/
def operandHeader (s : State) (c : Ctx) (o : Op) (t : Option Tensor) (applies : Tensor → Bool) :
    State × List Nat × Option ScaleHdr :=
  match t with
  | some u => if readsHeader o then checkHeader s c u (applies u) else (s, [], none)
  | none => (s, [], none)

/-- The command at position `p` of a queue, decoded for a tile (R80, R10). -/
def decodeCmd (s : State) (c : Ctx) (engine p a : Nat) : Decoded :=
  let f := s.cmdFetch c a 64
  let d := Desc.parse f.data
  let fl : InFlight := { desc := d, pos := BitVec.ofNat 16 p, tile := c.tile, startBeat := BitVec.ofNat 32 s.curBeat }
  if f.status ≠ 0 then { st := f.st, status := f.status, fl := fl }
  else match steps1to4 engine p a f.data with
    | (e, none) => { st := f.st, status := e, fl := fl }
    | (e, some o) =>
      if e ≠ 0 then { st := f.st, status := e, fl := fl }
      else
        let us := o.uses
        let r0 := fetchTensor f.st c us.1 d.src0.toNat
        let r1 := fetchTensor r0.1 c us.2.1 d.src1.toNat
        let rd := fetchTensor r1.1 c us.2.2 d.dst.toNat
        let v := steps5to9 rd.1 c o d (memCode r0.2.1 ++ memCode r1.2.1 ++ memCode rd.2.1) r0.2.2 r1.2.2 rd.2.2
        let x := v.2
        if v.1 ≠ 0 then { st := rd.1, status := v.1, fl := fl }
        else
          let h0 := operandHeader rd.1 c o x.src0 (fun t => appliesSrcScale o && useScaleOk o x 0 t)
          let h1 := operandHeader h0.1 c o x.src1 (fun t => appliesSrcScale o && useScaleOk o x 1 t)
          let hd := operandHeader h1.1 c o x.dst (fun t => appliesDstScale o t && useScaleOk o x 2 t)
          let codes := (if refsOk s c o d then [] else [0x1B]) ++ (if scaleOk o x then [] else [0x2D]) ++ h0.2.1 ++
            h1.2.1 ++ hd.2.1
          if lowest codes ≠ 0 then { st := hd.1, status := lowest codes, fl := fl }
          else
            let st := startChecks hd.1 c o x
            { st := st.1, status := st.2.1,
              fl := { fl with src0 := x.src0, src1 := x.src1, dst := x.dst, hdr0 := h0.2.2, hdr1 := h1.2.2,
                              hdrD := hd.2.2, rngSeed := (s.region c.region).seed, samples := st.2.2 } }

end Sys2Proof.Machine
end

