-- ==== Sys2Proof/Machine/Exec.lean ====
section
/-! DEFINITION. How a command of an engine runs: its reads in their order with the tags and scales they bring (R113,
R199 to R202, R215, R218, R227), its writes with the trailers of scaled tensors (R126, R203), what a failure leaves
written (R85, R159, R512), and its statistics (R207, R208). Operands are the values that stood in memory before the
command's first write (DEDUCED, assumption 10). -/

namespace Sys2Proof.Machine

/-- The coordinates of a storage index: i3, i2, i1, i0; i0 at or above DIM0 is a padding lane (R74, R75). -/
def Tensor.coords (t : Tensor) (idx : Nat) : Nat × Nat × Nat × Nat :=
  if t.layout = 0 then
    let g := idx / 32
    let nc := ceilDiv t.d0 32
    let r := g / nc
    (r / t.d1 / t.d2, r / t.d1 % t.d2, r % t.d1, g % nc * 32 + idx % 32)
  else if t.layout = 1 then (0, 0, idx / 32 % t.d1, idx / 32 / t.d1 * 32 + idx % 32)
  else (idx / t.d0 / t.d1 / t.d2, idx / t.d0 / t.d1 % t.d2, idx / t.d0 % t.d1, idx % t.d0)

/-- Whether a storage index is an element and no padding lane. -/
def Tensor.isElem (t : Tensor) (idx : Nat) : Bool := decide ((t.coords idx).2.2.2 < t.d0)

/-- Padding lanes that follow element `idx` and have no element after them in their group of 32 (R75). -/
def Tensor.padAfter (t : Tensor) (idx : Nat) : Nat :=
  if t.layout = 2 then 0 else if (t.coords idx).2.2.2 + 1 = t.d0 then 31 - idx % 32 else 0

/-- Storage indices of the elements, ascending. -/
def Tensor.elemIdx (t : Tensor) : List Nat := (List.range t.storedElems).filter t.isElem

/-- Storage indices that begin in stream block `j` (R195). -/
def Tensor.blockIdx (t : Tensor) (j : Nat) : List Nat :=
  let per := 4096 * 8 / t.fmt.bits
  ((List.range per).map (· + j * per)).filter (fun i => decide (i < t.storedElems) && t.isElem i)

/-- The element of a tensor at the same coordinates as element `idx` of another. -/
def Tensor.same (t : Tensor) (c : Nat × Nat × Nat × Nat) : Nat := t.index c.1 c.2.1 c.2.2.1 c.2.2.2

/-- The stream blocks that hold bytes of elements `lo` to `lo + n - 1`. -/
def Tensor.blocksOf (t : Tensor) (lo n : Nat) : List Nat :=
  let first := t.byteOff lo / 4096
  let last := (t.byteOff (lo + n - 1) + t.elemBytes - 1) / 4096
  (List.range (last - first + 1)).map (· + first)

/-- The scales that govern stream block `j`, ascending (R192, R195). -/
def Tensor.blockScales (t : Tensor) (j : Nat) : List Nat :=
  ((t.blockIdx j).map (fun i => let c := t.coords i; t.scaleIndex c.2.2.1 c.2.2.2 i)).eraseDups.mergeSort

/-! ### Reads -/

/-- One step of a command's plan of reads and writes. -/
inductive PlanStep where
  /-- read elements `lo` to `lo + n - 1` of SRC0 (0), SRC1 (1) or DST (2), as values -/
  | elems (opnd lo n : Nat)
  /-- read bytes that are no elements, or elements moved as bytes -/
  | raw (a n : Nat)
  /-- read scales again, with the guard of R184 -/
  | scales (opnd : Nat) (idx : List Nat)
  /-- a further read of a unit counts again from here -/
  | fresh
  /-- the reads from here on belong to pass `k` over the operands, which reads a unit once (R227) -/
  | pass (k : Nat)
  /-- the next write is ready -/
  | row
deriving DecidableEq, Repr

/-- A run of a command: the state after its reads so far, the status of the first failure, the elements it reads (operand,
first, number), the blocks checked, the pass over the operands, the units read with their pass, and the number of writes made
ready. -/
structure Run where
  st : State
  status : Nat := 0
  used : List (Nat × Nat × Nat) := []
  checked : List (Nat × Nat) := []
  pass : Nat := 0
  units : List (Nat × Nat) := []
  rows : Nat := 0

/-- Reads the ECC units of a range that the run has not read yet in its pass; 0x38 where the carve-out is closed (R131). -/
def Run.readUnits : List (Nat × Nat) → Run → Run
  | [], r => r
  | (u, z) :: t, r =>
    if r.status ≠ 0 then r
    else if r.units.contains (r.pass, u) then Run.readUnits t r
    else
      let f := r.st.fetchPart (!(r.units.any fun x => x.1 == r.pass && x.2 / 64 == u / 64)) u z
      Run.readUnits t { r with st := f.st, status := f.status, units := (r.pass, u) :: r.units }

/-- Reads a range of bytes for a command. -/
def Run.read (c : Ctx) (a n : Nat) (r : Run) : Run :=
  if r.status ≠ 0 ∨ n = 0 then r
  else if r.st.carveClosed (some c.region) a n then { r with status := 0x38 }
  else Run.readUnits (r.st.units a n) r

/-- Reads scales of a header and applies the guard (R184, R200). -/
def Run.readScales (c : Ctx) (h : ScaleHdr) : List Nat → Run → Run
  | [], r => r
  | i :: t, r =>
    let r1 := r.read c (h.scales + 4 * i) 4
    if r1.status ≠ 0 then r1
    else if scaleLegal (leNat (r1.st.peek (h.scales + 4 * i) 4)) then Run.readScales c h t r1
    else { r1 with status := 0x24 }

/-- The registers and the event of a block-tag mismatch (R202). -/
def State.tagMismatch (s : State) (c : Ctx) (fl : InFlight) (opnd j dtag stag : Nat) : State :=
  (s.updTile c.tile (fun x => { x with
    tagErr := BitVec.ofNat 32 (atBit true 31 + opnd * 2 ^ 30 + dtag * 2 ^ 8 + stag)
    tagCmd := BitVec.ofNat 32 (fl.desc.seq.toNat * 2 ^ 16 + c.q)
    tagBlk := BitVec.ofNat 32 j })).raiseDie (dieOfTile c.tile) 17 c.tile 0x2C

/-- A scale of stream block `j` governs an element that the command reads (R200). -/
def Run.governs (r : Run) (opnd : Nat) (t : Tensor) (j k : Nat) : Bool :=
  r.used.any fun u => u.1 == opnd && (List.range u.2.2).any fun n =>
    let i := u.2.1 + n
    let c := t.coords i
    t.byteOff i / 4096 == j && t.scaleIndex c.2.2.1 c.2.2.2 i == k

/-- The tags of stream block `j` of a consumed operand and the scales that govern elements read of it, read once before the
block's first use (R200, R201). -/
def Run.consume (c : Ctx) (fl : InFlight) (opnd : Nat) (t : Tensor) (h : ScaleHdr) (j : Nat) (r : Run) : Run :=
  if r.status ≠ 0 ∨ r.checked.contains (opnd, j) then r
  else
    let r1 := (r.read c (t.base + t.trailerOff + j) 1).read c (h.stags + j) 1
    if r1.status ≠ 0 then r1
    else
      let dtag := leNat (r1.st.peek (t.base + t.trailerOff + j) 1)
      let stag := leNat (r1.st.peek (h.stags + j) 1)
      if dtag ≠ stag ∨ 64 ≤ dtag ∨ 64 ≤ stag then
        { r1 with st := r1.st.tagMismatch c fl opnd j dtag stag, status := 0x2C }
      else { Run.readScales c h ((t.blockScales j).filter (r1.governs opnd t j)) r1 with checked := (opnd, j) :: r1.checked }

/-- Operand tensor and header by number: 0 SRC0, 1 SRC1, 2 DST. -/
def InFlight.opnd (f : InFlight) (n : Nat) : Option Tensor × Option ScaleHdr :=
  if n = 0 then (f.src0, f.hdr0) else if n = 1 then (f.src1, f.hdr1) else (f.dst, f.hdrD)

/-- Reads elements of an operand: tags and scales of their blocks first where the opcode consumes the operand, then the
data; an XA96 element that is not canonical fails with 0x20 (R174). -/
def Run.elems (c : Ctx) (fl : InFlight) (consumes : Bool) (opnd lo n : Nat) (r : Run) : Run :=
  match fl.opnd opnd with
  | (none, _) => r
  | (some t, h) =>
    let r1 := match consumes && decide (opnd < 2) && decide (t.scale ≠ 0), h with
      | true, some hd => (t.blocksOf lo n).foldl (fun (acc : Run) j => acc.consume c fl opnd t hd j) r
      | _, _ => r
    let a := t.base + t.byteOff lo
    let len := t.byteOff (lo + n - 1) + t.elemBytes - t.byteOff lo
    let r2 := r1.read c a len
    if r2.status = 0 ∧ t.fmt = .xa96 ∧ !((chunks 16 (r2.st.peek a len)).all xaCanonical) then { r2 with status := 0x20 }
    else r2

/-- One step of the plan. -/
def Run.step (c : Ctx) (fl : InFlight) (consumes : Bool) (r : Run) : PlanStep → Run
  | .elems o lo n => if r.status ≠ 0 then r else r.elems c fl consumes o lo n
  | .raw a n => r.read c a n
  | .scales o idx =>
    if r.status ≠ 0 then r
    else match (fl.opnd o).2 with
      | some h => Run.readScales c h idx r
      | none => r
  | .fresh => { r with units := [] }
  | .pass k => { r with pass := k }
  | .row => if r.status ≠ 0 then r else { r with rows := r.rows + 1 }

/-- Runs a plan. -/
def Run.plan (c : Ctx) (fl : InFlight) (consumes : Bool) (p : List PlanStep) (r : Run) : Run :=
  p.foldl (fun acc x => acc.step c fl consumes x) r

/-! ### Writes -/

/-- One write of a command: the storage index in DST of its first element, and the codes of consecutive elements. -/
abbrev Row := Nat × List Nat

/-- The writes of a whole DST, element by element in storage order, each with the zero padding lanes that follow it
(R75). -/
def elementRows (t : Tensor) (code : Nat → Nat) : List Row :=
  t.elemIdx.map fun i => (i, code i :: List.replicate (t.padAfter i) 0)

/-- The bytes of a write and their address: at a half-written byte the other nibble keeps what it holds (R75). -/
def State.rowBytes (s : State) (t : Tensor) (r : Row) : Nat × List Byte :=
  if t.fmt.bits = 4 then
    let other := fun (i : Nat) => s.code t i
    let pre := if r.1 % 2 = 1 then [other (r.1 - 1)] else []
    let stop := r.1 + r.2.length
    let post := if stop % 2 = 1 then [other stop] else []
    (t.base + t.byteOff r.1, packCodes t.fmt (pre ++ r.2 ++ post))
  else (t.base + t.byteOff r.1, packCodes t.fmt r.2)

/-- Writes joined where they follow one another within a stream block of DST, with the number of writes joined, so that
whole ECC units are written as such (R126). -/
def mergeRows (t : Tensor) : List Row → List (Row × Nat)
  | [] => []
  | r :: rest =>
    match mergeRows t rest with
    | [] => [(r, 1)]
    | (x, n) :: more =>
      if r.2 ≠ [] ∧ r.1 + r.2.length = x.1 ∧ t.byteOff r.1 / 4096 = t.byteOff x.1 / 4096 then
        ((r.1, r.2 ++ x.2), n + 1) :: more
      else (r, 1) :: (x, n) :: more

/-- Performs joined writes in order; the first that fails gives the status and ends them (R85, R126). Counts the writes
performed. -/
def State.storeMerged (t : Tensor) : List (Row × Nat) → State → Nat → State × Nat × Nat
  | [], s, n => (s, 0, n)
  | r :: rest, s, n =>
    let b := s.rowBytes t r.1
    let w := s.store b.1 b.2
    if w.2 ≠ 0 then (w.1, w.2, n) else State.storeMerged t rest w.1 (n + r.2)

/-- Performs writes in order. -/
def State.storeRows (t : Tensor) (rows : List Row) (s : State) : State × Nat × Nat :=
  State.storeMerged t (mergeRows t rows) s 0

/-- The contents of memory as they stood in another state: what a group of writes that must not stay has written is
undone. -/
def State.undoWrites (s before : State) : State :=
  { s with mem := before.mem, flips := before.flips, peatDirty := before.peatDirty, dramDirty := before.dramDirty }

/-- Cuts rows into groups of the given sizes; what is left over is one more group. -/
def splitRows : List Nat → List Row → List (List Row)
  | [], rows => if rows = [] then [] else [rows]
  | n :: rest, rows => rows.take n :: splitRows rest (rows.drop n)

/-- Performs groups of writes in order. The group in which a write fails is the last; of a CVT it leaves nothing written
(`exact`, R512). Counts the writes performed. -/
def State.storeGroups (exact : Bool) (t : Tensor) : List (List Row) → State → Nat → State × Nat × Nat
  | [], s, n => (s, 0, n)
  | g :: rest, s, n =>
    let w := State.storeRows t g s
    if w.2.1 = 0 then State.storeGroups exact t rest w.1 (n + w.2.2)
    else if exact then (w.1.undoWrites s, w.2.1, n)
    else (w.1, w.2.1, n + w.2.2)

/-- Stream blocks that a write touches. -/
def Tensor.rowBlocks (t : Tensor) (r : Row) : List Nat := if r.2 = [] then [] else t.blocksOf r.1 r.2.length

/-- The blocks whose trailer bytes are written when the first `n` of all writes have been performed: those a write
touches and no missing write touches (R203). -/
def Tensor.doneBlocks (t : Tensor) (rows : List Row) (n : Nat) : List Nat :=
  let missing := ((rows.drop n).flatMap t.rowBlocks).eraseDups
  (((rows.take n).flatMap t.rowBlocks).eraseDups.filter (fun j => !missing.contains j)).mergeSort

/-- The zero bytes that follow the last tag byte of a trailer up to the next multiple of 64 (R196); the writer of that tag
byte writes them with it. -/
def Tensor.trailerEnd (t : Tensor) (j : Nat) : List Byte :=
  if j + 1 = t.nblk then zeros (ceilDiv t.nblk 64 * 64 - t.nblk) else []

/-- Writes the trailer bytes of blocks, each equal to the byte of the scale-tag array (R196, R203). -/
def State.storeTrailer (c : Ctx) (t : Tensor) (h : ScaleHdr) : List Nat → State → State × Nat
  | [], s => (s, 0)
  | j :: rest, s =>
    let f := s.cmdFetch c (h.stags + j) 1
    if f.status ≠ 0 then (f.st, f.status)
    else
      let w := f.st.store (t.base + t.trailerOff + j) (f.data.take 1 ++ t.trailerEnd j)
      if w.2 ≠ 0 then w else State.storeTrailer c t h rest w.1

/-- What the pure part of a command gives: its writes in order, their numbers by source block where a failure leaves whole
blocks written (R512), the outputs that count, and its flags (R168, R183). -/
structure Effect where
  rows : List Row := []
  groups : List Nat := []
  outs : List Rounded := []
  xaSat : Bool := false
  trunc : Bool := false
  nanIn : Bool := false
  infIn : Bool := false
  skipped : Bool := false

/-- Saturated outputs exceed SAT_THRESH (R70). -/
def Effect.sat (e : Effect) (d : Desc) : Bool :=
  decide (d.satThresh.toNat * e.outs.length < (e.outs.filter (·.sat)).length * 65536)

/-- The three lines of a statistics record (R207). -/
def statsBytes (e : Effect) (t : Tensor) (c : Ctx) (fl : InFlight) : List Byte :=
  let good := e.outs.filter (fun o => !o.sat && !o.nonfinite)
  let esum := good.foldl (fun a o => a + o.err) 0
  let sq := good.foldl (fun a o => a + (o.err * o.err).toNat) 0
  let shift := t.fmt.bits - 4
  let bin := fun (b : Nat) => leBytes 4 (min 0xFFFFFFFF ((e.outs.filter (fun o => o.code / 2 ^ shift % 16 == b)).length))
  let qs := leBytes 2 c.q ++ leBytes 2 fl.desc.seq.toNat
  leBytes 8 e.outs.length ++ leBytes 8 (e.outs.filter (·.sat)).length ++ leBytes 8 (e.outs.filter (·.nonfinite)).length ++
    leBytes 8 (ofSigned 64 esum) ++ leBytes 16 sq ++ qs ++ leBytes 1 t.fmt.code ++
    leBytes 1 (atBit (decide (fl.desc.round = 1)) 0 + atBit (e.sat fl.desc) 1) ++ leBytes 2 c.tile ++
    leBytes 4 fl.startBeat.toNat ++ zeros 4 ++
    (List.range 8).flatMap bin ++ zeros 16 ++ qs ++ zeros 12 ++
    (List.range 8).flatMap (fun b => bin (b + 8)) ++ zeros 16 ++ qs ++ zeros 12

/-- The number of writes performed before a failure that made `n` of them ready: a CVT has performed every one of them
(R512), another command a number that the manual leaves to the timing (R85, R159): a free value. -/
def freePrefix (exact : Bool) (s : State) (n : Nat) : Nat × State :=
  if exact then (n, s)
  else
    let d := s.draw
    (Config.freeNat d.1 % (n + 1), d.2)

/-- How an execution ended: the state, the status, the writes performed and the writes that had been ready. -/
structure Ended where
  st : State
  status : Nat
  performed : Nat
  ready : Nat

/-- The writes of a command, trailers and statistics included, after its reads have ended (R83, R85, R203, R207). `verdict`
is a last check of what has been written, before the statistics (R371). -/
def Run.finish (c : Ctx) (fl : InFlight) (rounds exact : Bool) (verdict : State → Nat) (e : Effect) (r : Run) : Ended :=
  match fl.dst with
  | none => { st := r.st, status := r.status, performed := 0, ready := r.rows }
  | some t =>
    let p := if r.status = 0 then (e.rows.length, r.st) else freePrefix exact r.st (min r.rows e.rows.length)
    let closed := decide (0 < p.1) && p.2.carveClosed (some c.region) t.base t.extent
    let w := if closed then (p.2, 0x38, 0)
      else State.storeGroups exact t (splitRows e.groups (e.rows.take p.1)) p.2 0
    let status := if r.status ≠ 0 then r.status else w.2.1
    let tr := match fl.hdrD with
      | some h => State.storeTrailer c t h (t.doneBlocks e.rows w.2.2) w.1
      | none => (w.1, 0)
    let status1 := if status ≠ 0 then status else tr.2
    let status2 := if status1 ≠ 0 then status1 else verdict tr.1
    match fl.hdrD with
    | some h =>
      if status2 = 0 ∧ rounds ∧ h.stats ∧ t.fmt ≠ .xa96 then
        let st := tr.1.store h.statsAddr (statsBytes e t c fl)
        { st := st.1, status := st.2, performed := w.2.2, ready := r.rows }
      else { st := tr.1, status := status2, performed := w.2.2, ready := r.rows }
    | none => { st := tr.1, status := status2, performed := w.2.2, ready := r.rows }

/-! ### The command that an engine runs -/

/-- The oldest command in flight that has not run. -/
def QueueSt.current (x : QueueSt) : Option InFlight := x.inflight.find? (fun f => !f.executed)

/-- Puts back the oldest command in flight that has not run. -/
def setCurrent (f : InFlight) : List InFlight → List InFlight
  | [] => []
  | a :: t => if a.executed then a :: setCurrent f t else f :: t

/-- Stores what the current command of queue `q` has become. -/
def State.setCurrent (s : State) (q : Nat) (f : InFlight) : State :=
  s.updQueue q (fun x => { x with inflight := Machine.setCurrent f x.inflight })

/-- The context of a command in flight (R81, R103). -/
def State.ctxOf (s : State) (q : Nat) (f : InFlight) : Ctx :=
  { q := q, tile := f.tile, bal := ((s.alloc q).map (·.balGroup)).getD 0 }

/-- A parity error in the engine's Kindling (R109): counted, raised, and the command fails with 0x34. -/
def State.kindlingFail (s : State) (tile engine : Nat) : State :=
  (s.updTile tile (fun x => { x with kindBad := x.kindBad.erase engine, ueCount := satInc x.ueCount, memLast := 0x34 })).raiseDie
    (dieOfTile tile) 55 tile 0x34

/-- A write that an earlier command of queue `q` has sent to memory of tile `tile` is still to be performed: a message in the
DE of the tile, or an update of the staging record in the commit tile. A command of the queue waits for it (R84). -/
def State.writesPending (s : State) (q tile : Nat) : Bool :=
  (s.tile tile).msgs.any (fun m => match m.sender with | some x => x.1 == q | none => false) ||
    (tile == s.commitTile && s.beat.staging.updates.any (fun u => u.sender.1 == q))

/-- The engine of a command in flight. -/
def InFlight.engine (f : InFlight) : Option Nat := (Op.ofCode f.desc.opcode.toNat).map Op.engine

/-- Commands of the ME of a tile that have still to run. -/
def State.meWaiting (s : State) (tile : Nat) : List InFlight :=
  s.queues.flatMap fun e => e.2.inflight.filter fun f => f.tile == tile && f.engine == some 0 && !f.executed

/-- The ME runs its commands in the order in which it accepted them (R156). -/
def State.meTurn (s : State) (tile : Nat) (f : InFlight) : Bool :=
  f.engine != some 0 || (s.meWaiting tile).all fun g => decide (f.order ≤ g.order)

/-- Runs the current command of a queue when it is of opcode `o`: `body` gives the state it leaves and the command as it
stands at the end of its execution; in all other cases nothing happens (DESIGN CHOICE, assumption 3). A command that a Kindling parity error fails has
made no writes (R109; DESIGN CHOICE, assumption 149). -/
def State.runOp (s : State) (q : Nat) (o : Op) (body : Ctx → InFlight → State → State × InFlight) : State :=
  match (s.queue q).current with
  | none => s
  | some f =>
    if Op.ofCode f.desc.opcode.toNat ≠ some o ∨ s.writesPending q f.tile ∨ !(s.meTurn f.tile f) then s
    else
      let c := s.ctxOf q f
      if (s.tile c.tile).kindBad.contains o.engine then
        (s.kindlingFail c.tile o.engine).setCurrent q { f with executed := true, status := 0x34 }
      else
        let r := body c f s
        r.1.setCurrent q { r.2 with executed := true }

/-- The elements that a plan reads: operand, first and number. -/
def planElems (p : List PlanStep) : List (Nat × Nat × Nat) :=
  (p.filterMap fun x => match x with | .elems o lo n => some (o, lo, n) | _ => none).eraseDups

/-- A command as its execution ends with a status: the flags that it gathered over its outputs (R78, R168, R183). After a failure the
manual does not say which outputs count, so that a flag which some output raises is a free value (DESIGN CHOICE, assumption 167). -/
def InFlight.ends (f : InFlight) (e : Effect) (status free : Nat) : InFlight :=
  let may := fun (i : Nat) (b : Bool) => b && (status == 0 || bit free i)
  { f with status := BitVec.ofNat 8 status, sat := if status = 0 then e.sat f.desc else may 0 (e.outs.any (·.sat)), xaSat := may 1 e.xaSat
           trunc := may 2 e.trunc, nanIn := may 3 e.nanIn, infIn := may 4 e.infIn, skipped := may 5 e.skipped }

/-- A command whose effect is a plan of reads and writes to DST (R82 to R85, R203, R207). `consumes`: the opcode reads
tags and scales of its operands (R201); `rounds`: it may write statistics; `exact`: R512; `verdict`: R371. -/
def runEffect (consumes rounds exact : Bool) (verdict : State → Nat) (plan : List PlanStep) (e : Effect) (c : Ctx) (f : InFlight)
    (s : State) : Ended × InFlight :=
  let r := Run.plan c f consumes plan { st := s, used := if consumes then planElems plan else [] }
  let d := r.finish c f rounds exact verdict e
  if d.status = 0 then (d, f.ends e 0 0)
  else
    let w := d.st.draw
    ({ d with st := w.2 }, f.ends e d.status (Config.freeNat w.1))

/-- The random word of an output element with stochastic rounding, none without (R186, R187). -/
def InFlight.word (f : InFlight) (t : Tensor) (c : Nat × Nat × Nat × Nat) : Option Nat :=
  if f.desc.round = 1 then
    some (randomWord f.rngSeed.toNat f.desc.opId.toNat 0 (f.samples.getD c.1 0)
      ((c.2.1 * t.d1 + c.2.2.1) * t.d0 + c.2.2.2))
  else none

end Sys2Proof.Machine
end

