-- ==== Sys2Proof/Machine/Sha3.lean ====
section
/-! DEFINITION. SHA3-512 (FIPS 202, which R36, R451 and R452 name): Keccak-f[1600] over 25 lanes of 64 bits; and the device
identity that R451 derives with it. -/

namespace Sys2Proof.Machine

/-- Rotation of a 64-bit lane. -/
def rotl64 (x k : Nat) : Nat := (x * 2 ^ (k % 64) + x / 2 ^ (64 - k % 64)) % 2 ^ 64

/-- The offset of rho for a lane (FIPS 202, 3.2.2): the walk from (1, 0) by (x, y) to (y, 2x + 3y) meets each lane but lane 0
once, and the lane of step `t` turns by the triangular number of `t + 1`. -/
def rhoWalk (lane : Nat) : Nat → Nat → Nat → Nat → Nat
  | 0, _, _, _ => 0
  | left + 1, t, x, y => if 5 * y + x = lane then (t + 1) * (t + 2) / 2 % 64 else rhoWalk lane left (t + 1) y ((2 * x + 3 * y) % 5)

def rhoOffsets : List Nat := (List.range 25).map fun lane => rhoWalk lane 24 0 1 0

/-- The bits of the shift register of iota (FIPS 202, 3.2.5, algorithm 5), from state `r`. -/
def iotaBits : Nat → Nat → List Nat
  | 0, _ => []
  | n + 1, r => r % 2 :: iotaBits n (if r < 128 then 2 * r else (2 * r) ^^^ 0x171)

/-- The constants of iota: seven bits of the register to a round, bit `j` at place 2^j - 1. -/
def iotaConsts : List Nat := (chunks 7 (iotaBits 168 1)).map fun w => (w.zipIdx.map fun b => b.1 * 2 ^ (2 ^ b.2 - 1)).sum

/-- The parity of each column (theta). -/
def columnParity (a : List Nat) : List Nat := (List.range 5).map fun x => (List.range 5).foldl (fun p y => p ^^^ a.getD (x + 5 * y) 0) 0

/-- Theta, rho and pi: lane (y, 2x + 3y) of the result is lane (x, y), with its columns' parities and turned by its offset. -/
def thetaRhoPi (a : List Nat) : List Nat :=
  let p := columnParity a
  let mixed := (List.range 25).map fun i => a.getD i 0 ^^^ p.getD ((i + 4) % 5) 0 ^^^ rotl64 (p.getD ((i + 1) % 5) 0) 1
  (List.range 25).map fun i =>
    -- lane (X, Y) of the result: y = X, and 2x = Y - 3X, whose half modulo 5 is 3 (Y + 2X)
    let lane := 5 * (i % 5) + (i / 5 + 2 * (i % 5)) * 3 % 5
    rotl64 (mixed.getD lane 0) (rhoOffsets.getD lane 0)

/-- Chi on one row of five lanes. -/
def chiRow (r : List Nat) : List Nat :=
  (List.range 5).map fun x => r.getD x 0 ^^^ (((2 ^ 64 - 1) ^^^ r.getD ((x + 1) % 5) 0) &&& r.getD ((x + 2) % 5) 0)

/-- One round: theta to chi, then iota on lane 0. -/
def keccakRound (a : List Nat) (rc : Nat) : List Nat :=
  match (chunks 5 (thetaRhoPi a)).flatMap chiRow with
  | [] => []
  | l :: t => (l ^^^ rc) :: t

/-- The permutation. -/
def keccakF (a : List Nat) : List Nat := iotaConsts.foldl keccakRound a

/-- Absorbs one block of 72 bytes (rate of SHA3-512). -/
def keccakAbsorb (a : List Nat) (block : List Byte) : List Nat :=
  keccakF (a.zipIdx.map fun x => if x.2 < 9 then x.1 ^^^ leAt block (8 * x.2) 8 else x.1)

/-- SHA3-512 of a byte sequence. -/
def sha3 (m : List Byte) : List Byte :=
  let padLen := 72 - m.length % 72
  let pad : List Byte := if padLen = 1 then [0x86] else 0x06 :: zeros (padLen - 2) ++ [0x80]
  let a := (chunks 72 (m ++ pad)).foldl keccakAbsorb (List.replicate 25 0)
  (a.take 8).flatMap (leBytes 8)

/-! ### The device identity (R451) -/

/-- The ASCII bytes "QDC-IDENTITY-1". -/
def identityLabel : List Byte := ("QDC-IDENTITY-1".toList.map fun c => BitVec.ofNat 8 c.toNat)

/-- The seed of the identity key pair: the first 32 bytes of SHA3-512 of DEV_SECRET and the label. -/
def identitySeed : List Byte := (sha3 ((List.range 32).map Config.devSecret ++ identityLabel)).take 32

/-- The identity public key. -/
def identityPub : List Byte := (Config.mldsaKeygen identitySeed).1

/-- The identity signature of a message. -/
def identitySign (message : List Byte) : List Byte := Config.mldsaSign (Config.mldsaKeygen identitySeed).2 message

/-- DEVICE_ID. -/
def deviceId : List Byte := sha3 identityPub

end Sys2Proof.Machine
end

