-- ==== Sys2Proof/Machine/Units.lean ====
section
/-! DEFINITION. What the states of slots, clusters, regions and dies let happen (R404, R409, R410, R417, R418). -/

namespace Sys2Proof.Machine

/-- The logical tile that a physical tile serves; none for a spare (R29, DIE_SLOT_STATE.LTILE). -/
def State.tileOfSlot (s : State) (p : Nat) : Option Nat :=
  ((List.range 4).map (· + p / 5 * 4)).find? (fun t => s.slotOfTile t == p)

/-- The units that a cluster stands in, itself included. -/
def State.clusterStates (s : State) (c : Nat) : List UnitSt := [(s.die (c / 4)).u, s.rgnUnit (c / 2), s.cluUnit c]

/-- The units that a tile stands in, its slot included. -/
def State.tileStates (s : State) (t : Nat) : List UnitSt :=
  s.clusterStates (clusterOfTile t) ++ [(s.slot (s.slotOfTile t)).u]

/-- The tile is IN_SERVICE with everything around it. -/
def State.tileInService (s : State) (t : Nat) : Bool := (s.tileStates t).all (fun u => u.state == .inService)

/-- Not fenced for messages and signals (R410): a FENCING unit drains, and a TESTING unit runs its restore (DEDUCED,
assumption 16). -/
def UnitSt.reachable (u : UnitSt) : Bool := u.state == .inService || u.state == .fencing || u.state == .testing

/-- Takes doorbells and register accesses (R409 step 2): in service, or TESTING. -/
def UnitSt.isOpen (u : UnitSt) : Bool := u.state == .inService || u.state == .testing
def State.tileOpen (s : State) (t : Nat) : Bool := (s.tileStates t).all UnitSt.isOpen
def State.clusterOpen (s : State) (c : Nat) : Bool := (s.clusterStates c).all UnitSt.isOpen
def State.regionOpen (s : State) (g : Nat) : Bool := [(s.die (g / 2)).u, s.rgnUnit g].all UnitSt.isOpen
def State.dieOpen (s : State) (d : Nat) : Bool := (s.die d).u.isOpen
def State.tileReachable (s : State) (t : Nat) : Bool := (s.tileStates t).all UnitSt.reachable
def State.clusterReachable (s : State) (c : Nat) : Bool := (s.clusterStates c).all UnitSt.reachable

/-- A unit in whose restore the doorbell-only queues run (R404, R417). -/
def UnitSt.restoring (u : UnitSt) : Bool := u.state == .inService || (u.state == .testing && u.stage != .tests)

/-- Whether queue `q` of tile `t` may start commands: beat-released queues in service, doorbell-only queues also during
the restore (R404, R417). -/
def State.tileRuns (s : State) (t : Nat) (doorbellOnly : Bool) : Bool :=
  s.tileInService t || (doorbellOnly && (s.tileStates t).all UnitSt.restoring)

/-- Counts a request discarded at a fenced unit of die `d` (DIE_RECOV_STATUS.DROPS; R409, R410). -/
def State.dropAt (s : State) (d : Nat) : State := s.updDie d (fun x => { x with drops := satInc x.drops })

/-- A message or a signal from tile `t` is outstanding work of a unit that drains (R409 step 3): the tile is in a unit that is
FENCING. -/
def State.draining (s : State) (t : Nat) : Bool := (s.tileStates t).any (fun u => u.state == .fencing)

/-- Cluster `c` takes a signal (R404, R409, R410): it is open, or it is FENCING and the signal is outstanding. -/
def State.clusterTakes (s : State) (c : Nat) (outstanding : Bool) : Bool :=
  if outstanding then s.clusterReachable c else s.clusterOpen c

/-- A signal to a sync object of this chip: added in the next cycle of its directory (R86), or discarded at a fenced
cluster (R410). `outstanding`: it was under way when the fence began. -/
def State.signalLocal (s : State) (outstanding : Bool) (ref add : Nat) : State :=
  let c := refCluster ref
  if s.clusterTakes c outstanding then s.updCluster c (fun x => { x with signals := x.signals ++ [(refObject ref, BitVec.ofNat 32 add)] })
  else s.dropAt (c / 4)

/-- Sets a sync object of this chip in the next cycle of its directory (R86, R284), or drops the set at a fenced cluster. -/
def State.setObject (s : State) (ref value : Nat) : State :=
  let c := refCluster ref
  if s.clusterOpen c then s.updCluster c (fun x => { x with sets := x.sets ++ [(0, refObject ref, BitVec.ofNat 32 value)] })
  else s.dropAt (c / 4)

/-- How a message ended at its target. -/
inductive Arrival where
  | applied | discarded | dropped
  | failed (status : Nat)
deriving DecidableEq, Repr

/-- Writes runs of bytes from address `a` on; stops at the first unit whose read-modify-write fails. -/
def State.storeParts (a : Nat) : List (Nat × List Byte) → State → State × Nat
  | [], s => (s, 0)
  | p :: rest, s =>
    let w := s.store (a + p.1) p.2
    if w.2 ≠ 0 then w else State.storeParts a rest w.1

/-- A message at its target tile (R87, R88, R196, R410). -/
def State.deliver (s : State) (t : Nat) (m : Message) : State × Arrival :=
  if !(decide (t < s.part.tiles)) ∨ !(s.tileReachable t) then (s.dropAt (dieOfTile t), .discarded)
  else
    let w := SMap.get {} (s.tile t).windows m.window
    if !w.defined ∨ w.size < m.offset + m.extent then
      (s.updTile t (fun x => { x with msgdrop := satInc x.msgdrop }), .dropped)
    else
      let r := State.storeParts (t * tileSize + w.base + m.offset) m.parts s
      if r.2 ≠ 0 then (r.1, .failed r.2) else (r.1, .applied)

/-- Sets the status of a command in flight and ends its waits (R85, R483). -/
def State.failInFlight (s : State) (q pos status : Nat) : State :=
  s.updQueue q (fun x => { x with inflight := x.inflight.map (fun f =>
    if f.pos.toNat = pos then { f with status := BitVec.ofNat 8 status, executed := true, acksDue := 0, sigDone := true }
    else f) })

/-- The acknowledgement of a message that was dropped or discarded: its command retires, and no signal of it is applied (R88,
R410). -/
def State.ackDropped (s : State) (q pos : Nat) : State :=
  s.updQueue q (fun x => { x with inflight := x.inflight.map (fun f =>
    if f.pos.toNat = pos then { f with acksDue := f.acksDue - 1, sigDone := true } else f) })

/-- One acknowledgement for a command in flight (R87, R477). -/
def State.ackInFlight (s : State) (q pos : Nat) : State :=
  s.updQueue q (fun x => { x with inflight := x.inflight.map (fun f =>
    if f.pos.toNat = pos then { f with acksDue := f.acksDue - 1 } else f) })

end Sys2Proof.Machine
end

