-- ==== Sys2Proof/Machine/LatOps.lean ====
section
/-! DEFINITION. The Lattice ports as operations: packets, flits, credits, replay, routes and management messages
(18_host_and_lattice_links.md, R473 to R480, R483). -/

namespace Sys2Proof.Machine

/-! ### Packets and flits -/

/-- The 16-byte header and the data of a packet (R476). -/
def Packet.bytes (p : Packet) : List Byte :=
  leBytes 1 p.kind ++ leBytes 1 (p.cls % 4 + p.vl % 2 * 4) ++ leBytes 1 (p.dst % 16) ++ leBytes 1 (p.src % 16) ++
    leBytes 2 p.word4 ++ leBytes 2 p.data.length ++ leBytes 4 p.tag ++ leBytes 4 p.word12 ++ p.data

/-- A packet from the bytes of its flits; the length is taken from the header (R476). -/
def Packet.parse (b : List Byte) : Packet :=
  { kind := leAt b 0 1, cls := leAt b 1 1 % 4, vl := fld (leAt b 1 1) 2 2, dst := leAt b 2 1 % 16, src := leAt b 3 1 % 16,
    word4 := leAt b 4 2, tag := leAt b 8 4, word12 := leAt b 12 4, data := (b.drop 16).take (leAt b 6 2) }

/-- Flits of a packet with LENGTH data bytes (R473). -/
def flitsOf (length : Nat) : Nat := ceilDiv (16 + length) 240

/-- A flit (R473). -/
def flit (seq ack : Nat) (ackv nak idle : Bool) (vc cnt : Nat) (payload : List Byte) : List Byte :=
  let h := seq % 4096 + ack % 4096 * 2 ^ 12 + atBit ackv 24 + atBit nak 25 + atBit idle 26 + vc % 8 * 2 ^ 32 +
    cnt % 256 * 2 ^ 40
  let b := leBytes 8 h ++ slice payload 0 240
  b ++ leBytes 8 (crc 5 b)

/-- Flit credits of a class on a hop (R475). -/
def creditLimit (cls : Nat) : Nat := if cls = 0 then 2 else if cls = 1 then 64 else 192

/-- The first credit return owed: class and lane, and flits. -/
def PortSt.owed (p : PortSt) : Nat × Nat :=
  match p.crOwed with
  | [] => (0, 0)
  | e :: _ => (e.1, min 255 e.2)

/-- The port with the credits it has just returned taken off what it owes. -/
def PortSt.payOwed (p : PortSt) : PortSt :=
  let o := p.owed
  { p with crOwed := SMap.update 0 p.crOwed o.1 (· - o.2) }

/-- Sends one payload flit: a sequence number, a place in the replay buffer and a credit are taken (R473 to R475). -/
def PortSt.sendFlit (p : PortSt) (vc : Nat) (payload : List Byte) : PortSt :=
  let o := p.owed
  let f := flit p.txSeq.toNat (p.rxSeq.toNat + 4095) p.rxAny false false o.1 o.2 payload
  { p.payOwed with txSeq := p.txSeq + 1, replayBuf := p.replayBuf ++ [f], outbox := p.outbox ++ [f],
                   crUsed := SMap.update 0 p.crUsed vc (· + 1) }

/-- A flit of a class and lane may leave: it has a credit, and a place in the replay buffer. -/
def PortSt.mayFlit (p : PortSt) (vc : Nat) : Bool := decide (SMap.get 0 p.crUsed vc < creditLimit (vc / 2) ∧ p.replayBuf.length < 512)

/-- Sends the flits of the open packet that may leave; the rest stays. -/
def PortSt.sendOpen (vc : Nat) : List (List Byte) → PortSt → PortSt
  | [], p => { p with txOpen := none }
  | b :: rest, p => if p.mayFlit vc then PortSt.sendOpen vc rest (p.sendFlit vc b) else { p with txOpen := some (vc, b :: rest) }

/-- The packet that is sent next: the oldest of the first class and lane, in the drain order management, responses, requests, that may
send a flit (R429, R475). -/
def PortSt.nextPacket (p : PortSt) : Option (Nat × List (List Byte)) :=
  (List.range 6).findSome? fun vc => if p.mayFlit vc then p.txWait.find? (fun k => k.1 == vc) else none

/-- Sends what may leave. The flits of a packet follow one another, since a flit does not name its packet: no other packet begins
before the last of them has left (R473; DEDUCED, assumption 156). -/
def PortSt.pumpPackets : Nat → PortSt → PortSt
  | 0, p => p
  | n + 1, p => match p.txOpen with
    | some (vc, fs) =>
      let q := PortSt.sendOpen vc fs p
      if q.txOpen.isSome then q else PortSt.pumpPackets n q
    | none => match p.nextPacket with
      | some k => PortSt.pumpPackets n { p with txOpen := some k, txWait := p.txWait.erase k }
      | none => p

def PortSt.pump (p : PortSt) : PortSt := p.pumpPackets (2 * p.txWait.length + 2)

/-- A flit with no payload, which carries an acknowledgement or a NAK and returns credits; it takes no sequence number
(DEDUCED, assumption 17). -/
def PortSt.sendIdle (p : PortSt) (nak : Bool) : PortSt :=
  let o := p.owed
  { p.payOwed with
    outbox := p.outbox ++ [flit p.txSeq.toNat (p.rxSeq.toNat + 4095) p.rxAny nak true o.1 o.2 []] }

/-- Whether a port carries flits. -/
def PortSt.up (p : PortSt) : Bool := p.state == 2 || p.state == 3

/-- Nothing waits to be sent or acknowledged. -/
def PortSt.idle (p : PortSt) : Bool := p.replayBuf == [] && p.txWait == [] && p.txOpen.isNone

/-- Queues a packet at a port that is up (R473, R475). -/
def PortSt.queuePacket (p : PortSt) (k : Packet) : PortSt :=
  let vc := k.cls * 2 + k.vl
  ({ p with txWait := p.txWait ++ [(vc, (chunks 240 k.bytes).map (fun c => slice c 0 240))] }).pump

/-- Queues a packet at a port; one that ends an idle time starts the wait for an ACK or a credit (R474). -/
def State.queueAt (s : State) (p : Nat) (k : Packet) : State :=
  s.updPort p (fun x => { x with heardAt := if x.idle then s.mono else x.heardAt }.queuePacket k)

/-- TX_BUSY of UCI_MB_STATUS: a management flit still waits in some port (R480). -/
def State.mbBusy (s : State) : Bool :=
  (List.range 4).any fun d => (s.port d).txWait.any (fun w => w.1 < 2) || (s.port d).txOpen.any (fun w => w.1 < 2)

/-! ### Routes (R478, R479) -/

/-- Where a packet goes. -/
inductive Route where
  | here
  | port (p : Nat) (dl : Bool)
  | none
deriving DecidableEq, Repr

/-- The route for a chip from a source die (R478): PORT 4 is this chip, 0 to 3 a port, any other none. -/
def State.route (s : State) (die chip : Nat) : Route :=
  let f := fld (SMap.get 0x7777 s.lat.routes chip).toNat (4 * die + 3) (4 * die)
  if f % 8 = 4 then .here else if f % 8 < 4 then .port (f % 8) (bit f 3) else .none

/-- A data packet dropped for want of a route or a chip number: counted at the port, SEV-310 (R479). -/
def State.dropPacket (s : State) (die : Nat) : State :=
  (s.updPort die (fun p => { p with drops := satInc p.drops })).raise 310 die 0x95

/-- A request answered at the port because the port is down or a die is in reset (R483): SEV-309. -/
def State.lostRequest (s : State) (die : Nat) : State := s.raise 309 die 0x94

/-- Sends a data packet from a die; the status is 0, 0x95 (no route or number) or 0x94 (port down) (R478, R479, R483).
`req`: queue and position of the command whose request it is. -/
def State.sendData (s : State) (die : Nat) (k : Packet) (req : Option (Nat × Nat)) : State × Nat :=
  if !s.lat.numbered then (s.dropPacket die, 0x95)
  else match s.route die k.dst with
    | .none => (s.dropPacket die, 0x95)
    | .here => (s.dropPacket die, 0x95)
    | .port p dl =>
      if !(s.port p).up ∨ s.dieDown p then (s.lostRequest p, 0x94)
      else
        let k1 := { k with vl := if dl then 1 else k.vl }
        ((s.queueAt p k1).updPort p (fun x => match req with
          | some r => { x with outstanding := x.outstanding ++ [(k.tag, r.1, r.2)] }
          | none => x), 0)

/-- Sends a request with the next TAG. -/
def State.sendRequest (s : State) (die : Nat) (k : Packet) (q pos : Nat) : State × Nat :=
  let tag := s.lat.tag.toNat
  (s.updLat (fun l => { l with tag := l.tag + 1 })).sendData die { k with tag := tag, src := s.chip } (some (q, pos))

/-- A SIGNAL packet for a sync reference on another chip (R476, R477). -/
def signalPacket (ref add : Nat) : Packet :=
  { kind := 3, cls := 2, dst := refChip ref, word12 := ref, data := leBytes 4 add }

/-! ### Management messages (R480) -/

/-- A management message. -/
structure Mgmt where
  type : Nat := 0
  dst : Nat := 0
  src : Nat := 0
  hops : Nat := 0
  path : Nat := 0
  seq : Nat := 0
  body : List Byte := []
deriving DecidableEq, Repr

/-- The 64 bytes of a message: reserved bytes 6, 7, 60 and 61 are zero (R480). -/
def Mgmt.bytes (m : Mgmt) : List Byte :=
  let b := leBytes 1 m.type ++ leBytes 1 m.dst ++ leBytes 1 m.src ++ leBytes 1 m.hops ++ leBytes 2 m.path ++ zeros 2 ++
    leBytes 4 m.seq ++ slice m.body 0 48 ++ zeros 2
  b ++ leBytes 2 (crc16Fold m.seq b)

def Mgmt.parse (b : List Byte) : Mgmt :=
  { type := leAt b 0 1, dst := leAt b 1 1, src := leAt b 2 1, hops := leAt b 3 1, path := leAt b 4 2, seq := leAt b 8 4,
    body := slice b 12 48 }

/-- Whether 64 bytes are a well-formed message (R480). -/
def mgmtOk (b : List Byte) : Bool :=
  let m := Mgmt.parse b
  decide (b.length = 64) && [1, 2, 3, 4, 5, 6, 7, 8, 16].contains m.type && decide (m.dst < 16 ∨ m.dst = 0x80) &&
    decide (m.src < 16 ∨ m.src = 0xFF) && decide (m.hops ≤ 8) && (b.drop 6).take 2 == zeros 2 && (b.drop 60).take 2 == zeros 2 &&
    leAt b 62 2 == crc16Fold m.seq (b.take 62)

/-- A message enters the receive FIFO of the host mailbox with vector 6, or is dropped with SEV-311 (R463, R480). -/
def State.toMailbox (s : State) (b : List Byte) : State :=
  if s.link.mbRx.length < 64 then (s.updLink (fun l => { l with mbRx := l.mbRx ++ [b] })).msix 6
  else s.raise 311 0xFF 0x96

/-- A message packet. -/
def mgmtPacket (dst vl : Nat) (b : List Byte) : Packet := { kind := 5, cls := 0, vl := vl, dst := dst % 16, data := b }

/-- Sends a message through a port on a virtual lane; lost where the port is down. -/
def State.mgmtThrough (s : State) (p dst vl : Nat) (b : List Byte) : State :=
  if (s.port p).up && !(s.dieDown p) then s.queueAt p { mgmtPacket dst vl b with src := s.chip } else s

/-- One hop of a message by path: HOPS counts the hops left and PATH moves down by one port (DESIGN CHOICE, assumption
18). -/
def Mgmt.hop (m : Mgmt) : Nat × Mgmt := (m.path % 4, { m with hops := m.hops - 1, path := m.path / 4 })

/-- A message with its SEQ and this chip's number as SRC (R480). -/
def State.stampMgmt (s : State) (m : Mgmt) : State × Mgmt :=
  (s.updLat (fun l => { l with mgmtSeq := l.mgmtSeq + 1 }),
   { m with seq := s.lat.mgmtSeq.toNat, src := if s.lat.numbered then s.chip else 0xFF })

/-- Whether a message ends on this chip. -/
def State.mgmtHere (s : State) (m : Mgmt) : Bool :=
  if m.dst = 0x80 then m.hops == 0 else s.lat.numbered && m.dst == s.chip

/-- Sends a message that stands on lane `vl` on its way from a die: by path, or by the route table, whose DL moves it to VL1; nothing
where there is no way (R478, R480). -/
def State.mgmtOnward (s : State) (die vl : Nat) (m : Mgmt) : State :=
  if m.dst = 0x80 then
    if m.hops = 0 then s else let h := m.hop; s.mgmtThrough h.1 0 vl h.2.bytes
  else match s.route die m.dst with
    | .port p dl => s.mgmtThrough p m.dst (if dl then 1 else vl) m.bytes
    | _ => s

/-- HELLO at link-up (R472, R480): DEVICE_ID bytes 0 to 31, port and chip. -/
def State.sendHello (s : State) (p : Nat) : State :=
  let r := s.stampMgmt { type := 1, dst := 0x80, body := deviceId.take 32 ++ leBytes 1 p ++ leBytes 1 s.chip }
  r.1.mgmtThrough p 0 0 r.2.bytes

/-- LINK_DOWN toward FM_CHIP through the remaining ports (R480; DEDUCED, assumption 161: through each of them that is up). -/
def State.sendLinkDown (s : State) (p : Nat) : State :=
  let dst := s.lat.fmChip.toNat
  let r := s.stampMgmt { type := 7, dst := dst, body := leBytes 1 s.chip ++ leBytes 1 p }
  if s.mgmtHere r.2 then r.1.toMailbox r.2.bytes
  else ((List.range 4).filter (fun o => o != p)).foldl (fun acc o => acc.mgmtThrough o dst 0 r.2.bytes) r.1

/-- A message from a die: kept on this chip or sent on. -/
def State.sendMgmt (s : State) (die : Nat) (m : Mgmt) : State :=
  if s.mgmtHere m then s.toMailbox m.bytes else s.mgmtOnward die 0 m

/-- ACK of a message to its sender (R480). -/
def State.sendAck (s : State) (die dest status : Nat) : State :=
  let r := s.stampMgmt { type := 4, dst := if dest < 16 then dest else 0x80, body := leBytes 1 status }
  if dest < 16 then r.1.sendMgmt die r.2 else r.1.mgmtThrough die 0 0 r.2.bytes

/-! ### Answers to packets (R476, R477, R479, R483) -/

/-- The acknowledgement of a request: code 0 applied, 1 discarded, or the status that its requester receives. -/
def ackPacket (k : Packet) (code : Nat) : Packet :=
  { kind := if k.kind = 1 then 2 else 4, cls := 1, dst := k.src, src := k.dst, tag := k.tag, word12 := code }

/-- A packet is a request. -/
def Packet.isRequest (k : Packet) : Bool := k.kind == 1 || k.kind == 3

/-- Answers a request through the port on which it came; a response gets no answer. -/
def State.answerBack (s : State) (p : Nat) (k : Packet) (code : Nat) : State :=
  if k.isRequest ∧ (s.port p).up then s.queueAt p (ackPacket k code) else s

/-! ### A port that goes down (R474, R483) -/

/-- Answers every request outstanding through a port with 0x94 (R483). -/
def State.loseOutstanding (s : State) (p : Nat) : List (Nat × Nat × Nat) → State
  | [] => s
  | r :: rest => ((s.failInFlight r.2.1 r.2.2 0x94).lostRequest p).loseOutstanding p rest

/-- Answers the requests of other chips that had gone on through a port. -/
def State.loseTransit (s : State) (p : Nat) (l : List (Nat × Packet)) : State :=
  l.foldl (fun acc e => (acc.lostRequest p).answerBack e.1 e.2 0x94) s

/-- A port goes DOWN (R474, R483): SEV-307, its outstanding requests are answered, LINK_DOWN is sent. -/
def State.downPort (s : State) (p : Nat) : State :=
  let x := s.port p
  let s1 := s.updPort p (fun x => { x with
    state := 0, replayBuf := [], txWait := [], txOpen := none, partialRx := [], outstanding := [], transit := [], noProgress := 0
    crUsed := [], crOwed := [] })
  (((s1.raise 307 p 0).loseOutstanding p x.outstanding).loseTransit p x.transit).sendLinkDown p

/-- A retrain (R474): counted, SEV-306. -/
def State.retrainPort (s : State) (p : Nat) : State :=
  (s.updPort p (fun x => { x with retrains := satInc x.retrains, noProgress := 0 })).raise 306 p 0

/-- Replays every flit that is not acknowledged (R474); the third time without progress it retrains first. -/
def State.replayPort (s : State) (p : Nat) : State :=
  let s1 := s.updPort p (fun x => { x with replays := satInc x.replays, noProgress := x.noProgress + 1 })
  let s2 := if 3 ≤ (s1.port p).noProgress then s1.retrainPort p else s1
  s2.updPort p (fun x => { x with outbox := x.outbox ++ x.replayBuf })

end Sys2Proof.Machine
end

