-- ==== Sys2Proof/Machine/Data.lean ====
section
/-! DEFINITION. The data engine and the sync engine: COPY, FILL, SEND, MSGWIN, PUBLISH, SYNC, SETSYNC and RING (R76,
R86 to R88, R95, R132, R133, R203, R477), and doorbells (R69, R409). -/

namespace Sys2Proof.Machine

/-! ### COPY and FILL -/

/-- Writes the trailer bytes of blocks as the source carries them (R203). -/
def State.copyTrailer (c : Ctx) (a t : Tensor) : List Nat → State → State × Nat
  | [], s => (s, 0)
  | j :: rest, s =>
    if a.nblk ≤ j then (s, 0)
    else
      let f := s.cmdFetch c (a.base + a.trailerOff + j) 1
      if f.status ≠ 0 then (f.st, f.status)
      else
        let w := f.st.store (t.base + t.trailerOff + j) (f.data.take 1 ++ t.trailerEnd j)
        if w.2 ≠ 0 then w else State.copyTrailer c a t rest w.1

/-- The read of an element that is moved as it is stored: its bytes, and for XA96 the check that it is canonical (R174). -/
def moveRead (a : Tensor) (i : Nat) : PlanStep := if a.fmt = .xa96 then .elems 0 i 1 else .raw (a.base + a.byteOff i) a.elemBytes

/-- The reads of a COPY: each element as it is stored. -/
def copyPlan (a t : Tensor) : List PlanStep := t.elemIdx.flatMap fun i => [moveRead a (a.same (t.coords i)), .row]

/-- What a COPY writes: the code of the element at the same coordinates (R133). -/
def State.copyRows (s : State) (a t : Tensor) : List Row := elementRows t (fun i => s.code a (a.same (t.coords i)))

def runCopy (c : Ctx) (f : InFlight) (s : State) : State × InFlight :=
  match f.src0, f.dst with
  | some a, some t =>
    let rows := s.copyRows a t
    let r := runEffect false false false (fun _ => 0) (copyPlan a t) { rows := rows } c f s
    if t.scale = 0 then (r.1.st, r.2)
    else
      let w := State.copyTrailer c a t (t.doneBlocks rows r.1.performed) r.1.st
      (w.1, if r.2.status ≠ 0 then r.2 else { r.2 with status := BitVec.ofNat 8 w.2 })
  | _, _ => (s, f)

/-- COPY (R133). -/
def execCopy (q : Nat) (s : State) : Host.Outcome State Fault Refusal := .next (s.runOp q .copy runCopy)

/-- The code a FILL writes into every element (R132, R174). -/
def fillCode (t : Tensor) (d : Desc) : Nat :=
  if t.fmt = .xa96 then leNat (({ s := toSigned 64 d.param.toNat } : XA).bytes) else d.param.toNat

def runFill (c : Ctx) (f : InFlight) (s : State) : State × InFlight :=
  match f.dst with
  | some t =>
    let rows := elementRows t (fun _ => fillCode t f.desc)
    let r := runEffect false false false (fun _ => 0) (t.elemIdx.map fun _ => .row) { rows := rows } c f s
    (r.1.st, r.2)
  | none => (s, f)

/-- FILL (R132). -/
def execFill (q : Nat) (s : State) : Host.Outcome State Fault Refusal := .next (s.runOp q .fill runFill)

/-! ### SEND and MSGWIN -/

/-- The stored bytes of a tensor with zero in its padding lanes (R75). -/
def State.storedData (s : State) (a : Tensor) : List Byte :=
  if a.layout = 2 ∨ a.d0 % 32 = 0 then s.peek a.base a.storedBytes
  else packCodes a.fmt ((List.range a.storedElems).map fun i => if a.isElem i then s.code a i else 0)

/-- What a SEND carries: the stored bytes, and for a scaled tensor the trailer with the zero bytes that end it (R196,
R203). -/
def State.sendParts (s : State) (a : Tensor) : List (Nat × List Byte) :=
  (0, s.storedData a) ::
    (if a.scale = 0 then []
     else [(a.trailerOff, slice (s.peek (a.base + a.trailerOff) a.nblk) 0 (ceilDiv a.nblk 64 * 64))])

/-- The bytes of a message cut at multiples of 3,824 (R477). -/
def sendChunks (parts : List (Nat × List Byte)) : List (Nat × List Byte) :=
  parts.flatMap fun p => (chunks 3824 p.2).zipIdx.map fun c => (p.1 + 3824 * c.2, c.1)

/-- Sends requests one after another until one fails: the state, the status and the number sent (R477, R479, R483). -/
def State.sendRequests (die q pos : Nat) : List Packet → State → Nat → State × Nat × Nat
  | [], s, n => (s, 0, n)
  | k :: rest, s, n =>
    let r := s.sendRequest die k q pos
    if r.2 ≠ 0 then (r.1, r.2, n) else State.sendRequests die q pos rest r.1 (n + 1)

/-- A SEND to another chip (R477): WRITE packets and, where the signal is for the target's chip, its SIGNAL. -/
def sendRemote (c : Ctx) (f : InFlight) (a : Tensor) (s data : State) : State × InFlight :=
  let d := f.desc
  let dst := d.p 9 6
  let sig := d.hasSignal && refChip d.signalRef.toNat == dst
  let writes := (sendChunks (data.sendParts a)).map fun p : Nat × List Byte =>
    ({ kind := 1, cls := 2, dst := dst, word4 := d.p 5 0 + d.p 13 10 * 64, word12 := d.p 47 16 + p.1, data := p.2 } : Packet)
  let ks := writes ++ (if sig then [signalPacket d.signalRef.toNat d.signalAdd.toNat] else [])
  let r := State.sendRequests (dieOfTile c.tile) c.q f.pos.toNat ks s 0
  (r.1, { f with status := BitVec.ofNat 8 r.2.1, acksDue := if r.2.1 = 0 then r.2.2 else 0, sigDone := sig })

/-- Tile `t` takes a message of tile `src` (R404, R409, R410): it is open, or it is FENCING and the message is outstanding work of
the unit that drains. -/
def State.tileTakes (s : State) (src t : Nat) : Bool :=
  decide (t < s.part.tiles) && (s.tileOpen t || (s.draining src && s.tileReachable t))

/-- A SEND to a tile of this chip (R23, R87): the message waits at the target's DE; at a fenced tile it is discarded (R410). -/
def sendLocal (c : Ctx) (f : InFlight) (a : Tensor) (s data : State) : State × InFlight :=
  let d := f.desc
  let sig := d.hasSignal && refChip d.signalRef.toNat == s.chip
  let m : Message :=
    { route := dieRoute (dieOfTile c.tile) (dieOfTile (d.p 5 0)), window := d.p 13 10, offset := d.p 47 16, extent := a.extent, parts := data.sendParts a
      signal := if sig then some (d.signalRef, d.signalAdd) else none, sender := some (c.q, f.pos.toNat) }
  if s.tileTakes c.tile (d.p 5 0) then
    (s.updTile (d.p 5 0) (fun x => { x with msgs := x.msgs ++ [m] }), { f with acksDue := 1, sigDone := sig })
  else (s.dropAt (dieOfTile (d.p 5 0)), { f with sigDone := true })

def runSend (c : Ctx) (f : InFlight) (s : State) : State × InFlight :=
  match f.src0 with
  | none => (s, f)
  | some a =>
    let r := Run.plan c f false ((if a.fmt = .xa96 then a.elemIdx.map (moveRead a) else [.raw a.base a.storedBytes]) ++
      (if a.scale = 0 then [] else [.raw (a.base + a.trailerOff) a.nblk])) { st := s }
    if r.status ≠ 0 then (r.st, { f with status := BitVec.ofNat 8 r.status })
    else if f.desc.p 9 6 = s.chip then sendLocal c f a r.st s
    else sendRemote c f a r.st s

/-- SEND (R87, R477). -/
def execSend (q : Nat) (s : State) : Host.Outcome State Fault Refusal := .next (s.runOp q .send runSend)

/-- MSGWIN (R87): the window takes effect when the command retires. -/
def execMsgwin (q : Nat) (s : State) : Host.Outcome State Fault Refusal :=
  .next (s.runOp q .msgwin (fun _ f s => (s, f)))

/-- The window that a MSGWIN defines on the tile that ran it (R76, R87). -/
def State.defineWindow (s : State) (f : InFlight) : State :=
  s.updTile f.tile (fun x => { x with
    windows := SMap.set {} x.windows (f.desc.p 3 0) { defined := true, base := f.desc.p 30 8, size := f.desc.p 55 32 } })

/-! ### PUBLISH and the staging record (R95, R96) -/

/-- PUBLISH (R95): the field is on its way to the commit tile, and the command retires when it has been written into the staging
record (R83); an update for a fenced commit tile is discarded (R410). -/
def runPublish (c : Ctx) (f : InFlight) (s : State) : State × InFlight :=
  match f.src0 with
  | none => (s, f)
  | some a =>
    let at_ := f.desc.src1.toNat
    let r := Run.plan c f false [.raw a.base a.storedBytes, .raw at_ 8] { st := s }
    if r.status ≠ 0 then (r.st, { f with status := BitVec.ofNat 8 r.status })
    else if !(r.st.tileTakes c.tile r.st.commitTile) then (r.st.dropAt (dieOfTile r.st.commitTile), f)
    else
      (r.st.updBeat (fun b => { b with staging := { b.staging with
        updates := b.staging.updates ++ [{ sender := (c.q, f.pos.toNat), off := f.desc.p 7 0, bytes := s.peek a.base a.storedBytes
                                           capture := BitVec.ofNat 64 (leNat (s.peek at_ 8)) }] } }),
       { f with acksDue := 1 })

/-- PUBLISH (R95). -/
def execPublish (q : Nat) (s : State) : Host.Outcome State Fault Refusal := .next (s.runOp q .publish runPublish)

/-- The 256 bytes of the staging record in the commit tile's memory (R94). The manual does not lay them out, so they are
free values (DESIGN CHOICE, assumption 22). -/
def State.stageBytes (s : State) : State :=
  match s.image with
  | none => s
  | some i =>
    let d := s.draw
    d.2.put (s.commitTile * tileSize + i.payload.stageOff) ((List.range 256).map (Config.freeByte d.1))

/-- The oldest PUBLISH update is written into the staging record with its capture time, as one update, and its command is
acknowledged; it waits while the commit of a beat is due (R83, R95, R96). -/
def State.stagingUpdate (s : State) : State :=
  match s.beat.staging.updates with
  | [] => s
  | u :: rest =>
    if s.commitDue then s
    else
      ((s.updBeat (fun b => { b with staging := { b.staging with
        updates := rest
        payload := SMap.setBytes b.staging.payload u.off u.bytes
        capture := SMap.set 0 b.staging.capture u.off u.capture } })).ackInFlight u.sender.1 u.sender.2).stageBytes

/-- Updates of the staging record that are discarded: their commands are acknowledged (R410). -/
def State.dropUpdates (s : State) : List StageUpdate → State
  | [] => s
  | u :: rest => ((s.dropAt (dieOfTile s.commitTile)).ackInFlight u.sender.1 u.sender.2).dropUpdates rest

/-- The staging record is lost with its commit tile: it starts again with every field zero, and updates on their way to it are
discarded (R102). -/
def State.loseStaging (s : State) : State :=
  (s.dropUpdates s.beat.staging.updates).updBeat (fun b => { b with staging := {} })

/-- STAGING_UPDATE (R95). -/
def execStagingUpdate (s : State) : Host.Outcome State Fault Refusal := .next s.stagingUpdate

/-! ### The sync engine and doorbells -/

/-- SYNC (R76): only its wait and its signal act. -/
def execSync (q : Nat) (s : State) : Host.Outcome State Fault Refusal := .next (s.runOp q .sync (fun _ f s => (s, f)))

/-- SETSYNC (R76, R86): the value is set in the next cycle of the directory, with or without FLAGS.SIGNAL (DESIGN CHOICE,
assumption 19); discarded at a fenced cluster (R410). Of an object of another chip nothing is set: no packet carries a set
(DESIGN CHOICE, assumption 19). -/
def runSetsync (c : Ctx) (f : InFlight) (s : State) : State × InFlight :=
  let r := f.desc.signalRef.toNat
  let k := refCluster r
  if refChip r ≠ s.chip then (s, { f with sigDone := true })
  else if s.clusterTakes k (s.draining c.tile) then
    (s.updCluster k (fun x => { x with sets := x.sets ++ [(1 + c.tile, refObject r, f.desc.signalAdd)] }), { f with sigDone := true })
  else (s.dropAt (k / 4), { f with sigDone := true })

/-- SETSYNC (R76, R86). -/
def execSetsync (q : Nat) (s : State) : Host.Outcome State Fault Refusal := .next (s.runOp q .setsync runSetsync)

/-- A doorbell (R68, R69, R409): ignored for a queue with no entry (R43), at a fenced tile, and where the ring would
overflow. -/
def State.doorbell (s : State) (q tail : Nat) : State :=
  match s.alloc q with
  | none => s
  | some a =>
    if !(s.tileOpen (tileOfQueue q)) then s.dropAt (dieOfTile (tileOfQueue q))
    else
      let x := s.queue q
      if 2 ^ a.ringLog2 < (tail + 2 ^ 16 - x.head.toNat) % 2 ^ 16 then s.updQueue q (fun x => { x with dberr := true })
      else s.updQueue q (fun x => { x with tail := BitVec.ofNat 16 tail })

/-- RING (R76): the doorbell of another queue. -/
def execRing (q : Nat) (s : State) : Host.Outcome State Fault Refusal :=
  .next (s.runOp q .ring (fun _ f s => (s.doorbell (f.desc.p 14 0) (f.desc.p 31 16), f)))

/-- A write of DOORBELL[q] by the host (R69, R459): a queue the part does not have is ignored with status 0x90. -/
def State.hostDoorbell (s : State) (q value : Nat) : State :=
  if q < s.part.queues then s.doorbell q (value % 2 ^ 16) else s.updLink (fun l => { l with errLast := 0x90 })

/-- DOORBELL (R69). -/
def execDoorbell (q : Nat) (value : Word) (s : State) : Host.Outcome State Fault Refusal := .next (s.hostDoorbell q value.toNat)

end Sys2Proof.Machine
end

