-- ==== Sys2Proof/Machine/Flags.lean ====
section
/-! DEFINITION. The flag and quality fields that the block computes: the completion entry (R85), the array's operation
flags (R168), the record's QUALITY (R98, R99, R365) and the frame note's FLAGS. -/

namespace Sys2Proof.Machine

/-- FLAGS of a completion entry (R85). -/
def completionFlags (f : InFlight) (cycles : Nat) (owner : Nat) : Nat :=
  atBit f.sat 0 + atBit f.xaSat 1 + atBit (decide (f.desc.budget.toNat ≠ 0 ∧ f.desc.budget.toNat < cycles)) 2 +
    atBit (decide (f.tile ≠ owner)) 3 + atBit f.skipped 4

/-- A completion entry at device address `a` (R85). -/
def completionEntry (a : Nat) (f : InFlight) (cycles owner : Nat) : List Byte :=
  let b := leBytes 1 f.status.toNat ++ leBytes 1 (completionFlags f cycles owner) ++ leBytes 2 f.desc.seq.toNat ++
    leBytes 4 f.startBeat.toNat ++ leBytes 4 cycles ++ leBytes 2 f.tile
  b ++ leBytes 2 (crc16Fold a b)

/-- Statuses whose completion marks the next record INVALID (R140, R141, R202, R406). -/
def statusInvalidates (st : Nat) : Bool := decide (0x30 ≤ st ∧ st ≤ 0x35) || st == 0x2C || st == 0x85

/-- The quality bits of a record (R98). -/
structure Quality where
  cmp : Nat := 0
  invalid : Bool := false
  degraded : Bool := false
  notCompared : Bool := false
  saturated : Bool := false
  late : Bool := false
  safeReq : Bool := false
  benchHeld : Bool := false
  disagree : Bool := false
deriving DecidableEq, Repr

/-- The QUALITY field (R98). -/
def Quality.code (q : Quality) : Nat :=
  q.cmp % 4 * 2 ^ 14 + atBit q.invalid 13 + atBit q.degraded 12 + atBit q.notCompared 11 + atBit q.saturated 10 +
    atBit q.late 9 + atBit q.safeReq 8 + atBit q.benchHeld 7 + atBit q.disagree 6

end Sys2Proof.Machine
end

