-- ==== Sys2Proof/Machine/Matrix.lean ====
section
/-! DEFINITION. The matrix engine: MM, CONV and GSLICE (05_matrix_array.md, R203 to R205, R211 to R217, R371) and the
weight registers of the array (R142, R153, R154). -/

namespace Sys2Proof.Machine

/-! ### The reduction -/

/-- Filter taps in the order of R212: pieces of at most 7 x 7, row-major, taps within a piece row-major. -/
def tapList (kh kw : Nat) : List (Nat × Nat) :=
  (List.range (ceilDiv kh 7)).flatMap fun pr =>
    (List.range (ceilDiv kw 7)).flatMap fun pc =>
      (List.range (min 7 (kh - 7 * pr))).flatMap fun i =>
        (List.range (min 7 (kw - 7 * pc))).map fun j => (7 * pr + i, 7 * pc + j)

/-- A matrix product as the array runs it (R148, R149, R212, R217). `k` counts the reduction, `m` the output positions. -/
structure MeJob where
  a : Tensor
  w : Tensor
  t : Tensor
  /-- elements per row and per pass -/
  kRow : Nat
  kPass : Nat
  /-- reduction length -/
  k : Nat
  depthwise : Bool
  conv : Bool
  geom : Geom
  taps : List (Nat × Nat)

/-- The job of an ME command. -/
def MeJob.of (o : Op) (d : Desc) (a w t : Tensor) : MeJob :=
  let g := d.geom
  let conv := o == .conv
  let dw := conv && g.depthwise
  let kr := if dw then 1 else (Machine.kRow a.fmt w.fmt).getD 32
  { a := a, w := w, t := t, kRow := kr, kPass := 32 * kr, k := if conv then convK g a.d0 else a.d0, depthwise := dw,
    conv := conv, geom := g, taps := if conv then tapList g.kh g.kw else [] }

/-- Output columns, positions, passes and output blocks (R148). -/
def MeJob.cols (j : MeJob) : Nat := j.t.d0
def MeJob.positions (j : MeJob) : Nat := j.t.d1 * j.t.d2 * j.t.d3
def MeJob.passes (j : MeJob) : Nat := ceilDiv j.k j.kPass
def MeJob.blocks (j : MeJob) : Nat := ceilDiv j.cols 32

/-- Coordinates of output position `m`: i3, i2, i1. -/
def MeJob.pos (j : MeJob) (m : Nat) : Nat × Nat × Nat := (m / j.t.d1 / j.t.d2, m / j.t.d1 % j.t.d2, m % j.t.d1)

/-- Storage index in SRC0 of the activation that meets reduction element `k` of output position `m` and column `n`; none
where the array feeds zero without a read: in zero padding, beyond K and in padding lanes (R75, R149, R213, R217). -/
def MeJob.actIdx (j : MeJob) (m n k : Nat) : Option Nat :=
  let p := j.pos m
  if j.k ≤ k then none
  else if j.conv then
    let cp := pad32 j.a.d0
    let tap := j.taps.getD (if j.depthwise then k else k / cp) (0, 0)
    let ch := if j.depthwise then n else k % cp
    if j.a.d0 ≤ ch then none
    else
      match padIndex j.geom.padMode ((p.2.1 * j.geom.sh : Int) - j.geom.pt + tap.1 * j.geom.dh) j.a.d2,
            padIndex j.geom.padMode ((p.2.2 * j.geom.sw : Int) - j.geom.pl + tap.2 * j.geom.dw) j.a.d1 with
      | some ih, some iw => some (j.a.index p.1 ih iw ch)
      | _, _ => none
  else some (j.a.index p.1 p.2.1 p.2.2 k)

/-- Storage index in SRC1 of weight W[k][n]; none beyond K or N (R75, R149). -/
def MeJob.wIdx (j : MeJob) (n k : Nat) : Option Nat :=
  if k < j.k ∧ n < j.cols then some (j.w.index 0 0 n k) else none

/-- Value of an optional element. -/
def State.elemAt (s : State) (t : Tensor) : Option Nat → Val
  | some i => s.elem t i
  | none => .fin 0

/-- Scale factor of the group of an optional element under SCALE 3; 1 otherwise (R204). -/
def State.groupScale (s : State) (t : Tensor) (h : Option ScaleHdr) : Option Nat → Rat
  | some i => match h with
    | some hd => if t.scale = 3 then s.scaleAt hd (i / 32) else 1
    | none => 1
  | none => 1

/-- The product that reduction element `k` feeds to output (m, n). -/
def MeJob.product (j : MeJob) (s : State) (m n k : Nat) : Val :=
  Val.mul (s.elemAt j.a (j.actIdx m n k)) (s.elemAt j.w (j.wIdx n k))

/-- Whether the column's parts are scaled partials (R204). -/
def MeJob.scaled (j : MeJob) : Bool := j.a.scale == 3 || j.w.scale == 3

/-- First index that is there. -/
def firstSome : List (Option Nat) → Option Nat
  | [] => none
  | some x :: _ => some x
  | none :: rest => firstSome rest

/-- A part of a row partial: reduction elements `ks` of one block of 32 along K, times its two scales (R151, R204). -/
def MeJob.part (j : MeJob) (s : State) (h0 h1 : Option ScaleHdr) (m n : Nat) (ks : List Nat) : Val :=
  let sum := ks.foldl (fun v k => Val.add v (j.product s m n k)) (.fin 0)
  sum.scale (s.groupScale j.a h0 (firstSome (ks.map (j.actIdx m n))) *
    s.groupScale j.w h1 (firstSome (ks.map (j.wIdx n))))

/-- Reduction elements of row `r` in pass `kp`, cut into parts at the blocks of 32 along K (R149, R204). -/
def MeJob.rowParts (j : MeJob) (kp r : Nat) : List (List Nat) :=
  chunks (min 32 j.kRow) ((List.range j.kRow).map (· + kp * j.kPass + r * j.kRow))

/-- The column sum of one output element in one pass (R143 to R145, R175 to R177). -/
def MeJob.passSum (j : MeJob) (s : State) (h0 h1 : Option ScaleHdr) (m n kp : Nat) : XA :=
  if j.scaled then
    blockWindow ((List.range 32).flatMap (fun r => (j.rowParts kp r).map (j.part s h0 h1 m n)))
  else
    let ps := (List.range j.kPass).map (fun i => j.product s m n (kp * j.kPass + i))
    if j.a.fmt.is16 then blockWindow ps else blockNative ps

/-- The scales of the conversion stage: SRC0 per tensor, SRC1 per tensor or channel, DST (R204). -/
def MeJob.convScale (j : MeJob) (s : State) (f : InFlight) (n idx : Nat) : Rat :=
  let sa : Rat := if j.a.scale = 1 then s.scaleOf f.hdr0 0 else 1
  let sw : Rat := if j.w.scale = 1 then s.scaleOf f.hdr1 0 else if j.w.scale = 2 then s.scaleOf f.hdr1 n else 1
  let sd : Rat := if j.t.scale = 0 then 1 else s.scaleOf f.hdrD (j.t.scaleIndex 0 n idx)
  sa * sw / sd

/-- Storage index in DST of output (m, n). -/
def MeJob.outIdx (j : MeJob) (m n : Nat) : Nat := let p := j.pos m; j.t.index p.1 p.2.1 p.2.2 n

/-! ### The physical columns (R161, R162, R167, R189) -/

/-- Fields of TIL_ARR_REPAIR (R161, R162). -/
def repRowA (r : Nat) : Option Nat := if bit r 23 then some (fld r 22 18) else none
def repRowB (r : Nat) : Option Nat := if bit r 17 then some (fld r 16 12) else none
def repCol (r : Nat) : Option Nat := if bit r 11 then some (fld r 10 6) else none

/-- Logical row that a physical row serves; none for a bypassed row and for a spare out of service (R153, R161). -/
def servedRow (rep p : Nat) : Option Nat :=
  if p = 32 then repRowA rep else if p = 33 then repRowB rep
  else if repRowA rep = some p ∨ repRowB rep = some p then none else some p

/-- Logical column that a physical column serves (R153, R162). -/
def servedCol (rep p : Nat) : Option Nat :=
  if p = 32 then repCol rep else if repCol rep = some p then none else some p

/-- Physical column that serves a logical one (R162). -/
def physCol (rep c : Nat) : Nat := if repCol rep = some c then 32 else c

/-- TIL_ARR_REPAIR of the slot that serves a logical tile (R161, R166). -/
def State.repairOf (s : State) (t : Nat) : Nat := (s.slot (s.slotOfTile t)).repair.toNat

/-- The error that the column which serves output column `n` of a tile adds to its sum. -/
def State.colError (s : State) (tile n : Nat) : Int := SMap.get 0 (s.slot (s.slotOfTile tile)).colErr (physCol (s.repairOf tile) (n % 32))

/-- An accumulator value with an error in its significand. -/
def XA.upset (x : XA) (e : Int) : XA := if e = 0 then x else XA.add x { s := e, exp := x.exp }

/-- The sum that leaves the slack stage of the column of output column `n` in pass `kp` (R157). -/
def MeJob.colSum (j : MeJob) (s : State) (f : InFlight) (m n kp : Nat) : XA :=
  (j.passSum s f.hdr0 f.hdr1 m n kp).upset (s.colError f.tile n)

/-- The formats that the residue check covers (R167). -/
def Fmt.hasResidue (f : Fmt) : Bool := f == .int8 || f == .uint8 || f == .int4

/-- The pair of an ME command is one that the residue check covers. A sum of scaled partials is no sum of products of the
operands, and the check is idle for it (DEDUCED, assumption 143). -/
def MeJob.hasResidue (j : MeJob) : Bool := j.a.fmt.hasResidue && j.w.fmt.hasResidue && !j.scaled

/-- r_m of an integer (R189). -/
def resid (mo : Nat) (x : Int) : Nat := (x % (mo : Int)).toNat

/-- The integer of an element of an integer format. -/
def Val.int : Val → Int
  | .fin x => x.num
  | _ => 0

/-- R_m of a column: what the residue datapath forms from the residues of the operands (R189). -/
def MeJob.operandResidue (j : MeJob) (s : State) (mo m n kp : Nat) : Nat :=
  2 ^ 32 % mo * ((List.range j.kPass).foldl (fun acc i =>
    let k := kp * j.kPass + i
    acc + resid mo (s.elemAt j.a (j.actIdx m n k)).int * resid mo (s.elemAt j.w (j.wIdx n k)).int) 0) % mo

/-- A residue mismatch: R_255 or R_127 differs from the residue of the sum (R189). -/
def MeJob.residueBad (j : MeJob) (s : State) (f : InFlight) (m n kp : Nat) : Bool :=
  [255, 127].any fun mo => j.operandResidue s mo m n kp != resid mo (j.colSum s f m n kp).s

/-- The output element (m, n) with a format other than XA96: one pass, rounded once (R79, R181, R204). -/
def MeJob.rounded (j : MeJob) (s : State) (f : InFlight) (m n : Nat) : Rounded :=
  let x := j.colSum s f m n 0
  let p := j.pos m
  let v := x.val.scale (j.convScale s f n (j.outIdx m n))
  let r := roundTo j.t.fmt v (f.word j.t (p.1, p.2.1, p.2.2, n))
  { r with sat := r.sat || x.sat }

/-- The XA96 value of (m, n) after passes 0 to `kp` (R150). -/
def MeJob.xaAfter (j : MeJob) (s : State) (f : InFlight) (m n kp : Nat) : XA :=
  let first := j.colSum s f m n 0
  let start := if f.desc.acc then XA.add (s.xaElem j.t (j.outIdx m n)) first else first
  (List.range kp).foldl (fun x i => XA.add x (j.colSum s f m n (i + 1))) start

/-- The 32 codes of output row (m, nb), zero beyond N (R75, R157). -/
def MeJob.rowCodes (j : MeJob) (s : State) (f : InFlight) (m nb kp : Nat) : List Nat :=
  (List.range 32).map fun i =>
    let n := nb * 32 + i
    if j.cols ≤ n then 0
    else if j.t.fmt = .xa96 then leNat (j.xaAfter s f m n kp).bytes
    else (j.rounded s f m n).code

/-- The sets in the order of R148: nb outermost, then kp. -/
def MeJob.sets (j : MeJob) : List (Nat × Nat) :=
  (List.range j.blocks).flatMap fun nb => (List.range j.passes).map fun kp => (nb, kp)

/-- What an ME command writes and reports (R147 to R150, R168, R181, R183). -/
def MeJob.effect (j : MeJob) (s : State) (f : InFlight) : Effect :=
  let ms := List.range j.positions
  let ns := List.range j.cols
  let kps := List.range j.passes
  let xa := j.t.fmt == .xa96
  let finals := ms.flatMap fun m => ns.map fun n => j.xaAfter s f m n (j.passes - 1)
  let sums := ms.flatMap fun m => ns.flatMap fun n => kps.map fun kp => j.colSum s f m n kp
  let acts := ms.flatMap fun m => ns.flatMap fun n => (List.range j.k).map fun k => s.elemAt j.a (j.actIdx m n k)
  let ws := ns.flatMap fun n => (List.range j.k).map fun k => s.elemAt j.w (j.wIdx n k)
  let inf := fun (v : Val) => v == .pinf || v == .ninf
  { rows := j.sets.flatMap fun set => ms.map fun m => (j.outIdx m (set.1 * 32), j.rowCodes s f m set.1 set.2)
    outs := if xa then finals.map (fun x => { code := 0, sat := x.sat }) else
      ms.flatMap fun m => ns.map fun n => j.rounded s f m n
    xaSat := if xa then finals.any (·.sat) else sums.any (·.sat)
    trunc := sums.any (·.trunc)
    nanIn := acts.contains .nan || ws.contains .nan
    infIn := acts.any inf || ws.any inf }

/-! ### The reads of an ME command (R149, R152, R159, R200, R201, R215, R218) -/

/-- Reads of weight set (nb, kp): its elements group by group of 32 along K. -/
def MeJob.weightReads (j : MeJob) (nb kp : Nat) : List PlanStep :=
  let ks := (List.range j.kPass).map (· + kp * j.kPass)
  let kbs := ((ks.filter (fun k => decide (k < j.k))).map (· / 32)).eraseDups
  let ns := ((List.range 32).map (· + nb * 32)).filter (fun n => decide (n < j.cols))
  .fresh :: kbs.flatMap fun kb => ns.map fun n => .elems 1 (j.w.index 0 0 n (kb * 32)) (min 32 (j.k - kb * 32))

/-- Storage indices in SRC0 that output position `m` of set (nb, kp) reads. -/
def MeJob.actReads (j : MeJob) (m nb kp : Nat) : List Nat :=
  ((List.range j.kPass).flatMap fun i =>
    let k := kp * j.kPass + i
    if j.depthwise then (List.range 32).filterMap fun c => j.actIdx m (nb * 32 + c) k
    else (j.actIdx m (nb * 32) k).toList).eraseDups

/-- Scales of the conversion stage that govern set (nb, kp) (R200). -/
def MeJob.setScales (j : MeJob) (nb : Nat) : List PlanStep :=
  let ns := ((List.range 32).map (· + nb * 32)).filter (fun n => decide (n < j.cols))
  (if j.a.scale = 1 then [.scales 0 [0]] else []) ++
    (if j.w.scale = 1 then [.scales 1 [0]] else if j.w.scale = 2 then [.scales 1 ns] else []) ++
    (if j.t.fmt = .xa96 ∨ j.t.scale = 0 then []
     else if j.t.scale = 1 then [.scales 2 [0]]
     else if j.t.scale = 2 then [.scales 2 ns]
     else [.scales 2 ((List.range j.positions).map fun m => j.outIdx m (nb * 32) / 32)])

/-- The plan of an ME command: for each set its weights and scales, then for each output its activations, and its DST
elements under EXT.ACC in pass 0 (R150); a unit is read once for each group of four outputs (R152, R218). -/
def MeJob.plan (j : MeJob) (d : Desc) : List PlanStep :=
  j.sets.flatMap fun set =>
    j.weightReads set.1 set.2 ++ j.setScales set.1 ++
      (List.range j.positions).flatMap fun m =>
        (if m % 4 = 0 then [.fresh] else []) ++ (j.actReads m set.1 set.2).map (fun i => .elems 0 i 1) ++
          (if d.acc ∧ set.2 = 0 then [.elems 2 (j.outIdx m (set.1 * 32)) (min 32 (j.cols - set.1 * 32))] else []) ++ [.row]

/-! ### The weight registers (R142, R149, R153, R154, R160 to R162) -/

/-- The 256-bit register of DPU (r, c) for weight set (nb, kp): its weights in ascending k from bit 0, and for a depthwise
pass the one weight in lane c (DESIGN CHOICE, assumption 12: the manual gives no packing). -/
def MeJob.dpuReg (j : MeJob) (s : State) (nb kp r c : Nat) : Nat :=
  let wb := j.w.fmt.bits
  let code := fun (k : Nat) => match j.wIdx (nb * 32 + c) k with | some i => s.code j.w i | none => 0
  if j.depthwise then code (kp * j.kPass + r) * 2 ^ (c * wb)
  else (List.range j.kRow).foldl (fun a i => a + code (kp * j.kPass + r * j.kRow + i) * 2 ^ (i * wb)) 0

/-- All the registers of a weight set, spares included, under the repair state in force, keyed row * 33 + column. -/
def MeJob.setRegs (j : MeJob) (s : State) (rep nb kp : Nat) : SMap (BitVec 256) :=
  (List.range (34 * 33)).filterMap fun i =>
    match servedRow rep (i / 33), servedCol rep (i % 33) with
    | some r, some c =>
      let v := BitVec.ofNat 256 (j.dpuReg s nb kp r c)
      if v = 0 then none else some (i, v)
    | _, _ => none

/-- Tensors of an ME command in flight. -/
def InFlight.meJob (f : InFlight) (o : Op) : Option MeJob :=
  match f.src0, f.src1, f.dst with
  | some a, some w, some t => some (MeJob.of o f.desc a w t)
  | _, _, _ => none

/-- The columns with a residue mismatch among the first `n` outputs of the sets, in the order of the outputs and then of the
columns. -/
def MeJob.badCols (j : MeJob) (s : State) (f : InFlight) (n : Nat) : List Nat :=
  ((j.sets.flatMap fun set => (List.range j.positions).map fun m => (set, m)).take n).flatMap fun o =>
    (((List.range 32).map (· + o.1.1 * 32)).filter fun col => j.residueBad s f o.2 col o.1.2).map
      fun col => physCol (s.repairOf f.tile) (col % 32)

/-- The residue check of a command (R167, R189): RESIDUE_ERR, RES_COL of the latest mismatch and SEV-016, once for the command
(DESIGN CHOICE, assumption 162). -/
def State.residueCheck (s : State) (tile : Nat) (bad : List Nat) : State :=
  match bad.getLast? with
  | none => s
  | some col => (s.updTile tile (fun x => { x with residueErr := true, resCol := BitVec.ofNat 6 col })).raiseDie (dieOfTile tile) 16 tile 0

/-- What an ME command leaves of the array's state when its outputs are written: TIL_ARR_BUSY grown by the `seen` outputs that
passed the product stage, the registers of the last weight set where the command has still to swap it in (`swaps`), and the residue
check (R154, R167, R168). `s0` is the state that it began in. -/
def MeJob.settle (j : MeJob) (s s0 : State) (f : InFlight) (tile seen : Nat) (swaps : Bool) : State :=
  let regs := match j.sets.getLast? with
    | some set => j.setRegs s0 (s0.repairOf tile) set.1 set.2
    | none => []
  let s1 := s.updTile tile (fun x => { x with
    busy := x.busy + BitVec.ofNat 32 seen
    active := if swaps then regs else x.active
    shadow := if swaps then regs else x.shadow })
  if (s0.tile tile).residue && j.hasResidue then s1.residueCheck tile (j.badCols s0 f seen) else s1

/-- Runs an ME command: its effect, and what it leaves of the array's state. After a failure the outputs that have passed the product
stage are a free number between those written and those read. -/
def runMe (o : Op) (verdict : State → Nat) (c : Ctx) (f : InFlight) (s : State) : State × InFlight :=
  match f.meJob o with
  | none => (s, f)
  | some j =>
    let r := runEffect true true false verdict (j.plan f.desc) (j.effect s f) c f s
    if r.1.status = 0 then (j.settle r.1.st s f c.tile r.1.ready (decide (f.swaps < j.sets.length)), r.2)
    else
      let d := r.1.st.draw
      (j.settle d.2 s f c.tile (r.1.performed + Config.freeNat d.1 % (r.1.ready - r.1.performed + 1)) false, r.2)

/-- MM (R147). -/
def execMm (q : Nat) (s : State) : Host.Outcome State Fault Refusal := .next (s.runOp q .mm (runMe .mm (fun _ => 0)))

/-- CONV (R211 to R217). -/
def execConv (q : Nat) (s : State) : Host.Outcome State Fault Refusal := .next (s.runOp q .conv (runMe .conv (fun _ => 0)))

/-- The comparison of a golden slice: 0x50 when the CRC-64 of DST differs from PARAM (R371). -/
def sliceVerdict (f : InFlight) (s : State) : Nat :=
  match f.dst with
  | none => 0
  | some t => if crc 5 (s.peek t.base t.storedBytes) = f.desc.param.toNat then 0 else 0x50

/-- A golden slice: an MM whose DST is compared with the CRC-64 in PARAM; status 0x50, SEV-009 and the tile SUSPECT
when they differ (R371, R388). -/
def runGslice (c : Ctx) (f : InFlight) (s : State) : State × InFlight :=
  let r := runMe .gslice (sliceVerdict f) c f s
  if r.2.status ≠ 0x50 then r
  else
    let s1 := r.1.raiseDie (dieOfTile c.tile) 9 c.tile 0x50
    ({ s1 with suspects := s1.suspects ++ [(.slot, s1.slotOfTile c.tile, 9)] }, r.2)

/-- GSLICE (R371). -/
def execGslice (q : Nat) (s : State) : Host.Outcome State Fault Refusal := .next (s.runOp q .gslice runGslice)

/-- Weight sets of an ME command in flight. -/
def InFlight.weightSets (f : InFlight) : List (Nat × Nat) :=
  match (Op.ofCode f.desc.opcode.toNat).bind f.meJob with
  | some j => j.sets
  | none => []

/-- The commands of a list with the queue that holds them; the one that came first. -/
def firstStarted : List (Nat × InFlight) → Option (Nat × InFlight)
  | [] => none
  | x :: rest => match firstStarted rest with
    | none => some x
    | some y => some (if x.2.order ≤ y.2.order then x else y)

/-- The ME command of a tile whose weight sets are being loaded: the first one accepted that has still sets to swap in (R155,
R156). -/
def State.meLoading (s : State) (tile : Nat) : Option (Nat × InFlight) :=
  firstStarted (s.queues.flatMap fun e => (e.2.inflight.filter fun f =>
    f.tile == tile && f.engine == some 0 && !f.executed && decide (f.swaps < f.weightSets.length)).map fun f => (e.1, f))

/-- The reads of a weight set succeed: its elements, their tags and their scales (R159, R201). A set with a failing read is
never swapped in; the command itself meets the failure when it runs. -/
def MeJob.setReadable (j : MeJob) (c : Ctx) (f : InFlight) (s : State) (set : Nat × Nat) : Bool :=
  let p := j.weightReads set.1 set.2
  (Run.plan c f true p { st := s, used := planElems p }).status == 0

/-- Counts a swap of the command that started as number `order`. -/
def State.countSwap (s : State) (q order : Nat) : State :=
  s.updQueue q (fun x => { x with inflight := x.inflight.map (fun f => if f.order = order then { f with swaps := f.swaps + 1 } else f) })

/-- The swap of the next weight set of the tile's ME: its rows stand in the shadow registers and pass into the active registers
in one cycle (R153, R154). -/
def State.shadowLoadSwap (s : State) (tile : Nat) : State :=
  match s.meLoading tile with
  | none => s
  | some (q, f) =>
    match (Op.ofCode f.desc.opcode.toNat).bind f.meJob with
    | none => s
    | some j =>
      match j.sets[f.swaps]? with
      | none => s
      | some set =>
        if j.setReadable (s.ctxOf q f) f s set then
          let regs := j.setRegs s (s.repairOf tile) set.1 set.2
          (s.updTile tile (fun x => { x with shadow := regs, active := regs })).countSwap q f.order
        else s

/-- SHADOW_LOAD_SWAP (R154). -/
def execShadowLoadSwap (tile : Nat) (s : State) : Host.Outcome State Fault Refusal := .next (s.shadowLoadSwap tile)

end Sys2Proof.Machine
end

