-- ==== Sys2Proof/Machine/Queue.lean ====
section
/-! DEFINITION. The command front end and the sync object directory: COMMAND_START, COMMAND_RETIRE and
SYNC_SIGNAL_APPLY (R68, R73, R80 to R86, R93, R103, R168). -/

namespace Sys2Proof.Machine

/-! ### Sync objects (R86) -/

/-- Count of a sync object (CLU_SYNC). -/
def State.syncCount (s : State) (c obj : Nat) : Word := SMap.get 0 (s.cluster c).sync obj

/-- A wait is satisfied when count − value, read as signed, is zero or more (R86). -/
def waitSatisfied (count value : Word) : Bool := decide ((count - value).toNat < 2 ^ 31)

/-- One cycle of a directory: SYNC_SET entries and SETSYNC operations in order, then every signal (R86). -/
def ClusterSt.applySync (x : ClusterSt) : ClusterSt :=
  let sets := x.sets.mergeSort (fun a b => decide (a.1 ≤ b.1))
  let a := sets.foldl (fun m e => SMap.set 0 m e.2.1 e.2.2) x.sync
  let b := x.signals.foldl (fun m e => SMap.update 0 m e.1 (· + e.2)) a
  { x with sync := b, sets := [], signals := [] }

/-! ### The head of a queue -/

/-- The descriptor in a queue's slot for position `p`, as it stands in memory (R67, R68). -/
def State.descAt (s : State) (a : QueueAlloc) (p : Nat) : List Byte := s.peek (a.ringBase + 64 * (p % 2 ^ a.ringLog2)) 64

/-- The wait of the head command: none when it has no wait that decode accepts (R72, R82, R86). `tile` would run it. -/
def headWait (a pos engine : Nat) (b : List Byte) (chip cluster : Nat) : Option (Nat × Word) :=
  let d := Desc.parse b
  let r := d.waitRef.toNat
  if (steps1to4 engine pos a b).1 = 0 ∧ d.hasWait ∧ refLayoutOk r ∧ refChip r = chip ∧ refCluster r = cluster then
    some (refObject r, d.waitValue)
  else none

/-- The head command of a queue waits on its sync object (TIL_QSTATE.WAIT). -/
def State.headWaits (s : State) (a : QueueAlloc) (tile : Nat) : Bool :=
  let p := (s.queue a.queue).head.toNat
  match headWait (a.ringBase + 64 * (p % 2 ^ a.ringLog2)) p a.engine (s.descAt a p) s.chip (clusterOfTile tile) with
  | some w => !(waitSatisfied (s.syncCount (clusterOfTile tile) w.1) w.2)
  | none => false

/-- FENCE holds the head command while a command of its queue is in flight (R70, R82). -/
def State.headFenced (s : State) (a : QueueAlloc) : Bool :=
  let p := (s.queue a.queue).head.toNat
  let b := s.descAt a p
  (steps1to4 a.engine p (a.ringBase + 64 * (p % 2 ^ a.ringLog2)) b).1 == 0 && (Desc.parse b).hasFence &&
    (s.queue a.queue).inflight != []

/-- A queue that could start its head command but for its wait and its engine (R82, R85, R404). -/
def State.headReady (s : State) (a : QueueAlloc) : Bool :=
  let x := s.queue a.queue
  s.image.isSome && x.head != x.tail && !x.err && x.inflight.all (fun f => f.status == 0 || f.old.isSome) &&
    decide (x.inflight.length < 4) && (a.doorbellOnly || decide (0 < x.credit.toNat)) &&
    s.tileRuns (tileOfQueue a.queue) a.doorbellOnly && !(s.headFenced a)

/-- Commands of an engine that a tile holds: for the ME those in flight, for the others those still to run (R82, R156;
DEDUCED from R103, assumption 23). -/
def State.engineLoad (s : State) (tile engine : Nat) : Nat :=
  (s.queues.flatMap fun e => e.2.inflight.filter fun f =>
    f.tile == tile && f.engine == some engine && (if engine = 0 then f.src0.isSome else !f.executed)).length

/-- The ME of a tile has made the last swap of every command it holds (R156): each has run, or has swapped in all its weight
sets. -/
def State.meSwapped (s : State) (tile : Nat) : Bool :=
  (s.meWaiting tile).all fun f => decide (f.weightSets.length ≤ f.swaps)

/-- Whether a tile's engine accepts a command (R82, R156, TIL_ARR_CTRL.HOLD). -/
def State.engineAccepts (s : State) (tile engine : Nat) : Bool :=
  if engine = 0 then decide (s.engineLoad tile 0 < 3) && s.meSwapped tile && !(s.tile tile).hold else s.engineLoad tile engine == 0

/-- The tiles that may run a queue's commands, in their order: the owner, then its group by ID (R103). -/
def State.groupTiles (s : State) (a : QueueAlloc) : List Nat :=
  let own := tileOfQueue a.queue
  if s.mode.balance = 1 ∧ a.balGroup ≠ 0 then
    own :: (List.range s.part.tiles).filter (fun t => t != own && ((s.img.tileMap[t]?).map (·.balGroup)) == some a.balGroup &&
      s.tileInService t)
  else [own]

/-- The head command of a queue waits on an object that its owner may name: it names the owner's cluster (R72). -/
def State.headNamesOwn (s : State) (a : QueueAlloc) : Bool :=
  let p := (s.queue a.queue).head.toNat
  (headWait (a.ringBase + 64 * (p % 2 ^ a.ringLog2)) p a.engine (s.descAt a p) s.chip (clusterOfTile (tileOfQueue a.queue))).isSome

/-- A tile that may run the head command of a queue: a command with a wait of its owner's cluster runs in that cluster, where the
wait can be named (R72, R82, R103). -/
def State.mayRun (s : State) (a : QueueAlloc) (t : Nat) : Bool :=
  !(s.headWaits a t) && (clusterOfTile t == clusterOfTile (tileOfQueue a.queue) || !(s.headNamesOwn a))

/-- The tile on which the head command of a queue starts now; none where it cannot (R82, R103). Nothing starts while a transaction
or a RELEASE is due, and no command of the commit tile's DE while a commit is due (R92, R96, R436). -/
def State.startTile (s : State) (a : QueueAlloc) : Option Nat :=
  if s.headReady a && !s.txnDue && !s.releaseDue then
    (s.groupTiles a).find? (fun t => s.engineAccepts t a.engine && s.mayRun a t && !(s.commitFirst t a.engine))
  else none

/-- What the engine compares: beat-released before doorbell-only, then the instant of the oldest credit, then the local
queue number (R93), then, for queues of two tiles of a balance group, the owner's number (DESIGN CHOICE, assumption 144). -/
def State.startKey (s : State) (a : QueueAlloc) : Nat × Nat × Nat :=
  let n := a.queue % 512 * 64 + a.queue / 512
  if a.doorbellOnly then (1, 0, n) else (0, (s.queue a.queue).grants.headD 0, n)

/-- Lexicographic order of keys. -/
def keyLt (a b : Nat × Nat × Nat) : Bool :=
  decide (a.1 < b.1) || (a.1 == b.1 && (decide (a.2.1 < b.2.1) || (a.2.1 == b.2.1 && decide (a.2.2 < b.2.2))))

/-- Queue `a` is the one its engine takes on the tile (R93). -/
def State.arbitrated (s : State) (a : QueueAlloc) (tile : Nat) : Bool :=
  s.img.queues.all fun b => b.queue == a.queue || b.engine != a.engine || s.startTile b != some tile ||
    keyLt (s.startKey a) (s.startKey b)

/-- A tile named by a kill zero-fills its memory before the next command (R134). -/
def State.payZero (s : State) (tile : Nat) : State :=
  if (s.tile tile).mustZero then (s.zeroRange (tile * tileSize) tileSize).updTile tile (fun x => { x with mustZero := false })
  else s

/-- Takes the head command: one credit, HEAD, its decode (R80, R82, R85). -/
def State.takeHead (s : State) (a : QueueAlloc) (tile : Nat) : State :=
  let x := s.queue a.queue
  let p := x.head.toNat
  let s0 := s.payZero tile
  let d := decodeCmd s0 { q := a.queue, tile := tile, bal := a.balGroup } a.engine p (a.ringBase + 64 * (p % 2 ^ a.ringLog2))
  let fl1 := { d.fl with order := s.starts }
  let fl := if d.status = 0 then fl1 else { fl1 with status := BitVec.ofNat 8 d.status, executed := true }
  { d.st with starts := s.starts + 1 }.updQueue a.queue (fun x => { x with
    head := x.head + 1
    credit := if a.doorbellOnly then 0 else x.credit - 1
    grants := x.grants.drop 1
    wait := false
    waitSince := none
    longRaised := false
    inflight := x.inflight ++ [fl] })

/-- COMMAND_START of queue `q` on a tile: the command starts when it is the one that the engine takes; a head command that
waits is marked; otherwise nothing happens (R82, R86, R93, R103). -/
def State.commandStart (s : State) (q tile : Nat) : State :=
  match s.alloc q with
  | none => s
  | some a =>
    if s.startTile a = some tile ∧ s.arbitrated a tile then s.takeHead a tile
    else if s.headReady a ∧ s.headWaits a (tileOfQueue q) then
      s.updQueue q (fun x => { x with wait := true, waitSince := some (x.waitSince.getD s.mono) })
    else s

/-- COMMAND_START (R82). -/
def execCommandStart (q tile : Nat) (s : State) : Host.Outcome State Fault Refusal := .next (s.commandStart q tile)

/-! ### Retirement (R83, R85, R168, R477) -/

/-- Address of the completion entry of a position (R67, R85). -/
def completionAddr (a : QueueAlloc) (pos : Nat) : Nat :=
  a.ringBase + 64 * 2 ^ a.ringLog2 + 16 * (pos % 2 ^ a.ringLog2)

/-- The flags of the last retired ME command (R168). -/
def State.meFlags (s : State) (q : Nat) (f : InFlight) : State :=
  match Op.ofCode f.desc.opcode.toNat with
  | some o =>
    if o.engine = 0 ∧ f.src0.isSome then
      s.updTile f.tile (fun x => { x with
        lastOp := BitVec.ofNat 32 (f.desc.seq.toNat * 2 ^ 16 + atBit true 15 + q % 2 ^ 15)
        lNan := f.nanIn, lInf := f.infIn, lTrunc := f.trunc, lXasat := f.xaSat
        gsliceOk := x.gsliceOk || (o == .gslice && f.status == 0) })
    else s
  | none => s

/-- Kindling holds nothing of a command that has retired (R108). -/
def State.clearKindling (s : State) (f : InFlight) : State :=
  match f.engine with
  | some e => s.updTile f.tile (fun x => { x with kindBad := x.kindBad.filter (· != e) })
  | none => s

/-- The QUEUE_ALLOC entry under which a command in flight of queue `q` retires (R445). -/
def State.allocOf (s : State) (q : Nat) (f : InFlight) : Option QueueAlloc :=
  match f.old with
  | some a => some a
  | none => s.alloc q

/-- The QUEUE_ALLOC entries of the image and, of queues that it does not allocate, those that commands in flight still use. -/
def State.liveAllocs (s : State) : List QueueAlloc :=
  s.img.queues ++ s.queues.filterMap fun e => match s.alloc e.1, e.2.inflight with
    | none, f :: _ => f.old
    | _, _ => none

/-- The last steps of a retirement: completion entry, ERR, marks for the next record and the MSI-X vector (R83, R85, R99,
R140, R463). -/
def State.complete (s : State) (a : QueueAlloc) (f : InFlight) (cycles : Nat) : State :=
  let addr := completionAddr a f.pos.toNat
  let owner := tileOfQueue a.queue
  let s1 := s.put addr (completionEntry addr f cycles owner)
  let s2 := s1.updQueue a.queue (fun x => { x with
    inflight := x.inflight.drop 1, lastStatus := f.status, err := x.err || (f.status != 0 && f.old.isNone) })
  let s3 := ((s2.meFlags a.queue f).clearKindling f).updBeat (fun b => { b with
    satNext := b.satNext || f.sat, invalidNext := b.invalidNext || statusInvalidates f.status.toNat })
  if f.desc.hasIrq then s3.msix (64 + 31 * owner + a.queue % 512 % 31) else s3

/-! ### SYNC_SIGNAL_APPLY -/

/-- Queues of a cluster's tiles whose head no longer waits leave the wait (R82, R86). -/
def State.refreshWaits (s : State) (c : Nat) : List QueueAlloc → State
  | [] => s
  | a :: rest =>
    let s1 :=
      if clusterOfTile (tileOfQueue a.queue) = c ∧ (s.queue a.queue).wait ∧ !(s.headWaits a (tileOfQueue a.queue)) then
        s.updQueue a.queue (fun x => { x with wait := false, waitSince := none, longRaised := false })
      else s
    s1.refreshWaits c rest

/-- One cycle of a cluster's directory, after which waits are evaluated (R86). -/
def State.syncApply (s : State) (c : Nat) : State :=
  (s.updCluster c ClusterSt.applySync).refreshWaits c s.img.queues

/-- SYNC_SIGNAL_APPLY (R86). -/
def execSyncSignalApply (cluster : Nat) (s : State) : Host.Outcome State Fault Refusal := .next (s.syncApply cluster)

/-- A signal to a sync object of this chip with the cycle of the directory that adds it, so that what follows it observes it (R83,
R86); discarded at a fenced cluster (R410). -/
def State.applySignal (s : State) (outstanding : Bool) (ref add : Nat) : State :=
  if s.clusterTakes (refCluster ref) outstanding then (s.signalLocal outstanding ref add).syncApply (refCluster ref)
  else s.signalLocal outstanding ref add

/-! ### MESSAGE_ARRIVE -/

/-- The message at the front of a tile's DE arrives: written with its signal, or dropped, or discarded; its sender is
acknowledged in every case (R87, R88, R410). -/
def State.messageArrive (s : State) (tile : Nat) : State :=
  match (s.tile tile).msgs with
  | [] => s
  | m :: rest =>
    let s0 := s.updTile tile (fun x => { x with msgs := rest })
    let r := s0.deliver tile m
    let s1 := match r.2, m.signal with
      | .applied, some g => r.1.applySignal true g.1.toNat g.2.toNat
      | _, _ => r.1
    match m.sender with
    | none => s1
    | some q => match r.2 with
      | .failed st => s1.failInFlight q.1 q.2 st
      | .applied => s1.ackInFlight q.1 q.2
      | _ => s1.ackDropped q.1 q.2

/-- MESSAGE_ARRIVE (R87, R88). -/
def execMessageArrive (tile : Nat) (s : State) : Host.Outcome State Fault Refusal := .next (s.messageArrive tile)

/-! ### Retirement (R83, R85, R168, R477) -/

/-- The signal of a command whose writes have all been performed: applied here, or sent to another chip and awaited
(R83, R477). -/
def State.retireSignal (s : State) (q : Nat) (f : InFlight) : State × InFlight :=
  let d := f.desc
  if f.status ≠ 0 ∨ f.sigDone ∨ !d.hasSignal then (s, f)
  else if refChip d.signalRef.toNat = s.chip then
    (s.applySignal (s.draining f.tile) d.signalRef.toNat d.signalAdd.toNat, { f with sigDone := true })
  else
    let r := s.sendRequest (dieOfTile f.tile) (signalPacket d.signalRef.toNat d.signalAdd.toNat) q f.pos.toNat
    (r.1, { f with sigDone := true, status := BitVec.ofNat 8 r.2, acksDue := if r.2 = 0 then 1 else 0 })

/-- Puts back the oldest command in flight. -/
def State.setOldest (s : State) (q : Nat) (f : InFlight) : State :=
  s.updQueue q (fun x => { x with inflight := f :: x.inflight.drop 1 })

/-- What takes effect with the retirement itself: the window of a MSGWIN (R87), and the cycle of the directory in which the object
of a SETSYNC is set (R83, R86). -/
def State.retireEffect (s : State) (f : InFlight) : State :=
  if f.status ≠ 0 then s
  else match Op.ofCode f.desc.opcode.toNat with
    | some .msgwin => s.defineWindow f
    | some .setsync =>
      let c := refCluster f.desc.signalRef.toNat
      if refChip f.desc.signalRef.toNat = s.chip ∧ s.clusterTakes c (s.draining f.tile) then s.syncApply c else s
    | _ => s

/-- COMMAND_RETIRE of queue `q`: the oldest command in flight, once it has run and every acknowledgement has returned; a
command with a signal for another chip sends it first and retires when its acknowledgement is back (R83, R477). -/
def State.commandRetire (s : State) (q cycles : Nat) : State :=
  match (s.queue q).inflight with
  | f :: _ => match s.allocOf q f with
    | some a =>
      if !f.executed ∨ f.acksDue ≠ 0 then s
      else
        let g := (s.retireEffect f).retireSignal q f
        if g.2.acksDue ≠ 0 then g.1.setOldest q g.2 else g.1.complete a g.2 cycles
    | none => s
  | [] => s

/-- Completes every command in flight of a queue with one status, in ring order; their CYCLES are free (R406, R409). -/
def State.completeAll (s : State) (q status : Nat) : List InFlight → State
  | [] => s
  | f :: rest =>
    let d := s.draw
    (match s.allocOf q f with
     | some a => d.2.complete a { f with status := BitVec.ofNat 8 status, executed := true } (Config.freeNat d.1 % 2 ^ 32)
     | none => d.2).completeAll q status rest

/-- Every command in flight of queue `q` is answered with one status (R409 step 4). -/
def State.answerQueue (s : State) (q status : Nat) : State :=
  s.completeAll q status (s.queue q).inflight

end Sys2Proof.Machine
end

