-- ==== Sys2Proof/Machine/Fence.lean ====
section
/-! DEFINITION. Fences as operations (R15 to R20, R404, R409 to R412, R419): the units, the missing regions, planned and
fault fences, and what becomes of the commands and messages of a fenced unit. -/

namespace Sys2Proof.Machine

/-! ### Units by level and global number -/

def State.unit (s : State) : UnitKind → Nat → UnitSt
  | .slot, u => (s.slot u).u
  | .cluster, u => s.cluUnit u
  | .region, u => s.rgnUnit u
  | .die, u => (s.die u).u

def State.updUnit (s : State) (k : UnitKind) (u : Nat) (f : UnitSt → UnitSt) : State :=
  match k with
  | .slot => s.updSlot u (fun x => { x with u := f x.u })
  | .cluster => s.updCluUnit u f
  | .region => s.updRgnUnit u f
  | .die => s.updDie u (fun x => { x with u := f x.u })

/-- Units of a level on one die. -/
def unitsPerDie : UnitKind → Nat
  | .slot => 20
  | .cluster => 4
  | .region => 2
  | .die => 1

/-- Die of a unit. -/
def dieOfUnit (k : UnitKind) (u : Nat) : Nat := u / unitsPerDie k

/-- The levels that enclose a unit, the smallest first. -/
def enclosing : UnitKind → Nat → List (UnitKind × Nat)
  | .slot, u => [(.cluster, u / 5), (.region, u / 10), (.die, u / 20)]
  | .cluster, u => [(.region, u / 2), (.die, u / 4)]
  | .region, u => [(.die, u / 2)]
  | .die, _ => []

/-- The units inside a unit. -/
def enclosed : UnitKind → Nat → List (UnitKind × Nat)
  | .slot, _ => []
  | .cluster, u => (List.range 5).map fun i => (.slot, u * 5 + i)
  | .region, u => ((List.range 10).map fun i => (UnitKind.slot, u * 10 + i)) ++ [(.cluster, u * 2), (.cluster, u * 2 + 1)]
  | .die, u => ((List.range 20).map fun i => (UnitKind.slot, u * 20 + i)) ++
      ((List.range 4).map fun i => (UnitKind.cluster, u * 4 + i)) ++ [(.region, u * 2), (.region, u * 2 + 1)]

/-- Logical tiles that a unit serves. -/
def State.unitTiles (s : State) (k : UnitKind) (u : Nat) : List Nat :=
  match k with
  | .slot => (s.tileOfSlot u).toList
  | .cluster => (List.range 4).map (· + u * 4)
  | .region => (List.range 8).map (· + u * 8)
  | .die => (List.range 16).map (· + u * 16)

/-- Clusters of the part that a unit holds. -/
def State.unitClusters (s : State) (k : UnitKind) (u : Nat) : List Nat :=
  (match k with
   | .slot => []
   | .cluster => [u]
   | .region => [2 * u, 2 * u + 1]
   | .die => (List.range 4).map (· + 4 * u)).filter (· < s.part.clusters)

/-- Regions of the part that a unit lies in or holds. -/
def State.unitRegions (s : State) (k : UnitKind) (u : Nat) : List Nat :=
  (match k with
   | .slot => [u / 10]
   | .cluster => [u / 2]
   | .region => [u]
   | .die => [2 * u, 2 * u + 1]).filter (· < s.part.regions)

/-- UNIT of an event that concerns a unit (R464): the logical tile, the region of a cluster, the region or the die; 0xFF
for a slot that serves no tile (DEDUCED, assumption 141). -/
def State.unitTag (s : State) (k : UnitKind) (u : Nat) : Nat :=
  match k with
  | .slot => (s.tileOfSlot u).getD 0xFF
  | .cluster => u / 2
  | _ => u

/-- The state of a unit and its two copies (R404, R421): they change together. -/
def State.setUnit (s : State) (k : UnitKind) (u : Nat) (st : UnitState) : State :=
  s.updUnit k u (fun x => { x with state := st, hostView := st, pregusView := st })

/-- Out of service for good, or absent. -/
def UnitState.gone (st : UnitState) : Bool := st == .retired || st == .off

/-- Under recovery, planned or not. -/
def UnitState.recovering (st : UnitState) : Bool := !(st == .inService || st == .off)

/-- A unit that encloses this one is under recovery (R412). -/
def State.underRecovery (s : State) (k : UnitKind) (u : Nat) : Bool :=
  (enclosing k u).any fun e => (s.unit e.1 e.2).state.recovering

/-! ### Missing regions (R16 to R19, R404) -/

/-- A region is missing while it, its die, one of its clusters or the slot of one of its tiles is not IN_SERVICE. -/
def State.regionMissing (s : State) (g : Nat) : Bool := (s.unitTiles .region g).any fun t => !(s.tileInService t)

def State.missingRegions (s : State) : List Nat := (List.range s.part.regions).filter s.regionMissing

/-- Takes note of regions gone missing or returned: their order, the marks of the running frame (R18) and, when a further
one goes missing or two go at once, SEV-024 (R19). -/
def State.refreshMissing (s : State) : State :=
  let now := s.missingRegions
  let keep := s.beat.missOrder.filter now.contains
  let added := now.filter (fun g => !keep.contains g)
  let s1 := s.updBeat (fun b => { b with
    missOrder := keep ++ added
    invalidBefore := if added ≠ [] ∧ s.started then max b.invalidBefore (b.frame + 1) else b.invalidBefore })
  if added ≠ [] ∧ s.image.isSome ∧ 2 ≤ (keep ++ added).length then s1.raise 24 (added.getLastD 0) 0 else s1

/-! ### Commands and messages of a fenced unit (R409, R410) -/

/-- Answers every command in flight of the queues of these tiles with one status, and ends those of other queues that run
on them, whether or not they have executed (R409 step 4). -/
def State.answerAllocs (s : State) (tiles : List Nat) (status : Nat) : List QueueAlloc → State
  | [] => s
  | a :: rest =>
    let s1 :=
      if tiles.contains (tileOfQueue a.queue) then s.answerQueue a.queue status
      else s.updQueue a.queue (fun x => { x with inflight := x.inflight.map (fun f =>
        if tiles.contains f.tile then { f with status := BitVec.ofNat 8 status, executed := true, acksDue := 0, sigDone := true }
        else f) })
    s1.answerAllocs tiles status rest

/-- The commands in flight that a fence of these tiles answers, by queue and position: those of their queues and those that run on
them. -/
def State.fencedCmds (s : State) (tiles : List Nat) : List (Nat × Nat) :=
  s.queues.flatMap fun e => (e.2.inflight.filter fun f => tiles.contains (tileOfQueue e.1) || tiles.contains f.tile).map fun f =>
    (e.1, f.pos.toNat)

/-- Messages and staging updates of these commands that have not arrived vanish: a command that has ended with an error makes no
further write and applies no signal (R85, R406, R409). -/
def State.recallMessages (s : State) (cmds : List (Nat × Nat)) : List Nat → State
  | [] => s.updBeat (fun b => { b with staging := { b.staging with
      updates := b.staging.updates.filter (fun u => !(cmds.contains u.sender)) } })
  | t :: rest =>
    (s.updTile t (fun x => { x with msgs := x.msgs.filter (fun m =>
      match m.sender with
      | some q => !(cmds.contains q)
      | none => true) })).recallMessages cmds rest

/-- Messages on their way to a fenced tile are discarded and acknowledged (R410). -/
def State.discardMessages (s : State) (t : Nat) : List Message → State
  | [] => s.updTile t (fun x => { x with msgs := [] })
  | m :: rest =>
    let s1 := s.dropAt (dieOfTile t)
    (match m.sender with
     | some q => s1.ackDropped q.1 q.2
     | none => s1).discardMessages t rest

/-- What a fence does to the commands and messages of the unit's tiles, with the status of the commands (R409, R410). -/
def State.answerTiles (s : State) (tiles : List Nat) (status : Nat) : State :=
  let s1 := (s.answerAllocs tiles status s.liveAllocs).recallMessages (s.fencedCmds tiles) (List.range s.part.tiles)
  let s2 := tiles.foldl (fun acc t => acc.discardMessages t (acc.tile t).msgs) s1
  if tiles.contains s2.commitTile then
    (s2.dropUpdates s2.beat.staging.updates).updBeat (fun b => { b with staging := { b.staging with updates := [] } })
  else s2

/-! ### Fences (R409, R411, R412) -/

/-- Ends every recovery inside a unit: the enclosing recovery takes over (R412). -/
def State.absorb (s : State) (k : UnitKind) (u : Nat) : State :=
  (enclosed k u).foldl (fun acc e =>
    let st := (acc.unit e.1 e.2).state
    if st == .inService || st.gone then acc
    else (acc.setUnit e.1 e.2 .inService).updUnit e.1 e.2 (fun x => { x with resetReq := false })) s

/-- A staging that ends in a failure (R442): its status, SEV-255 and vector 5. -/
def State.stageFail (s : State) (unit status : Nat) : State :=
  ((s.updUpd (fun x => { x with last := BitVec.ofNat 8 status })).raise 255 unit status).msix 5

/-- A staging of the unit with a bit of UPD_STATUS.STAGED that ends in a failure: the unit is unstaged, whatever was staged of it before
(R442). -/
def State.failStage (s : State) (bitNo unit status : Nat) : State :=
  (s.updUpd (fun x => { x with staged := x.staged &&& ~~~(BitVec.ofNat 14 (2 ^ bitNo)) })).stageFail unit status

/-- Drops the planned fences of a unit and of the units inside it; a region that was being staged stays unstaged (R442). -/
def State.endDrains (s : State) (k : UnitKind) (u : Nat) : State :=
  let gone := fun (f : FenceReq) => (f.kind == k && f.unit == u) || (enclosed k u).contains (f.kind, f.unit)
  let d := dieOfUnit k u
  let lost := (s.die d).fences.filter (fun f => gone f && f.purpose == .update)
  lost.foldl (fun acc f => acc.failStage (6 + f.unit) f.unit 0x80) (s.updDie d (fun x => { x with fences := x.fences.filter (fun f => !(gone f)) }))

/-- The first steps of a fence: state, cause, instant and SEV-209 (R409 step 1, R414, R420). -/
def State.openFence (s : State) (k : UnitKind) (u cause : Nat) (st : UnitState) : State :=
  let d := dieOfUnit k u
  let s1 := (s.endDrains k u).absorb k u
  ((s1.setUnit k u st).updUnit k u (fun x => { x with
    cause := cause, fencedAt := s.dieStamp d, fencedBeat := s.curBeat, fencedTag := s.unitTag k u,
    resetReq := st == .suspect, sumsDone := [] })).raiseDie d 209 (s.unitTag k u) 0

/-- No new recovery of this unit starts: the standby processor of its die is rebuilding its view after a takeover (R423). The
recovery of a die is the Pregus die's (DESIGN CHOICE, assumption 147). -/
def State.recoveryHeld (s : State) (k : UnitKind) (u : Nat) : Bool := k != .die && decide (s.mono < (s.die (dieOfUnit k u)).holdUntil)

/-- A fault fence (R409, R412): SUSPECT at once, no drain; absorbed inside a domain that is already under recovery. While no new
recovery may start, the unit waits among the suspects (R423). -/
def State.suspectUnit (s : State) (k : UnitKind) (u cause : Nat) : State :=
  match (s.unit k u).state with
  | .inService | .fencing | .fenced | .testing =>
    if s.underRecovery k u then s
    else if s.recoveryHeld k u then { s with suspects := s.suspects ++ [(k, u, cause)] }
    else
      let s1 := s.openFence k u cause .suspect
      (s1.answerTiles (s1.unitTiles k u) 0x80).refreshMissing
  | _ => s

/-- Fences every unit that a fault has made suspect (R141, R404). -/
def State.settleAll : List (UnitKind × Nat × Nat) → State → State
  | [], s => s
  | e :: rest, s =>
    State.settleAll rest (s.suspectUnit e.1 e.2.1 e.2.2)

def State.settle (s : State) : State := State.settleAll s.suspects { s with suspects := [] }

/-- Why a request for a unit is refused whatever it asks (R412, R423): 0x82 for a unit that the part does not have, 0x87 inside a
domain under recovery, and while no new recovery may start (DESIGN CHOICE, assumption 147). -/
def State.unitRefusal (s : State) (k : UnitKind) (u : Nat) : Nat :=
  if (s.unit k u).state = .off then 0x82 else if s.underRecovery k u ∨ s.recoveryHeld k u then 0x87 else 0

/-- Why a planned fence is refused, 0 when it is not (R411, R412, R42): besides, 0x82 for a unit that is retired, 0x87 under
recovery, 0x81 while a region is missing, 0x82 by FENCE_POLICY. -/
def State.fenceRefusal (s : State) (k : UnitKind) (u policyBit : Nat) : Nat :=
  let st := (s.unit k u).state
  if s.unitRefusal k u ≠ 0 then s.unitRefusal k u
  else if st.gone then 0x82
  else if st.recovering then 0x87
  else if s.beat.missOrder ≠ [] then 0x81
  else if (s.unitRegions k u).all (fun g => match s.img.regions[g]? with | some r => bit r.fencePolicy policyBit | none => false)
    then 0
  else 0x82

/-- The drain limit (R409 step 3). -/
def drainNs : UnitKind → Nat
  | .die => 1000000
  | _ => 100000

/-- Starts a planned fence (R409). -/
def State.planFence (s : State) (k : UnitKind) (u : Nat) (p : FencePurpose) : State :=
  let s1 := s.openFence k u 0 .fencing
  (s1.updDie (dieOfUnit k u) (fun x => { x with
    fences := x.fences ++ [{ kind := k, unit := u, drainUntil := s.mono + nsInst (drainNs k), purpose := p }] })).refreshMissing

/-- A unit on its way through a request: its dump and reset are due, or it is RESETTING. -/
def UnitSt.inReset (u : UnitSt) : Bool := u.state == .resetting || (u.resetReq && (u.state == .fenced || u.state == .suspect))

/-- DIE_RECOV_STATUS.BUSY: a planned fence drains, or a reset of a unit of the die is due or under way. -/
def State.recovBusy (s : State) (d : Nat) : Bool :=
  (s.die d).fences != [] || (s.die d).u.inReset || (enclosed .die d).any (fun e => (s.unit e.1 e.2).inReset)

/-- LAST_STATUS of DIE_RECOV_STATUS. -/
def State.recovStatus (s : State) (d status : Nat) : State := s.updDie d (fun x => { x with recovLast := BitVec.ofNat 8 status })

/-- The register side of a request (R404, DIE_RECOV_CTRL). -/
def State.recovWrite (s : State) (d op : Nat) (k : UnitKind) (loc : Nat) : State :=
  let kc := match k with | .slot => 0 | .cluster => 1 | .region => 2 | .die => 3
  s.updDie d (fun x => { x with recovCtrl := BitVec.ofNat 32 (op * 2 ^ 28 + kc * 2 ^ 26 + loc % 256 * 2 ^ 16) })

end Sys2Proof.Machine
end

