-- ==== Sys2Proof/Machine/Repair.lean ====
section
/-! DEFINITION. Array repair and the repair map (R15, R139, R164 to R166, R424, R425): the choice of a spare, retirement of a
slot, the swap of an Ember, and the map's two flash copies. -/

namespace Sys2Proof.Machine

/-! ### TIL_ARR_REPAIR (R161, R165) -/

/-- The fields of TIL_ARR_REPAIR: the row that each spare row serves, the column that the spare column serves, and the
bad bits. -/
structure ArrRepair where
  a : Option Nat
  b : Option Nat
  c : Option Nat
  aBad : Bool
  bBad : Bool
  cBad : Bool
deriving DecidableEq, Repr

def ArrRepair.ofWord (w : Nat) : ArrRepair :=
  { a := if bit w 23 then some (fld w 22 18) else none, b := if bit w 17 then some (fld w 16 12) else none
    c := if bit w 11 then some (fld w 10 6) else none, aBad := bit w 5, bBad := bit w 4, cBad := bit w 3 }

def ArrRepair.toWord (r : ArrRepair) : Nat :=
  (match r.a with | some x => 2 ^ 23 + x * 2 ^ 18 | none => 0) + (match r.b with | some x => 2 ^ 17 + x * 2 ^ 12 | none => 0) +
    (match r.c with | some x => 2 ^ 11 + x * 2 ^ 6 | none => 0) + atBit r.aBad 5 + atBit r.bBad 4 + atBit r.cBad 3

/-- ROWS_FREE: spare rows neither in service nor bad (TIL_ARR_STATUS). -/
def ArrRepair.rowsFree (r : ArrRepair) : Nat :=
  (if r.a.isNone && !r.aBad then 1 else 0) + (if r.b.isNone && !r.bBad then 1 else 0)

/-- COL_FREE (TIL_ARR_STATUS). -/
def ArrRepair.colFree (r : ArrRepair) : Bool := r.c.isNone && !r.cBad

/-- A spare row serves this row. -/
def ArrRepair.servesRow (r : ArrRepair) (row : Nat) : Bool := r.a == some row || r.b == some row

/-- Takes a free spare row for a row, with ROW_A below ROW_B (R164, R165): spare row A where both are free (DESIGN CHOICE, assumption
145). A row that a spare row serves already needs none. -/
def ArrRepair.addRow (r : ArrRepair) (row : Nat) : Option ArrRepair :=
  if r.servesRow row then some r
  else match r.a, r.b with
  | none, none => if !r.aBad then some { r with a := some row } else if !r.bBad then some { r with b := some row } else none
  | some x, none => if r.bBad then none else some { r with a := some (min x row), b := some (max x row) }
  | none, some x => if r.aBad then none else some { r with a := some (min x row), b := some (max x row) }
  | some _, some _ => none

/-- Takes the spare column (R164); a column that it serves already needs none. -/
def ArrRepair.addCol (r : ArrRepair) (col : Nat) : Option ArrRepair :=
  if r.c = some col then some r else if r.colFree then some { r with c := some col } else none

/-- The repair of one DPU (R164, first row of its table). -/
def ArrRepair.addDpu (r : ArrRepair) (row col : Nat) : Option ArrRepair :=
  if r.c = some col ∨ r.servesRow row then some r
  else match r.addCol col with
    | some x => some x
    | none => r.addRow row

/-- The repair of a fault located in the array; none when the tile is retired (R164). `colFor`: the row of the one DPU for which
the spare column was taken. -/
def ArrRepair.choose (r : ArrRepair) (colFor : Option Nat) : BistFault → Option ArrRepair
  | .none | .memRow _ _ => some r
  | .dpu row col => r.addDpu row col
  | .row row => r.addRow row
  | .col col => r.addCol col
  | .spareRow 0 =>
    let x := { r with a := none, aBad := true }
    match r.a with | some row => x.addRow row | none => some x
  | .spareRow _ =>
    let x := { r with b := none, bBad := true }
    match r.b with | some row => x.addRow row | none => some x
  | .spareCol =>
    let x := { r with c := none, cBad := true }
    match r.c, colFor with
    | none, _ => some x
    | some _, some row => x.addRow row
    | some _, none => none
  | .unrepairable => none

/-- Whether a write of TIL_ARR_REPAIR is refused for its value (R165). -/
def arrRepairBad (w : Nat) : Bool :=
  (bit w 23 && bit w 17 && decide (fld w 16 12 ≤ fld w 22 18)) || (bit w 23 && bit w 5) || (bit w 17 && bit w 4) ||
    (bit w 11 && bit w 3)

/-! ### The repair map (R139, R166) -/

/-- Marks one spare of an array as bad, or lets it serve a row or column (R161, R166). -/
def ArrRepair.apply (r : ArrRepair) (e : RepairEntry) : ArrRepair :=
  let bad := decide (e.row = 0xFFFFFF)
  match e.kind, e.spare with
  | 2, 0 => if bad then { r with a := none, aBad := true } else { r with a := some e.row }
  | 2, _ => if bad then { r with b := none, bBad := true } else { r with b := some e.row }
  | _, _ => if bad then { r with c := none, cBad := true } else { r with c := some e.row }

/-- TIL_ARR_REPAIR of a slot as the repair map gives it (R160, R166): the Pregus die's own copy (R421). -/
def State.mapRepair (s : State) (p : Nat) : Word :=
  BitVec.ofNat 32 ((s.repair.entries.filter (fun e => (e.kind == 2 || e.kind == 3) && e.unit == p)).foldl ArrRepair.apply
    (ArrRepair.ofWord 0)).toWord

/-- TIL_ARR_REPAIR is loaded from the repair map (R160, R416). -/
def State.loadRepair (s : State) (p : Nat) : State := s.updSlot p (fun x => { x with repair := s.mapRepair p })

/-- The entries that take a slot's repair word from `o` to `n` (R166). -/
def repairEntries (p : Nat) (o n : ArrRepair) : List RepairEntry :=
  let e := fun (kind row spare : Nat) => ({ kind := kind, die := p / 20, unit := p, row := row, spare := spare } : RepairEntry)
  let bad := fun (was is : Bool) (kind spare : Nat) => if is && !was then [e kind 0xFFFFFF spare] else []
  let use := fun (was is : Option Nat) (kind spare : Nat) =>
    match is with | some r => if was = some r then [] else [e kind r spare] | none => []
  bad o.aBad n.aBad 2 0 ++ bad o.bBad n.bBad 2 1 ++ bad o.cBad n.cBad 3 0 ++
    use o.a n.a 2 0 ++ use o.b n.b 2 1 ++ use o.c n.c 3 0

/-! ### Retirement and BIST (R16, R138, R425) -/

/-- Slots of a cluster that are neither retired nor absent. -/
def State.healthySlots (s : State) (c : Nat) : Nat :=
  ((List.range 5).filter fun i => !((s.slot (c * 5 + i)).u.state.gone)).length

/-- Retires a slot (R138, R425): SEV-212, or SEV-214 and PERMANENT when fewer than four healthy slots remain. Its commands are
answered as at a fence. -/
def State.retireSlot (s : State) (p cause : Nat) : State :=
  let tag := s.unitTag .slot p
  let s0 := s.answerTiles (s.unitTiles .slot p) 0x80
  let s1 := (s0.setUnit .slot p .retired).updUnit .slot p (fun x => { x with cause := cause, resetReq := false })
  let s2 :=
    if s1.healthySlots (p / 5) < 4 then (s1.updRgnUnit (p / 10) (fun x => { x with permanent := true })).raiseDie (p / 20) 214 (p / 10) 0
    else s1.raiseDie (p / 20) 212 tag 0
  s2.refreshMissing

/-- Spare rows used in a bank of a tile's memory: the TMEM_ROW entries of its slot. -/
def State.tileSpares (s : State) (p bank : Nat) : Nat :=
  (s.repair.entries.filter (fun e => e.kind == 4 && e.unit == p && e.row / 2048 == bank)).length

/-- A row of the tile memory of slot `p` (R137, R138): one of the bank's 8 spares, SEV-060; without one, SEV-061 and the tile is
retired. -/
def State.repairSlotRow (s : State) (p bank row : Nat) : State :=
  let used := s.tileSpares p bank
  let tag := s.unitTag .slot p
  if used < 8 then
    (s.recordRepair { kind := 4, die := p / 20, unit := p, row := bank * 2048 + row, spare := used }).raiseDie (p / 20) 60 tag 0
  else
    let s1 := s.raiseDie (p / 20) 61 tag 0
    if (s.slot p).u.state.gone then s1
    else (if (s.slot p).u.state = .inService ∧ !(s.underRecovery .slot p) then s1.openFence .slot p 61 .suspect else s1).retireSlot p 61

/-- The row of the DPU fault that the spare column repairs from now on. -/
def colForAfter (was : Option Nat) (o n : ArrRepair) : BistFault → Option Nat
  | .dpu row _ => if n.c = o.c then was else some row
  | _ => if n.c = o.c then was else none

/-- A fault located in the array of slot `p` (R164, R425): the repair with SEV-213 and its entries, or the slot's retirement. -/
def State.repairArray (s : State) (p : Nat) (found : BistFault) : State :=
  let x := s.slot p
  let o := ArrRepair.ofWord x.repair.toNat
  match o.choose x.colFor found with
  | none => s.retireSlot p 217
  | some n =>
    let s1 := (s.updSlot p (fun y => { y with repair := BitVec.ofNat 32 n.toWord, colFor := colForAfter y.colFor o n found })).recordRepairs
      (repairEntries p o n)
    if n.a ≠ o.a ∨ n.b ≠ o.b ∨ n.c ≠ o.c then s1.raiseDie (p / 20) 213 (s.unitTag .slot p) 0 else s1

/-- What a BIST located on slot `p` (R164, R424, R425): SEV-217, then the repair. -/
def State.applyBist (s : State) (p : Nat) (found : BistFault) : State :=
  let s1 := s.raiseDie (p / 20) 217 (s.unitTag .slot p) 0
  match found with
  | .none => s
  | .memRow bank row => s1.repairSlotRow p (bank % 32) (row % 2048)
  | f => if (s.slot p).u.state.gone then s1 else s1.repairArray p f

/-! ### The entry test (R375) -/

/-- The entry test of slot `p`: with RESIDUE at 1 for its length, INT8 operand sets drive every column in service, and a column whose
sum is wrong by other than a multiple of 255 and 127 shows (R189, R375). -/
def State.entryTestPasses (s : State) (p : Nat) : Bool :=
  let r := ArrRepair.ofWord (s.slot p).repair.toNat
  (s.slot p).colErr.all fun e =>
    (if e.1 = 32 then r.c.isNone else decide (32 < e.1) || r.c == some e.1) || (e.2 % 255 == 0 && e.2 % 127 == 0)

/-! ### Return (R417) -/

/-- Key of a self-test target in SafetySt.tests (R378). -/
def testKey (t : TestTarget) (unit : Nat) : Nat :=
  (match t with
   | .tileEcc => 0 | .kindling => 1 | .residue => 2 | .ageMonitor => 3 | .checkValue => 4 | .syncDir => 5 | .dieEcc => 6
   | .comparator => 7 | .mirrorChecker => 8 | .checkerEngine => 9) * 256 + unit

/-- The compute-side targets of a unit (R378). -/
def State.unitTests (s : State) (k : UnitKind) (u : Nat) : List Nat :=
  ((s.unitTiles k u).flatMap fun t => [testKey .tileEcc t, testKey .kindling t, testKey .residue t, testKey .ageMonitor t]) ++
    ((s.unitClusters k u).flatMap fun c => [testKey .checkValue c, testKey .syncDir c]) ++
    (match k with | .die => [testKey .dieEcc u] | _ => [])

/-- The self-test rounds of a unit that comes into service begin (R379). -/
def State.startRounds (s : State) (k : UnitKind) (u : Nat) : State :=
  s.updSaf (fun f => { f with tests := (s.unitTests k u).foldl (fun m e => SMap.set (0, 0) m e (0, s.mono)) f.tests })

/-- IN_SERVICE, SEV-210 (R417 step 6); the copies of GEN start again from the island's (R421). -/
def State.bringIn (s : State) (k : UnitKind) (u : Nat) : State :=
  (((s.startRounds k u).setUnit k u .inService).updUnit k u (fun x => { x with
    stage := .tests, sumsDone := [], genHost := x.gen, genPregus := x.gen, genRounds := 0 })).raiseDie
    (dieOfUnit k u) 210 (s.unitTag k u) 0 |>.refreshMissing

/-- The steps of the return are done: the unit may enter service at the first frame boundary at least two beats from now; before
the start, at once (R417 step 6; DEDUCED, assumption 119). -/
def State.readyUnit (s : State) (k : UnitKind) (u : Nat) : State :=
  if !s.started then s.bringIn k u
  else
    s.updUnit k u (fun x => { x with stage := .ready, readyBeat := ceilDiv (s.now - s.t0).toNat (nsInst s.beatNs) + 2 })

/-! ### The Ember (R15, R419) -/

/-- The slots that serve a cluster's indices. -/
def State.servingSlots (s : State) (c : Nat) : List Nat := (SMap.get [0, 1, 2, 3] s.repair.slotOf c).map (· + c * 5)

/-- The cluster's Ember: a slot in service that serves no tile. -/
def State.ember (s : State) (c : Nat) : Option Nat :=
  ((List.range 5).map (· + c * 5)).find? fun p => !((s.servingSlots c).contains p) && (s.slot p).u.state == .inService

/-- A slot waits for the Ember: it is SUSPECT, or in the recovery from a fault, other than by a kill, or retired (R419, R428). -/
def State.wantsEmber (s : State) (p : Nat) : Bool :=
  let u := (s.slot p).u
  match u.state with
  | .suspect | .retired => u.cause != 219
  | .resetting | .testing => u.cause != 0 && u.cause != 219
  | _ => false

/-- Clears what a tile reset clears (R13, R160): HEAD, TAIL and the memory stay. -/
def State.clearTile (s : State) (t : Nat) : State :=
  let s1 := s.updTile t (fun _ => {})
  s1.img.queues.foldl (fun acc a =>
    if tileOfQueue a.queue = t then acc.updQueue a.queue (fun x => { head := x.head, tail := x.tail }) else acc) s1

/-- The Ember takes over logical tile `t` (R15, R134, R419): its memory is zero-filled, the region is TESTING until the host
has restored it, SEV-212. -/
def State.swapEmber (s : State) (t e : Nat) : State :=
  let c := clusterOfTile t
  let slots := (SMap.get [0, 1, 2, 3] s.repair.slotOf c).set (t % 4) (e % 5)
  let s1 := { s with repair := { s.repair with slotOf := SMap.set [0, 1, 2, 3] s.repair.slotOf c slots } }
  let s2 := s1.recordRepair { kind := 1, die := c / 4, unit := c, row := t % 4, spare := e % 5 }
  let s3 := (s2.zeroRange (t * tileSize) tileSize).clearTile t
  ((s3.setUnit .region (c / 2) .testing).updRgnUnit (c / 2) (fun x => { x with stage := .restore, sumsDone := [] })).raiseDie
    (c / 4) 212 t 0

/-- An Ember that fails its entry test does not enter service (R375): SEV-016, and it is fenced as SUSPECT. -/
def State.emberFails (s : State) (e : Nat) : State := (s.raiseDie (e / 20) 16 (s.unitTag .slot e) 0).suspectUnit .slot e 16

/-- The swap that a logical tile is owed at a frame boundary (R375, R419). A slot that has passed its tests and serves no tile any
more returns as the cluster's spare (R417, R425). -/
def State.swapTile (s : State) (t : Nat) : State :=
  let p := s.slotOfTile t
  if !(s.wantsEmber p) ∨ s.underRecovery .slot p then s
  else match s.ember (clusterOfTile t) with
    | none => s
    | some e =>
      if !(s.entryTestPasses e) then s.emberFails e
      else
        let s1 := s.swapEmber t e
        if (s1.slot p).u.state = .testing ∧ (s1.slot p).u.stage ≠ .tests then s1.readyUnit .slot p else s1

/-- Every swap due at a frame boundary. -/
def State.swapAll (s : State) : State := ((List.range s.part.tiles).foldl State.swapTile s).refreshMissing

end Sys2Proof.Machine
end

