-- ==== Sys2Proof/Machine/Ash.lean ====
section
/-! DEFINITION. The Ash log's flash mirror and its reads (R384, R387). -/

namespace Sys2Proof.Machine

def ashMirror : Nat := 0x3000000

/-- Pages of the mirror: the flash of 64 MiB above 0x0300_0000 (R438; DESIGN CHOICE, assumption 28). -/
def ashPages : Nat := 4096

/-- Erases flash bytes: they then read 0xFF. -/
def State.flashErase (s : State) (a n : Nat) : State := { s with flash := clearRange s.flash a n }

/-- Flash bytes. -/
def State.flashBytes (s : State) (a n : Nat) : List Byte := (List.range n).map fun i => SMap.get 0xFF s.flash (a + i)

/-- Programs one page of up to 64 entries; the first page of a 64 KiB sector erases the sector first (R384). -/
def State.ashProgram (s : State) : State :=
  let p := s.ash.mirrorPage
  let es := s.ash.page.take 64
  let s1 := if p % 16 = 0 then s.flashErase (ashMirror + p * 4096) 65536 else s
  (s1.flashPut (ashMirror + p * 4096) (es.flatMap id)).updAsh (fun a => { a with
    page := a.page.drop 64, pageAt := s.mono, mirrorPage := (p + 1) % ashPages })

/-- ASH_MIRROR_PROGRAM (R384): a full page, or one second after its first entry. -/
def execAshMirrorProgram (s : State) : Host.Outcome State Fault Refusal :=
  .next (if 64 ≤ s.ash.page.length ∨ (s.ash.page ≠ [] ∧ s.ash.pageAt + nsInst (10 ^ 9) ≤ s.mono) then s.ashProgram else s)

/-- ASH_FETCH (R387): the write of SAF_ASH_SEL[1] starts the fetch. -/
def execAshFetch (hi : Word) (s : State) : Host.Outcome State Fault Refusal :=
  .next (s.updAsh (fun a => { a with selHi := hi, rdBusy := true }))

/-- An entry passes its CRC (R385). -/
def ashEntryOk (e : List Byte) : Bool :=
  decide (e.length = 64) && leAt e 62 2 == crc16Fold (leAt e 0 8) (e.take 62)

/-- Addresses of the mirror's entry slots that hold a byte. -/
def State.mirrorSlots (s : State) : List Nat :=
  ((s.flash.filter fun e => decide (ashMirror ≤ e.1 ∧ e.1 < ashMirror + ashPages * 4096)).map (fun e => e.1 / 64 * 64)).eraseDups

/-- The entries of the mirror that pass their CRC. -/
def State.mirrorEntries (s : State) : List (List Byte) :=
  (s.mirrorSlots.map fun a => s.flashBytes a 64).filter ashEntryOk

/-- ASH_FETCH_COMPLETE (R387): from the ring, else from the mirror, else gone. -/
def State.ashFetched (s : State) : State :=
  let a := s.ash
  let seq := a.selLo.toNat + 2 ^ 32 * a.selHi.toNat
  if !a.rdBusy then s
  else if seq < a.head.toNat ∧ a.head.toNat ≤ seq + 131072 ∧ leAt (SMap.get [] a.ring (seq % 131072)) 0 8 = seq ∧
      SMap.get [] a.ring (seq % 131072) ≠ [] then
    s.updAsh (fun a => { a with rdBusy := false, rdGone := false, rdFlash := false, data := SMap.get [] a.ring (seq % 131072) })
  else match s.mirrorEntries.find? (fun e => leAt e 0 8 == seq) with
    | some e => s.updAsh (fun a => { a with rdBusy := false, rdGone := false, rdFlash := true, data := e })
    | none => s.updAsh (fun a => { a with rdBusy := false, rdGone := true, rdFlash := false, data := [] })

def execAshFetchComplete (s : State) : Host.Outcome State Fault Refusal := .next s.ashFetched

/-- The page of the mirror that follows the page of its newest entry: the one that is programmed next (R384). -/
def State.mirrorPageNext (s : State) : Nat :=
  let newest := s.mirrorSlots.foldl (fun (m : Option (Nat × Nat)) a =>
    let e := s.flashBytes a 64
    let seq := leAt e 0 8
    match m with
    | some x => if ashEntryOk e && decide (x.1 < seq) then some (seq, a) else m
    | none => if ashEntryOk e then some (seq, a) else none) none
  match newest with
  | some x => ((x.2 - ashMirror) / 4096 + 1) % ashPages
  | none => 0

/-- The restore at start-up (R384): the newest mirror entries go into the ring, the next entry takes the highest SEQ plus 1, and the
mirror goes on after its newest page. -/
def State.ashRestore (s : State) : State :=
  let es := s.mirrorEntries
  let top := es.foldl (fun m e => max m (leAt e 0 8 + 1)) 0
  let ring := es.foldl (fun m e => if top ≤ leAt e 0 8 + 131072 then SMap.set [] m (leAt e 0 8 % 131072) e else m) s.ash.ring
  s.updAsh (fun a => { a with ring := ring, mirrorPage := s.mirrorPageNext, head := BitVec.ofNat 64 (max a.head.toNat top) })

end Sys2Proof.Machine
end

