-- ==== Sys2Proof/Machine/Recovery.lean ====
section
/-! DEFINITION. Recovery (16_fault_containment_and_repair.md): retirement, hangs, dumps, resets, the return to service, kills,
reconciliation, the Die Controller processors and aging. -/

namespace Sys2Proof.Machine

/-- COMMAND_RETIRE (R83); units that the command's accesses made suspect are fenced afterwards (R141). -/
def execCommandRetire (q : Nat) (cycles : Word) (s : State) : Host.Outcome State Fault Refusal :=
  .next (s.commandRetire q cycles.toNat).settle

/-! ### Hangs (R405 to R408) -/

/-- Cycles after which a command is hung (R405, TIL_WDOG). -/
def watchdogLimit (t : TileSt) (f : InFlight) : Nat :=
  if f.desc.budget = 0 then t.limit.toNat * 4096 else t.hangMult.toNat * f.desc.budget.toNat

/-- A command that an engine of a tile holds: it runs, or waits for an acknowledgement. -/
def InFlight.heldIn (f : InFlight) (tile engine : Nat) : Bool :=
  f.tile == tile && f.engine == some engine && (!f.executed || f.acksDue != 0)

/-- An engine abort (R406): every command that the engine holds ends with 0x85; its Kindling, the ME's weight sets in staging and in
the shadow registers among it, is discarded, and what those commands have under way is recalled (R85). -/
def State.abortEngine (s : State) (tile engine : Nat) : State :=
  let cmds := s.queues.flatMap fun e => (e.2.inflight.filter (·.heldIn tile engine)).map fun f => (e.1, f.pos.toNat)
  let s1 := s.liveAllocs.foldl (fun acc a => acc.updQueue a.queue (fun x => { x with
    inflight := x.inflight.map (fun f =>
      if f.heldIn tile engine then { f with status := 0x85, executed := true, acksDue := 0, sigDone := true } else f) })) s
  let s2 := s1.recallMessages cmds (List.range s.part.tiles)
  (s2.updTile tile (fun x => { x with
    aborts := satInc x.aborts, kindBad := x.kindBad.filter (· != engine), shadow := if engine = 0 then [] else x.shadow })).raiseDie
    (dieOfTile tile) 201 tile 0x85

/-- ENGINE_WATCHDOG (R405, R406): the oldest command in flight of queue `q` has run for `cycles`. -/
def State.engineWatchdog (s : State) (q cycles : Nat) : State :=
  match (s.queue q).inflight.find? (fun f => !f.executed || f.acksDue != 0) with
  | none => s
  | some f => match f.engine with
    | some e => if watchdogLimit (s.tile f.tile) f < cycles then s.abortEngine f.tile e else s
    | none => s

def execEngineWatchdog (q : Nat) (cycles : Word) (s : State) : Host.Outcome State Fault Refusal :=
  .next (s.engineWatchdog q cycles.toNat)

/-- A unit in whose state a hang is declared: it runs, drains, is fenced as planned, or is being restored (R404, R405). -/
def UnitState.canHang (st : UnitState) : Bool := st == .inService || st == .fencing || st == .fenced || st == .testing

/-- A hang of a unit: its event, then the fault fence (R405, R412). -/
def State.hang (s : State) (k : UnitKind) (u sev : Nat) : State :=
  if (s.unit k u).state.canHang then (s.raiseDie (dieOfUnit k u) sev (s.unitTag k u) 0).suspectUnit k u sev else s

/-- A tile hang (SEV-202) marks the records of the running frame, whether or not a region goes missing by it. -/
def State.tileHang (s : State) (p : Nat) : State :=
  if (s.slot p).u.state.canHang then
    (s.hang .slot p 202).updBeat (fun b => { b with
      invalidBefore := if s.started then max b.invalidBefore (b.frame + 1) else b.invalidBefore })
  else s

/-- TILE_POLL (R405): an answered poll changes nothing. The Die Controller also fences the units that faults have made suspect
(R141). -/
def execTilePoll (die slot : Nat) (answered : Bool) (s : State) : Host.Outcome State Fault Refusal :=
  .next (if answered ∨ 4 ≤ die ∨ 20 ≤ slot then s.settle else s.settle.tileHang (die * 20 + slot))

/-- CLUSTER_HANG (R405). -/
def execClusterHang (cluster : Nat) (s : State) : Host.Outcome State Fault Refusal :=
  .next (if cluster < 16 then s.hang .cluster cluster 203 else s)

/-- REGION_HANG (R405): the two conditions of the region level. -/
def execRegionHang (region : Nat) (cause : HangCause) (s : State) : Host.Outcome State Fault Refusal :=
  .next (match cause with
    | .bothClusters | .peatPort => if region < 8 then s.hang .region region 204 else s
    | _ => s)

/-- DIE_HANG (R405): the three conditions of the die level. -/
def execDieHang (die : Nat) (cause : HangCause) (s : State) : Host.Outcome State Fault Refusal :=
  .next (match cause with
    | .controllers | .fabric | .pll => if die < 4 then s.hang .die die 206 else s
    | _ => s)

/-- A link that fails after the reset of its die: the die stays SUSPECT, SEV-207 (R408). -/
def State.linkStillFails (s : State) (d : Nat) : State :=
  match (s.die d).u.state with
  | .resetting | .testing =>
    ((s.setUnit .die d .suspect).updUnit .die d (fun x => { x with cause := 207, resetReq := false })).raiseDie d 207 d 0
  | _ => s

/-- LINK_TIMEOUT (R405, R408): the Pregus link of `die`, or its ring link to the next die; the first failure resets the die
at the link's end. -/
def execLinkTimeout (die : Nat) (isRing stillFails : Bool) (s : State) : Host.Outcome State Fault Refusal :=
  let d := if isRing then (die + 1) % 4 else die
  .next (if 4 ≤ die then s else if stillFails then s.linkStillFails d else s.suspectUnit .die d 207)

/-- LONG_WAIT (R407): the head command of a beat-released queue has waited for more than two frames. -/
def execLongWait (q : Nat) (s : State) : Host.Outcome State Fault Refusal :=
  let x := s.queue q
  .next (match s.alloc q, x.waitSince with
    | some a, some t =>
      if x.wait ∧ !a.doorbellOnly ∧ !x.longRaised ∧ t + nsInst (2 * s.frameNs) < s.mono then
        (s.updQueue q (fun y => { y with longRaised := true })).raise 220 (tileOfQueue q) 0
      else s
    | _, _ => s)

/-! ### The end of a drain (R409, R424, R442) -/

/-- A staging that has succeeded (R442): its STAGED bit and vector 5. -/
def State.stageEnd (s : State) (bits : Nat) : State :=
  (s.updUpd (fun x => { x with staged := x.staged ||| BitVec.ofNat 14 bits, last := 0 })).msix 5

/-- The end of one planned fence: what is still in flight is answered with 0x80, then the unit is FENCED; a fence for BIST
goes on to the reset, one for an update to the restore. -/
def State.drainEnd (s : State) (d : Nat) (f : FenceReq) : State :=
  let s1 := (s.answerTiles (s.unitTiles f.kind f.unit) 0x80).updDie d (fun x => { x with fences := x.fences.filter (· != f) })
  match f.purpose with
  | .repair => s1.setUnit f.kind f.unit .fenced
  | .bist => (s1.setUnit f.kind f.unit .fenced).updUnit f.kind f.unit (fun x => { x with resetReq := true })
  | .update =>
    ((s1.setUnit f.kind f.unit .testing).updUnit f.kind f.unit (fun x => { x with stage := .restore })).stageEnd
      (0x40 * 2 ^ f.unit)

/-- FENCE_DRAIN_END (R409): the first planned fence of the die whose drain limit has passed. -/
def execFenceDrainEnd (die : Nat) (s : State) : Host.Outcome State Fault Refusal :=
  .next (match (s.die die).fences.find? (fun f => decide (f.drainUntil ≤ s.mono)) with
    | some f => s.drainEnd die f
    | none => s)

/-! ### Dumps (R414, R415) -/

/-- A queue entry of a dump. -/
def State.dumpQueue (s : State) (q : Nat) : List Byte :=
  let x := s.queue q
  let d := match s.alloc q with
    | some a => if x.head = x.tail then ({} : Desc) else Desc.parse (s.descAt a x.head.toNat)
    | none => ({} : Desc)
  leBytes 2 x.head.toNat ++ leBytes 2 x.tail.toNat ++ leBytes 1 x.credit.toNat ++
    leBytes 1 (atBit x.err 7 + atBit x.wait 6 + x.inflight.length % 8) ++ leBytes 2 d.seq.toNat ++
    leBytes 4 (if x.wait then d.waitValue.toNat else 0) ++ leBytes 1 x.lastStatus.toNat ++ zeros 3

/-- The commands that an engine of a tile holds, with their queues, the oldest first. -/
def State.heldBy (s : State) (tile engine : Nat) : List (Nat × InFlight) :=
  ((s.queues.flatMap fun e => (e.2.inflight.filter fun f => f.tile == tile && f.engine == some engine).map fun f => (e.1, f))).mergeSort
    (fun x y => decide (x.2.order ≤ y.2.order))

/-- An engine snapshot; CYCLES so far is a free value. -/
def State.dumpEngine (s : State) (draw tile engine : Nat) : List Byte :=
  match s.heldBy tile engine with
  | [] => zeros 64
  | (q, f) :: _ =>
    leBytes 2 q ++ leBytes 2 f.desc.seq.toNat ++ leBytes 4 (Config.freeNat draw % 2 ^ 32) ++ leBytes 1 f.desc.opcode.toNat ++ zeros 55

def State.dumpTile (s : State) (draw t : Nat) : List Byte :=
  ((List.range 512).flatMap fun l => s.dumpQueue (t * 512 + l)) ++ (List.range 4).flatMap fun e => s.dumpEngine draw t e

/-- The sync counts of a cluster and its router snapshot, whose contents are free. -/
def State.dumpCluster (s : State) (draw c : Nat) : List Byte :=
  ((List.range 2048).flatMap fun n => leBytes 4 (s.syncCount c n).toNat) ++ (List.range 64).map (Config.freeByte draw)

/-- Fields that cannot be read from a hung island are zero (R414). -/
def zeroIf (hung : Bool) (b : List Byte) : List Byte := if hung then zeros b.length else b

/-- The body of a dump (R415): each active tile of the unit, and after the tiles of each cluster its directory and router. The hung
islands are those of the logical tiles and of the clusters named. -/
def State.dumpBody (s : State) (draw : Nat) (k : UnitKind) (u : Nat) (hungTiles hungClusters : List Nat) : List Byte :=
  let tile := fun t => zeroIf (hungTiles.contains t) (s.dumpTile draw t)
  match k with
  | .slot => (s.unitTiles .slot u).flatMap tile
  | _ => (s.unitClusters k u).flatMap fun c =>
      ((List.range 4).flatMap fun i => tile (c * 4 + i)) ++ zeroIf (hungClusters.contains c) (s.dumpCluster draw c)

/-- A dump is PARTIAL when an island of the unit cannot be read (R414). -/
def State.dumpPartial (s : State) (k : UnitKind) (u : Nat) (hungTiles hungClusters : List Nat) : Bool :=
  (s.unitTiles k u).any hungTiles.contains || (s.unitClusters k u).any hungClusters.contains

/-- UNIT of a dump (R415): the logical tile, the global cluster, the global region or the die. -/
def State.dumpTag (s : State) (k : UnitKind) (u : Nat) : Nat :=
  match k with
  | .slot => (s.unit k u).fencedTag
  | _ => u

/-- KIND of a dump (R415). -/
def dumpKind : UnitKind → Nat
  | .slot => 1
  | .cluster => 2
  | .region => 3
  | .die => 4

/-- A dump (R415). -/
def dumpBytes (k : UnitKind) (tag : Nat) (u : UnitSt) (isPartial : Bool) (seq : Nat) (body : List Byte) : List Byte :=
  let h := leBytes 4 0x504D4451 ++ leBytes 2 0x0100 ++ leBytes 1 (dumpKind k) ++ leBytes 1 tag ++ leBytes 2 u.cause ++
    leBytes 1 (atBit isPartial 0) ++ zeros 1 ++ leBytes 4 (64 + body.length) ++ stampBytes u.fencedAt ++ leBytes 4 seq ++
    leBytes 8 u.fencedBeat ++ zeros 16
  h ++ leBytes 8 (crc 5 (h ++ body)) ++ body

/-- Address of the dump ring, when DIE_DUMP_BASE is valid (R414). -/
def State.dumpBase (s : State) (d : Nat) : Option Nat :=
  let lo := (s.die d).dumpLo.toNat
  let a := lo / 2 ^ 21 * 2 ^ 21 + (s.die d).dumpHi.toNat % 2 ^ 16 * 2 ^ 32
  if !(bit lo 0) then none
  else match s.img.carveAt a with
    | some c => if c.dram ∧ c.owner = 0xF0 ∧ a + 0x200000 ≤ c.base + c.size then some a else none
    | none => none

/-- The summary entry of a dump (R385, KIND 5). -/
def State.dumpSummary (s : State) (k : UnitKind) (u status seq : Nat) : State :=
  let x := s.unit k u
  s.updAsh (fun a => a.append s.mono x.fencedAt 5 status 0 x.fencedTag 1
    (leBytes 1 (dumpKind k) ++ leBytes 1 (s.dumpTag k u) ++ leBytes 2 x.cause ++ leBytes 4 seq))

/-- Writes the dump of a unit (R414); SEV-218 when it is PARTIAL or not written. -/
def State.writeDump (s : State) (k : UnitKind) (u : Nat) (hungTiles hungClusters : List Nat) : State :=
  let d := dieOfUnit k u
  let tag := (s.unit k u).fencedTag
  let isPartial := s.dumpPartial k u hungTiles hungClusters
  let seq := (s.die d).dumpSeq.toNat
  match s.dumpBase d with
  | none => ((s.recovStatus d 0x86).dumpSummary k u 0x86 seq).raiseDie d 218 tag 0x86
  | some base =>
    let r := s.draw
    let b := dumpBytes k (s.dumpTag k u) (s.unit k u) isPartial seq (s.dumpBody r.1 k u hungTiles hungClusters)
    let s1 := (r.2.put (base + seq % 8 * 0x40000) b).updDie d (fun x => { x with dumpSeq := x.dumpSeq + 1 })
    let s2 := s1.dumpSummary k u 0 seq
    if isPartial then s2.raiseDie d 218 tag 0 else s2

/-! ### Resets (R13, R14, R21, R416) -/

/-- Clears a cluster: sync objects, CVU (R14, R416). -/
def State.clearCluster (s : State) (c : Nat) : State := s.updCluster c (fun _ => {})

/-- The units of one die with their own registers reset (R416): what is kept stays, in the port its training with the packets that are
on the link. -/
def DieSt.clear (x : DieSt) (now : Instant) (tick : Nat) : DieSt :=
  { x with
    peat := { rowsUsed := x.peat.rowsUsed, banksUsed := x.peat.banksUsed }
    dec := {}
    follower := { valid := false, lastWord := now, baseTick := tick }
    clkWerr := false, clkMod := 1, sscOff := false, clkPending := none
    tjMax := 0, fNom := 1000, riseRun := 0, bad3 := false, overFlag := false, overAt := none, sens := [], sampled := false
    tripped := x.tripOff
    port := { x.port with inbox := [], outstanding := [], txWait := [] } }

/-- What a die reset does beside its clusters (R21, R416, R483): Peat carve-outs zero-filled, pipelines, receivers, decoder and
follower cleared; requests outstanding through its port are lost. -/
def State.clearDie (s : State) (d : Nat) : State :=
  let out := (s.port d).outstanding
  let s1 := s.updDie d (fun x => x.clear s.mono s.tb.ticks)
  let s2 := s1.zeroRange (peatBase + d * peatSize) peatSize
  let s3 := { s2 with peatDirty := s2.peatDirty.filter (fun e => !(decide (peatBase + d * peatSize ≤ e.1 * 64 ∧
    e.1 * 64 < peatBase + (d + 1) * peatSize))) }
  let s4 := (List.range 3).foldl (fun acc i => acc.updChan (d * 3 + i) (fun x => { x with
    last := 0, linkRetry := 0, ue := 0, refresh2x := false, linkBad := 0 })) s3
  let s5 := (List.range 4).foldl (fun acc i => (acc.updPipe (d * 4 + i) (fun _ => {}))) s4
  let s6 := (List.range 8).foldl (fun acc i => (acc.updFacet (d * 8 + i) (fun _ => {}))) s5
  let s7 := s.img.cameraBinds.foldl (fun acc b => if b.receiver / 2 = d then acc.updCam b.camera (fun _ => {}) else acc) s6
  let s8 := (List.range 20).foldl (fun acc i => acc.updSlot (d * 20 + i) (fun x => { x with drift := 0, retire := false, warn := false })) s7
  s8.loseOutstanding d out

/-- The physical slots of a unit. -/
def unitSlots (k : UnitKind) (u : Nat) : List Nat :=
  match k with
  | .slot => [u]
  | .cluster => (List.range 5).map (· + 5 * u)
  | .region => (List.range 10).map (· + 10 * u)
  | .die => (List.range 20).map (· + 20 * u)

/-- What the reset of a unit clears (R416); TIL_ARR_REPAIR is loaded again from the repair map (R160). -/
def State.clearUnit (s : State) (k : UnitKind) (u : Nat) : State :=
  let s1 := (unitSlots k u).foldl State.loadRepair ((s.unitTiles k u).foldl State.clearTile s)
  match k with
  | .slot => s1
  | .cluster => s1.clearCluster u
  | .region => ((s1.clearCluster (2 * u)).clearCluster (2 * u + 1)).updRegion u (fun _ => {})
  | .die =>
    let s2 := (List.range 4).foldl (fun acc i => acc.clearCluster (4 * u + i)) s1
    ((s2.updRegion (2 * u) (fun _ => {})).updRegion (2 * u + 1) (fun _ => {})).clearDie u

/-- The unit of a die whose dump is due: fenced with a reset to follow (R414). -/
def State.dumpDue (s : State) (d : Nat) : Option (UnitKind × Nat) :=
  ((UnitKind.die, d) :: (enclosed .die d)).find? fun e =>
    let x := s.unit e.1 e.2
    x.resetReq && (x.state == .fenced || x.state == .suspect)

/-- A die that has no power is powered up as part of its reset (R492, R493). -/
def State.powerForReset (s : State) (k : UnitKind) (u : Nat) : State :=
  match k with
  | .die =>
    if (s.die u).pgood then s else s.updDie u (fun x => { x with pwrEn := true, pwrAt := s.mono, tripOff := false })
  | _ => s

/-- DUMP_WRITE (R414, R416): the dump of a fenced unit is written, and its reset begins. -/
def State.dumpWrite (s : State) (d : Nat) (hungTiles hungClusters : List Nat) : State :=
  match s.dumpDue d with
  | none => s
  | some (k, u) =>
    let s1 := s.writeDump k u hungTiles hungClusters
    let s2 := (s1.absorb k u).setUnit k u .resetting
    ((s2.updUnit k u (fun x => { x with resetReq := false, stage := .tests })).clearUnit k u).powerForReset k u

def execDumpWrite (die : Nat) (hung : HungParts) (s : State) : Host.Outcome State Fault Refusal :=
  .next (s.dumpWrite die hung.tiles hung.clusters)

/-! ### Tests and return (R375, R376, R417) -/

/-- A failure at steps 2 to 5 of R417: SUSPECT, status 0x83, SEV-211. -/
def State.failUnit (s : State) (k : UnitKind) (u : Nat) : State :=
  ((s.setUnit k u .suspect).updUnit k u (fun x => { x with resetReq := false, sumsDone := [] })).recovStatus (dieOfUnit k u) 0x83
    |>.raiseDie (dieOfUnit k u) 211 (s.unitTag k u) 0x83

/-- BIST of the slots of a unit that are not retired: what it located on each, by die-local slot (R164, R424, R425). -/
def State.bistUnit (s : State) (k : UnitKind) (u : Nat) (found : List (Nat × BistFault)) : State :=
  found.foldl (fun acc e =>
    let p := dieOfUnit k u * 20 + e.1
    if e.1 < 20 ∧ (unitSlots k u).contains p ∧ !((acc.slot p).u.state.gone) then acc.applyBist p e.2 else acc) s

/-- Zero-fills every tile of a unit (R134, R417 step 3). -/
def State.zeroTiles (s : State) (ts : List Nat) : State :=
  ts.foldl (fun acc t => (acc.zeroRange (t * tileSize) tileSize).updTile t (fun x => { x with mustZero := false })) s

/-- Every slot of a unit that is not retired passes its entry test (R375). -/
def State.unitPasses (s : State) (k : UnitKind) (u : Nat) : Bool :=
  (unitSlots k u).all fun p => (s.slot p).u.state.gone || s.entryTestPasses p

/-- Steps 1 to 3 of R417 for a unit that is RESETTING. -/
def State.resetComplete (s : State) (k : UnitKind) (u : Nat) (found : List (Nat × BistFault)) (entryTestOk : Bool) : State :=
  let s1 := (s.setUnit k u .testing).updUnit k u (fun x => { x with stage := .tests })
  let s2 := s1.bistUnit k u found
  if (s2.unit k u).state.gone then s2
  else if !entryTestOk ∨ !(s2.unitPasses k u) then (s2.raiseDie (dieOfUnit k u) 16 (s2.unitTag k u) 0).failUnit k u
  else
    let ts := s2.unitTiles k u
    let s3 := s2.zeroTiles ts
    if k = .slot ∧ ts = [] then s3.readyUnit .slot u else s3.updUnit k u (fun x => { x with stage := .restore })

/-- RESET_COMPLETE (R417): the largest unit of the die that is RESETTING; a die waits for its power (R493). -/
def execResetComplete (die : Nat) (found : List (Nat × BistFault)) (entryTestOk : Bool) (s : State) : Host.Outcome State Fault Refusal :=
  let cands := (UnitKind.die, die) :: ([(UnitKind.region, 2 * die), (UnitKind.region, 2 * die + 1)] ++
    ((List.range 4).map fun i => (UnitKind.cluster, 4 * die + i)) ++ ((List.range 20).map fun i => (UnitKind.slot, 20 * die + i)))
  .next (match cands.find? (fun e => (s.unit e.1 e.2).state == .resetting) with
    | some (k, u) => if k = .die ∧ !(s.die die).pgood then s else s.resetComplete k u found entryTestOk
    | none => s)

/-- The checksum entries of a unit, by index (R376, R417 step 5). -/
def State.unitSums (s : State) (k : UnitKind) (u : Nat) : List Nat :=
  match k with
  | .region | .die => (List.range s.img.checker.sums.length).filter fun i =>
      match s.img.checker.sums[i]? with | some e => (s.unitRegions k u).contains e.region | none => false
  | _ => []

/-- RETURN (R417 step 4): legal while the unit's restore runs. -/
def State.returnUnit (s : State) (k : UnitKind) (u : Nat) : State × Nat :=
  let x := s.unit k u
  if s.unitRefusal k u ≠ 0 then (s, s.unitRefusal k u)
  else if x.state ≠ .testing ∨ x.stage ≠ .restore then (s, 0x82)
  else if s.unitSums k u = [] then (s.readyUnit k u, 0)
  else (s.updUnit k u (fun y => { y with stage := .checks, sumsDone := [] }), 0)

/-- Units in their order: slots, clusters, regions, dies (R421). -/
def allUnits : List (UnitKind × Nat) :=
  ((List.range 80).map fun i => (UnitKind.slot, i)) ++ ((List.range 16).map fun i => (UnitKind.cluster, i)) ++
    ((List.range 8).map fun i => (UnitKind.region, i)) ++ ((List.range 4).map fun i => (UnitKind.die, i))

/-- The returns due at the frame boundary of beat `n` (R412, R417). -/
def State.returnsAt (s : State) (n : Nat) : State :=
  allUnits.foldl (fun acc e =>
    let x := acc.unit e.1 e.2
    if x.state = .testing ∧ x.stage = .ready ∧ x.readyBeat ≤ n then acc.bringIn e.1 e.2 else acc) s

/-- Slots whose aging monitor has set RETIRE are taken out at the frame boundary (R426). -/
def State.agingAt (s : State) : State :=
  (List.range 80).foldl (fun acc p =>
    if (acc.slot p).retire ∧ (acc.slot p).u.state = .inService ∧ !(acc.underRecovery .slot p) then
      (acc.openFence .slot p 216 .suspect).retireSlot p 216
    else acc) s

/-! ### Requests of DIE_RECOV_CTRL (R409, R411, R416, R417, R424) -/

/-- A request for a unit of a die: the register takes OP, KIND and UNIT, and the status answers (0x82 for a unit that the level
does not have). -/
def State.request (s : State) (d op : Nat) (k : UnitKind) (loc : Nat) (f : State → Nat → State × Nat) : State :=
  if 4 ≤ d then s
  else
    let s1 := s.recovWrite d op k loc
    if unitsPerDie k ≤ loc then s1.recovStatus d 0x82
    else
      let r := f s1 (d * unitsPerDie k + loc)
      r.1.recovStatus d r.2

/-- A planned fence, unless refused (R409, R411). -/
def State.fenceRequest (s : State) (k : UnitKind) (p : FencePurpose) (policyBit u : Nat) : State × Nat :=
  let st := s.fenceRefusal k u policyBit
  if st ≠ 0 then (s, st) else (s.planFence k u p, 0)

def State.askFence (s : State) (die : Nat) (kind : UnitKind) (unit : Nat) : State :=
  s.request die 0 kind unit fun s u => s.fenceRequest kind .repair 0 u

/-- FENCE (R409). -/
def execFence (die : Nat) (kind : UnitKind) (unit : Nat) (s : State) : Host.Outcome State Fault Refusal := .next (s.askFence die kind unit)

def State.askBist (s : State) (die : Nat) (kind : UnitKind) (unit : Nat) : State :=
  s.request die 4 kind unit fun s u => s.fenceRequest kind .bist 0 u

/-- BIST (R411, R424): the region is fenced for maintenance, then reset and tested. -/
def execBist (die : Nat) (kind : UnitKind) (unit : Nat) (s : State) : Host.Outcome State Fault Refusal := .next (s.askBist die kind unit)

/-- Why a tripped die may not be restarted (R504): less than 1 s since the trip, or three trips within 3,600 s. -/
def State.restartRefused (s : State) (d : Nat) : Bool :=
  (s.die d).tripOff &&
    (decide (s.mono < (s.die d).trips.headD 0 + nsInst (10 ^ 9)) ||
      (match (s.die d).trips with
       | t :: _ :: t3 :: _ => decide (t ≤ t3 + nsInst (3600 * 10 ^ 9))
       | _ => false))

/-- RESET (R412, R414, R416, R504): a unit that is FENCED or SUSPECT is dumped and reset. -/
def State.resetRequest (s : State) (k : UnitKind) (u : Nat) : State × Nat :=
  let st := (s.unit k u).state
  if s.unitRefusal k u ≠ 0 then (s, s.unitRefusal k u)
  else if st ≠ .fenced ∧ st ≠ .suspect then (s, 0x82)
  else if k = .die ∧ s.restartRefused u then (s, 0x82)
  else (s.updUnit k u (fun x => { x with resetReq := true }), 0)

def State.askReset (s : State) (die : Nat) (kind : UnitKind) (unit : Nat) : State :=
  s.request die 1 kind unit fun s u => s.resetRequest kind u

def execReset (die : Nat) (kind : UnitKind) (unit : Nat) (s : State) : Host.Outcome State Fault Refusal := .next (s.askReset die kind unit)

def State.askReturn (s : State) (die : Nat) (kind : UnitKind) (unit : Nat) : State :=
  s.request die 2 kind unit fun s u => s.returnUnit kind u

/-- RETURN (R417). -/
def execRet (die : Nat) (kind : UnitKind) (unit : Nat) (s : State) : Host.Outcome State Fault Refusal := .next (s.askReturn die kind unit)

/-! ### Kill (R134 to R136, R428) -/

/-- Tags a carve-out dirty: lines of 64 bytes in Peat, blocks of 4 KiB in DRAM (R135, R136). -/
def State.tagCarve (s : State) (c : Carveout) : State :=
  if c.dram then
    { s with dramDirty := (List.range (c.size / 4096)).foldl (fun m i => SMap.set false m (c.base / 4096 + i) true) s.dramDirty }
  else
    { s with peatDirty := (List.range (c.size / 64)).foldl (fun m i => SMap.set false m (c.base / 64 + i) true) s.peatDirty }

/-- The carve-out IDs of DIE_KILL_CARVE that are not 0xFFFF. -/
def DieSt.killIds (x : DieSt) : List Nat :=
  ((List.range 4).flatMap fun i =>
    let w := (SMap.get 0xFFFFFFFF x.killCarve i).toNat
    [w % 2 ^ 16, w / 2 ^ 16]).filter (· != 0xFFFF)

/-- The queues of a killed tile set HEAD = TAIL; what is in flight ends without an entry (R428). -/
def State.killQueues (s : State) (t : Nat) : State :=
  s.img.queues.foldl (fun acc a =>
    if tileOfQueue a.queue = t then
      acc.updQueue a.queue (fun x => { x with head := x.tail, inflight := [], wait := false, waitSince := none, longRaised := false })
    else acc) s

/-- Fences and tags of a kill. -/
def State.killTile (s : State) (t : Nat) : State :=
  let p := s.slotOfTile t
  let s1 := ((s.killQueues t).openFence .slot p 219 .suspect).answerTiles [t] 0x80
  s1.updTile t (fun x => { x with mustZero := true })

/-- KILL (R428): tiles and carve-outs of one region; anything else is refused with 0x84. -/
def State.killRequest (s : State) (d : Nat) : State × Nat :=
  let x := s.die d
  let g := 2 * d + fld x.kill.toNat 8 8
  let tiles := ((List.range 8).filter (fun i => bit x.kill.toNat i)).map (· + 8 * g)
  let ids := x.killIds
  if s.part.regions ≤ g ∨ ids.any (fun i => match s.img.carve i with | some c => c.owner != g | none => true) then (s, 0x84)
  else if (s.rgnUnit g).state.recovering ∨ s.unitRefusal .region g ≠ 0 ∨ tiles.any (fun t => !(s.tileInService t)) then (s, 0x87)
  else
    let s1 := tiles.foldl State.killTile s
    let s2 := ids.foldl (fun acc i => match s.img.carve i with | some c => acc.tagCarve c | none => acc) s1
    ((s2.refreshMissing).raiseDie d 219 g 0, 0)

/-- A KILL names its tiles in DIE_KILL: KIND and UNIT of DIE_RECOV_CTRL stay as they are. -/
def State.askKill (s : State) (die : Nat) : State :=
  if 4 ≤ die then s
  else
    let s1 := s.updDie die (fun x => { x with recovCtrl := BitVec.ofNat 32 (3 * 2 ^ 28 + x.recovCtrl.toNat % 2 ^ 28) })
    let r := s1.killRequest die
    r.1.recovStatus die r.2

def execKill (die : Nat) (s : State) : Host.Outcome State Fault Refusal := .next (s.askKill die)

/-! ### Queue and array registers (R85, R165, R168) -/

/-- RESUME (R85, TIL_QCTRL): DISCARD takes its bit, RESUME_ERR is cleared by its bit, then RESUME acts. Ignored at a fenced tile
(R409). -/
def State.resumeQueue (s : State) (q value : Nat) : State :=
  if s.part.queues ≤ q then s
  else if !(s.tileOpen (tileOfQueue q)) then s.dropAt (dieOfTile (tileOfQueue q))
  else
    let s1 := s.updQueue q (fun x => { x with discard := bit value 30, resumeErr := x.resumeErr && !(bit value 29) })
    if !(bit value 31) then s1
    else if (s.queue q).inflight ≠ [] ∨ !(s.tileInService (tileOfQueue q)) then s1.updQueue q (fun x => { x with resumeErr := true })
    else s1.updQueue q (fun x => { x with err := false, head := if x.discard then x.tail else x.head })

def execResume (q : Nat) (value : Word) (s : State) : Host.Outcome State Fault Refusal := .next (s.resumeQueue q value.toNat)

/-- BUSY_CLR (R168). -/
def execBusyClr (tile : Nat) (s : State) : Host.Outcome State Fault Refusal :=
  .next (if s.part.tiles ≤ tile then s
    else if s.tileOpen tile then s.updTile tile (fun x => { x with busy := 0 }) else s.dropAt (dieOfTile tile))

/-- TIL_ARR_STATUS.HELD: HOLD is 1 and the ME holds no command. -/
def State.arrHeld (s : State) (t : Nat) : Bool := (s.tile t).hold && s.engineLoad t 0 == 0

/-- A write of TIL_ARR_REPAIR (R165): by the Die Controller only, while HELD, and with legal contents. -/
def State.writeRepair (s : State) (agent : Agent) (t w : Nat) : State :=
  match agent with
  | .dieController =>
    if !(s.arrHeld t) ∨ arrRepairBad w then s.updTile t (fun x => { x with repairWerr := true })
    else s.updSlot (s.slotOfTile t) (fun x => { x with repair := BitVec.ofNat 32 (w % 2 ^ 24 / 8 * 8) })
  | _ => s

def execTilArrRepairWrite (agent : Agent) (tile : Nat) (value : Word) (s : State) : Host.Outcome State Fault Refusal :=
  .next (if s.part.tiles ≤ tile then s
    else if agent = .host ∧ !(s.tileOpen tile) then s.dropAt (dieOfTile tile)
    else s.writeRepair agent tile value.toNat)

/-! ### Reconciliation, processors, aging (R421 to R426) -/

/-- One unit of a reconciliation round (R412, R421): its state beside the host view and the Pregus copy, a slot's TIL_ARR_REPAIR beside
the repair map, and the three GEN values. -/
def State.reconcileUnit (s : State) (e : UnitKind × Nat) : State :=
  let x := s.unit e.1 e.2
  let mismatch := fun (t : State) =>
    (t.raiseAt 208 (t.unitTag e.1 e.2) 0x86 t.stamp []).suspectUnit e.1 e.2 208
  if x.state ≠ .inService then s
  else if x.hostView ≠ x.state ∨ x.pregusView ≠ x.state ∨ (e.1 = .slot ∧ (s.slot e.2).repair ≠ s.mapRepair e.2) then mismatch s
  else if x.gen = x.genHost ∧ x.gen = x.genPregus then s.updUnit e.1 e.2 (fun y => { y with genRounds := 0 })
  else
    let s1 := s.updUnit e.1 e.2 (fun y => { y with genRounds := y.genRounds + 1 })
    if 3 ≤ x.genRounds + 1 then mismatch s1 else s1

/-- RECONCILE (R421). -/
def execReconcile (s : State) : Host.Outcome State Fault Refusal := .next (allUnits.foldl State.reconcileUnit s)

/-- HEARTBEAT (R423). -/
def execHeartbeat (die : Nat) (s : State) : Host.Outcome State Fault Refusal :=
  .next (if die < 4 then s.updDie die (fun x => { x with beatAt := s.mono }) else s)

/-- The view of a die's units is rebuilt from their islands (R423). -/
def State.rebuildViews (s : State) (d : Nat) : State :=
  (enclosed .die d).foldl (fun acc e => acc.updUnit e.1 e.2 (fun x => { x with hostView := x.state, genHost := x.gen })) s

/-- CONTROLLER_TAKEOVER (R423): no heartbeat for 1 ms, and a standby that is not retired. It rebuilds its view, and for 2 ms no new
recovery starts. The new standby holds nothing staged (DEDUCED, assumption 60). -/
def execControllerTakeover (die : Nat) (selfTestOk : Bool) (s : State) : Host.Outcome State Fault Refusal :=
  let x := s.die die
  let standbyRetired := if x.serving then x.aRetired else x.bRetired
  .next (if 4 ≤ die ∨ s.mono < x.beatAt + nsInst 1000000 ∨ standbyRetired then s
    else
      (((s.updUpd (fun z => { z with staged := z.staged &&& ~~~(BitVec.ofNat 14 (2 ^ (die + 1))) })).rebuildViews die).updDie die (fun y => { y with
        holdUntil := s.mono + nsInst 2000000
        serving := !y.serving, swaps := satInc y.swaps, beatAt := s.mono
        aRetired := y.aRetired || (!y.serving && !selfTestOk), bRetired := y.bRetired || (y.serving && !selfTestOk) })).raiseDie
        die 205 die 0)

/-- Drift in ppm, rounded down and held in 16 bits (R426). -/
def driftPpm (fStressed fRef : Nat) : Nat := min 0xFFFF ((fRef - fStressed) * 1000000 / fRef)

/-- AGING_MEASURE (R426): one slot's drift; the limits raise their events once. -/
def execAgingMeasure (die slot fStressed fRef : Nat) (s : State) : Host.Outcome State Fault Refusal :=
  let p := die * 20 + slot
  let x := s.slot p
  .next (if 4 ≤ die ∨ 20 ≤ slot ∨ x.u.state = .off ∨ fRef = 0 then s
    else
      let d := driftPpm fStressed fRef
      let s1 := s.updSlot p (fun y => { y with
        drift := BitVec.ofNat 16 d, warn := y.warn || decide (20000 ≤ d), retire := y.retire || decide (40000 ≤ d) })
      let s2 := if 20000 ≤ d ∧ !x.warn then s1.raiseDie die 215 (s1.unitTag .slot p) 0 else s1
      if 40000 ≤ d ∧ !x.retire then s2.raiseDie die 216 (s2.unitTag .slot p) 0 else s2)

/-- EMBER_BIST (R424): a full pass over the idle Ember of a cluster. -/
def execEmberBist (cluster : Nat) (found : BistFault) (s : State) : Host.Outcome State Fault Refusal :=
  .next (match s.ember cluster with
    | some p => if cluster < 16 then s.applyBist p found else s
    | none => s)

end Sys2Proof.Machine
end

