-- ==== Sys2Proof/Machine/Beat.lean ====
section
/-! DEFINITION. Beats, the schedule and the result record (R17 to R20, R65, R89 to R102, R347, R365, R370 to R374, R386, R402):
BEAT_START with the frame boundary, SCHEDULE_RELEASE, SYNC_SET and RECORD_COMMIT. -/

namespace Sys2Proof.Machine

/-! ### The schedule (R91, R92) -/

def State.schedDone (s : State) : State := s.updBeat (fun b => { b with schedPos := b.schedPos + 1 })

/-- A RELEASE entry of instant `at_` (R92, R93): credits, or, while the queue's tile is not in service, TIL_MISSED (R404, R409). -/
def State.releaseCredits (s : State) (at_ : Instant) (q n : Nat) : State :=
  let t := tileOfQueue q
  if s.tileInService t then
    s.updQueue q (fun x => { x with
      credit := satInc x.credit n, grants := (x.grants ++ List.replicate n at_).take (min 255 (x.credit.toNat + n)) })
  else s.updTile t (fun x => { x with missed := satInc x.missed n })

/-- SCHEDULE_RELEASE (R92). -/
def execScheduleRelease (s : State) : Host.Outcome State Fault Refusal :=
  .next (match s.schedDue with
    | some e => if e.release then (s.releaseCredits (s.entryAt e) e.queue e.count).schedDone else s
    | none => s)

/-- SYNC_SET (R91). -/
def execSyncSet (s : State) : Host.Outcome State Fault Refusal :=
  .next (match s.schedDue with
    | some e => if e.release then s else (s.setObject e.sync e.value).schedDone
    | none => s)

/-! ### The frame boundary -/

/-- Every credit that remains is discarded and added to TIL_MISSED (R92). -/
def State.discardCredits (s : State) : State :=
  s.img.queues.foldl (fun acc a =>
    let x := acc.queue a.queue
    if x.credit = 0 then acc
    else
      (acc.updTile (tileOfQueue a.queue) (fun t => { t with missed := satInc t.missed x.credit.toNat })).updQueue a.queue
        (fun y => { y with credit := 0, grants := [] })) s

/-- Tiles that owed a golden slice in the frame that ends (R372): a role, outside a missing region, in service, and none
retired with 0x00. -/
def State.slicesOwed (s : State) : List Nat :=
  (List.range s.part.tiles).filter fun t =>
    s.role t != 0 && s.tileInService t && !(s.beat.missOrder.contains (regionOfTile t)) && !((s.tile t).gsliceOk)

/-- The golden slices of a new frame are still to come. -/
def State.clearSlices (s : State) : State :=
  (List.range s.part.tiles).foldl (fun acc t => acc.updTile t (fun x => { x with gsliceOk := false })) s

/-- A missing golden slice: SEV-010, and the tile is fenced as SUSPECT (R372, R388). -/
def State.sliceMissing (s : State) (t : Nat) : State := (s.raiseDie (dieOfTile t) 10 t 0).suspectUnit .slot (s.slotOfTile t) 10

/-- The switch of schedules (R18, R19, R102): the alternate of the region that went missing first, or the full one. The staging
record moves to the new commit tile; it starts as zero when the outgoing tile is not in service. -/
def State.switchSchedule (s : State) : State :=
  let out := s.commitTile
  let s1 := s.updBeat (fun b => { b with
    prevMode := s.ctx.mode, prevMissing := b.missing, missing := b.missOrder.head?, schedPos := 0 })
  if s1.commitTile ≠ out then
    (if s.tileInService out then s1 else s1.loseStaging).stageBytes
  else s1

/-- The release of the safe-state request (R370): outputs inactive, counts cleared, SEV-025; FIRST_SEV reads 0 (DEDUCED,
assumption 140). -/
def State.releaseAt (s : State) : State :=
  if s.saf.releasePend then
    ((((s.updSaf (fun f => { f with req := false, releasePend := false, firstSev := 0, hist := [], last := 0 })).driveSafe).msix 0)).raise 25 0xFF 0
  else s

/-- The work of a frame boundary at the start of beat `n`, frame `k` (R92, R372, R386, R412, R417, R419, R426): returns come
first, then losses, then swaps and the schedule. -/
def State.boundary (s : State) (n k : Nat) : State :=
  let s1 := s.discardCredits
  let owed := if k = 0 then [] else s1.slicesOwed
  let s2 := s1.clearSlices.returnsAt n
  -- what is lost at the boundary is lost to frame k, which runs whole under the new schedule (R18)
  let s3 := ((owed.foldl State.sliceMissing s2).agingAt).updBeat (fun b => { b with invalidBefore := max s2.beat.invalidBefore (min k b.invalidBefore) })
  let s4 := s3.swapAll.switchSchedule
  let s5 := s4.releaseAt.updAsh (fun a => a.flush s.mono)
  if s5.compares then s5 else s5.updSaf (fun f => { f with cmpNext := k })

/-! ### BEAT_START (R89, R347) -/

/-- Beat `next` may start: its instant has come, no schedule entry before that instant is left, and at most the record of the beat
before it is still to be committed (R91, R96), and no re-epoch is due, which goes before (R336). -/
def State.beatDue (s : State) : Bool :=
  let n := s.beat.next
  s.started && !s.reepochDue && decide (s.beatStart n ≤ s.now) && decide (n ≤ s.beat.commitNext + 1) && (n == 0 || !(s.heldByTxn (s.beatStart n - 1))) &&
    (match s.schedNext with
     | some e => n == 0 || decide (s.beatStart n ≤ s.entryAt e)
     | none => true)

/-- The start of beat `n`. -/
def State.beatBegin (s : State) (n : Nat) : State :=
  let k := s.frameOfBeat n
  let b := s.isBoundary n
  let s1 := s.settle.updBeat (fun x => { x with next := n + 1, frame := k })
  if b then s1.boundary n k else s1

/-! ### The record (R94 to R101, R365, R373) -/

/-- A field that is zero in a record (R94, R97): its OMIT names a region that is missing, or the region without which the beat's
schedule ran. -/
def State.omitted (s : State) (missing : Option Nat) (f : PayField) : Bool :=
  (match missing with
   | none => false
   | some g => bit f.omitMask g) || s.beat.missOrder.any (fun h => bit f.omitMask h)

/-- The payload of a record (R97). -/
def State.payload (s : State) (missing : Option Nat) : List Byte :=
  (s.img.payload.fields.filter (fun f => !(s.omitted missing f))).foldl
    (fun acc f => patch acc f.off (SMap.bytes s.beat.staging.payload f.off f.len)) (zeros 216)

/-- Nanoseconds of a time word, over its full width (R373). -/
def timeWordNs (w : Nat) : Nat := w / 2 ^ 30 * 10 ^ 9 + w % 2 ^ 30

/-- The capture times of the fields that are not omitted (R97). -/
def State.captures (s : State) (missing : Option Nat) : List Nat :=
  (s.img.payload.fields.filter (fun f => !(s.omitted missing f))).map fun f => (SMap.get 0 s.beat.staging.capture f.off).toNat

/-- The earliest time word. -/
def oldestOf : List Nat → Option Nat
  | [] => none
  | w :: rest => match oldestOf rest with
    | none => some w
    | some v => some (if timeWordNs v < timeWordNs w then v else w)

/-- LATE of a record (R373). -/
def isLate (maxAge oldest commit : Nat) : Bool :=
  decide (timeWordNs commit < timeWordNs oldest) || decide (maxAge < timeWordNs commit - timeWordNs oldest)

/-- NOT_COMPARED of a record committed at instant `t` (R365): no comparison has completed since the start, or within the last two
frames. -/
def State.notCompared (s : State) (t : Instant) : Bool :=
  !s.compares || (match s.saf.cmpAt with
    | none => true
    | some c => decide (c + nsInst (2 * s.frameNs) < t))

/-- The causes of INVALID that no comparison bears on, apart from LATE (R18, R19, R140, R202, R321, R339, R348, R406, R454). -/
def State.markedInvalid (s : State) (k : Nat) : Bool :=
  decide (2 ≤ s.beat.missOrder.length) || decide (k < s.beat.invalidBefore) || s.beat.invalidNext || !s.tb.valid ||
    (List.range 4).any (fun d => !((s.die d).follower.valid)) || s.sec.debugLevel == 2

/-- The causes of INVALID that come from the comparison itself: NOT_COMPARED in DUAL or BENCH, and the first frame and the first
comparison of R65. A record counts to the frame of its beat `k`, also the last of frame 0, whose commit begins with frame 1 (DESIGN
CHOICE, assumption 159). -/
def State.uncompared (s : State) (k : Nat) (t : Instant) : Bool :=
  (s.notCompared t && s.compares) || k == 0 || (s.compares && s.saf.cmpAt.isNone)

/-- The quality of the record of frame `k` committed at instant `t` (R98, R99, R365); DEGRADED also where the beat's schedule was an
alternate (R20). -/
def State.quality (s : State) (k : Nat) (missing : Option Nat) (t : Instant) (late : Bool) : Quality :=
  let nc := s.notCompared t
  { cmp := if s.compares then s.saf.cmp else 0
    disagree := s.saf.counted
    notCompared := nc
    late := late
    safeReq := s.saf.req
    benchHeld := s.isBench && s.saf.req
    degraded := s.beat.missOrder != [] || missing.isSome
    saturated := s.beat.satNext
    invalid := s.saf.req || late || s.uncompared k t || s.markedInvalid k || decide (k < s.beat.reepochBefore) }

/-- The 32-byte header of a record (R98). -/
def State.recordHeader (s : State) (n : Nat) (q : Quality) (oldest commit : Nat) : List Byte :=
  leBytes 8 n ++ leBytes 4 (s.frameOfBeat n) ++ [s.tb.epoch] ++ [s.beat.alive] ++ leBytes 2 q.code ++ leBytes 8 oldest ++ leBytes 8 commit

/-- The 256-byte record (R98). -/
def State.recordBytes (s : State) (header payload : List Byte) : List Byte :=
  let b := header ++ payload ++ leBytes 4 s.beat.wrSeq.toNat
  b ++ leBytes 4 (crc 4 b)

/-- Base of the ring carve-out (R94). -/
def State.ringBase (s : State) : Nat := s.img.carveBase s.img.payload.ringCarve

/-- The ring has no place for a record, or its die is in reset (R101, R416). -/
def State.ringFull (s : State) : Bool :=
  let rd := leNat (s.peek (s.ringBase + 4) 4)
  (s.beat.wrSeq.toNat + 2 ^ 32 - rd) % 2 ^ 32 == 2 ^ s.img.payload.ringLog2 ||
    (match s.place s.ringBase with | .dram d => s.dieDown d | _ => false)

/-- Writes the LOST counter of the control block (R100). -/
def State.putLost (s : State) : State :=
  match s.place s.ringBase with
  | .dram d => if s.dieDown d then s else s.put (s.ringBase + 8) (leBytes 4 s.beat.lost.toNat)
  | _ => s

/-- A lost record (R101): LOST and SEV-015. -/
def State.recordLost (s : State) (n : Nat) : State :=
  ((s.updBeat (fun b => { b with lost := b.lost + BitVec.ofNat 32 n })).putLost).raise 15 0xFF 0

/-- Vector 7 after a change of WR_SEQ (R463). -/
def State.ringVector (s : State) : State :=
  let l := s.link.ringLog2.toNat
  if l ≤ 20 ∧ s.beat.wrSeq.toNat % 2 ^ l = 0 then s.msix 7 else s

/-- Writes a record and then WR_SEQ (R100, R402); the marks owed to it are paid. -/
def State.recordWrite (s : State) (rec : List Byte) : State :=
  let s1 := s.put (s.ringBase + 256 + 256 * (s.beat.wrSeq.toNat % 2 ^ s.img.payload.ringLog2)) rec
  let s2 := s1.updBeat (fun b => { b with wrSeq := b.wrSeq + 1, alive := b.alive + 1, satNext := false, invalidNext := false })
  (s2.put s2.ringBase (leBytes 4 s2.beat.wrSeq.toNat)).ringVector

/-- SEV-011 at the last beat of a frame with LATE records, with their count (R373). -/
def State.lateEvent (s : State) (n : Nat) : State :=
  if s.isBoundary (n + 1) ∧ 0 < s.beat.lateCount then
    (s.raiseAt 11 0xFF 0 s.stamp (leBytes 4 s.beat.lateCount)).updBeat (fun b => { b with lateCount := 0 })
  else s

/-- The oldest capture time of a record; a free value when every field is omitted, for which the manual gives none. -/
def State.oldest (s : State) (missing : Option Nat) : State × Nat :=
  match oldestOf (s.captures missing) with
  | some w => (s, w)
  | none => let d := s.draw; (d.2, Config.freeNat d.1 % 2 ^ 64)

/-- The commit of beat `n` on a commit tile in service (R96 to R101, R374). -/
def State.commitBeat (s : State) (n : Nat) (missing : Option Nat) : State :=
  let t := s.beatStart (n + 1)
  let commit := timeWordOf t
  let o := s.oldest missing
  let late := isLate s.img.safety.maxAgeNs o.2 commit
  let q := o.1.quality (s.frameOfBeat n) missing t late
  let header := o.1.recordHeader n q o.2 commit
  let rec_ := o.1.recordBytes header (s.payload missing)
  let s1 := if o.1.beat.gap = 0 then o.1 else (o.1.recordLost o.1.beat.gap.toNat).updBeat (fun b => { b with gap := 0 })
  let s2 := if s1.ringFull then s1.recordLost 1 else s1.recordWrite rec_
  let full := if s.beatIndex n = s.img.checker.cmpBeat then rec_ else []
  let k := s.frameOfBeat n
  let m : Mirror := { beat := n, header := header, check := crc16Fold n header, full := full
                      marked := o.1.markedInvalid k || o.1.uncompared k t
                      reepochOnly := decide (k < s.beat.reepochBefore) && !(s.saf.req || late || o.1.uncompared k t || o.1.markedInvalid k) }
  let s3 := s2.updSaf (fun f => { f with mirrors := f.mirrors ++ [m] })
  (s3.updBeat (fun b => { b with lateCount := b.lateCount + (if late then 1 else 0) })).lateEvent n

/-- RECORD_COMMIT of beat `commitNext` (R96): once the next beat's instant has come. While the region of the commit tile is lost no
record is committed (R19). -/
def State.recordCommit (s : State) : State :=
  let n := s.beat.commitNext
  if !s.commitDue then s
  else
    let tile := s.commitTileOf n
    let s1 := if s.tileInService tile && !(s.beat.missOrder.contains (regionOfTile tile)) then s.commitBeat n (s.schedOfBeat n).2
      else (s.updBeat (fun b => { b with gap := b.gap + 1 })).lateEvent n
    s1.updBeat (fun b => { b with commitNext := n + 1 })

def execRecordCommit (s : State) : Host.Outcome State Fault Refusal := .next s.recordCommit

end Sys2Proof.Machine
end

