-- ==== Sys2Proof/Machine/Cvu.lean ====
section
/-! DEFINITION. Check-value units (15_check_values.md, R394 to R401): the two feed contexts and the memory scan engine of each
cluster (units 0 to 15) and of the Pregus die (unit 16). -/

namespace Sys2Proof.Machine

def State.cvuOf (s : State) (unit : Nat) : CvuSt := if unit = 16 then s.cvu else (s.cluster unit).cvu

def State.updCvu (s : State) (unit : Nat) (f : CvuSt → CvuSt) : State :=
  if unit = 16 then { s with cvu := f s.cvu } else s.updCluster unit (fun x => { x with cvu := f x.cvu })

def CvuSt.ctx (x : CvuSt) (c : Nat) : CvuCtx := if c = 0 then x.ctx0 else x.ctx1

def State.updCtxOf (s : State) (unit c : Nat) (f : CvuCtx → CvuCtx) : State :=
  s.updCvu unit (fun x => if c = 0 then { x with ctx0 := f x.ctx0 } else { x with ctx1 := f x.ctx1 })

/-- A CVU of the part whose cluster takes accesses; an access to a fenced one is dropped (R409). -/
def State.cvuOpen (s : State) (unit : Nat) : Bool := unit == 16 || (decide (unit < s.part.clusters) && s.clusterOpen unit)

/-- An access to a unit that is not open. -/
def State.cvuDrop (s : State) (unit : Nat) : State := if unit < s.part.clusters then s.dropAt (unit / 4) else s

/-- The agent that may write a context (R394). -/
def ctxAgent (agent : Agent) (unit ctx : Nat) : Bool :=
  match agent with
  | .host => ctx == 0
  | .dieController => ctx == 1 && unit != 16
  | .pregusFirmware => ctx == 1 && unit == 16

/-! ### The feed contexts -/

/-- Processes the oldest `n` pending bytes (R390, R395). -/
def CvuCtx.drain (x : CvuCtx) (n : Nat) : CvuCtx :=
  { x with reg := BitVec.ofNat 64 (crcRun (polyOf x.poly.toNat) x.reg.toNat (x.fifo.take n)), fifo := x.fifo.drop n }

/-- The value of CVU_RESULT: reg xor XOROUT after every pending byte, held in the polynomial's width (R396). -/
def CvuCtx.result (x : CvuCtx) : Nat :=
  let y := x.drain 16
  (y.reg.toNat ^^^ (polyOf y.poly.toNat).xorOut) % 2 ^ (polyOf y.poly.toNat).width

/-- The bytes that have been processed since the last access, whose number is free (R395: one byte per CVU cycle). -/
def State.cvuAdvance (s : State) (unit ctx : Nat) : State :=
  let r := s.draw
  r.2.updCtxOf unit ctx (fun x => x.drain (Config.freeNat r.1 % (x.fifo.length + 1)))

/-- A write of CVU_CTX_CTRL (R394, R395): taken only with INIT = 1; POLY 6 and 7 are ignored and set WERR. -/
def CvuCtx.init (x : CvuCtx) (value : Nat) : CvuCtx :=
  if !(bit value 3) then x
  else if 6 ≤ value % 8 then { x with werr := true }
  else { x with fifo := [], poly := BitVec.ofNat 3 value, reg := BitVec.ofNat 64 (polyOf (value % 8)).init }

/-- A write of CVU_CTX_CTRL by an agent. -/
def State.cvuInit (s : State) (agent : Agent) (unit ctx value : Nat) : State :=
  if agent = .host ∧ !(s.cvuOpen unit) then s.cvuDrop unit
  else if ctx < 2 ∧ ctxAgent agent unit ctx then s.updCtxOf unit ctx (fun x => x.init value) else s

/-- CVU_CTX_INIT (R395). -/
def execCvuCtxInit (agent : Agent) (unit ctx : Nat) (value : Word) (s : State) : Host.Outcome State Fault Refusal :=
  .next (s.cvuInit agent unit ctx value.toNat)

/-- Appends bytes that fit; bytes that do not fit are ignored whole and set OVF (R395). -/
def CvuCtx.feed (x : CvuCtx) (bs : List Byte) : CvuCtx :=
  if x.fifo.length + bs.length ≤ 16 then { x with fifo := x.fifo ++ bs } else { x with ovf := true }

/-- A write of CVU_FEED8, CVU_FEED16 or CVU_FEED32 by an agent: `size` is 1, 2 or 4 bytes (R394, R395). -/
def State.cvuFeedWrite (s : State) (agent : Agent) (unit ctx size data : Nat) : State :=
  if agent = .host ∧ !(s.cvuOpen unit) then s.cvuDrop unit
  else if ctx < 2 ∧ ctxAgent agent unit ctx ∧ (size = 1 ∨ size = 2 ∨ size = 4) then
    (s.cvuAdvance unit ctx).updCtxOf unit ctx (fun x => x.feed (leBytes size data))
  else s

/-- A write of CVU_CTX_STATUS: its W1C bits, by the agent of the context alone (R394). -/
def State.cvuClear (s : State) (agent : Agent) (unit ctx v : Nat) : State :=
  if ctxAgent agent unit ctx then s.updCtxOf unit ctx (fun x => { x with werr := x.werr && !(bit v 13), ovf := x.ovf && !(bit v 12) })
  else s

/-- CVU_FEED (R394, R395). -/
def execCvuFeed (agent : Agent) (unit ctx size : Nat) (data : Word) (s : State) : Host.Outcome State Fault Refusal :=
  .next (s.cvuFeedWrite agent unit ctx size data.toNat)

/-- CVU_RESULT_READ (R396): every pending byte is processed, then word `index` is returned to the host; bits above the width
read 0. A fenced unit reads 0. -/
def State.cvuResultRead (s : State) (unit ctx index : Nat) : State :=
  if !(s.cvuOpen unit) then (s.cvuDrop unit).updLink (fun l => { l with resp := { kind := 0, data := zeros 4 } })
  else if ctx < 2 ∧ index < 2 then
    let s1 := s.updCtxOf unit ctx (fun x => x.drain 16)
    s1.updLink (fun l => { l with resp := { kind := 0, data := leBytes 4 (((s1.cvuOf unit).ctx ctx).result / 2 ^ (32 * index)) } })
  else s

def execCvuResultRead (unit ctx index : Nat) (s : State) : Host.Outcome State Fault Refusal := .next (s.cvuResultRead unit ctx index)

/-! ### The scan engine (R398 to R401) -/

/-- Whether bytes `a` to `a + n - 1` all lie inside carve-outs. -/
def Image.covers (i : Image) : Nat → Nat → Nat → Bool
  | 0, _, n => n == 0
  | fuel + 1, a, n =>
    if n = 0 then true
    else match i.carveAt a with
      | some c => i.covers fuel (c.base + c.size) (a + n - (c.base + c.size))
      | none => false

/-- Reads lines in ascending order and runs the CRC; ends at the first failure (R398, R399). -/
def State.scanLines (s : State) (own : Option Nat) (p : Poly) : Nat → Nat → Nat → State × Nat × Nat
  | 0, _, reg => (s, 0, reg)
  | n + 1, a, reg =>
    if s.carveClosed own a 64 then (s, 0x38, reg)
    else
      let f := s.fetch a 64
      if f.status ≠ 0 then (f.st, if f.status = 0x35 then 0x32 else f.status, reg)
      else f.st.scanLines own p n (a + 64) (crcRun p reg f.data)

/-- A scan of `len` bytes at `a` (R398, R399): the state after its reads, the status and the check value. -/
def State.scanRange (s : State) (own : Option Nat) (poly a len : Nat) : State × Nat × Nat :=
  if !(s.img.covers (s.img.carves.length + 1) a len) then (s, 0x17, 0)
  else
    let p := polyOf poly
    let r := s.scanLines own p (len / 64) a p.init
    (r.1, r.2.1, (r.2.2 ^^^ p.xorOut) % 2 ^ p.width)

/-- The region that a unit's scans belong to. -/
def cvuRegion (unit : Nat) : Option Nat := if unit = 16 then none else some (unit / 2)

/-- A unit's scan reads up to `n` of the lines it has left, each as it stands now (R398 to R400). -/
def State.scanSome (s : State) (unit n : Nat) : State :=
  let x := s.cvuOf unit
  let k := if x.runStat = 0 then min n (x.runLen / 64 - x.runLines) else 0
  if k = 0 then s
  else
    let r := s.scanLines (cvuRegion unit) (polyOf x.runPoly) k (x.runAddr + 64 * x.runLines) x.runReg
    r.1.updCvu unit (fun y => { y with runLines := y.runLines + k, runStat := r.2.1, runReg := r.2.2 })

/-- The scans that run read on with the time: a line in a tick or none, as the fabric grants it, a free value (R398, R400). -/
def State.scanTick (s : State) : State :=
  (List.range 17).foldl (fun acc u =>
    if (acc.cvuOf u).busy then
      let d := acc.draw
      d.2.scanSome u (Config.freeNat d.1 % 2)
    else acc) s

/-- The end of a scan (R401): the result only with status 0x00, the status, then the count. -/
def CvuSt.endScan (x : CvuSt) (status result : Nat) : CvuSt :=
  { x with busy := false, result := if status = 0 then BitVec.ofNat 64 result else x.result
           lastStatus := BitVec.ofNat 8 status, count := x.count + 1 }

/-- The agents that may start a scan (R398): the host, a Die Controller, and the Pregus firmware on the Pregus unit. -/
def scanAgent (agent : Agent) (unit : Nat) : Bool :=
  match agent with
  | .host | .dieController => true
  | .pregusFirmware => unit == 16

/-- SCAN_START (R398, R399): ignored with SCAN_WERR while BUSY, with POLY 6 or 7, or with a LEN of 0 (DESIGN CHOICE, assumption 26);
a range that leaves the carve-outs ends it before any read. -/
def State.scanGo (s : State) (agent : Agent) (unit : Nat) : State :=
  let x := s.cvuOf unit
  if agent = .host ∧ !(s.cvuOpen unit) then s.cvuDrop unit
  else if !(scanAgent agent unit) then s
  else if x.busy ∨ 6 ≤ x.scanPoly.toNat ∨ x.scanLen = 0 then s.updCvu unit (fun y => { y with werr := true })
  else s.updCvu unit (fun y => { y with
    busy := true, runAddr := y.scanAddr.toNat, runLen := y.scanLen.toNat, runPoly := y.scanPoly.toNat, runLines := 0
    runReg := (polyOf y.scanPoly.toNat).init
    runStat := if s.img.covers (s.img.carves.length + 1) y.scanAddr.toNat y.scanLen.toNat then 0 else 0x17 })

def execScanStart (agent : Agent) (unit : Nat) (s : State) : Host.Outcome State Fault Refusal := .next (s.scanGo agent unit)

/-- The end of a unit's scan: the lines it has left are read now (R398 to R401). -/
def State.scanStop (s : State) (unit : Nat) : State :=
  let s1 := s.scanSome unit (s.cvuOf unit).runLen
  let x := s1.cvuOf unit
  let p := polyOf x.runPoly
  (s1.updCvu unit (fun y => y.endScan x.runStat ((x.runReg ^^^ p.xorOut) % 2 ^ p.width))).settle

/-- SCAN_END (R398 to R401). -/
def execScanEnd (unit : Nat) (s : State) : Host.Outcome State Fault Refusal :=
  .next (if unit ≤ 16 ∧ (s.cvuOf unit).busy then s.scanStop unit else s)

end Sys2Proof.Machine
end

