-- ==== Sys2Proof/Machine/TimeOps.lean ====
section
/-! DEFINITION. The time base (13_time_base.md, R330 to R352): the counter, the first step and the re-epoch, sources and lock, the
dies' followers, triggers, captures and window monitors. -/

namespace Sys2Proof.Machine

/-! ### The counter (R330) -/

/-- One tick of R330; a pulse that is active counts down (R349). -/
def TimeBase.tick (tb : TimeBase) : TimeBase :=
  let acc := tb.ns.toNat * 2 ^ 32 + tb.frac.toNat + tb.incr.toNat
  let wrap := decide (10 ^ 9 * 2 ^ 32 ≤ acc)
  let a := if wrap then acc - 10 ^ 9 * 2 ^ 32 else acc
  { tb with sec := if wrap then tb.sec + 1 else tb.sec, ns := BitVec.ofNat 30 (a / 2 ^ 32), frac := BitVec.ofNat 32 (a % 2 ^ 32)
            ticks := tb.ticks + 1, pulse := tb.pulse.map fun e => (e.1, if 2 ≤ e.2 then e.2 - 1 else e.2) }

/-- The counter runs from step 2 of R63 on. -/
def State.timeRuns (s : State) : Bool :=
  match s.boot with
  | .powering _ | .failed | .running => true
  | _ => false

/-- A whole second of a PPS source passes with no edge within 1 ms of it: SEV-160, a lost measurement (R338, R339). -/
def State.ppsMissing (s : State) : State :=
  if s.img.time.source = 3 ∧ s.tb.stepped ∧ nsInst (s.tb.ppsNext * 10 ^ 9 + 1000000) < s.now then
    (s.updTb (fun tb => { tb with ppsNext := tb.ppsNext + 1 })).raise 160 0xFF 0
  else s

/-- TB_TICK (R330); scans read on with the clock (R398). -/
def execTbTick (s : State) : Host.Outcome State Fault Refusal :=
  .next (if s.timeRuns then ((s.updTb TimeBase.tick).ppsMissing).scanTick else s)

/-! ### A transaction and the time base (R64, R337, R437) -/

/-- The log entry of a transaction (R385, KIND 2): the mode in force, TXN_ID and T. -/
def State.logTxn (s : State) (status : Nat) (t : Txn) : State :=
  s.log 2 status 0xFF (leBytes 1 s.ctx.mode ++ zeros 3 ++ leBytes 4 t.id.toNat ++ leBytes 8 (timeWordOf (t.target.getD t.when_)))

/-- A transaction that is rolled back (R437): 0x7B, SEV-253 and vector 5. -/
def State.txnRollback (s : State) : State :=
  let s1 := match s.ctx.txn with
    | some t => s.logTxn 0x7B t
    | none => s
  ((s1.updCtx (fun c => { c with txn := none, txnLast := 0x7B })).raise 253 0xFF 0x7B).msix 5

/-- The instant of a transaction lies at least 1,000,000 ns and at most 60 s after a reading (R433). -/
def instantOk (reading when_ : Instant) : Bool :=
  decide (reading + nsInst 1000000 ≤ when_) && decide (when_ ≤ reading + nsInst (60 * 10 ^ 9))

/-- A START that was held for the first step is checked against the reading that the step produced (R64). -/
def State.checkHeldStart (s : State) : State :=
  match s.ctx.txn with
  | some t =>
    if t.target.isSome then s
    else if instantOk s.now t.when_ then s.updCtx (fun c => { c with txn := some { t with target := some t.when_ } })
    else s.txnRollback
  | none => s

/-! ### The first step (R333, R334) -/

/-- The first whole second whose pulse instant lies after a reading (R337, R349). -/
def nextSecond (reading phaseNs : Nat) : Nat :=
  if reading < nsInst phaseNs then 0 else (reading - nsInst phaseNs) / nsInst (10 ^ 9) + 1

/-- The second whose PPS edge is awaited at a reading: the first whose 1 ms has not passed. -/
def ppsSecond (reading : Nat) : Nat := ceilDiv (reading - nsInst 1000000) (nsInst (10 ^ 9))

/-- After a jump of the counter, and when an image becomes active, SECOND-based comparators wait for their next instant after the
reading (R337, R349). -/
def State.rearmSeconds (s : State) : State :=
  s.img.time.triggers.foldl (fun acc e =>
    if e.baseSecond then acc.updTb (fun tb => { tb with trigNext := SMap.set 0 tb.trigNext e.trig (nextSecond acc.now e.phaseNs) })
    else acc) (s.updTb (fun tb => { tb with ppsNext := ppsSecond s.now }))

/-- The range replay rings are reached at this reading (R303): STAMPs before it have passed. -/
def State.reachReplay (s : State) : State := (List.range 4).foldl (fun acc m => acc.updMac m (fun x => { x with replayAt := s.now })) s

/-- Takes the first step to a reading. -/
def State.firstStep (s : State) (t : Instant) : State :=
  (s.updTb (fun tb => { tb.setNow t with stepped := true, last := 0 })).rearmSeconds.checkHeldStart

/-- The source takes the first step itself (R334). -/
def State.sourceSteps (s : State) : Bool := [1, 2, 4].contains s.img.time.source

/-- TB_SET as an instant. -/
def TimeBase.setInstant (tb : TimeBase) : Instant :=
  nsInst ((tb.set1.toNat + tb.set2.toNat % 2 ^ 16 * 2 ^ 32) * 10 ^ 9 + tb.set0.toNat % 2 ^ 30)

/-- TB_STATUS.LAST_STATUS. -/
def State.tbStatus (s : State) (status : Nat) : State := s.updTb (fun tb => { tb with last := BitVec.ofNat 8 status })

/-- STEP (R333, R334); the counter does not run before step 2 of R63. -/
def State.step (s : State) : State :=
  if !s.timeRuns then s
  else if s.tb.stepped ∨ s.sourceSteps then s.tbStatus 0x60
  else if 10 ^ 9 ≤ s.tb.set0.toNat % 2 ^ 30 then s.tbStatus 0x64
  else s.firstStep s.tb.setInstant

def execStep (s : State) : Host.Outcome State Fault Refusal := .next s.step

/-! ### Rate and epoch (R335 to R337) -/

/-- Whether TB_INCR takes a value (R335). -/
def incrOk (slewPpm v : Nat) : Bool :=
  let d := 2 ^ 33 * slewPpm / 10 ^ 6
  decide (2 ^ 33 ≤ v + d) && decide (v ≤ 2 ^ 33 + d)

/-- A write of the pair of TB_INCR (R335). -/
def State.writeIncr (s : State) (v : Nat) : State :=
  if incrOk s.img.time.slewPpm v then s.updTb (fun tb => { tb with incr := BitVec.ofNat 36 v, last := 0 }) else s.tbStatus 0x61

/-- TB_INCR_WRITE (R335): the low word is held, the high word completes the pair; not while an activation keeps the servo from it (R445). -/
def execTbIncrWrite (lo hi : Word) (s : State) : Host.Outcome State Fault Refusal :=
  .next (if s.timeRuns && decide (s.upd.servicesFrom ≤ s.mono) then
      (s.updTb (fun tb => { tb with incrHeld := lo })).writeIncr (lo.toNat + hi.toNat % 16 * 2 ^ 32)
    else s)

/-- CTX_MODE.PEND_VALID: a committed mode change waits for its boundary. -/
def State.modePending (s : State) : Option Nat :=
  match s.ctx.txn with
  | some t => (t.entries.find? (fun e => e.op == 2)).map (fun e => e.value.toNat % 4)
  | none => none

/-- The guard of a re-epoch (R336); D itself must be below 2^47 s. -/
def State.reepochOk (s : State) (d : Int) : Bool :=
  s.img.time.reepochEn && s.started && s.tb.stepped && s.tb.reepochAt.isNone && s.beat.missOrder == [] && s.modePending.isNone &&
    decide (s.now + nsInst (2 * s.beatNs) ≤ s.beatStart s.nextBoundaryBeat) && decide (-(2 ^ 47 * 10 ^ 9 : Int) < d ∧ d < 2 ^ 47 * 10 ^ 9)

/-- REEPOCH (R336): pending until the next frame boundary, or refused with 0x63. -/
def State.reepoch (s : State) : State :=
  let d := toSigned 64 s.tb.reepoch.toNat
  if s.reepochOk d then s.updTb (fun tb => { tb with reepochAt := some (s.beatStart s.nextBoundaryBeat, d), last := 0 })
  else s.tbStatus 0x63

def execReepoch (s : State) : Host.Outcome State Fault Refusal := .next s.reepoch

/-- The move of the counter from `tb` by `d` ns, taken round the counter's span. -/
def jumpBy (tb : Instant) (d : Int) : Int := ((tb : Int) + d * perNs) % (counterSpan : Int) - tb

/-- The effects of a re-epoch at `t` by `d` ns (R336, R337): the counter, T0 and EPOCH move together; a transaction with this instant
rolls back; records of this frame and the next are marked. Instants that the block compares with readings move with the counter. -/
def State.jump (s : State) (t : Instant) (d : Int) : State :=
  let j := jumpBy t d
  let mv := fun (x : Instant) => ((x : Int) + j).toNat
  let k := s.frameOfBeat (((t : Int) - s.t0).toNat / nsInst s.beatNs)
  let s1 := match s.ctx.txn with
    | some x => if x.target = some t then s.txnRollback else s.updCtx (fun c => { c with txn := some { x with target := x.target.map mv } })
    | none => s
  let s2 := s1.updTb (fun tb => { tb.setNow (mv t) with
    t0 := tb.t0.map (· + j), epoch := tb.epoch + 1, moves := j :: tb.moves, reepochAt := none })
  let s3 := s2.updBeat (fun b => { b with reepochBefore := max b.reepochBefore (k + 2) })
  let s4 := s3.updSaf (fun f => { f with
    cmpAt := f.cmpAt.map mv, result := f.result.map (fun r => (r.1, r.2.1, mv r.2.2.1, r.2.2.2)) })
  s4.rearmSeconds.reachReplay.raise 156 0xFF 0

/-- REEPOCH_APPLY (R336): at the boundary, before its beat starts. -/
def State.reepochApply (s : State) : State :=
  match s.tb.reepochAt with
  | some (t, d) => if t ≤ s.now then s.jump t d else s
  | none => s

def execReepochApply (s : State) : Host.Outcome State Fault Refusal := .next s.reepochApply

/-! ### Reads (R331, R351) -/

/-- The four words of TB_SNAP for a reading (R331). -/
def TimeBase.snapWords (tb : TimeBase) : List Nat :=
  [tb.frac.toNat / 2 ^ 16 * 2 ^ 16 + tb.epoch.toNat, tb.ns.toNat, tb.sec.toNat % 2 ^ 32, tb.sec.toNat / 2 ^ 32]

/-- A read of TB_SNAP[0] latches the reading into all four words. -/
def State.snapLatch (s : State) : State :=
  let w := s.tb.snapWords
  s.updTb (fun tb => { tb with snap0 := BitVec.ofNat 32 (w.getD 0 0), snap1 := BitVec.ofNat 32 (w.getD 1 0)
                               snap2 := BitVec.ofNat 32 (w.getD 2 0), snap3 := BitVec.ofNat 32 (w.getD 3 0) })

/-- A register read by the host that completes with a word. -/
def State.answerWord (s : State) (w : Nat) : State := s.updLink (fun l => { l with resp := { kind := 0, data := leBytes 4 w } })

/-- TB_SNAP_READ (R331). -/
def execTbSnapRead (s : State) : Host.Outcome State Fault Refusal :=
  .next (let s1 := s.snapLatch; s1.answerWord s1.tb.snap0.toNat)

def State.caps (s : State) (n : Nat) : List Stamp := SMap.get [] s.tb.caps n

/-- Word `i` of TB_CAP[n]: that of the oldest stamp; word 3 has the fill level in bits 31:24. -/
def State.capWord (s : State) (n i : Nat) : Nat :=
  let q := s.caps n
  let w := match q with
    | [] => 0
    | x :: _ => leAt (stampBytes x) (4 * i) 4
  if i = 3 then q.length % 256 * 2 ^ 24 else w

/-- TB_CAP_READ (R351): the read of word 3 removes the oldest entry. -/
def execTbCapRead (n : Nat) (s : State) : Host.Outcome State Fault Refusal :=
  .next (if n < 4 then
      (s.answerWord (s.capWord n 3)).updTb (fun tb => { tb with caps := SMap.update [] tb.caps n (List.drop 1) })
    else s)

/-! ### Sources and lock (R338, R339) -/

/-- An offset counted toward LOCKED (R339): 16 within LOCK_NS, or 4 above it, in a row. -/
def State.countOffset (s : State) (offset : Int) : State :=
  let good := decide (offset.natAbs ≤ nsInst s.img.time.lockNs)
  if good then
    let n := min 16 (s.tb.goodRun + 1)
    s.updTb (fun tb => { tb with goodRun := n, badRun := 0, locked := tb.locked || n == 16
                                 bigRaised := tb.bigRaised && !(n == 16) })
  else
    let n := min 4 (s.tb.badRun + 1)
    let s1 := s.updTb (fun tb => { tb with goodRun := 0, badRun := n, locked := tb.locked && n != 4 })
    let s2 := if s.tb.locked ∧ n = 4 then s1.raise 152 0xFF 0 else s1
    if !s.tb.locked ∧ nsInst 1000000 < offset.natAbs ∧ !s.tb.bigRaised then
      (s2.raise 157 0xFF 0).updTb (fun tb => { tb with bigRaised := true })
    else s2

/-- The source is there again: holdover ends, and VALID returns with LOCKED (R339). -/
def State.sourceBack (s : State) : State :=
  s.updTb (fun tb => { tb with holdover := false, valid := tb.valid || tb.locked, measuredAt := s.mono })

/-- A valid measurement: own reading minus the source's, in 2^-32 ns (R334, R339). -/
def State.measure (s : State) (offset : Int) : State :=
  if !s.tb.stepped then
    if s.sourceSteps then
      ((s.firstStep (((s.now : Int) - offset) % (counterSpan : Int)).toNat).countOffset 0).sourceBack
    else s
  else (s.countOffset offset).sourceBack

/-- The time firmware has used the PTP messages and completions of the source's MAC (R342). -/
def State.usePtp (s : State) : State :=
  if [1, 2].contains s.img.time.source then s.updHpath s.img.time.ethSrcPort (fun h => { h with ptp := [], ptpDone := [] }) else s

/-- The whole second nearest to an instant. -/
def nearestSecond (t : Instant) : Nat := (t + nsInst 500000000) / nsInst (10 ^ 9)

/-- A measurement of a PPS source near the instant `t` (R338): none before the first step, and a lost one when it is more than 1 ms
off. -/
def State.ppsMeasure (s : State) (t : Instant) (offset : Int) : State :=
  if !s.tb.stepped then s
  else
    let s1 := s.updTb (fun tb => { tb with ppsNext := max tb.ppsNext (nearestSecond t + 1) })
    if nsInst 1000000 < offset.natAbs then s1.raise 160 0xFF 0 else s1.measure offset

/-- An edge of a PPS source (R338): its stamp against the nearest whole second. -/
def State.ppsEdge (s : State) (t : Instant) : State := s.ppsMeasure t ((t : Int) - nsInst (nearestSecond t * 10 ^ 9))

/-- OFFSET_MEASUREMENT (R339): what the exchanges of a PTP, gPTP or Lattice source give. The offsets of a PPS source come from its edges
(R338, CAPTURE_EDGE); the command brings it the offset of an edge that CAPTURE_EDGE does not (DESIGN CHOICE, assumption 164). -/
def State.offsetMeasurement (s : State) (offset : Int) : State :=
  if !s.timeRuns then s
  else if s.sourceSteps then s.usePtp.measure offset
  else if s.img.time.source = 3 then s.ppsMeasure s.now offset
  else s

def execOffsetMeasurement (offset : Int) (s : State) : Host.Outcome State Fault Refusal := .next (s.offsetMeasurement offset)

/-- The expected interval of a source's measurements, in ns (R338, R339): a second of PPS, 125 us of the Lattice (R481); the profiles
of PTP and gPTP leave theirs to the network. -/
def sourceInterval : Nat → Nat
  | 3 => 10 ^ 9
  | 4 => 125000
  | n => Config.sourceInterval n

/-- SOURCE_LOST (R339): no measurement for 8 expected intervals. -/
def execSourceLost (s : State) : Host.Outcome State Fault Refusal :=
  .next (if s.timeRuns ∧ s.img.time.source ≠ 0 ∧ !s.tb.holdover ∧
      s.tb.measuredAt + nsInst (8 * sourceInterval s.img.time.source) ≤ s.mono then
      (s.updTb (fun tb => { tb with holdover := true, holdAt := s.mono, goodRun := 0, badRun := 0 })).raise 151 0xFF 0
    else s)

/-- HOLDOVER_EXPIRE (R339). -/
def execHoldoverExpire (s : State) : Host.Outcome State Fault Refusal :=
  .next (if s.tb.holdover ∧ s.tb.valid ∧ s.tb.holdAt + nsInst (s.img.time.holdoverMs * 1000000) < s.mono then
      (s.updTb (fun tb => { tb with valid := false })).raise 153 0xFF 0
    else s)

/-! ### Followers (R346, R348, R368) -/

/-- Updates the follower of a die. -/
def State.updFollower (s : State) (d : Nat) (f : FollowerSt → FollowerSt) : State := s.updDie d (fun x => { x with follower := f x.follower })

/-- TIME_WORD_SEND (R346, R368): a word over each Pregus link, with the request in it. -/
def execTimeWordSend (s : State) : Host.Outcome State Fault Refusal :=
  .next ((List.range 4).foldl (fun acc d => acc.updFollower d (fun f => { f with
    wire := some { at_ := s.now, tick := s.tb.ticks, incr := s.tb.incr, epoch := s.tb.epoch, req := s.saf.req } })) s)

/-- A difference of at most `n` in either direction, from a free number. -/
def freeWithin (draw n : Nat) : Int := ((Config.freeNat draw % (2 * n + 1) : Nat) : Int) - (n : Nat)

/-- The reading that a time word gives, its time on the link compensated (R346), with its error of at most 3 ns. -/
def State.wordReading (s : State) (w : TimeWord) (draw : Nat) : Instant :=
  (((w.at_ + (s.tb.ticks - w.tick) * w.incr.toNat : Nat) + freeWithin draw (nsInst 3)) % (counterSpan : Int)).toNat

/-- TIME_WORD_RECEIVE (R346, R348): the follower's counter is locked to the word; its time is valid again when its reading lies within
3 ns of the Pregus reading. -/
def execTimeWordReceive (die : Nat) (s : State) : Host.Outcome State Fault Refusal :=
  .next (match (s.die die).follower.wire with
    | some w =>
      if 4 ≤ die ∨ s.dieDown die then s
      else
        let r := s.draw
        r.2.updFollower die (fun f => { f with
          base := s.wordReading w r.1, baseTick := s.tb.ticks, incr := w.incr, epoch := w.epoch, lost := false
          valid := f.valid || decide (((s.wordReading w r.1 : Int) - s.now).natAbs ≤ nsInst 3)
          lastWord := s.mono, wire := none, reqSeen := w.req })
    | none => s)

/-- A follower whose time is not valid: the stamps and records in the meantime are marked (R348). -/
def State.followerBad (s : State) (d sev : Nat) : State := (s.updFollower d (fun f => { f with valid := false })).raiseDie d sev d 0

/-- FOLLOWER_TIMEOUT (R348, R368): no word for 16 us; the counter runs free, and die 1 drives SAFE_B high and requests safe state. -/
def execFollowerTimeout (die : Nat) (s : State) : Host.Outcome State Fault Refusal :=
  let f := (s.die die).follower
  .next (if 4 ≤ die ∨ f.lost ∨ s.mono < f.lastWord + nsInst 16000 ∨ s.dieDown die then s
    else
      let s1 := (s.updFollower die (fun f => { f with lost := true })).followerBad die 154
      if die = 1 then s1.raiseDie 1 23 1 0 else s1)

/-- What the follower has drifted since it was last set, beyond its own count: a free value. -/
def State.followerDrift (s : State) (d : Nat) : State :=
  let r := s.draw
  r.2.updFollower d (fun f => { f with
    base := (((s.dieNow d : Int) + freeWithin r.1 (2 ^ 64)) % (counterSpan : Int)).toNat, baseTick := s.tb.ticks })

/-- FOLLOWER_CROSS_CHECK (R348): the follower's reading against the Pregus reading. -/
def execFollowerCrossCheck (die : Nat) (s : State) : Host.Outcome State Fault Refusal :=
  .next (if 4 ≤ die ∨ s.dieDown die then s
    else
      let s1 := s.followerDrift die
      if nsInst 4 < ((s1.dieNow die : Int) - s.now).natAbs then s1.followerBad die 155 else s1)

/-! ### Trigger outputs (R349, R350, R500) -/

def State.trigger (s : State) (t : Nat) : Option TimeTrigger := s.img.time.triggers.find? (fun e => e.trig == t)

/-- A trigger claimed for camera frame sync or lidar sync (R54, R350). -/
def State.isSyncTrigger (s : State) (t : Nat) : Bool :=
  s.img.resources.any (fun r => r.kind == 1 && r.index == t && r.feature == 2) || s.img.cameraBinds.any (fun b => b.fsyncTrig == t)

/-- Held inactive by R59 and R350. -/
def State.trigHeld (s : State) (e : TimeTrigger) : Bool :=
  (s.isReplay && s.isSyncTrigger e.trig) || (if e.baseSecond then !s.tb.stepped else !s.started)

/-- The smallest multiple of `d` that is at least `n`. -/
def nextMultiple (n d : Nat) : Nat := ceilDiv n d * d

/-- The next pulse of a trigger: its frame or second, and its instant (R349). -/
def State.nextPulse (s : State) (e : TimeTrigger) : Nat × Int :=
  let k := nextMultiple (SMap.get 0 s.tb.trigNext e.trig) e.divider
  (k, if e.baseSecond then (nsInst (k * 10 ^ 9 + e.phaseNs) : Int) else s.t0 + nsInst (k * s.frameNs + e.phaseNs))

/-- TRIGGER_PULSE_START (R349): one that falls due while the output is active or held inactive is not generated. -/
def State.triggerPulse (s : State) (e : TimeTrigger) : State :=
  let p := s.nextPulse e
  if (if e.baseSecond then !s.tb.stepped else !s.started) ∨ (s.now : Int) < p.2 then s
  else
    s.updTb (fun tb => { tb with
      trigNext := SMap.set 0 tb.trigNext e.trig (p.1 + 1)
      pulse := if s.trigHeld e ∨ SMap.get 0 tb.pulse e.trig ≠ 0 then tb.pulse else SMap.set 0 tb.pulse e.trig (e.widthNs / 2 + 1) })

def execTriggerPulseStart (trig : Nat) (s : State) : Host.Outcome State Fault Refusal :=
  .next (match s.image.bind (fun _ => s.trigger trig) with
    | some e => s.triggerPulse e
    | none => s)

/-- TRIGGER_PULSE_END (R349, R500): the width has passed; a write of PWR_IOCFG held for the end of the pulse takes effect. -/
def execTriggerPulseEnd (trig : Nat) (s : State) : Host.Outcome State Fault Refusal :=
  .next (if SMap.get 0 s.tb.pulse trig = 1 then
      s.updTb (fun tb =>
        { tb with pulse := SMap.set 0 tb.pulse trig 0
                  iocfg := match SMap.get none tb.iocfgHeld trig with | some v => SMap.set 0x5 tb.iocfg trig v | none => tb.iocfg
                  iocfgHeld := SMap.set none tb.iocfgHeld trig none })
    else s)

/-- The level of a TRIG ball. -/
inductive TrigLevel where
  | highZ | low | high
deriving DecidableEq, Repr

/-- Output t is active: a pulse runs, and nothing holds the output (R350). -/
def State.trigActive (s : State) (t : Nat) : Bool :=
  SMap.get 0 s.tb.pulse t != 0 && !((s.trigger t).any s.trigHeld)

/-- What ball TRIG_t shows (R350). -/
def State.trigLevel (s : State) (t : Nat) : TrigLevel :=
  match s.image.bind (fun _ => s.trigger t) with
  | none => .highZ
  | some e => if s.trigActive t == e.activeLow then .low else .high

/-! ### Captures and window monitors (R351, R352) -/

/-- The frame of a monitor's window that holds an instant (R332, R352). -/
def State.windowOf (s : State) (m : TimeMonitor) (t : Instant) : Option Nat :=
  match s.frameAt t with
  | some k =>
    let o := (t - s.frameStart k)
    if nsInst m.startNs ≤ o ∧ o < nsInst (m.startNs + m.lenNs) then some k else none
  | none => none

/-- A monitor judges a stamp (R352); it watches windows from the start on (DEDUCED, assumption 91). -/
def State.judge (s : State) (t : Instant) (m : TimeMonitor) : State :=
  if !s.started then s
  else match s.windowOf m t with
    | some k => s.updTb (fun tb => { tb with monSeen := SMap.update [] tb.monSeen m.cmp (· ++ [k]) })
    | none => s.raise 159 0xFF 0

/-- Whether EDGE selects an edge. -/
def edgeSelected (edge : Nat) (rising : Bool) : Bool := if rising then bit edge 0 else bit edge 1

/-- An edge that EDGE selects: its stamp enters the FIFO, and the monitors of the input judge it (R351, R352). -/
def State.capture (s : State) (c : TimeCapture) (t : Instant) : State :=
  let s1 :=
    if (s.caps c.cap).length < 64 then s.updTb (fun tb => { tb with caps := SMap.update [] tb.caps c.cap (· ++ [s.stampAt t]) })
    else (s.updTb (fun tb => { tb with capOvf := true })).raise 158 0xFF 0
  (s.img.time.monitors.filter (fun m => m.cap == c.cap)).foldl (fun acc m => acc.judge t m) s1

/-- The reading at the first of the FILT + 1 samples, with its error of at most 4 ns (R351). -/
def State.capInstant (s : State) (c : TimeCapture) (draw : Nat) : Instant :=
  ((s.now : Int) - (c.filt * s.tb.incr.toNat : Nat) + freeWithin draw (nsInst 4)).toNat

/-- The entry of an input, once an image is active. -/
def State.captureEntry (s : State) (cap : Nat) : Option TimeCapture := s.image.bind (fun i => i.time.captures.find? (fun c => c.cap == cap))

/-- FILT + 1 samples have been taken since the opposite level was accepted (R351). -/
def State.capFiltered (s : State) (cap : Nat) : Bool :=
  decide (SMap.get 0 s.tb.capTick cap + ((s.captureEntry cap).elim 0 (·.filt)) ≤ s.tb.ticks)

/-- The rising edges of a PPS source are measurements (R338). -/
def State.isPps (s : State) (cap : Nat) (level : Bool) : Bool := level && s.img.time.source == 3 && s.img.time.capSrcPort == cap

/-- CAPTURE_EDGE (R338, R351): a level that has been seen in FILT + 1 samples in a row. -/
def execCaptureEdge (cap : Nat) (level : Bool) (s : State) : Host.Outcome State Fault Refusal :=
  .next (if 4 ≤ cap ∨ !s.timeRuns ∨ SMap.get false s.tb.capLevel cap = level ∨ !(s.capFiltered cap) then s
    else
      let s1 := s.updTb (fun tb => { tb with
        capLevel := SMap.set false tb.capLevel cap level, capTick := SMap.set 0 tb.capTick cap (tb.ticks + 1) })
      match s.captureEntry cap with
      | some c =>
        let r := s1.draw
        let t := s1.capInstant c r.1
        let s2 := if edgeSelected c.edge level then r.2.capture c t else r.2
        if s.isPps cap level then s2.ppsEdge t else s2
      | none => s1)

/-- WINDOW_CLOSE (R352): the next window of a monitor has closed. -/
def State.windowClose (s : State) (m : TimeMonitor) : State :=
  let k := SMap.get 0 s.tb.monNext m.cmp
  if !s.started ∨ s.now < s.frameStart k + nsInst (m.startNs + m.lenNs) then s
  else
    let s1 := s.updTb (fun tb => { tb with
      monNext := SMap.set 0 tb.monNext m.cmp (k + 1), monSeen := SMap.update [] tb.monSeen m.cmp (List.filter (· != k)) })
    if m.missEn ∧ !((SMap.get [] s.tb.monSeen m.cmp).contains k) then s1.raise 159 0xFF 0 else s1

def execWindowClose (cmp : Nat) (s : State) : Host.Outcome State Fault Refusal :=
  .next (match s.image.bind (fun i => i.time.monitors.find? (fun m => m.cmp == cmp)) with
    | some m => s.windowClose m
    | none => s)

end Sys2Proof.Machine
end

