-- ==== Sys2Proof/Machine/Camera.lean ====
section
/-! DEFINITION. The CSI-2 receivers (11_sensor_intake.md, R276 to R288): Frame Start and its capture time, lines, Frame End, and the
frame notes. -/

namespace Sys2Proof.Machine

/-! ### Cameras of the image -/

def State.bindOf (s : State) (cam : Nat) : Option CameraBind := s.img.cameraBinds.find? (fun b => b.camera == cam)
def State.intakeOf (s : State) (cam : Nat) : Option IntakeCamera := s.img.intake.cameras.find? (fun c => c.camera == cam)

/-- The camera that a receiver and a virtual channel carry (R49: at most one). -/
def State.bindAt (s : State) (receiver vc : Nat) : Option CameraBind :=
  s.img.cameraBinds.find? (fun b => b.receiver == receiver && b.vc == vc)

/-- A strict pipeline (R41). -/
def State.isStrict (s : State) (pipe : Nat) : Bool := bit s.img.split.strictPipes pipe

/-- Bits of a pixel of a RAW data type (R276). -/
def rawBits (dataType : Nat) : Nat :=
  match dataType with
  | 0x2A => 8 | 0x2B => 10 | 0x2C => 12 | 0x2D => 14 | 0x2E => 16 | 0x2F => 20 | 0x27 => 24
  | _ => 0

/-- Bytes of a stored pixel (R278). -/
def rawBytes (bits : Nat) : Nat := if bits ≤ 8 then 1 else if bits ≤ 16 then 2 else 4

/-! ### Pixels of a long packet (MIPI CSI-2; PRESUMED, assumption 30) -/

/-- High bytes of a group, then the low bits of its pixels, the first pixel lowest. -/
def unpackGroup (n lowBits : Nat) (g : List Byte) : List Nat :=
  let low := leNat (g.drop n)
  (List.range n).map fun i => leAt g i 1 * 2 ^ lowBits + low / 2 ^ (lowBits * i) % 2 ^ lowBits

/-- The pixels of a payload, whole groups only; RAW16, RAW20 and RAW24 are packed as CSI-2 defines, which the manual does not
repeat. -/
def unpackRaw (dataType : Nat) (b : List Byte) : List Nat :=
  match dataType with
  | 0x2A => b.map (·.toNat)
  | 0x2B => ((chunks 5 b).filter (·.length == 5)).flatMap (unpackGroup 4 2)
  | 0x2C => ((chunks 3 b).filter (·.length == 3)).flatMap (unpackGroup 2 4)
  | 0x2D => ((chunks 7 b).filter (·.length == 7)).flatMap (unpackGroup 4 6)
  | _ => (List.range (b.length * 8 / rawBits dataType)).map fun i => Config.csiPixel dataType b i % 2 ^ rawBits dataType

/-- A stored line: `width` pixels, padded with zeros or cut (R278, R285). -/
def lineBytes (bits width : Nat) (px : List Nat) : List Byte :=
  ((px.take width ++ List.replicate (width - px.length) 0)).flatMap (leBytes (rawBytes bits))

/-! ### Frames in progress -/

/-- Changes the frame of device frame `k` wherever it stands. -/
def State.updJob (s : State) (b : CameraBind) (k : Nat) (f : FrameJob → FrameJob) : State :=
  let g := fun (j : FrameJob) => if j.camera = b.camera ∧ j.k = k then f j else j
  (s.updCam b.camera (fun c => { c with waiting := c.waiting.map g })).updPipe b.pipe (fun p => { p with
    cur := p.cur.map g, chosen := p.chosen.map g })

/-- The frames of a camera that hold a raw slot (R282). -/
def State.jobsOf (s : State) (b : CameraBind) : List FrameJob :=
  (s.cam b.camera).waiting ++ ((s.pipe b.pipe).cur.toList ++ (s.pipe b.pipe).chosen.toList).filter (fun j => j.camera == b.camera)

/-- Base of a raw slot (R279, R280). -/
def State.rawSlot (s : State) (b : CameraBind) (c : IntakeCamera) (slot : Nat) : Nat :=
  s.img.carveBase c.rawCarve + c.rawOff + slot * ((c.embLines + c.height) * c.width * rawBytes (rawBits b.dataType))

/-- Bytes of a stored line. -/
def lineSize (b : CameraBind) (c : IntakeCamera) : Nat := c.width * rawBytes (rawBits b.dataType)

/-- Writes line `n` of a raw slot. -/
def State.putLine (s : State) (b : CameraBind) (c : IntakeCamera) (slot n : Nat) (bs : List Byte) : State :=
  s.put (s.rawSlot b c slot + n * lineSize b c) bs

/-- Zeroes lines `n` to `m - 1` of a raw slot. -/
def State.zeroLines (s : State) (b : CameraBind) (c : IntakeCamera) (slot n m : Nat) : State :=
  s.put (s.rawSlot b c slot + n * lineSize b c) (zeros ((m - n) * lineSize b c))

/-- Note flags (R288). -/
def noteAccepted : Nat := 0
def noteStale : Nat := 1
def noteShortLine : Nat := 4
def noteLongLine : Nat := 5
def noteShortFrame : Nat := 6
def noteLongFrame : Nat := 7
def noteCrcErr : Nat := 8
def noteStrictCut : Nat := 9
def noteReplay : Nat := 10
def noteVoid : Nat := 11
def noteTrunc : Nat := 12
def noteEmbFault : Nat := 13

/-- Sets a note flag. -/
def FrameJob.mark (j : FrameJob) (f : Nat) : FrameJob := if bit j.flags f then j else { j with flags := j.flags + 2 ^ f }

/-- The flags of R285, for which a frame counts in FAULT. -/
def FrameJob.faulty (j : FrameJob) : Bool := [4, 5, 6, 7, 8, 13].any (fun f => bit j.flags f)

/-- The frame of a camera that is being received. -/
def State.rxJob (s : State) (b : CameraBind) : Option FrameJob :=
  (s.cam b.camera).cur.bind fun k => (s.jobsOf b).find? (fun j => j.k == k)

/-- The end of a frame (R285): missing lines are zero; a flagged frame counts once, with SEV-104. -/
def State.endFrame (s : State) (b : CameraBind) : State :=
  match s.rxJob b, s.intakeOf b.camera with
  | some j, some c =>
    let s1 := if j.emb < c.embLines then s.zeroLines b c j.slot j.emb c.embLines else s
    let s2 := if j.lines < c.height then s1.zeroLines b c j.slot (c.embLines + j.lines) (c.embLines + c.height) else s1
    let j1 := if j.emb ≠ c.embLines then j.mark noteEmbFault else j
    let j2 := if j.lines < c.height then { j1.mark noteShortFrame with badLines := j1.badLines + (c.height - j.lines) } else j1
    let s3 := (s2.updJob b j.k (fun _ => { j2 with ended := true })).updCam b.camera (fun x => { x with cur := none })
    if j2.faulty then
      (s3.updCam b.camera (fun x => { x with fault := satInc x.fault })).raiseDie (b.receiver / 2) 104 b.camera 0
    else s3
  | _, _ => s.updCam b.camera (fun x => { x with cur := none })

/-- The strict cut (R286): this line and all later ones are zero; the frame is delivered with STRICT_CUT, SEV-105. -/
def State.strictCut (s : State) (b : CameraBind) (c : IntakeCamera) (j : FrameJob) (received : Nat) : State :=
  let n := min j.lines c.height
  let s1 := s.zeroLines b c j.slot (c.embLines + n) (c.embLines + c.height)
  let s2 := if j.emb < c.embLines then s1.zeroLines b c j.slot j.emb c.embLines else s1
  let j1 := { j.mark noteStrictCut with lines := received, badLines := j.badLines + (c.height - n), ended := true }
  ((s2.updJob b j.k (fun _ => j1)).updCam b.camera (fun x => { x with cur := none, fault := satInc x.fault })).raiseDie
    (b.receiver / 2) 105 b.camera 0

/-! ### Frame Start (R281, R282, R287) -/

/-- The capture time: the die's reading at the end of the packet, to 1 ns, less LATENCY_NS. -/
def State.captureStamp (s : State) (b : CameraBind) (draw : Nat) : Stamp :=
  let d := b.receiver / 2
  let t := (s.dieNow d + Config.freeNat draw % perNs) / perNs * perNs
  { s.dieStamp d with at_ := t - nsInst b.latencyNs }

/-- A new frame takes the free raw slot, the lower one when both are free (DESIGN CHOICE, assumption 31). -/
def State.beginFrame (s : State) (b : CameraBind) (k : Nat) (capture : Stamp) (csiFn : Nat) : State :=
  let held := (s.jobsOf b).map (·.slot)
  let j : FrameJob := { camera := b.camera, facet := b.facet, k := k, capture := capture, csiFn := csiFn
                        slot := if held.contains 0 then 1 else 0 }
  s.updCam b.camera (fun x => { x with cur := some k, lastFrame := some k, waiting := x.waiting ++ [j] })

/-- A Frame Start of a bound camera. -/
def State.frameStartOf (s : State) (b : CameraBind) (csiFn : Nat) : State :=
  let s0 := s.endFrame b
  let r := s0.draw
  let cap := s0.captureStamp b r.1
  match s0.frameAt (s0.toEpoch cap.epoch cap.at_) with
  | none => r.2
  | some k =>
    let s1 := r.2.updCam b.camera (fun x => { x with lastStart := some (max k (x.lastStart.getD 0)), outage := false })
    let dup : Bool := match (s1.cam b.camera).lastFrame with | some p => decide (k ≤ p) | none => false
    if dup ∨ 2 ≤ (s1.jobsOf b).length then s1.updCam b.camera (fun x => { x with skip := satInc x.skip })
    else s1.beginFrame b k cap csiFn

/-- FRAME_START (R281, R282). Under REPLAY live frames are discarded. -/
def execFrameStart (receiver vc : Nat) (csiFn : Half) (s : State) : Host.Outcome State Fault Refusal :=
  .next (match s.bindAt receiver vc with
    | some b => if s.isReplay ∨ s.dieDown (receiver / 2) then s else s.frameStartOf b csiFn.toNat
    | none => s)

/-- CAMERA_NO_FRAME_START (R287): the next device frame has ended without a Frame Start. -/
def State.noFrameStart (s : State) (b : CameraBind) : State :=
  let c := s.cam b.camera
  let first := match c.lastStart with | some k => k + 1 | none => 0
  let j := max first c.lostTo
  if !s.started ∨ s.isReplay ∨ s.now < s.frameStart (j + 1) + nsInst b.latencyNs then s
  else
    let s1 := s.updCam b.camera (fun x => { x with lostTo := j + 1 })
    if j + 1 - first = 2 then
      (s1.updCam b.camera (fun x => { x with outage := true })).raiseDie (b.receiver / 2) 107 b.camera 0
    else if 2 < j + 1 - first then s1.updCam b.camera (fun x => { x with lost := satInc x.lost })
    else s1

def execCameraNoFrameStart (camera : Nat) (s : State) : Host.Outcome State Fault Refusal :=
  .next (match s.bindOf camera with
    | some b => s.noFrameStart b
    | none => s)

/-! ### Lines (R277, R278, R285, R286) -/

/-- What is wrong with an image line: the note flag (R285), none for a good one. -/
def lineFault (c : IntakeCamera) (j : FrameJob) (pixels : Nat) (crcOk : Bool) : Option Nat :=
  if !crcOk then some noteCrcErr
  else if c.height ≤ j.lines then some noteLongFrame
  else if pixels < c.width then some noteShortLine
  else if c.width < pixels then some noteLongLine
  else none

/-- An image line of a camera. -/
def State.imageLine (s : State) (b : CameraBind) (c : IntakeCamera) (j : FrameJob) (payload : List Byte) (crcOk : Bool) : State :=
  let px := unpackRaw b.dataType payload
  let fault := lineFault c j px.length crcOk
  let s0 := if crcOk then s else s.raiseDie (b.receiver / 2) 106 b.camera 0
  match fault with
  | some f =>
    if s.isStrict b.pipe then s0.strictCut b c (if crcOk then j else j.mark noteCrcErr) (j.lines + 1)
    else
      let s1 := if c.height ≤ j.lines then s0
        else s0.putLine b c j.slot (c.embLines + j.lines) (lineBytes (rawBits b.dataType) c.width (if crcOk then px else []))
      let j1 := if c.height ≤ j.lines then j.mark noteLongFrame else { j with badLines := j.badLines + 1 }
      s1.updJob b j.k (fun _ => { j1.mark f with lines := j.lines + 1 })
  | none =>
    (s0.putLine b c j.slot (c.embLines + j.lines) (lineBytes (rawBits b.dataType) c.width px)).updJob b j.k
      (fun x => { x with lines := x.lines + 1 })

/-- An embedded-data line: a byte a pixel, padded or cut; never strict (R278, R285). -/
def State.embLine (s : State) (b : CameraBind) (c : IntakeCamera) (j : FrameJob) (payload : List Byte) (crcOk : Bool) : State :=
  let px := if crcOk then payload.map (·.toNat) else []
  let s0 := if crcOk then s else s.raiseDie (b.receiver / 2) 106 b.camera 0
  let s1 := if j.emb < c.embLines then s0.putLine b c j.slot j.emb (lineBytes (rawBits b.dataType) c.width px) else s0
  let j1 := if px.length ≠ c.width ∨ c.embLines ≤ j.emb then j.mark noteEmbFault else j
  s1.updJob b j.k (fun _ => { j1 with emb := j.emb + 1 })

/-- A long packet whose header cannot be corrected is discarded (R277): SEV-106, and the frame carries CRC_ERR. -/
def State.lostLine (s : State) (b : CameraBind) (c : IntakeCamera) (j : FrameJob) : State :=
  let s0 := s.raiseDie (b.receiver / 2) 106 b.camera 0
  if s.isStrict b.pipe then s0.strictCut b c j j.lines
  else s0.updJob b j.k (fun x => x.mark noteCrcErr)

/-- LINE_PACKET (R277, R278, R285, R286). -/
def execLinePacket (receiver vc dataType : Nat) (payload : List Byte) (headerOk crcOk : Bool) (s : State) :
    Host.Outcome State Fault Refusal :=
  .next (match s.bindAt receiver vc with
    | none => s
    | some b =>
      match s.rxJob b, s.intakeOf b.camera with
      | some j, some c =>
        if s.dieDown (receiver / 2) then s
        else if !headerOk then s.lostLine b c j
        else if dataType = b.dataType then s.imageLine b c j payload crcOk
        else if dataType = 0x12 ∧ c.embLines ≠ 0 then s.embLine b c j payload crcOk
        else s
      | _, _ => s)

/-- FRAME_END (R285). -/
def execFrameEnd (receiver vc : Nat) (s : State) : Host.Outcome State Fault Refusal :=
  .next (match s.bindAt receiver vc with
    | some b => if s.dieDown (receiver / 2) then s else s.endFrame b
    | none => s)

/-! ### Frame notes (R288) -/

/-- A note of 64 bytes at an address. -/
def noteBytes (a : Nat) (j : FrameJob) (flags startWord seq : Nat) : List Byte :=
  let b := leBytes 4 j.k ++ leBytes 2 j.csiFn ++ leBytes 2 flags ++ leBytes 8 (timeWordOf j.capture.at_) ++ leBytes 8 startWord ++
    leBytes 2 j.lines ++ leBytes 2 j.badLines ++ zeros 4 ++ leBytes 8 j.sample ++ zeros 16 ++ leBytes 4 seq ++ zeros 2
  b ++ leBytes 2 (crc16Fold a b)

/-- Writes a frame's note; SEQ counts the notes written before it. -/
def State.writeNote (s : State) (j : FrameJob) (flags startWord : Nat) : State :=
  match s.intakeOf j.camera with
  | none => s
  | some c =>
    let a := s.img.carveBase c.noteCarve + c.noteOff + 64 * (j.k % 16)
    (s.put a (noteBytes a j flags startWord (s.cam j.camera).noteSeq.toNat)).updCam j.camera (fun x => { x with noteSeq := x.noteSeq + 1 })

end Sys2Proof.Machine
end

