-- ==== Sys2Proof/Machine/Checker.lean ====
section
/-! DEFINITION. The checker network (R356 to R360): buffers, the four layer operations, and the run. -/

namespace Sys2Proof.Machine

/-- A buffer of INT8 elements, H x W x C row-major (R357). -/
structure Buf where
  h : Nat
  w : Nat
  c : Nat
  data : Array Int

/-- An element; positions outside the buffer read 0. -/
def Buf.at (b : Buf) (y x ch : Nat) : Int := b.data.getD ((y * b.w + x) * b.c + ch) 0

/-- The buffers of a run by number. -/
abbrev Bufs := List (Nat × Buf)

/-- The latest write of a buffer. -/
def Bufs.get (m : Bufs) (n : Nat) : Buf :=
  match m.find? (fun e => e.1 == n) with
  | some e => e.2
  | none => { h := 0, w := 0, c := 0, data := #[] }

/-- INT8 at a blob offset. -/
def blobI8 (blob : Array Byte) (o : Nat) : Int := toSigned 8 (blob.getD o 0).toNat

/-- UINT32 at a blob offset. -/
def blobU32 (blob : Array Byte) (o : Nat) : Nat :=
  (blob.getD o 0).toNat + 256 * (blob.getD (o + 1) 0).toNat + 65536 * (blob.getD (o + 2) 0).toNat +
    16777216 * (blob.getD (o + 3) 0).toNat

/-- Elements of an H x W x C buffer from a function of position. -/
def Buf.build (h w c : Nat) (f : Nat → Nat → Nat → Int) : Buf :=
  { h := h, w := w, c := c
    data := ((List.range h).flatMap fun y => (List.range w).flatMap fun x => (List.range c).map fun ch => f y x ch).toArray }

/-- The exact sum of one CONV output (R358). -/
def convSum (blob : Array Byte) (l : ChkLayer) (a : Buf) (oh ow o : Nat) : Int :=
  (List.range l.k).foldl (fun (acc : Int) (kh : Nat) => (List.range l.k).foldl (fun (acc : Int) (kw : Nat) =>
    let ih := (oh * l.stride + kh : Int) - ((l.k - 1) / 2 : Nat)
    let iw := (ow * l.stride + kw : Int) - ((l.k - 1) / 2 : Nat)
    if ih < 0 ∨ iw < 0 ∨ (a.h : Int) ≤ ih ∨ (a.w : Int) ≤ iw then acc
    else (List.range l.cin).foldl (fun (acc : Int) (ci : Nat) =>
      acc + blobI8 blob (l.wOff + ((o * l.k + kh) * l.k + kw) * l.cin + ci) * a.at ih.toNat iw.toNat ci) acc) acc) 0

/-- CONV (R358). -/
def chkConv (blob : Array Byte) (l : ChkLayer) (a : Buf) : Buf :=
  let bias := l.wOff + ceilDiv (l.cout * l.k * l.k * l.cin) 4 * 4
  Buf.build (ceilDiv a.h l.stride) (ceilDiv a.w l.stride) l.cout fun oh ow o =>
    let acc := clampInt (-(2 ^ 31)) (2 ^ 31 - 1) (toSigned 32 (blobU32 blob (bias + 4 * o)) + convSum blob l a oh ow o)
    let mult := toSigned 32 (blobU32 blob (bias + 4 * l.cout + 4 * o))
    clampInt (if l.relu then 0 else -128) 127 ((acc * mult + 2 ^ (l.shift - 1)) / 2 ^ l.shift)

/-- The maximum of a list of elements, -128 for none. -/
def maxOf (l : List Int) : Int := l.foldl max (-128)

/-- MAXPOOL (R358). -/
def chkPool (a : Buf) : Buf :=
  Buf.build (ceilDiv a.h 2) (ceilDiv a.w 2) a.c fun y x ch =>
    maxOf ([(2 * y, 2 * x), (2 * y, 2 * x + 1), (2 * y + 1, 2 * x), (2 * y + 1, 2 * x + 1)].filterMap fun p =>
      if p.1 < a.h ∧ p.2 < a.w then some (a.at p.1 p.2 ch) else none)

/-- ADD (R358). -/
def chkAdd (a b : Buf) : Buf := Buf.build a.h a.w a.c fun y x ch => clampInt (-128) 127 (a.at y x ch + b.at y x ch)

/-- PROJECT (R358): the maximum over the table pairs that name a cell; -128 where none does. -/
def chkProject (blob : Array Byte) (l : ChkLayer) (a : Buf) : Buf :=
  let zero := Array.replicate (l.outH * l.outW * a.c) (-128 : Int)
  let data := (List.range l.tLen).foldl (fun (arr : Array Int) i =>
    let src := blobU32 blob (l.wOff + 8 * i)
    let dst := blobU32 blob (l.wOff + 8 * i + 4)
    (List.range a.c).foldl (fun (arr : Array Int) ch =>
      arr.modify (dst * a.c + ch) (fun v => max v (a.data.getD (src * a.c + ch) 0))) arr) zero
  { h := l.outH, w := l.outW, c := a.c, data := data }

/-- One layer: it replaces its DST buffer (R357, R358). -/
def runLayer (blob : Array Byte) (m : Bufs) (l : ChkLayer) : Bufs :=
  let a := m.get l.srcA
  let out := match l.op with
    | 1 => chkConv blob l a
    | 2 => chkPool a
    | 3 => chkAdd a (m.get l.srcB)
    | _ => chkProject blob l a
  (l.dst, out) :: m.filter (fun e => e.1 != l.dst)

/-- Buffer 31 of a run (R357, R358). -/
def CheckerSec.output (c : CheckerSec) (bufs : List (Nat × Nat × Nat × Nat × List Int)) : List Int :=
  let m : Bufs := bufs.map fun b => (b.1, { h := b.2.1, w := b.2.2.1, c := b.2.2.2.1, data := b.2.2.2.2.toArray })
  ((c.layers.foldl (runLayer c.blob.toArray) m).get 31).data.toList

/-! ### Inputs (R319, R357, R360) -/

/-- The strict pipelines, ascending (R41, R357). -/
def Image.strictPipes (i : Image) : List Nat := (List.range 16).filter fun p => bit i.split.strictPipes p

/-- Address of the checker copy of pipeline `p` for frame `k` (R319). -/
def Image.copyAddr (i : Image) (p k : Nat) : Nat := i.carveBase i.split.chkPyrCarve + (2 * p + k % 2) * i.isp.chkSlot

/-- Level-3 size of a pipeline's camera, height first (R306, R315, R357). -/
def Image.level3 (i : Image) (p : Nat) : Nat × Nat :=
  match i.cameraBinds.find? (fun b => b.pipe == p) with
  | none => (0, 0)
  | some b => match i.intake.cameras.find? (fun c => c.camera == b.camera) with
    | some c =>
      let e := ((i.isp.cameras.find? (fun x => x.camera == b.camera)).map (·.exposures)).getD 1
      (ceilDiv (c.height / e) 8, ceilDiv c.width 8)
    | none => (0, 0)

/-- The copy of pipeline `p` for frame `k`: its pixel bytes, or none when it is absent (R360). -/
def State.readCopy (s : State) (p k : Nat) : State × Option (List Byte) :=
  let i := s.img
  let a := i.copyAddr p k
  let hw := i.level3 p
  let f := s.fetch a (64 + 4 * hw.1 * hw.2)
  let h := f.data.take 64
  let px := f.data.drop 64
  if f.status ≠ 0 ∨ leAt h 62 2 ≠ crc16Fold a (h.take 62) ∨ leAt h 32 4 ≠ crc 4 px ∨ leAt h 0 4 ≠ k % 2 ^ 32 ∨
      leAt h 5 1 % 4 ≠ 0 then (f.st, none)
  else (f.st, some px)

/-- Camera of a pipeline, for SEV-007. -/
def Image.cameraOfPipe (i : Image) (p : Nat) : Nat :=
  match i.cameraBinds.find? (fun b => b.pipe == p) with
  | some b => b.camera
  | none => 0xFF

/-- Buffers 1 to 8 for frame `k`: an absent copy holds -128 everywhere and raises SEV-007 (R357, R360). -/
def State.cameraBufs (k : Nat) : List (Nat × Nat) → State → State × List (Nat × Nat × Nat × Nat × List Int) × Bool
  | [], s => (s, [], true)
  | (n, p) :: rest, s =>
    let hw := s.img.level3 p
    let r := s.readCopy p k
    match r.2 with
    | none =>
      let t := State.cameraBufs k rest (r.1.raise 7 (s.img.cameraOfPipe p) 0)
      (t.1, (n, hw.1, hw.2, 3, List.replicate (hw.1 * hw.2 * 3) (-128)) :: t.2.1, t.2.2)
    | some px =>
      let t := State.cameraBufs k rest r.1
      (t.1, (n, hw.1, hw.2, 3, (chunks 4 px).flatMap (fun q => (q.take 3).map fun b => (b.toNat : Int) - 128)) :: t.2.1, false)

/-- Buffer 0: the range grid (R357). -/
def gridBuf (gx gy : Nat) (g : SMap GridCell) : List Int :=
  (List.range (gx * gy)).flatMap fun i =>
    let c := SMap.get {} g i
    [(min c.count 127 : Nat), (match c.zmax with | none => -128 | some z => clampInt (-127) 127 (z / 32))]

/-- The run for input frame `k`, started when its grid closes; the engine is idle under MAIN (R59, R360). -/
def State.startChecker (s : State) (k : Nat) (grid : SMap GridCell) (binned : Nat) : State :=
  if !s.compares then s
  else
    let i := s.img
    let r := State.cameraBufs k (i.strictPipes.zipIdx.map fun e => (e.2 + 1, e.1)) s
    let b0 := (0, i.split.gridY, i.split.gridX, 2, gridBuf i.split.gridX i.split.gridY grid)
    (r.1.updSaf (fun f => { f with
      run := some { k := k, noInput := r.2.2 && binned == 0, bufs := b0 :: r.2.1, startedAt := s.mono } })).settle

/-- CHECKER_RUN_COMPLETE (R357 to R360): buffer 31 is formed. -/
def State.checkerDone (s : State) : State :=
  match s.saf.run with
  | none => s
  | some r => s.updSaf (fun f => { f with run := none, result := some (r.k, r.noInput, s.now, s.img.checker.output r.bufs) })

def execCheckerRunComplete (s : State) : Host.Outcome State Fault Refusal := .next s.checkerDone

end Sys2Proof.Machine
end

