-- ==== Sys2Proof/Machine/Eth.lean ====
section
/-! DEFINITION. The Ethernet MACs (R341 to R345, R469, R470): stamps, PTP messages, the packets of the Range Intake and the host
network paths. -/

namespace Sys2Proof.Machine

/-! ### Frames (R290, R342) -/

/-- A frame as R290 and R342 look at it: EtherType after at most one 802.1Q tag, UDP destination port, and the payload of that layer. -/
structure EthPkt where
  etherType : Nat
  udpPort : Option Nat
  payload : List Byte

/-- The UDP destination port and payload at an offset; LENGTH counts the UDP header. -/
def udpAt (b : List Byte) : Nat × List Byte := (beNat (slice b 2 2), (b.drop 8).take (beNat (slice b 4 2) - 8))

/-- Reads a frame, from its destination address on and without FCS (R290). -/
def EthPkt.parse (f : List Byte) : EthPkt :=
  let t := beNat (slice f 12 2)
  let tagged := t == 0x8100
  let et := if tagged then beNat (slice f 16 2) else t
  let l2 := f.drop (if tagged then 18 else 14)
  if et = 0x0800 ∧ leAt l2 9 1 = 17 then
    let u := udpAt (l2.drop (4 * (leAt l2 0 1 % 16)))
    { etherType := et, udpPort := some u.1, payload := u.2 }
  else if et = 0x86DD ∧ leAt l2 6 1 = 17 then
    let u := udpAt (l2.drop 40)
    { etherType := et, udpPort := some u.1, payload := u.2 }
  else { etherType := et, udpPort := none, payload := l2 }

/-- A PTP message (R342). -/
def EthPkt.isPtp (p : EthPkt) : Bool := p.etherType == 0x88F7 || p.udpPort == some 319 || p.udpPort == some 320

/-- A MAC claimed for a feature (R54). -/
def Image.macClaimed (i : Image) (mac : Nat) : Bool := i.resources.any (fun r => r.kind == 4 && r.index == mac && r.feature == 8)

/-- Packet buffers of a MAC, in bytes (R54, R289). -/
def Image.rangeSpace (i : Image) (mac : Nat) : Nat :=
  65536 * (i.resources.filter (fun r => r.kind == 3 && 64 ≤ r.index && r.index < 72 && r.feature == 7 && r.featureInst == mac)).length

/-! ### Stamps (R341) -/

/-- RX_LAT and TX_LAT of a MAC. -/
def State.rxLat (s : State) (mac : Nat) : Nat := (SMap.get 0 s.tb.tslat mac).toNat % 2 ^ 16
def State.txLat (s : State) (mac : Nat) : Nat := (SMap.get 0 s.tb.tslat mac).toNat / 2 ^ 16

/-- The stamp of a received frame, with its error of at most 2 ns. -/
def State.rxStamp (s : State) (mac draw : Nat) : Stamp := s.stampAt ((s.now : Int) + freeWithin draw (nsInst 2) - nsInst (s.rxLat mac)).toNat

/-- The stamp of a frame that is sent, with its error of at most 2 ns. -/
def State.txStamp (s : State) (mac draw : Nat) : Stamp := s.stampAt ((s.now : Int) + freeWithin draw (nsInst 2) + nsInst (s.txLat mac)).toNat

/-! ### Transmission (R344, R345) -/

/-- Whether a TS_CTRL word is valid for a frame of `len` bytes without FCS (R344). -/
def tsCtrlOk (w len : Nat) : Bool :=
  let tsOff := fld w 15 4
  let csOff := fld w 27 16
  fld w 3 2 == 0 && decide (w / 2 ^ 28 = 0) && decide (w % 4 < 3) &&
    (w % 4 != 2 || (decide (tsOff + 10 ≤ len) && (csOff == 0 || decide (csOff + 2 ≤ tsOff))))

/-- The one's-complement weight of a byte at an offset from the checksum. -/
def csWeight (off cs : Nat) (b : Byte) : Nat := if (off + cs) % 2 = 0 then b.toNat * 256 else b.toNat

/-- The sum of the bytes from an offset on. -/
def csSum (off cs : Nat) : List Byte → Nat
  | [] => 0
  | b :: t => csWeight off cs b + csSum (off + 1) cs t

/-- The checksum for the changed bytes (R345): one's-complement arithmetic, and 0x0000 is written as 0xFFFF. -/
def csUpdate (hc off cs : Nat) (old new : List Byte) : Nat :=
  0xFFFF - (0xFFFF - hc + csSum off cs new + (65535 - csSum off cs old % 65535)) % 65535

/-- One-step insertion (R345). -/
def insertStamp (f : List Byte) (tsOff csOff : Nat) (t : Instant) : List Byte :=
  let old := slice f tsOff 10
  let new := ptpBytes t
  let g := patch f tsOff new
  let hc := beNat (slice f csOff 2)
  if csOff = 0 ∨ hc = 0 then g else patch g csOff (beBytes 2 (csUpdate hc tsOff csOff old new))

/-- Sends a frame with a valid TS_CTRL: the frame as it leaves, with its FCS, and its stamp (R344, R345). -/
def State.sendFrame (s : State) (mac : Nat) (f : List Byte) (tsCtrl : Nat) : State × Stamp :=
  let r := s.draw
  let x := s.txStamp mac r.1
  let g := if tsCtrl % 4 = 2 then insertStamp f (fld tsCtrl 15 4) (fld tsCtrl 27 16) x.at_ else f
  (r.2.updHpath mac (fun h => { h with sent := h.sent ++ [g ++ fcsOf g] }), x)

/-- A completion of a frame of the time firmware. -/
def State.ptpComplete (s : State) (mac : Nat) (status : Byte) (stamp : Option Stamp) : State :=
  s.updHpath mac (fun h => { h with ptpDone := h.ptpDone ++ [(status, stamp)] })

/-- PTP_MESSAGE_SEND (R342, R344, R345): the completion carries the stamp under MODE 1 and 2; a TS_CTRL that is not valid fails the frame
with 0x62. -/
def execPtpMessageSend (mac : Nat) (frame : List Byte) (tsCtrl : Dword) (s : State) : Host.Outcome State Fault Refusal :=
  .next (if 4 ≤ mac ∨ !s.timeRuns then s
    else if tsCtrlOk tsCtrl.toNat frame.length then
      let r := s.sendFrame mac frame tsCtrl.toNat
      r.1.ptpComplete mac 0 (if tsCtrl.toNat % 4 = 0 then none else some r.2)
    else (s.updHpath mac (fun h => { h with last := 0x62 })).ptpComplete mac 0x62 none)

/-! ### The host network path (R469, R470) -/

/-- Writes a completion over its descriptor (R469); a place outside the carve-outs is not written (R129). -/
def State.hpComplete (s : State) (a status flags length seq addr : Nat) (stamp : List Byte) : State :=
  let b := leBytes 1 status ++ leBytes 1 flags ++ leBytes 2 length ++ leBytes 4 seq ++ leBytes 8 addr ++ slice stamp 0 12 ++ zeros 2
  if s.inCarve a 32 then s.put a (b ++ leBytes 2 (crc16Fold a b)) else s

/-- LAST_STATUS keeps the latest completion status that is not zero. -/
def State.hpStatus (s : State) (mac status : Nat) : State :=
  if status = 0 then s else s.updHpath mac (fun h => { h with last := BitVec.ofNat 8 status })

/-- A descriptor passes its CRC (R469, R391). -/
def hpCrcOk (a : Nat) (b : List Byte) : Bool := leAt b 30 2 == crc16Fold a (b.take 30)

/-- The control block's address. -/
def HpSt.cb (h : HpSt) : Nat := h.cbLo.toNat / 64 * 64 + h.cbHi.toNat % 2 ^ 16 * 2 ^ 32

/-- A control block lies in a package-owned DRAM carve-out (R469). -/
def State.cbOk (s : State) (a : Nat) : Bool :=
  match s.img.carveAt a with
  | some c => c.dram && c.owner == 0xF0 && decide (a + 64 ≤ c.base + c.size)
  | none => false

/-- Reads the control block when ENABLE becomes 1 (R469); one outside its place, unreadable or out of range answers 0x93. -/
def State.hpEnable (s : State) (mac : Nat) : State :=
  let a := (s.hpath mac).cb
  if !(s.img.macClaimed mac) ∨ !(s.cbOk a) ∨ s.carveClosed none a 64 then s.hpStatus mac 0x93
  else
    let f := s.fetch a 64
    let txl := leAt f.data 16 1
    let rxl := leAt f.data 17 1
    if f.status ≠ 0 ∨ txl < 2 ∨ 12 < txl ∨ rxl < 2 ∨ 12 < rxl then f.st.hpStatus mac 0x93
    else
      f.st.updHpath mac (fun h => { h with
        enabled := true, txRing := leAt f.data 0 8, rxRing := leAt f.data 8 8, txLog2 := txl, rxLog2 := rxl
        txTail := 0, rxTail := 0, txDone := 0, rxDone := 0, txSeq := 0, rxSeq := 0 })

/-- A write of ETH_HP_CB[m][0]. -/
def State.writeCbLo (s : State) (mac : Nat) (w : Word) : State :=
  let s1 := s.updHpath mac (fun h => { h with cbLo := BitVec.ofNat 32 (w.toNat / 64 * 64 + w.toNat % 2) })
  if !(bit w.toNat 0) then s1.updHpath mac (fun h => { h with enabled := false })
  else if (s.hpath mac).enabled then s1 else s1.hpEnable mac

def State.writeCbHi (s : State) (mac : Nat) (w : Word) : State :=
  s.updHpath mac (fun h => { h with cbHi := BitVec.ofNat 32 (w.toNat % 2 ^ 16) })

/-- ETH_HP_ENABLE (R469). -/
def execEthHpEnable (mac : Nat) (lo hi : Word) (s : State) : Host.Outcome State Fault Refusal :=
  .next (if 4 ≤ mac then s else (s.writeCbHi mac hi).writeCbLo mac lo)

/-- ETH_HP_DOORBELL (R470). -/
def execEthHpDoorbell (mac : Nat) (value : Word) (s : State) : Host.Outcome State Fault Refusal :=
  .next (if 4 ≤ mac then s
    else s.updHpath mac (fun h => { h with txTail := BitVec.ofNat 16 (value.toNat / 2 ^ 16), rxTail := BitVec.ofNat 16 value.toNat }))

/-- Reads a descriptor of 32 bytes at `a`; none when it lies outside the reach of the path. -/
def State.hpDesc (s : State) (a : Nat) : State × Option (List Byte) :=
  s.readOpen a 32

/-- A buffer in the reach of the path (R129; inside one carve-out: DEDUCED, assumption 95). -/
def State.hpReach (s : State) (a n : Nat) : Bool := s.inCarve a n && !(s.carveClosed none a n)

/-- The end of a transmit descriptor: its completion, TX_DONE, the interrupt (R463, R469, R470). -/
def State.txEnd (s : State) (mac a status flags length addr : Nat) (stamp : List Byte) (irq : Bool) : State :=
  let h := s.hpath mac
  let s1 := (s.hpComplete a status flags length h.txSeq.toNat addr stamp).updHpath mac (fun x => { x with
    txDone := x.txDone + 1, txSeq := x.txSeq + 1 })
  let s2 := (s1.put (h.cb + 32) (leBytes 2 (h.txDone + 1).toNat)).hpStatus mac status
  if irq then s2.msix (9 + 2 * mac) else s2

/-- ETH_HP_TRANSMIT (R344, R345, R470): the next transmit descriptor. -/
def State.hpTransmit (s : State) (mac : Nat) : State :=
  let h := s.hpath mac
  let a := h.txRing + h.txDone.toNat % 2 ^ h.txLog2 * 32
  let r := s.hpDesc a
  match r.2 with
  | none => r.1.txEnd mac a 0x93 0 0 0 [] false
  | some b =>
    let addr := leAt b 0 8
    let len := leAt b 8 2
    let irq := bit (leAt b 10 2) 0
    let ts := leAt b 16 8
    if !(hpCrcOk a b) then r.1.txEnd mac a 0x93 0 0 addr [] false
    else if len < 60 ∨ 9600 < len ∨ 2 ≤ leAt b 10 2 ∨ (b.drop 12).take 4 ≠ zeros 4 ∨ (b.drop 24).take 6 ≠ zeros 6 ∨ !(r.1.hpReach addr len) then
      r.1.txEnd mac a 0x93 0 len addr [] irq
    else if !(tsCtrlOk ts len) then r.1.txEnd mac a 0x62 0 len addr [] irq
    else
      let f := r.1.fetch addr len
      if f.status ≠ 0 then f.st.txEnd mac a f.status 0 len addr [] irq
      else
        let x := f.st.sendFrame mac f.data ts
        let stamped := ts % 4 ≠ 0
        x.1.txEnd mac a 0 (atBit stamped 2) len addr (if stamped then stampBytes x.2 else []) irq

def execEthHpTransmit (mac : Nat) (s : State) : Host.Outcome State Fault Refusal :=
  let h := s.hpath mac
  .next (if 4 ≤ mac ∨ !h.enabled ∨ h.txDone = h.txTail then s else (s.hpTransmit mac).settle)

/-! ### Reception (R289, R341 to R343, R470) -/

def State.rxDrop (s : State) (mac : Nat) : State := s.updHpath mac (fun h => { h with rxDrop := satInc h.rxDrop })

/-- The end of a receive descriptor. -/
def State.rxEnd (s : State) (mac a status flags length addr : Nat) (stamp : List Byte) (irq : Bool) : State :=
  let h := s.hpath mac
  let s1 := (s.hpComplete a status flags length h.rxSeq.toNat addr stamp).updHpath mac (fun x => { x with
    rxDone := x.rxDone + 1, rxSeq := x.rxSeq + 1 })
  let s2 := (s1.put (h.cb + 34) (leBytes 2 (h.rxDone + 1).toNat)).hpStatus mac status
  if irq then s2.msix (8 + 2 * mac) else s2

/-- A received frame takes the next free descriptor; descriptors that are not valid complete with 0x93 and the ring continues (R470). -/
def State.hpReceive (mac : Nat) (f : List Byte) (x : Stamp) : Nat → State → State
  | 0, s => s.rxDrop mac
  | fuel + 1, s =>
    let h := s.hpath mac
    if !h.enabled ∨ h.rxDone = h.rxTail then s.rxDrop mac
    else
      let a := h.rxRing + h.rxDone.toNat % 2 ^ h.rxLog2 * 32
      let r := s.hpDesc a
      match r.2 with
      | none => State.hpReceive mac f x fuel (r.1.rxEnd mac a 0x93 0 0 0 [] false)
      | some b =>
        let addr := leAt b 0 8
        let size := leAt b 8 2
        let irq := bit (leAt b 10 2) 0
        if !(hpCrcOk a b) then State.hpReceive mac f x fuel (r.1.rxEnd mac a 0x93 0 0 addr [] false)
        else if size < 64 ∨ 16384 < size ∨ size % 64 ≠ 0 ∨ 2 ≤ leAt b 10 2 ∨ (b.drop 12).take 18 ≠ zeros 18 ∨ !(r.1.hpReach addr size) then
          State.hpReceive mac f x fuel (r.1.rxEnd mac a 0x93 0 0 addr [] irq)
        else
          let g := f.take size
          (r.1.put addr g).rxEnd mac a 0 (atBit (decide (size < f.length)) 1 + 4) g.length addr (stampBytes x) irq

/-- The time firmware heeds the messages of domain PTP_DOMAIN on its ports (R342): the slave port on ETH_SRC_PORT and the master ports of
PTP_MASTER_MACS. The domain is byte 4 of a message (IEEE 1588; PRESUMED, assumption 155). -/
def State.ptpHeard (s : State) (mac : Nat) (message : List Byte) : Bool :=
  let x := s.img.time
  (([1, 2].contains x.source && x.ethSrcPort == mac) || bit x.ptpMasterMacs mac) && leAt message 4 1 == x.ptpDomain

/-- A packet of a range MAC enters the MAC's packet buffers (R289). -/
def State.rangeTake (s : State) (mac : Nat) (x : Stamp) (replay : Bool) (f : List Byte) : State :=
  let used := ((s.mac mac).buf.map (fun e => e.2.2.length)).sum
  if used + f.length ≤ s.img.rangeSpace mac then s.updMac mac (fun m => { m with buf := m.buf ++ [(x, replay, f)] })
  else (s.updMac mac (fun m => { m with dropFull := satInc m.dropFull })).raise 108 mac 0

/-- ETH_RECEIVE (R341): a frame from its destination address on, without its FCS, goes to the time firmware, the Range Intake or the
host path. -/
def State.ethReceive (s : State) (mac : Nat) (f : List Byte) (fcsOk : Bool) : State :=
  let r := s.draw
  let x := s.rxStamp mac r.1
  if !fcsOk then if s.img.macClaimed mac then r.2.rxDrop mac else r.2
  else if (EthPkt.parse f).isPtp then
    if s.ptpHeard mac (EthPkt.parse f).payload then r.2.updHpath mac (fun h => { h with ptp := h.ptp ++ [(x, f)] }) else r.2
  else if bit s.img.split.rangeMacs mac then if s.isReplay then r.2 else r.2.rangeTake mac x false f
  else if s.img.macClaimed mac then (State.hpReceive mac f x 65536 r.2).settle
  else r.2

def execEthReceive (mac : Nat) (frame : List Byte) (fcsOk : Bool) (s : State) : Host.Outcome State Fault Refusal :=
  .next (if 4 ≤ mac ∨ !s.timeRuns then s else s.ethReceive mac frame fcsOk)

end Sys2Proof.Machine
end

