-- ==== Sys2Proof/Machine/Isp.lean ====
section
/-! DEFINITION. The image pipelines (12_image_pipeline.md, R305 to R328): parameters and Facets, the stages, the pyramid and its
placement, statistics, and the start and completion of a frame. -/

namespace Sys2Proof.Machine

/-! ### A parameter bank (R325 to R327) -/

def bankBL (b : List Byte) (e q : Nat) : Nat := leAt b (64 + 16 * e + 4 * q) 4
def bankR (b : List Byte) (e : Nat) : Nat := leAt b (112 + 2 * e) 2
def bankKnee (b : List Byte) (e : Nat) : Nat := leAt b (120 + 4 * e) 4
def bankSat (b : List Byte) (e : Nat) : Nat := leAt b (128 + 4 * e) 4
def bankDpcT (b : List Byte) : Nat := leAt b 136 4
def bankG (b : List Byte) (q : Nat) : Nat := leAt b (140 + 2 * q) 2
def bankM (b : List Byte) (i j : Nat) : Int := toSigned 16 (leAt b (148 + 6 * i + 2 * j) 2)
def bankClip (b : List Byte) : Nat := leAt b 168 4
def bankTone (b : List Byte) (i : Nat) : Nat := leAt b (176 + 2 * i) 2
def bankLin (b : List Byte) (e i : Nat) : Nat := leAt b (768 + 1028 * e + 4 * i) 4

/-- Bytes of a bank that the table does not name. -/
def bankReserved : List (Nat × Nat) :=
  [(5, 55), (118, 2), (166, 2), (172, 4), (722, 46), (3852, 52)]

/-- The CRC and the reserved bytes of a bank (R327). -/
def bankCrcOk (b : List Byte) : Bool :=
  leAt b 60 4 == crc 3 (slice b 0 60 ++ slice b 64 3840) && bankReserved.all (fun r => (slice b r.1 r.2).all (· == 0))

/-- The values of a bank for a camera (R327). -/
def bankValuesOk (b : List Byte) (exposures bits : Nat) : Bool :=
  (List.range exposures).all (fun e =>
    (List.range 256).all (fun i => decide (bankLin b e i ≤ bankLin b e (i + 1))) && decide (bankLin b e 256 ≤ 0xFFFFFF) &&
      (List.range 4).all (fun q => decide (bankBL b e q < 2 ^ bits)) && (if e = 0 then bankR b 0 == 16 else decide (16 ≤ bankR b e)) &&
      (e + 1 == exposures || decide (bankKnee b e < bankSat b e ∧ bankSat b e ≤ 0xFFFFFF))) &&
    decide (bankDpcT b ≤ 0xFFFFFFF) && decide (bankClip b ≤ 0xFFFFFFF) &&
      (List.range 272).all (fun i => decide (bankTone b i ≤ bankTone b (i + 1)))

/-! ### Stages 1 to 4 (R306 to R311) -/

/-- Reflection at the image's edges (R307). -/
def reflect (x : Int) (w : Nat) : Nat := (if x < 0 then -x else if (w : Int) ≤ x then 2 * ((w : Int) - 1) - x else x).toNat

/-- CFA position of a pixel. -/
def cfaPos (x y : Nat) : Nat := 2 * (y % 2) + x % 2

/-- Stage 1 (R308). -/
def linearise (b : List Byte) (bits e q p : Nat) : Nat :=
  let d := p - bankBL b e q
  let sh := bits - 8
  let i := d / 2 ^ sh
  let f := d - i * 2 ^ sh
  let lo := bankLin b e i
  lo + ((bankLin b e (i + 1) - lo) * f + 2 ^ sh / 2) / 2 ^ sh

/-- The merge of R309: linear values from exposure `e` on. -/
def mergeExp (b : List Byte) : Nat → List Nat → Nat
  | _, [] => 0
  | e, l :: rest =>
    let v := min 0xFFFFFFF (l * bankR b e / 16)
    match rest with
    | [] => v
    | _ =>
      if l ≤ bankKnee b e then v
      else if bankSat b e ≤ l then mergeExp b (e + 1) rest
      else
        let a := (l - bankKnee b e) * 256 / (bankSat b e - bankKnee b e)
        (v * (256 - a) + mergeExp b (e + 1) rest * a + 128) / 256

/-- Stage 2 (R309): with one exposure the linear value itself. -/
def mergeAll (b : List Byte) (lins : List Nat) : Nat :=
  match lins with
  | [l] => l
  | _ => mergeExp b 0 lins

/-- A plane of an image, row-major. -/
structure Plane where
  w : Nat
  h : Nat
  data : Array Nat

def Plane.at (p : Plane) (x y : Nat) : Nat := p.data.getD (y * p.w + x) 0

/-- A reflected read (R307). -/
def Plane.rd (p : Plane) (x y : Nat) (dx dy : Int) : Nat := p.at (reflect ((x : Int) + dx) p.w) (reflect ((y : Int) + dy) p.h)

/-- A plane from a function of column and row. -/
def Plane.gen (w h : Nat) (f : Nat → Nat → Nat) : Plane :=
  { w := w, h := h, data := ((List.range h).flatMap fun y => (List.range w).map fun x => f x y).toArray }

/-- The two middle ones of four values. -/
def middle4 (l : List Nat) : Nat × Nat :=
  let s := l.mergeSort (fun a b => decide (a ≤ b))
  (s.getD 1 0, s.getD 2 0)

/-- Stage 3 at one pixel (R310). -/
def defect (b : List Byte) (cfa : Nat) (p : Plane) (x y : Nat) : Nat :=
  let v := p.at x y
  if leAt b 4 1 % 2 = 0 then v
  else
    let k : Int := if cfa = 0 then 1 else 2
    let hv := [p.rd x y k 0, p.rd x y (-k) 0, p.rd x y 0 k, p.rd x y 0 (-k)]
    let ns := hv ++ [p.rd x y k k, p.rd x y k (-k), p.rd x y (-k) k, p.rd x y (-k) (-k)]
    let mx := ns.foldl max 0
    let mn := ns.foldl min mx
    if mx + bankDpcT b < v ∨ v + bankDpcT b < mn then
      let m := middle4 hv
      (m.1 + m.2 + 1) / 2
    else v

/-- Stage 4 (R311). -/
def whiteBalance (b : List Byte) (q v : Nat) : Nat := min 0xFFFFFFF ((v * bankG b q + 2048) / 4096)

/-! ### Stages 5 to 7 (R312 to R314) -/

/-- Channel of a CFA position (R312). -/
def cfaChannel (cfa q : Nat) : Nat :=
  (match cfa with
   | 1 => [0, 1, 1, 2]
   | 2 => [1, 0, 2, 1]
   | 3 => [1, 2, 0, 1]
   | 4 => [2, 1, 1, 0]
   | 5 => [0, 1, 1, 2]
   | _ => [0, 1, 1, 1]).getD q 0

/-- A missing channel at a pixel (R312): position `q` with its column flipped is q xor 1, with its row flipped q xor 2. -/
def missingChannel (cfa ch : Nat) (p : Plane) (x y : Nat) : Nat :=
  let q := cfaPos x y
  let l := p.rd x y (-1) 0
  let r := p.rd x y 1 0
  let u := p.rd x y 0 (-1)
  let d := p.rd x y 0 1
  let lr := cfaChannel cfa (q ^^^ 1) == ch
  let ud := cfaChannel cfa (q ^^^ 2) == ch
  let dl := (max l r) - (min l r)
  let du := (max u d) - (min u d)
  if lr && ud then if dl < du then (l + r + 1) / 2 else if du < dl then (u + d + 1) / 2 else (l + r + u + d + 2) / 4
  else if lr then (l + r + 1) / 2
  else if ud then (u + d + 1) / 2
  else (p.rd x y (-1) (-1) + p.rd x y 1 (-1) + p.rd x y (-1) 1 + p.rd x y 1 1 + 2) / 4

/-- Stage 5: the three planes at a pixel (R312). -/
def demosaic (cfa : Nat) (p : Plane) (x y : Nat) : List Nat :=
  let v := p.at x y
  if cfa = 0 then [v, v, v]
  else
    let ch := fun (c : Nat) => if cfaChannel cfa (cfaPos x y) = c then v else missingChannel cfa c p x y
    if cfa = 6 then [ch 0, ch 1, ch 1] else [ch 0, ch 1, ch 2]

/-- Stage 6 (R313). -/
def colour (b : List Byte) (ps : List Nat) : List Nat :=
  (List.range 3).map fun i =>
    let t := (List.range 3).foldl (fun (acc : Int) j => acc + bankM b i j * (ps.getD j 0 : Nat)) 2048
    (clampInt 0 0xFFFFFFF (t / 4096)).toNat

/-- Stage 7 (R314). -/
def tone (b : List Byte) (c : Nat) : Nat :=
  let s := if c < 2 ^ 12 then 0 else Nat.log2 c - 11
  let base := if c < 2 ^ 12 then 0 else 2 ^ (s + 11)
  let w := if c < 2 ^ 12 then 2 ^ 8 else 2 ^ (s + 7)
  let j := 16 * s + (c - base) / w
  let f := (c - base) % w
  let lo := bankTone b j
  lo + ((bankTone b (j + 1) - lo) * f + w / 2) / w

/-! ### The frame as an image (R305, R306, R320) -/

/-- What stages need to know of a camera. -/
structure IspView where
  bind : CameraBind
  intake : IntakeCamera
  isp : IspCamera

def State.ispView (s : State) (cam : Nat) : Option IspView :=
  match s.bindOf cam, s.intakeOf cam, s.img.isp.cameras.find? (fun c => c.camera == cam) with
  | some b, some i, some c => some { bind := b, intake := i, isp := c }
  | _, _, _ => none

def IspView.w (v : IspView) : Nat := v.intake.width
def IspView.h (v : IspView) : Nat := v.intake.height / v.isp.exposures
def IspView.bits (v : IspView) : Nat := rawBits v.bind.dataType

/-- Stages 1 and 2 (R308, R309) on the pixels of a raw slot, image lines only. -/
def IspView.merged (v : IspView) (b : List Byte) (raw : Array Nat) : Plane :=
  Plane.gen v.w v.h fun x y =>
    let q := cfaPos x y
    mergeAll b ((List.range v.isp.exposures).map fun e =>
      linearise b v.bits e q (raw.getD ((y * v.isp.exposures + e) * v.w + x) 0))

/-- Stage 3 (R310). -/
def IspView.stage3 (v : IspView) (b : List Byte) (raw : Array Nat) : Plane :=
  let m := v.merged b raw
  Plane.gen v.w v.h (defect b v.isp.cfa m)

/-- Planes at a pixel for the pyramid, after stage 7 (R311 to R314). -/
def IspView.stage7 (v : IspView) (b : List Byte) (p3 : Plane) : List Plane :=
  let p4 := Plane.gen v.w v.h fun x y => whiteBalance b (cfaPos x y) (p3.at x y)
  (List.range (if v.isp.chMode = 1 then 1 else 3)).map fun i =>
    Plane.gen v.w v.h fun x y => tone b ((colour b (demosaic v.isp.cfa p4 x y)).getD i 0)

/-- A JPEG frame's planes (R320). -/
def IspView.jpegPlanes (v : IspView) (planes : List (List Nat)) : List Plane :=
  let pl := planes.map (·.toArray)
  let px := fun (c x y : Nat) => (((pl.getD c #[]).getD (y * v.w + x) 0 : Nat) : Int)
  let rgb := fun (i x y : Nat) =>
    let yy := px 0 x y
    let cb := px 1 x y - 128
    let cr := px 2 x y - 128
    clampInt 0 255 (match i with
      | 0 => yy + (91881 * cr + 32768) / 65536
      | 1 => yy + (-22554 * cb - 46802 * cr + 32768) / 65536
      | _ => yy + (116130 * cb + 32768) / 65536)
  (List.range (if v.isp.chMode = 1 then 1 else 3)).map fun i => Plane.gen v.w v.h fun x y => 257 * (rgb i x y).toNat

/-! ### Pyramid and output (R315 to R317) -/

/-- The next level (R315). -/
def Plane.half (p : Plane) : Plane :=
  Plane.gen (ceilDiv p.w 2) (ceilDiv p.h 2) fun x y =>
    let x1 := min (2 * x + 1) (p.w - 1)
    let y1 := min (2 * y + 1) (p.h - 1)
    (p.at (2 * x) (2 * y) + p.at x1 (2 * y) + p.at (2 * x) y1 + p.at x1 y1 + 2) / 4

/-- Level `l` of a plane. -/
def Plane.level (p : Plane) : Nat → Plane
  | 0 => p
  | l + 1 => (p.level l).half

/-- A 16-bit value in OUT_FMT (R316). -/
def outCode (fmt t : Nat) : Nat :=
  match fmt with
  | 0x07 => (roundTo .fp16 (.fin ((t : Rat) / 65535)) none).code
  | 0x08 => (roundTo .bf16 (.fin ((t : Rat) / 65535)) none).code
  | _ => (t + 128) / 257

/-- Bytes of an element of OUT_FMT. -/
def outBytes (fmt : Nat) : Nat := if fmt = 0x04 then 1 else 2

/-- PACK_LOG2 of a level, as a factor. -/
def packFactor (pack l : Nat) : Nat := 2 ^ (pack / 2 ^ (3 * l) % 8)

/-- Size of a written level (R317). -/
def IspView.levelBytes (v : IspView) (l : Nat) : Nat :=
  let hl := ceilDiv v.h (2 ^ l)
  let wl := ceilDiv v.w (2 ^ l)
  ceilDiv (hl * ceilDiv wl (packFactor v.isp.pack l) * 32 * outBytes v.isp.outFmt) 64 * 64

/-- The levels that LEVELS enables. -/
def IspView.levels (v : IspView) : List Nat := (List.range 5).filter fun l => bit v.isp.levels l

/-- Size of an output slot. -/
def IspView.slotBytes (v : IspView) : Nat := (v.levels.map v.levelBytes).sum

/-- The bytes of a level: a B32 tensor (R316). -/
def IspView.levelData (v : IspView) (planes : List Plane) (l : Nat) : List Byte :=
  let ps := planes.map (fun p => p.level l)
  let n := ps.length
  let f := packFactor v.isp.pack l
  let hl := ceilDiv v.h (2 ^ l)
  let wl := ceilDiv v.w (2 ^ l)
  let eb := outBytes v.isp.outFmt
  let b := (List.range hl).flatMap fun y => (List.range (ceilDiv wl f)).flatMap fun x' => (List.range 32).flatMap fun c =>
    let x := f * x' + c / n
    if c < n * f ∧ x < wl then
      match ps[c % n]? with
      | some p => leBytes eb (outCode v.isp.outFmt (p.at x y))
      | none => zeros eb
    else zeros eb
  slice b 0 (v.levelBytes l)

/-- Address of an output slot of frame `k` (R317). -/
def State.outSlot (s : State) (v : IspView) (k : Nat) : Nat := s.img.carveBase v.isp.outCarve + v.isp.outOff + k % 2 * v.slotBytes

/-- Writes the levels in ascending order; none of the planes of a void frame exists, so it writes zeros (R317, R321). -/
def State.putLevels (s : State) (v : IspView) (k : Nat) (planes : Option (List Plane)) : State :=
  (v.levels.foldl (fun (acc : State × Nat) l =>
    let bs := match planes with
      | some ps => v.levelData ps l
      | none => zeros (v.levelBytes l)
    (acc.1.put acc.2 bs, acc.2 + v.levelBytes l)) (s, s.outSlot v k)).1

/-! ### The checker copy (R319) -/

/-- Pixel bytes of a copy. -/
def copyPixels (v : IspView) (planes : Option (List Plane)) : List Byte :=
  let hl := ceilDiv v.h 8
  let wl := ceilDiv v.w 8
  match planes with
  | none => zeros (4 * hl * wl)
  | some ps =>
    let qs := ps.map (fun p => p.level 3)
    (List.range hl).flatMap fun y => (List.range wl).flatMap fun x =>
      ((List.range 3).flatMap fun i => match qs[i]? with | some p => leBytes 1 (outCode 0x04 (p.at x y)) | none => zeros 1) ++ zeros 1

/-- A checker copy at an address. -/
def copyBytes (a : Nat) (v : IspView) (j : FrameJob) (isVoid : Bool) (paramSeq seq : Nat) (px : List Byte) : List Byte :=
  let h := leBytes 4 j.k ++ leBytes 1 v.bind.pipe ++
    leBytes 1 (atBit isVoid 0 + atBit (bit j.flags noteStrictCut) 1 + atBit j.replay 2) ++
    leBytes 2 (ceilDiv v.w 8) ++ leBytes 2 (ceilDiv v.h 8) ++ zeros 6 ++ leBytes 8 (timeWordOf j.capture.at_) ++ leBytes 4 paramSeq ++
    leBytes 4 seq ++ leBytes 4 (crc 4 px) ++ zeros 26
  h ++ leBytes 2 (crc16Fold a h) ++ px

/-- Writes the checker copy of a strict pipeline. -/
def State.putCopy (s : State) (v : IspView) (j : FrameJob) (planes : Option (List Plane)) (paramSeq : Nat) : State :=
  if s.isStrict v.bind.pipe then
    let i := s.img
    let a := i.carveBase i.split.chkPyrCarve + (2 * v.bind.pipe + j.k % 2) * i.isp.chkSlot
    (s.put a (copyBytes a v j planes.isNone paramSeq (s.pipe v.bind.pipe).chkSeq.toNat (copyPixels v planes))).updPipe v.bind.pipe
      (fun p => { p with chkSeq := p.chkSeq + 1 })
  else s

/-! ### Statistics (R323, R324) -/

/-- One quad's four values, by CFA position. -/
def quadValues (p : Plane) (i j : Nat) : List Nat := (List.range 4).map fun q => p.at (2 * i + q % 2) (2 * j + q / 2)

/-- What a zone gathers. -/
structure ZoneSum where
  sum : List Nat := [0, 0, 0, 0]
  quads : Nat := 0
  clipped : Nat := 0

/-- Adds a quad to a zone. -/
def ZoneSum.add (z : ZoneSum) (clip : Nat) (vs : List Nat) : ZoneSum :=
  { sum := List.zipWith (· + ·) z.sum vs, quads := z.quads + 1, clipped := z.clipped + (if vs.any (fun x => decide (clip ≤ x)) then 1 else 0) }

def ZoneSum.bytes (z : ZoneSum) : List Byte := z.sum.flatMap (leBytes 8) ++ leBytes 4 z.quads ++ leBytes 4 z.clipped

/-- The histogram and the zones of a frame (R323). -/
def gatherStats (b : List Byte) (p : Plane) : List Byte :=
  let qw := p.w / 2
  let qh := p.h / 2
  let quads := (List.range qh).flatMap fun j => (List.range qw).map fun i => (i, j)
  let r := quads.foldl (fun (acc : Array Nat × Array ZoneSum) e =>
    let vs := quadValues p e.1 e.2
    let bin := tone b ((vs.sum + 2) / 4) / 256
    (acc.1.modify bin (· + 1), acc.2.modify (16 * e.2 / qh * 16 + 16 * e.1 / qw) (fun z => z.add (bankClip b) vs)))
    (Array.replicate 256 0, Array.replicate 256 {})
  r.1.toList.flatMap (leBytes 4) ++ r.2.toList.flatMap ZoneSum.bytes

/-- A statistics record of 11,328 bytes (R324); VALID tells that statistics were gathered (DEDUCED, assumption 100). -/
def statBytes (j : FrameJob) (isVoid bank : Bool) (paramSeq seq : Nat) (body : List Byte) : List Byte :=
  let flags := atBit (!isVoid && !j.jpeg) 0 + atBit j.jpeg 1 + atBit isVoid 2 + atBit j.paramErr 3
  let h := leBytes 4 j.k ++ leBytes 2 flags ++ leBytes 1 (atBit bank 0) ++ zeros 1 ++ leBytes 4 paramSeq ++ zeros 4 ++
    leBytes 8 (timeWordOf j.capture.at_) ++ zeros 24 ++ leBytes 4 seq ++ zeros 4
  h ++ leBytes 4 (crc 4 (h ++ body)) ++ zeros 4 ++ body

def State.putStats (s : State) (v : IspView) (j : FrameJob) (isVoid : Bool) (f : FctxSt) (body : List Byte) : State :=
  let a := s.img.carveBase v.isp.statCarve + v.isp.statOff + j.k % 2 * 11328
  (s.put a (statBytes j isVoid f.active (leAt f.bank 0 4) (s.cam j.camera).statSeq.toNat body)).updCam j.camera
    (fun c => { c with statSeq := c.statSeq + 1 })

/-! ### The start of a frame (R283, R318, R326, R327, R337) -/

/-- The Facet index of a camera. -/
def facetIndex (b : CameraBind) : Nat := b.pipe * 2 + b.facet

/-- The waiting frames of a pipeline, those of Facet 0 first. -/
def State.waitingJobs (s : State) (pipe : Nat) : List (IspView × FrameJob) :=
  (List.range 2).flatMap fun f =>
    match s.img.cameraBinds.find? (fun b => b.pipe == pipe && b.facet == f) with
    | some b => match s.ispView b.camera with
      | some v => (s.cam b.camera).waiting.map fun j => (v, j)
      | none => []
    | none => []

/-- The first of the frames with the earliest capture time. -/
def earliestJob : List (IspView × FrameJob) → Option (IspView × FrameJob)
  | [] => none
  | a :: rest => match earliestJob rest with
    | some b => if b.2.capture.at_ < a.2.capture.at_ then some b else some a
    | none => some a

/-- The waiting frame of a pipeline with the earliest capture time, Facet 0 first on a tie (R283). -/
def State.nextJob (s : State) (pipe : Nat) : Option (IspView × FrameJob) := earliestJob (s.waitingJobs pipe)

/-- A frame dropped as stale (R283): its note, with VOID for a void sample (R298), its count and SEV-101; the slot is free. -/
def State.dropStale (s : State) (v : IspView) (j : FrameJob) : State :=
  let s1 := s.writeNote j ((if j.void then j.mark noteVoid else j).mark noteStale).flags 0
  (s1.updCam j.camera (fun c => { c with stale := satInc c.stale })).raiseDie (v.bind.pipe / 4) 101 j.camera 0

/-- Reads and checks the armed bank (R326, R327): the bank, or the cause of its refusal. -/
def State.readBank (s : State) (v : IspView) (bank : Bool) : State × Sum (List Byte) Nat :=
  let a := s.img.carveBase v.isp.paramCarve + v.isp.paramOff + (if bank then 3904 else 0)
  if s.carveClosed none a 3904 then (s, .inr 3)
  else
    let f := s.fetch a 3904
    if f.status ≠ 0 then (f.st, .inr 3)
    else if !(bankCrcOk f.data) then (f.st, .inr 1)
    else if !(bankValuesOk f.data v.isp.exposures v.bits) then (f.st, .inr 2)
    else (f.st, .inl f.data)

/-- The latch of ARM at a frame start (R326); gives whether the arm failed. -/
def State.latchArm (s : State) (v : IspView) : State × Bool :=
  let i := facetIndex v.bind
  let f := s.facet i
  if !f.arm then (s, false)
  else
    let r := s.readBank v f.armBank
    match r.2 with
    | .inl b => (r.1.updFacet i (fun x => { x with arm := false, active := x.armBank, hasParams := true, bank := b }), false)
    | .inr c => (r.1.updFacet i (fun x => { x with arm := false, armErr := true, errCause := BitVec.ofNat 3 c }), true)

/-- The consumers of frame k - 2 have finished (R318). -/
def State.freeOk (s : State) (v : IspView) (k : Nat) : Bool :=
  v.isp.freeSync == 0xFFFFFFFF ||
    decide (0 ≤ toSigned 32 (((s.syncCount (refCluster v.isp.freeSync) (refObject v.isp.freeSync)).toNat + 2 ^ 32 + 1) - k % 2 ^ 32))

/-- Starts a chosen frame, or drops it as stale (R283, R337). -/
def State.startJob (s : State) (v : IspView) (j : FrameJob) : State :=
  let p := v.bind.pipe
  let now := s.dieFrameTime (p / 4)
  let s0 := s.updPipe p (fun x => { x with chosen := none, waitFree := false })
  if j.capture.at_ + nsInst v.bind.staleNs < now ∨ j.capture.epoch ≠ s.tb.epoch then s0.dropStale v j
  else
    let r := s0.latchArm v
    r.1.updPipe p (fun x => { x with cur := some { j with start := now, startMono := s.mono, paramErr := r.2 } })

/-- PIPELINE_FRAME_START (R283, R318): the next frame is chosen, waits for its consumers, then starts. -/
def State.pipelineStart (s : State) (p : Nat) : State :=
  let x := s.pipe p
  if x.cur.isSome ∨ s.dieDown (p / 4) then s
  else match x.chosen with
    | some j => match s.ispView j.camera with
      | some v => if s.freeOk v j.k then s.startJob v j else s
      | none => s
    | none => match s.nextJob p with
      | some (v, j) =>
        let s1 := s.updCam j.camera (fun c => { c with waiting := c.waiting.erase j })
        if s.freeOk v j.k then s1.startJob v j else s1.updPipe p (fun y => { y with chosen := some j, waitFree := true })
      | none => s

def execPipelineFrameStart (pipe : Nat) (s : State) : Host.Outcome State Fault Refusal :=
  .next (if pipe < 16 then (s.pipelineStart pipe).settle else s)

/-! ### The completion of a frame (R321, R322) -/

/-- Reads the image lines of a raw slot: the pixels, or none on an uncorrectable error (R321). -/
def State.readRaw (s : State) (v : IspView) (slot : Nat) : State × Option (Array Nat) :=
  let pb := rawBytes v.bits
  let a := s.rawSlot v.bind v.intake slot + v.intake.embLines * v.intake.width * pb
  let f := s.fetch a (v.intake.height * v.intake.width * pb)
  if f.status ≠ 0 then (f.st, none) else (f.st, some ((chunks pb f.data).map leNat).toArray)

/-- The writes of a frame in the order of R322: levels, checker copy, statistics, note, FRAME_SYNC. -/
def State.deliverFrame (s : State) (v : IspView) (j : FrameJob) (planes : Option (List Plane)) (stats : List Byte) : State :=
  let f := s.facet (facetIndex v.bind)
  let seq := leAt f.bank 0 4
  let s1 := (s.putLevels v j.k planes).putCopy v j planes seq
  let s2 := s1.putStats v j planes.isNone f stats
  let j1 := j.mark noteAccepted
  let j2 := if planes.isNone then j1.mark noteVoid else j1
  let s3 := (s2.writeNote j2 j2.flags (timeWordOf j.start)).setObject v.intake.frameSync ((j.k + 1) % 2 ^ 32)
  (s3.updCam j.camera (fun c => { c with ok := c.ok + 1 })).updPipe v.bind.pipe (fun p => { p with
    cur := none, frames := p.frames + 1, lastFrame := BitVec.ofNat 16 j.k
    durUs := BitVec.ofNat 16 (min 0xFFFF ((s.mono - j.startMono) / nsInst 1000)) })

/-- Zero statistics. -/
def noStats : List Byte := zeros 11264

/-- PIPELINE_FRAME_COMPLETE (R305, R320 to R322). -/
def State.completeFrame (s : State) (v : IspView) (j : FrameJob) : State :=
  let f := s.facet (facetIndex v.bind)
  if j.void ∨ !f.hasParams then s.deliverFrame v j none noStats
  else if j.jpeg then s.deliverFrame v j (some (v.jpegPlanes j.planes)) noStats
  else
    let r := s.readRaw v j.slot
    match r.2 with
    | none => (r.1.deliverFrame v j none noStats).updBeat (fun b => { b with invalidNext := true })
    | some raw =>
      let p3 := v.stage3 f.bank raw
      r.1.deliverFrame v j (some (v.stage7 f.bank p3)) (gatherStats f.bank p3)

def execPipelineFrameComplete (pipe : Nat) (s : State) : Host.Outcome State Fault Refusal :=
  .next (match (s.pipe pipe).cur with
    | some j =>
      if pipe < 16 ∧ j.ended ∧ !(s.dieDown (pipe / 4)) then
        match s.ispView j.camera with
        | some v => (s.completeFrame v j).settle
        | none => s
      else s
    | none => s)

/-! ### ISP_FCTX (R326) -/

/-- A write of ISP_FCTX[i]: ARM is set by 1, ARM_BANK takes its bit, ARM_ERR is cleared by 1. -/
def State.writeFctx (s : State) (i w : Nat) : State :=
  s.updFacet i (fun f => { f with arm := f.arm || bit w 31, armBank := bit w 30, armErr := f.armErr && !(bit w 27) })

/-- ARM (R326). -/
def execArm (die index : Nat) (value : Word) (s : State) : Host.Outcome State Fault Refusal :=
  .next (if 4 ≤ die ∨ 8 ≤ index then s
    else if s.dieOpen die then s.writeFctx (die * 8 + index) value.toNat else s.dropAt die)

end Sys2Proof.Machine
end

