-- ==== Sys2Proof/Machine/ImageParse.lean ====
section
/-! DEFINITION. The bytes of a structure image as data: header, section table and sections (R35 to R54; 03 R91, R94; 11 R279;
12 R328; 13 R353; 14 R356). The fields are read whatever their values; ImageCheck.lean judges them. -/

namespace Sys2Proof.Machine

/-- An entry of the section table (R37). -/
structure SectEntry where
  type : Nat
  inst : Nat
  version : Nat
  offset : Nat
  length : Nat
  crc : Nat
deriving DecidableEq, Repr

def imgBodyLen (b : List Byte) : Nat := leAt b 8 4
def imgSectCount (b : List Byte) : Nat := leAt b 0x0C 2

/-- The header (R35). -/
def parseHeader (b : List Byte) : ImageHeader where
  variants := leAt b 0x10 1
  steppings := leAt b 0x11 1
  deploy := leAt b 0x12 1
  chipCount := leAt b 0x13 1
  secVersion := leAt b 0x14 4
  imageId := leAt b 0x18 8
  keySlot := leAt b 0x20 4
  format := leAt b 4 2
  bodyDigest := slice b 0x30 64

/-- The section table (R37). -/
def sectTable (b : List Byte) : List SectEntry :=
  (List.range (imgSectCount b)).map fun i =>
    let e := slice b (0x80 + 16 * i) 16
    { type := leAt e 0 1, inst := leAt e 1 1, version := leAt e 2 2, offset := leAt e 4 4, length := leAt e 8 4,
      crc := leAt e 12 4 }

/-- The bytes of a section. -/
def sectBytes (b : List Byte) (e : SectEntry) : List Byte := (b.drop e.offset).take e.length

/-- The bytes of the single section of a type. -/
def sectOf (b : List Byte) (type : Nat) : List Byte :=
  match (sectTable b).find? (fun e => e.type == type) with
  | some e => sectBytes b e
  | none => []

/-- The place of the section of a type in the table. -/
def sectIndex (b : List Byte) (type : Nat) : Nat := (sectTable b).findIdx (fun e => e.type == type)

/-- The entries of a multi-entry section with a 16-byte section header. -/
def entriesOf (size : Nat) (sec : List Byte) : List (List Byte) := (chunks size (sec.drop 16)).take (leAt sec 0 4)

/-- TILE_MAP (R39). -/
def parseTile (e : List Byte) : TileMapEntry where
  role := leAt e 1 1
  balGroup := leAt e 2 1
  goldenQueue := leAt e 4 2

/-- CHANNEL_SPLIT (R41). -/
def parseSplit (e : List Byte) : ChannelSplit where
  strictPipes := leAt e 0 2
  rangeMacs := leAt e 2 1
  gridX := leAt e 4 2
  gridY := leAt e 6 2
  cellMm := leAt e 8 2
  chkPyrCarve := leAt e 10 2
  cmpOffset := leAt e 12 1
  cmpLength := leAt e 13 1

/-- REGIONS (R42). -/
def parseRegion (e : List Byte) : RegionEntry where
  fencePolicy := leAt e 1 1
  updateOrder := leAt e 2 1
  dieServer := leAt e 3 1

/-- QUEUE_ALLOC (R43). -/
def parseQueue (e : List Byte) : QueueAlloc where
  queue := leAt e 0 2
  engine := leAt e 2 1
  doorbellOnly := leAt e 3 1 == 1
  ringBase := leAt e 4 8
  ringLog2 := leAt e 12 1
  balGroup := leAt e 13 1

/-- A schedule entry (R91). -/
def parseSchedEntry (e : List Byte) : SchedEntry where
  beat := leAt e 0 2 + leAt e 2 1 / 128 * 65536
  release := leAt e 2 1 % 16 == 1
  count := leAt e 3 1
  queue := leAt e 4 2
  offsetNs := leAt e 6 2
  sync := leAt e 8 4
  value := leAt e 12 4

/-- SCHEDULE (R45). -/
def parseSchedule (index inst : Nat) (sec : List Byte) : Schedule where
  index := index
  inst := inst
  modeId := leAt sec 0 1
  missing := leAt sec 1 1
  commitTile := leAt sec 2 1
  busyNs := leAt sec 8 4
  slackNs := leAt sec 12 4
  entries := ((chunks 16 (sec.drop 32)).take (leAt sec 4 4)).map parseSchedEntry

/-- CARVEOUTS (R46). -/
def parseCarve (e : List Byte) : Carveout where
  id := leAt e 0 2
  dram := leAt e 2 1 == 1
  eccClass := leAt e 3 1
  owner := leAt e 4 1
  base := leAt e 8 8
  size := leAt e 16 8

/-- RESOURCES (R54). -/
def parseClaim (e : List Byte) : ResourceClaim where
  kind := leAt e 0 1
  index := leAt e 1 2
  feature := leAt e 3 1
  featureInst := leAt e 4 1

/-- CAMERA_BIND (R48). -/
def parseBind (e : List Byte) : CameraBind where
  camera := leAt e 0 1
  receiver := leAt e 1 1
  vc := leAt e 2 1
  dataType := leAt e 3 1
  pipe := leAt e 4 1
  facet := leAt e 5 1
  fsyncTrig := leAt e 6 1
  latencyNs := leAt e 8 4
  staleNs := leAt e 12 4

/-- SAFETY (R50). -/
def parseSafety (e : List Byte) : SafetySec where
  frameNs := leAt e 0 4
  beatNs := leAt e 4 2
  consec := leAt e 6 1
  k := leAt e 7 1
  m := leAt e 8 1
  latentMs := leAt e 10 2
  maxAgeNs := leAt e 12 4
  slackReserveNs := leAt e 16 2
  clockFloorMhz := leAt e 18 2

/-- MODE_SET (R52). -/
def parseMode (e : List Byte) : ModeEntry where
  modeId := leAt e 0 1
  determinism := leAt e 1 1
  balance := leAt e 2 1
  safety := leAt e 3 1
  input := leAt e 4 1

/-- PAYLOAD (R94). -/
def parseField (e : List Byte) : PayField where
  off := leAt e 1 1
  len := leAt e 2 1
  omitMask := leAt e 3 1

def parsePayload (sec : List Byte) : PayloadSec :=
  let es := entriesOf 16 sec
  let g := es.headD []
  { ringLog2 := leAt g 1 1, ringCarve := leAt g 2 2, stageOff := leAt g 4 4, fields := (es.drop 1).map parseField }

/-- The entries of a KIND. -/
def ofKind (k : Nat) (es : List (List Byte)) : List (List Byte) := es.filter fun e => leAt e 0 1 == k

/-- Signed 16-bit values from an offset. -/
def int16s (e : List Byte) (off n : Nat) : List Int := (List.range n).map fun i => toSigned 16 (leAt e (off + 2 * i) 2)

/-- INTAKE (R279). -/
def parseIntakeCamera (e : List Byte) : IntakeCamera where
  camera := leAt e 1 1
  width := leAt e 2 2
  height := leAt e 4 2
  embLines := leAt e 6 1
  rawCarve := leAt e 8 2
  noteCarve := leAt e 10 2
  frameSync := leAt e 12 4
  rawOff := leAt e 16 4
  noteOff := leAt e 20 4

def parseTemplate (e : List Byte) : RangeTemplate where
  mac := leAt e 1 1
  etherType := leAt e 2 2
  udpPort := leAt e 4 2
  hdrLen := leAt e 6 2
  ptStride := leAt e 8 2
  ptMax := leAt e 10 2
  coord := leAt e 12 1
  xOff := leAt e 13 1
  yOff := leAt e 14 1
  zOff := leAt e 15 1
  unitUm := leAt e 16 4
  latencyNs := leAt e 20 4
  rot := int16s e 24 9
  trans := int16s e 42 3
  zMin := toSigned 16 (leAt e 48 2)
  zMax := toSigned 16 (leAt e 50 2)
  fwdCarve := leAt e 52 2
  fwdLog2 := leAt e 54 1
  fwdOff := leAt e 56 4
  fwdSync := leAt e 60 4

def parseRing (e : List Byte) : ReplayRing where
  unit := leAt e 1 1
  ringCarve := leAt e 2 2
  ringLog2 := leAt e 4 1
  ringOff := leAt e 8 8

def parseIntake (sec : List Byte) : IntakeSec :=
  let es := entriesOf 64 sec
  let g := es.headD []
  let r := es.drop 1
  { ratioDef := leAt g 2 2, graceNs := leAt g 4 4, cameras := (ofKind 1 r).map parseIntakeCamera,
    templates := (ofKind 2 r).map parseTemplate, decoders := (ofKind 3 r).map parseRing,
    rangeReplays := (ofKind 4 r).map parseRing }

/-- TIME (R353). -/
def parseTrigger (e : List Byte) : TimeTrigger where
  trig := leAt e 1 1
  cmp := leAt e 2 1
  baseSecond := leAt e 3 1 == 1
  divider := leAt e 4 1
  activeLow := leAt e 5 1 == 1
  phaseNs := leAt e 8 4
  widthNs := leAt e 12 4

def parseCapture (e : List Byte) : TimeCapture where
  cap := leAt e 1 1
  filt := leAt e 2 1
  edge := leAt e 3 1

def parseMonitor (e : List Byte) : TimeMonitor where
  cmp := leAt e 1 1
  cap := leAt e 2 1
  missEn := leAt e 3 1 == 1
  startNs := leAt e 4 4
  lenNs := leAt e 8 4

def parseTime (sec : List Byte) : TimeSec :=
  let es := entriesOf 32 sec
  let g := es.headD []
  let r := es.drop 1
  { source := leAt g 1 1, ethSrcPort := leAt g 2 1, capSrcPort := leAt g 3 1, ptpDomain := leAt g 4 1,
    ptpMasterMacs := leAt g 5 1, slewPpm := leAt g 6 2, lockNs := leAt g 8 4, holdoverMs := leAt g 12 4,
    reepochEn := leAt g 16 1 == 1, triggers := (ofKind 1 r).map parseTrigger, captures := (ofKind 2 r).map parseCapture,
    monitors := (ofKind 3 r).map parseMonitor }

/-- ISP (R328). -/
def parseIspCamera (e : List Byte) : IspCamera where
  camera := leAt e 1 1
  exposures := leAt e 2 1
  cfa := leAt e 3 1
  outFmt := leAt e 4 1
  chMode := leAt e 5 1
  levels := leAt e 6 1
  pack := leAt e 8 2
  outCarve := leAt e 10 2
  statCarve := leAt e 12 2
  paramCarve := leAt e 14 2
  outOff := leAt e 16 4
  statOff := leAt e 20 4
  paramOff := leAt e 24 4
  freeSync := leAt e 28 4

def parseIsp (sec : List Byte) : IspSec :=
  let es := entriesOf 64 sec
  { chkSlot := leAt (es.headD []) 4 4, cameras := (es.drop 1).map parseIspCamera }

/-- CHECKER (R356). -/
def parseLayer (e : List Byte) : ChkLayer where
  op := leAt e 1 1
  srcA := leAt e 2 1
  srcB := leAt e 3 1
  dst := leAt e 4 1
  k := leAt e 5 1
  stride := leAt e 6 1
  relu := leAt e 7 1 == 1
  cin := leAt e 8 2
  cout := leAt e 10 2
  shift := leAt e 12 1
  outW := leAt e 14 2
  outH := leAt e 16 2
  wOff := leAt e 20 4
  tLen := leAt e 24 4

def parseSum (e : List Byte) : ChkSum where
  region := leAt e 1 1
  addr := leAt e 8 8
  len := leAt e 16 4
  crc64 := leAt e 24 8

def parseChecker (sec : List Byte) : CheckerSec :=
  let es := entriesOf 32 sec
  let g := es.headD []
  let r := es.drop 1
  { tol := leAt g 1 1, minCells := leAt g 2 1, occThresh := leAt g 3 1, cmpX := leAt g 4 2, cmpY := leAt g 6 2,
    cmpBeat := leAt g 8 3, releaseFrames := leAt g 11 1, chkBudgetNs := leAt g 12 4,
    layers := (ofKind 1 r).map parseLayer, sums := (ofKind 2 r).map parseSum,
    blob := (sec.drop (16 + 32 * leAt sec 0 4)).take (leAt g 16 4) }

/-- The schedules with their place in the table (R38, R45). -/
def parseSchedules (b : List Byte) : Nat → List SectEntry → List Schedule
  | _, [] => []
  | i, e :: t =>
    if e.type = 5 then parseSchedule i e.inst (sectBytes b e) :: parseSchedules b (i + 1) t else parseSchedules b (i + 1) t

/-- The whole image (R34, R38). -/
@[irreducible] def parseImage (b : List Byte) : Image where
  header := parseHeader b
  tileMap := (chunks 8 (sectOf b 1)).map parseTile
  split := parseSplit (sectOf b 2)
  regions := (chunks 8 (sectOf b 3)).map parseRegion
  queues := (entriesOf 16 (sectOf b 4)).map parseQueue
  schedules := parseSchedules b 0 (sectTable b)
  carves := (entriesOf 32 (sectOf b 6)).map parseCarve
  resources := (entriesOf 8 (sectOf b 7)).map parseClaim
  cameraBinds := (entriesOf 16 (sectOf b 8)).map parseBind
  safety := parseSafety (sectOf b 9)
  startMode := leAt (sectOf b 10) 4 1
  modes := (entriesOf 8 (sectOf b 10)).map parseMode
  payload := parsePayload (sectOf b 11)
  intake := parseIntake (sectOf b 12)
  time := parseTime (sectOf b 13)
  isp := parseIsp (sectOf b 14)
  checker := parseChecker (sectOf b 15)
  fixed := [sectOf b 2, sectOf b 3, sectOf b 7, sectOf b 8, sectOf b 12, sectOf b 13, sectOf b 14, slice (sectOf b 11) 16 16]

/-- The bytes of the structure-image slot `k` of the flash, as far as its BODY_LEN and signature reach (R36, R438). -/
def imageSlotBase (k : Nat) : Nat := 0x1000000 + k * 0x1000000

/-- BODY_LEN bytes of a component and its signature from a slot of `size` bytes. Of a BODY_LEN above the slot's size, which fails the
header's own check, the header alone is read. -/
def State.componentBytes (s : State) (base size : Nat) : List Byte × List Byte :=
  let n := imgBodyLen (s.flashBytes base 128)
  let len := if n ≤ size then n else 128
  (s.flashBytes base len, s.flashBytes (base + len) 4627)

end Sys2Proof.Machine
end

