-- ==== Sys2Proof/Machine/ImageCheck.lean ====
section
/-! DEFINITION. Validation of a structure image (R57): the eight steps, the section that each failure names, and the checks
that other chapters add to them (R280, R328, R353, R359, R364, R511). -/

namespace Sys2Proof.Machine

/-- Why an image fails: STATUS, STEP and SECTION of CTX_IMG_STATUS, and for a conflict of claims the earlier section, KIND and
INDEX (R55, R57). -/
structure Verdict where
  status : Nat
  step : Nat
  sect : Nat
  conflict : Option (Nat × Nat × Nat) := none
deriving DecidableEq, Repr

/-- The section of the first check that fails. -/
def firstBad : List (Nat × Bool) → Option Nat
  | [] => none
  | c :: t => if c.2 then firstBad t else some c.1

/-- Bytes `off` to `off + n - 1` are zero. -/
def zeroAt (e : List Byte) (off n : Nat) : Bool := ((e.drop off).take n).all (· == 0)

/-- A value lies in a range. -/
def within (lo x hi : Nat) : Bool := decide (lo ≤ x ∧ x ≤ hi)

/-- No value occurs twice. -/
def distinct (l : List Nat) : Bool := l.eraseDups.length == l.length

/-- A section of `size`-byte entries holds what its header counts, and the rest of the header is zero (R38). -/
def sizedOk (sec : List Byte) (size : Nat) : Bool :=
  decide (16 ≤ sec.length) && sec.length == 16 + size * leAt sec 0 4 && zeroAt sec 4 12

/-! ### Keys (R446, R447) -/

/-- The public key of a slot in the key block (R438). -/
def State.publicKey (s : State) (slot : Nat) : List Byte := s.flashBytes (2592 * slot) 2592

/-- Steps 1, 2 and 4 of R447: the slot is programmed, not revoked and has the role, the key block's key is the slot's, and
the signature over the SHA3-512 of the message verifies. -/
def State.signedBy (s : State) (slot role : Nat) (message signature : List Byte) : Bool :=
  let k := SMap.get {} s.sec.keys slot
  let pub := s.publicKey slot
  decide (slot < 8) && k.programmed && !k.revoked && bit k.roles role && sha3 pub == k.digest &&
    Config.mldsaVerify pub (sha3 message) signature

/-- R447 for a component with a 128-byte header: status 0x71, 0x72 or 0. -/
@[irreducible] def State.verifyComponent (s : State) (role counter : Nat) (b signature : List Byte) : Nat :=
  if sha3 (b.drop 128) ≠ slice b 0x30 64 ∨ !(s.signedBy (leAt b 0x20 4) role b signature) then 0x71
  else if 127 < leAt b 0x14 4 ∨ leAt b 0x14 4 < counter then 0x72
  else 0

/-! ### Steps 1 to 3 -/

/-- The part's bit of VARIANTS, and the stepping's of STEPPINGS (R35). -/
def Part.bitNo : Part → Nat
  | .q64 => 0
  | .q48 => 1
def Stepping.bitNo : Stepping → Nat
  | .a1 => 0
  | .b0 => 1

/-- Step 1 (R35, R36, R450). A BODY_LEN that leaves no room for the header and one 64-byte line fails it (DESIGN CHOICE, assumption 158). -/
@[irreducible] def State.headerOk (s : State) (b : List Byte) : Bool :=
  let h := parseHeader b
  leAt b 0 4 == 0x49545351 && h.format == 0x0100 && leAt b 6 2 == 128 && imgBodyLen b % 64 == 0 &&
    within 192 (imgBodyLen b) (0x1000000 - 4627) && leAt b 0x24 4 == 4627 && decide (h.variants < 4) && decide (h.steppings < 4) &&
    bit h.variants s.part.bitNo && bit h.steppings s.stepping.bitNo &&
    (h.deploy == 1 || (h.deploy == 2 && s.sec.rackEn && !s.sec.vehicleLock)) && within 1 h.chipCount 16 &&
    zeroAt b 0x0E 2 && zeroAt b 0x28 8 && zeroAt b 0x70 16

/-- The regions that alternates are built for: 8 when VARIANTS includes the Q64, else 6 (R38). -/
def regionCount (variants : Nat) : Nat := if bit variants 0 then 8 else 6

/-- Entries of the section table, each with the end of the section before it, and the types that stand earlier (R37, R38): a
second section of a single type is that entry's failure (DEDUCED, assumption 35). The bytes between the table and the first section
are zero like those between sections (DESIGN CHOICE, assumption 157). -/
def tableOk (b : List Byte) : List Nat → Nat → Nat → List SectEntry → List (Nat × Bool)
  | _, _, _, [] => []
  | seen, i, stop, e :: t =>
    (i, (within 1 e.type 15 || decide (0x80 ≤ e.type)) && (decide (0x80 ≤ e.type) || e.version == 0x0100) &&
        (decide (0x80 ≤ e.type) || e.type == 5 || (e.inst == 0 && !(seen.contains e.type))) && e.offset % 64 == 0 && decide (stop ≤ e.offset) &&
        decide (e.offset + e.length ≤ imgBodyLen b) && zeroAt b stop (e.offset - stop) && crc 3 (sectBytes b e) == e.crc)
      :: tableOk b (e.type :: seen) (i + 1) (e.offset + e.length) t

/-- The end of the last section. -/
def tableEnd (ts : List SectEntry) : Nat := ((ts.getLast?).map (fun e => e.offset + e.length)).getD 0

/-- The table as a whole (R35, R37, R38): its size, the counts of the sections and the bytes after the last one. -/
def tableWhole (b : List Byte) : Bool :=
  let ts := sectTable b
  let n := fun (ty : Nat) => (ts.filter (fun e => e.type == ty)).length
  ([1, 2, 3, 4, 6, 7, 8, 9, 10, 11, 12, 13, 14, 15].all (fun ty => n ty == 1)) &&
    n 5 == (regionCount (parseHeader b).variants + 1) * leAt (sectOf b 10) 0 4 &&
    imgBodyLen b == ceilDiv (tableEnd ts) 64 * 64 && zeroAt b (tableEnd ts) (imgBodyLen b - tableEnd ts)

/-- Step 3 (R37, R38). -/
@[irreducible] def step3 (b : List Byte) : Option Nat :=
  let n := imgSectCount b
  if !(within 1 n 64) ∨ imgBodyLen b < 0x80 + 16 * n then some 0xFF
  else match firstBad (tableOk b [] 0 (0x80 + 16 * n) (sectTable b)) with
    | some i => some i
    | none => if tableWhole b then none else some 0xFF

/-! ### Step 4: the fields of each section -/

/-- SAFETY (R50, R359). -/
@[irreducible] def safetyOk (e : List Byte) : Bool :=
  let x := parseSafety e
  e.length == 64 && within 8333333 x.frameNs 100000000 && decide (1000 ≤ x.beatNs) && within 1 x.consec 2 && within 1 x.k 3 &&
    within 8 x.m 32 && zeroAt e 9 1 && within 100 x.latentMs 1000 && within 1000000 x.maxAgeNs (3 * x.frameNs) &&
    within 800 x.clockFloorMhz 995 && decide (max 50 (ceilDiv 48000 x.clockFloorMhz) ≤ x.slackReserveNs) &&
    decide (2 * x.slackReserveNs ≤ x.beatNs) && zeroAt e 20 44

/-- TILE_MAP (R39). -/
def tileMapOk (e : List Byte) : Bool :=
  e.length == 512 && ((chunks 8 e).zipIdx.all fun p =>
    let x := parseTile p.1
    leAt p.1 0 1 == p.2 && decide (x.role ≤ 2) && zeroAt p.1 3 1 && zeroAt p.1 6 2 &&
      (if x.role = 0 then x.goldenQueue == 0xFFFF else decide (x.goldenQueue < 512)))

/-- CHANNEL_SPLIT (R41); bits of RANGE_MACS that name no MAC are 0. -/
def splitOk (e : List Byte) : Bool :=
  let x := parseSplit e
  e.length == 64 && decide (x.rangeMacs < 16) && zeroAt e 3 1 && within 16 x.gridX 256 && within 16 x.gridY 256 &&
    within 50 x.cellMm 2000 && decide (1 ≤ x.cmpLength) && decide (x.cmpOffset + x.cmpLength ≤ 216) && zeroAt e 14 50

/-- REGIONS (R42) on a part: on the Q48 entries 6 and 7 hold zeros (DEDUCED, assumption 34). -/
def regionsOk (p : Part) (e : List Byte) : Bool :=
  let es := chunks 8 e
  e.length == 64 &&
    (es.zipIdx.all fun r =>
      let x := parseRegion r.1
      leAt r.1 0 1 == r.2 && decide (x.fencePolicy < 4) && decide (x.updateOrder < 8) && decide (x.dieServer < 2) &&
        zeroAt r.1 4 4 && !(p == .q48 && decide (6 ≤ r.2) && !(zeroAt r.1 1 7))) &&
    distinct ((es.filter (fun x => bit (parseRegion x).fencePolicy 1)).map (fun x => (parseRegion x).updateOrder)) &&
    ((List.range 4).all fun d =>
      leAt (slice e (16 * d) 8) 3 1 == leAt (slice e (16 * d + 8) 8) 3 1)

/-- Queues of the smallest part that VARIANTS names (R2, R43). -/
def queueLimit (variants : Nat) : Nat := if bit variants 1 then 24576 else 32768

/-- QUEUE_ALLOC (R43). -/
def queuesOk (i : Image) (sec : List Byte) : Bool :=
  let es := entriesOf 16 sec
  sizedOk sec 16 && decide (es.length ≤ queueLimit i.header.variants) && distinct (es.map (fun e => leAt e 0 2)) &&
    (es.all fun e =>
      let x := parseQueue e
      decide (x.queue < queueLimit i.header.variants) && decide (x.engine < 4) && decide (leAt e 3 1 < 2) &&
        decide (x.ringBase < 2 ^ 48) && x.ringBase % 64 == 0 && within 2 x.ringLog2 12 && zeroAt e 14 2)

/-- Beats of a frame at least: J (R90). -/
def SafetySec.j (x : SafetySec) : Nat := x.frameNs / x.beatNs

/-- A sync reference that an image places on its own chip (R72, R511). -/
def ownRefOk (r : Nat) : Bool := refLayoutOk r && refChip r == 0

/-- An entry of a schedule (R91, R92, R511). -/
def schedEntryOk (i : Image) (e : List Byte) : Bool :=
  let x := parseSchedEntry e
  let k := leAt e 2 1
  decide (x.beat < i.safety.j) && decide (x.offsetNs < i.safety.beatNs) &&
    (if k % 128 = 1 then
      decide (1 ≤ x.count) && x.sync == 0 && x.value == 0
    else k % 128 == 2 && x.count == 0 && x.queue == 0 && ownRefOk x.sync)

/-- Entries are sorted by beat, then by OFFSET_NS (R91). -/
def schedSorted : List SchedEntry → Bool
  | [] => true
  | [_] => true
  | a :: b :: t => (decide (a.beat < b.beat) || (a.beat == b.beat && decide (a.offsetNs ≤ b.offsetNs))) && schedSorted (b :: t)

/-- SCHEDULE (R45, R91). -/
def scheduleOk (i : Image) (sec : List Byte) : Bool :=
  let x := parseSchedule 0 0 sec
  decide (32 ≤ sec.length) && sec.length == 32 + 16 * leAt sec 4 4 && decide (x.modeId < 4) &&
    (x.missing == 0xFF || decide (x.missing < 8)) && zeroAt sec 3 1 && zeroAt sec 16 16 &&
    ((chunks 16 (sec.drop 32)).all (schedEntryOk i)) && schedSorted x.entries

/-- CARVEOUTS (R46, R125). -/
def carvesOk (sec : List Byte) : Bool :=
  let es := entriesOf 32 sec
  sizedOk sec 32 && decide (es.length ≤ 1024) && distinct (es.map (fun e => leAt e 0 2)) &&
    (es.all fun e =>
      let x := parseCarve e
      decide (leAt e 2 1 < 2) && within 1 x.eccClass 2 && (decide (x.owner < 8) || x.owner == 0xF0) && zeroAt e 5 3 &&
        x.base % 65536 == 0 && decide (x.base < 2 ^ 48) && x.size % 65536 == 0 && decide (0 < x.size) && zeroAt e 24 8)

/-- A claim that RESOURCES may make (R54). -/
def claimOk (e : List Byte) : Bool :=
  let x := parseClaim e
  zeroAt e 5 3 &&
    (match x.kind with
     | 1 => (decide (x.index < 12) && within 2 x.feature 4 && x.featureInst == 0) ||
            (within 16 x.index 19 && within 5 x.feature 6 && x.featureInst == 0)
     | 2 => decide (x.index < 16) && (within 1 x.feature 4 || x.feature == 9) && x.featureInst == 0
     | 3 => (within 64 x.index 71 && x.feature == 7 && decide (x.featureInst < 4)) ||
            (within 80 x.index 83 && x.feature == 0x0B && decide (x.featureInst < 16))
     | 4 => decide (x.index < 4) && x.feature == 8 && x.featureInst == 0
     | _ => false)

/-- RESOURCES (R54). -/
def resourcesOk (sec : List Byte) : Bool := sizedOk sec 8 && ((entriesOf 8 sec).all claimOk)

/-- CAMERA_BIND (R48). -/
def bindsOk (frameNs : Nat) (sec : List Byte) : Bool :=
  let es := entriesOf 16 sec
  sizedOk sec 16 && decide (es.length ≤ 32) && distinct (es.map (fun e => leAt e 0 1)) &&
    (es.all fun e =>
      let x := parseBind e
      decide (x.camera < 32) && decide (x.receiver < 8) && decide (x.vc < 16) && decide (rawBits x.dataType ≠ 0) &&
        decide (x.pipe < 16) && x.pipe / 4 == x.receiver / 2 && decide (x.facet < 2) &&
        (decide (x.fsyncTrig < 12) || x.fsyncTrig == 0xFF) && zeroAt e 7 1 && within 1 x.staleNs frameNs)

/-- MODE_SET (R52). -/
def modesOk (sec : List Byte) : Bool :=
  let es := entriesOf 8 sec
  decide (16 ≤ sec.length) && sec.length == 16 + 8 * leAt sec 0 4 && within 1 (leAt sec 0 4) 4 && decide (leAt sec 4 1 < 4) && zeroAt sec 5 11 &&
    (es.all fun e =>
      let x := parseMode e
      decide (x.modeId < 4) && within 1 x.determinism 2 && decide (x.balance < 2) && within 1 x.safety 3 && within 1 x.input 2 &&
        zeroAt e 5 3)

/-- Payload fields do not overlap (R94). -/
def fieldsApart : List PayField → Bool
  | [] => true
  | f :: t => (t.all fun g => decide (f.off + f.len ≤ g.off) || decide (g.off + g.len ≤ f.off)) && fieldsApart t

/-- PAYLOAD (R94). -/
def payloadOk (sec : List Byte) : Bool :=
  let es := entriesOf 16 sec
  let p := parsePayload sec
  let g := es.headD []
  sizedOk sec 16 && decide (1 ≤ es.length) && leAt g 0 1 == 0 && within 8 p.ringLog2 20 && p.stageOff % 256 == 0 &&
    decide (p.stageOff ≤ 0x7FFF00) && zeroAt g 8 8 &&
    ((es.drop 1).all fun e =>
      leAt e 0 1 == 1 && decide (1 ≤ leAt e 2 1) && decide (leAt e 1 1 + leAt e 2 1 ≤ 216) && zeroAt e 4 12) &&
    fieldsApart p.fields

/-- An entry of INTAKE after the first (R279, R511). -/
def intakeEntryOk (frameNs : Nat) (e : List Byte) : Bool :=
  match leAt e 0 1 with
  | 1 =>
    let x := parseIntakeCamera e
    decide (x.camera < 32) && within 16 x.width 8192 && x.width % 2 == 0 && within 16 x.height 8192 && x.height % 2 == 0 &&
      decide (x.embLines ≤ 8) && zeroAt e 7 1 && ownRefOk x.frameSync && x.rawOff % 64 == 0 && x.noteOff % 64 == 0 &&
      zeroAt e 24 40
  | 2 =>
    let x := parseTemplate e
    let w := if x.coord = 1 then 2 else 4
    decide (x.mac < 4) && (x.udpPort == 0 || x.etherType == 0x0800 || x.etherType == 0x86DD) && decide (x.hdrLen ≤ 1984) &&
      within 4 x.ptStride 256 && within 1 x.ptMax 512 && within 1 x.coord 2 &&
      ([x.xOff, x.yOff, x.zOff].all fun o => decide (o + w ≤ x.ptStride)) && within 1 x.unitUm 1000000 &&
      decide (x.latencyNs ≤ frameNs) && decide (x.zMin ≤ x.zMax) && within 4 x.fwdLog2 14 && zeroAt e 55 1 &&
      x.fwdOff % 64 == 0 && ownRefOk x.fwdSync
  | 3 =>
    let x := parseRing e
    decide (x.unit < 4) && within 2 x.ringLog2 12 && zeroAt e 5 3 && x.ringOff % 64 == 0 && zeroAt e 16 48
  | 4 =>
    let x := parseRing e
    decide (x.unit < 4) && within 2 x.ringLog2 14 && zeroAt e 5 3 && x.ringOff % 64 == 0 && zeroAt e 16 48
  | _ => false

/-- INTAKE (R279). -/
def intakeOk (frameNs : Nat) (sec : List Byte) : Bool :=
  let es := entriesOf 64 sec
  let x := parseIntake sec
  let g := es.headD []
  sizedOk sec 64 && decide (1 ≤ es.length) && leAt g 0 1 == 0 && zeroAt g 1 1 && within 1 x.ratioDef 4096 &&
    decide (2 * x.graceNs ≤ frameNs) && zeroAt g 8 56 && ((es.drop 1).all (intakeEntryOk frameNs)) &&
    distinct (x.cameras.map (·.camera)) && decide (x.templates.length ≤ 16) && distinct (x.decoders.map (·.unit))

/-- An entry of TIME after the first (R353). -/
def timeEntryOk (frameNs : Nat) (caps : List Nat) (e : List Byte) : Bool :=
  match leAt e 0 1 with
  | 1 =>
    let x := parseTrigger e
    let base := if x.baseSecond then 1000000000 else frameNs
    decide (x.trig < 12) && decide (x.cmp < 16) && decide (leAt e 3 1 < 2) && decide (1 ≤ x.divider) && decide (leAt e 5 1 < 2) &&
      zeroAt e 6 2 && decide (x.phaseNs < base) && decide (4 ≤ x.widthNs) && decide (2 * x.widthNs ≤ x.divider * base) &&
      zeroAt e 16 16
  | 2 => decide (leAt e 1 1 < 4) && within 1 (leAt e 3 1) 3 && zeroAt e 4 28
  | 3 =>
    let x := parseMonitor e
    decide (x.cmp < 16) && caps.contains x.cap && decide (leAt e 3 1 < 2) && decide (x.startNs < frameNs) &&
      decide (1 ≤ x.lenNs) && decide (x.startNs + x.lenNs ≤ frameNs) && zeroAt e 12 20
  | _ => false

/-- TIME (R353). -/
def timeOk (i : Image) (sec : List Byte) : Bool :=
  let es := entriesOf 32 sec
  let x := parseTime sec
  let g := es.headD []
  let slave := x.source == 1 || x.source == 2
  sizedOk sec 32 && decide (1 ≤ es.length) && leAt g 0 1 == 0 && decide (x.source ≤ 4) && decide (x.ethSrcPort < 4) &&
    (slave || x.ethSrcPort == 0) && decide (x.capSrcPort < 4) && decide (x.ptpDomain < 128) && decide (x.ptpMasterMacs < 16) &&
    !(slave && bit x.ptpMasterMacs x.ethSrcPort) && within 1 x.slewPpm 500 && within 10 x.lockNs 10000 &&
    within 100 x.holdoverMs 60000 && decide (leAt g 16 1 < 2) && !(i.header.deploy == 1 && x.reepochEn) && zeroAt g 17 15 &&
    ((es.drop 1).all (timeEntryOk i.safety.frameNs (x.captures.map (·.cap))))

/-- An entry of ISP after the first (R328, R511): `strict` and `height` are those of the camera. -/
def ispEntryOk (i : Image) (e : List Byte) : Bool :=
  let x := parseIspCamera e
  let n := if x.chMode = 1 then 1 else 3
  let strict := match i.cameraBinds.find? (fun b => b.camera == x.camera) with
    | some b => bit i.split.strictPipes b.pipe
    | none => false
  let hOk := match i.intake.cameras.find? (fun c => c.camera == x.camera) with
    | some c => c.height % x.exposures == 0 && (x.cfa == 0 || c.height / x.exposures % 2 == 0)
    | none => true
  leAt e 0 1 == 1 && within 1 x.exposures 3 && hOk && decide (x.cfa ≤ 6) &&
    [0x04, 0x07, 0x08].contains x.outFmt && decide (x.chMode < 2) && within 1 x.levels 31 && (!strict || bit x.levels 3) &&
    zeroAt e 7 1 && decide (x.pack < 2 ^ 15) &&
    ((List.range 5).all fun l => decide (x.pack / 2 ^ (3 * l) % 8 ≤ 5) && decide (n * packFactor x.pack l ≤ 32)) &&
    x.outOff % 64 == 0 && x.statOff % 64 == 0 && x.paramOff % 64 == 0 && (x.freeSync == 0xFFFFFFFF || ownRefOk x.freeSync) &&
    zeroAt e 32 32

/-- ISP (R328). -/
def ispOk (i : Image) (sec : List Byte) : Bool :=
  let es := entriesOf 64 sec
  let g := es.headD []
  sizedOk sec 64 && decide (1 ≤ es.length) && leAt g 0 1 == 0 && zeroAt g 1 3 && leAt g 4 4 % 64 == 0 && zeroAt g 8 56 &&
    ((es.drop 1).all (ispEntryOk i))

/-- A layer or checksum entry (R356). -/
def checkerEntryOk (e : List Byte) : Bool :=
  match leAt e 0 1 with
  | 1 =>
    let x := parseLayer e
    within 1 x.op 4 && decide (x.srcA < 32) && decide (x.srcB < 32) && (x.op == 3 || x.srcB == 0) && within 9 x.dst 31 &&
      decide (leAt e 7 1 < 2) && x.wOff % 4 == 0 && zeroAt e 13 1 && zeroAt e 18 2 && zeroAt e 28 4 &&
      (x.op ≠ 1 || ((x.k == 1 || x.k == 3) && within 1 x.stride 2 && within 1 x.cin 256 && within 1 x.cout 64 && within 1 x.shift 47)) &&
      (x.op ≠ 4 || (within 1 x.outW 512 && within 1 x.outH 512 && within 1 x.tLen (2 ^ 20)))
  | 2 =>
    let x := parseSum e
    (decide (x.region < 8) || x.region == 0xF0) && zeroAt e 2 6 && x.addr % 64 == 0 && decide (0 < x.len) && x.len % 64 == 0 &&
      zeroAt e 20 4
  | _ => false

/-- CHECKER (R356). -/
def checkerOk (j : Nat) (sec : List Byte) : Bool :=
  let es := entriesOf 32 sec
  let g := es.headD []
  let x := parseChecker sec
  let ks := (es.drop 1).map (fun e => leAt e 0 1)
  decide (16 ≤ sec.length) && zeroAt sec 4 12 && decide (1 ≤ leAt sec 0 4) &&
    sec.length == 16 + 32 * leAt sec 0 4 + leAt g 16 4 && leAt g 0 1 == 0 && decide (x.tol ≤ 2) && within 1 x.minCells 4 &&
    within 1 x.occThresh 127 && within 8 x.cmpX 64 && within 8 x.cmpY 64 && decide (x.cmpBeat < j) &&
    decide (2 ≤ x.releaseFrames) && leAt g 16 4 % 64 == 0 && zeroAt g 20 12 && ((es.drop 1).all checkerEntryOk) &&
    ks == List.replicate x.layers.length 1 ++ List.replicate x.sums.length 2 && decide (x.layers.length ≤ 64) &&
    decide (x.sums.length ≤ 256)

/-- Step 4 for a section of a type (R57). -/
@[irreducible] def sectionOk (p : Part) (i : Image) (type : Nat) (sec : List Byte) : Bool :=
  match type with
  | 1 => tileMapOk sec
  | 2 => splitOk sec
  | 3 => regionsOk p sec
  | 4 => queuesOk i sec
  | 5 => scheduleOk i sec
  | 6 => carvesOk sec
  | 7 => resourcesOk sec
  | 8 => bindsOk i.safety.frameNs sec
  | 9 => safetyOk sec
  | 10 => modesOk sec
  | 11 => payloadOk sec
  | 12 => intakeOk i.safety.frameNs sec
  | 13 => timeOk i sec
  | 14 => ispOk i sec
  | 15 => checkerOk i.safety.j sec
  | _ => true

/-- Step 4: SAFETY first, then the sections in table order. -/
@[irreducible] def step4 (p : Part) (b : List Byte) (i : Image) : Option Nat :=
  firstBad ((sectIndex b 9, safetyOk (sectOf b 9)) ::
    (sectTable b).zipIdx.map (fun x => (x.2, sectionOk p i x.1.type (sectBytes b x.1))))

/-! ### Step 5: cross-references -/

/-- R40. -/
def r40 (i : Image) : Bool :=
  ((List.range 8).all fun g =>
    let ts := (i.tileMap.drop (8 * g)).take 8
    ts.all (fun t => t.role == 0) || (ts.filter (fun t => t.role == 2)).length == 1) &&
  (!(bit i.header.variants 1) || (i.tileMap.drop 48).all (fun t => t.role == 0))

/-- R44. -/
def r44 (i : Image) : Bool :=
  i.tileMap.zipIdx.all fun p => p.1.role == 0 ||
    (match i.queues.find? (fun a => a.queue == p.2 * 512 + p.1.goldenQueue) with | some a => a.balGroup == 0 | none => true)

/-- Two carve-outs do not overlap. -/
def carvesApart : List Carveout → Bool
  | [] => true
  | c :: t => (t.all fun d => decide (c.base + c.size ≤ d.base) || decide (d.base + d.size ≤ c.base)) && carvesApart t

/-- Placement of a carve-out (R47). -/
def State.carvePlaced (s : State) (c : Carveout) : Bool :=
  if c.dram then
    let d := (c.base - dramBase) / dramWindow
    decide (dramBase ≤ c.base) && decide (d < 4) &&
      decide (c.base + c.size ≤ dramBase + d * dramWindow + s.dramPopulated d)
  else
    let p := peatBase + c.owner / 2 * peatSize
    decide (c.owner < 8) && decide (p ≤ c.base) && decide (c.base + c.size ≤ p + peatSize)

/-- R47. -/
def State.r47 (s : State) (i : Image) : Bool := i.carves.all s.carvePlaced && carvesApart i.carves

/-- R49. -/
def r49 (i : Image) : Bool :=
  (i.cameraBinds.all fun b => !(bit i.split.strictPipes b.pipe) || b.facet == 0) &&
  ((List.range 16).all fun p =>
    let n := (i.cameraBinds.filter (fun b => b.pipe == p)).length
    if bit i.split.strictPipes p then n == 1 else decide (n ≤ 2)) &&
  distinct (i.cameraBinds.map (fun b => b.receiver * 16 + b.vc))

/-- The carve-outs that a section of a type names exist. -/
def idsExist (i : Image) (type : Nat) : Bool :=
  let ok := fun (id : Nat) => (i.carve id).isSome
  match type with
  | 2 => ok i.split.chkPyrCarve
  | 11 => ok i.payload.ringCarve
  | 12 => (i.intake.cameras.all fun c => ok c.rawCarve && ok c.noteCarve) && (i.intake.templates.all fun t => ok t.fwdCarve) &&
          (i.intake.decoders.all fun r => ok r.ringCarve) && (i.intake.rangeReplays.all fun r => ok r.ringCarve)
  | 14 => i.isp.cameras.all fun c => ok c.outCarve && ok c.statCarve && ok c.paramCarve
  | _ => true

/-- Every ring lies inside a carve-out of the queue's region or of the package (R57, R67). -/
def ringsOk (i : Image) : Bool :=
  i.queues.all fun a =>
    match i.carveAt a.ringBase with
    | some c => decide (a.ringBase + 80 * 2 ^ a.ringLog2 ≤ c.base + c.size) &&
        (c.owner == 0xF0 || c.owner == regionOfTile (tileOfQueue a.queue))
    | none => false

/-- Each balance group lies in one region (R39). -/
def groupsOk (i : Image) : Bool :=
  let ts := i.tileMap.zipIdx.filter (fun p => p.1.balGroup != 0)
  ts.all fun p => ts.all fun q => p.1.balGroup != q.1.balGroup || p.2 / 8 == q.2 / 8

/-- `n` bytes at `off` lie inside the carve-out `id`. -/
def fits (i : Image) (id off n : Nat) : Bool :=
  match i.carve id with
  | some c => decide (off + n ≤ c.size)
  | none => false

/-- A carve-out of Peat on a die. -/
def isPeatOf (i : Image) (id d : Nat) : Bool :=
  match i.carve id with
  | some c => !c.dram && c.owner / 2 == d
  | none => false

/-- A carve-out of DRAM; `package` asks that the package owns it. -/
def isDram (i : Image) (id : Nat) (package : Bool) : Bool :=
  match i.carve id with
  | some c => c.dram && (!package || c.owner == 0xF0)
  | none => false

/-- The cluster of a reference exists on every part that VARIANTS names (R511). -/
def clusterExists (i : Image) (r : Nat) : Bool := decide (refCluster r < if bit i.header.variants 1 then 12 else 16)

/-- R41, R319, R328: the copies of the strict pipelines. -/
def splitRefs (i : Image) : Bool :=
  let ps := (List.range 16).filter (bit i.split.strictPipes)
  (isDram i i.split.chkPyrCarve true ||
    ((List.range 4).any (isPeatOf i i.split.chkPyrCarve) && ps.all fun p => isPeatOf i i.split.chkPyrCarve (p / 4))) &&
    (ps.all fun p => fits i i.split.chkPyrCarve 0 ((2 * p + 2) * i.isp.chkSlot))

/-- R94. -/
def payloadRefs (i : Image) : Bool :=
  isDram i i.payload.ringCarve true && fits i i.payload.ringCarve 0 (256 + 256 * 2 ^ i.payload.ringLog2)

/-- A camera of INTAKE (R279, R280, R511). -/
def intakeCameraRefs (i : Image) (c : IntakeCamera) : Bool :=
  match i.cameraBinds.find? (fun b => b.camera == c.camera), i.carve c.rawCarve with
  | some b, some r =>
    isPeatOf i c.rawCarve (b.pipe / 4) && fits i c.rawCarve c.rawOff
        (2 * ((c.embLines + c.height) * c.width * rawBytes (rawBits b.dataType))) &&
      fits i c.noteCarve c.noteOff 1024 && clusterExists i c.frameSync && refCluster c.frameSync / 2 == r.owner
  | _, _ => false

/-- INTAKE (R279, R280, R511). -/
def intakeRefs (i : Image) : Bool :=
  (i.intake.cameras.all (intakeCameraRefs i)) &&
  (i.cameraBinds.all fun b => i.intake.cameras.any (fun c => c.camera == b.camera)) &&
  (i.intake.templates.all fun t =>
    bit i.split.rangeMacs t.mac && ((i.carve t.fwdCarve).any (fun c => !c.dram)) &&
      fits i t.fwdCarve t.fwdOff (2048 * 2 ^ t.fwdLog2) && clusterExists i t.fwdSync) &&
  (i.intake.decoders.all fun r => isDram i r.ringCarve false && fits i r.ringCarve r.ringOff (64 * 2 ^ r.ringLog2)) &&
  (i.intake.rangeReplays.all fun r =>
    bit i.split.rangeMacs r.unit && isDram i r.ringCarve false && fits i r.ringCarve r.ringOff (2048 * 2 ^ r.ringLog2))

/-- RESOURCES (R54). -/
def resourceRefs (i : Image) : Bool :=
  (i.resources.all fun c =>
    (c.feature != 7 || bit i.split.rangeMacs c.featureInst) && (c.feature != 0x0B || c.featureInst / 4 == c.index - 80)) &&
  ((List.range 4).all fun m => !(bit i.split.rangeMacs m) || i.resources.any (fun c => c.feature == 7 && c.featureInst == m))

/-- The features for which a pin is claimed (R54). -/
def pinFeatures (i : Image) (pin : Nat) : List Nat :=
  ((i.resources.filter (fun c => c.kind == 1 && c.index == pin)).map (·.feature)) ++
    ((i.cameraBinds.filter (fun b => b.fsyncTrig == pin)).map (fun _ => 1))

/-- TIME (R353): each claimed trigger, capture input and monitor comparator has one entry, and each entry's resource is
claimed; one comparator per trigger (R54). -/
def timeRefs (i : Image) : Bool :=
  let cmpFor := fun (n f : Nat) => i.resources.any (fun c => c.kind == 2 && c.index == n && c.feature == f)
  let t := i.time
  (t.triggers.all fun e => (pinFeatures i e.trig).any (fun f => cmpFor e.cmp f)) &&
  (t.captures.all fun e => pinFeatures i (16 + e.cap) != []) &&
  (t.monitors.all fun e => cmpFor e.cmp 9) &&
  distinct (t.triggers.map (·.trig)) && distinct (t.triggers.map (·.cmp)) && distinct (t.captures.map (·.cap)) &&
  distinct (t.monitors.map (·.cmp)) &&
  ((List.range 12).all fun n => pinFeatures i n == [] || t.triggers.any (fun e => e.trig == n)) &&
  ((List.range 4).all fun n => pinFeatures i (16 + n) == [] || t.captures.any (fun e => e.cap == n)) &&
  ((List.range 16).all fun n => !(cmpFor n 9) || t.monitors.any (fun e => e.cmp == n)) &&
  (t.source != 3 || (pinFeatures i (16 + t.capSrcPort)).contains 5)

/-- What the pipeline of a camera needs to know (R328). -/
def Image.ispView (i : Image) (cam : Nat) : Option IspView :=
  match i.cameraBinds.find? (fun b => b.camera == cam), i.intake.cameras.find? (fun c => c.camera == cam),
      i.isp.cameras.find? (fun c => c.camera == cam) with
  | some b, some k, some c => some { bind := b, intake := k, isp := c }
  | _, _, _ => none

/-- ISP (R328, R511). -/
def ispRefs (i : Image) : Bool :=
  (i.isp.cameras.all fun c =>
    match i.ispView c.camera with
    | some v =>
      let d := v.bind.pipe / 4
      isPeatOf i c.outCarve d && fits i c.outCarve c.outOff (2 * v.slotBytes) &&
        (isPeatOf i c.statCarve d || isDram i c.statCarve true) && fits i c.statCarve c.statOff (2 * 11328) &&
        fits i c.paramCarve c.paramOff (2 * 3904) && (c.freeSync == 0xFFFFFFFF || clusterExists i c.freeSync) &&
        (!(bit i.split.strictPipes v.bind.pipe) ||
          decide (64 + 4 * (i.level3 v.bind.pipe).1 * (i.level3 v.bind.pipe).2 ≤ i.isp.chkSlot))
    | none => false) &&
  (i.cameraBinds.all fun b => i.isp.cameras.any (fun c => c.camera == b.camera)) && distinct (i.isp.cameras.map (·.camera))

/-- Shapes H, W, C of the checker's buffers by number (R357). -/
abbrev Shapes := List (Nat × Nat × Nat × Nat)

/-- The shape of the latest write. -/
def Shapes.of (m : Shapes) (n : Nat) : Option (Nat × Nat × Nat) := (m.find? (fun e => e.1 == n)).map (·.2)

/-- Shapes of the input buffers (R357). -/
def Image.inputShapes (i : Image) : Shapes :=
  (0, i.split.gridY, i.split.gridX, 2) :: (i.strictPipes.take 8).zipIdx.map (fun p =>
    (1 + p.2, (i.level3 p.1).1, (i.level3 p.1).2, 3))

/-- The shape that a layer gives its DST; none when a check of R359 fails. -/
def layerShape (blob : Array Byte) (m : Shapes) (l : ChkLayer) : Option (Nat × Nat × Nat) :=
  match m.of l.srcA with
  | none => none
  | some (h, w, c) =>
    if l.dst = l.srcA then none
    else match l.op with
      | 1 => if c = l.cin ∧ l.wOff + ceilDiv (l.cout * l.k * l.k * l.cin) 4 * 4 + 8 * l.cout ≤ blob.size then
          some (ceilDiv h l.stride, ceilDiv w l.stride, l.cout) else none
      | 2 => some (ceilDiv h 2, ceilDiv w 2, c)
      | 3 => if l.dst ≠ l.srcB ∧ m.of l.srcB = some (h, w, c) then some (h, w, c) else none
      | _ => if l.wOff + 8 * l.tLen ≤ blob.size ∧ (List.range l.tLen).all (fun n =>
            decide (blobU32 blob (l.wOff + 8 * n) < h * w) && decide (blobU32 blob (l.wOff + 8 * n + 4) < l.outH * l.outW)) then
          some (l.outH, l.outW, c) else none

/-- The shapes of all layers, in order (R359): the state of the buffers, and each layer's output. -/
def layerShapes (blob : Array Byte) : Shapes → List ChkLayer → Option (Shapes × List (Nat × Nat × Nat × Nat))
  | m, [] => some (m, [])
  | m, l :: t =>
    match layerShape blob m l with
    | none => none
    | some x =>
      match layerShapes blob ((l.dst, x) :: m) t with
      | none => none
      | some r => some (r.1, (l.dst, x) :: r.2)

/-- Bytes of the work buffers, each at its largest shape (R357). -/
def workBytes (outs : List (Nat × Nat × Nat × Nat)) : Nat :=
  ((List.range 32).map fun n =>
    (outs.filter (fun o => o.1 == n)).foldl (fun a o => max a (o.2.1 * o.2.2.1 * o.2.2.2)) 0).sum

/-- CHECKER (R359). -/
def checkerRefs (i : Image) : Bool :=
  let c := i.checker
  decide (i.strictPipes.length ≤ 8) &&
    (match layerShapes c.blob.toArray i.inputShapes c.layers with
     | some r => (Shapes.of (r.2.reverse) 31) == some (c.cmpY, c.cmpX, 2) && decide (workBytes r.2 ≤ 8 * 2 ^ 20)
     | none => false) &&
    decide (c.cmpX * c.cmpY ≤ 8 * (i.split.cmpLength - 4)) &&
    ((List.range i.split.cmpLength).all fun n =>
      i.payload.fields.any fun f => f.omitMask == 0 && decide (f.off ≤ i.split.cmpOffset + n) &&
        decide (i.split.cmpOffset + n < f.off + f.len))

/-- BAL_GROUP of a queue is 0 or that of its tile (R43). -/
def queueGroupsOk (i : Image) : Bool :=
  i.queues.all fun x => x.balGroup == 0 || x.balGroup == ((i.tileMap[tileOfQueue x.queue]?).map (·.balGroup)).getD 0

/-- An entry of a schedule releases a beat-released queue, or names a cluster that exists (R91, R92, R511). -/
def schedEntryRefs (i : Image) (e : SchedEntry) : Bool :=
  if e.release then (match i.queues.find? (fun a => a.queue == e.queue) with | some a => !a.doorbellOnly | none => false)
  else clusterExists i e.sync

/-- References of a section of a type, beyond the checks that R57 lists first. -/
def sectionRefs (i : Image) (index type : Nat) : Bool :=
  match type with
  | 2 => splitRefs i
  | 4 => queueGroupsOk i
  | 5 => (i.schedules.filter (fun x => x.index == index)).all fun x => x.entries.all (schedEntryRefs i)
  | 7 => resourceRefs i
  | 11 => payloadRefs i
  | 12 => intakeRefs i
  | 13 => timeRefs i
  | 14 => ispRefs i
  | 15 => checkerRefs i
  | _ => true

/-- Step 5: the checks in the order that R57 names them, then those of the other chapters in table order (DEDUCED,
assumption 35). -/
@[irreducible] def State.step5 (s : State) (b : List Byte) (i : Image) : Option Nat :=
  let ts := (sectTable b).zipIdx
  firstBad ([(sectIndex b 1, r40 i), (sectIndex b 1, r44 i), (sectIndex b 6, s.r47 i), (sectIndex b 8, r49 i)] ++
    ts.map (fun p => (p.2, idsExist i p.1.type)) ++ [(sectIndex b 4, ringsOk i), (sectIndex b 1, groupsOk i)] ++
    ts.map (fun p => (p.2, sectionRefs i p.2 p.1.type)))

/-! ### Step 6: claims (R54, R55) -/

/-- The claims of a section: KIND, INDEX, and whether it is a replay-decoder claim. -/
def claimsOf (i : Image) (type : Nat) : List (Nat × Nat × Bool) :=
  match type with
  | 2 => ((List.range 4).filter (bit i.split.rangeMacs)).map fun m => (4, m, false)
  | 7 => i.resources.map fun c => (c.kind, c.index, c.feature == 0x0B)
  | 8 => i.cameraBinds.flatMap fun b =>
      (3, b.pipe * 2 + b.facet, false) :: (if b.fsyncTrig = 0xFF then [] else [(1, b.fsyncTrig, false)])
  | _ => []

/-- The first claim of a resource that is claimed already: its section, the earlier section, KIND and INDEX. -/
def claimClash : List (Nat × Nat × Nat × Bool) → List (Nat × Nat × Nat × Bool) → Option (Nat × Nat × Nat × Nat)
  | _, [] => none
  | seen, c :: t =>
    match seen.find? (fun e => e.2.1 == c.2.1 && e.2.2.1 == c.2.2.1 && !(e.2.2.2 && c.2.2.2)) with
    | some e => some (c.1, e.1, c.2.1, c.2.2.1)
    | none => claimClash (seen ++ [c]) t

/-- Step 6. -/
@[irreducible] def step6 (b : List Byte) (i : Image) : Option (Nat × Nat × Nat × Nat) :=
  claimClash [] ((sectTable b).zipIdx.flatMap fun p => (claimsOf i p.1.type).map (fun c => (p.2, c)))

/-! ### Steps 7 and 8 -/

/-- COMMIT_TILE of a schedule is legal (R45). -/
def commitTileOk (i : Image) (x : Schedule) : Bool :=
  ((i.tileMap[x.commitTile]?).map (·.role)).getD 0 == 2 && (x.missing == 0xFF || x.commitTile / 16 != x.missing / 2)

/-- Step 7 for a schedule (R57). -/
def budgetOk (i : Image) (x : Schedule) : Bool :=
  decide (x.busyNs + i.safety.slackReserveNs ≤ i.safety.beatNs) && decide (i.safety.slackReserveNs ≤ x.slackNs) &&
    commitTileOk i x && (x.entries.all fun e => !e.release || regionOfTile (tileOfQueue e.queue) != x.missing)

/-- Cycles of a checker layer at 600 MHz, from the shape that it writes (R364). -/
def layerCycles (l : ChkLayer) (o : Nat × Nat × Nat × Nat) : Nat :=
  match l.op with
  | 1 => ceilDiv l.cout 16 * ceilDiv (o.2.1 * o.2.2.1) 16 * (l.k * l.k * l.cin + 24)
  | 4 => ceilDiv l.tLen 16 + 24
  | _ => ceilDiv (o.2.1 * o.2.2.1 * o.2.2.2) 256 + 24

/-- Step 7 for CHECKER (R364). -/
def compareTimesOk (i : Image) : Bool :=
  let c := i.checker
  let outs := ((layerShapes c.blob.toArray i.inputShapes c.layers).map (·.2)).getD []
  let cycles := ((c.layers.zip outs).map (fun p => layerCycles p.1 p.2)).sum
  decide (c.cmpBeat ≤ i.safety.j - 1) && decide (i.intake.graceNs + c.chkBudgetNs ≤ c.cmpBeat * i.safety.beatNs) &&
    decide ((c.cmpBeat + 2) * i.safety.beatNs + 20000 ≤ i.safety.frameNs) &&
    decide (ceilDiv (5 * cycles) 3 + 500000 ≤ c.chkBudgetNs)

/-- Step 7: the schedules, then CHECKER. -/
@[irreducible] def step7 (b : List Byte) (i : Image) : Option Nat :=
  firstBad (i.schedules.map (fun x => (x.index, budgetOk i x)) ++ [(sectIndex b 15, compareTimesOk i)])

/-- R53, and MODE_ID unique within the image (R52). -/
def modeSetOk (i : Image) : Bool :=
  distinct (i.modes.map (·.modeId)) && i.modes.any (fun m => m.modeId == i.startMode) &&
    (i.header.deploy != 1 || (i.modes.all fun m => m.safety != 3 && (i.modes.all fun n => n.safety == m.safety)))

/-- A schedule's MODE_ID names a mode of the set, its INSTANCE a region of the count, and no earlier schedule has both. -/
def schedNamed (i : Image) (x : Schedule) : Bool :=
  i.modes.any (fun m => m.modeId == x.modeId) && decide (x.inst ≤ regionCount i.header.variants) &&
    !(i.schedules.any fun y => decide (y.index < x.index) && y.modeId == x.modeId && y.inst == x.inst)

/-- Every mode has every INSTANCE. -/
def schedsPresent (i : Image) : Bool :=
  i.modes.all fun m => (List.range (regionCount i.header.variants + 1)).all fun n =>
    i.schedules.any fun x => x.modeId == m.modeId && x.inst == n

/-- MISSING matches INSTANCE (R45). -/
def missingMatches (x : Schedule) : Bool := if x.inst = 0 then x.missing == 0xFF else x.missing + 1 == x.inst

/-- Step 8. -/
@[irreducible] def step8 (b : List Byte) (i : Image) : Option Nat :=
  firstBad ([(sectIndex b 10, modeSetOk i)] ++ i.schedules.map (fun x => (x.index, schedNamed i x)) ++
    [(sectIndex b 10, schedsPresent i)] ++ i.schedules.map (fun x => (x.index, missingMatches x)))

/-! ### The whole of R57 -/

/-- Steps 4 to 8 of an image whose table stands. -/
def State.validateSections (s : State) (b : List Byte) (i : Image) : Option Verdict :=
  match step4 s.part b i with
  | some n => some { status := 0x75, step := 4, sect := n }
  | none => match s.step5 b i with
    | some n => some { status := 0x76, step := 5, sect := n }
    | none => match step6 b i with
      | some c => some { status := 0x73, step := 6, sect := c.1, conflict := some c.2 }
      | none => match step7 b i with
        | some n => some { status := 0x77, step := 7, sect := n }
        | none => match step8 b i with
          | some n => some { status := 0x78, step := 8, sect := n }
          | none => none

/-- Validation of the bytes of an image and its signature (R57): why it fails, or the image. -/
def State.validate (s : State) (b signature : List Byte) : Except Verdict Image :=
  if !(s.headerOk b) then .error { status := 0x70, step := 1, sect := 0xFF }
  else
    let v := s.verifyComponent 1 s.sec.cntStruct b signature
    if v ≠ 0 then .error { status := v, step := 2, sect := 0xFF }
    else match step3 b with
      | some n => .error { status := 0x74, step := 3, sect := n }
      | none => match s.validateSections b (parseImage b) with
        | some e => .error e
        | none => .ok (parseImage b)

/-- Validation of an image slot of the flash. -/
def State.validateSlot (s : State) (k : Nat) : Except Verdict Image :=
  let c := s.componentBytes (imageSlotBase k) 0x1000000
  s.validate c.1 c.2

end Sys2Proof.Machine
end

