-- ==== Sys2Proof/Machine/Boot.lean ====
section
/-! DEFINITION. Firmware components and the start-up (R63 to R66, R118, R119, R139, R439 to R441, R448, R492): the boot ROM, the
order of power, training, the repair map, the choice of an image and its activation. -/

namespace Sys2Proof.Machine

/-! ### Firmware components (R438 to R440, R447) -/

/-- Flash offset of a firmware slot: component 1 Pregus, 2 Die Controller (R438). -/
def firmwareBase (comp : Nat) (slot : Bool) : Nat :=
  (if comp = 1 then 0x100000 else 0x500000) + (if slot then 0x200000 else 0)

/-- The header of a firmware component (R439). -/
@[irreducible] def State.firmwareHeaderOk (s : State) (comp : Nat) (b : List Byte) : Bool :=
  leAt b 0 4 == 0x57465351 && leAt b 4 2 == 0x0100 && leAt b 6 2 == 128 && imgBodyLen b % 64 == 0 &&
    within 128 (imgBodyLen b) (0x200000 - 4627) && leAt b 0x0C 1 == comp && decide (leAt b 0x10 1 < 4) &&
    decide (leAt b 0x11 1 < 4) && bit (leAt b 0x10 1) s.part.bitNo && bit (leAt b 0x11 1) s.stepping.bitNo &&
    leAt b 0x24 4 == 4627 && zeroAt b 0x0D 1 && zeroAt b 0x1C 4 && zeroAt b 0x28 8 && zeroAt b 0x70 16

/-- What a firmware carries (R439). -/
def parseFirmware (b : List Byte) : Firmware where
  version := leAt b 0x0E 2
  peerMin := leAt b 0x12 2
  secVersion := leAt b 0x14 4
  imageFmt := leAt b 0x18 2
  settingsFmt := leAt b 0x1A 2
  digest := slice b 0x30 64

/-- Loads and verifies the firmware of a slot: its status, or the firmware (R447). -/
def State.loadFirmware (s : State) (comp : Nat) (slot : Bool) : Except Nat Firmware :=
  let c := s.componentBytes (firmwareBase comp slot) 0x200000
  if !(s.firmwareHeaderOk comp c.1) then .error 0x70
  else
    let v := s.verifyComponent 0 (if comp = 1 then s.sec.cntPregus else s.sec.cntDie) c.1 c.2
    if v ≠ 0 then .error v else .ok (parseFirmware c.1)

/-- A Pregus and a Die Controller firmware run together (R440). -/
def firmwarePair (p d : Firmware) : Bool := decide (p.peerMin ≤ d.version) && decide (d.peerMin ≤ p.version)

/-- An Ash log entry for a component that starts, is staged, activated or ratcheted (R385, KIND 4). -/
def State.logComponent (s : State) (comp version secVersion imageId : Nat) : State :=
  s.log 4 0 0xFF (leBytes 1 comp ++ zeros 1 ++ leBytes 2 version ++ leBytes 4 secVersion ++ leBytes 8 imageId)

def State.logFirmware (s : State) (comp : Nat) (f : Firmware) : State := s.logComponent comp f.version f.secVersion 0
def State.logImage (s : State) (i : Image) : State := s.logComponent 3 0 i.header.secVersion i.header.imageId

/-! ### The repair map (R139, step 5 of R63) -/

def parseRepairEntry (e : List Byte) : RepairEntry where
  kind := leAt e 0 1
  die := leAt e 1 1
  unit := leAt e 2 2
  row := leAt e 4 3
  spare := leAt e 7 1

/-- A flash copy of the map, when it is valid. -/
def State.repairCopy (s : State) (off : Nat) : Option RepairMap :=
  let h := s.flashBytes off 64
  let n := leAt h 6 2
  if leAt h 0 4 ≠ 0x50525351 ∨ leAt h 4 2 ≠ 0x0100 ∨ 8192 < n then none
  else
    let es := s.flashBytes (off + 64) (8 * n)
    if leAt h 56 8 = crc 5 (h.take 56 ++ es) then
      some { generation := leAt h 8 8, entries := (chunks 8 es).map parseRepairEntry, slotOf := [] }
    else none

/-- The valid copy with the higher GENERATION; a new part has an empty map (R29, R139). -/
def State.repairStored (s : State) : RepairMap :=
  match s.repairCopy 0x20000, s.repairCopy 0x40000 with
  | some a, some b => if a.generation < b.generation then b else a
  | some a, none => a
  | none, some b => b
  | none, none => {}

/-- Post-package repair of a recorded DRAM row, once (R137): SEV-060. -/
def State.postPackage (s : State) (e : RepairEntry) : State :=
  if s.pprDone.contains e then s else ({ s with pprDone := s.pprDone ++ [e] }).raise 60 e.die 0

/-- Applies one entry of the map (R139). -/
def State.applyRepair (s : State) (e : RepairEntry) : State :=
  match e.kind with
  | 1 =>
    let slots := SMap.update [0, 1, 2, 3] s.repair.slotOf e.unit (fun l => l.set e.row e.spare)
    { s with repair := { s.repair with slotOf := slots } }
  | 2 | 3 => s.loadRepair e.unit
  | 5 => s.updDie e.die (fun x => { x with peat := { x.peat with rowsUsed := SMap.update 0 x.peat.rowsUsed e.unit (· + 1) } })
  | 6 => s.updDie e.die (fun x => { x with peat := { x.peat with
      banksUsed := x.peat.banksUsed + 1, rowsUsed := SMap.set 0 x.peat.rowsUsed e.unit 0 } })
  | 7 => s.postPackage e
  | _ => s

/-- PERMANENT of the regions that hold a cluster of fewer than four healthy slots (R425). -/
def State.markPermanent (s : State) : State :=
  (List.range s.part.regions).foldl (fun acc g =>
    if acc.healthySlots (2 * g) < 4 ∨ acc.healthySlots (2 * g + 1) < 4 then acc.updRgnUnit g (fun x => { x with permanent := true })
    else acc) s

/-- Step 5: the repair map is applied in the order of its entries. -/
def State.applyRepairs (s : State) : State :=
  let m := s.repairStored
  (m.entries.foldl State.applyRepair { s with repair := m }).markPermanent

/-! ### Start-up BIST (step 5 of R63, R375) -/

/-- The slots whose array fails its residue-code tests. -/
def State.bistFailed (s : State) : List Nat :=
  (List.range 80).filter fun p => !((s.slot p).u.state.gone) && !(s.entryTestPasses p)

/-- Start-up BIST: SEV-016 for each array that fails; a check that fails ends the start-up (R63). The map is in force, so that a fault
it repairs does not show (DEDUCED, assumption 77). -/
def State.startBist (s : State) : State × Bool :=
  (s.bistFailed.foldl (fun acc p => acc.raiseDie (p / 20) 16 (acc.unitTag .slot p) 0) s, s.bistOk && s.bistFailed == [])

/-! ### Training (R118, R119) -/

/-- The device of a channel: its density code and the rates at which the channel trains. -/
def State.deviceOf (s : State) (c : Nat) : Nat × List Nat := s.fitted.getD c (0, [])

/-- The rate at which all channels run: the highest of the three at which every one of them trains (R119). -/
def State.commonRate (s : State) : Option Nat :=
  [8533, 7500, 6400].find? fun r => (List.range 12).all fun c => (s.deviceOf c).2.contains r

/-- A channel on its own: a known density, that of channel 0, and training at 6,400 MT/s or at the rate that all share (R118, R119). -/
def State.channelOk (s : State) (c : Nat) : Bool :=
  within 1 (s.deviceOf c).1 4 && (s.deviceOf c).1 == (s.deviceOf 0).1 &&
    ((s.deviceOf c).2.contains 6400 || (match s.commonRate with | some r => (s.deviceOf c).2.contains r | none => false))

/-- All channels have one density and train at one rate (R119). -/
def State.trainsOk (s : State) : Bool := s.commonRate.isSome && (List.range 12).all s.channelOk

/-- The registers of a channel after training (DRAM_CH_STATUS): 0x37 where it does not train or its density differs. -/
def State.trainChannel (s : State) (c : Nat) : State :=
  let d := (s.deviceOf c).1
  let ok := s.channelOk c
  s.updChan c (fun x => { x with
    density := BitVec.ofNat 3 d, populated := decide (d ≠ 0), trained := ok, trainFail := !ok,
    last := if ok then x.last else 0x37, pprPending := false, retrainAt := s.mono, pollAt := s.mono })

def State.trainAll (s : State) : State :=
  { (List.range 12).foldl (fun acc c => acc.trainChannel c) s with dramRate := s.commonRate.getD 0 }

/-! ### The settings block (R441) -/

/-- The settings as firmware restores them; a block that is absent or of another format is rewritten with defaults (SEV-257). -/
def State.restoreSettings (s : State) (fmt : Nat) : State :=
  let put := fun (x : Settings) (s : State) =>
    let s1 := (List.range 4).foldl (fun acc d => acc.updDie d (fun y => { y with
      dumpLo := SMap.get 0 x.dumpLo d, dumpHi := SMap.get 0 x.dumpHi d })) s
    let s2 := (List.range s.part.tiles).foldl (fun acc t => acc.updTile t (fun y => { y with
      hangMult := BitVec.ofNat 4 (SMap.get 4 x.hangMult t), limit := BitVec.ofNat 14 (SMap.get 0x1000 x.limit t) })) s1
    s2.updTb (fun tb => { tb with tslat := x.tslat })
  match s.upd.settings with
  | some x => if x.fmt = fmt then put x s
      else (put {} (s.updUpd (fun u => { u with settings := some { fmt := fmt } }))).raise 257 0xFF 0
  | none => (put {} (s.updUpd (fun u => { u with settings := some { fmt := fmt } }))).raise 257 0xFF 0

/-! ### The image (R57, R63 steps 6 and 7, R66) -/

/-- Validation of a slot, with the IMAGE_FMT of the firmware that is to run it (R440). -/
def State.checkSlot (s : State) (k : Bool) (fws : List Firmware) : Except Verdict Image :=
  match s.validateSlot k.toNat with
  | .error v => .error v
  | .ok i => if fws.any (fun f => decide (f.imageFmt < i.header.format)) then .error { status := 0x7C, step := 1, sect := 0xFF } else .ok i

/-- CTX_IMG_STATUS and CTX_IMG_CONFLICT of a failure (R55, R57). -/
def State.imgVerdict (s : State) (v : Verdict) : State :=
  s.updCtx (fun c => { c with
    imgStatus := BitVec.ofNat 8 v.status, imgSection := BitVec.ofNat 8 v.sect, imgStep := BitVec.ofNat 4 v.step
    conflict := match v.conflict with
      | some x => BitVec.ofNat 32 (x.1 % 256 * 2 ^ 24 + x.2.1 % 16 * 2 ^ 16 + x.2.2 % 65536)
      | none => 0xFF000000 })

/-- CTX_IMG_STATUS of an image that passed. -/
def State.imgPassed (s : State) : State :=
  s.updCtx (fun c => { c with imgStatus := 0, imgSection := 0xFF, imgStep := 0, conflict := 0xFF000000 })

/-- The arithmetic clock's floor of R508 from a CLOCK_FLOOR_MHZ. -/
def fMinOf (floorMhz : Nat) : Nat := 5 * ceilDiv (floorMhz * 1000) 4975

/-- f_min in force (R508, PWR_CLKCTRL.F_MIN). -/
def State.fMin (s : State) : Nat :=
  match s.image, s.upd.image with
  | some a, some b => fMinOf (max a.safety.clockFloorMhz b.safety.clockFloorMhz)
  | some a, none => fMinOf a.safety.clockFloorMhz
  | none, _ => fMinOf 800

/-- When an image becomes active, an f_nom below f_min starts its move up at once (R508). -/
def State.liftClocks (s : State) : State :=
  (List.range 4).foldl (fun acc d => acc.updDie d (fun x => { x with fNom := max x.fNom s.fMin })) s

/-- Zero-fills every carve-out (R63 step 7). -/
def State.zeroCarves (s : State) : State := s.img.carves.foldl (fun acc c => acc.zeroRange c.base c.size) s

/-- The Die Controller processors start: both hold the firmware, and DIE_SERVER names the one that serves (R42, R63 step 4). -/
def State.startControllers (s : State) (f : Firmware) : State :=
  (List.range 4).foldl (fun acc d => acc.updDie d (fun x => { x with
    fwA := f, fwB := f, beatAt := s.mono
    serving := ((s.img.regions[2 * d]?).map (fun r => r.dieServer == 1)).getD false })) s

/-- An image that has passed becomes active (R63 step 7): its mode, a fresh configuration, and the outputs at their inactive
levels (DESIGN CHOICE, assumption 36). -/
def State.activateImage (s : State) (i : Image) (slot fallback : Bool) (die : Firmware) : State :=
  let s1 := ({ s with image := some i, boot := .running, scrubFrom := s.mono }.imgPassed).updCtx (fun c => { c with
    slot := slot, fallback := fallback, mode := i.startMode })
  let s2 := ((s1.startControllers die).zeroCarves).restoreSettings s.upd.pregus.settingsFmt
  let s3 := ((s2.liftClocks.driveSafe.logImage i).rearmSeconds).updTb (fun tb => { tb with measuredAt := s.mono })
  let s4 := s3.refreshMissing
  let was := s3.beat.missOrder
  if 2 ≤ was.length ∧ s4.beat.missOrder.length ≤ was.length then s4.raise 24 (was.getLastD 0) 0 else s4

/-- Steps 6 and 7: the active slot, else the other one (R66). -/
def State.startImage (s : State) (die : Firmware) : State :=
  let k := s.upd.selImage
  let fws := [s.upd.pregus, die]
  match s.checkSlot k fws with
  | .ok i => s.activateImage i k false die
  | .error v =>
    let s1 := s.raise 251 0xFF v.status
    match s.checkSlot (!k) fws with
    | .ok i => (s1.activateImage i (!k) true die).raise 252 0xFF 0
    | .error w => { (s1.raise 251 0xFF w.status).imgVerdict v with boot := .failed }

/-! ### Steps 1 to 5 -/

/-- SEC_STATUS.BOOT_STATUS keeps the first failure (R448). -/
def State.bootFailure (s : State) (status : Nat) : State :=
  s.updSec (fun x => { x with bootStatus := if x.bootStatus = 0 then BitVec.ofNat 8 status else x.bootStatus })

/-- Steps 4 to 7, once every die has been powered or given up. -/
def State.finishBoot (s : State) : State :=
  match s.loadFirmware 2 s.upd.selDie with
  | .error e => { s.bootFailure e with boot := .failed }
  | .ok f =>
    if !(firmwarePair s.upd.pregus f) then { s.bootFailure 0x7C with boot := .failed }
    else
      let r := ((s.updUpd (fun u => { u with runDie := u.selDie })).logFirmware 2 f).applyRepairs.startBist
      let s1 := r.1.trainAll
      if r.2 && s1.trainsOk then s1.startImage f else { s1 with boot := .failed }

/-- Drives PWR_EN_d high (R492 step 3). -/
def State.enablePower (s : State) (d : Nat) : State := s.updDie d (fun x => { x with pwrEn := true, pwrAt := s.mono })

/-- After die `d`: the next die, or the rest of the start-up. -/
def State.nextDie (s : State) (d : Nat) : State :=
  if d < 3 then ({ s with boot := .powering (d + 1) }).enablePower (d + 1) else s.finishBoot

/-- The time base starts at 0 with its nominal step, and the followers with it (R63 step 2, R333; of the followers DESIGN CHOICE,
assumption 153). -/
def State.startTime (s : State) : State :=
  (List.range 4).foldl (fun acc d => acc.updFollower d (fun f => { f with base := 0, baseTick := s.tb.ticks }))
    (s.updTb (fun tb => { tb with sec := 0, ns := 0, frac := 0, incr := 0x200000000, incrHeld := 0 }))

/-- Steps 1 to 3 (R63, R448): the ROM tries the selected Pregus slot, then the other; the firmware starts the time base, opens the Ash
log, releases the Tanex and powers die 0. -/
def State.bootRom (s : State) : State :=
  let go := fun (s : State) (k : Bool) (f : Firmware) =>
    let s1 := (s.startTime.updUpd (fun u => { u with pregus := f, runPregus := k })).ashRestore.logFirmware 1 f
    ({ s1 with boot := .powering 0, tanexReset := false }).enablePower 0
  match s.loadFirmware 1 s.upd.selPregus with
  | .ok f => go s s.upd.selPregus f
  | .error e =>
    match s.loadFirmware 1 !s.upd.selPregus with
    | .ok f => go (s.bootFailure e) (!s.upd.selPregus) f
    | .error _ => (({ s.bootFailure e with boot := .recovery }).enablePower 0).raise 262 0xFF e

/-- The compute die of stack 3 of a Q48 is OFF (R30, R404). -/
def State.gateQ48 (s : State) : State :=
  match s.part with
  | .q64 => s
  | .q48 =>
    let s1 := (List.range 20).foldl (fun acc i => acc.setUnit .slot (60 + i) .off) s
    let s2 := (List.range 4).foldl (fun acc i => acc.setUnit .cluster (12 + i) .off) s1
    (s2.setUnit .region 6 .off).setUnit .region 7 .off

/-- A unit that stays RETIRED over a package reset (R404). -/
def UnitSt.keepRetired (u : UnitSt) : UnitSt :=
  { ({} : UnitSt) with state := .retired, hostView := .retired, pregusView := .retired, cause := u.cause, permanent := u.permanent }

/-- What stays over a package reset (R384, R404, R416): the flash, the OTP fuses, the PSRAM with the log entries that wait for the
mirror, the rows repaired in the DRAM devices, the slots and regions that the repair map has retired, the conditions of the hardware
and, beyond the manual, the queue, the part, the count of ticks and the draws. -/
def State.packageReset (s : State) : State :=
  let r : State := State.reset
  { r with
    pending := s.pending, part := s.part, stepping := s.stepping, flash := s.flash, draws := s.draws
    fitted := s.fitted, bistOk := s.bistOk, pprDone := s.pprDone, tb := { r.tb with ticks := s.tb.ticks }
    ash := { r.ash with ring := s.ash.ring, head := s.ash.head, page := s.ash.page, pageAt := s.ash.pageAt, mirrorPage := s.ash.mirrorPage }
    slots := (s.slots.map (fun e => (e.1, { ({} : SlotSt) with
      u := if e.2.u.state = .retired then e.2.u.keepRetired else {}, colErr := e.2.colErr }))).filter (fun e => e.2 != {})
    rgnUnits := (s.rgnUnits.filter (fun e => e.2.state == .retired)).map (fun e => (e.1, e.2.keepRetired))
    upd := { r.upd with
      selPregus := s.upd.selPregus, selDie := s.upd.selDie, selImage := s.upd.selImage, settings := s.upd.settings }
    sec := { r.sec with
      keys := s.sec.keys, cntPregus := s.sec.cntPregus, cntDie := s.sec.cntDie, cntStruct := s.sec.cntStruct
      rackEn := s.sec.rackEn, vehicleLock := s.sec.vehicleLock, chalDraw := s.sec.chalDraw + 1 } }

end Sys2Proof.Machine
end

