-- ==== Sys2Proof/Machine/HostLink.lean ====
section
/-! DEFINITION. The host link (18_host_and_lattice_links.md, R456 to R468): BAR4, the flash window, the event FIFO, MSI-X and the
UCIe modules. -/

namespace Sys2Proof.Machine

/-! ### The function (R456) -/

/-- Vendor ID, Device ID, Revision ID and class code of the configuration space (R456). -/
def State.configId (s : State) : Nat × Nat × Nat × Nat :=
  (0x1DAD, (match s.part with | .q64 => 0x0640 | .q48 => 0x0480), (match s.stepping with | .a1 => 0x10 | .b0 => 0x20), 0x120000)

/-! ### Answers and errors (R459 to R461) -/

/-- LAST_STATUS of UCI_ERR. -/
def State.uciStatus (s : State) (status : Nat) : State := s.updLink (fun l => { l with errLast := BitVec.ofNat 8 status })

/-- A read that completes as Unsupported Request (1) or Completer Abort (2). -/
def State.abortRead (s : State) (kind status : Nat) : State :=
  (s.uciStatus status).updLink (fun l => { l with aborts := satInc l.aborts, resp := { kind := kind, data := [] } })

/-- A host write that is dropped. -/
def State.dropWrite (s : State) (status : Nat) : State := (s.uciStatus status).updLink (fun l => { l with drops := satInc l.drops })

/-- A read that completes with data. -/
def State.answerBytes (s : State) (bs : List Byte) : State := s.updLink (fun l => { l with resp := { kind := 0, data := bs } })

/-- A poisoned request (R461): counted, reported through AER, with SEV-304. -/
def State.notePoison (s : State) : State :=
  (s.updLink (fun l => { l with poisoned := satInc l.poisoned, aerPoison := true })).raise 304 0xFF 0x91

/-- The status of a host access for a memory status; a failed DRAM link counts as uncorrectable (DEDUCED, assumption 66: UCI_ERR holds 0x30 to
0x33 and 0x38). -/
def hostStatus (st : Nat) : Nat := if st = 0x35 then 0x32 else st

/-! ### Flash (R438, R468) -/

/-- The flash range of a slot 1 to 6 of UCI_FLASH: offset and size. -/
def flashSlotRange (k : Nat) : Nat × Nat :=
  if k = 0 ∨ 6 < k then (0, 0)
  else if k < 5 then (0x100000 + (k - 1) * 0x200000, 0x200000) else (0x1000000 + (k - 5) * 0x1000000, 0x1000000)

/-- The slot selector marks a slot active. -/
def State.slotActive (s : State) (k : Nat) : Bool :=
  (match (k - 1) / 2 with
   | 0 => s.upd.selPregus
   | 1 => s.upd.selDie
   | _ => s.upd.selImage) == ((k - 1) % 2 == 1)

/-- The Pregus die serves the flash: it is out of reset and not in test mode. -/
def State.flashServed (s : State) : Bool := s.boot != .held && s.boot != .testMode

/-- FLASH_OPEN (R468): SLOT is written; a slot that does not exist or is active is refused with 0x92. -/
def State.flashOpen (s : State) (k : Nat) : State :=
  if !s.flashServed then s
  else if k = 0 ∨ 6 < k ∨ s.slotActive k then s.updLink (fun l => { l with flSlot := BitVec.ofNat 3 k, flLast := 0x92 })
  else s.updLink (fun l => { l with flSlot := BitVec.ofNat 3 k, flOpenSlot := k, flOpened := true, flLast := 0, flErased := [] })

def execFlashOpen (slot : Nat) (s : State) : Host.Outcome State Fault Refusal := .next (s.flashOpen slot)

/-- FLASH_CLOSE (R468). -/
def State.flashClose (s : State) : State :=
  if !s.flashServed then s else s.updLink (fun l => { l with flOpened := false, flOpenSlot := 0, flErased := [], flLast := 0 })

def execFlashClose (s : State) : Host.Outcome State Fault Refusal := .next s.flashClose

/-- Erases the sectors of a write that have not been erased since OPEN. -/
def State.eraseSectors (s : State) : List Nat → State
  | [] => s
  | k :: rest =>
    (if s.link.flErased.contains k then s
     else (s.flashErase (k * 65536) 65536).updLink (fun l => { l with flErased := k :: l.flErased })).eraseSectors rest

/-- The 64 KiB sectors that `n` bytes at `a` touch. -/
def sectorsOf (a n : Nat) : List Nat := (List.range ((a + n - 1) / 65536 + 1 - a / 65536)).map (· + a / 65536)

/-- FLASH_WINDOW_WRITE (R468): accepted only inside the open slot. -/
def State.flashWrite (s : State) (off : Nat) (bs : List Byte) : State :=
  let r := flashSlotRange s.link.flOpenSlot
  if bs = [] then s
  else if s.flashServed ∧ s.link.flOpened ∧ r.1 ≤ off ∧ off + bs.length ≤ r.1 + r.2 then
    (s.eraseSectors (sectorsOf off bs.length)).flashPut off bs
  else s.updLink (fun l => { l with flDrops := satInc l.flDrops, flLast := 0x92 })

def execFlashWindowWrite (offset : Nat) (bytes : List Byte) (s : State) : Host.Outcome State Fault Refusal :=
  .next (s.flashWrite offset bytes)

/-! ### BAR4 (R457, R460, R462) -/

/-- What an offset of BAR4 reaches. -/
inductive Bar4 where
  | memory (a : Nat)
  | flash (off : Nat)
  | nothing
deriving DecidableEq, Repr

def bar4 (o : Nat) : Bar4 :=
  if o < 0x2000000000 then .memory (dramBase + o)
  else if o < 0x2000000000 + 2 ^ 30 then .memory (peatBase + (o - 0x2000000000))
  else if 0x3000000000 ≤ o ∧ o < 0x3000000000 + 0x10000000 then .flash (o - 0x3000000000)
  else .nothing

/-- Every byte of a range lies in a carve-out. -/
def State.covered (s : State) (a n : Nat) : Bool := s.img.covers (s.img.carves.length + 1) a n

/-- A host read of memory (R460). -/
def State.hostRead (s : State) (a n : Nat) : State :=
  if !(s.covered a n) then s.abortRead 2 0x90
  else if s.carveClosed none a n then s.abortRead 2 0x38
  else
    let f := s.fetch a n
    if f.status ≠ 0 then (f.st.abortRead 2 (hostStatus f.status)).settle else f.st.answerBytes f.data

/-- A host write of memory (R460): dropped whole outside the carve-outs and at a fenced region or a die in reset; a partial unit
whose read fails is left. -/
def State.hostWrite (s : State) (a : Nat) (bs : List Byte) : State :=
  if !(s.covered a bs.length) then s.dropWrite 0x90
  else if s.carveClosed none a bs.length then s.dropWrite 0x38
  else
    let r := s.storeHost a bs
    if r.2 ≠ 0 then (r.1.dropWrite (hostStatus r.2)).settle else r.1

/-- HOST_MEMORY_READ (R456, R460, R461). -/
def State.hostMemoryRead (s : State) (o n : Nat) (poisoned : Bool) : State :=
  if poisoned then (s.abortRead 1 0x91).notePoison
  else if s.link.d3hot then s.abortRead 1 0x90
  else if n = 0 then s.answerBytes []
  else match bar4 o with
    | .memory a => s.hostRead a n
    | .flash f => if f + n ≤ 0x10000000 then s.answerBytes (s.flashBytes f n) else s.abortRead 2 0x90
    | .nothing => s.abortRead 2 0x90

def execHostMemoryRead (offset len : Nat) (poisoned : Bool) (s : State) : Host.Outcome State Fault Refusal :=
  .next (s.hostMemoryRead offset len poisoned)

/-- HOST_MEMORY_WRITE (R456, R460 to R462). -/
def State.hostMemoryWrite (s : State) (o : Nat) (bs : List Byte) (poisoned : Bool) : State :=
  if poisoned then (s.dropWrite 0x91).notePoison
  else if s.link.d3hot then s.dropWrite 0x90
  else if bs = [] then s
  else match bar4 o with
    | .memory a => s.hostWrite a bs
    | .flash f => s.flashWrite f bs
    | .nothing => s.dropWrite 0x90

def execHostMemoryWrite (offset : Nat) (bytes : List Byte) (poisoned : Bool) (s : State) : Host.Outcome State Fault Refusal :=
  .next (s.hostMemoryWrite offset bytes poisoned)

/-! ### Event FIFO (R464) -/

/-- Words of UCI_EVT: the oldest entry; an empty FIFO reads as zero. -/
def HostLinkSt.evtWord (l : HostLinkSt) (i : Nat) : Nat :=
  match l.events with
  | [] => 0
  | e :: _ => if i = 0 then e.word0.toNat else leAt (stampBytes e.stamp) (4 * (i - 1)) 4

/-- The read of UCI_EVT[3] answers and removes the oldest entry. -/
def State.evtRead (s : State) : State :=
  (s.answerWord (s.link.evtWord 3)).updLink (fun l => { l with events := l.events.drop 1 })

/-- UCI_EVT_READ (R464). -/
def execUciEvtRead (s : State) : Host.Outcome State Fault Refusal := .next s.evtRead

/-! ### MSI-X (R463, R467) -/

/-- Sends one vector that waits in the PBA, when MSI-X is enabled and the vector unmasked. -/
def HostLinkSt.release (l : HostLinkSt) (v : Nat) : HostLinkSt :=
  if SMap.get false l.pba v && l.msixEnable && SMap.get false l.unmasked v then
    { l with sent := v :: l.sent, pba := SMap.set false l.pba v false }
  else l

/-- Sends what may now leave, in ascending order. -/
def HostLinkSt.releaseAll (l : HostLinkSt) : HostLinkSt := (l.pba.map (·.1)).foldl HostLinkSt.release l

/-- MSIX_UNMASK (R467): MSI-X is enabled and the vector, where there is one of that number, unmasked. -/
def execMsixUnmask (vector : Nat) (s : State) : Host.Outcome State Fault Refusal :=
  .next (s.updLink (fun l =>
    ({ l with msixEnable := true, unmasked := if vector < 2048 then SMap.set false l.unmasked vector true else l.unmasked }).releaseAll))

/-- HOST_LINK_RESET (R467): the configuration space returns to its reset values; the device stays as it is. -/
def State.configReset (s : State) : State := s.updLink (fun l => { l with d3hot := false, msixEnable := false })

def execHostLinkReset (s : State) : Host.Outcome State Fault Refusal := .next s.configReset

/-! ### UCIe modules (R465, R466) -/

/-- MODS of UCI_LINK. -/
def modsOf (m0Up m0X8 m1Up m1X8 : Bool) : Nat := atBit m0Up 0 + atBit (m0Up && m0X8) 1 + atBit m1Up 2 + atBit (m1Up && m1X8) 3

/-- The die of a module. -/
def dieOfModule (m : Nat) : Nat := 2 * m

/-- The new rate and modules of the link, with what R466 raises: SEV-301 when both modules are down, SEV-302 for a module that has been
lost beside one that is up, SEV-303 for a drop in rate or width. -/
def State.linkState (s : State) (rate mods : Nat) (lost : List Nat) (dropped : Bool) (status : Nat) : State :=
  let up := bit mods 0 || bit mods 2
  let s1 := s.updLink (fun l => { l with
    rate := BitVec.ofNat 4 (if up then rate else 0), mods := BitVec.ofNat 4 mods, trainStatus := BitVec.ofNat 8 status })
  if !up then (s1.raise 301 0xFF status).configReset
  else
    let s2 := lost.foldl (fun acc m => acc.raise 302 (dieOfModule m) status) s1
    if dropped then s2.raise 303 0xFF 0 else s2

/-- UCIE_TRAINING_DONE (R465): the modules that trained, their widths and the rate code 1 to 6; a module that failed has status 0x98. -/
def State.ucieTrained (s : State) (m0Up m0X8 m1Up m1X8 : Bool) (rate : Nat) : State :=
  if s.boot = .held ∨ s.boot = .testMode ∨ ((m0Up ∨ m1Up) ∧ (rate = 0 ∨ 6 < rate)) then s
  else
    let lost := (if m0Up then [] else [0]) ++ (if m1Up then [] else [1])
    s.linkState rate (modsOf m0Up m0X8 m1Up m1X8) lost
      ((m0Up && m0X8) || (m1Up && m1X8) || decide (rate < s.link.rate.toNat)) (if lost = [] then 0 else 0x98)

def execUcieTrainingDone (m0Up m0X8 m1Up m1X8 : Bool) (rate : Nat) (s : State) : Host.Outcome State Fault Refusal :=
  .next (s.ucieTrained m0Up m0X8 m1Up m1X8 rate)

/-- UCIE_MODULE_DOWN (R466): a module that was up retrains after an error, or fails to. -/
def State.moduleDown (s : State) (m : Nat) (retrained x8 : Bool) (rate : Nat) : State :=
  let mods := s.link.mods.toNat
  if 2 ≤ m ∨ !(bit mods (2 * m)) ∨ (retrained ∧ (rate = 0 ∨ 6 < rate)) then s
  else
    let others := if m = 0 then mods / 4 * 4 else mods % 4
    let s1 := s.updLink (fun l => { l with retrains := satInc l.retrains })
    if retrained then
      s1.linkState rate (others + (1 + atBit x8 1) * 4 ^ m) [] ((x8 && !(bit mods (2 * m + 1))) || decide (rate < s.link.rate.toNat)) 0
    else s1.linkState s.link.rate.toNat others [m] false 0x98

def execUcieModuleDown (modIdx : Nat) (retrained x8 : Bool) (rate : Nat) (s : State) : Host.Outcome State Fault Refusal :=
  .next (s.moduleDown modIdx retrained x8 rate)

end Sys2Proof.Machine
end

