-- ==== Sys2Proof/Machine/Lattice.lean ====
section
/-! DEFINITION. The Lattice ports (18_host_and_lattice_links.md, R471 to R483): training, flits, packets, management messages and the
numbering of the chip. -/

namespace Sys2Proof.Machine

/-- A port of a die that has power and is not in reset. -/
def State.portLive (s : State) (p : Nat) : Bool := decide (p < 4) && !(s.dieDown p)

/-! ### Training and lanes (R471, R472) -/

/-- LATTICE_TRAINING_DONE (R472): a port that was not up comes up with fresh sequence numbers and credits and sends HELLO, or stays DOWN
with status 0x97. -/
def State.portTrained (s : State) (p : Nat) (trained fourLanes : Bool) : State :=
  if !(s.portLive p) ∨ (s.port p).up then s
  else if !trained then s.updPort p (fun x => { x with state := 0, trainStatus := 0x97 })
  else
    let s1 := s.updPort p (fun x => { x with
      state := if fourLanes then 3 else 2, trainStatus := 0, txSeq := 0, rxSeq := 0, rxAny := false, replayBuf := [], noProgress := 0
      crUsed := [], crOwed := [], txWait := [], txOpen := none, partialRx := [], heardAt := s.mono })
    (if fourLanes then s1.raise 308 p 0 else s1).sendHello p

def execLatticeTrainingDone (port : Nat) (trained fourLanes : Bool) (s : State) : Host.Outcome State Fault Refusal :=
  .next (s.portTrained port trained fourLanes)

/-- LATTICE_LANE_DEGRADE (R471). -/
def execLatticeLaneDegrade (port : Nat) (s : State) : Host.Outcome State Fault Refusal :=
  .next (if s.portLive port ∧ (s.port port).state = 2 then (s.updPort port (fun x => { x with state := 3 })).raise 308 port 0 else s)

/-! ### Packets that arrive (R473, R476, R478, R479, R480, R483) -/

/-- Sends the acknowledgement of a request that this chip has taken, by its route. -/
def State.acknowledge (s : State) (p : Nat) (k : Packet) (code : Nat) : State :=
  (s.sendData p { ackPacket k code with src := s.chip } none).1

/-- Sends a packet of another chip on through port `o`; a request stays known there until its answer comes back (R483). -/
def State.passOn (s : State) (p o : Nat) (k : Packet) : State :=
  (s.queueAt o k).updPort o (fun x => if k.isRequest then { x with transit := x.transit ++ [(p, { k with data := [] })] } else x)

/-- A response that comes back on port `p` settles the request that it answers. -/
def PortSt.settleTransit (x : PortSt) (k : Packet) : PortSt :=
  if k.isRequest then x
  else { x with transit := x.transit.filter fun e => !(e.2.tag == k.tag && e.2.src == k.dst && e.2.kind + 1 == k.kind) }

/-- A data packet that arrives on port `p`: taken here, sent on, or dropped. -/
def State.arriveData (s0 : State) (p : Nat) (k : Packet) : State :=
  let s := s0.updPort p (fun x => x.settleTransit k)
  let here := s.updPort p (fun x => { x with inbox := x.inbox ++ [k] })
  if !s.lat.numbered then (s.dropPacket p).answerBack p k 0x95
  else if k.dst = s.chip then here
  else match s.route p k.dst with
    | .here => here
    | .none => (s.dropPacket p).answerBack p k 0x95
    | .port o dl =>
      if !(s.port o).up ∨ s.dieDown o then (s.lostRequest o).answerBack p k 0x94
      else s.passOn p o (if dl then { k with vl := 1 } else k)

/-- A management packet that arrives: refused when it is malformed (R480), kept when it ends here, else sent on. -/
def State.arriveMgmt (s : State) (p : Nat) (k : Packet) : State :=
  if !(mgmtOk k.data) then s.raise 311 p 0x96
  else if s.mgmtHere (Mgmt.parse k.data) then s.updPort p (fun x => { x with inbox := x.inbox ++ [k] })
  else s.mgmtOnward p k.vl (Mgmt.parse k.data)

/-- A whole packet; one of an undefined KIND is dropped (DESIGN CHOICE, assumption 73). -/
def State.arrivePacket (s : State) (p : Nat) (k : Packet) : State :=
  match k.kind with
  | 1 | 2 | 3 | 4 => s.arriveData p k
  | 5 => s.arriveMgmt p k
  | _ => s.updPort p (fun x => { x with drops := satInc x.drops })

/-! ### Flits (R473 to R475) -/

/-- The link header of a flit. -/
def flitHeader (f : List Byte) : Nat := leAt f 0 8

/-- The acknowledgement in a header takes flits out of the replay buffer. -/
def PortSt.takeAck (x : PortSt) (h : Nat) : PortSt :=
  if !(bit h 24) then x
  else
    -- flits in the buffer have the numbers txSeq − length to txSeq − 1
    let first := x.txSeq.toNat + 4096 - x.replayBuf.length % 4096
    let n := (fld h 23 12 + 4096 + 1 - first % 4096) % 4096
    if n ≤ x.replayBuf.length ∧ n ≠ 0 then { x with replayBuf := x.replayBuf.drop n, noProgress := 0 } else x

/-- The credits in a header. -/
def PortSt.takeCredits (x : PortSt) (h : Nat) : PortSt :=
  { x with crUsed := SMap.update 0 x.crUsed (fld h 34 32) (· - fld h 47 40) }

/-- An ACK or a credit has come. -/
def PortSt.heard (x : PortSt) (now : Instant) (h : Nat) : PortSt :=
  { x with heardAt := if bit h 24 || fld h 47 40 != 0 then now else x.heardAt }

/-- A payload flit with the number that is due; its buffer is free at once, so its credit is owed (DEDUCED, assumption 17). -/
def PortSt.takePayload (x : PortSt) (f : List Byte) : PortSt :=
  let b := x.partialRx ++ slice f 8 240
  let k := Packet.parse b
  { x with rxSeq := x.rxSeq + 1, rxAny := true, partialRx := b, crOwed := SMap.update 0 x.crOwed (k.cls * 2 + k.vl) (· + 1) }

/-- The packet whose flits are all there. -/
def PortSt.wholePacket (x : PortSt) : Option Packet :=
  if x.partialRx ≠ [] ∧ 240 * flitsOf (leAt x.partialRx 6 2) ≤ x.partialRx.length then some (Packet.parse x.partialRx) else none

/-- A payload flit: taken in its order, acknowledged again when it is a repeat, else passed over until the replay. -/
def State.payloadFlit (s : State) (p : Nat) (h : Nat) (f : List Byte) : State :=
  let x := s.port p
  if fld h 11 0 = x.rxSeq.toNat then
    let s1 := s.updPort p (fun x => x.takePayload f)
    let s2 := match (s1.port p).wholePacket with
      | some k => (s1.updPort p (fun x => { x with partialRx := [] })).arrivePacket p k
      | none => s1
    s2.updPort p (fun x => x.sendIdle false)
  else s.updPort p (fun x => x.sendIdle false)

/-- FLIT_RECEIVE (R473 to R475): a flit that fails its CRC is answered with a NAK; a NAK makes the port replay. -/
def State.flitReceive (s : State) (p : Nat) (f : List Byte) : State :=
  if !(s.portLive p) ∨ !(s.port p).up ∨ f.length ≠ 256 then s
  else if leAt f 248 8 ≠ crc 5 (f.take 248) then s.updPort p (fun x => x.sendIdle true)
  else
    let h := flitHeader f
    let s1 := s.updPort p (fun x => ((x.takeAck h).takeCredits h).heard s.mono h |>.pump)
    let s2 := if bit h 25 then s1.replayPort p else s1
    if bit h 26 then s2 else s2.payloadFlit p h f

def execFlitReceive (port : Nat) (flit : List Byte) (s : State) : Host.Outcome State Fault Refusal := .next (s.flitReceive port flit)

/-- Retrains that failed, and the one that succeeded (R474). -/
def State.retrains (s : State) (p : Nat) : Nat → State
  | 0 => s
  | n + 1 => (s.retrainPort p).retrains p n

/-- REPLAY_TIMEOUT (R474): no ACK within 2 us. The third replay without progress, and 20 us without an ACK or a credit, retrain the port;
three failed retrains leave it DOWN. -/
def State.replayTimeout (s : State) (p failed : Nat) : State :=
  let x := s.port p
  if !(s.portLive p) ∨ !x.up ∨ x.idle then s
  else if x.noProgress < 2 ∧ s.mono < x.heardAt + nsInst 20000 then (if x.replayBuf = [] then s else s.replayPort p)
  else if 3 ≤ failed then (s.retrains p 3).downPort p
  else ((s.retrains p failed).updPort p (fun x => { x with noProgress := 2, heardAt := s.mono })).replayPort p

def execReplayTimeout (port retrainsFailed : Nat) (s : State) : Host.Outcome State Fault Refusal :=
  .next (s.replayTimeout port retrainsFailed)

/-- PORT_DOWN (R474, R483). -/
def execPortDown (port : Nat) (s : State) : Host.Outcome State Fault Refusal :=
  .next (if port < 4 ∧ (s.port port).up then s.downPort port else s)

/-! ### Data packets (R476, R477, R483) -/

/-- Takes the packet at the front of a port's inbox, when it has the KIND. -/
def State.takePacket (s : State) (p kind : Nat) (f : State → Packet → State) : State :=
  if 4 ≤ p then s
  else match (s.port p).inbox with
    | [] => s
    | k :: rest => if k.kind = kind then f (s.updPort p (fun x => { x with inbox := rest })) k else s

/-- The message that a packet continues. -/
def State.messageOf (s : State) (k : Packet) : Option RemoteMsg :=
  s.lat.msgs.find? fun m => m.src == k.src && m.tag == k.tag && (k.kind != 1 || (m.word4 == k.word4 && m.offset == k.word12))

/-- A message whose packet has come, as its next packet finds it; one that is whole is forgotten. -/
def State.keepMessage (s : State) (was : Option RemoteMsg) (k : Packet) (m : RemoteMsg) : State :=
  let rest := s.lat.msgs.filter fun x => some x != was
  let next := { m with src := k.src, tag := (k.tag + 1) % 2 ^ 32, word4 := k.word4, offset := k.word12 + k.data.length }
  s.updLat (fun l => { l with msgs := if m.dropped.isNone && decide (k.data.length < 3824) then rest else rest ++ [next] })

/-- Puts back what the packets of a dropped message overwrote. -/
def State.undoMessage (s : State) (m : RemoteMsg) : State := m.old.foldl (fun acc e => acc.put e.1 e.2) s

/-- A WRITE at its tile (R87, R88, R410, R476). A message is dropped as a whole, with its SIGNAL, and counted once: what follows a
dropped packet is not written, and what its packets wrote before is put back. A packet belongs to the message of the one before it
when it has the next TAG and continues it in the same window (DESIGN CHOICE, assumption 75). -/
def State.writePacket (s : State) (p : Nat) (k : Packet) : State :=
  let was := s.messageOf k
  let m := was.getD { src := k.src, tag := k.tag, word4 := k.word4, offset := k.word12 }
  match m.dropped with
  | some code => (s.keepMessage was k m).acknowledge p k code
  | none =>
    let t := k.word4 % 64
    let a := t * tileSize + (SMap.get {} (s.tile t).windows (fld k.word4 9 6)).base + k.word12
    let r := s.deliver t { window := fld k.word4 9 6, offset := k.word12, extent := k.data.length, parts := [(0, k.data)]
                           signal := none, sender := none }
    match r.2 with
    | .applied => (r.1.keepMessage was k { m with old := (a, s.peek a k.data.length) :: m.old }).acknowledge p k 0
    | .dropped => ((r.1.undoMessage m).keepMessage was k { m with old := [], dropped := some 1 }).acknowledge p k 1
    | .discarded => (r.1.keepMessage was k { m with old := [], dropped := some 1 }).acknowledge p k 1
    | .failed st => (r.1.keepMessage was k { m with old := [], dropped := some st }).acknowledge p k st

/-- WRITE (R477). -/
def execWrite (port : Nat) (s : State) : Host.Outcome State Fault Refusal :=
  .next (s.takePacket port 1 fun s k => s.writePacket port k)

/-- A SIGNAL at its sync object (R86, R410, R476), applied before its acknowledgement leaves (R477); that of a dropped message is not
applied (R88). -/
def State.signalPacketIn (s : State) (p : Nat) (k : Packet) : State :=
  let c := refCluster k.word12
  let was := s.messageOf k
  let s1 := s.updLat (fun l => { l with msgs := l.msgs.filter fun x => some x != was })
  if was.any (fun m => m.dropped.isSome) ∨ s.part.clusters ≤ c then s1.acknowledge p k 1
  else (s1.applySignal false k.word12 (leAt k.data 0 4)).acknowledge p k (if s.clusterOpen c then 0 else 1)

/-- SIGNAL (R477). -/
def execSignal (port : Nat) (s : State) : Host.Outcome State Fault Refusal :=
  .next (s.takePacket port 3 fun s k => s.signalPacketIn port k)

/-- The request that a TAG names, and the port through which it left. -/
def State.requestOf (s : State) (tag : Nat) : Option (Nat × Nat × Nat) :=
  ((List.range 4).flatMap fun o => (s.port o).outstanding.filterMap fun r =>
    if r.1 = tag then some (o, r.2.1, r.2.2) else none).head?

/-- The codes of an acknowledgement that fail their command: 0x94 and 0x95 (R479, R483), and the memory statuses of a WRITE at its tile
(DESIGN CHOICE, assumption 72). No chip sends another (R9). -/
def ackFails (code : Nat) : Bool := code == 0x94 || code == 0x95 || decide (0x30 ≤ code ∧ code ≤ 0x38)

/-- The acknowledgement of a request: it is no longer outstanding, and its command goes on, after a discarded message without its
signal, or fails with the status it receives (R88, R410, R477, R479, R483). -/
def State.ackPacketIn (s : State) (k : Packet) : State :=
  match s.requestOf k.tag with
  | none => s
  | some (o, q, pos) =>
    let s1 := s.updPort o (fun x => { x with outstanding := x.outstanding.filter (fun r => r.1 != k.tag) })
    let code := k.word12 % 256
    if ackFails code then s1.failInFlight q pos code
    else if code = 1 ∧ k.kind = 2 then s1.ackDropped q pos
    else s1.ackInFlight q pos

/-- WRITE_ACK (R477). -/
def execWriteAck (port : Nat) (s : State) : Host.Outcome State Fault Refusal := .next (s.takePacket port 2 State.ackPacketIn)

/-- SIGNAL_ACK (R477). -/
def execSignalAck (port : Nat) (s : State) : Host.Outcome State Fault Refusal := .next (s.takePacket port 4 State.ackPacketIn)

/-! ### Management messages (R479 to R481) -/

/-- SET_CHIP on a chip: accepted from FM_CHIP or while NUMBERED is 0; CHIP takes effect only while it is 0 (R479). The body
holds CHIP, FM_CHIP, TIME_MASTER, COUNT and TOPO in one byte each (DESIGN CHOICE, assumption 71). -/
def State.setChipMsg (s : State) (m : Mgmt) : State × Nat :=
  let f := fun i => leAt m.body i 1
  if (s.lat.numbered ∧ m.src ≠ s.lat.fmChip.toNat) ∨ 15 < f 0 ∨ 15 < f 1 ∨ 15 < f 2 ∨ f 3 = 0 ∨ 16 < f 3 ∨ 4 < f 4 then
    (s.raise 311 0xFF 0x96, 0x96)
  else
    (s.updLat (fun l => { l with
      chip := if l.numbered then l.chip else BitVec.ofNat 4 (f 0), numbered := true, fmChip := BitVec.ofNat 4 (f 1)
      timeMaster := BitVec.ofNat 4 (f 2), countM1 := BitVec.ofNat 4 (f 3 - 1), topo := BitVec.ofNat 3 (f 4) }), 0)

/-- SET_ROUTE on a chip: accepted from FM_CHIP; a mask and 16 values (R480). -/
def State.setRouteMsg (s : State) (m : Mgmt) : State × Nat :=
  if m.src ≠ s.lat.fmChip.toNat then (s.raise 311 0xFF 0x96, 0x96)
  else
    (s.updLat (fun l => { l with routes := (List.range 16).foldl (fun r c =>
      if bit (leAt m.body 0 2) c then SMap.set 0x7777 r c (BitVec.ofNat 16 (leAt m.body (2 + 2 * c) 2)) else r) l.routes }), 0)

/-- The port that the chip follows for its time: the one its route from die 0 gives toward TIME_MASTER (R481; DESIGN CHOICE, assumption 74). -/
def State.followsPort (s : State) (p : Nat) : Bool :=
  s.lat.numbered && s.lat.timeMaster != s.lat.chip && (match s.route 0 s.lat.timeMaster.toNat with
    | .port o _ => o == p
    | _ => false)

/-- A TIME message (R481): on the port that the chip follows, the measured offset is a measurement of SOURCE = LATTICE. -/
def State.timeMsg (s : State) (p : Nat) : State :=
  if s.followsPort p ∧ s.img.time.source = 4 then s.offsetMeasurement (s.port p).timeOffset else s

/-- A message that ends on this chip, from die `die` (R480): hardware acts on SET_CHIP, SET_ROUTE and TIME; every other type goes to
the host. -/
def State.handleMgmt (s : State) (die : Nat) (b : List Byte) : State :=
  let m := Mgmt.parse b
  match m.type with
  | 2 => let r := s.setChipMsg m; r.1.sendAck die m.src r.2
  | 3 => let r := s.setRouteMsg m; r.1.sendAck die m.src r.2
  | 16 => s.timeMsg die
  | _ => s.toMailbox b

/-- Takes the message at the front of a port's inbox, when it has the TYPE. -/
def State.takeMgmt (s : State) (p type : Nat) : State :=
  if 4 ≤ p then s
  else match (s.port p).inbox with
    | [] => s
    | k :: rest =>
      if k.kind = 5 ∧ (Mgmt.parse k.data).type = type then (s.updPort p (fun x => { x with inbox := rest })).handleMgmt p k.data else s

/-- HELLO (R480). -/
def execHello (port : Nat) (s : State) : Host.Outcome State Fault Refusal := .next (s.takeMgmt port 1)
/-- SET_CHIP (R479, R480). -/
def execSetChip (port : Nat) (s : State) : Host.Outcome State Fault Refusal := .next (s.takeMgmt port 2)
/-- SET_ROUTE (R480). -/
def execSetRoute (port : Nat) (s : State) : Host.Outcome State Fault Refusal := .next (s.takeMgmt port 3)
/-- ACK (R480). -/
def execAck (port : Nat) (s : State) : Host.Outcome State Fault Refusal := .next (s.takeMgmt port 4)
/-- RESET_NOTICE (R420, R480). -/
def execResetNotice (port : Nat) (s : State) : Host.Outcome State Fault Refusal := .next (s.takeMgmt port 5)
/-- RETURN_NOTICE (R420, R480). -/
def execReturnNotice (port : Nat) (s : State) : Host.Outcome State Fault Refusal := .next (s.takeMgmt port 6)
/-- LINK_DOWN (R480). -/
def execLinkDown (port : Nat) (s : State) : Host.Outcome State Fault Refusal := .next (s.takeMgmt port 7)
/-- HOST (R480). -/
def execHost (port : Nat) (s : State) : Host.Outcome State Fault Refusal := .next (s.takeMgmt port 8)
/-- TIME (R481). -/
def execTime (port : Nat) (s : State) : Host.Outcome State Fault Refusal := .next (s.takeMgmt port 16)

/-- LATTICE_TIME_EXCHANGE (R481): the port sends a TIME message and keeps the offset that the exchange measures. -/
def State.timeExchange (s : State) (p : Nat) (offset : Int) : State :=
  if s.portLive p ∧ (s.port p).up then
    let r := s.stampMgmt { type := 16, dst := 0x80, body := stampBytes s.stamp }
    (r.1.mgmtThrough p 0 0 r.2.bytes).updPort p (fun x => { x with timeOffset := offset })
  else s

def execLatticeTimeExchange (port : Nat) (offset : Int) (s : State) : Host.Outcome State Fault Refusal :=
  .next (s.timeExchange port offset)

/-! ### The host mailbox (R480) -/

/-- A host message is refused with 0x96 and SEV-311. -/
def State.refuseMsg (s : State) : State := (s.updLink (fun l => { l with mbLast := 0x96 })).raise 311 0xFF 0x96

/-- The message in UCI_MB_TX. -/
def HostLinkSt.mbMessage (l : HostLinkSt) : List Byte := (List.range 16).flatMap fun i => leBytes 4 (SMap.get 0 l.mbTx i).toNat

/-- MB_TX (R480): word 15 sends the message, from die 0 (DESIGN CHOICE, assumption 71); a malformed one, a TIME message, which is for the hardware
only, and a send while TX_BUSY is 1 are refused. -/
def State.mbSend (s : State) (w : Word) : State :=
  let s1 := s.updLink (fun l => { l with mbTx := SMap.set 0 l.mbTx 15 w })
  let b := s1.link.mbMessage
  let m := Mgmt.parse b
  if s1.mbBusy ∨ !(mgmtOk b) ∨ m.type = 16 then s1.refuseMsg
  else
    let s2 := s1.updLink (fun l => { l with mbLast := 0 })
    if s2.mgmtHere m then s2.handleMgmt 0 b else s2.mgmtOnward 0 0 m

def execMbTx (word15 : Word) (s : State) : Host.Outcome State Fault Refusal := .next (s.mbSend word15)

/-- Word `i` of UCI_MB_RX: that of the oldest message, 0 when there is none. -/
def HostLinkSt.mbRxWord (l : HostLinkSt) (i : Nat) : Nat :=
  match l.mbRx with
  | [] => 0
  | b :: _ => leAt b (4 * i) 4

/-- The read of UCI_MB_RX[15] answers and removes the oldest message. -/
def State.mbRead (s : State) : State :=
  (s.answerWord (s.link.mbRxWord 15)).updLink (fun l => { l with mbRx := l.mbRx.drop 1 })

/-- MB_RX_READ (R480). -/
def execMbRxRead (s : State) : Host.Outcome State Fault Refusal := .next s.mbRead

/-! ### LAT_SYS and LAT_ROUTE (R478, R479) -/

/-- A write of LAT_SYS: CHIP only while NUMBERED is 0, which it then sets. -/
def LatSt.writeSys (l : LatSt) (w : Nat) : LatSt :=
  { l with
    topo := BitVec.ofNat 3 (fld w 30 28), chip := if l.numbered then l.chip else BitVec.ofNat 4 (fld w 27 24), numbered := true
    fmChip := BitVec.ofNat 4 (fld w 23 20), timeMaster := BitVec.ofNat 4 (fld w 19 16), countM1 := BitVec.ofNat 4 (fld w 15 12) }

/-- LAT_SYS_CHIP_WRITE (R479). -/
def execLatSysChipWrite (value : Word) (s : State) : Host.Outcome State Fault Refusal :=
  .next (s.updLat (fun l => l.writeSys value.toNat))

/-- A write of LAT_ROUTE[c]. -/
def LatSt.writeRoute (l : LatSt) (c w : Nat) : LatSt :=
  { l with routes := SMap.set 0x7777 l.routes c (BitVec.ofNat 16 w) }

/-- LAT_ROUTE_WRITE (R478). -/
def execLatRouteWrite (chip : Nat) (value : Word) (s : State) : Host.Outcome State Fault Refusal :=
  .next (if chip < 16 then s.updLat (fun l => l.writeRoute chip value.toNat) else s)

end Sys2Proof.Machine
end

