-- ==== Sys2Proof/Machine/MemMaint.lean ====
section
/-! DEFINITION. Memory maintenance (R121, R127, R128, R135 to R138): scrubbing, row and bank repair, the dirty-line clearer, refresh
polling and retraining. -/

namespace Sys2Proof.Machine

/-! ### Memories, banks and rows (R110, R115, R127) -/

/-- The carve-out at an address is of class WGT. -/
def State.isWgt (s : State) (a : Nat) : Bool := match s.img.carveAt a with | some c => c.eccClass == 2 | none => false

/-- The memory in whose pass an address is scrubbed, none where there is nothing to scrub (R127): each tile's memory, and the WGT and ACT
carve-outs of each die's Peat and DRAM. -/
def State.scrubMem (s : State) (a : Nat) : Option Nat :=
  match s.place a with
  | .tile t => some t
  | .peat d => if (s.img.carveAt a).isSome then some (64 + 2 * d + (if s.isWgt a then 0 else 1)) else none
  | .dram d => if (s.img.carveAt a).isSome then some (72 + 2 * d + (if s.isWgt a then 0 else 1)) else none
  | .none => none

/-- Bank of an address; a DRAM channel counts as one bank (DESIGN CHOICE, assumption 33). -/
def State.bankOf (s : State) (a : Nat) : Nat :=
  match s.place a with
  | .tile t => t * 32 + fld (a % tileSize) 11 7
  | .peat d => 2048 + d * 32 + fld ((a - peatBase) % peatSize) 14 10
  | _ => 2304 + dramChannel a

/-- First address of the row of an address: 128 B in tile memory, 1 KiB in Peat; in DRAM a block of 4 KiB stands for the row (DESIGN CHOICE,
assumption 33). -/
def State.rowOf (s : State) (a : Nat) : Nat :=
  match s.place a with
  | .tile _ => a / 128 * 128
  | .peat _ => a / 1024 * 1024
  | _ => a / 4096 * 4096

/-- Bytes of the row. -/
def State.rowSize (s : State) (a : Nat) : Nat :=
  match s.place a with
  | .tile _ => 128
  | .peat _ => 1024
  | _ => 4096

/-- Longest pass over a memory, in ns (R127); a tile's takes 536,870,912 cycles of its die's clock. -/
def State.passNs (s : State) (m : Nat) : Nat :=
  if m < 64 then 536870912 * 1000 / (s.die (dieOfTile m)).fNom
  else if m % 2 = 0 then 60 * 10 ^ 9 else 600 * 10 ^ 9

/-- UNIT of a memory's events: the tile, or the die. -/
def memTag (m : Nat) : Nat := if m < 64 then m else (m - 64) % 8 / 2
def memDie (m : Nat) : Nat := if m < 64 then dieOfTile m else (m - 64) % 8 / 2

/-! ### Repair (R137, R138, R425) -/

/-- Errors in the units of a set that the copy to a spare corrects are gone. -/
def State.cleanUnits (s : State) (p : Nat → Bool) : State :=
  { s with flips := s.flips.filter (fun e =>
      !(p e.1) || (match decodeUnit (s.unitSize e.1) e.2 with | .corrected _ => false | _ => true)) }

/-- The copy of the row of an address to a spare row, corrected (R137). -/
def State.cleanRow (s : State) (a : Nat) : State :=
  let lo := s.rowOf a
  s.cleanUnits fun u => decide (lo ≤ u ∧ u < lo + s.rowSize a)

/-- The copy of the bank of a Peat address to a spare bank, corrected (R137). -/
def State.cleanBank (s : State) (a : Nat) : State :=
  s.cleanUnits fun u => match s.place u with | .peat _ => s.bankOf u == s.bankOf a | _ => false

/-- A tile row (R137, R138): one of the bank's 8 spares, or the tile is retired. -/
def State.repairTileRow (s : State) (a t : Nat) : State :=
  let o := a % tileSize
  let p := s.slotOfTile t
  let bank := fld o 11 7
  (if s.tileSpares p bank < 8 then s.cleanRow a else s).repairSlotRow p bank (fld o 22 12)

/-- A region without Peat: missing for good (R425). -/
def State.loseRegion (s : State) (g : Nat) : State :=
  if (s.rgnUnit g).state.gone then s
  else
    let s1 := (s.openFence .region g 61 .suspect).answerTiles (s.unitTiles .region g) 0x80
    (s1.setUnit .region g .retired).updRgnUnit g (fun x => { x with permanent := true, resetReq := false })

/-- A Peat row (R137, R138): one of the bank's 32 spare rows, else a spare bank, else both regions of the die are lost. -/
def State.repairPeatRow (s : State) (a d : Nat) : State :=
  let o := (a - peatBase) % peatSize
  let bank := fld o 14 10
  let used := SMap.get 0 (s.die d).peat.rowsUsed bank
  let upd := fun (f : PeatSt → PeatSt) (t : State) => t.updDie d (fun x => { x with peat := f x.peat })
  if used < 32 then
    ((upd (fun p => { p with rowsUsed := SMap.set 0 p.rowsUsed bank (used + 1) }) (s.cleanRow a)).recordRepair
      { kind := 5, die := d, unit := bank, row := fld o 27 15, spare := used }).raiseDie d 60 d 0
  else if (s.die d).peat.banksUsed < 2 then
    ((upd (fun p => { p with rowsUsed := SMap.set 0 p.rowsUsed bank 0, banksUsed := p.banksUsed + 1 }) (s.cleanBank a)).recordRepair
      { kind := 6, die := d, unit := bank, row := 0, spare := (s.die d).peat.banksUsed }).raiseDie d 60 d 0
  else (((s.raiseDie d 61 d 0).loseRegion (2 * d)).loseRegion (2 * d + 1)).refreshMissing

/-- The repair of a row: at once in tile memory and Peat, at the next start-up in DRAM (R137). -/
def State.repairRow (s : State) (a : Nat) : State :=
  match s.place a with
  | .tile t => s.repairTileRow a t
  | .peat d => s.repairPeatRow a d
  | .dram d => s.repairDramRow a d
  | .none => s

/-! ### Scrubbing (R127, R128, R137, R141) -/

/-- What the scrubber of a memory reads, by ascending address: base and size (R127). -/
def State.scrubRanges (s : State) (m : Nat) : List (Nat × Nat) :=
  if m < 64 then [(m * tileSize, tileSize)]
  else ((s.img.carves.filter fun c => s.scrubMem c.base == some m).map fun c => (c.base, c.size)).mergeSort
    (fun x y => decide (x.1 ≤ y.1))

/-- The next line that the scrubber of a memory reads, and whether a new pass begins with it (DESIGN CHOICE, assumption 150: in
ascending order). -/
def State.scrubNext (s : State) (m : Nat) : Nat × Bool :=
  let pos := SMap.get 0 s.scrubPos m
  match (s.scrubRanges m).find? (fun r => decide (pos < r.1 + r.2)) with
  | some r => (max pos r.1, false)
  | none => (((s.scrubRanges m).map (·.1)).headD 0, true)

/-- The scrubber goes on to line `a`; the first line of a pass ends the pass before it. -/
def State.scrubStep (s : State) (m a : Nat) (fresh : Bool) : State :=
  let s1 := { s with scrubPos := SMap.set 0 s.scrubPos m (a + 64) }
  if fresh then
    { s1 with scrubPass := SMap.update 0 s.scrubPass m (· + 1), scrubStart := SMap.set 0 s.scrubStart m s.mono }
  else s1

/-- A corrected unit: counted in its tile, its errors in its bank, SEV-057 when they exceed 64 in a pass (those that the scrubber
corrects; DESIGN CHOICE, assumption 151); its row is repaired when its errors were corrected in the pass before too. -/
def State.scrubFixed (s : State) (m u errors : Nat) : State :=
  let n := SMap.get 0 s.scrubPass m
  let b := s.bankOf u
  let c := SMap.get (0, 0) s.bankCe b
  let before := if c.1 = n + 1 then c.2 else 0
  let s1 := (s.noteCorrected u)
  let s2 := { s1 with flips := SMap.set [] s1.flips u [], bankCe := SMap.set (0, 0) s1.bankCe b (n + 1, before + errors) }
  let s3 := if before ≤ 64 ∧ 64 < before + errors then s2.raiseDie (memDie m) 57 (memTag m) 0 else s2
  let row := s.rowOf u
  let last := SMap.get 0 s.rowsHit row
  let s4 := { s3 with rowsHit := SMap.set 0 s3.rowsHit row (n + 1) }
  if last = n ∧ last ≠ 0 then { s4 with rowsHit := SMap.set 0 s4.rowsHit row 0 }.repairRow u else s4

/-- One unit of a line: corrected and written back, or left as it is with SEV-058, which neither counts in UE_COUNT nor loads
TIL_MEMADDR (DESIGN CHOICE, assumption 152); a row that then fails its test is repaired. -/
def State.scrubUnit (s : State) (m : Nat) (testFails : Bool) (u size : Nat) : State :=
  if s.isDirty u then s
  else match decodeUnit size (SMap.get [] s.flips u) with
    | .clean => s
    | .corrected ps => s.scrubFixed m u ps.length
    | .address => s.noteAddress u
    | .uncorrectable =>
      let s1 := s.raiseDie (memDie m) 58 (memTag m) 0
      if testFails then s1.repairRow u else s1

/-- The test of a row in which a command met an uncorrectable unit (R137, R141): the scrubber makes it when it comes to the row. -/
def State.scrubTest (s : State) (a : Nat) (testFails : Bool) : State :=
  let mine := s.rowTests.filter fun u => s.rowOf u == s.rowOf a
  match mine with
  | [] => s
  | u :: _ =>
    let s1 := { s with rowTests := s.rowTests.filter fun u => s.rowOf u != s.rowOf a }
    if testFails then s1.repairRow u else s1

/-- SCRUB_LINE (R127, R128, R137): the next line of its memory; another line is not its turn. -/
def execScrubLine (addr : Nat) (testFails : Bool) (s : State) : Host.Outcome State Fault Refusal :=
  .next (match s.scrubMem addr with
    | some m =>
      let a := addr / 64 * 64
      let n := s.scrubNext m
      if n.1 ≠ a then s
      else
        (((s.units a 64).foldl (fun acc e => acc.scrubUnit m testFails e.1 e.2) (s.scrubStep m a n.2)).scrubTest a testFails).settle
    | none => s)

/-- SCRUB_PASS_OVERRUN (R127, R141): the pass over the memory of an address has lasted longer than its interval; the first passes begin
with the active image. -/
def execScrubPassOverrun (addr : Nat) (s : State) : Host.Outcome State Fault Refusal :=
  .next (match s.scrubMem addr with
    | some m =>
      if s.image.isSome ∧ max s.scrubFrom (SMap.get 0 s.scrubStart m) + nsInst (s.passNs m) < s.mono then
        ({ s with scrubStart := SMap.set 0 s.scrubStart m s.mono }).raiseDie (memDie m) 59 (memTag m) 0
      else s
    | none => s)

/-- CLEAR_DIRTY_LINE (R135, R136): zeros to the line or block, and its tag is cleared. -/
def execClearDirtyLine (addr : Nat) (s : State) : Host.Outcome State Fault Refusal := .next (s.undirty addr)

/-! ### DRAM upkeep (R121) -/

/-- DRAM_MR4_POLL (R121, R141): every 16 ms; SEV-062 when the multiplier rises above 1. -/
def execDramMr4Poll (channel : Nat) (twoX : Bool) (s : State) : Host.Outcome State Fault Refusal :=
  let c := s.chan channel
  .next (if 12 ≤ channel ∨ !c.trained ∨ s.mono < c.pollAt + nsInst 16000000 then s
    else
      let s1 := s.updChan channel (fun x => { x with refresh2x := twoX, pollAt := s.mono })
      if twoX ∧ !c.refresh2x then s1.raiseDie (channel / 3) 62 (channel / 3) 0 else s1)

/-- DRAM_RETRAIN (R121). -/
def execDramRetrain (channel : Nat) (s : State) : Host.Outcome State Fault Refusal :=
  .next (if 12 ≤ channel ∨ !(s.chan channel).trained then s else s.updChan channel (fun x => { x with retrainAt := s.mono }))

end Sys2Proof.Machine
end

