-- ==== Sys2Proof/Machine/Power.lean ====
section
/-! DEFINITION. Power, clocks, thermal and pins (19_electrical_thermal_package.md, R492 to R508): resets of the package, PGOOD,
the sensors, derating, the spread of the clocks, the trigger pins and the test port. -/

namespace Sys2Proof.Machine

/-! ### Package reset and start-up (R453, R492, R493, R497) -/

/-- PRG_POR_N_RELEASE (R63, R497): the package leaves its reset; after a trip of a Pregus sensor only once the pin was asserted
(R503). `fitted` and `bistOk` are what the Die Controllers will find: the density and the passing rates of each channel (R118, R119),
and the outcome of the tests of start-up BIST other than those of the arrays (R63). -/
def State.porRelease (s : State) (testEnLow bistOk : Bool) (fitted : List (Nat × List Nat)) : State :=
  if s.boot ≠ .held ∨ s.thermTrip then s
  else
    let s1 := ({ s with fitted := fitted, bistOk := bistOk }).gateQ48
    if testEnLow then { s1.updSec (fun x => { x with testMode := true }) with boot := .testMode } else s1.bootRom

def execPrgPorNRelease (testEnLow bistOk : Bool) (fitted : List (Nat × List Nat)) (s : State) : Host.Outcome State Fault Refusal :=
  .next (s.porRelease testEnLow bistOk fitted)

/-- PRG_POR_N_ASSERT (R497): a low of `ns`; between 800 and 1,200 ns the outcome is free. -/
def State.porAssert (s : State) (ns : Nat) : State :=
  if ns ≤ 800 then s
  else if 1200 ≤ ns then s.packageReset
  else
    let r := s.draw
    if Config.freeNat r.1 % 2 = 1 then r.2.packageReset else r.2

def execPrgPorNAssert (ns : Nat) (s : State) : Host.Outcome State Fault Refusal := .next (s.porAssert ns)

/-- The die that the start-up awaits. -/
def Boot.awaits (b : Boot) (d : Nat) : Bool :=
  match b with
  | .powering e => e == d
  | _ => false

/-- PGOOD_RISE (R492): taken while PWR_EN_d is high. The die's Lattice port begins its training (R472; DEDUCED, assumption 161). -/
def State.pgoodRise (s : State) (d : Nat) : State :=
  if 4 ≤ d ∨ !(s.die d).pwrEn ∨ (s.die d).pgood then s
  else
    let s1 := s.updDie d (fun x => { x with pgood := true })
    let s2 := (s1.updDie d (fun x => { x with follower := { x.follower with lastWord := s.mono, lost := false } })).updPort d (fun x =>
      { x with state := if x.state = 0 then 1 else x.state })
    if s.boot.awaits d then s2.nextDie d else s2

def execPgoodRise (die : Nat) (s : State) : Host.Outcome State Fault Refusal := .next (s.pgoodRise die)

/-- A die that stays unpowered and SUSPECT until the host resets it (R492, R504). -/
def State.leaveOff (s : State) (d : Nat) : State :=
  ((s.setUnit .die d .suspect).updUnit .die d (fun x => { x with
    cause := 206, resetReq := false, fencedAt := s.stamp, fencedBeat := s.curBeat, fencedTag := d })).refreshMissing

/-- PGOOD_TIMEOUT (R492): 2 ms after PWR_EN_d. -/
def State.pgoodTimeout (s : State) (d : Nat) : State :=
  if 4 ≤ d ∨ !(s.die d).pwrEn ∨ (s.die d).pgood ∨ s.mono < (s.die d).pwrAt + nsInst 2000000 then s
  else
    let s1 := ((s.updDie d (fun x => { x with pwrEn := false })).raise 206 d 0).leaveOff d
    if s.boot.awaits d then s1.nextDie d else s1

def execPgoodTimeout (die : Nat) (s : State) : Host.Outcome State Fault Refusal := .next (s.pgoodTimeout die)

/-- The Lattice port of a die without power is DOWN (R483; DEDUCED, assumption 161). -/
def State.portOff (s : State) (d : Nat) : State :=
  if (s.port d).up then s.downPort d else s.updPort d (fun x => { x with state := 0 })

/-- A die loses its power: a die hang (R405, R493); a die already under recovery starts over. -/
def State.powerLost (s : State) (d : Nat) : State :=
  let s1 := (s.portOff d).updDie d (fun x => { x with pwrEn := false, pgood := false })
  match (s1.unit .die d).state with
  | .inService | .fencing | .fenced | .testing => s1.hang .die d 206
  | .retired | .off => s1.raise 206 d 0
  | _ => (s1.raise 206 d 0).setUnit .die d .suspect |>.updUnit .die d (fun x => { x with resetReq := true })

/-- PGOOD_FALL (R493): while PWR_EN_d is high. -/
def execPgoodFall (die : Nat) (s : State) : Host.Outcome State Fault Refusal :=
  .next (if die < 4 ∧ (s.die die).pwrEn ∧ (s.die die).pgood then s.powerLost die else s)

/-! ### Sensors and derating (R503, R504, R507, R508) -/

/-- THERMAL_TRIP (R503, R504): a sensor of a die, or of the Pregus die (number 4). -/
def State.thermalTrip (s : State) (d : Nat) : State :=
  if d = 4 then { s.packageReset with thermTrip := true }
  else if 4 < d ∨ !(s.die d).pwrEn then s
  else
    let s1 := { s.updDie d (fun x => { x with tripOff := true, trips := s.mono :: x.trips }) with thermTrip := true }
    let s2 := (s1.powerLost d).updUnit .die d (fun x => { x with resetReq := false })
    if s.boot.awaits d then s2.nextDie d else s2

def execThermalTrip (die : Nat) (s : State) : Host.Outcome State Fault Refusal := .next (s.thermalTrip die)

/-- The readings of one sample of `n` sensors (THM_SENS). -/
def sensors (n : Nat) (temps volts : List Int) (valid : List Bool) : SMap SensSt :=
  (List.range n).foldl (fun m i => SMap.set {} m i { temp := BitVec.ofInt 11 (temps.getD i 0), volt := BitVec.ofInt 11 (volts.getD i 0),
                                                     valid := valid.getD i false }) []

/-- TJ_MAX in units of 0.25 degrees: the highest valid reading, 125 degrees when three or more sensors are not valid (R507). -/
def tjMaxOf (m : SMap SensSt) : Int :=
  let ok := (List.range 24).filter fun i => (SMap.get {} m i).valid
  if ok.length ≤ 21 then 500
  else
    match ok.map fun i => (SMap.get {} m i).temp.toInt with
    | [] => 500
    | t :: ts => ts.foldl max t

/-- f_t of R508 before its cap and floor: 1,000 less 5 MHz for each half degree, begun, above 118 degrees. -/
def fTarget (tj : Int) : Int := 1000 - 5 * -((-(tj - 472)) / 2)

/-- One evaluation of R508: f_nom and the evaluations in a row that found f_t above it. -/
def derate (fMin : Nat) (tj : Int) (fNom run : Nat) : Nat × Nat :=
  let ft := (clampInt fMin 1000 (fTarget tj)).toNat
  if ft < fNom then (ft, 0)
  else if ft = fNom then (fNom, 0)
  else if 10 ≤ run + 1 then (ft, 0)
  else (fNom, run + 1)

/-- THERMAL_SAMPLE of a base die (R507, R508). -/
def State.sampleDie (s : State) (d : Nat) (m : SMap SensSt) : State :=
  let tj := tjMaxOf m
  let bad := decide (((List.range 24).filter fun i => (SMap.get {} m i).valid).length ≤ 21)
  s.updDie d (fun x =>
    let r := derate s.fMin tj x.fNom x.riseRun
    let isOver := r.1 == s.fMin && decide (500 < tj)
    { x with sens := m, sampled := true, tjMax := BitVec.ofInt 11 tj, bad3 := bad, fNom := r.1, riseRun := r.2, overFlag := isOver
             overAt := if isOver then x.overAt else none })

/-- THERMAL_SAMPLE (R507, R508): die 4 is the Pregus die, which has four sensors and no derating. -/
def execThermalSample (die : Nat) (temps volts : List Int) (valid : List Bool) (s : State) : Host.Outcome State Fault Refusal :=
  .next (if die = 4 then (if s.boot = .held then s else { s with prgSens := sensors 4 temps volts valid })
    else if 4 < die ∨ !(s.die die).pgood ∨ (s.die die).u.state = .resetting then s
    else s.sampleDie die (sensors 24 temps volts valid))

/-- OVER_LOG (R508): every second while OVER is 1. -/
def execOverLog (die : Nat) (s : State) : Host.Outcome State Fault Refusal :=
  let x := s.die die
  let due : Bool := match x.overAt with
    | none => true
    | some t => decide (t + nsInst (10 ^ 9) ≤ s.mono)
  .next (if die < 4 ∧ x.overFlag ∧ due then
    (s.updDie die (fun y => { y with overAt := some s.mono })).updAsh (fun a =>
      a.append s.mono (s.dieStamp die) 1 0 0 die 1 [])
  else s)

/-! ### Spread of the clocks (R495, R496) -/

/-- A VEHICLE image is loaded. -/
def State.vehicleLoaded (s : State) : Bool := s.image.any (fun i => i.header.deploy == 1)

/-- A write of PWR_CLKCTRL (R496): MOD and SSC_OFF wait for the next modulation minimum; MOD = 3 is ignored, and SSC_OFF = 1 under a
VEHICLE image, each with WERR (R6: a set wins over a clear). -/
def DieSt.writeClk (x : DieSt) (vehicle : Bool) (w : Nat) : DieSt :=
  let now := x.clkPending.getD (x.clkMod, x.sscOff)
  let badMod := decide (fld w 2 1 = 3)
  let badSsc := bit w 0 && vehicle
  { x with clkWerr := badMod || badSsc || (x.clkWerr && !(bit w 3))
           clkPending := some (if badMod then now.1 else BitVec.ofNat 2 (fld w 2 1), if badSsc then now.2 else bit w 0) }

/-- SSC_OFF_WRITE (R496). -/
def execSscOffWrite (die : Nat) (value : Word) (s : State) : Host.Outcome State Fault Refusal :=
  .next (if 4 ≤ die then s
    else if s.dieOpen die then s.updDie die (fun x => x.writeClk s.vehicleLoaded value.toNat) else s.dropAt die)

/-- MODULATION_MINIMUM (R496). -/
def execModulationMinimum (die : Nat) (s : State) : Host.Outcome State Fault Refusal :=
  .next (match (s.die die).clkPending with
    | some p => s.updDie die (fun x => { x with clkMod := p.1, sscOff := p.2, clkPending := none })
    | none => s)

/-! ### Trigger pins and the test port (R453, R500) -/

/-- A write of PWR_IOCFG[t] (R500): while its output is active it waits for the end of the pulse. -/
def State.writeIocfg (s : State) (t w : Nat) : State :=
  let v := BitVec.ofNat 32 (w % 16)
  if 12 ≤ t then s
  else if !(s.trigActive t) then s.updTb (fun tb => { tb with iocfg := SMap.set 0x5 tb.iocfg t v })
  else s.updTb (fun tb => { tb with iocfgHeld := SMap.set none tb.iocfgHeld t (some v) })

/-- PWR_IOCFG_WRITE (R500). -/
def execPwrIocfgWrite (trig : Nat) (value : Word) (s : State) : Host.Outcome State Fault Refusal :=
  .next (s.writeIocfg trig value.toNat)

/-- The instructions that the test port accepts (R453). -/
def jtagAccepted (testMode : Bool) : JtagOp → Bool
  | .bypass | .idcode | .samplePreload => true
  | .extest | .clamp | .highz => testMode

/-- JTAG_INSTRUCTION (R453): an instruction that is not accepted leaves the port as it is. -/
def execJtagInstruction (op : JtagOp) (s : State) : Host.Outcome State Fault Refusal :=
  .next (if jtagAccepted s.sec.testMode op then s.updSec (fun x => { x with jtag := op }) else s)

end Sys2Proof.Machine
end

