-- ==== Sys2Proof/Machine/Range.lean ====
section
/-! DEFINITION. The Range Intake (R289 to R294, R303): matching, binning, forwarding, the replay rings and the close of a grid. -/

namespace Sys2Proof.Machine

/-! ### Matching (R290) -/

/-- A template agrees with a packet of its MAC. -/
def RangeTemplate.agrees (t : RangeTemplate) (mac : Nat) (p : EthPkt) : Bool :=
  t.mac == mac && t.etherType == p.etherType &&
    (match p.udpPort with
     | some u => t.udpPort == 0 || t.udpPort == u
     | none => !(t.etherType == 0x0800 || t.etherType == 0x86DD))

/-- A packet taken from the buffers: the number of its template, the template and the payload; none when it matches none (R290). -/
def State.matchPacket (s : State) (mac : Nat) (replay : Bool) (b : List Byte) : Option (Nat × RangeTemplate × List Byte) :=
  let ts := s.img.intake.templates
  let r :=
    if replay then
      let n := leAt b 0 1
      match ts[n]? with
      | some t => if t.mac = mac then some (n, t, b.drop 1) else none
      | none => none
    else
      let p := EthPkt.parse b
      match ts.zipIdx.find? (fun e => e.1.agrees mac p) with
      | some (t, n) => some (n, t, p.payload)
      | none => none
  match r with
  | some x => if x.2.2.length ≤ 1984 then some x else none
  | none => none

/-! ### Points (R291, R292) -/

/-- Points that a packet parses (R291). -/
def pointCount (t : RangeTemplate) (len : Nat) : Nat :=
  if len < t.hdrLen ∨ t.ptStride = 0 then 0 else min t.ptMax ((len - t.hdrLen) / t.ptStride)

/-- A coordinate at an offset of the payload. -/
def coordAt (t : RangeTemplate) (b : List Byte) (off : Nat) : Int :=
  if t.coord = 1 then toSigned 16 (leAt b off 2) else toSigned 32 (leAt b off 4)

/-- The cell of a point and its height, or none when it is ignored (R292). -/
def binPoint (sp : ChannelSplit) (t : RangeTemplate) (b : List Byte) (i : Nat) : Option (Nat × Int) :=
  let base := t.hdrLen + i * t.ptStride
  let q := [t.xOff, t.yOff, t.zOff].map fun o => coordAt t b (base + o) * t.unitUm / 1000
  if q.any (fun x => decide ((2 ^ 20 : Int) < x ∨ x < -(2 ^ 20 : Int))) then none
  else
    let v := fun (r : Nat) =>
      (((List.range 3).foldl (fun (acc : Int) c => acc + t.rot.getD (3 * r + c) 0 * q.getD c 0) (2 ^ 13)) / 2 ^ 14) + t.trans.getD r 0
    if v 2 < t.zMin ∨ t.zMax < v 2 then none
    else
      let ix := v 0 / (sp.cellMm : Int) + (sp.gridX / 2 : Nat)
      let iy := v 1 / (sp.cellMm : Int) + (sp.gridY / 2 : Nat)
      if ix < 0 ∨ (sp.gridX : Int) ≤ ix ∨ iy < 0 ∨ (sp.gridY : Int) ≤ iy then none
      else some (iy.toNat * sp.gridX + ix.toNat, v 2)

/-- Adds a point to its cell (R292). -/
def GridCell.add (c : GridCell) (z : Int) : GridCell :=
  let z' := clampInt (-32767) 32767 z
  { count := min (c.count + 1) 0xFFFF, zmax := some (match c.zmax with | none => z' | some y => max y z') }

/-- Bins the points of a payload (R292). -/
def binPacket (sp : ChannelSplit) (t : RangeTemplate) (b : List Byte) (g : SMap GridCell) : SMap GridCell :=
  (List.range (pointCount t b.length)).foldl (fun acc i =>
    match binPoint sp t b i with
    | some (c, z) => SMap.update {} acc c (fun x => x.add z)
    | none => acc) g

/-! ### Forwarding (R294) -/

/-- A slot of 2,048 bytes at an address. -/
def fwdSlot (a : Nat) (time : Instant) (k seq n mac points : Nat) (late replay : Bool) (b : List Byte) : List Byte :=
  let h := leBytes 8 (timeWordOf time) ++ leBytes 4 k ++ leBytes 4 seq ++ leBytes 2 b.length ++ leBytes 1 n ++ leBytes 1 mac ++
    leBytes 2 points ++ leBytes 1 (atBit late 0 + atBit replay 1) ++ zeros 39
  slice (h ++ leBytes 2 (crc16Fold a h) ++ b) 0 2048

/-- Forwards a matching packet. -/
def State.forwardPacket (s : State) (n : Nat) (t : RangeTemplate) (time : Instant) (k : Nat) (late replay : Bool) (b : List Byte) : State :=
  let seq := (SMap.get 0 s.range.tmplSeq n).toNat
  let a := s.img.carveBase t.fwdCarve + t.fwdOff + seq % 2 ^ t.fwdLog2 * 2048
  let s1 := s.put a (fwdSlot a time k seq n t.mac (pointCount t b.length) late replay b)
  { s1 with range := { s1.range with tmplSeq := SMap.update 0 s1.range.tmplSeq n (· + 1) } }

/-- The instant at which the grid of a frame closes (R293). -/
def State.gridCloseAt (s : State) (k : Nat) : Instant := s.frameStart (k + 1) + nsInst s.img.intake.graceNs

/-! ### A packet (R289 to R294) -/

/-- A packet that is dropped for want of a template (R290). -/
def State.noMatch (s : State) (mac : Nat) : State := (s.updMac mac (fun m => { m with noMatch := satInc m.noMatch })).raise 110 mac 0

/-- A matching packet of frame `k`: binned, or forwarded late (R293, R337). -/
def State.takeRangePacket (s : State) (mac n : Nat) (t : RangeTemplate) (x : Stamp) (time : Instant) (k : Nat) (replay : Bool) (b : List Byte) :
    State :=
  let late := decide (k < s.range.next) || decide (s.gridCloseAt k ≤ s.now) || x.epoch != s.tb.epoch
  if late then
    ((s.forwardPacket n t time k true replay b).updMac mac (fun m => { m with late := satInc m.late })).raise 109 mac 0
  else
    let s1 := { s with range := { s.range with
      grids := SMap.update [] s.range.grids k (binPacket s.img.split t b), binned := SMap.update 0 s.range.binned k (· + 1) } }
    (s1.forwardPacket n t time k false replay b).updMac mac (fun m => { m with
      matched := if m.matched.contains k then m.matched else m.matched ++ [k] })

/-- RANGE_PACKET_RECEIVE (R290 to R294): the oldest packet of the MAC's buffers. The frame of a stamp of an earlier epoch is the one that
held it then, since T0 moves with the counter (R336). A packet whose time lies before T0 belongs to no frame and is discarded (DEDUCED,
assumption 103). -/
def State.rangePacket (s : State) (mac : Nat) : State :=
  match (s.mac mac).buf with
  | [] => s
  | (x, replay, b) :: rest =>
    let s0 := s.updMac mac (fun m => { m with buf := rest })
    match s0.matchPacket mac replay b with
    | none => s0.noMatch mac
    | some (n, t, p) =>
      let time := x.at_ - nsInst t.latencyNs
      match s0.frameAt (s0.toEpoch x.epoch time) with
      | some k => s0.takeRangePacket mac n t x time k replay p
      | none => s0

def execRangePacketReceive (mac : Nat) (s : State) : Host.Outcome State Fault Refusal := .next (if mac < 4 then s.rangePacket mac else s)

/-! ### Range replay (R303) -/

def State.replayRing (s : State) (mac : Nat) : Option ReplayRing := s.img.intake.rangeReplays.find? (fun r => r.unit == mac)

/-- The Range Intake moves on to the next slot. -/
def State.nextReplay (s : State) (mac : Nat) : State :=
  s.updMac mac (fun m => { m with replayPos := m.replayPos + 1, replayAt := s.now })

/-- RANGE_REPLAY_INJECT (R303): the next slot, at its STAMP; one that is damaged or late is dropped. A payload that LENGTH puts above
1,984 bytes is left to R290. -/
def State.replayInject (s : State) (mac : Nat) (r : ReplayRing) : State :=
  let m := s.mac mac
  let a := s.img.carveBase r.ringCarve + r.ringOff + m.replayPos % 2 ^ r.ringLog2 * 2048
  let f := s.fetch a 2048
  let st := leAt f.data 0 8
  let drop := (f.st.updMac mac (fun m => { m with noMatch := satInc m.noMatch })).nextReplay mac
  if f.status ≠ 0 ∨ leAt f.data 62 2 ≠ crc16Fold a (f.data.take 62) then drop
  else if timeWordNs st < timeWordNs (timeWordOf m.replayAt) then drop
  else if timeWordNs (timeWordOf s.now) < timeWordNs st then s
  else
    (f.st.rangeTake mac (s.stampAt (instOfTimeWord st)) true (slice f.data 18 1 ++ slice f.data 64 (leAt f.data 16 2))).nextReplay mac

def execRangeReplayInject (mac : Nat) (s : State) : Host.Outcome State Fault Refusal :=
  .next (if 4 ≤ mac ∨ !s.isReplay ∨ !s.started then s
    else match s.replayRing mac with
      | some r => (s.replayInject mac r).settle
      | none => s)

/-! ### The close of a grid (R293, R294, R360) -/

/-- The MACs of RANGE_MACS. -/
def Image.rangeMacList (i : Image) : List Nat := (List.range 4).filter fun m => bit i.split.rangeMacs m

/-- SEV-113 and SEEN at the close of frame `k`'s grid. -/
def State.closeMac (k : Nat) (s : State) (mac : Nat) : State :=
  let got := (s.mac mac).matched.contains k
  let s1 := s.updMac mac (fun m => { m with seen := got, matched := m.matched.filter (· != k) })
  if got then s1 else s1.raise 113 mac 0

/-- GRID_CLOSE (R293, R294, R360). -/
def State.gridClose (s : State) : State :=
  let k := s.range.next
  if !s.started ∨ s.now < s.gridCloseAt k then s
  else
    let g := SMap.get [] s.range.grids k
    let n := SMap.get 0 s.range.binned k
    let s1 := s.img.rangeMacList.foldl (State.closeMac k) s
    let s2 := s1.img.intake.templates.foldl (fun acc t => acc.setObject t.fwdSync ((k + 1) % 2 ^ 32)) s1
    let s3 := { s2 with range := { s2.range with
      next := k + 1, grids := SMap.set [] s2.range.grids k [], binned := SMap.set 0 s2.range.binned k 0 } }
    s3.startChecker k g n

def execGridClose (s : State) : Host.Outcome State Fault Refusal := .next s.gridClose

end Sys2Proof.Machine
end

