-- ==== Sys2Proof/Machine/Jpeg.lean ====
section
/-! DEFINITION. The JPEG subset of the replay decoders (R297, R299): the header up to SOS, Huffman decoding, the inverse transform and
the upsampling. -/

namespace Sys2Proof.Machine

/-- Bits of bytes, bit 7 of each byte first. -/
def bitsOf (bs : List Byte) : List Bool := bs.flatMap fun b => (List.range 8).map fun i => bit b.toNat (7 - i)

/-- The value of bits, most significant first. -/
def ofBits (l : List Bool) : Nat := l.foldl (fun a b => 2 * a + (if b then 1 else 0)) 0

/-- What reading from a bit string gives: a value with the rest, the end of the data, or corrupt data. -/
inductive BitRes (α : Type) where
  | ok (a : α) (rest : List Bool)
  | ended
  | bad

/-! ### The header -/

/-- A component of the frame header. -/
structure JpegComp where
  id : Nat
  h : Nat
  v : Nat
  tq : Nat

/-- What the header holds. -/
structure JpegHdr where
  /-- SOF marker, precision, height, width, components -/
  sof : Option (Nat × Nat × Nat × Nat × List JpegComp) := none
  /-- quantisation tables, the latest first: number, precision and values in zigzag order -/
  dqt : List (Nat × Nat × List Nat) := []
  /-- Huffman tables, the latest first: class, number, codes as length, code, symbol -/
  dht : List (Nat × Nat × List (Nat × Nat × Nat)) := []
  restart : Nat := 0
  /-- SOS: components as id, DC table, AC table; Ss, Se, Ah and Al -/
  sos : List (Nat × Nat × Nat) := []
  sosEnd : Nat × Nat × Nat := (0, 0, 0)
  /-- a marker outside the subset has come -/
  other : Bool := false

/-- The canonical codes of a table: counts by length 1 to 16, then the symbols. -/
def huffCodes : Nat → Nat → List Nat → List Nat → List (Nat × Nat × Nat)
  | _, _, [], _ => []
  | len, code, n :: counts, syms =>
    ((List.range n).map fun i => (len, code + i, syms.getD i 0)) ++ huffCodes (len + 1) ((code + n) * 2) counts (syms.drop n)

/-- The quantisation tables of a DQT segment; none when it is not well formed. -/
def parseDqt : Nat → List Byte → List (Nat × Nat × List Nat) → Option (List (Nat × Nat × List Nat))
  | 0, _, _ => none
  | _, [], acc => some acc
  | fuel + 1, b :: rest, acc =>
    let p := b.toNat / 16
    let n := if p = 0 then 64 else 128
    if rest.length < n then none
    else
      let q := if p = 0 then (rest.take 64).map (·.toNat) else (chunks 2 (rest.take 128)).map beNat
      parseDqt fuel (rest.drop n) ((b.toNat % 16, p, q) :: acc)

/-- The Huffman tables of a DHT segment. -/
def parseDht : Nat → List Byte → List (Nat × Nat × List (Nat × Nat × Nat)) → Option (List (Nat × Nat × List (Nat × Nat × Nat)))
  | 0, _, _ => none
  | _, [], acc => some acc
  | fuel + 1, b :: rest, acc =>
    let counts := (rest.take 16).map (·.toNat)
    let n := counts.sum
    if rest.length < 16 + n then none
    else
      let t := huffCodes 1 0 counts (((rest.drop 16).take n).map (·.toNat))
      parseDht fuel (rest.drop (16 + n))
        ((b.toNat / 16, b.toNat % 16, t) :: acc)

/-- A frame header segment: SOF0 and the other frame headers. -/
def isSof (m : Nat) : Bool := decide (0xC0 ≤ m ∧ m ≤ 0xCF) && !([0xC4, 0xC8, 0xCC].contains m)

/-- One segment of the header. -/
def JpegHdr.segment (h : JpegHdr) (m : Nat) (b : List Byte) : Option JpegHdr :=
  if isSof m then
    let n := leAt b 5 1
    if b.length ≠ 6 + 3 * n ∨ h.sof.isSome then none
    else
      let cs := (chunks 3 (b.drop 6)).map fun c => { id := leAt c 0 1, h := leAt c 1 1 / 16, v := leAt c 1 1 % 16, tq := leAt c 2 1 : JpegComp }
      some { h with sof := some (m, leAt b 0 1, beNat (slice b 1 2), beNat (slice b 3 2), cs) }
  else if m = 0xDB then (parseDqt (b.length + 1) b h.dqt).map fun t => { h with dqt := t }
  else if m = 0xC4 then (parseDht (b.length + 1) b h.dht).map fun t => { h with dht := t }
  else if m = 0xDD then if b.length = 2 then some { h with restart := beNat b } else none
  else if (0xE0 ≤ m ∧ m ≤ 0xEF) ∨ m = 0xFE then some h
  else some { h with other := true }

/-- The segments after SOI up to SOS: the header and the coded data; none when the markers are not well formed (R297 step 5). -/
def parseSegments : Nat → List Byte → JpegHdr → Option (JpegHdr × List Byte)
  | 0, _, _ => none
  | fuel + 1, bs, h =>
    match bs with
    | f :: m :: rest =>
      if f ≠ 0xFF then none
      else if m = 0xFF then parseSegments fuel (m :: rest) h
      else
        let n := beNat (rest.take 2)
        if rest.length < n ∨ n < 2 then none
        else
          let body := (rest.take n).drop 2
          if m = 0xDA then
            let k := leAt body 0 1
            if body.length ≠ 4 + 2 * k ∨ h.sof.isNone then none
            else
              some ({ h with
                sos := (chunks 2 ((body.drop 1).take (2 * k))).map fun c => (leAt c 0 1, leAt c 1 1 / 16, leAt c 1 1 % 16)
                sosEnd := (leAt body (1 + 2 * k) 1, leAt body (2 + 2 * k) 1, leAt body (3 + 2 * k) 1) }, rest.drop n)
          else match h.segment m.toNat body with
            | some h' => parseSegments fuel (rest.drop n) h'
            | none => none
    | _ => none

/-- The header of a JPEG stream. -/
def parseJpeg (bs : List Byte) : Option (JpegHdr × List Byte) :=
  if bs.take 2 = [0xFF, 0xD8] then parseSegments bs.length (bs.drop 2) {} else none

/-- Width, height and components that the header declares. -/
def JpegHdr.dims (h : JpegHdr) : Nat × Nat × Nat :=
  match h.sof with
  | some (_, _, y, x, cs) => (x, y, cs.length)
  | none => (0, 0, 0)

def JpegHdr.comps (h : JpegHdr) : List JpegComp := match h.sof with | some (_, _, _, _, cs) => cs | none => []

def JpegHdr.quant (h : JpegHdr) (t : Nat) : Option (Nat × List Nat) := (h.dqt.find? (fun e => e.1 == t)).map (·.2)
def JpegHdr.huff (h : JpegHdr) (cls t : Nat) : Option (List (Nat × Nat × Nat)) :=
  (h.dht.find? (fun e => e.1 == cls && e.2.1 == t)).map (·.2.2)

/-- The header lies within the subset of R299. -/
def JpegHdr.subset (h : JpegHdr) : Bool :=
  !h.other &&
  (match h.sof with
   | some (m, p, _, _, cs) =>
     m == 0xC0 && p == 8 &&
     (match cs with
      | [c] => decide (1 ≤ c.h ∧ c.h ≤ 4 ∧ 1 ≤ c.v ∧ c.v ≤ 4)
      | [y, cb, cr] => [(1, 1), (2, 1), (2, 2)].contains (y.h, y.v) && (cb.h, cb.v) == (1, 1) && (cr.h, cr.v) == (1, 1)
      | _ => false) &&
     cs.all (fun c => match h.quant c.tq with | some q => q.1 == 0 | none => false) &&
     h.sos.map (·.1) == cs.map (·.id)
   | none => false) &&
  h.dqt.all (fun e => e.1 < 4 && e.2.1 == 0) && h.dht.all (fun e => e.1 < 2 && e.2.1 < 2) &&
  h.sos.all (fun e => (h.huff 0 e.2.1).isSome && (h.huff 1 e.2.2).isSome) && h.sosEnd == (0, 63, 0)

/-! ### Entropy-coded data -/

/-- How a run of coded bytes ends. -/
inductive SegEnd where
  | restart (n : Nat)
  | ended
  | bad
deriving DecidableEq

/-- The runs of coded data between markers, stuffing removed. -/
def splitScan : List Byte → List Byte → List (List Byte × SegEnd)
  | [], acc => [(acc.reverse, .ended)]
  | [b], acc => [(if b = 0xFF then acc.reverse else (b :: acc).reverse, .ended)]
  | b :: m :: rest, acc =>
    if b ≠ 0xFF then splitScan (m :: rest) (b :: acc)
    else if m = 0 then splitScan rest (0xFF :: acc)
    else if m = 0xFF then splitScan (m :: rest) acc
    else if 0xD0 ≤ m.toNat ∧ m.toNat ≤ 0xD7 then (acc.reverse, .restart (m.toNat - 0xD0)) :: splitScan rest []
    else [(acc.reverse, if m = 0xD9 then .ended else .bad)]

/-- The symbol of the next code: a code longer than 16 bits is invalid. -/
def huffDecode (t : List (Nat × Nat × Nat)) : Nat → Nat → Nat → List Bool → BitRes Nat
  | 0, _, _, _ => .bad
  | _, _, _, [] => .ended
  | fuel + 1, len, code, b :: rest =>
    let c := 2 * code + (if b then 1 else 0)
    match t.find? (fun e => e.1 == len + 1 && e.2.1 == c) with
    | some e => .ok e.2.2 rest
    | none => huffDecode t fuel (len + 1) c rest

/-- `n` further bits as a signed value (F.2.2.1 of ISO/IEC 10918-1). -/
def receiveExtend (n : Nat) (l : List Bool) : BitRes Int :=
  if l.length < n then .ended
  else
    let v := ofBits (l.take n)
    .ok (if n = 0 ∨ 2 ^ (n - 1) ≤ v then (v : Int) else (v : Int) - (2 ^ n : Nat) + 1) (l.drop n)

/-- The AC coefficients from index `k` on, as index and value; a baseline code gives a coefficient at most 10 bits. -/
def decodeAc (t : List (Nat × Nat × Nat)) : Nat → Nat → List (Nat × Int) → List Bool → BitRes (List (Nat × Int))
  | 0, _, acc, l => .ok acc l
  | fuel + 1, k, acc, l =>
    if 64 ≤ k then .ok acc l
    else match huffDecode t 16 0 0 l with
      | .ended => .ended
      | .bad => .bad
      | .ok rs l1 =>
        let r := rs / 16
        let n := rs % 16
        if n = 0 then
          if r = 0 then .ok acc l1
          else if r = 15 then if 64 < k + 16 then .bad else decodeAc t fuel (k + 16) acc l1
          else .bad
        else if 64 ≤ k + r ∨ 10 < n then .bad
        else match receiveExtend n l1 with
          | .ended => .ended
          | .bad => .bad
          | .ok v l2 => decodeAc t fuel (k + r + 1) ((k + r, v) :: acc) l2

/-- One block: the DC value after prediction, and the coefficients in zigzag order; a baseline code gives a DC difference at most 11
bits. -/
def decodeBlock (dc ac : List (Nat × Nat × Nat)) (pred : Int) (l : List Bool) : BitRes (Int × List (Nat × Int)) :=
  match huffDecode dc 16 0 0 l with
  | .ended => .ended
  | .bad => .bad
  | .ok n l1 => match (if 11 < n then .bad else receiveExtend n l1) with
    | .ended => .ended
    | .bad => .bad
    | .ok d l2 => match decodeAc ac 64 1 [] l2 with
      | .ended => .ended
      | .bad => .bad
      | .ok cs l3 => .ok (pred + d, (0, pred + d) :: cs) l3

/-! ### The inverse transform (R299) -/

/-- Zigzag index of the coefficient of row v, column u. -/
def zigzag : List Nat :=
  [0, 1, 5, 6, 14, 15, 27, 28, 2, 4, 7, 13, 16, 26, 29, 42, 3, 8, 12, 17, 25, 30, 41, 43, 9, 11, 18, 24, 31, 40, 44, 53] ++
  [10, 19, 23, 32, 39, 45, 52, 54, 20, 22, 33, 38, 46, 51, 55, 60, 21, 34, 37, 47, 50, 56, 59, 61, 35, 36, 48, 49, 57, 58, 62, 63]

/-- 4,096 cos(m pi / 16), rounded, for m = 0 to 8. -/
def cosTab : List Int := [4096, 4017, 3784, 3406, 2896, 2276, 1567, 799, 0]

/-- A[x][u] of R299. -/
def idctA (x u : Nat) : Int :=
  if u = 0 then 2896
  else
    let m := (2 * x + 1) * u % 32
    if m ≤ 8 then cosTab.getD m 0
    else if m ≤ 16 then -(cosTab.getD (16 - m) 0)
    else if m ≤ 24 then -(cosTab.getD (m - 16) 0)
    else cosTab.getD (32 - m) 0

/-- The 64 samples of a block from its dequantised coefficients F[v][u], row-major. -/
def idct (f : Array Int) : List Nat :=
  let r := ((List.range 8).flatMap fun v => (List.range 8).map fun x =>
    ((List.range 8).foldl (fun (acc : Int) u => acc + idctA x u * f.getD (8 * v + u) 0) (2 ^ 10)) / 2 ^ 11).toArray
  (List.range 8).flatMap fun y => (List.range 8).map fun x =>
    let s := ((List.range 8).foldl (fun (acc : Int) v => acc + idctA y v * r.getD (8 * v + x) 0) (2 ^ 14)) / 2 ^ 15
    (clampInt 0 255 (s + 128)).toNat

/-- The samples of a block from its coefficients and quantisation table. -/
def blockSamples (q : List Nat) (cs : List (Nat × Int)) : List Nat :=
  idct (zigzag.map fun z => match cs.find? (fun e => e.1 == z) with
    | some e => e.2 * (q.getD z 0 : Nat)
    | none => 0).toArray

/-! ### The scan -/

/-- A decoded block: component, block column and row, samples. -/
abbrev JpegBlock := Nat × Nat × Nat × List Nat

/-- What a component's blocks need: number, sampling, tables. -/
structure ScanComp where
  idx : Nat
  h : Nat
  v : Nat
  q : List Nat
  dc : List (Nat × Nat × Nat)
  ac : List (Nat × Nat × Nat)

def JpegHdr.scanComps (hd : JpegHdr) : List ScanComp :=
  let cs := hd.comps
  (cs.zip hd.sos).zipIdx.map fun e =>
    { idx := e.2, h := if cs.length = 1 then 1 else e.1.1.h, v := if cs.length = 1 then 1 else e.1.1.v
      q := ((hd.quant e.1.1.tq).map (·.2)).getD [], dc := (hd.huff 0 e.1.2.2.1).getD [], ac := (hd.huff 1 e.1.2.2.2).getD [] }

/-- The blocks of one MCU: their component and place, in order. -/
def mcuBlocks (comps : List ScanComp) (mx my : Nat) : List (ScanComp × Nat × Nat) :=
  comps.flatMap fun c => (List.range c.v).flatMap fun j => (List.range c.h).map fun i => (c, mx * c.h + i, my * c.v + j)

/-- Decodes the blocks of an MCU with the DC predictions by component. -/
def decodeMcu : List (ScanComp × Nat × Nat) → List Int → List JpegBlock → List Bool → BitRes (List Int × List JpegBlock)
  | [], preds, acc, l => .ok (preds, acc) l
  | (c, bx, bY) :: rest, preds, acc, l =>
    match decodeBlock c.dc c.ac (preds.getD c.idx 0) l with
    | .ended => .ended
    | .bad => .bad
    | .ok r l1 => decodeMcu rest (preds.set c.idx r.1) ((c.idx, bx, bY, blockSamples c.q r.2) :: acc) l1

/-- What a scan gives: its blocks, the data ended early, or the data is corrupt. -/
structure ScanOut where
  blocks : List JpegBlock := []
  trunc : Bool := false
  bad : Bool := false

/-- Decodes MCUs in order; `left` is the number of MCUs before the next restart marker (none: no restarts), `rst` its number. -/
def decodeScan (comps : List ScanComp) (mcusPerRow total interval : Nat) :
    Nat → Nat → Nat → List Int → List Bool → SegEnd → List (List Byte × SegEnd) → ScanOut → ScanOut
  | 0, _, _, _, _, _, _, out => out
  | fuel + 1, n, rst, preds, l, fin, segs, out =>
    if total ≤ n then out
    else match decodeMcu (mcuBlocks comps (n % mcusPerRow) (n / mcusPerRow)) preds [] l with
      | .bad => { out with bad := true }
      | .ended => match fin with
        | .ended => { out with trunc := true }
        | _ => { out with bad := true }
      | .ok r l1 =>
        let out1 := { out with blocks := r.2 ++ out.blocks }
        if interval ≠ 0 ∧ (n + 1) % interval = 0 ∧ n + 1 < total then
          match fin, segs with
          | .restart m, s :: rest =>
            if m = rst % 8 then decodeScan comps mcusPerRow total interval fuel (n + 1) (rst + 1) [0, 0, 0] (bitsOf s.1) s.2 rest out1
            else { out1 with bad := true }
          | .ended, _ => { out1 with trunc := true }
          | _, _ => { out1 with bad := true }
        else decodeScan comps mcusPerRow total interval fuel (n + 1) rst r.1 l1 fin segs out1

/-- Puts the samples of blocks of a component into a plane. -/
def putBlocks (w h idx : Nat) (bs : List JpegBlock) : Array Nat :=
  bs.foldl (fun (arr : Array Nat) b =>
    if b.1 ≠ idx then arr
    else (b.2.2.2.zipIdx).foldl (fun (a : Array Nat) e =>
      let x := b.2.1 * 8 + e.2 % 8
      let y := b.2.2.1 * 8 + e.2 / 8
      if x < w ∧ y < h then a.setIfInBounds (y * w + x) e.1 else a) arr) (Array.replicate (w * h) 128)

/-- The planes Y, Cb and Cr of a stream, whether its data ended early, or none for corrupt data (R299). -/
def decodeJpeg (hd : JpegHdr) (coded : List Byte) : Option (List (List Nat) × Bool) :=
  let w := hd.dims.1
  let h := hd.dims.2.1
  let comps := hd.scanComps
  let hm := (comps.map (·.h)).foldl max 1
  let vm := (comps.map (·.v)).foldl max 1
  let perRow := ceilDiv w (8 * hm)
  let total := perRow * ceilDiv h (8 * vm)
  match splitScan coded [] with
  | [] => none
  | s :: rest =>
    let out := decodeScan comps perRow total hd.restart total 0 0 [0, 0, 0] (bitsOf s.1) s.2 rest {}
    if out.bad then none
    else
      let yp := putBlocks w h 0 out.blocks
      let chroma := fun (c : Nat) =>
        if comps.length = 1 then List.replicate (w * h) 128
        else
          let cw := ceilDiv w hm
          let p := putBlocks cw (ceilDiv h vm) c out.blocks
          (List.range h).flatMap fun y => (List.range w).map fun x => p.getD (y / vm * cw + x / hm) 128
      some ([yp.toList, chroma 1, chroma 2], out.trunc)

end Sys2Proof.Machine
end

