-- ==== Sys2Proof/Machine/Qlr.lean ====
section
/-! DEFINITION. QLR streams (R300, R301): the header and the lossless line coding. -/

namespace Sys2Proof.Machine

/-- The 32-byte header (R300). -/
structure QlrHdr where
  width : Nat
  height : Nat
  comps : Nat
  bits : Nat
  cfa : Nat
  dataLen : Nat
  dataCrc : Nat

/-- Magic, version and HDR_CRC, and the fields (R297 step 5). -/
def parseQlr (b : List Byte) : Option QlrHdr :=
  if b.length < 32 ∨ leAt b 0 4 ≠ 0x31524C51 ∨ leAt b 4 2 ≠ 0x0100 ∨ leAt b 28 4 ≠ crc 3 (b.take 28) then none
  else some { width := leAt b 6 2, height := leAt b 8 2, comps := leAt b 10 1, bits := leAt b 11 1, cfa := leAt b 12 1
              dataLen := leAt b 16 4, dataCrc := leAt b 20 4 }

/-- The header lies within R300. -/
def QlrHdr.subset (h : QlrHdr) (b : List Byte) : Bool :=
  [8, 10, 12, 14, 16, 20, 24].contains h.bits && decide (h.cfa ≤ 1) && slice b 13 3 == zeros 3 && slice b 24 4 == zeros 4 &&
    (h.cfa == 0 || (h.comps == 1 && h.width % 2 == 0 && h.height % 2 == 0))

/-- The prediction of R301 from the samples so far: those of this line in reverse, and the line `s` above. -/
def qlrPredict (bits s x y : Nat) (line : List Nat) (above : Array Nat) : Nat :=
  let a := line.getD (s - 1) 0
  let b := above.getD x 0
  let d := above.getD (x - s) 0
  if x < s ∧ y < s then 2 ^ (bits - 1)
  else if y < s then a
  else if x < s then b
  else if max a b ≤ d then min a b
  else if d ≤ min a b then max a b
  else a + b - d

/-- The number of one-bits at the front, up to `n`, and what follows them and their zero-bit. -/
def unaryOf : Nat → List Bool → BitRes Nat
  | 0, l => .ok 0 l
  | _, [] => .ended
  | n + 1, b :: rest =>
    if b then
      match unaryOf n rest with
      | .ok q l => .ok (q + 1) l
      | r => r
    else .ok 0 rest

/-- The mapped residual m of a sample (R301). -/
def qlrSymbol (bits k : Nat) (l : List Bool) : BitRes Nat :=
  match unaryOf 24 l with
  | .ended => .ended
  | .bad => .bad
  | .ok q l1 =>
    let n := if q = 24 then bits + 1 else k
    if l1.length < n then .ended
    else .ok (if q = 24 then ofBits (l1.take n) else q * 2 ^ k + ofBits (l1.take n)) (l1.drop n)

/-- The residual of m. -/
def qlrResidual (m : Nat) : Int := if m % 2 = 0 then (m / 2 : Nat) else -((m / 2 + 1 : Nat) : Int)

/-- One coded line: samples `x` to `w - 1` with the group's k; the samples so far in reverse. -/
def qlrLine (bits s w y : Nat) (above : Array Nat) : Nat → Nat → Nat → List Nat → List Bool → BitRes (List Nat)
  | 0, _, _, line, l => .ok line l
  | fuel + 1, x, k, line, l =>
    if w ≤ x then .ok line l
    else
      let go := fun (k : Nat) (l : List Bool) =>
        match qlrSymbol bits k l with
        | .ended => BitRes.ended
        | .bad => .bad
        | .ok m l1 =>
          let v := (qlrPredict bits s x y line above : Int) + qlrResidual m
          if v < 0 ∨ (2 ^ bits : Nat) ≤ v then .bad else qlrLine bits s w y above fuel (x + 1) k (v.toNat :: line) l1
      if x % 16 = 0 then
        if l.length < 5 then .ended
        else if 24 < ofBits (l.take 5) then .bad
        else go (ofBits (l.take 5)) (l.drop 5)
      else go k l

/-- The lines so far, by component, the latest first, and the state of the decoding. -/
structure QlrOut where
  planes : List (List (Array Nat))
  trunc : Bool := false
  bad : Bool := false

/-- Decodes the lines in their order; `i` counts lines and components together. `total` is the length of the data in bits. -/
def qlrLines (h : QlrHdr) (total : Nat) : Nat → Nat → List Bool → QlrOut → QlrOut
  | 0, _, _, out => out
  | fuel + 1, i, l, out =>
    if out.bad then out
    else
      let c := i % h.comps
      let y := i / h.comps
      let s := if h.cfa = 1 then 2 else 1
      let plane := out.planes.getD c []
      let above := plane.getD (s - 1) #[]
      let push := fun (ln : Array Nat) (o : QlrOut) => { o with planes := modifyAt (fun p => ln :: p) o.planes c }
      let blank := Array.replicate h.width (2 ^ (h.bits - 1))
      if out.trunc then qlrLines h total fuel (i + 1) l (push blank out)
      else match qlrLine h.bits s h.width y above (h.width + 1) 0 0 [] l with
        | .bad => { out with bad := true }
        | .ended => qlrLines h total fuel (i + 1) [] (push blank { out with trunc := true })
        | .ok line l1 =>
          let used := total - l1.length
          qlrLines h total fuel (i + 1) (l1.drop ((8 - used % 8) % 8)) (push line.reverse.toArray out)

/-- The planes of a stream, row-major, whether its data ended early, or none for corrupt data (R301). -/
def decodeQlr (h : QlrHdr) (b : List Byte) : Option (List (List Nat) × Bool) :=
  let data := (b.drop 32).take h.dataLen
  if data.length = h.dataLen ∧ crc 3 data ≠ h.dataCrc then none
  else
    let bits := bitsOf data
    let out := qlrLines h bits.length (h.height * h.comps) 0 bits { planes := List.replicate h.comps [] }
    if out.bad then none
    else some (out.planes.map fun p => p.reverse.flatMap (·.toList), out.trunc)

end Sys2Proof.Machine
end

