-- ==== Sys2Proof/Machine/Replay.lean ====
section
/-! DEFINITION. The replay decoders (R295 to R304): the ring, the checks of an entry, augmentation, the sample line and the offer. -/

namespace Sys2Proof.Machine

/-- The decoder entry of a die (R279). -/
def State.decRing (s : State) (d : Nat) : Option ReplayRing := s.img.intake.decoders.find? (fun r => r.unit == d)

def State.updDec (s : State) (d : Nat) (f : DecoderSt → DecoderSt) : State := s.updDie d (fun x => { x with dec := f x.dec })

/-- A write of CSI_DEC_CTRL.TAIL: ignored when it would make TAIL - HEAD exceed the ring, or where the die has no ring. -/
def State.writeDecTail (s : State) (d w : Nat) : State :=
  match s.decRing d with
  | some r =>
    let t := w % 2 ^ 15
    if 2 ^ r.ringLog2 < (t + 2 ^ 15 - (s.die d).dec.head.toNat) % 2 ^ 15 then s
    else s.updDec d (fun x => { x with tail := BitVec.ofNat 15 t })
  | none => s

/-- DECODER_TAIL_WRITE (R295). -/
def execDecoderTailWrite (die : Nat) (value : Word) (s : State) : Host.Outcome State Fault Refusal :=
  .next (if 4 ≤ die then s else if s.dieOpen die then s.writeDecTail die value.toNat else s.dropAt die)

/-! ### Fields of an entry (R295) -/

def entFormat (e : List Byte) : Nat := leAt e 0 1
def entAug (e : List Byte) (i : Nat) : Bool := bit (leAt e 1 1) i
def entCamera (e : List Byte) : Nat := leAt e 2 1
def entFrame (e : List Byte) : Nat := leAt e 4 4
def entSample (e : List Byte) : Nat := leAt e 8 8
def entSrc (e : List Byte) : Nat := leAt e 16 8
def entLength (e : List Byte) : Nat := leAt e 24 4
def entCapOff (e : List Byte) : Nat := leAt e 28 4
def entOpId (e : List Byte) : Nat := leAt e 32 2
def entGain (e : List Byte) : Nat := leAt e 34 2
def entNoise (e : List Byte) : Nat := leAt e 36 1
def entRegion (e : List Byte) : Nat := leAt e 37 1
def entLine (e : List Byte) : Nat := leAt e 40 8

/-- RATIO, or RATIO_DEF. -/
def State.entRatio (s : State) (e : List Byte) : Nat := if leAt e 38 2 = 0 then s.img.intake.ratioDef else leAt e 38 2

/-- The frame number of an entry at full width: the nearest to the frame in progress (DEDUCED, assumption 102). -/
def State.entK (s : State) (e : List Byte) (d : Nat) : Int :=
  let k := (s.frameAt (s.dieFrameTime d)).getD 0
  (k : Int) + toSigned 32 (entFrame e + 2 ^ 32 - k % 2 ^ 32)

/-- The capture time of the decoded frame (R296). -/
def State.entCapture (s : State) (e : List Byte) (k : Int) : Instant :=
  (s.t0 + k * nsInst s.frameNs + nsInst (entCapOff e)).toNat

/-! ### The checks (R297) -/

/-- Step 1, but for what the stream says: CRC, reserved fields, ranges, and the camera. -/
def State.entryOk (s : State) (d a : Nat) (e : List Byte) : Bool :=
  leAt e 62 2 == crc16Fold a (e.take 62) && slice e 48 14 == zeros 14 && (entFormat e == 1 || entFormat e == 2) &&
    decide (leAt e 1 1 < 16) && decide (entSrc e % 64 = 0) && decide (32 ≤ entLength e ∧ entLength e ≤ 2 ^ 26) &&
    decide (entCapOff e < s.frameNs) && decide (entGain e ≤ 16384) &&
    (if entAug e 3 then decide (1 ≤ entNoise e ∧ entNoise e ≤ 8) else entNoise e == 0) && decide (entRegion e < s.part.regions) &&
    decide (leAt e 38 2 ≤ 4096) && decide (entLine e % 64 = 0) &&
    (match s.ispView (entCamera e) with
     | some v => v.bind.pipe / 4 == d && (entFormat e != 1 || v.isp.exposures == 1)
     | none => false)

/-- Reachable as for the host (R129, R131): inside carve-outs that are not closed. -/
def State.hostReach (s : State) (a n : Nat) : Bool := s.img.covers (s.img.carves.length + 1) a n && !(s.carveClosed none a n)

/-- The planes a decode gives, their size and whether data was missing. -/
structure DecodedFrame where
  planes : List (List Nat)
  w : Nat
  h : Nat
  trunc : Bool

/-- Steps 5 to 8 on the header, and the decoder for step 9: a status, or the size and the decode. -/
def headerChecks (format maxPix cw ch : Nat) (crop flip : Bool) (src : List Byte) :
    Sum Nat (Nat × Nat × (Unit → Option (List (List Nat) × Bool))) :=
  let go := fun (w h comps : Nat) (ok : Bool) (dec : Unit → Option (List (List Nat) × Bool)) =>
    if w = 0 ∨ 16384 < w ∨ h = 0 ∨ 16384 < h ∨ comps = 0 ∨ 4 < comps then .inl 0x41
    else if maxPix < w * h then .inl 0x42
    else if !ok then .inl 0x40
    else if (if crop then w < cw ∨ h < ch else ¬ (w = cw ∧ h = ch)) ∨ (flip ∧ format ≠ 1) then .inl 0x46
    else .inr (w, h, dec)
  if format = 1 then
    match parseJpeg src with
    | none => .inl 0x40
    | some (hd, coded) => go hd.dims.1 hd.dims.2.1 hd.dims.2.2 hd.subset (fun _ => decodeJpeg hd coded)
  else
    match parseQlr src with
    | none => .inl 0x40
    | some h => go h.width h.height h.comps (h.subset src) (fun _ => decodeQlr h src)

/-- The BITS field of a QLR stream matches the camera, as far as it can be read (R297 step 1). -/
def State.bitsMatch (s : State) (e : List Byte) : Bool :=
  if entFormat e = 2 ∧ s.hostReach (entSrc e) (entLength e) then
    match s.ispView (entCamera e) with
    | some v => (s.fetch (entSrc e) 32).status != 0 || leAt (s.fetch (entSrc e) 32).data 11 1 == v.bits
    | none => false
  else true

/-! ### Augmentation (R304) -/

/-- What augmentation needs. -/
structure AugIn where
  seed : Nat
  opId : Nat
  sample : Nat
  maxval : Nat
  gran : Nat

def AugIn.word (a : AugIn) (use e : Nat) : Nat := randomWord a.seed a.opId use a.sample e

/-- Crop (R304): the output plane from the source plane. -/
def cropPlane (a : AugIn) (ws hs wo ho : Nat) (p : List Nat) : List Nat :=
  let dx := a.gran * (a.word 1 0 % ((ws - wo) / a.gran + 1))
  let dy := a.gran * (a.word 1 1 % ((hs - ho) / a.gran + 1))
  let arr := p.toArray
  (List.range ho).flatMap fun y => (List.range wo).map fun x => arr.getD ((dy + y) * ws + dx + x) 0

/-- Flip (R304). -/
def flipPlane (w : Nat) (p : List Nat) : List Nat := (chunks w p).flatMap List.reverse

/-- Gain (R304). -/
def gainPlane (a : AugIn) (gainR : Nat) (p : List Nat) : List Nat :=
  let g := 65536 + a.word 3 0 % (2 * gainR + 1) - gainR
  p.map fun x => min a.maxval ((x * g + 32768) / 65536)

/-- Noise (R304) on component `c`. -/
def noisePlane (a : AugIn) (bits c size : Nat) (p : List Nat) : List Nat :=
  p.zipIdx.map fun e =>
    let u := a.word 4 (c * size + e.2)
    (clampInt 0 a.maxval ((e.1 : Int) + (u / 2 ^ (32 - bits) : Nat) - (2 ^ (bits - 1) : Nat))).toNat

/-- Crop, flip, gain and noise in this order; gain and noise act on Y alone of a JPEG (R304). -/
def augment (a : AugIn) (e : List Byte) (d : DecodedFrame) (wo ho : Nat) : List (List Nat) :=
  let jpeg := entFormat e == 1
  let p1 := if entAug e 0 then d.planes.map (cropPlane a d.w d.h wo ho) else d.planes
  let p2 := if entAug e 1 ∧ bit (a.word 2 0) 0 then p1.map (flipPlane wo) else p1
  p2.zipIdx.map fun x =>
    if jpeg ∧ x.2 ≠ 0 then x.1
    else
      let g := if entAug e 2 then gainPlane a (entGain e) x.1 else x.1
      if entAug e 3 then noisePlane a (entNoise e) x.2 (wo * ho) g else g

/-! ### An entry (R295 to R298, R302) -/

/-- The decoder stops (R298): ERR and SEV-111. -/
def State.decStop (s : State) (d status : Nat) : State :=
  (s.updDec d (fun x => { x with err := true, busy := false, status := BitVec.ofNat 8 status })).raiseDie d 111 d status

/-- The sample is void (R298): SEV-111; the decoder goes on. -/
def State.decVoid (s : State) (d status : Nat) (e : List Byte) : State :=
  (s.updDec d (fun x => { x with busy := true, entry := e, status := BitVec.ofNat 8 status, trunc := false, planes := [] })).raiseDie
    d 111 (entCamera e) status

/-- Bytes of a stream that steps 5 to 8 read: the lines that hold its header. -/
def headerBytes (format : Nat) (src : List Byte) : Nat :=
  let n := if format = 1 then (match parseJpeg src with | some (_, coded) => src.length - coded.length | none => src.length) else 32
  min src.length (ceilDiv n 64 * 64)

/-- Step 9: the coded data is read and decoded; none when it cannot be. -/
def State.decData (s : State) (a n : Nat) (dec : Unit → Option (List (List Nat) × Bool)) : State × Option (List (List Nat) × Bool) :=
  if n = 0 then (s, dec ())
  else
    let f := s.fetch a n
    (f.st, if f.status = 0 then dec () else none)

/-- Steps 3 to 9 of an entry whose camera is known. Steps 5 to 8 read only the header. -/
def State.decRun (s : State) (d : Nat) (e : List Byte) (v : IspView) : State :=
  let k := s.entK e d
  let now := ((s.frameAt (s.dieFrameTime d)).getD 0 : Int)
  let aug := decide (leAt e 1 1 ≠ 0)
  let rg := s.region (entRegion e)
  if k < now then s.decVoid d 0x47 e
  else if aug ∧ !rg.rngValid then s.decVoid d 0x45 e
  else
    let src := (s.fetch (entSrc e) (entLength e)).data
    let n := headerBytes (entFormat e) src
    let f := s.fetch (entSrc e) n
    let wo := v.intake.width
    let ho := v.intake.height
    if f.status ≠ 0 then f.st.decVoid d 0x40 e
    else match headerChecks (entFormat e) (s.entRatio e * entLength e) wo ho (entAug e 0) (entAug e 1) src with
      | .inl st => f.st.decVoid d st e
      | .inr (w, h, dec) =>
        let g := f.st.decData (entSrc e + n) (entLength e - n) dec
        match g.2 with
        | none => g.1.decVoid d 0x43 e
        | some (planes, trunc) =>
          let a : AugIn := { seed := rg.seed.toNat, opId := entOpId e, sample := entSample e
                             maxval := if entFormat e = 1 then 255 else 2 ^ v.bits - 1
                             gran := if entFormat e = 2 ∧ leAt src 12 1 = 1 then 2 else 1 }
          let s1 := g.1.updDec d (fun x => { x with
            busy := true, entry := e, status := 0, trunc := trunc, jpeg := entFormat e == 1, width := wo, height := ho
            planes := augment a e { planes := planes, w := w, h := h, trunc := trunc } wo ho })
          if trunc then s1.raiseDie d 112 (entCamera e) 0 else s1

/-- An entry begins no earlier than the start of device frame FRAME - 1 (R296). -/
def State.decDue (s : State) (d : Nat) (e : List Byte) : Bool :=
  s.started && decide (s.t0 + (s.entK e d - 1) * nsInst s.frameNs ≤ (s.dieFrameTime d : Int))

/-- DECODER_ENTRY_START (R295 to R299): the entry at HEAD. -/
def State.decStart (s : State) (d : Nat) (r : ReplayRing) : State :=
  let x := (s.die d).dec
  let a := s.img.carveBase r.ringCarve + r.ringOff + x.head.toNat % 2 ^ r.ringLog2 * 64
  let f := s.fetch a 64
  if f.status ≠ 0 ∨ !(s.entryOk d a f.data) then f.st.decStop d 0x44
  else if !(s.decDue d f.data) then s
  else if !(s.bitsMatch f.data) then f.st.decStop d 0x44
  else if !(s.hostReach (entSrc f.data) (entLength f.data)) ∨ !(s.hostReach (entLine f.data) 64) then f.st.decStop d 0x48
  else match s.ispView (entCamera f.data) with
    | some v => f.st.decRun d f.data v
    | none => f.st.decStop d 0x44

def execDecoderEntryStart (die : Nat) (s : State) : Host.Outcome State Fault Refusal :=
  let x := (s.die die).dec
  .next (if 4 ≤ die ∨ x.err ∨ x.busy ∨ x.head = x.tail ∨ !s.isReplay ∨ s.dieDown die then s
    else match s.decRing die with
      | some r => (s.decStart die r).settle
      | none => s)

/-- The sample line (R302). -/
def sampleLine (a : Nat) (e : List Byte) (status : Nat) (trunc : Bool) (capture : Instant) : List Byte :=
  let b := leBytes 1 (if status = 0 then 1 else 0) ++ leBytes 1 status ++ leBytes 1 (atBit trunc 0) ++ slice e 3 1 ++ slice e 4 4 ++
    slice e 8 8 ++ leBytes 8 (timeWordOf capture) ++ zeros 38
  b ++ leBytes 2 (crc16Fold a b)

/-- DECODER_ENTRY_FINISH (R295, R298, R302): the line, then the frame waits for its offer; HEAD moves on. -/
def State.decFinish (s : State) (d : Nat) : State :=
  let x := (s.die d).dec
  let e := x.entry
  let k := s.entK e d
  let o : Offer := { frame := k.toNat, camera := entCamera e, sample := entSample e, void := x.status != 0, truncated := x.trunc
                     jpeg := x.jpeg, planes := x.planes }
  (s.put (entLine e) (sampleLine (entLine e) e x.status.toNat x.trunc (s.entCapture e k))).updDec d (fun y => { y with
    busy := false, head := y.head + 1, entry := [], planes := [], offers := y.offers ++ [(o, entCapOff e)] })

def execDecoderEntryFinish (die : Nat) (s : State) : Host.Outcome State Fault Refusal :=
  .next (if die < 4 ∧ (s.die die).dec.busy ∧ !(s.dieDown die) then s.decFinish die else s)

/-! ### The offer (R296, R298) -/

/-- Writes the raw codes of a QLR frame to the raw slot. -/
def State.putRaw (s : State) (v : IspView) (slot : Nat) (p : List Nat) : State :=
  ((chunks v.intake.width p).zipIdx).foldl (fun acc e =>
    acc.putLine v.bind v.intake slot (v.intake.embLines + e.2) (lineBytes v.bits v.intake.width e.1))
    (s.zeroLines v.bind v.intake slot 0 v.intake.embLines)

/-- REPLAY_FRAME_OFFER (R296): the oldest finished frame, once its capture time and LATENCY_NS have passed and a raw slot is free, waits
for its pipeline like a live frame. -/
def State.offer (s : State) (d : Nat) (o : Offer) (capOff : Nat) (v : IspView) : State :=
  let cap := (s.t0 + nsInst (o.frame * s.frameNs + capOff)).toNat
  let jobs := s.jobsOf v.bind
  if s.dieFrameTime d < cap + nsInst v.bind.latencyNs ∨ 2 ≤ jobs.length then s
  else
    let slot := if (jobs.map (·.slot)).contains 0 then 1 else 0
    let j : FrameJob := { camera := o.camera, facet := v.bind.facet, k := o.frame, capture := { s.dieStamp d with at_ := cap, epoch := s.tb.epoch }, slot := slot
                          lines := if o.void then 0 else v.intake.height, sample := o.sample, replay := true, void := o.void
                          jpeg := o.jpeg && !o.void, planes := if o.jpeg then o.planes else [], ended := true }
    let j1 := j.mark noteReplay
    let j2 := if o.truncated then j1.mark noteTrunc else j1
    let s1 := if o.void ∨ o.jpeg then s else s.putRaw v slot (o.planes.headD [])
    (s1.updDec d (fun x => { x with offers := x.offers.drop 1 })).updCam o.camera (fun c => { c with waiting := c.waiting ++ [j2] })

def execReplayFrameOffer (die : Nat) (s : State) : Host.Outcome State Fault Refusal :=
  .next (match (s.die die).dec.offers with
    | [] => s
    | o :: _ =>
      if 4 ≤ die ∨ s.dieDown die then s
      else match s.ispView o.1.camera with
        | some v => s.offer die o.1 o.2 v
        | none => s)

end Sys2Proof.Machine
end

