-- ==== Sys2Proof/Machine/SafetyCtl.lean ====
section
/-! DEFINITION. The safety controller (14_safety.md): the record mirror, the comparator, the safe-state outputs and their release,
checksum entries and the rotating self-tests. -/

namespace Sys2Proof.Machine

/-! ### The record mirror (R374) -/

/-- The latest instant at which the header of beat `n` may arrive. -/
def State.mirrorDeadline (s : State) (n : Nat) : Instant := s.beatStart (n + 1) + nsInst 2000

/-- The LATE bit of a header agrees with the age formed from its OLDEST and COMMIT. -/
def headerLateOk (maxAge : Nat) (h : List Byte) : Bool := bit (leAt h 14 2) 9 == isLate maxAge (leAt h 16 8) (leAt h 24 8)

/-- A header at the safety controller: SEV-013, SEV-014 and SEV-012 in this order. -/
def State.headerArrives (s : State) (m : Mirror) : State :=
  let n := leAt m.header 0 8
  let s1 := if s.saf.mirrorNext ≤ m.beat ∧ s.mirrorDeadline m.beat < s.now then s.raise 13 0xFF 0 else s
  let s2 := match s.saf.prevBeat with
    | some p => if n ≠ p + 1 then s1.raise 14 0xFF 0 else s1
    | none => s1
  let s3 := if headerLateOk s.img.safety.maxAgeNs m.header then s2 else s2.raise 12 0xFF 0
  s3.updSaf (fun f => { f with mirrorNext := max f.mirrorNext (m.beat + 1), prevBeat := some n })

/-- A header that counts as missing (R374, R392): SEV-013, once for its beat. -/
def State.headerMissing (s : State) (n : Nat) : State :=
  if s.saf.mirrorNext ≤ n then (s.raise 13 0xFF 0).updSaf (fun f => { f with mirrorNext := n + 1 }) else s

/-- MIRROR_HEADER_RECEIVE (R374, R392): the oldest header on its way, with its CRC-16 over BEAT and its bytes; one whose CRC fails
counts as missing. The whole record of CMP_BEAT is kept with the outcome of its CRC-32P4. The operands tell whether the link has left
the header and the record whole. -/
def execMirrorHeaderReceive (check : MirrorCheck) (s : State) : Host.Outcome State Fault Refusal :=
  .next (match s.saf.mirrors with
    | [] => s
    | m :: rest =>
      let s0 := s.updSaf (fun f => { f with mirrors := rest })
      let s1 := if check.headerOk && m.check == crc16Fold m.beat m.header then s0.headerArrives m else s0.headerMissing m.beat
      if m.full = [] then s1
      else s1.updSaf (fun f => { f with mirrored := some (m, check.recordOk && leAt m.full 252 4 == crc 4 (m.full.take 252)) }))

/-- MIRROR_HEADER_TIMEOUT (R374): the header that is awaited has not come in time. -/
def execMirrorHeaderTimeout (s : State) : Host.Outcome State Fault Refusal :=
  let n := s.saf.mirrorNext
  .next (if s.started ∧ s.mirrorDeadline n < s.now then s.headerMissing n else s)

/-! ### The comparison (R361 to R366) -/

/-- What the comparator finds in the compared cells (R362): unmatched checker cells and unmatched main cells. -/
def unmatched (c : CheckerSec) (bitmap : List Byte) (out : List Int) : Nat × Nat :=
  let o := out.toArray
  let bm := bitmap.toArray
  let n := c.cmpX * c.cmpY
  let known := fun (j : Nat) => decide (0 < o.getD (2 * j + 1) (-128))
  let chk := fun (j : Nat) => known j && decide ((c.occThresh : Int) ≤ o.getD (2 * j) (-128))
  let main := fun (j : Nat) => bit (bm.getD (j / 8) 0).toNat (j % 8)
  let near := fun (p : Nat → Bool) (j : Nat) =>
    let x := j % c.cmpX
    let y := j / c.cmpX
    (List.range (2 * c.tol + 1)).any fun dy => (List.range (2 * c.tol + 1)).any fun dx =>
      decide (c.tol ≤ y + dy ∧ y + dy - c.tol < c.cmpY ∧ c.tol ≤ x + dx ∧ x + dx - c.tol < c.cmpX) &&
        p ((y + dy - c.tol) * c.cmpX + (x + dx - c.tol))
  (((List.range n).filter fun j => chk j && !(near main j)).length,
   ((List.range n).filter fun j => known j && main j && !(near chk j)).length)

/-- The record of CMP_BEAT of frame `k + 1`, once it has been mirrored. -/
def State.mirroredFor (s : State) (k : Nat) : Option (Mirror × Bool) :=
  match s.saf.mirrored with
  | some m => if s.frameOfBeat m.1.beat = k + 1 then some m else none
  | none => none

/-- The beat CMP_BEAT in which the record of input frame `k` is formed (R364). -/
def State.cmpBeatOf (s : State) (k : Nat) : Nat := s.firstBeat (k + 1) + s.img.checker.cmpBeat

/-- The comparison of input frame `k` may complete: its record has come, or its time is over (R364). -/
def State.cmpDue (s : State) (k : Nat) : Bool :=
  s.started && s.compares && decide (s.beatStart (s.cmpBeatOf k + 1) ≤ s.now) &&
    ((s.mirroredFor k).isSome || decide (s.beatStart (s.cmpBeatOf k + 1) + nsInst 19000 ≤ s.now))

/-- Payload bytes of a record (R98). -/
def recordPayload (r : List Byte) : List Byte := slice r 32 216

/-- The row of R363 that decides, with U_c and U_m where they are formed. -/
def State.cmpRow (s : State) (k : Nat) : Nat × Option (Nat × Nat) :=
  match s.mirroredFor k with
  | none => (1, none)
  | some (m, ok) =>
    let pay := recordPayload m.full
    let off := s.img.split.cmpOffset
    if !ok ∨ bit (leAt m.full 14 2) 9 ∨ m.marked then (1, none)
    else if leAt pay off 4 ≠ k % 2 ^ 32 then (2, none)
    else match s.saf.result with
      | none => (3, none)
      | some r =>
        if r.1 ≠ k ∨ s.beatStart (s.cmpBeatOf k) < r.2.2.1 then (3, none)
        else if r.2.1 then (4, none)
        else
          let u := unmatched s.img.checker (slice pay (off + 4) (s.img.split.cmpLength - 4)) r.2.2.2
          (if s.img.checker.minCells ≤ u.1 then 5 else if s.img.checker.minCells ≤ u.2 then 6 else 7, some u)

/-- CMP code of a row (R363). -/
def rowCmp (row : Nat) : Nat := if row ≤ 5 then 3 else if row = 6 then 2 else 1

/-- The event of a row (R363), 0 for none. -/
def rowSev : Nat → Nat
  | 1 => 4
  | 2 => 5
  | 3 => 6
  | 4 => 8
  | 5 => 1
  | 6 => 2
  | _ => 0

/-- The rule of R366, on the outcomes newest first. -/
def disagreeRule (x : SafetySec) (hist : List Bool) : Bool :=
  (decide (x.consec ≤ hist.length) && (hist.take x.consec).all id) || decide (x.k ≤ ((hist.take x.m).filter id).length)

/-- The effect of an outcome: SAF_LASTCMP, SAF_COUNTS, the history, the row's event and SEV-003 (R363, R366). U_c and U_m are free
values in rows that do not form them. -/
def State.cmpOutcome (s : State) (row : Nat) (u : Option (Nat × Nat)) : State :=
  let d := s.draw
  let uv := u.getD (Config.freeNat d.1 % 4096, Config.freeNat d.1 / 4096 % 4096)
  let bad := decide (row ≤ 5)
  let s1 := d.2.updSaf (fun f => { f with
    hist := (bad :: f.hist).take 256, cmps := (bad :: f.cmps).take 256, cmp := rowCmp row, counted := bad, row := row
    uC := min 0xFFF uv.1, uM := min 0xFFF uv.2
    chkOnly := if bad then satInc f.chkOnly else f.chkOnly
    mainOnly := if row = 6 then satInc f.mainOnly else f.mainOnly
    cmpAt := some s.now })
  let s2 := if rowSev row = 0 then s1 else s1.raise (rowSev row) 0xFF 0
  if disagreeRule s.img.safety s1.saf.hist then s2.raise 3 0xFF 0 else s2

/-- COMPARE (R363): the comparison of the next input frame; a record INVALID only through R337 is not compared. -/
def State.compareNext (s : State) : State :=
  let k := s.saf.cmpNext
  if !(s.cmpDue k) then s
  else
    let s1 := s.updSaf (fun f => { f with cmpNext := k + 1 })
    match s.mirroredFor k with
    | some (m, _) => if m.reepochOnly then s1 else let r := s.cmpRow k; s1.cmpOutcome r.1 r.2
    | none => let r := s.cmpRow k; s1.cmpOutcome r.1 r.2

def execCompare (s : State) : Host.Outcome State Fault Refusal := .next s.compareNext

/-! ### Safe-state outputs (R368 to R370) -/

/-- The levels of SAFE_A_N and SAFE_B that the active request sets (R59, R368, R369). -/
def State.safeWanted (s : State) : Bool × Bool := (s.isBench, !s.isBench)

/-- The level of ball SAFE_A_N: pulled low while the Pregus die is in its reset (R368). -/
def State.ballA (s : State) : Bool := s.boot != .held && s.saf.safeA

/-- The level of ball SAFE_B: pulled high while base die 1 is unpowered or in reset (R368). -/
def State.ballB (s : State) : Bool := s.dieDown 1 || s.saf.safeB

/-- SAFE_READBACK_CHECK (R368): the levels read at the balls; SEV-022 when either ball is not, by 10,000 ns after the request, or no
longer, where the active request puts it. -/
def execSafeReadbackCheck (safeAHigh safeBHigh : Bool) (s : State) : Host.Outcome State Fault Refusal :=
  let w := s.safeWanted
  let late := decide (s.saf.reqAt + nsInst 10000 ≤ s.mono)
  let off := fun (want was is : Bool) => is != want && (was == want || late)
  let s1 := s.updSaf (fun f => { f with safeARb := safeAHigh, safeBRb := safeBHigh })
  .next (if s.saf.req ∧ (off w.1 s.saf.safeARb safeAHigh || off w.2 s.saf.safeBRb safeBHigh) then s1.raise 22 0xFF 0 else s1)

/-- Whether the release is accepted (R370): no cause remains, and the latest comparisons, or the latest frames under MAIN, are clean. -/
def State.releaseOk (s : State) : Bool :=
  let n := s.img.checker.releaseFrames
  decide (s.beat.missOrder.length < 2) && !(s.die 1).follower.lost && s.saf.failedTests == [] && s.sec.debugLevel != 2 &&
    (if s.compares then decide (n ≤ s.saf.cmps.length) && !((s.saf.cmps.take n).any id)
     else decide (s.saf.causeFrame + n ≤ s.beat.frame))

/-- RELEASE (R370): accepted for the next frame boundary (at once before the start), or refused with 0x52. -/
def State.requestRelease (s : State) : State :=
  if !s.saf.req then s.updSaf (fun f => { f with last := 0 })
  else if s.releaseOk then
    let s1 := s.updSaf (fun f => { f with last := 0, releasePend := true })
    if s.started then s1 else s1.releaseAt
  else s.updSaf (fun f => { f with last := 0x52 })

def execRelease (s : State) : Host.Outcome State Fault Refusal := .next s.requestRelease

/-! ### Checksum entries (R376, R401) -/

/-- The CVU that runs an entry: that of the Pregus die for REGION 0xF0, else the first of its region's two that is idle (DESIGN
CHOICE, assumption 27); none while every one of them scans (R398). -/
def State.sumUnit (s : State) (e : ChkSum) : Option Nat :=
  (if e.region = 0xF0 then [16] else [2 * e.region, 2 * e.region + 1]).find? fun u => !((s.cvuOf u).busy)

/-- Verifies an entry with an idle scan engine (R376, R401). -/
def State.verifySum (s : State) (u : Nat) (e : ChkSum) : State × Bool :=
  let r := s.scanRange (cvuRegion u) 5 e.addr e.len
  (r.1.updCvu u (fun x => x.endScan r.2.1 r.2.2), r.2.1 == 0 && r.2.2 == e.crc64)

/-- A unit whose return waits for an entry (R417 step 5). -/
def State.sumWaiter (s : State) (entry : Nat) : Option (UnitKind × Nat) :=
  allUnits.find? fun e =>
    let x := s.unit e.1 e.2
    x.state == .testing && x.stage == .checks && (s.unitSums e.1 e.2).contains entry && !(x.sumsDone.contains entry)

/-- UNIT of SEV-018: the region, or none for the package. -/
def sumTag (e : ChkSum) : Nat := if e.region = 0xF0 then 0xFF else e.region

/-- An entry before a unit's return (R376, R417): a mismatch leaves the unit SUSPECT; the last entry makes it ready. -/
def State.sumForReturn (s : State) (i cvu : Nat) (e : ChkSum) (k : UnitKind) (u : Nat) : State :=
  let r := s.verifySum cvu e
  if r.2 then
    let s1 := r.1.updUnit k u (fun x => { x with sumsDone := i :: x.sumsDone })
    if (s1.unitSums k u).all (fun j => (s1.unit k u).sumsDone.contains j) then s1.readyUnit k u else s1
  else (r.1.raise 18 (sumTag e) 0x53).failUnit k u

/-- An entry in the first frame (R376): a mismatch requests safe state. -/
def State.sumFirstFrame (s : State) (i cvu : Nat) (e : ChkSum) : State :=
  let r := s.verifySum cvu e
  let s1 := r.1.updSaf (fun f => { f with sumsDone := i :: f.sumsDone })
  if r.2 then s1 else ((s1.raise 18 (sumTag e) 0x53).noteCause).requestSafe 18

/-- Entry `i` is the next of its REGION, or the one after it, beside which it may run on the region's other unit (R401). -/
def State.sumInOrder (s : State) (i : Nat) (e : ChkSum) (done : List Nat) : Bool :=
  let earlier := (List.range i).filter fun j =>
    !(done.contains j) && (match s.img.checker.sums[j]? with | some x => x.region == e.region | none => false)
  decide (earlier.length < if e.region = 0xF0 then 1 else 2)

/-- CHECKSUM_VERIFY (R376, R401, R417): entry `i`, for a return that waits for it, or in the first frame after the start; it waits
while no unit is idle. -/
def State.checksumVerify (s : State) (i : Nat) : State :=
  match s.img.checker.sums[i]? with
  | none => s
  | some e => match s.sumUnit e with
    | none => s
    | some cvu => match s.sumWaiter i with
      | some (k, u) => if s.sumInOrder i e (s.unit k u).sumsDone then (s.sumForReturn i cvu e k u).settle else s
      | none =>
        if s.started ∧ 0 < s.beat.next ∧ s.beat.frame = 0 ∧ !(s.saf.sumsDone.contains i) ∧ s.sumInOrder i e s.saf.sumsDone then
          (s.sumFirstFrame i cvu e).settle
        else s

def execChecksumVerify (entry : Nat) (s : State) : Host.Outcome State Fault Refusal := .next (s.checksumVerify entry)

/-! ### Rotating self-tests (R377 to R379) -/

/-- Steps in a round (R378). -/
def testSteps : TestTarget → Nat
  | .tileEcc => 4
  | .kindling => 3
  | .residue => 33
  | .ageMonitor => 2
  | .checkValue => 6
  | .syncDir => 2
  | .dieEcc => 8
  | .comparator => 7
  | .mirrorChecker => 2
  | .checkerEngine => 1

/-- Clock cycles of a step (R378). -/
def testCycles : TestTarget → Nat
  | .tileEcc | .dieEcc => 24
  | .kindling => 16
  | .residue => 48
  | .ageMonitor => 20
  | .checkValue => 40
  | .syncDir => 12
  | .comparator => 600
  | .mirrorChecker => 300
  | .checkerEngine => 60000

/-- The unit of recovery of a compute-side instance; none for a Pregus target (R378). -/
def State.testUnit (s : State) (t : TestTarget) (unit : Nat) : Option (UnitKind × Nat) :=
  match t with
  | .tileEcc | .kindling | .residue | .ageMonitor => some (.slot, s.slotOfTile unit)
  | .checkValue | .syncDir => some (.cluster, unit)
  | .dieEcc => some (.die, unit)
  | _ => none

/-- The engine of a tile that a step uses: that whose Kindling it tests, the ME for the residue checker, and the DE for tile memory and
for the age monitor of the commit path (DEDUCED, assumption 148). -/
def testEngine (t : TestTarget) (done : Nat) : Option Nat :=
  match t with
  | .kindling => some (done % 3)
  | .residue => some 0
  | .tileEcc | .ageMonitor => some 2
  | _ => none

/-- An engine of a tile is idle, and none of its queues holds credit (R377). -/
def State.engineFree (s : State) (tile engine : Nat) : Bool :=
  s.engineLoad tile engine == 0 && s.img.queues.all fun a =>
    a.engine != engine || tileOfQueue a.queue != tile || (s.queue a.queue).credit == 0

/-- The Pregus die is between the close of a grid and the completion of that frame's comparison (R377). -/
def State.comparing (s : State) : Bool := s.compares && decide (s.saf.cmpNext < s.range.next)

/-- A test step may run now (R377): a compute-side step during a beat whose time left at CLOCK_FLOOR_MHZ suffices, on an engine that is
free; a Pregus step outside the interval of a comparison. -/
def State.testRuns (s : State) (t : TestTarget) (unit : Nat) : Bool :=
  match s.testUnit t unit with
  | none => !s.comparing
  | some _ =>
    s.started && decide (0 < s.beat.next) &&
      decide (nsInst (testCycles t * 1000) ≤ (s.beatStart s.beat.next - s.now) * s.img.safety.clockFloorMhz) &&
      (match testEngine t (SMap.get (0, 0) s.saf.tests (testKey t unit)).1 with
       | some e => s.engineFree unit e
       | none => true)

/-- Whether an instance exists and is in service (R378): an age monitor for each commit candidate (R39). -/
def State.testExists (s : State) (t : TestTarget) (unit : Nat) : Bool :=
  match t with
  | .ageMonitor => decide (unit < s.part.tiles) && s.tileInService unit && s.role unit == 2
  | .tileEcc | .kindling | .residue => decide (unit < s.part.tiles) && s.tileInService unit
  | .checkValue | .syncDir => decide (unit < s.part.clusters) && (s.clusterStates unit).all (fun u => u.state == .inService)
  | .dieEcc => decide (unit < 4) && (s.die unit).u.state == .inService
  | _ => unit == 0

/-- A step that passed: the round, when it is complete, starts again, and a failed Pregus target has then recovered. -/
def State.testPass (s : State) (t : TestTarget) (unit : Nat) : State :=
  s.updSaf (fun f =>
    let x := SMap.get (0, 0) f.tests (testKey t unit)
    if testSteps t ≤ x.1 + 1 then
      { f with tests := SMap.set (0, 0) f.tests (testKey t unit) (0, s.mono), failedTests := f.failedTests.filter (· != t) }
    else { f with tests := SMap.set (0, 0) f.tests (testKey t unit) (x.1 + 1, x.2) })

/-- A step that failed: SEV-019 and the unit is fenced, or SEV-020 (R379). -/
def State.testFail (s : State) (t : TestTarget) (unit : Nat) : State :=
  match s.testUnit t unit with
  | some (k, u) => (s.raiseDie (dieOfUnit k u) 19 (s.unitTag k u) 0).suspectUnit k u 19
  | none => (s.updSaf (fun f => { f with failedTests := t :: f.failedTests.filter (· != t) })).raise 20 0xFF 0

/-- SELF_TEST_STEP (R377 to R379): a step that may not run now is deferred. A residue step has TIL_ARR_CTRL.RESIDUE at 1 for its
length alone (R375). -/
def execSelfTestStep (target : TestTarget) (unit : Nat) (pass : Bool) (s : State) : Host.Outcome State Fault Refusal :=
  .next (if !(s.testExists target unit) ∨ !(s.testRuns target unit) then s else if pass then s.testPass target unit else s.testFail target unit)

/-- SELF_TEST_STARVED (R379): a round has not completed within LATENT_MS of its beginning, the first of which is the start; the target
keeps its place. -/
def execSelfTestStarved (target : TestTarget) (unit : Nat) (s : State) : Host.Outcome State Fault Refusal :=
  let x := SMap.get (0, 0) s.saf.tests (testKey target unit)
  .next (if s.started ∧ s.testExists target unit ∧ max s.saf.testsFrom x.2 + nsInst (s.img.safety.latentMs * 1000000) < s.mono then
      (s.raise 21 (match s.testUnit target unit with | some e => s.unitTag e.1 e.2 | none => 0xFF) 0).updSaf (fun f =>
        { f with tests := SMap.set (0, 0) f.tests (testKey target unit) (x.1, s.mono) })
    else s)

end Sys2Proof.Machine
end

