-- ==== Sys2Proof/Machine/Update.lean ====
section
/-! DEFINITION. Firmware update (17_transactions_update_security.md, R440 to R445): the operations of UPD_CTRL. -/

namespace Sys2Proof.Machine

/-! ### Versions and HITLESS (R440, R443) -/

def State.isStaged (s : State) (bitNo : Nat) : Bool := bit s.upd.staged.toNat bitNo

/-- The firmware that serves a die. -/
def DieSt.firmware (x : DieSt) : Firmware := if x.serving then x.fwB else x.fwA

/-- The firmware of the other processor. -/
def DieSt.standby (x : DieSt) : Firmware := if x.serving then x.fwA else x.fwB

/-- The images that a new firmware must run: the active one and the staged one (R440). -/
def State.imagesToRun (s : State) : List Image := s.image.toList ++ s.upd.image.toList

/-- A new Pregus firmware runs with every Die Controller firmware that serves or is staged, and with the images (R440). -/
def State.pregusFits (s : State) (f : Firmware) : Bool :=
  (List.range 4).all (fun d => firmwarePair f (s.die d).firmware && (!(s.isStaged (d + 1)) || firmwarePair f (s.die d).standby)) &&
    s.imagesToRun.all (fun i => decide (i.header.format ≤ f.imageFmt))

/-- A new Die Controller firmware runs with the Pregus firmware in force and with the staged one, may stand by beside the serving
processor, and runs the images (R22, R440). -/
def State.dieFits (s : State) (d : Nat) (f : Firmware) : Bool :=
  let serving := (s.die d).firmware
  firmwarePair s.upd.pregus f && (!(s.isStaged 0) || firmwarePair s.upd.pregusStaged f) &&
    (f.version == serving.version || decide (f.peerMin ≤ serving.version)) &&
    s.imagesToRun.all (fun i => decide (i.header.format ≤ f.imageFmt))

/-- HITLESS (R443): the staged image `b` against the active image `a`. -/
def hitless (a b : Image) : Bool :=
  a.header.variants == b.header.variants && a.header.steppings == b.header.steppings && a.header.deploy == b.header.deploy &&
    a.header.chipCount == b.header.chipCount && a.safety.frameNs == b.safety.frameNs && a.safety.beatNs == b.safety.beatNs &&
    a.fixed == b.fixed && b.carves.all fun c => match a.carve c.id with
      | some o => o == c
      | none => a.carves.all fun o => decide (o.base + o.size ≤ c.base ∨ c.base + c.size ≤ o.base)

/-! ### The operations of UPD_CTRL (R441, R442) -/

/-- UPD_STATUS.BUSY: a region is fenced for its staging. -/
def State.updBusy (s : State) : Bool := (List.range 4).any fun d => (s.die d).fences.any fun f => f.purpose == .update

/-- A pending ACTIVATE: what it names stays as it is until it applies or rolls back. -/
def State.activatePending (s : State) : Bool :=
  match s.ctx.txn with
  | some t => t.entries.any fun e => e.op == 4
  | none => false

/-- A write of UPD_CTRL with GO: OP, and UNIT where the operation names one; it runs while the Pregus firmware runs, unless one still
runs or an ACTIVATE is pending (DESIGN CHOICE, assumption 58: refused with 0x7D). -/
def State.updOp (s : State) (op : Nat) (unit : Option Nat) (f : State → State) : State :=
  if !s.timeRuns then s
  else
    let u := match unit with
      | some u => u % 16
      | none => fld s.upd.ctrl.toNat 19 16
    let s1 := s.updUpd (fun x => { x with ctrl := BitVec.ofNat 32 (op * 2 ^ 28 + u * 2 ^ 16) })
    if s1.updBusy ∨ s1.activatePending then s1.stageFail 0xFF 0x7D else f s1

/-- Marks a component as staged and not activated since (R449): 1 PREGUS, 2 DIE, 4 STRUCT. -/
def State.notProven (s : State) (m : Nat) : State := s.updUpd (fun x => { x with unproven := x.unproven ||| BitVec.ofNat 3 m })

/-- STAGE_PREGUS: the firmware of the inactive slot goes into the inactive code bank. -/
def State.stagePregus (s : State) : State :=
  match s.loadFirmware 1 !s.upd.selPregus with
  | .error e => s.failStage 0 0xFF e
  | .ok f =>
    if s.pregusFits f then
      (((s.updUpd (fun x => { x with pregusStaged := f })).notProven 1).logFirmware 1 f).stageEnd 1
    else s.failStage 0 0xFF 0x7C

def execStagePregus (s : State) : Host.Outcome State Fault Refusal := .next (s.updOp 1 none State.stagePregus)

/-- Loads a firmware into the standby processor of a die. -/
def DieSt.loadStandby (x : DieSt) (f : Firmware) : DieSt := if x.serving then { x with fwA := f } else { x with fwB := f }

/-- STAGE_DIE: refused with 0x7D for a die that the part does not have, that is in reset or without power, whose standby is retired,
or whose standby fails its self-test (DESIGN CHOICE, assumption 58). -/
def State.stageDie (s : State) (d : Nat) (selfTestOk : Bool) : State :=
  let x := s.die d
  let standbyRetired := if x.serving then x.aRetired else x.bRetired
  if 4 ≤ d then s.stageFail 0xFF 0x7D
  else if standbyRetired ∨ s.dieDown d then s.failStage (d + 1) d 0x7D
  else match s.loadFirmware 2 !s.upd.selDie with
    | .error e => s.failStage (d + 1) d e
    | .ok f =>
      if !(s.dieFits d f) then s.failStage (d + 1) d 0x7C
      else
        let s1 := s.updDie d (fun y => y.loadStandby f)
        if !selfTestOk then s1.failStage (d + 1) d 0x7D
        else (((s1.updUpd (fun y => { y with dieSlot := !s.upd.selDie })).notProven 2).logFirmware 2 f).stageEnd (2 ^ (d + 1))

def execStageDie (die : Nat) (selfTestOk : Bool) (s : State) : Host.Outcome State Fault Refusal :=
  .next (s.updOp 2 (some die) fun s => s.stageDie die selfTestOk)

/-- The firmware in force and staged (R440). -/
def State.firmwareToRun (s : State) : List Firmware :=
  s.upd.pregus :: ((List.range 4).map (fun d => (s.die d).firmware) ++ (if s.isStaged 0 then [s.upd.pregusStaged] else []) ++
    ((List.range 4).filter (fun d => s.isStaged (d + 1))).map (fun d => (s.die d).standby))

/-- STAGE_IMAGE: the inactive slot is validated; what was staged of an earlier image is discarded with it. -/
def State.stageImage (s : State) : State :=
  let k := !s.upd.selImage
  let s0 := s.updUpd (fun x => { x with image := none, hitless := false, staged := x.staged &&& 0x1F#14 })
  match s0.checkSlot k s0.firmwareToRun with
  | .error v => ((s0.imgVerdict v).raise 251 0xFF v.status).stageFail 0xFF v.status
  | .ok i =>
    let h := match s.image with
      | some a => hitless a i
      | none => false
    (((s0.imgPassed.updUpd (fun x => { x with image := some i, imageSlot := k, hitless := h })).notProven 4).logImage i).stageEnd 0x20

def execStageImage (s : State) : Host.Outcome State Fault Refusal := .next (s.updOp 3 none State.stageImage)

/-- STAGE_REGION: the region is fenced for update (R411); its bit is set once its shadow bank is written, at the end of the drain. -/
def State.stageRegion (s : State) (g : Nat) : State :=
  if s.part.regions ≤ g then s.stageFail 0xFF 0x7D
  else if !(s.isStaged 5) then s.failStage (6 + g) g 0x7D
  else
    let st := s.fenceRefusal .region g 1
    if st ≠ 0 then s.failStage (6 + g) g st else s.planFence .region g .update

def execStageRegion (region : Nat) (s : State) : Host.Outcome State Fault Refusal :=
  .next (s.updOp 4 (some region) fun s => s.stageRegion region)

/-- UNSTAGE. -/
def State.unstage (s : State) : State :=
  (s.updUpd (fun x => { x with staged := 0, hitless := false, image := none, pregusStaged := {}, last := 0 })).msix 5

def execUnstage (s : State) : Host.Outcome State Fault Refusal := .next (s.updOp 5 none State.unstage)

/-- The values that SAVE stores (R441). -/
def State.currentSettings (s : State) : Settings where
  fmt := s.upd.pregus.settingsFmt
  dumpLo := (List.range 4).foldl (fun m d => SMap.set 0 m d (s.die d).dumpLo) []
  dumpHi := (List.range 4).foldl (fun m d => SMap.set 0 m d (s.die d).dumpHi) []
  hangMult := (List.range s.part.tiles).foldl (fun m t => SMap.set 4 m t (s.tile t).hangMult.toNat) []
  limit := (List.range s.part.tiles).foldl (fun m t => SMap.set 0x1000 m t (s.tile t).limit.toNat) []
  tslat := s.tb.tslat

/-- SAVE. -/
def State.saveSettings (s : State) : State :=
  (s.updUpd (fun x => { x with settings := some s.currentSettings, last := 0 })).msix 5

def execSave (s : State) : Host.Outcome State Fault Refusal := .next (s.updOp 6 none State.saveSettings)

end Sys2Proof.Machine
end

