-- ==== Sys2Proof/Machine/Security.lean ====
section
/-! DEFINITION. Security (17_transactions_update_security.md, R446 to R454): provisioning, ratchets, attestation and the debug port. -/

namespace Sys2Proof.Machine

/-- The end of a SEC operation: its status and vector 5 (R463). -/
def State.secEnd (s : State) (status : Nat) : State := (s.updSec (fun x => { x with last := BitVec.ofNat 8 status })).msix 5

/-! ### Keys and fuses (R446, R447, R450) -/

def State.keySlot (s : State) (k : Nat) : KeySlot := SMap.get {} s.sec.keys k
def State.updKey (s : State) (k : Nat) (f : KeySlot → KeySlot) : State :=
  s.updSec (fun x => { x with keys := SMap.update {} x.keys k f })

/-- Steps 1, 2 and 4 of R447 for a provisioning command, for which R446 names the slots in place of a role. -/
def State.provisionSigned (s : State) (slot : Nat) (message signature : List Byte) : Bool :=
  let k := s.keySlot slot
  let pub := s.publicKey slot
  decide (slot < 8) && k.programmed && !k.revoked && sha3 pub == k.digest && Config.mldsaVerify pub (sha3 message) signature

/-- A slot that may still verify firmware. -/
def KeySlot.isFirmware (k : KeySlot) : Bool := k.programmed && !k.revoked && bit k.roles 0

/-- `k` is the last unrevoked slot that has the FIRMWARE role. -/
def State.lastFirmwareSlot (s : State) (k : Nat) : Bool :=
  (s.keySlot k).isFirmware && (List.range 8).all fun j => j == k || !(s.keySlot j).isFirmware

/-- The slots whose keys may sign a command. -/
def Provision.signers (c : Provision) : List Nat :=
  match c with
  | .revoke slot => [0, slot]
  | _ => [0]

/-- The act of a verified command: its status. -/
def State.provisionAct (s : State) (c : Provision) : State × Nat :=
  match c with
  | .program slot digest roles =>
    if slot = 0 ∨ 8 ≤ slot ∨ (s.keySlot slot).programmed then (s, 0x7E)
    else (s.updKey slot (fun _ => { programmed := true, digest := digest, roles := roles % 8, revoked := false }), 0)
  | .revoke slot =>
    if 8 ≤ slot ∨ !(s.keySlot slot).programmed ∨ (s.keySlot slot).revoked ∨ s.lastFirmwareSlot slot then (s, 0x7E)
    else ((s.updKey slot (fun k => { k with revoked := true })).raise 259 0xFF 0, 0)
  | .rackEn => (s.updSec (fun x => { x with rackEn := true }), 0)
  | .vehicleLock => (s.updSec (fun x => { x with vehicleLock := true }), 0)

/-- PROVISIONING_COMMAND (R446, R450): 0x71 when it does not verify, 0x7E when its act is refused. -/
def State.provision (s : State) (c : Provision) (signer : Nat) (message signature : List Byte) : State :=
  if !s.timeRuns then s
  else if !((Provision.signers c).contains signer) ∨ !(s.provisionSigned signer message signature) then s.secEnd 0x71
  else
    let r := s.provisionAct c
    r.1.secEnd r.2

def execProvisioningCommand (cmd : Provision) (signerSlot : Nat) (message signature : List Byte) (s : State) :
    Host.Outcome State Fault Refusal := .next (s.provision cmd signerSlot message signature)

/-! ### Ratchets (R449) -/

/-- The lowest SEC_VERSION among the serving Die Controller firmware (DEDUCED where dies differ, assumption 61). -/
def State.dieSecVersion (s : State) : Nat :=
  ((List.range 4).map fun d => (s.die d).firmware.secVersion).foldl min 127

/-- SEC_VERSION of a component as active, and its counter: 0 PREGUS, 1 DIE, 2 STRUCT. -/
def State.ratchetPair (s : State) (comp : Nat) : Nat × Nat :=
  match comp with
  | 0 => (s.upd.pregus.secVersion, s.sec.cntPregus)
  | 1 => (s.dieSecVersion, s.sec.cntDie)
  | _ => (s.img.header.secVersion, s.sec.cntStruct)

/-- The guard of a ratchet. -/
def State.ratchetRefused (s : State) (comp : Nat) : Bool :=
  let p := s.ratchetPair comp
  decide (3 ≤ comp) || (comp == 2 && s.image.isNone) || decide (p.1 < p.2) || s.ctx.txn.isSome || bit s.upd.unproven.toNat comp

def State.setCounter (s : State) (comp v : Nat) : State :=
  s.updSec (fun x => match comp with
    | 0 => { x with cntPregus := v }
    | 1 => { x with cntDie := v }
    | _ => { x with cntStruct := v })

/-- The log entry of a component (R385, KIND 4). -/
def State.logRatchet (s : State) (comp : Nat) : State :=
  match comp with
  | 0 => s.logFirmware 1 s.upd.pregus
  | 1 => s.logFirmware 2 (s.die 0).firmware
  | _ => s.logImage s.img

/-- RATCHET (R449). -/
def State.ratchet (s : State) (comp : Nat) : State :=
  if !s.timeRuns then s
  else
    let s1 := s.updSec (fun x => { x with comp := BitVec.ofNat 2 comp })
    if s1.ratchetRefused comp then s1.secEnd 0x7D
    else (((s1.setCounter comp (s1.ratchetPair comp).1).raise 258 0xFF 0).logRatchet comp).secEnd 0

def execRatchet (comp : Nat) (s : State) : Host.Outcome State Fault Refusal := .next (s.ratchet comp)

/-! ### Attestation (R451, R452) -/

/-- SEC_REPORT_ADDR as an address (its bits 5:0 are reserved). -/
def SecSt.reportAddr (x : SecSt) : Nat := x.reportLo.toNat / 64 * 64 + x.reportHi.toNat % 2 ^ 16 * 2 ^ 32

/-- REVOKED bits of the key slots. -/
def State.revokedBits (s : State) : Nat := ((List.range 8).map fun k => atBit (s.keySlot k).revoked k).foldl (· + ·) 0

/-- VARIANT and STEPPING of DIE_TOPO. -/
def Part.code (p : Part) : Nat := p.bitNo + 1
def Stepping.code (p : Stepping) : Nat := p.bitNo + 1

/-- MISSING of CTX_MODE. -/
def State.missingCode (s : State) : Nat := s.beat.missing.getD 0xF

/-- The 512-byte report (R452). -/
def State.report (s : State) : List Byte :=
  let f := (s.die 0).firmware
  slice (leBytes 4 0x54544151 ++ leBytes 2 0x0100 ++ leBytes 1 s.part.code ++ leBytes 1 s.stepping.code ++
    leBytes 8 (s.image.elim 0 (fun i => i.header.imageId)) ++ (List.range 8).flatMap (fun i => leBytes 4 (SMap.get 0 s.sec.nonce i).toNat) ++
    stampBytes s.stamp ++ leBytes 1 s.sec.debugLevel.toNat ++ leBytes 1 (atBit s.sec.rackEn 0 + atBit s.sec.vehicleLock 1) ++ zeros 2 ++
    slice deviceId 0 64 ++ slice s.upd.pregus.digest 0 64 ++ slice f.digest 0 64 ++ slice (s.image.elim [] (fun i => i.header.bodyDigest)) 0 64 ++
    leBytes 2 s.upd.pregus.version ++ leBytes 2 f.version ++ leBytes 4 (s.image.elim 0 (fun i => i.header.secVersion)) ++
    leBytes 1 s.sec.cntPregus ++ leBytes 1 s.sec.cntDie ++ leBytes 1 s.sec.cntStruct ++ leBytes 1 s.revokedBits ++ zeros 4 ++
    leBytes 8 s.repair.generation ++ leBytes 1 s.missingCode) 0 512

/-- The report and its signature lie in a package-owned DRAM carve-out. -/
def State.reportPlaced (s : State) (a : Nat) : Bool :=
  match s.img.carveAt a with
  | some c => c.dram && c.owner == 0xF0 && decide (a + 512 + 4627 ≤ c.base + c.size) && !(s.carveClosed none a (512 + 4627))
  | none => false

/-- ATTEST (R452). -/
def State.attest (s : State) : State :=
  let a := s.sec.reportAddr
  if !s.timeRuns then s
  else if s.reportPlaced a then (s.put a (s.report ++ slice (identitySign (sha3 s.report)) 0 4627)).secEnd 0
  else s.secEnd 0x7E

def execAttest (s : State) : Host.Outcome State Fault Refusal := .next s.attest

/-! ### Debug (R453, R454) -/

/-- SEC_CHAL. -/
def SecSt.challenge (x : SecSt) : List Byte := (List.range 32).map (Config.challenge x.chalDraw)

/-- The token's own fields (R454): MAGIC, LEVEL, KEY_SLOT, CHALLENGE and DEVICE_ID, every other byte zero. -/
def State.tokenOk (s : State) (t : List Byte) : Bool :=
  leAt t 0 4 == 0x47424451 && within 0 (leAt t 4 4) 2 && zeroAt t 12 4 && slice t 16 32 == s.sec.challenge && zeroAt t 48 16 &&
    slice t 64 64 == slice deviceId 0 64 && !(leAt t 4 4 == 2 && s.image.any (fun i => i.header.deploy == 1))

/-- The token and its signature at SEC_REPORT_ADDR; nothing outside the carve-outs is read (R129), and none of it where a part cannot
be read. -/
def State.readToken (s : State) : State × Option (List Byte) :=
  s.readOpen s.sec.reportAddr (128 + 4627)

/-- UNLOCK (R454): SEC_CHAL takes a new value at every attempt; a level that was granted holds, whatever a later token asks (DEDUCED,
assumption 64); level 2 requests safe state. -/
def State.unlock (s : State) : State :=
  if !s.timeRuns then s
  else
    let r := s.readToken
    let d := r.2.getD []
    let t := d.take 128
    let s1 := r.1.updSec (fun x => { x with chalDraw := x.chalDraw + 1 })
    if r.2.isSome ∧ s.tokenOk t ∧ s.signedBy (leAt t 8 4) 2 t (d.drop 128) then
      let level := leAt t 4 4
      let s2 := (s1.updSec (fun x => { x with debugLevel := BitVec.ofNat 2 (max level x.debugLevel.toNat) })).raise 260 0xFF 0
      (if level = 2 then (s2.noteCause).requestSafe 260 else s2).secEnd 0
    else (s1.raise 261 0xFF 0x7E).secEnd 0x7E

def execUnlock (s : State) : Host.Outcome State Fault Refusal := .next s.unlock

end Sys2Proof.Machine
end

