-- ==== Sys2Proof/Machine/RegMap.lean ====
section
/-! DEFINITION. The register region (R457, R458): every register of the manual with its offset, its reset domain and what a read
returns. -/

namespace Sys2Proof.Machine

/-- A register, with the numbers of its unit and its own indexes. -/
inductive Reg where
  | txnCtrl | txnStatus | txnAddr (i : Nat) | txnWhen (i : Nat) | imgStatus | imgConflict | ctxMode
  | updCtrl | updStatus
  | secCtrl | secStatus | secNonce (i : Nat) | secChal (i : Nat) | secReport (i : Nat)
  | safStatus | safCtrl | safLastcmp | safCounts | ashStatus | ashHead (i : Nat) | ashSel (i : Nat) | ashData (i : Nat)
  | tbCtrl | tbStatus | tbIncr (i : Nat) | tbSnap (i : Nat) | tbSet (i : Nat) | tbReepoch (i : Nat) | tbCap (n i : Nat)
  | ethTslat (m : Nat) | hpCb (m i : Nat) | hpDb (m : Nat) | hpStatus (m : Nat)
  | rngMac (m : Nat)
  | cvuCtl (u c : Nat) | cvuFeed (u c size : Nat) | cvuResult (u c i : Nat) | cvuStatus (u c : Nat)
  | scanAddr (u i : Nat) | scanLen (u : Nat) | scanCtrl (u : Nat) | scanResult (u i : Nat) | scanStatus (u : Nat)
  | iocfg (t : Nat) | prgSens (i : Nat)
  | topo (d : Nat) | recovCtrl (d : Nat) | recovStatus (d : Nat) | dumpBase (d i : Nat) | ctrlProc (d : Nat)
  | kill (d : Nat) | killCarve (d i : Nat) | slotState (d i : Nat) | aging (d i : Nat)
  | peatErr (d : Nat) | chStatus (d c : Nat) | camHealth (d n : Nat) | camOk (d n : Nat) | decCtrl (d : Nat)
  | fctx (d i : Nat) | pipeStatus (d n : Nat) | pipeLast (d n : Nat)
  | latPort (d : Nat) | latSys (d : Nat) | latRoute (d c : Nat)
  | uciLink | uciErr | uciEvt (i : Nat) | uciIrq | uciFlash | mbTx (i : Nat) | mbRx (i : Nat) | mbStatus
  | clkCtrl (d : Nat) | dieStatus (d : Nat) | sens (d i : Nat)
  | cluSync (c n : Nat)
  | rngCtrl (g : Nat) | rngSeed (g i : Nat) | rngTab (g i : Nat) | rgnState (g : Nat)
  | missed (t : Nat) | msgdrop (t : Nat) | memErr (t : Nat) | memAddr (t : Nat) | arrCtrl (t : Nat) | arrStatus (t : Nat)
  | arrRepair (t : Nat) | arrLastop (t : Nat) | arrBusy (t : Nat) | tagErr (t : Nat) | tagCmd (t : Nat) | tagBlk (t : Nat)
  | wdog (t : Nat) | qstate (t l : Nat) | qctrl (t l : Nat)
deriving DecidableEq, Repr

/-! ### Offsets (R458) -/

/-- Registers `f 0` to `f (n - 1)` at `base`, `step` bytes apart. -/
def regArray (o base step n : Nat) (f : Nat → Reg) : Option Reg :=
  if base ≤ o ∧ o < base + step * n ∧ (o - base) % step = 0 then some (f ((o - base) / step)) else none

/-- The first register found. -/
def firstReg (l : List (Option Reg)) : Option Reg := l.findSome? id

def one (o at_ : Nat) (r : Reg) : Option Reg := if o = at_ then some r else none

/-- A CVU block (15). -/
def cvuReg (u o : Nat) : Option Reg :=
  if o < 0x80 then
    let c := o / 0x40
    match o % 0x40 with
    | 0x00 => some (.cvuCtl u c)
    | 0x04 => some (.cvuFeed u c 1)
    | 0x08 => some (.cvuFeed u c 2)
    | 0x0C => some (.cvuFeed u c 4)
    | 0x10 => some (.cvuResult u c 0)
    | 0x14 => some (.cvuResult u c 1)
    | 0x18 => some (.cvuStatus u c)
    | _ => none
  else match o with
    | 0x80 => some (.scanAddr u 0)
    | 0x84 => some (.scanAddr u 1)
    | 0x88 => some (.scanLen u)
    | 0x8C => some (.scanCtrl u)
    | 0x90 => some (.scanResult u 0)
    | 0x94 => some (.scanResult u 1)
    | 0x98 => some (.scanStatus u)
    | _ => none

/-- The Pregus blocks (02, 11, 13, 14, 17, 18, 19). -/
def pregusReg (block o : Nat) : Option Reg :=
  match block with
  | 0 => firstReg [one o 0 .txnCtrl, one o 4 .txnStatus, regArray o 0x08 4 2 .txnAddr, regArray o 0x10 4 3 .txnWhen,
      one o 0x100 .imgStatus, one o 0x104 .imgConflict, one o 0x108 .ctxMode]
  | 1 => firstReg [one o 0 .updCtrl, one o 4 .updStatus]
  | 2 => firstReg [one o 0 .secCtrl, one o 4 .secStatus, regArray o 0x10 4 8 .secNonce, regArray o 0x30 4 8 .secChal,
      regArray o 0x50 4 2 .secReport]
  | 3 => firstReg [one o 0 .safStatus, one o 4 .safCtrl, one o 8 .safLastcmp, one o 0xC .safCounts, one o 0x40 .ashStatus,
      regArray o 0x48 4 2 .ashHead, regArray o 0x50 4 2 .ashSel, regArray o 0x80 4 16 .ashData]
  | 4 => firstReg [one o 0 .tbCtrl, one o 4 .tbStatus, regArray o 0x08 4 2 .tbIncr, regArray o 0x10 4 4 .tbSnap,
      regArray o 0x20 4 3 .tbSet, regArray o 0x30 4 2 .tbReepoch, regArray o 0x100 4 16 (fun k => .tbCap (k / 4) (k % 4))]
  | 5 => firstReg [regArray o 0x40 4 4 .ethTslat, regArray o 0x200 0x10 4 (fun m => .hpCb m 0), regArray o 0x204 0x10 4 (fun m => .hpCb m 1),
      regArray o 0x208 0x10 4 .hpDb, regArray o 0x20C 0x10 4 .hpStatus]
  | 6 => regArray o 0x100 4 4 .rngMac
  | 7 => cvuReg 16 o
  | 9 => regArray o 0x100 4 12 .iocfg
  | 10 => regArray o 0x100 4 4 .prgSens
  | _ => none

/-- The blocks of die `d` (01, 04, 11, 12, 16, 18, 19). -/
def dieReg (d block o : Nat) : Option Reg :=
  match block with
  | 0 => firstReg [one o 0x10 (.topo d), one o 0x200 (.recovCtrl d), one o 0x204 (.recovStatus d), regArray o 0x208 4 2 (.dumpBase d),
      one o 0x210 (.ctrlProc d), one o 0x220 (.kill d), regArray o 0x224 4 4 (.killCarve d), regArray o 0x300 4 20 (.slotState d),
      regArray o 0x400 4 20 (.aging d)]
  | 1 => one o 0 (.peatErr d)
  | 2 => regArray o 0 0x100 3 (.chStatus d)
  | 3 => firstReg [regArray o 0x400 8 32 (.camHealth d), regArray o 0x404 8 32 (.camOk d), one o 0x800 (.decCtrl d)]
  | 4 => firstReg [regArray o 0x100 4 8 (.fctx d), regArray o 0x200 4 4 (.pipeStatus d), regArray o 0x210 4 4 (.pipeLast d)]
  | 5 => firstReg [one o 0 (.latPort d), one o 0x100 (.latSys d), regArray o 0x200 4 16 (.latRoute d)]
  | 6 => if d = 0 then firstReg [one o 0 .uciLink, one o 4 .uciErr, regArray o 0x10 4 4 .uciEvt, one o 0x20 .uciIrq, one o 0x30 .uciFlash,
      regArray o 0x100 4 16 .mbTx, regArray o 0x140 4 16 .mbRx, one o 0x180 .mbStatus] else none
  | 7 => one o 0 (.clkCtrl d)
  | 8 => firstReg [one o 0 (.dieStatus d), regArray o 0x100 4 24 (.sens d)]
  | _ => none

/-- The register blocks of a region (06, 16). -/
def regionReg (g o : Nat) : Option Reg :=
  firstReg [one o 0 (.rgnState g), one o 0x200 (.rngCtrl g), regArray o 0x204 4 2 (.rngSeed g), regArray o 0x20C 4 2 (.rngTab g)]

/-- The register block of a tile (03, 04, 05, 07, 16). -/
def tileReg (t o : Nat) : Option Reg :=
  firstReg [one o 0x40 (.missed t), one o 0x44 (.msgdrop t), one o 0x80 (.memErr t), one o 0x84 (.memAddr t), one o 0x100 (.arrCtrl t),
    one o 0x104 (.arrStatus t), one o 0x108 (.arrRepair t), one o 0x10C (.arrLastop t), one o 0x110 (.arrBusy t), one o 0x140 (.tagErr t),
    one o 0x144 (.tagCmd t), one o 0x148 (.tagBlk t), one o 0x180 (.wdog t), regArray o 0x10000 4 512 (.qstate t),
    regArray o 0x10800 4 512 (.qctrl t)]

/-- The register at an offset of the register region; none for a reserved offset, or a unit that the part does not have (DEDUCED,
assumption 51: its offsets are taken as reserved). -/
def regAt (p : Part) (o : Nat) : Option Reg :=
  if o % 4 ≠ 0 then none
  else if o < 0x1000000 then pregusReg (o / 0x10000) (o % 0x10000)
  else if o < 0x2000000 then
    let d := (o - 0x1000000) / 0x400000
    let r := o % 0x400000
    if r < 0x100000 then dieReg d (r / 0x10000) (r % 0x10000)
    else if r < 0x200000 then
      let c := 4 * d + (r - 0x100000) / 0x40000
      let x := r % 0x40000
      if p.clusters ≤ c then none
      else if x < 0x30000 then regArray x 0x20000 4 2048 (.cluSync c) else cvuReg c (x - 0x30000)
    else if r < 0x220000 then
      let g := 2 * d + (r - 0x200000) / 0x10000
      if p.regions ≤ g then none else regionReg g (r % 0x10000)
    else none
  else
    let t := (o - 0x2000000) / 0x20000
    if p.tiles ≤ t then none else tileReg t ((o - 0x2000000) % 0x20000)

/-! ### Reset domains (R409, R467) -/

/-- The unit whose fence closes a register. -/
inductive RegUnit where
  | tile (t : Nat)
  | cluster (c : Nat)
  | region (g : Nat)
  | die (d : Nat)
  | package
deriving DecidableEq, Repr

/-- The reset domain of a register: its unit (R409; DEDUCED, a register of the package domain stays open on a die in reset,
assumption 52). -/
def Reg.unit : Reg → RegUnit
  | .missed t | .msgdrop t | .memErr t | .memAddr t | .arrCtrl t | .arrStatus t | .arrRepair t | .arrLastop t | .arrBusy t
  | .tagErr t | .tagCmd t | .tagBlk t | .wdog t | .qstate t _ | .qctrl t _ => .tile t
  | .cluSync c _ => .cluster c
  | .rngCtrl g | .rngSeed g _ | .rngTab g _ => .region g
  | .cvuCtl u _ | .cvuFeed u _ _ | .cvuResult u _ _ | .cvuStatus u _ | .scanAddr u _ | .scanLen u | .scanCtrl u | .scanResult u _
  | .scanStatus u => if u = 16 then .package else .cluster u
  | .aging d _ | .peatErr d | .chStatus d _ | .camHealth d _ | .camOk d _ | .decCtrl d | .fctx d _ | .pipeStatus d _ | .pipeLast d _
  | .clkCtrl d | .dieStatus d => .die d
  | .sens d _ => if d = 4 then .package else .die d
  | _ => .package

/-- The die of a unit. -/
def RegUnit.dieOf : RegUnit → Nat
  | .tile t => dieOfTile t
  | .cluster c => c / 4
  | .region g => g / 2
  | .die d => d
  | .package => 0

/-- The unit takes register accesses (R409). -/
def State.unitOpen (s : State) : RegUnit → Bool
  | .tile t => s.tileOpen t
  | .cluster c => s.clusterOpen c
  | .region g => s.regionOpen g
  | .die d => s.dieOpen d
  | .package => true

/-! ### Reads -/

/-- The 3-bit code of a state (R404). -/
def UnitState.code : UnitState → Nat
  | .inService => 0 | .fencing => 1 | .fenced => 2 | .suspect => 3 | .resetting => 4 | .testing => 5 | .retired => 6 | .off => 7

/-- An instant as the words of CTX_TXN_WHEN. -/
def whenWord (t : Instant) (i : Nat) : Nat :=
  let ns := t / perNs
  match i with
  | 0 => ns % 10 ^ 9
  | 1 => ns / 10 ^ 9 % 2 ^ 32
  | _ => ns / 10 ^ 9 / 2 ^ 32 % 2 ^ 16

/-- CTX_MODE. -/
def State.readMode (s : State) : Nat :=
  let m := s.mode
  let missing2 := ((s.beat.missOrder.filter (fun g => some g != s.beat.missing)).min?).getD 0xF
  let two := if 2 ≤ s.beat.missOrder.length then missing2 else 0xF
  let pend := s.modePending
  if s.image.isNone then 0xFF000
  else two * 2 ^ 16 + s.missingCode * 2 ^ 12 + atBit (m.input == 2) 10 + m.safety % 4 * 2 ^ 8 + atBit (m.balance == 1) 7 +
    atBit (m.determinism == 2) 6 + s.ctx.mode % 4 * 16 + pend.getD 0 * 4 + atBit pend.isSome 1 + 1

/-- The unit that a transaction entry names by its target's block (R435): none for a Pregus block. -/
def Reg.block (r : Reg) : RegUnit :=
  match r with
  | .topo d | .recovCtrl d | .recovStatus d | .dumpBase d _ | .ctrlProc d | .kill d | .killCarve d _ | .slotState d _ | .latPort d
  | .latSys d | .latRoute d _ => .die d
  | .uciLink | .uciErr | .uciEvt _ | .uciIrq | .uciFlash | .mbTx _ | .mbRx _ | .mbStatus => .die 0
  | _ => r.unit

/-- The units that an entry names (R435): those of its TARGET, or of an ACTIVATE mask. -/
def TxnEntry.units (p : Part) (e : TxnEntry) : List RegUnit :=
  match e.op with
  | 1 => match regAt p e.target with
    | some r => if r.block = .package then [] else [r.block]
    | none => []
  | 4 => ((List.range 4).filter (fun d => bit e.value.toNat (d + 1))).map RegUnit.die ++
      ((List.range 8).filter (fun g => bit e.value.toNat (g + 6))).map RegUnit.region
  | _ => []

/-- The dies that own entries of a transaction, beside the Pregus die (R435; DEDUCED, assumption 43: the Pregus die votes yes). -/
def Txn.owners (p : Part) (t : Txn) : List Nat :=
  (List.range 4).filter fun d => t.entries.any fun e => (e.units p).any fun u => u.dieOf == d

/-- Every vote is in. -/
def Txn.prepared (p : Part) (t : Txn) : Bool := (t.owners p).all fun d => t.voted.any fun v => v.1 == d

/-- CTX_TXN_STATUS. -/
def State.readTxnStatus (s : State) : Nat :=
  s.ctx.txnLast.toNat * 2 ^ 24 + (match s.ctx.txn with
    | some t => atBit t.decision.isSome 2 + atBit (t.prepared s.part) 1 + 1
    | none => 0)

/-- SEC_STATUS. -/
def State.readSecStatus (s : State) : Nat :=
  s.sec.last.toNat * 2 ^ 24 + s.sec.bootStatus.toNat * 2 ^ 16 + s.sec.debugLevel.toNat * 2 ^ 14 + atBit s.sec.vehicleLock 13 +
    atBit s.sec.rackEn 12 + s.revokedBits

/-- SAF_STATUS (R366 to R370). -/
def State.readSaf (s : State) : Nat :=
  let f := s.saf
  atBit f.req 31 + atBit f.safeARb 30 + atBit f.safeBRb 29 + atBit (s.isBench && f.req) 28 + f.firstSev.toNat * 2 ^ 16 +
    f.last.toNat * 2 ^ 8 + min 3 (f.hist.takeWhile id).length * 64 + ((f.hist.take s.img.safety.m).filter id).length % 64

/-- TB_STATUS. -/
def TimeBase.status (x : TimeBase) : Nat :=
  x.last.toNat * 2 ^ 24 + x.epoch.toNat * 2 ^ 16 + atBit x.capOvf 7 + atBit x.reepochAt.isSome 6 + atBit x.holdover 5 + atBit x.valid 4 +
    atBit x.locked 3 + atBit x.stepped 2

/-- DIE_TOPO (R1, R15, R30). -/
def State.readTopo (s : State) (d : Nat) : Nat :=
  let active := fun r => decide (2 * d + r < s.part.regions) && !(s.regionMissing (2 * d + r))
  let ember := fun c => decide (4 * d + c < s.part.clusters) && (SMap.get [0, 1, 2, 3] s.repair.slotOf (4 * d + c)).contains 4
  s.stepping.code * 2 ^ 20 + s.part.code * 2 ^ 16 + atBit (active 0) 8 + atBit (active 1) 9 +
    (((List.range 4).map fun c => atBit (ember c) (4 + c)).foldl (· + ·) 0) + atBit (d % 2 == 0) 3 + d

/-- DIE_SLOT_STATE. -/
def State.readSlot (s : State) (p : Nat) : Nat :=
  let u := (s.slot p).u
  let spare := !(u.hostView.gone) && (s.tileOfSlot p).isNone
  u.hostView.code * 2 ^ 29 + atBit spare 28 + (if u.hostView.gone then 0 else (s.tileOfSlot p).getD 0) * 2 ^ 22 + u.cause % 512 * 2 ^ 13 +
    u.genHost.toNat

/-- RGN_STATE. -/
def State.readRgn (s : State) (g : Nat) : Nat :=
  let u := s.rgnUnit g
  u.hostView.code * 2 ^ 29 + (s.cluUnit (2 * g + 1)).hostView.code * 2 ^ 26 + (s.cluUnit (2 * g)).hostView.code * 2 ^ 23 + u.cause % 512 * 2 ^ 14 +
    atBit u.permanent 13 + u.genHost.toNat

/-- Banks of a Peat, and the spare rows of each (R137). -/
def State.readPeat (s : State) (d : Nat) : Nat :=
  let x := (s.die d).peat
  let used := (x.rowsUsed.map (·.2)).foldl max 0
  let base := peatBase + d * peatSize
  let dirty := s.peatDirty.any fun e => decide (base ≤ e.1 * 64 ∧ e.1 * 64 < base + peatSize)
  x.last.toNat * 2 ^ 24 + x.ue.toNat * 2 ^ 16 + (32 - used) * 2 ^ 8 + (2 - x.banksUsed) * 64 + atBit dirty 0

/-- DRAM_CH_STATUS. -/
def ChanSt.read (x : ChanSt) : Nat :=
  x.last.toNat * 2 ^ 24 + x.linkRetry.toNat * 2 ^ 16 + x.ue.toNat * 2 ^ 8 + x.density.toNat * 32 + atBit x.refresh2x 4 +
    atBit x.pprPending 3 + atBit x.trainFail 2 + atBit x.trained 1 + atBit x.populated 0

/-- A camera's registers are in the block of the die that carries its receiver. -/
def State.camOn (s : State) (d n : Nat) : Bool := s.img.cameraBinds.any fun b => b.camera == n && b.receiver / 2 == d

/-- THM_SENS. -/
def SensSt.read (x : SensSt) : Nat := x.temp.toNat * 2 ^ 21 + x.volt.toNat * 2 ^ 10 + atBit x.valid 0

/-- LAT_SYS. -/
def LatSt.readSys (l : LatSt) : Nat :=
  atBit l.numbered 31 + l.topo.toNat * 2 ^ 28 + l.chip.toNat * 2 ^ 24 + l.fmChip.toNat * 2 ^ 20 + l.timeMaster.toNat * 2 ^ 16 +
    l.countM1.toNat * 2 ^ 12

/-- PWR_CLKCTRL: MOD and SSC_OFF as last written. -/
def State.readClk (s : State) (d : Nat) : Nat :=
  let x := s.die d
  let v := x.clkPending.getD (x.clkMod, x.sscOff)
  s.fMin % 4096 * 16 + atBit x.clkWerr 3 + v.1.toNat * 2 + atBit v.2 0

/-- THM_DIE_STATUS. -/
def State.readThm (s : State) (d : Nat) : Nat :=
  let x := s.die d
  x.tjMax.toNat * 2 ^ 21 + x.fNom % 4096 * 2 ^ 9 + atBit x.bad3 4 + atBit x.overFlag 3 + atBit (x.fNom == s.fMin && decide (x.fNom < 1000)) 2 +
    atBit (decide (x.fNom < 1000)) 1 + atBit x.tripped 0

/-- TIL_ARR_STATUS. -/
def State.readArrStatus (s : State) (t : Nat) : Nat :=
  let x := s.tile t
  let r := ArrRepair.ofWord (s.slot (s.slotOfTile t)).repair.toNat
  let n := s.engineLoad t 0
  let free := fun (o : Option Nat) (bad : Bool) => if o.isNone && !bad then 1 else 0
  x.resCol.toNat * 2 ^ 20 + atBit x.residueErr 15 + atBit x.repairWerr 14 + n % 4 * 2 ^ 12 + atBit (n == 0) 11 + atBit (x.hold && n == 0) 10 +
    (free r.a r.aBad + free r.b r.bBad) * 2 ^ 8 + free r.c r.cBad * 2 ^ 7 + atBit x.lNan 3 + atBit x.lInf 2 + atBit x.lTrunc 1 + atBit x.lXasat 0

/-- TIL_QSTATE. -/
def QueueSt.read (x : QueueSt) : Nat :=
  atBit x.err 31 + atBit x.wait 30 + min 7 x.inflight.length * 2 ^ 27 + atBit x.dberr 26 + x.credit.toNat * 2 ^ 16 + x.head.toNat

/-- ISP_FCTX. -/
def FctxSt.read (f : FctxSt) : Nat :=
  atBit f.arm 31 + atBit f.armBank 30 + atBit f.active 29 + atBit f.hasParams 28 + atBit f.armErr 27 + f.errCause.toNat * 2 ^ 24 +
    leAt f.bank 0 2

/-- ISP_PIPE_STATUS. -/
def PipeSt.readStatus (x : PipeSt) : Nat :=
  atBit x.cur.isSome 31 + atBit (x.cur.any fun j => j.facet == 1) 30 + atBit x.waitFree 29 + x.frames.toNat

/-- Word `i` of a 64-bit value. -/
def wordOf (x i : Nat) : Nat := x / 2 ^ (32 * i) % 2 ^ 32

/-- What a read of a register returns; WO and reserved bits read 0 (R5). -/
def State.readReg (s : State) (r : Reg) : Nat :=
  match r with
  | .txnCtrl => atBit s.ctx.byBeat 2
  | .txnStatus => s.readTxnStatus
  | .txnAddr i => if i = 0 then s.ctx.addrLo.toNat else s.ctx.addrHi.toNat
  | .txnWhen i => if i = 0 then s.ctx.when0.toNat else if i = 1 then s.ctx.when1.toNat else s.ctx.when2.toNat
  | .imgStatus => s.ctx.imgStatus.toNat * 2 ^ 24 + s.ctx.imgSection.toNat * 2 ^ 16 + s.ctx.imgStep.toNat * 2 ^ 12 +
      atBit s.ctx.fallback 2 + atBit s.ctx.slot 1 + atBit s.image.isSome 0
  | .imgConflict => s.ctx.conflict.toNat
  | .ctxMode => s.readMode
  | .updCtrl => s.upd.ctrl.toNat
  | .updStatus => atBit s.updBusy 31 + atBit s.upd.hitless 30 + s.upd.last.toNat * 2 ^ 22 + s.upd.staged.toNat
  | .secCtrl => s.sec.comp.toNat * 64
  | .secStatus => s.readSecStatus
  | .secNonce i => (SMap.get 0 s.sec.nonce i).toNat
  | .secChal i => leAt s.sec.challenge (4 * i) 4
  | .secReport i => if i = 0 then s.sec.reportLo.toNat else s.sec.reportHi.toNat
  | .safStatus => s.readSaf
  | .safCtrl => atBit s.saf.releasePend 0
  | .safLastcmp => s.saf.cmp % 4 * 2 ^ 30 + atBit s.saf.counted 29 + s.saf.row % 8 * 2 ^ 26 + s.saf.uC % 4096 * 2 ^ 12 + s.saf.uM % 4096
  | .safCounts => s.saf.chkOnly.toNat * 2 ^ 16 + s.saf.mainOnly.toNat
  | .ashStatus => atBit s.ash.rdBusy 31 + atBit s.ash.rdGone 30 + atBit s.ash.rdFlash 29
  | .ashHead i => wordOf s.ash.head.toNat i
  | .ashSel i => if i = 0 then s.ash.selLo.toNat else s.ash.selHi.toNat
  | .ashData i => leAt s.ash.data (4 * i) 4
  | .tbCtrl => 0
  | .tbStatus => s.tb.status
  | .tbIncr i => wordOf s.tb.incr.toNat i
  | .tbSnap i => match i with
    | 0 => s.tb.snap0.toNat
    | 1 => s.tb.snap1.toNat
    | 2 => s.tb.snap2.toNat
    | _ => s.tb.snap3.toNat
  | .tbSet i => if i = 0 then s.tb.set0.toNat else if i = 1 then s.tb.set1.toNat else s.tb.set2.toNat
  | .tbReepoch i => wordOf s.tb.reepoch.toNat i
  | .tbCap n i => s.capWord n i
  | .ethTslat m => (SMap.get 0 s.tb.tslat m).toNat
  | .hpCb m i => if i = 0 then (s.hpath m).cbLo.toNat else (s.hpath m).cbHi.toNat
  | .hpDb _ => 0
  | .hpStatus m => atBit (s.hpath m).enabled 31 + (s.hpath m).last.toNat * 2 ^ 16 + (s.hpath m).rxDrop.toNat
  | .rngMac m => (s.mac m).dropFull.toNat * 2 ^ 24 + (s.mac m).noMatch.toNat * 2 ^ 16 + (s.mac m).late.toNat * 2 ^ 8 + atBit (s.mac m).seen 0
  | .cvuCtl _ _ | .cvuFeed _ _ _ => 0
  | .cvuResult u c i => wordOf ((s.cvuOf u).ctx c).result i
  | .cvuStatus u c => let x := (s.cvuOf u).ctx c
    atBit x.werr 13 + atBit x.ovf 12 + x.poly.toNat * 2 ^ 8 + x.fifo.length % 32
  | .scanAddr u i => wordOf (s.cvuOf u).scanAddr.toNat i
  | .scanLen u => (s.cvuOf u).scanLen.toNat
  | .scanCtrl u => (s.cvuOf u).scanPoly.toNat * 16
  | .scanResult u i => wordOf (s.cvuOf u).result.toNat i
  | .scanStatus u => let x := s.cvuOf u
    atBit x.busy 31 + atBit x.werr 30 + x.count.toNat * 2 ^ 16 + x.lastStatus.toNat * 2 ^ 8
  | .iocfg t => (match SMap.get none s.tb.iocfgHeld t with | some v => v | none => SMap.get 0x5 s.tb.iocfg t).toNat
  | .prgSens i => (SMap.get {} s.prgSens i).read
  | .topo d => s.readTopo d
  | .recovCtrl d => (s.die d).recovCtrl.toNat
  | .recovStatus d => atBit (s.recovBusy d) 31 + (s.die d).recovLast.toNat * 2 ^ 16 + ((s.die d).dumpSeq - 1).toNat % 256 * 2 ^ 8 *
      (if (s.die d).dumpSeq = 0 then 0 else 1) + (s.die d).drops.toNat
  | .dumpBase d i => if i = 0 then (s.die d).dumpLo.toNat else (s.die d).dumpHi.toNat
  | .ctrlProc d => atBit (s.die d).bRetired 9 + atBit (s.die d).aRetired 8 + (s.die d).swaps.toNat * 2 + atBit (s.die d).serving 0
  | .kill d => (s.die d).kill.toNat
  | .killCarve d i => (SMap.get 0xFFFFFFFF (s.die d).killCarve i).toNat
  | .slotState d i => s.readSlot (20 * d + i)
  | .aging d i => (s.slot (20 * d + i)).drift.toNat * 2 ^ 16 + atBit (s.slot (20 * d + i)).retire 1 + atBit (s.slot (20 * d + i)).warn 0
  | .peatErr d => s.readPeat d
  | .chStatus d c => (s.chan (3 * d + c)).read
  | .camHealth d n => if s.camOn d n then let c := s.cam n
      c.stale.toNat * 2 ^ 24 + c.fault.toNat * 2 ^ 16 + c.skip.toNat * 2 ^ 8 + c.lost.toNat else 0
  | .camOk d n => if s.camOn d n then (s.cam n).ok.toNat else 0
  | .decCtrl d => atBit (s.die d).dec.err 31 + (s.die d).dec.head.toNat * 2 ^ 16 + (s.die d).dec.tail.toNat
  | .fctx d i => (s.facet (8 * d + i)).read
  | .pipeStatus d n => (s.pipe (4 * d + n)).readStatus
  | .pipeLast d n => (s.pipe (4 * d + n)).durUs.toNat * 2 ^ 16 + (s.pipe (4 * d + n)).lastFrame.toNat
  | .latPort d => let p := s.port d
    p.state.toNat * 2 ^ 29 + p.retrains.toNat * 2 ^ 16 + p.replays.toNat * 2 ^ 8 + p.drops.toNat
  | .latSys _ => s.lat.readSys
  | .latRoute _ c => (SMap.get 0x7777 s.lat.routes c).toNat
  | .uciLink => s.link.rate.toNat * 2 ^ 24 + s.link.mods.toNat * 2 ^ 20 + s.link.retrains.toNat * 2 ^ 8 + s.link.replays.toNat
  | .uciErr => s.link.errLast.toNat * 2 ^ 24 + s.link.poisoned.toNat * 2 ^ 16 + s.link.aborts.toNat * 2 ^ 8 + s.link.drops.toNat
  | .uciEvt i => s.link.evtWord i
  | .uciIrq => atBit s.link.ovf 31 + s.link.events.length % 2048 * 2 ^ 16 + s.link.lost.toNat * 2 ^ 8 + s.link.ringLog2.toNat
  | .uciFlash => atBit s.link.flBusy 29 + atBit s.link.flOpened 28 + s.link.flSlot.toNat * 2 ^ 24 + s.link.flLast.toNat * 2 ^ 16 +
      s.link.flDrops.toNat
  | .mbTx _ => 0
  | .mbRx i => s.link.mbRxWord i
  | .mbStatus => atBit s.mbBusy 31 + s.link.mbLast.toNat * 2 ^ 8 + s.link.mbRx.length % 128
  | .clkCtrl d => s.readClk d
  | .dieStatus d => s.readThm d
  | .sens d i => (SMap.get {} (s.die d).sens i).read
  | .cluSync c n => (s.syncCount c n).toNat
  | .rngCtrl g => atBit (s.region g).rngWerr 1 + atBit (s.region g).rngValid 0
  | .rngSeed g i => wordOf (s.region g).seed.toNat i
  | .rngTab g i => wordOf (s.region g).tab.toNat i
  | .rgnState g => s.readRgn g
  | .missed t => (s.tile t).missed.toNat
  | .msgdrop t => (s.tile t).msgdrop.toNat
  | .memErr t => (s.tile t).ceCount.toNat * 2 ^ 16 + (s.tile t).ueCount.toNat * 2 ^ 8 + (s.tile t).memLast.toNat
  | .memAddr t => (s.tile t).memAddr.toNat
  | .arrCtrl t => atBit (s.tile t).residue 2 + atBit (s.tile t).hold 1
  | .arrStatus t => s.readArrStatus t
  | .arrRepair t => (s.slot (s.slotOfTile t)).repair.toNat
  | .arrLastop t => (s.tile t).lastOp.toNat
  | .arrBusy t => (s.tile t).busy.toNat
  | .tagErr t => (s.tile t).tagErr.toNat
  | .tagCmd t => (s.tile t).tagCmd.toNat
  | .tagBlk t => (s.tile t).tagBlk.toNat
  | .wdog t => (s.tile t).hangMult.toNat * 2 ^ 28 + (s.tile t).limit.toNat * 2 ^ 14 + (s.tile t).aborts.toNat
  | .qstate t l => (s.queue (512 * t + l)).read
  | .qctrl t l => atBit (s.queue (512 * t + l)).discard 30 + atBit (s.queue (512 * t + l)).resumeErr 29

end Sys2Proof.Machine
end

