-- ==== Sys2Proof/Machine/RegWrite.lean ====
section
/-! DEFINITION. Writes of RW fields (R4, R5), as the host, a Die Controller or a transaction makes them, and what a transaction may
write (R431). -/

namespace Sys2Proof.Machine

/-- Bits of `w` under `mask`, the others from `old`. -/
def mergeWord (old w mask : Nat) : Nat := ((BitVec.ofNat 32 old &&& ~~~(BitVec.ofNat 32 mask)) ||| (BitVec.ofNat 32 w &&& BitVec.ofNat 32 mask)).toNat

/-- Word `i` of a wider value replaced. -/
def putWord {n : Nat} (x : BitVec n) (i w : Nat) : BitVec n :=
  BitVec.ofNat n (x.toNat - wordOf x.toNat i * 2 ^ (32 * i) + w % 2 ^ 32 * 2 ^ (32 * i))

/-- The layout of an address pair: bits 31:6 in word 0, bits 47:32 in word 1. -/
def addrWord (i w : Nat) : Word := BitVec.ofNat 32 (if i = 0 then w / 64 * 64 else w % 2 ^ 16)

/-- RGN_RNG_SEED and RGN_RNG_TAB: taken only while VALID is 0, else ignored with WERR (R188). -/
def State.writeRng (s : State) (g : Nat) (f : RegionSt → RegionSt) : State :=
  s.updRegion g (fun x => if x.rngValid then { x with rngWerr := true } else f x)

/-- DIE_DUMP_BASE: ignored while BUSY is 1 (R414). -/
def State.writeDumpBase (s : State) (d i v : Nat) : State :=
  if s.recovBusy d then s
  else if i = 0 then s.updDie d (fun x => { x with dumpLo := BitVec.ofNat 32 (v / 2 ^ 21 * 2 ^ 21 + v % 2) })
  else s.updDie d (fun x => { x with dumpHi := BitVec.ofNat 32 (v % 2 ^ 16) })

/-- LAT_SYS on die 0: CHIP only where the write covers it (R479). -/
def LatSt.writeSysMasked (l : LatSt) (v mask : Nat) : LatSt :=
  if fld mask 27 24 = 0 then { l.writeSys v with chip := l.chip, numbered := l.numbered } else l.writeSys v

/-- The RW fields of a register take the bits of `w` under `mask` (R5); RO and reserved bits ignore them. Fields that only the Die
Controller writes take nothing from another agent (R165, R405). -/
def State.writeRw (s : State) (agent : Agent) (r : Reg) (w mask : Nat) : State :=
  let v := mergeWord (s.readReg r) w mask
  let dc := agent == .dieController
  match r with
  | .txnCtrl => s.updCtx (fun c => { c with byBeat := bit v 2 })
  | .txnAddr i => s.updCtx (fun c => if i = 0 then { c with addrLo := addrWord 0 v } else { c with addrHi := addrWord 1 v })
  | .txnWhen i => s.updCtx (fun c =>
      if i = 0 then { c with when0 := BitVec.ofNat 32 v } else if i = 1 then { c with when1 := BitVec.ofNat 32 v } else { c with when2 := BitVec.ofNat 32 v })
  | .updCtrl => s.updUpd (fun x => { x with ctrl := BitVec.ofNat 32 (fld v 30 28 * 2 ^ 28 + fld v 19 16 * 2 ^ 16) })
  | .secCtrl => s.updSec (fun x => { x with comp := BitVec.ofNat 2 (fld v 7 6) })
  | .secNonce i => s.updSec (fun x => { x with nonce := SMap.set 0 x.nonce i (BitVec.ofNat 32 v) })
  | .secReport i => s.updSec (fun x => if i = 0 then { x with reportLo := addrWord 0 v } else { x with reportHi := addrWord 1 v })
  | .ashSel i => s.updAsh (fun a => if i = 0 then { a with selLo := BitVec.ofNat 32 v } else { a with selHi := BitVec.ofNat 32 v })
  | .tbIncr i =>
      if i = 0 then s.updTb (fun tb => { tb with incrHeld := BitVec.ofNat 32 v })
      else s.writeIncr (s.tb.incrHeld.toNat + v % 16 * 2 ^ 32)
  | .tbSet i => s.updTb (fun tb =>
      if i = 0 then { tb with set0 := BitVec.ofNat 32 v } else if i = 1 then { tb with set1 := BitVec.ofNat 32 v } else { tb with set2 := BitVec.ofNat 32 v })
  | .tbReepoch i => s.updTb (fun tb => { tb with reepoch := putWord tb.reepoch i v })
  | .ethTslat m => s.updTb (fun tb => { tb with tslat := SMap.set 0 tb.tslat m (BitVec.ofNat 32 v) })
  | .hpCb m i => if i = 0 then s.writeCbLo m (BitVec.ofNat 32 v) else s.writeCbHi m (BitVec.ofNat 32 v)
  | .scanAddr u i => s.updCvu u (fun x => { x with scanAddr := putWord x.scanAddr i (if i = 0 then v / 64 * 64 else v % 2 ^ 16) })
  | .scanLen u => s.updCvu u (fun x => { x with scanLen := BitVec.ofNat 32 (v / 64 * 64) })
  | .scanCtrl u => s.updCvu u (fun x => { x with scanPoly := BitVec.ofNat 3 (fld v 6 4) })
  | .iocfg t => s.writeIocfg t v
  | .recovCtrl d => s.updDie d (fun x => { x with recovCtrl := BitVec.ofNat 32 (fld v 30 26 * 2 ^ 26 + fld v 23 16 * 2 ^ 16) })
  | .dumpBase d i => s.writeDumpBase d i v
  | .kill d => s.updDie d (fun x => { x with kill := BitVec.ofNat 32 (v % 2 ^ 9) })
  | .killCarve d i => s.updDie d (fun x => { x with killCarve := SMap.set 0xFFFFFFFF x.killCarve i (BitVec.ofNat 32 v) })
  | .decCtrl d => if fld mask 14 0 = 0 then s else s.writeDecTail d v
  | .fctx d i => s.updFacet (8 * d + i) (fun f => { f with armBank := bit v 30 })
  | .latSys d => if d = 0 then s.updLat (fun l => l.writeSysMasked v mask) else s
  | .latRoute d c => if d = 0 then s.updLat (fun l => l.writeRoute c v) else s
  | .uciIrq => if 21 ≤ v % 32 ∧ v % 32 < 31 then s else s.updLink (fun l => { l with ringLog2 := BitVec.ofNat 5 v })
  | .uciFlash => s.updLink (fun l => { l with flSlot := BitVec.ofNat 3 (fld v 26 24) })
  | .clkCtrl d => if mask % 8 = 0 then s else s.updDie d (fun x => x.writeClk s.vehicleLoaded (v % 8))
  | .rngCtrl g => s.updRegion g (fun x => { x with rngValid := bit v 0 })
  | .rngSeed g i => s.writeRng g (fun x => { x with seed := putWord x.seed i v })
  | .rngTab g i => s.writeRng g (fun x => { x with tab := putWord x.tab i (if i = 0 then v / 8 * 8 else v % 2 ^ 16) })
  | .arrCtrl t => if dc then s.updTile t (fun x => { x with residue := bit v 2, hold := bit v 1 }) else s
  | .arrRepair t => s.writeRepair agent t v
  | .wdog t => if dc then s.updTile t (fun x => { x with hangMult := if fld v 31 28 = 0 then x.hangMult else BitVec.ofNat 4 (fld v 31 28), limit := BitVec.ofNat 14 (fld v 27 14) }) else s
  | .qctrl t l => s.updQueue (512 * t + l) (fun x => { x with discard := bit v 30 })
  | _ => s

/-! ### What a transaction may write (R431) -/

/-- RW bits that a transaction may write; 0 for a register that R431 excludes or that has no RW field. -/
def Reg.txnBits : Reg → Nat
  | .ethTslat _ => 0xFFFFFFFF
  | .hpCb _ i => if i = 0 then 0xFFFFFFC1 else 0xFFFF
  | .iocfg _ => 0xF
  | .dumpBase _ i => if i = 0 then 0xFFE00001 else 0xFFFF
  | .decCtrl _ => 0x7FFF
  | .fctx _ _ => 0x40000000
  | .latSys d => if d = 0 then 0x7FFFF000 else 0
  | .latRoute d _ => if d = 0 then 0xFFFF else 0
  | .uciIrq => 0x1F
  | .uciFlash => 0x07000000
  | .clkCtrl _ => 0x7
  | .rngCtrl _ => 1
  | .rngSeed _ _ => 0xFFFFFFFF
  | .rngTab _ i => if i = 0 then 0xFFFFFFFF else 0xFFFF
  | .qctrl _ _ => 0x40000000
  | _ => 0

/-- Bits of the fields that R431 excludes from such a register: W1S and W1C. -/
def Reg.txnBarred : Reg → Nat
  | .fctx _ _ => 0x88000000
  | .uciIrq => 0x80000000
  | .uciFlash => 0xC0000000
  | .clkCtrl _ => 0x8
  | .rngCtrl _ => 0x2
  | .qctrl _ _ => 0xA0000000
  | _ => 0

/-- A WRITE entry with this TARGET and MASK is transactional (R431). -/
def Reg.transactional (r : Reg) (mask : Nat) : Bool :=
  r.txnBits != 0 && (BitVec.ofNat 32 mask &&& BitVec.ofNat 32 r.txnBarred) == 0

end Sys2Proof.Machine
end

