-- ==== Sys2Proof/Machine/Txn.lean ====
section
/-! DEFINITION. Configuration transactions (R431 to R437, R445, R61, R64): COMMIT, ABORT, TXN_VOTE, TXN_DECIDE and TXN_APPLY, and
BEAT_START with the entries that wait for a unit's return. -/

namespace Sys2Proof.Machine

/-! ### The list (R432, R433) -/

/-- One entry of 16 bytes. -/
def parseTxnEntry (b : List Byte) : TxnEntry where
  op := leAt b 0 1
  target := leAt b 4 4
  value := BitVec.ofNat 32 (leAt b 8 4)
  mask := BitVec.ofNat 32 (leAt b 12 4)

/-- The three bytes after OP, which are reserved, are zero. -/
def txnReservedOk (b : List Byte) : Bool := zeroAt b 1 3

/-- CTX_TXN_ADDR. -/
def CtxSt.listAddr (c : CtxSt) : Nat := c.addrLo.toNat / 64 * 64 + c.addrHi.toNat % 2 ^ 16 * 2 ^ 32

/-- Reads `n` bytes of the list, which lies in one carve-out that is open; none when they cannot be read (DESIGN CHOICE, assumption 38: 0x79). -/
def State.readList (s : State) (a n : Nat) : State × Option (List Byte) :=
  let r := s.readOpen a n
  match r.2 with
  | none => (r.1.settle, none)
  | some b => (r.1, some b)

/-- TXN_ID and the entries of the list; none for a CRC or COUNT that fails, or a non-zero reserved byte of an entry. -/
def parseList (h es : List Byte) : Option (Word × List TxnEntry) :=
  let l := chunks 16 es
  if leAt h 60 4 = crc 4 (h.take 60 ++ es) ∧ l.all txnReservedOk then some (BitVec.ofNat 32 (leAt h 0 4), l.map parseTxnEntry) else none

/-- The list at CTX_TXN_ADDR. -/
def State.fetchList (s : State) : State × Option (Word × List TxnEntry) :=
  let a := s.ctx.listAddr
  let h := s.readList a 64
  match h.2 with
  | none => (h.1, none)
  | some hb =>
    let n := leAt hb 4 2
    if n = 0 ∨ 4096 < n then (h.1, none)
    else
      let e := h.1.readList a (64 + 16 * n)
      match e.2 with
      | none => (e.1, none)
      | some b => (e.1, parseList (b.take 64) (b.drop 64))

/-- An entry on its own (R431 to R433). -/
def State.txnEntryOk (s : State) (e : TxnEntry) : Bool :=
  match e.op with
  | 1 => e.target % 4 == 0 && (match regAt s.part e.target with
    | some r => r.transactional e.mask.toNat
    | none => false)
  | 2 => e.target == 0 && e.mask == 0 && s.img.modes.any (fun m => m.modeId == e.value.toNat)
  | 3 => e.target == 0 && e.mask == 0 && e.value == 0
  | 4 => e.target == 0 && e.mask == 0
  | _ => false

/-- Entries of one operation. -/
def countOp (l : List TxnEntry) (op : Nat) : Nat := (l.filter (fun e => e.op == op)).length

/-- The list as a whole (R433): at most one MODE, START and ACTIVATE and not both MODE and ACTIVATE; before the start nothing but a
START, after it none; no MODE while a region is missing (R61). -/
def State.listOk (s : State) (l : List TxnEntry) : Bool :=
  l.all s.txnEntryOk && decide (countOp l 2 ≤ 1 ∧ countOp l 3 ≤ 1 ∧ countOp l 4 ≤ 1 ∧ countOp l 2 + countOp l 4 ≤ 1) &&
    (if s.started then countOp l 3 == 0 else countOp l 3 == l.length) && (countOp l 2 == 0 || s.beat.missOrder == [])

/-! ### ACTIVATE at the commit (R443, R445) -/

/-- The ACTIVATE entry of a list. -/
def activateMask (l : List TxnEntry) : Option Nat := (l.find? (fun e => e.op == 4)).map (fun e => e.value.toNat)

/-- What the image gives a region: TILE_MAP entries, queues and schedule entries. -/
def regionPart (i : Image) (g : Nat) : List TileMapEntry × List QueueAlloc × List (Nat × Nat × List SchedEntry) :=
  ((i.tileMap.drop (8 * g)).take 8, i.queues.filter (fun a => regionOfTile (tileOfQueue a.queue) == g),
    i.schedules.map fun x => (x.modeId, x.inst, x.entries.filter fun e =>
      if e.release then regionOfTile (tileOfQueue e.queue) == g else refCluster e.sync / 2 == g))

/-- Regions that differ between two images (R445). -/
def differingRegions (p : Part) (a b : Image) : List Nat := (List.range p.regions).filter fun g => decide (regionPart a g ≠ regionPart b g)

/-- Why an ACTIVATE is refused, 0 when it is not: 0x7C for an image that is not HITLESS, 0x7D for what is not staged. -/
def State.activateRefusal (s : State) (m : Nat) : Nat :=
  if bit m 5 ∧ s.isStaged 5 ∧ !s.upd.hitless then 0x7C
  else if m = 0 ∨ 2 ^ 14 ≤ m ∨ (List.range 14).any (fun i => bit m i && !(s.isStaged i)) then 0x7D
  else if bit m 5 then
    match s.image, s.upd.image with
    | some a, some b => if (differingRegions s.part a b).all (fun g => s.isStaged (6 + g)) then 0 else 0x7D
    | _, _ => 0x7D
  else 0

/-! ### The instant (R433, R434) -/

/-- CTX_TXN_WHEN as a number of 64 bits. -/
def CtxSt.whenBeat (c : CtxSt) : Nat := c.when0.toNat + c.when1.toNat * 2 ^ 32

/-- CTX_TXN_WHEN as an instant; none for a beat before the start, or NS of 10^9 or more (DEDUCED, assumption 39: 0x7A). -/
def State.whenInstant (s : State) : Option Instant :=
  let c := s.ctx
  if c.byBeat then (if s.started then some (s.beatStart c.whenBeat) else none)
  else
    let ns := c.when0.toNat % 2 ^ 30
    if ns < 10 ^ 9 then some (nsInst ((c.when1.toNat + c.when2.toNat % 2 ^ 16 * 2 ^ 32) * 10 ^ 9 + ns)) else none

/-- The first beat that starts at or after an instant. -/
def State.beatFrom (s : State) (t : Instant) : Nat := ceilDiv ((t : Int) - s.t0).toNat (nsInst s.beatNs)

/-- The first frame that starts at or after an instant. -/
def State.frameFrom (s : State) (t : Instant) : Nat := ceilDiv ((t : Int) - s.t0).toNat (nsInst s.frameNs)

/-- T of a list (R434) and the beat that starts there; for a START before the first step T is still open. -/
def State.txnInstant (s : State) (l : List TxnEntry) (w : Instant) : Option Instant × Option Nat :=
  if countOp l 3 ≠ 0 then (if s.tb.stepped then some w else none, none)
  else
    let n := if countOp l 2 + countOp l 4 ≠ 0 then s.firstBeat (s.frameFrom w) else s.beatFrom w
    (some (s.beatStart n), some n)

/-- CTX_TXN_WHEN reads T after a commit. -/
def CtxSt.showT (c : CtxSt) (t : Instant) (beat : Option Nat) : CtxSt :=
  match c.byBeat, beat with
  | true, some n => { c with when0 := BitVec.ofNat 32 n, when1 := BitVec.ofNat 32 (n / 2 ^ 32), when2 := 0 }
  | _, _ => { c with
      when0 := BitVec.ofNat 32 (whenWord t 0), when1 := BitVec.ofNat 32 (whenWord t 1), when2 := BitVec.ofNat 32 (whenWord t 2) }

/-! ### COMMIT and ABORT (R433, R437) -/

/-- A commit that is refused leaves nothing more pending than before: LAST_STATUS and vector 5. -/
def State.txnRefuse (s : State) (status : Nat) : State := (s.updCtx (fun c => { c with txnLast := BitVec.ofNat 8 status })).msix 5

/-- The checks of a commit that follow those of the list: the instant (0x7A), then an ACTIVATE. -/
def State.txnPlace (s : State) (id : Word) (l : List TxnEntry) : State :=
  match s.whenInstant with
  | none => s.txnRefuse 0x7A
  | some w =>
    if (countOp l 3 = 0 ∨ s.tb.stepped) ∧ !(instantOk s.now w) then s.txnRefuse 0x7A
    else
      let bad := match activateMask l with
        | some m => s.activateRefusal m
        | none => 0
      if bad ≠ 0 then s.txnRefuse bad
      else
        let t := s.txnInstant l w
        s.updCtx (fun c => { c.showT (t.1.getD w) t.2 with
          txnLast := 0
          txn := some { id := id, entries := l, target := t.1, when_ := w, beat := t.2, voted := [], decision := none } })

/-- COMMIT (R433): the list is read and checked before the write completes. -/
def State.commit (s : State) : State :=
  if !s.timeRuns then s
  else if s.ctx.txn.isSome then s.txnRefuse 0x79
  else
    let r := s.fetchList
    match r.2 with
    | none => r.1.txnRefuse 0x79
    | some x => if r.1.listOk x.2 then r.1.txnPlace x.1 x.2 else r.1.txnRefuse 0x79

def execCommit (s : State) : Host.Outcome State Fault Refusal := .next s.commit

/-- ABORT (R437): before the decision it ends the transaction; after it, it is refused with 0x7A; with nothing pending it does nothing
(DEDUCED, assumption 49). -/
def State.txnAbort (s : State) : State :=
  if !s.timeRuns then s
  else match s.ctx.txn with
    | none => s
    | some t => if t.decision.isSome then s.txnRefuse 0x7A else s.txnRollback

def execAbort (s : State) : Host.Outcome State Fault Refusal := .next s.txnAbort

/-! ### The two phases (R435) -/

/-- A unit is IN_SERVICE, with every unit around it (R404). -/
def State.unitServes (s : State) : RegUnit → Bool
  | .tile t => s.tileInService t
  | .cluster c => (s.cluUnit c).state == .inService && (s.rgnUnit (c / 2)).state == .inService && (s.die (c / 4)).u.state == .inService
  | .region g => (s.rgnUnit g).state == .inService && (s.die (g / 2)).u.state == .inService
  | .die d => (s.die d).u.state == .inService
  | .package => true

/-- TXN_VOTE (R435): a die that owns entries votes yes when every unit that its entries name is in service. A die that is in reset or
has no power casts no vote; every vote is due 200 us before T. -/
def State.txnVote (s : State) (d : Nat) : State :=
  match s.ctx.txn with
  | none => s
  | some t =>
    match t.target with
    | none => s
    | some x =>
      if t.decision.isSome ∨ !((t.owners s.part).contains d) ∨ t.voted.any (fun v => v.1 == d) ∨ s.dieDown d ∨ x < s.now + nsInst 200000 then s
      else
        let yes := t.entries.all fun e => (e.units s.part).all fun u => u.dieOf != d || s.unitServes u
        s.updCtx (fun c => { c with txn := some { t with voted := t.voted ++ [(d, yes)] } })

def execTxnVote (die : Nat) (s : State) : Host.Outcome State Fault Refusal := .next (s.txnVote die)

/-- TXN_DECIDE (R435): COMMIT when every vote is yes; ABORT for a no, or for a vote that is still out 200 us before T. A decision that
leaves later than 100 us before T reaches no die (R436; DEDUCED, assumption 45). -/
def State.txnDecide (s : State) : State :=
  match s.ctx.txn with
  | none => s
  | some t =>
    match t.target with
    | none => s
    | some x =>
      let all := t.prepared s.part && t.voted.all (fun v => v.2)
      let out := !(t.prepared s.part) && t.voted.all (fun v => v.2) && decide (s.now + nsInst 200000 ≤ x)
      let late := decide (x < s.now + nsInst 100000)
      if t.decision.isSome ∨ out ∨ x ≤ s.now then s
      else if all ∨ late then s.updCtx (fun c => { c with txn := some { t with decision := some all, late := late } })
      else s.txnRollback

def execTxnDecide (s : State) : Host.Outcome State Fault Refusal := .next s.txnDecide

/-! ### What applies at T (R61, R64, R436, R445) -/

/-- A mode comes into force at a frame boundary: its schedule from its first entry, and the staging record moves with the commit tile
(R20, R61, R102). `out` is the commit tile before, `off` its STAGE_OFF. -/
def State.enterMode (s : State) (m out off : Nat) : State :=
  let s1 := (s.updCtx (fun c => { c with mode := m })).updBeat (fun b => { b with schedPos := 0 })
  let s2 :=
    if s1.commitTile ≠ out ∨ s1.img.payload.stageOff ≠ off then
      (if s.tileInService out then s1 else s1.loseStaging).stageBytes
    else s1
  (if s2.isReplay && !s.isReplay then s2.reachReplay else s2).driveSafe

/-- A queue of the new image (R445): kept when QUEUE, RING_BASE and RING_LOG2 are equal, else at HEAD = TAIL = 0; commands in flight
retire under the old entry. -/
def QueueSt.renew (x : QueueSt) (old new : Option QueueAlloc) : QueueSt :=
  let same := match old, new with
    | some a, some b => a.ringBase == b.ringBase && a.ringLog2 == b.ringLog2
    | none, none => true
    | _, _ => false
  if same then x
  else { ({} : QueueSt) with inflight := x.inflight.map (fun f => { f with old := match f.old with | some a => some a | none => old }) }

/-- The queues of both images. -/
def State.renewQueues (s : State) (a b : Image) : State :=
  ((a.queues.map (·.queue)) ++ (b.queues.map (·.queue))).eraseDups.foldl (fun acc q =>
    acc.updQueue q (fun x => x.renew (a.queues.find? (fun e => e.queue == q)) (b.queues.find? (fun e => e.queue == q)))) s

/-- The staged image becomes active (R445). -/
def State.switchImage (s : State) : State :=
  match s.image, s.upd.image with
  | some a, some b =>
    let out := s.commitTile
    let s1 := { s with image := some b }.imgPassed.updCtx (fun c => { c with slot := s.upd.imageSlot, fallback := false })
    let s2 := (s1.renewQueues a b).enterMode b.startMode out a.payload.stageOff
    let s3 := (a.carves.filter (fun c => (b.carve c.id).isNone)).foldl State.tagCarve s2
    let s4 := s3.updUpd (fun u => { u with selImage := u.imageSlot, image := none, hitless := false, staged := u.staged &&& 0x1F#14 })
    s4.liftClocks.logImage b
  | _, _ => s

/-- The staged Pregus firmware takes over its code bank; its services resume 200 us later at the latest, and INCR is held until then
(R445; DESIGN CHOICE, assumption 160: for 200 us). -/
def State.switchPregus (s : State) : State :=
  (s.updUpd (fun u => { u with
    pregus := u.pregusStaged, selPregus := !u.selPregus, runPregus := !u.selPregus, servicesFrom := s.mono + nsInst 200000 })).logFirmware 1
      s.upd.pregusStaged

/-- The standby processors of the named dies serve (R22, R445). -/
def State.switchDies (s : State) (ds : List Nat) : State :=
  let s1 := ds.foldl (fun acc d => acc.updDie d (fun x => { x with serving := !x.serving, beatAt := s.mono })) s
  (s1.updUpd (fun u => { u with selDie := u.dieSlot, runDie := u.dieSlot })).logFirmware 2 (s1.die (ds.headD 0)).firmware

/-- ACTIVATE of the components of a mask (R445). -/
def State.activate (s : State) (m : Nat) : State :=
  let ds := (List.range 4).filter fun d => bit m (d + 1)
  let s1 := if bit m 0 then s.switchPregus else s
  let s2 := if ds = [] then s1 else s1.switchDies ds
  let s3 := if bit m 5 then s2.switchImage else s2
  let done := atBit (bit m 0) 0 + atBit (ds != []) 1 + atBit (bit m 5) 2
  let s4 := s3.updUpd (fun u => { u with
    staged := u.staged &&& ~~~(BitVec.ofNat 14 m), unproven := u.unproven &&& ~~~(BitVec.ofNat 3 done) })
  (s4.restoreSettings s4.upd.pregus.settingsFmt).raise 256 0xFF 0

/-- GEN of R421 advances for a unit that a committed entry touches (R436). -/
def State.touchUnit (s : State) (u : RegUnit) : State :=
  let up := fun (x : UnitSt) => { x with gen := x.gen + 1, genHost := x.genHost + 1, genPregus := x.genPregus + 1 }
  match u with
  | .tile t => s.updUnit .slot (s.slotOfTile t) up
  | .cluster c => s.updUnit .cluster c up
  | .region g => s.updUnit .region g up
  | .die d => s.updUnit .die d up
  | .package => s

/-- One WRITE entry: as the Pregus firmware or the unit's Die Controller writes it. -/
def State.applyWrite (s : State) (e : TxnEntry) : State :=
  match regAt s.part e.target with
  | some r => s.writeRw .pregusFirmware r e.value.toNat e.mask.toNat
  | none => s

/-- One entry at T; a WRITE whose unit has been fenced since the vote waits for its return (R437). -/
def State.applyEntry (s : State) (t : Txn) (e : TxnEntry) : State :=
  let us := e.units s.part
  match e.op with
  | 1 => if us.all s.unitServes && (us == [] || !t.late) then s.applyWrite e
      else s.updCtx (fun c => { c with heldEntries := c.heldEntries ++ [((us.head?.map RegUnit.dieOf).getD 0, e)] })
  | 2 => s.enterMode e.value.toNat s.commitTile s.img.payload.stageOff
  | 3 => ((s.updTb (fun tb => { tb with t0 := t.target.map Int.ofNat })).updSaf (fun f => { f with testsFrom := s.mono })).reachReplay
  | 4 => s.activate e.value.toNat
  | _ => s

/-- The units that the entries of a transaction touch, each once (R436). -/
def Txn.touched (t : Txn) (p : Part) : List RegUnit := (t.entries.flatMap fun e => e.units p).eraseDups

/-- At T, each die that voted yes and holds no decision is fenced SUSPECT with SEV-254 (R436). -/
def State.txnMissed (s : State) (t : Txn) : State :=
  if t.decision.isSome && !t.late then s
  else ((t.voted.filter (·.2)).map (·.1)).foldl (fun acc d => (acc.raiseDie d 254 d 0).suspectUnit .die d 254) s

/-- A row of R437 at T ends the transaction: a region is missing, for a MODE or ACTIVATE, those of a die that missed the decision among
them; a safe-state request, for an ACTIVATE. -/
def State.txnBlocked (s : State) (t : Txn) : Bool :=
  ((countOp t.entries 2 + countOp t.entries 4 != 0) && (s.beat.missOrder != [] || (t.late && t.voted != []))) ||
    (countOp t.entries 4 != 0 && s.saf.req)

/-- T has come: the beat that starts there has begun and the record before it is committed. A re-epoch that is due goes first (R337). -/
def State.txnReady (s : State) (t : Txn) : Bool :=
  s.txnDue && !s.reepochDue && match t.beat with
    | some n => decide (n < s.beat.next ∧ n ≤ s.beat.commitNext)
    | none => true

/-- TXN_APPLY (R436, R437). What a COMMIT has for a die that missed it waits for the die's return, with the entries of any other unit
that does not serve. -/
def State.txnApply (s : State) : State :=
  match s.ctx.txn with
  | none => s
  | some t =>
    if !(s.txnReady t) then s
    else
      let s0 := s.txnMissed t
      if t.decision ≠ some true ∨ s0.txnBlocked t then s0.txnRollback
      else
        let s1 := t.entries.foldl (fun acc e => acc.applyEntry t e) ((t.touched s.part).foldl State.touchUnit s0)
        ((s1.updCtx (fun c => { c with txn := none, txnLast := 0 })).logTxn 0 t).msix 5

def execTxnApply (s : State) : Host.Outcome State Fault Refusal := .next s.txnApply

/-! ### BEAT_START (R89, R347, R437) -/

/-- Held entries whose units are in service again apply, in the order of their list (R417, R437). -/
def State.applyHeld (s : State) : State :=
  s.ctx.heldEntries.foldl (fun acc h =>
    if (h.2.units acc.part).all acc.unitServes then
      (acc.updCtx (fun c => { c with heldEntries := c.heldEntries.erase h })).applyWrite h.2
    else acc) s

/-- BEAT_START (R89). -/
def execBeatStart (s : State) : Host.Outcome State Fault Refusal := .next (if s.beatDue then (s.beatBegin s.beat.next).applyHeld else s)

end Sys2Proof.Machine
end

