-- ==== Sys2Proof/Machine/Regs.lean ====
section
/-! DEFINITION. Register accesses through BAR0 and BAR2 (R5, R409, R457 to R459, R467): REGISTER_WRITE and HOST_REGISTER_READ. An
offset of BAR2 stands at 0x1000_0000 plus itself in the operand of a row. -/

namespace Sys2Proof.Machine

/-! ### BAR2 (R457, R459) -/

/-- What an offset of BAR2 reaches. -/
inductive Bar2 where
  | doorbell (q : Nat)
  | table (v i : Nat)
  | pba (i : Nat)
  | nothing
deriving DecidableEq, Repr

def bar2 (o : Nat) : Bar2 :=
  if o < 0x20000 then .doorbell (o / 4)
  else if o < 0x28000 then .table ((o - 0x20000) / 16) ((o - 0x20000) / 4 % 4)
  else if 0x30000 ≤ o ∧ o < 0x30100 then .pba ((o - 0x30000) / 4)
  else .nothing

/-- A word of the MSI-X table: address, data, and the vector control word with its mask bit, as PCIe defines them. -/
def HostLinkSt.tableWord (l : HostLinkSt) (v i : Nat) : Nat :=
  if i < 3 then (SMap.get 0 l.msixTable (4 * v + i)).toNat else atBit (!(SMap.get false l.unmasked v)) 0

/-- A word of the PBA. -/
def HostLinkSt.pbaWord (l : HostLinkSt) (i : Nat) : Nat :=
  ((List.range 32).map fun k => atBit (SMap.get false l.pba (32 * i + k)) k).foldl (· + ·) 0

/-- A write of a word of the MSI-X table: a vector that waits leaves when its mask bit is cleared (R463). -/
def HostLinkSt.writeTable (l : HostLinkSt) (v i w : Nat) : HostLinkSt :=
  if i < 3 then { l with msixTable := SMap.set 0 l.msixTable (4 * v + i) (BitVec.ofNat 32 (if i = 0 then w / 4 * 4 else w)) }
  else ({ l with unmasked := SMap.set false l.unmasked v (!(bit w 0)) }).releaseAll

/-! ### Writes (R5) -/

/-- UPD_CTRL.GO with OP and UNIT of the register; the self-test of STAGE_DIE ends as the die finds it, which no operand tells: free. -/
def State.updGo (s : State) : State :=
  let u := fld s.upd.ctrl.toNat 19 16
  match fld s.upd.ctrl.toNat 30 28 with
  | 1 => s.updOp 1 none State.stagePregus
  | 2 => let d := s.draw
    d.2.updOp 2 (some u) fun s => s.stageDie u (Config.freeNat d.1 % 2 == 0)
  | 3 => s.updOp 3 none State.stageImage
  | 4 => s.updOp 4 (some u) fun s => s.stageRegion u
  | 5 => s.updOp 5 none State.unstage
  | 6 => s.updOp 6 none State.saveSettings
  | op => s.updOp op none fun s => s.stageFail 0xFF 0x7D

/-- DIE_RECOV_CTRL.GO with OP, KIND and UNIT of the register (R404). -/
def State.recovGo (s : State) (d : Nat) : State :=
  let c := (s.die d).recovCtrl.toNat
  let k : UnitKind := match fld c 27 26 with | 0 => .slot | 1 => .cluster | 2 => .region | _ => .die
  let u := fld c 23 16
  match fld c 30 28 with
  | 0 => s.askFence d k u
  | 1 => s.askReset d k u
  | 2 => s.askReturn d k u
  | 3 => s.askKill d
  | 4 => s.askBist d k u
  | _ => s.recovStatus d 0x82

/-- SEC_CTRL: RATCHET of COMP, ATTEST, UNLOCK, in the order of their bits. -/
def State.secAct (s : State) (v : Nat) : State :=
  let s1 := if bit v 0 then s.ratchet (fld v 7 6) else s
  let s2 := if bit v 1 then s1.attest else s1
  if bit v 2 then s2.unlock else s2

/-- What a written word does to the fields that are not RW: W1C bits clear, W1S and WO fields act (R5). -/
def State.writeAct (s : State) (agent : Agent) (r : Reg) (v : Nat) : State :=
  match r with
  | .txnCtrl =>
    let s1 := if bit v 0 then s.commit else s
    if bit v 1 then s1.txnAbort else s1
  | .updCtrl => if bit v 31 then s.updGo else s
  | .secCtrl => s.secAct v
  | .safCtrl => if bit v 0 then s.requestRelease else s
  | .ashSel i => if i = 1 then s.updAsh (fun a => { a with rdBusy := true }) else s
  | .tbCtrl =>
    let s1 := if bit v 0 then s.step else s
    if bit v 1 then s1.reepoch else s1
  | .tbStatus => s.updTb (fun tb => { tb with capOvf := tb.capOvf && !(bit v 7) })
  | .hpDb m => s.updHpath m (fun h => { h with txTail := BitVec.ofNat 16 (v / 2 ^ 16), rxTail := BitVec.ofNat 16 v })
  | .cvuCtl u c => s.cvuInit agent u c v
  | .cvuFeed u c size => s.cvuFeedWrite agent u c size v
  | .cvuStatus u c => s.cvuClear agent u c v
  | .scanCtrl u => if bit v 0 then s.scanGo agent u else s
  | .scanStatus u => s.updCvu u (fun x => { x with werr := x.werr && !(bit v 30) })
  | .recovCtrl d => if bit v 31 then s.recovGo d else s
  | .fctx d i => s.writeFctx (8 * d + i) v
  | .mbTx i => if i = 15 then s.mbSend (BitVec.ofNat 32 v) else s.updLink (fun l => { l with mbTx := SMap.set 0 l.mbTx i (BitVec.ofNat 32 v) })
  | .uciIrq => s.updLink (fun l => { l with ovf := l.ovf && !(bit v 31) })
  | .uciFlash =>
    let s1 := if bit v 30 then s.flashClose else s
    if bit v 31 then s1.flashOpen (fld v 26 24) else s1
  | .rngCtrl g => s.updRegion g (fun x => { x with rngWerr := x.rngWerr && !(bit v 1) })
  | .memAddr t => if bit v 31 then s.updTile t (fun x => { x with memAddr := x.memAddr &&& 0x7FFFFFFF#32 }) else s
  | .arrCtrl t => if bit v 0 then s.updTile t (fun x => { x with busy := 0 }) else s
  | .arrStatus t => s.updTile t (fun x => { x with residueErr := x.residueErr && !(bit v 15), repairWerr := x.repairWerr && !(bit v 14) })
  | .tagErr t => if bit v 31 then s.updTile t (fun x => { x with tagErr := x.tagErr &&& 0x7FFFFFFF#32 }) else s
  | .qstate t l => if bit v 26 then s.updQueue (512 * t + l) (fun x => { x with dberr := false }) else s
  | .qctrl t l => s.resumeQueue (512 * t + l) v
  | _ => s

/-- A whole write of a register: RW fields first, then what its other bits do. PWR_CLKCTRL is one act (R496). -/
def State.writeReg (s : State) (agent : Agent) (r : Reg) (w : Nat) : State :=
  match r with
  | .clkCtrl d => s.updDie d (fun x => x.writeClk s.vehicleLoaded w)
  | _ => (s.writeRw agent r w 0xFFFFFFFF).writeAct agent r w

/-- A write in the register region: ignored at a reserved offset, and from the host at a unit that is fenced, which counts it (R409). -/
def State.writeBar0 (s : State) (agent : Agent) (o w : Nat) : State :=
  match regAt s.part o with
  | none => s
  | some r => if agent = .host ∧ !(s.unitOpen r.unit) then s.dropAt r.unit.dieOf else s.writeReg agent r w

/-- A write in BAR2. -/
def State.writeBar2 (s : State) (o w : Nat) : State :=
  match bar2 o with
  | .doorbell q => s.hostDoorbell q w
  | .table v i => s.updLink (fun l => l.writeTable v i w)
  | _ => s

/-- REGISTER_WRITE (R5, R459): a host write that is not aligned is dropped with status 0x90; so is one in D3hot (DEDUCED, assumption 53). -/
def State.registerWrite (s : State) (agent : Agent) (o w : Nat) : State :=
  if agent = .host ∧ (o % 4 ≠ 0 ∨ s.link.d3hot) then s.dropWrite 0x90
  else if o < 0x10000000 then s.writeBar0 agent o w
  else if agent = .host ∧ o < 0x10040000 then s.writeBar2 (o - 0x10000000) w
  else s

def execRegisterWrite (agent : Agent) (offset : Nat) (value : Word) (s : State) : Host.Outcome State Fault Refusal :=
  .next (s.registerWrite agent offset value.toNat)

/-! ### Reads (R5, R459) -/

/-- A read of a register by the host, with the effects that some reads have (R331, R351, R395, R396, R464, R480). -/
def State.readAnswer (s : State) (r : Reg) : State :=
  match r with
  | .tbSnap 0 => let s1 := s.snapLatch; s1.answerWord s1.tb.snap0.toNat
  | .tbCap n 3 => (s.answerWord (s.capWord n 3)).updTb (fun tb => { tb with caps := SMap.update [] tb.caps n (List.drop 1) })
  | .uciEvt 3 => s.evtRead
  | .mbRx 15 => s.mbRead
  | .cvuResult u c i => s.cvuResultRead u c i
  | .cvuStatus u c => let s1 := s.cvuAdvance u c; s1.answerWord (s1.readReg r)
  | _ => s.answerWord (s.readReg r)

/-- A read in the register region: 0 at a reserved offset and at a fenced unit, which counts it (R409). -/
def State.readBar0 (s : State) (o : Nat) : State :=
  match regAt s.part o with
  | none => s.answerWord 0
  | some r => if s.unitOpen r.unit then s.readAnswer r else (s.dropAt r.unit.dieOf).answerWord 0

/-- A read in BAR2: a doorbell reads as 0. -/
def State.readBar2 (s : State) (o : Nat) : State :=
  match bar2 o with
  | .table v i => s.answerWord (s.link.tableWord v i)
  | .pba i => s.answerWord (s.link.pbaWord i)
  | _ => s.answerWord 0

/-- HOST_REGISTER_READ (R459): any size but 4 bytes, and any misaligned one, completes as Unsupported Request with status 0x90. -/
def State.registerRead (s : State) (o size : Nat) : State :=
  if size ≠ 4 ∨ o % 4 ≠ 0 ∨ s.link.d3hot then s.abortRead 1 0x90
  else if o < 0x10000000 then s.readBar0 o
  else if o < 0x10040000 then s.readBar2 (o - 0x10000000)
  else s.abortRead 1 0x90

def execHostRegisterRead (offset size : Nat) (s : State) : Host.Outcome State Fault Refusal := .next (s.registerRead offset size)

end Sys2Proof.Machine
end

