-- ==== Sys2Proof/Machine/Functions.lean ====
section
/-! DEFINITION. The functions of the vector engine (R231 to R238) and of SOFTMAX (R250, R253) as exact rational values,
with the constants that the rules give by formula, worked out to their last bit. -/

namespace Sys2Proof.Machine

/-- T[i] = RNE(2^(i / 64) × 2^31) (R231). -/
def tabT : List Nat :=
  [2147483648, 2170868212, 2194507417, 2218404036, 2242560872, 2266980759, 2291666561, 2316621173,
   2341847524, 2367348571, 2393127307, 2419186755, 2445529972, 2472160047, 2499080105, 2526293303,
   2553802834, 2581611923, 2609723834, 2638141863, 2666869345, 2695909648, 2725266179, 2754942382,
   2784941738, 2815267765, 2845924021, 2876914102, 2908241642, 2939910317, 2971923842, 3004285971,
   3037000500, 3070071267, 3103502151, 3137297074, 3171459999, 3205994934, 3240905930, 3276197082,
   3311872529, 3347936457, 3384393094, 3421246719, 3458501653, 3496162267, 3534232978, 3572718252,
   3611622603, 3650950594, 3690706840, 3730896002, 3771522796, 3812591987, 3854108391, 3896076880,
   3938502376, 3981389855, 4024744348, 4068570940, 4112874773, 4157661043, 4202935003, 4248701965]

/-- C_1 to C_4 in units of 2^-32: RNE((ln 2)^j / j! × 2^32) (R231). -/
def tabC : List Nat :=
  [2977044472, 1031764991, 238388332, 41309550]

/-- L2E (R231). -/
def l2e : Rat := (406082553034800 : Rat) / ((2 ^ 48 : Nat) : Rat)

/-- LN2 (R253). -/
def ln2 : Rat := (195103586505167 : Rat) / ((2 ^ 48 : Nat) : Rat)

/-- Rc[i] in units of 2^-24 (R233). -/
def tabRc : List Nat :=
  [22253717, 22025473, 21801864, 21582750, 21367996, 21157474, 20951060, 20748634,
   20550083, 20355295, 20164166, 19976592, 19792476, 19611723, 19434241, 19259943,
   19088744, 18920561, 18755316, 18592932, 18433336, 18276457, 18122225, 17970574,
   17821441, 17674763, 17530479, 17388532, 17248865, 17111423, 16976155, 16777216,
   16777216, 16582885, 16455813, 16330674, 16207424, 16086020, 15966421, 15848588,
   15732481, 15618063, 15505297, 15394148, 15284581, 15176563, 15070061, 14965043,
   14861479, 14759338, 14658591, 14559211, 14461169, 14364439, 14268994, 14174810,
   14081860, 13990121, 13899571, 13810184, 13721940, 13634817, 13548793, 13463847,
   13379960, 13297112, 13215284, 13134457, 13054612, 12975732, 12897800, 12820798,
   12744710, 12669520, 12595212, 12521771, 12449181, 12377427, 12306497, 12236374,
   12167046, 12098499, 12030721, 11963697, 11897416, 11831866, 11767034, 11702908,
   11639478, 11576731, 11514658, 11453246, 11392486, 11332368, 11272880, 11214014]

/-- L[i] in units of 2^-48 (R233). -/
def tabL : List Int :=
  [(-114713153980178), (-110526685024853), (-106382946996087), (-102281072120473), (-98220207643788), (-94199557919609),
   (-90218331905200), (-86275746015579), (-82371086304091), (-78503594541257), (-74672609330498), (-70877410284608),
   (-67117360916181), (-63391811030185), (-59700118846490), (-56041695371182), (-52415944698311), (-48822265322189),
   (-45260116429870), (-41728934736554), (-38228201014033), (-34757398950075), (-31315994167171), (-27903502514541),
   (-24519470637694), (-21163409480471), (-17834840221950), (-14533342498443), (-11258463654421), (-8009765859513),
   (-4786875508425), 0, 0, 4731120043544, 7854849473088, 10954724819301,
   14031113244555, 17084381798053, 20114871280092, 23122894585364, 26108812472839, 29072930725363,
   32015576092523, 34937043734610, 37837648662681, 40717672412009, 43577415225016, 46417169090784,
   49237189643932, 52037776977479, 54819193637689, 57581662885188, 60325479274536, 63050869337256,
   65758102719031, 68447378665193, 71118996336328, 73773154584275, 76410035936758, 79029952791034,
   81633055371693, 84219564428842, 86789713290857, 89343717805627, 91881745144013, 94404003622267,
   96910682283985, 99401980962085, 101878110366174, 104339229576189, 106785507202870, 109217153141206,
   111634324004758, 114037185413599, 116425912067150, 118800655384773, 121161607867377, 123508938492946,
   125842725840979, 128163220811020, 130470517655138, 132764784262812, 135046129094429, 137314769060907,
   139570793490744, 141814332006578, 144045555522265, 146264607839964, 148471569865089, 150666633150232,
   152849855911801, 155021442938446, 157181464258631, 159330030570652, 161467330252592, 163593414021349]

/-- D_1 to D_5 in units of 2^-48 (R233). -/
def tabD : List Int :=
  [406082553034800, (-203041276517400), 135360851011600, (-101520638258700), 81216510606960]

/-- G1 to G3 in units of 2^-32 (R235). -/
def tabG : List Nat :=
  [1431655765, 572662306, 231791886]

/-- K1 and K3 (R237). -/
def geluK1 : Rat := (224584538169779 : Rat) / ((2 ^ 48 : Nat) : Rat)
def geluK3 : Rat := (10042297624262 : Rat) / ((2 ^ 48 : Nat) : Rat)

/-- exp2_exact (R232). -/
def exp2Exact (x : Int) : Rat :=
  let n := Int.fdiv x (2 ^ 32)
  let f := (x - n * 2 ^ 32).toNat
  let i := f / 2 ^ 26
  let r : Rat := ((f - i * 2 ^ 26 : Nat) : Rat) / ((2 ^ 32 : Nat) : Rat)
  let c := fun (k : Nat) => ((tabC.getD k 0 : Nat) : Rat) / ((2 ^ 32 : Nat) : Rat)
  let p := c 0 * r + c 1 * r * r + c 2 * r * r * r + c 3 * r * r * r * r
  ((tabT.getD i 0 : Nat) : Rat) / ((2 ^ 31 : Nat) : Rat) * (1 + p) * pow2 n

/-- exp2_exact of a rational rounded to units of 2^-32. -/
def exp2Of (y : Rat) : Rat := exp2Exact (rne (y * ((2 ^ 32 : Nat) : Rat)))

/-- V of exp2 (R232). -/
def exp2V (x : Rat) : Rat := if 128 ≤ x then pow2 128 else if x < -160 then pow2 (-160) else exp2Of x

/-- V of log2 for x > 0 (R233). -/
def log2V (x : Rat) : Rat :=
  let e := log2Floor x
  let m := x / pow2 e
  let m' := if (3 : Rat) / 2 ≤ m then m / 2 else m
  let k : Int := if (3 : Rat) / 2 ≤ m then e + 1 else e
  let i := ((m' - 3 / 4) * 128).floor.toNat
  let rc : Rat := ((tabRc.getD i 0 : Nat) : Rat) / ((2 ^ 24 : Nat) : Rat)
  let z := m' * rc - 1
  let d := fun (n : Nat) => ((tabD.getD n 0 : Int) : Rat) / ((2 ^ 48 : Nat) : Rat)
  (k : Rat) + ((tabL.getD i 0 : Int) : Rat) / ((2 ^ 48 : Nat) : Rat) + d 0 * z + d 1 * z * z + d 2 * z * z * z +
    d 3 * z * z * z * z + d 4 * z * z * z * z * z

/-- V of tanh (R235). -/
def tanhV (x : Rat) : Rat :=
  let a := if x < 0 then -x else x
  let sgn : Rat := if x < 0 then -1 else 1
  if a < 1 / 16 then
    let g := fun (n : Nat) => ((tabG.getD n 0 : Nat) : Rat) / ((2 ^ 32 : Nat) : Rat)
    x - g 0 * x * x * x + g 1 * x * x * x * x * x - g 2 * x * x * x * x * x * x * x
  else
    let y := -2 * l2e * a
    if y ≤ -300 then sgn else sgn * (1 - exp2Of y) / (1 + exp2Of y)

/-- V of sigmoid (R236). -/
def sigmoidV (x : Rat) : Rat :=
  let y := -l2e * x
  if 300 ≤ y then pow2 (-300) else if y ≤ -300 then 1 else 1 / (1 + exp2Of y)

/-- V of GELU (R237). -/
def geluV (x : Rat) : Rat :=
  let y := -2 * l2e * (geluK1 * x + geluK3 * x * x * x)
  if 300 ≤ y then x * pow2 (-300) else if y ≤ -300 then x else x / (1 + exp2Of y)

/-- V of a UNARY function (R231 to R238): `v` is the value of SRC0. -/
def unaryV (fn : Nat) (v : Val) : Val :=
  let x := fp32 v
  match fn with
  | 0 => match x with
    | .nan => .nan | .pinf => .pinf | .ninf => .fin 0
    | .fin y => .fin (exp2V y)
  | 1 => match x with
    | .nan => .nan | .pinf => .pinf | .ninf => .nan
    | .fin y => if y = 0 then .ninf else if y < 0 then .nan else .fin (log2V y)
  | 2 => match x with
    | .nan => .nan | .pinf => .fin 0 | .ninf => .fin 0
    | .fin y => if y = 0 then .pinf else .fin (1 / y)
  | 3 => match x with
    | .nan => .nan | .pinf => .fin 0 | .ninf => .nan
    | .fin y => if y = 0 then .pinf else if y < 0 then .nan else .fin (sqrtSticky (1 / y))
  | 4 => match x with
    | .nan => .nan | .pinf => .fin 1 | .ninf => .fin (-1)
    | .fin y => .fin (tanhV y)
  | 5 => match x with
    | .nan => .nan | .pinf => .fin 1 | .ninf => .fin 0
    | .fin y => .fin (sigmoidV y)
  | 6 => match x with
    | .nan => .nan | .pinf => .pinf | .ninf => .fin 0
    | .fin y => .fin (geluV y)
  | 7 => match v with
    | .nan => .nan | .pinf => .pinf | .ninf => .fin 0
    | .fin y => if 0 < y then .fin y else .fin 0
  | _ => match v with
    | .nan => .nan | .pinf => .pinf | .ninf => .pinf
    | .fin y => .fin (if y < 0 then -y else y)

end Sys2Proof.Machine
end

