-- ==== Sys2Proof/Machine/Softmax.lean ====
section
/-! DEFINITION. SOFTMAX and its row statistics (09_attention.md, R246 to R254). -/

namespace Sys2Proof.Machine

/-- A row-statistics entry (R248). -/
structure SmEntry where
  max : Nat := 0
  nref : Int := 0
  sum : Nat := 0
  lse : Nat := 0
  keys : Nat := 0
  next : Nat := 0
  nan : Bool := false
  clamp : Bool := false
deriving DecidableEq, Repr

/-- The entry in 32 bytes (R248). -/
def SmEntry.parse (b : List Byte) : SmEntry :=
  { max := leAt b 0 4, nref := toSigned 32 (leAt b 4 4), sum := leAt b 8 8, lse := leAt b 16 4, keys := leAt b 20 4,
    next := leAt b 24 1, nan := bit (leAt b 25 1) 0, clamp := bit (leAt b 25 1) 1 }

/-- The 32 bytes of an entry (R248). -/
def SmEntry.bytes (e : SmEntry) : List Byte :=
  leBytes 4 e.max ++ leBytes 4 (ofSigned 32 e.nref) ++ leBytes 8 e.sum ++ leBytes 4 e.lse ++ leBytes 4 e.keys ++
    leBytes 1 e.next ++ leBytes 1 (atBit e.nan 0 + atBit e.clamp 1) ++ zeros 6

/-- A key's score after R249: whether it takes part, was clamped or is a NaN or +Inf; its FP32 value and its t. -/
structure Score where
  part : Bool := false
  clamped : Bool := false
  bad : Bool := false
  value : Rat := 0
  t : Rat := 0
deriving DecidableEq, Repr

/-- R249. Only a key that takes part is clamped, counted or flagged (DEDUCED, assumption 15). -/
def scoreOf (unmasked : Bool) (v : Val) : Score :=
  if !unmasked then {}
  else match fp32 v with
    | .ninf => {}
    | .nan => { part := true, bad := true }
    | .pinf => { part := true, bad := true }
    | .fin x =>
      let y := if pow2 24 < x then pow2 24 else if x < -(pow2 24) then -(pow2 24) else x
      { part := true, clamped := decide (y ≠ x), value := y, t := l2e * y }

/-- The term of a score at reference n (R250). -/
def smTerm (t n : Rat) : Nat := if t - n < -40 then 0 else (rne (exp2Of (t - n) * ((2 ^ 32 : Nat) : Rat))).toNat

/-- Smallest integer not below x. -/
def ratCeil (x : Rat) : Int := -((-x).floor)

/-- Largest of a list of rationals over a start value. -/
def ratMax (x : Rat) (xs : List Rat) : Rat := xs.foldl max x

/-- Reference and sum of the taking-part finite t values of a row or block; none for an empty one (R251, R253). -/
def smSum (ts : List Rat) : Option (Int × Nat) :=
  match ts with
  | [] => none
  | x :: rest =>
    let n := ratCeil (ratMax x rest)
    some (n, ts.foldl (fun a t => a + smTerm t (n : Rat)) 0)

/-- shr of R253. -/
def smShr (x k : Nat) : Nat := if k < 64 then x / 2 ^ k else 0

/-- The fold of one block into NREF and SUM (R253). -/
def smFold (e : SmEntry) (ts : List Rat) : SmEntry :=
  match smSum ts with
  | none => e
  | some (nb, sb) =>
    if e.sum = 0 then { e with nref := nb, sum := sb }
    else
      let n := if e.nref < nb then nb else e.nref
      { e with sum := smShr e.sum (n - e.nref).toNat + smShr sb (n - nb).toNat, nref := n }

/-- MAX, KEYS and FLAGS over the scores of a row (R248, R253); MAX holds no score while KEYS is 0. -/
def smCount (e : SmEntry) (ss : List Score) : SmEntry :=
  let good := ss.filter (fun x => x.part && !x.bad)
  let old : List Rat := if e.keys = 0 then [] else match decodeCode .fp32 e.max with | .fin x => [x] | _ => []
  let mx := match old ++ good.map (·.value) with
    | [] => e.max
    | x :: rest => (roundTo .fp32 (.fin (ratMax x rest)) none).code
  { e with max := mx, keys := e.keys + good.length, nan := e.nan || ss.any (·.bad), clamp := e.clamp || ss.any (·.clamped) }

/-- LSE, and the values of an empty or NaN row (R253). -/
def smClose (e : SmEntry) : SmEntry :=
  if e.nan then { e with lse := 0x7FC00000, max := 0x7FC00000 }
  else if e.sum = 0 then { e with lse := 0xFF800000, max := 0xFF800000 }
  else
    let x := match fp32 (.fin ((e.sum : Rat) / ((2 ^ 32 : Nat) : Rat))) with | .fin y => y | _ => 1
    { e with lse := (roundTo .fp32 (.fin (ln2 * ((e.nref : Rat) + log2V x))) none).code }

/-- Finite t values that take part. -/
def smTs (ss : List Score) : List Rat := (ss.filter (fun x => x.part && !x.bad)).map (·.t)

/-- The entry of a row in FULL mode (R251). -/
def smFull (kblk : Nat) (ss : List Score) : SmEntry :=
  smClose { smCount (smFold {} (smTs ss)) ss with next := kblk + ceilDiv ss.length 1024 }

/-- The entry of a row in STATS mode (R253): blocks of 1,024 keys in ascending order. -/
def smStats (kblk : Nat) (e : SmEntry) (ss : List Score) : SmEntry :=
  smClose { smCount ((chunks 1024 ss).foldl (fun a b => smFold a (smTs b)) e) ss with next := kblk + ceilDiv ss.length 1024 }

/-- V of an element from its row's entry (R252). -/
def smValue (e : SmEntry) (x : Score) : Val :=
  if e.nan then .nan
  else if e.sum = 0 ∨ !x.part then .fin 0
  else if x.bad then .nan
  else
    let n : Rat := (e.nref : Rat)
    .fin ((smTerm (min x.t n) n : Rat) / (e.sum : Rat))

/-- Whether a key counts as saturated whatever its element is: its score was clamped, or it takes part with t above NREF
(R249, R252). -/
def smSat (e : SmEntry) (x : Score) : Bool := x.clamped || (x.part && !x.bad && decide ((e.nref : Rat) < x.t))

/-- Byte address and bit of the mask of element (r, c) (R254). -/
def maskBit (d : Desc) (m : Tensor) (r c : Nat) : Nat × Nat :=
  let k := d.p 56 51 * 1024 + c
  let g := bit d.param.toNat 50
  let j := if g then k / 32 else k
  let row := if g then r / 32 else r
  (m.base + row * m.d0 + j / 8, j % 8)

/-- The scores of row `r` (R249, R254). -/
def State.smRow (s : State) (f : InFlight) (a : Tensor) (r : Nat) : List Score :=
  (List.range a.d0).map fun c =>
    let un := match f.src1 with
      | none => true
      | some m => let b := maskBit f.desc m r c; bit (leNat (s.peek b.1 1)) b.2
    scoreOf un (s.elem a (a.index (r / a.d1 / a.d2) (r / a.d1 % a.d2) (r % a.d1) c))

/-- One write of a SOFTMAX: address and bytes. -/
abbrev SmWrite := Nat × List Byte

/-- Performs raw writes in order until one fails. -/
def State.storeAll (c : Ctx) : List SmWrite → State → State × Nat
  | [], s => (s, 0)
  | w :: rest, s =>
    if s.carveClosed (some c.region) w.1 w.2.length then (s, 0x38)
    else
      let r := s.store w.1 w.2
      if r.2 ≠ 0 then r else State.storeAll c rest r.1

/-- Address of the statistics entry of a row (R247). -/
def smAddr (d : Desc) (r : Nat) : Nat := d.p 47 0 + 32 * r

/-- Storage index of key `k` of row `r`. -/
def smSrc (a : Tensor) (r k : Nat) : Nat := a.index (r / a.d1 / a.d2) (r / a.d1 % a.d2) (r % a.d1) k

/-- The entry of a row as it stands (R247). -/
def State.smOld (s : State) (d : Desc) (r : Nat) : SmEntry := SmEntry.parse (s.peek (smAddr d r) 32)

/-- The entry of a row after the command, by MODE (R251 to R253). -/
def State.smEntry (s : State) (f : InFlight) (a : Tensor) (r : Nat) : SmEntry :=
  let mode := f.desc.p 49 48
  let kblk := f.desc.p 56 51
  if mode = 0 then smFull kblk (s.smRow f a r)
  else if mode = 1 then smStats kblk (s.smOld f.desc r) (s.smRow f a r) else s.smOld f.desc r

/-- The outputs of a row (R252): storage index in DST and rounded value. -/
def State.smOuts (s : State) (f : InFlight) (a t : Tensor) (r : Nat) : List (Nat × Rounded) :=
  ((s.smRow f a r).zipIdx).map fun x =>
    let e := s.smEntry f a r
    let i := smSrc t r x.2
    let o := roundTo t.fmt (smValue e x.1) (f.word t (t.coords i))
    (i, { o with sat := o.sat || smSat e x.1 })

/-- The writes of a row: its entry, but in NORMALISE mode, and its outputs, but in STATS mode. -/
def State.smRowWrites (s : State) (f : InFlight) (a : Tensor) (r : Nat) : List SmWrite :=
  let mode := f.desc.p 49 48
  (if mode = 2 then [] else [(smAddr f.desc r, (s.smEntry f a r).bytes)]) ++
    (match f.dst with
     | some t => if mode = 1 then [] else
        (mergeRows t ((s.smOuts f a t r).map fun o => (o.1, o.2.code :: List.replicate (t.padAfter o.1) 0))).map fun w => s.rowBytes t w.1
     | none => [])

/-- Every write of a SOFTMAX, row by row. -/
def State.softmaxWrites (s : State) (f : InFlight) (a : Tensor) : List SmWrite :=
  (List.range (softmaxRows a)).flatMap (s.smRowWrites f a)

/-- The outputs that count for SAT: those of DST, or the clamped scores where the mode writes none (R252). -/
def State.softmaxOuts (s : State) (f : InFlight) (a : Tensor) : List Rounded :=
  (List.range (softmaxRows a)).flatMap fun r => match f.dst with
    | some t => if f.desc.p 49 48 = 1 then (s.smRow f a r).map (fun x => { code := 0, sat := x.clamped }) else (s.smOuts f a t r).map (·.2)
    | none => (s.smRow f a r).map (fun x => { code := 0, sat := x.clamped })

/-- The reads of the scores of a row, each with its mask bit (R254). -/
def smScoreReads (f : InFlight) (a : Tensor) (r : Nat) : List PlanStep :=
  (List.range a.d0).flatMap fun k =>
    PlanStep.elems 0 (smSrc a r k) 1 ::
      (match f.src1 with | some m => [PlanStep.raw (maskBit f.desc m r k).1 1] | none => [])

/-- The reads of a SOFTMAX (R247, R251 to R254). -/
def State.softmaxPlan (s : State) (f : InFlight) (a : Tensor) : List PlanStep :=
  let mode := f.desc.p 49 48
  (List.range (softmaxRows a)).flatMap fun r =>
    let n := (s.smRowWrites f a r).length
    let ne := if mode = 2 then 0 else 1
    .pass 0 :: (if mode = 2 then [.raw (smAddr f.desc r) 32] else []) ++ smScoreReads f a r ++ List.replicate ne .row ++
      (if mode = 0 then .pass 1 :: smScoreReads f a r else []) ++ List.replicate (n - ne) .row

/-- The reads of a SOFTMAX as they end: STATS reads the entry of every row first, and a NEXT above KBLK fails the command (R253). -/
def State.softmaxReads (s : State) (c : Ctx) (f : InFlight) (a : Tensor) : Run :=
  let rows := softmaxRows a
  let stats := decide (f.desc.p 49 48 = 1)
  let r0 := if stats then Run.plan c f false ((List.range rows).map fun r => .raw (smAddr f.desc r) 32) { st := s } else { st := s }
  let r1 : Run := if r0.status = 0 ∧ stats ∧ (List.range rows).any (fun r => decide (f.desc.p 56 51 < (s.smOld f.desc r).next)) then
      { r0 with status := 0x1A } else r0
  Run.plan c f false (s.softmaxPlan f a) r1

/-- Runs SOFTMAX (R246 to R254). -/
def runSoftmax (c : Ctx) (f : InFlight) (s : State) : State × InFlight :=
  match f.src0 with
  | none => (s, f)
  | some a =>
    let all := s.softmaxWrites f a
    let r := s.softmaxReads c f a
    let p := if r.status = 0 then (all.length, r.st) else freePrefix false r.st (min r.rows all.length)
    let w := State.storeAll c (all.take p.1) p.2
    let status := if r.status ≠ 0 then r.status else w.2
    let e : Effect := { outs := s.softmaxOuts f a }
    if status = 0 then (w.1, f.ends e 0 0)
    else
      let x := w.1.draw
      (x.2, f.ends e status (Config.freeNat x.1))

/-- SOFTMAX (R246). -/
def execSoftmax (q : Nat) (s : State) : Host.Outcome State Fault Refusal := .next (s.runOp q .softmax runSoftmax)

end Sys2Proof.Machine
end

