-- ==== Sys2Proof/Machine/Vector.lean ====
section
/-! DEFINITION. The vector engine: BINARY, UNARY, CVT, REDUCE, POOL, NORM and SCATTER (08_convolution_and_vector.md,
R78, R205, R206, R266, R512). -/

namespace Sys2Proof.Machine

/-- SAT of an element whose source is XA96 (R183). -/
def State.srcSat (s : State) (t : Tensor) (i : Nat) : Bool := t.fmt == .xa96 && (s.xaElem t i).sat

/-- The effect of a command that rounds one value for each DST element (R181, R183). -/
def roundedEffect (t : Tensor) (f : InFlight) (value : Nat → Val) (sat : Nat → Bool) : Effect :=
  let out := fun (i : Nat) =>
    let r := roundTo t.fmt (value i) (f.word t (t.coords i))
    { r with sat := r.sat || sat i }
  { rows := elementRows t (fun i => (out i).code), outs := t.elemIdx.map out }

/-- Runs an effect as a command that consumes no scaled operand. -/
def runVe (plan : List PlanStep) (e : Effect) (c : Ctx) (f : InFlight) (s : State) : State × InFlight :=
  let r := runEffect false true false (fun _ => 0) plan e c f s
  (r.1.st, r.2)

/-! ### BINARY and UNARY (R229, R231 to R238) -/

/-- Coordinates of SRC1 for an element of SRC0: 0 along its size-1 dimensions (R229). -/
def broadcastIdx (w : Tensor) (c : Nat × Nat × Nat × Nat) : Nat :=
  w.index (if w.d3 = 1 then 0 else c.1) (if w.d2 = 1 then 0 else c.2.1) (if w.d1 = 1 then 0 else c.2.2.1)
    (if w.d0 = 1 then 0 else c.2.2.2)

/-- The operation of a BINARY on two values (R76, R228, R229). -/
def binaryV (fn : Nat) (a b : Val) : Val :=
  match fn with
  | 0 => Val.add a b
  | 1 => Val.add a b.negate
  | 2 => Val.mul a b
  | 3 => Val.max a b
  | _ => Val.min a b

/-- The reads of a BINARY: for each element of DST its two operands. -/
def binaryPlan (a w t : Tensor) : List PlanStep :=
  t.elemIdx.flatMap fun i => [.elems 0 (a.same (t.coords i)) 1, .elems 1 (broadcastIdx w (t.coords i)) 1, .row]

/-- What a BINARY writes (R229). -/
def State.binaryEffect (s : State) (f : InFlight) (a w t : Tensor) : Effect :=
  roundedEffect t f
    (fun i => binaryV (f.desc.p 7 0) (s.elem a (a.same (t.coords i))) (s.elem w (broadcastIdx w (t.coords i)))) (fun _ => false)

def runBinary (c : Ctx) (f : InFlight) (s : State) : State × InFlight :=
  match f.src0, f.src1, f.dst with
  | some a, some w, some t => runVe (binaryPlan a w t) (s.binaryEffect f a w t) c f s
  | _, _, _ => (s, f)

/-- BINARY (R229). -/
def execBinary (q : Nat) (s : State) : Host.Outcome State Fault Refusal := .next (s.runOp q .binary runBinary)

/-- The reads of a UNARY. -/
def unaryPlan (a t : Tensor) : List PlanStep := t.elemIdx.flatMap fun i => [.elems 0 (a.same (t.coords i)) 1, .row]

/-- What a UNARY writes (R231 to R238). -/
def State.unaryEffect (s : State) (f : InFlight) (a t : Tensor) : Effect :=
  roundedEffect t f (fun i => unaryV (f.desc.p 7 0) (s.elem a (a.same (t.coords i)))) (fun i => s.srcSat a (a.same (t.coords i)))

def runUnary (c : Ctx) (f : InFlight) (s : State) : State × InFlight :=
  match f.src0, f.dst with
  | some a, some t => runVe (unaryPlan a t) (s.unaryEffect f a t) c f s
  | _, _ => (s, f)

/-- UNARY (R231 to R238). -/
def execUnary (q : Nat) (s : State) : Host.Outcome State Fault Refusal := .next (s.runOp q .unary runUnary)

/-! ### CVT (R205, R206, R266, R512) -/

/-- The XA96 value that a CVT stores for SRC0 element `i` before EXT.ACC (R205, R266). -/
def State.cvtXa (s : State) (f : InFlight) (a : Tensor) (i : Nat) : XA :=
  let k : Rat := if a.scale = 0 then 1
    else s.scaleOf f.hdr0 (a.scaleIndex (a.coords i).2.2.1 (a.coords i).2.2.2 i)
  if a.fmt = .xa96 then
    let x := s.xaElem a i
    if a.scale = 0 then x
    else
      let y := XA.enter (.fin ((x.s : Rat) * pow2 (x.exp - 32) * k))
      { y with sat := x.sat, trunc := y.trunc || x.trunc, nan := x.nan, pinf := x.pinf, ninf := x.ninf }
  else XA.enter ((s.elem a i).scale k)

/-- A CVT's outputs by SRC0 element: the DST index and the rounded code, or the XA96 element. -/
def State.cvtOut (s : State) (f : InFlight) (a t : Tensor) (i : Nat) : Nat × Rounded :=
  let o := t.same (a.coords i)
  if t.fmt = .xa96 then
    let x := s.cvtXa f a i
    let y := if f.desc.acc then XA.add (s.xaElem t o) x else x
    (o, { code := leNat y.bytes, sat := y.sat })
  else
    let sa : Rat := if a.scale = 0 then 1
      else s.scaleOf f.hdr0 (a.scaleIndex (a.coords i).2.2.1 (a.coords i).2.2.2 i)
    let sd : Rat := if t.scale = 0 then 1
      else s.scaleOf f.hdrD (t.scaleIndex (t.coords o).2.2.1 (t.coords o).2.2.2 o)
    let r := roundTo t.fmt ((s.elem a i).scale (sa / sd)) (f.word t (t.coords o))
    (o, { r with sat := r.sat || s.srcSat a i })

/-- The reads of a CVT, stream block by stream block of SRC0; its writes follow the whole block's reads (R200, R201,
R512). -/
def cvtPlan (f : InFlight) (a t : Tensor) : List PlanStep :=
  (List.range a.nblk).flatMap fun j =>
    let is := a.blockIdx j
    let os := is.map fun i => t.same (a.coords i)
    is.map (fun i => .elems 0 i 1) ++
      (if t.scale = 0 ∨ t.fmt = .xa96 then []
       else [.scales 2 ((os.map fun o => t.scaleIndex (t.coords o).2.2.1 (t.coords o).2.2.2 o).eraseDups)]) ++
      (if f.desc.acc then os.map (fun o => .elems 2 o 1) else []) ++ is.map (fun _ => .row)

/-- What a CVT writes (R205, R206, R266): in the order of SRC0's stream blocks. -/
def State.cvtEffect (s : State) (f : InFlight) (a t : Tensor) : Effect :=
  let outs := ((List.range a.nblk).flatMap a.blockIdx).map (s.cvtOut f a t)
  { rows := outs.map fun o => (o.1, o.2.code :: List.replicate (t.padAfter o.1) 0)
    groups := (List.range a.nblk).map fun j => (a.blockIdx j).length
    outs := outs.map (·.2)
    xaSat := t.fmt == .xa96 && outs.any (fun o => o.2.sat) }

def runCvt (c : Ctx) (f : InFlight) (s : State) : State × InFlight :=
  match f.src0, f.dst with
  | some a, some t =>
    let r := runEffect true true true (fun _ => 0) (cvtPlan f a t) (s.cvtEffect f a t) c f s
    (r.1.st, r.2)
  | _, _ => (s, f)

/-- CVT (R205). -/
def execCvt (q : Nat) (s : State) : Host.Outcome State Fault Refusal := .next (s.runOp q .cvt runCvt)

/-! ### REDUCE (R230) -/

/-- Storage indices in SRC0 along the axis, ascending, for a DST element. -/
def axisIdx (a t : Tensor) (axis i : Nat) : List Nat :=
  let c := t.coords i
  let n := if axis = 0 then a.d0 else if axis = 1 then a.d1 else if axis = 2 then a.d2 else a.d3
  (List.range n).map fun x =>
    a.index (if axis = 3 then x else c.1) (if axis = 2 then x else c.2.1) (if axis = 1 then x else c.2.2.1)
      (if axis = 0 then x else c.2.2.2)

/-- An element as it enters an XA96 sum (R180); an XA96 element enters as it is. -/
def State.enterElem (s : State) (a : Tensor) (i : Nat) : XA := if a.fmt = .xa96 then s.xaElem a i else XA.enter (s.elem a i)

/-- The place in a list of the largest value under R228: the lowest among equals, the lowest NaN where there is one. -/
def argMax (vs : List Val) : Nat :=
  match vs.findIdx? (fun v => v == .nan) with
  | some i => i
  | none => (vs.zipIdx.foldl (fun b v => if Val.lt b.1 v.1 then v else b) (vs.headD (.fin 0), 0)).2

/-- The reads of a REDUCE. -/
def reducePlan (f : InFlight) (a t : Tensor) : List PlanStep :=
  t.elemIdx.flatMap fun i => (axisIdx a t (f.desc.p 9 8) i).map (fun x => .elems 0 x 1) ++ [.row]

/-- What a REDUCE writes (R230): sums, the largest elements, or their places. -/
def State.reduceEffect (s : State) (f : InFlight) (a t : Tensor) : Effect :=
  let along := fun (i : Nat) => axisIdx a t (f.desc.p 9 8) i
  let vals := fun (i : Nat) => (along i).map (s.elem a)
  let sum := fun (i : Nat) => xaTree ((along i).map (s.enterElem a))
  let best := fun (i : Nat) => (along i).getD (argMax (vals i)) 0
  let fn := f.desc.p 7 0
  let xaOut := fun (i : Nat) => if fn = 0 then sum i else s.xaElem a (best i)
  if t.fmt = .xa96 then
    { rows := elementRows t (fun i => leNat (xaOut i).bytes)
      outs := t.elemIdx.map (fun i => { code := 0, sat := (xaOut i).sat })
      xaSat := t.elemIdx.any (fun i => (xaOut i).sat) }
  else if fn = 0 then roundedEffect t f (fun i => (sum i).val) (fun i => (sum i).sat)
  else if fn = 1 then roundedEffect t f (fun i => s.elem a (best i)) (fun _ => false)
  else roundedEffect t f (fun i => .fin ((argMax (vals i) : Nat) : Rat)) (fun _ => false)

def runReduce (c : Ctx) (f : InFlight) (s : State) : State × InFlight :=
  match f.src0, f.dst with
  | some a, some t => runVe (reducePlan f a t) (s.reduceEffect f a t) c f s
  | _, _ => (s, f)

/-- REDUCE (R230). -/
def execReduce (q : Nat) (s : State) : Host.Outcome State Fault Refusal := .next (s.runOp q .reduce runReduce)

/-! ### POOL (R225, R226) -/

/-- The window of a DST element, tap by tap row-major: a storage index, or nothing in zero padding (R213, R226). -/
def poolIdx (g : Geom) (a t : Tensor) (i : Nat) : List (Option Nat) :=
  let c := t.coords i
  (List.range g.kh).flatMap fun (kh : Nat) => (List.range g.kw).map fun (kw : Nat) =>
    match padIndex g.padMode ((c.2.1 : Int) * g.sh - g.pt + (kh : Int) * g.dh) a.d2,
          padIndex g.padMode ((c.2.2.1 : Int) * g.sw - g.pl + (kw : Int) * g.dw) a.d1 with
    | some ih, some iw => some (a.index c.1 ih iw c.2.2.2)
    | _, _ => none

/-- The largest value of a list under R228, 0 for none. -/
def maxVal (vs : List Val) : Val :=
  match vs with
  | [] => .fin 0
  | v :: rest => rest.foldl Val.max v

/-- The reads of a POOL: the elements of each window. -/
def poolPlan (f : InFlight) (a t : Tensor) : List PlanStep :=
  t.elemIdx.flatMap fun i => ((poolIdx f.desc.geom a t i).filterMap id).map (fun x => .elems 0 x 1) ++ [.row]

/-- What a POOL writes (R225, R226): the largest value of the window, or its mean. -/
def State.poolEffect (s : State) (f : InFlight) (a t : Tensor) : Effect :=
  let g := f.desc.geom
  let win := poolIdx g a t
  let sum := fun (i : Nat) => ((win i).map (fun o => match o with
    | some x => XA.enter (s.elem a x)
    | none => XA.zero)).foldl XA.add XA.zero
  if f.desc.p 54 53 = 0 then roundedEffect t f (fun i => maxVal ((win i).filterMap id |>.map (s.elem a))) (fun _ => false)
  else roundedEffect t f (fun i => (sum i).val.scale (1 / ((g.kh * g.kw : Nat) : Rat))) (fun i => (sum i).sat)

def runPool (c : Ctx) (f : InFlight) (s : State) : State × InFlight :=
  match f.src0, f.dst with
  | some a, some t => runVe (poolPlan f a t) (s.poolEffect f a t) c f s
  | _, _ => (s, f)

/-- POOL (R225, R226). -/
def execPool (q : Nat) (s : State) : Host.Outcome State Fault Refusal := .next (s.runOp q .pool runPool)

/-! ### NORM (R240) -/

/-- The row statistics of NORM (R240 steps 1 to 4): whether every output is NaN, whether it is saturated, mean and
reciprocal deviation. -/
def normRow (xs : List Val) (eps : Rat) : Bool × Bool × Val × Val :=
  let s1 := xaTree (xs.map XA.enter)
  let s2 := xaTree (xs.map (fun x => XA.enter (Val.mul x x)))
  let special := fun (x : XA) => x.nan || x.pinf || x.ninf
  let n : Rat := ((xs.length : Nat) : Rat)
  let mu := fp32 (s1.val.scale (1 / n))
  let v := fp32 (Val.max (.fin 0) (Val.add (s2.val.scale (1 / n)) (Val.mul mu mu).negate))
  let rs := match v with
    | .fin y => fp32 (.fin (sqrtSticky (1 / (y + eps))))
    | .pinf => .fin 0
    | _ => .nan
  (special s1 || special s2, s1.sat || s2.sat, mu, rs)

/-- Storage indices of SRC0 in the row of a DST element. -/
def normRowIdx (a t : Tensor) (i : Nat) : List Nat :=
  let k := t.coords i
  (List.range a.d0).map fun x => a.index k.1 k.2.1 k.2.2.1 x

/-- The reads of a NORM (R227): each row for its statistics, and in a second pass over SRC0 with gain and bias for its
outputs. -/
def normPlan (a w t : Tensor) : List PlanStep :=
  (t.elemIdx.filter (fun i => decide ((t.coords i).2.2.2 = 0))).flatMap fun i =>
    .pass 0 :: (normRowIdx a t i).map (fun x => .elems 0 x 1) ++ [.pass 1] ++ (List.range a.d0).flatMap fun x =>
      [.elems 0 ((normRowIdx a t i).getD x 0) 1, .elems 1 (w.index 0 0 0 x) 1, .elems 1 (w.index 0 0 1 x) 1, .row]

/-- EPS of a NORM (R240). -/
def normEps (f : InFlight) : Rat := match decodeCode .fp32 (f.desc.p 31 0) with | .fin e => e | _ => 0

/-- What a NORM writes (R240). -/
def State.normEffect (s : State) (f : InFlight) (a w t : Tensor) : Effect :=
  let row := fun (i : Nat) => normRow ((normRowIdx a t i).map (s.elem a)) (normEps f)
  let y := fun (i : Nat) =>
    let r := row i
    let ch := (t.coords i).2.2.2
    if r.1 then .nan
    else Val.add (Val.mul (Val.mul (Val.add (s.elem a (a.same (t.coords i))) r.2.2.1.negate) r.2.2.2)
      (s.elem w (w.index 0 0 0 ch))) (s.elem w (w.index 0 0 1 ch))
  roundedEffect t f y (fun i => (row i).2.1)

def runNorm (c : Ctx) (f : InFlight) (s : State) : State × InFlight :=
  match f.src0, f.src1, f.dst with
  | some a, some w, some t => runVe (normPlan a w t) (s.normEffect f a w t) c f s
  | _, _, _ => (s, f)

/-- NORM (R240). -/
def execNorm (q : Nat) (s : State) : Host.Outcome State Fault Refusal := .next (s.runOp q .norm runNorm)

/-! ### SCATTER (R78) -/

/-- Storage index of the DST element with a linear index over its logical dimensions, DIM0 fastest (DEDUCED,
assumption 13); none outside DST. -/
def scatterTarget (t : Tensor) (v : Val) : Option Nat :=
  match v with
  | .fin x =>
    if x < 0 ∨ ((t.elems : Nat) : Rat) ≤ x then none
    else
      let n := x.floor.toNat
      some (t.index (n / t.d0 / t.d1 / t.d2) (n / t.d0 / t.d1 % t.d2) (n / t.d0 % t.d1) (n % t.d0))
  | _ => none

/-- What element `i` adds to an INT32 element, mod 2^32: an integer itself; for any other value the manual gives no result, so
a free value of the element alone, which is the same in every run and split (R263; DESIGN CHOICE, assumption 14). -/
def State.scatterInt (s : State) (a : Tensor) (i : Nat) : Nat :=
  match s.elem a i with
  | .fin x => if x.den = 1 then ofSigned 32 x.num else Config.scatterFree a.fmt.code (s.code a i) % 2 ^ 32
  | _ => Config.scatterFree a.fmt.code (s.code a i) % 2 ^ 32

/-- The additions of a SCATTER in the order of SRC0: the contents of the elements touched so far, and the writes. -/
def State.scatterRows (s : State) (a w t : Tensor) : List Nat → List (Nat × Nat) → List Row → List (Nat × Nat) × List Row
  | [], cur, rows => (cur, rows.reverse)
  | i :: rest, cur, rows =>
    match scatterTarget t (s.elem w (w.same (a.coords i))) with
    | none => State.scatterRows s a w t rest cur rows
    | some o =>
      let before := (cur.lookup o).getD (leNat (s.peek (t.base + t.byteOff o) t.elemBytes))
      let after := if t.fmt = .xa96 then leNat (XA.add (XA.ofBytes (leBytes 16 before)) (s.enterElem a i)).bytes
        else (before + s.scatterInt a i) % 2 ^ 32
      State.scatterRows s a w t rest ((o, after) :: cur.filter (fun e => e.1 != o)) ((o, [after]) :: rows)

/-- The reads of a SCATTER: an element, its index and the DST element it adds to. -/
def State.scatterPlan (s : State) (a w t : Tensor) : List PlanStep :=
  a.elemIdx.flatMap fun i => [.elems 0 i 1, .elems 1 (w.same (a.coords i)) 1] ++
    (match scatterTarget t (s.elem w (w.same (a.coords i))) with | some o => [.elems 2 o 1, .row] | none => [])

/-- What a SCATTER writes (R78). -/
def State.scatterEffect (s : State) (a w t : Tensor) : Effect :=
  let r := s.scatterRows a w t a.elemIdx [] []
  let sat := fun (x : Nat) => t.fmt == .xa96 && (XA.ofBytes (leBytes 16 x)).sat
  { rows := r.2, outs := r.1.map (fun x => { code := 0, sat := sat x.2 }), xaSat := r.1.any (fun x => sat x.2)
    skipped := a.elemIdx.any (fun i => (scatterTarget t (s.elem w (w.same (a.coords i)))).isNone) }

def runScatter (c : Ctx) (f : InFlight) (s : State) : State × InFlight :=
  match f.src0, f.src1, f.dst with
  | some a, some w, some t =>
    runVe (s.scatterPlan a w t) (s.scatterEffect a w t) c f s
  | _, _, _ => (s, f)

/-- SCATTER (R78). -/
def execScatter (q : Nat) (s : State) : Host.Outcome State Fault Refusal := .next (s.runOp q .scatter runScatter)

end Sys2Proof.Machine
end

