-- ==== Sys2Proof/Machine/Dispatch.lean ====
section
/-! DEFINITION. What each command does to everything but the queue of commands: one arm per command. -/

namespace Sys2Proof.Machine

def exec (i : Instr) (s : State) : Host.Outcome State Fault Refusal :=
  match i with
  | .mm q => Sys2Proof.Machine.execMm q s
  | .conv q => Sys2Proof.Machine.execConv q s
  | .gslice q => Sys2Proof.Machine.execGslice q s
  | .binary q => Sys2Proof.Machine.execBinary q s
  | .unary q => Sys2Proof.Machine.execUnary q s
  | .cvt q => Sys2Proof.Machine.execCvt q s
  | .reduce q => Sys2Proof.Machine.execReduce q s
  | .pool q => Sys2Proof.Machine.execPool q s
  | .norm q => Sys2Proof.Machine.execNorm q s
  | .softmax q => Sys2Proof.Machine.execSoftmax q s
  | .scatter q => Sys2Proof.Machine.execScatter q s
  | .copy q => Sys2Proof.Machine.execCopy q s
  | .fill q => Sys2Proof.Machine.execFill q s
  | .send q => Sys2Proof.Machine.execSend q s
  | .msgwin q => Sys2Proof.Machine.execMsgwin q s
  | .publish q => Sys2Proof.Machine.execPublish q s
  | .sync q => Sys2Proof.Machine.execSync q s
  | .setsync q => Sys2Proof.Machine.execSetsync q s
  | .ring q => Sys2Proof.Machine.execRing q s
  | .commandStart q tile => Sys2Proof.Machine.execCommandStart q tile s
  | .commandRetire q cycles => Sys2Proof.Machine.execCommandRetire q cycles s
  | .shadowLoadSwap tile => Sys2Proof.Machine.execShadowLoadSwap tile s
  | .doorbell q value => Sys2Proof.Machine.execDoorbell q value s
  | .syncSignalApply cluster => Sys2Proof.Machine.execSyncSignalApply cluster s
  | .messageArrive tile => Sys2Proof.Machine.execMessageArrive tile s
  | .stagingUpdate => Sys2Proof.Machine.execStagingUpdate s
  | .beatStart => Sys2Proof.Machine.execBeatStart s
  | .scheduleRelease => Sys2Proof.Machine.execScheduleRelease s
  | .syncSet => Sys2Proof.Machine.execSyncSet s
  | .recordCommit => Sys2Proof.Machine.execRecordCommit s
  | .mirrorHeaderReceive check => Sys2Proof.Machine.execMirrorHeaderReceive check s
  | .mirrorHeaderTimeout => Sys2Proof.Machine.execMirrorHeaderTimeout s
  | .compare => Sys2Proof.Machine.execCompare s
  | .safeReadbackCheck safeAHigh safeBHigh => Sys2Proof.Machine.execSafeReadbackCheck safeAHigh safeBHigh s
  | .release => Sys2Proof.Machine.execRelease s
  | .checkerRunComplete => Sys2Proof.Machine.execCheckerRunComplete s
  | .checksumVerify entry => Sys2Proof.Machine.execChecksumVerify entry s
  | .selfTestStep target unit pass => Sys2Proof.Machine.execSelfTestStep target unit pass s
  | .selfTestStarved target unit => Sys2Proof.Machine.execSelfTestStarved target unit s
  | .ashMirrorProgram => Sys2Proof.Machine.execAshMirrorProgram s
  | .ashFetch hi => Sys2Proof.Machine.execAshFetch hi s
  | .ashFetchComplete => Sys2Proof.Machine.execAshFetchComplete s
  | .frameStart receiver vc csiFn => Sys2Proof.Machine.execFrameStart receiver vc csiFn s
  | .linePacket receiver vc dataType payload headerOk crcOk => Sys2Proof.Machine.execLinePacket receiver vc dataType payload headerOk crcOk s
  | .frameEnd receiver vc => Sys2Proof.Machine.execFrameEnd receiver vc s
  | .cameraNoFrameStart camera => Sys2Proof.Machine.execCameraNoFrameStart camera s
  | .pipelineFrameStart pipe => Sys2Proof.Machine.execPipelineFrameStart pipe s
  | .pipelineFrameComplete pipe => Sys2Proof.Machine.execPipelineFrameComplete pipe s
  | .arm die index value => Sys2Proof.Machine.execArm die index value s
  | .rangePacketReceive mac => Sys2Proof.Machine.execRangePacketReceive mac s
  | .rangeReplayInject mac => Sys2Proof.Machine.execRangeReplayInject mac s
  | .gridClose => Sys2Proof.Machine.execGridClose s
  | .decoderTailWrite die value => Sys2Proof.Machine.execDecoderTailWrite die value s
  | .decoderEntryStart die => Sys2Proof.Machine.execDecoderEntryStart die s
  | .decoderEntryFinish die => Sys2Proof.Machine.execDecoderEntryFinish die s
  | .replayFrameOffer die => Sys2Proof.Machine.execReplayFrameOffer die s
  | .tbTick => Sys2Proof.Machine.execTbTick s
  | .step => Sys2Proof.Machine.execStep s
  | .reepoch => Sys2Proof.Machine.execReepoch s
  | .reepochApply => Sys2Proof.Machine.execReepochApply s
  | .tbIncrWrite lo hi => Sys2Proof.Machine.execTbIncrWrite lo hi s
  | .tbSnapRead => Sys2Proof.Machine.execTbSnapRead s
  | .tbCapRead n => Sys2Proof.Machine.execTbCapRead n s
  | .offsetMeasurement offset => Sys2Proof.Machine.execOffsetMeasurement offset s
  | .sourceLost => Sys2Proof.Machine.execSourceLost s
  | .holdoverExpire => Sys2Proof.Machine.execHoldoverExpire s
  | .timeWordSend => Sys2Proof.Machine.execTimeWordSend s
  | .timeWordReceive die => Sys2Proof.Machine.execTimeWordReceive die s
  | .followerTimeout die => Sys2Proof.Machine.execFollowerTimeout die s
  | .followerCrossCheck die => Sys2Proof.Machine.execFollowerCrossCheck die s
  | .triggerPulseStart trig => Sys2Proof.Machine.execTriggerPulseStart trig s
  | .triggerPulseEnd trig => Sys2Proof.Machine.execTriggerPulseEnd trig s
  | .captureEdge cap level => Sys2Proof.Machine.execCaptureEdge cap level s
  | .windowClose cmp => Sys2Proof.Machine.execWindowClose cmp s
  | .ethReceive mac frame fcsOk => Sys2Proof.Machine.execEthReceive mac frame fcsOk s
  | .ethHpEnable mac lo hi => Sys2Proof.Machine.execEthHpEnable mac lo hi s
  | .ethHpDoorbell mac value => Sys2Proof.Machine.execEthHpDoorbell mac value s
  | .ethHpTransmit mac => Sys2Proof.Machine.execEthHpTransmit mac s
  | .latticeTimeExchange port offset => Sys2Proof.Machine.execLatticeTimeExchange port offset s
  | .engineWatchdog q cycles => Sys2Proof.Machine.execEngineWatchdog q cycles s
  | .tilePoll die slot answered => Sys2Proof.Machine.execTilePoll die slot answered s
  | .clusterHang cluster => Sys2Proof.Machine.execClusterHang cluster s
  | .regionHang region cause => Sys2Proof.Machine.execRegionHang region cause s
  | .dieHang die cause => Sys2Proof.Machine.execDieHang die cause s
  | .linkTimeout die isRing stillFails => Sys2Proof.Machine.execLinkTimeout die isRing stillFails s
  | .longWait q => Sys2Proof.Machine.execLongWait q s
  | .fenceDrainEnd die => Sys2Proof.Machine.execFenceDrainEnd die s
  | .dumpWrite die hung => Sys2Proof.Machine.execDumpWrite die hung s
  | .resetComplete die found entryTestOk => Sys2Proof.Machine.execResetComplete die found entryTestOk s
  | .reconcile => Sys2Proof.Machine.execReconcile s
  | .heartbeat die => Sys2Proof.Machine.execHeartbeat die s
  | .controllerTakeover die selfTestOk => Sys2Proof.Machine.execControllerTakeover die selfTestOk s
  | .agingMeasure die slot fStressed fRef => Sys2Proof.Machine.execAgingMeasure die slot fStressed fRef s
  | .emberBist cluster found => Sys2Proof.Machine.execEmberBist cluster found s
  | .fence die kind unit => Sys2Proof.Machine.execFence die kind unit s
  | .reset die kind unit => Sys2Proof.Machine.execReset die kind unit s
  | .ret die kind unit => Sys2Proof.Machine.execRet die kind unit s
  | .kill die => Sys2Proof.Machine.execKill die s
  | .bist die kind unit => Sys2Proof.Machine.execBist die kind unit s
  | .resume q value => Sys2Proof.Machine.execResume q value s
  | .busyClr tile => Sys2Proof.Machine.execBusyClr tile s
  | .tilArrRepairWrite agent tile value => Sys2Proof.Machine.execTilArrRepairWrite agent tile value s
  | .scrubLine addr testFails => Sys2Proof.Machine.execScrubLine addr testFails s
  | .scrubPassOverrun addr => Sys2Proof.Machine.execScrubPassOverrun addr s
  | .clearDirtyLine addr => Sys2Proof.Machine.execClearDirtyLine addr s
  | .dramMr4Poll channel twoX => Sys2Proof.Machine.execDramMr4Poll channel twoX s
  | .dramRetrain channel => Sys2Proof.Machine.execDramRetrain channel s
  | .commit => Sys2Proof.Machine.execCommit s
  | .abort => Sys2Proof.Machine.execAbort s
  | .txnVote die => Sys2Proof.Machine.execTxnVote die s
  | .txnDecide => Sys2Proof.Machine.execTxnDecide s
  | .txnApply => Sys2Proof.Machine.execTxnApply s
  | .stagePregus => Sys2Proof.Machine.execStagePregus s
  | .stageDie die selfTestOk => Sys2Proof.Machine.execStageDie die selfTestOk s
  | .stageImage => Sys2Proof.Machine.execStageImage s
  | .stageRegion region => Sys2Proof.Machine.execStageRegion region s
  | .unstage => Sys2Proof.Machine.execUnstage s
  | .save => Sys2Proof.Machine.execSave s
  | .ratchet comp => Sys2Proof.Machine.execRatchet comp s
  | .attest => Sys2Proof.Machine.execAttest s
  | .unlock => Sys2Proof.Machine.execUnlock s
  | .cvuCtxInit agent unit ctx value => Sys2Proof.Machine.execCvuCtxInit agent unit ctx value s
  | .cvuFeed agent unit ctx size data => Sys2Proof.Machine.execCvuFeed agent unit ctx size data s
  | .cvuResultRead unit ctx index => Sys2Proof.Machine.execCvuResultRead unit ctx index s
  | .scanStart agent unit => Sys2Proof.Machine.execScanStart agent unit s
  | .scanEnd unit => Sys2Proof.Machine.execScanEnd unit s
  | .registerWrite agent offset value => Sys2Proof.Machine.execRegisterWrite agent offset value s
  | .hostMemoryWrite offset bytes poisoned => Sys2Proof.Machine.execHostMemoryWrite offset bytes poisoned s
  | .hostMemoryRead offset len poisoned => Sys2Proof.Machine.execHostMemoryRead offset len poisoned s
  | .flashOpen slot => Sys2Proof.Machine.execFlashOpen slot s
  | .flashClose => Sys2Proof.Machine.execFlashClose s
  | .flashWindowWrite offset bytes => Sys2Proof.Machine.execFlashWindowWrite offset bytes s
  | .uciEvtRead => Sys2Proof.Machine.execUciEvtRead s
  | .mbTx word15 => Sys2Proof.Machine.execMbTx word15 s
  | .mbRxRead => Sys2Proof.Machine.execMbRxRead s
  | .ucieTrainingDone m0Up m0X8 m1Up m1X8 rate => Sys2Proof.Machine.execUcieTrainingDone m0Up m0X8 m1Up m1X8 rate s
  | .ucieModuleDown modIdx retrained x8 rate => Sys2Proof.Machine.execUcieModuleDown modIdx retrained x8 rate s
  | .hostLinkReset => Sys2Proof.Machine.execHostLinkReset s
  | .latticeTrainingDone port trained fourLanes => Sys2Proof.Machine.execLatticeTrainingDone port trained fourLanes s
  | .flitReceive port flit => Sys2Proof.Machine.execFlitReceive port flit s
  | .replayTimeout port retrainsFailed => Sys2Proof.Machine.execReplayTimeout port retrainsFailed s
  | .portDown port => Sys2Proof.Machine.execPortDown port s
  | .write port => Sys2Proof.Machine.execWrite port s
  | .writeAck port => Sys2Proof.Machine.execWriteAck port s
  | .signal port => Sys2Proof.Machine.execSignal port s
  | .signalAck port => Sys2Proof.Machine.execSignalAck port s
  | .hello port => Sys2Proof.Machine.execHello port s
  | .setChip port => Sys2Proof.Machine.execSetChip port s
  | .setRoute port => Sys2Proof.Machine.execSetRoute port s
  | .ack port => Sys2Proof.Machine.execAck port s
  | .resetNotice port => Sys2Proof.Machine.execResetNotice port s
  | .returnNotice port => Sys2Proof.Machine.execReturnNotice port s
  | .linkDown port => Sys2Proof.Machine.execLinkDown port s
  | .host port => Sys2Proof.Machine.execHost port s
  | .time port => Sys2Proof.Machine.execTime port s
  | .latSysChipWrite value => Sys2Proof.Machine.execLatSysChipWrite value s
  | .latRouteWrite chip value => Sys2Proof.Machine.execLatRouteWrite chip value s
  | .prgPorNRelease testEnLow bistOk fitted => Sys2Proof.Machine.execPrgPorNRelease testEnLow bistOk fitted s
  | .prgPorNAssert ns => Sys2Proof.Machine.execPrgPorNAssert ns s
  | .pgoodRise die => Sys2Proof.Machine.execPgoodRise die s
  | .pgoodTimeout die => Sys2Proof.Machine.execPgoodTimeout die s
  | .pgoodFall die => Sys2Proof.Machine.execPgoodFall die s
  | .thermalSample die temps volts valid => Sys2Proof.Machine.execThermalSample die temps volts valid s
  | .thermalTrip die => Sys2Proof.Machine.execThermalTrip die s
  | .overLog die => Sys2Proof.Machine.execOverLog die s
  | .sscOffWrite die value => Sys2Proof.Machine.execSscOffWrite die value s
  | .pwrIocfgWrite trig value => Sys2Proof.Machine.execPwrIocfgWrite trig value s
  | .jtagInstruction op => Sys2Proof.Machine.execJtagInstruction op s
  | .provisioningCommand cmd signerSlot message signature => Sys2Proof.Machine.execProvisioningCommand cmd signerSlot message signature s
  | .msixUnmask vector => Sys2Proof.Machine.execMsixUnmask vector s
  | .hostRegisterRead offset size => Sys2Proof.Machine.execHostRegisterRead offset size s
  | .latticeLaneDegrade port => Sys2Proof.Machine.execLatticeLaneDegrade port s
  | .ptpMessageSend mac frame tsCtrl => Sys2Proof.Machine.execPtpMessageSend mac frame tsCtrl s
  | .modulationMinimum die => Sys2Proof.Machine.execModulationMinimum die s

end Sys2Proof.Machine
end

