-- ==== Sys2Proof/Safety.lean ====
section
/-! DEFINITION. What counts as a sound state of the block, and the words in which the claims speak of commands that run. -/

namespace Sys2Proof

/-- The commands that store no byte of memory in any state, whatever their operands. -/
def Instr.storesNothing (i : Instr) : Bool :=
  match i with
  | .send _ | .msgwin _ | .publish _ | .sync _ | .setsync _ | .ring _ | .shadowLoadSwap _ | .doorbell _ _ | .syncSignalApply _
  | .scheduleRelease | .syncSet | .mirrorHeaderReceive _ | .mirrorHeaderTimeout | .compare | .safeReadbackCheck _ _ | .release
  | .checkerRunComplete | .selfTestStarved _ _ | .ashMirrorProgram | .ashFetch _ | .ashFetchComplete | .cameraNoFrameStart _ | .arm _ _ _
  | .decoderTailWrite _ _ | .decoderEntryStart _ | .tbTick | .step | .reepoch | .reepochApply | .tbIncrWrite _ _ | .tbSnapRead
  | .tbCapRead _ | .offsetMeasurement _ | .sourceLost | .holdoverExpire | .timeWordSend | .timeWordReceive _ | .followerTimeout _
  | .followerCrossCheck _ | .triggerPulseStart _ | .triggerPulseEnd _ | .captureEdge _ _ | .windowClose _ | .ethHpEnable _ _ _
  | .ethHpDoorbell _ _ | .latticeTimeExchange _ _ | .engineWatchdog _ _ | .longWait _ | .heartbeat _ | .controllerTakeover _ _
  | .agingMeasure _ _ _ _ | .fence _ _ _ | .reset _ _ _ | .ret _ _ _ | .bist _ _ _ | .resume _ _ | .busyClr _ | .tilArrRepairWrite _ _ _
  | .scrubPassOverrun _ | .dramMr4Poll _ _ | .dramRetrain _ | .abort | .txnVote _ | .txnDecide | .stagePregus | .stageDie _ _
  | .stageImage | .stageRegion _ | .unstage | .save | .ratchet _ | .unlock | .cvuCtxInit _ _ _ _ | .cvuFeed _ _ _ _ _
  | .cvuResultRead _ _ _ | .scanStart _ _ | .flashOpen _ | .flashClose | .flashWindowWrite _ _ | .uciEvtRead | .mbTx _ | .mbRxRead
  | .ucieTrainingDone _ _ _ _ _ | .ucieModuleDown _ _ _ _ | .hostLinkReset | .latticeTrainingDone _ _ _ | .flitReceive _ _
  | .replayTimeout _ _ | .portDown _ | .writeAck _ | .signal _ | .signalAck _ | .hello _ | .setChip _ | .setRoute _ | .ack _
  | .resetNotice _ | .returnNotice _ | .linkDown _ | .host _ | .time _ | .latSysChipWrite _ | .latRouteWrite _ _ | .prgPorNRelease _ _ _
  | .thermalSample _ _ _ _ | .overLog _ | .sscOffWrite _ _ | .pwrIocfgWrite _ _ | .jtagInstruction _ | .provisioningCommand _ _ _ _
  | .msixUnmask _ | .hostRegisterRead _ _ | .latticeLaneDegrade _ | .ptpMessageSend _ _ _ | .modulationMinimum _ => true
  | .mm _ | .conv _ | .gslice _ | .binary _ | .unary _ | .cvt _ | .reduce _ | .pool _ | .norm _ | .softmax _ | .scatter _ | .copy _
  | .fill _ | .commandStart _ _ | .commandRetire _ _ | .messageArrive _ | .stagingUpdate | .beatStart | .recordCommit | .checksumVerify _
  | .selfTestStep _ _ _ | .frameStart _ _ _ | .linePacket _ _ _ _ _ _ | .frameEnd _ _ | .pipelineFrameStart _ | .pipelineFrameComplete _
  | .rangePacketReceive _ | .rangeReplayInject _ | .gridClose | .decoderEntryFinish _ | .replayFrameOffer _ | .ethReceive _ _ _
  | .ethHpTransmit _ | .tilePoll _ _ _ | .clusterHang _ | .regionHang _ _ | .dieHang _ _ | .linkTimeout _ _ _ | .fenceDrainEnd _
  | .dumpWrite _ _ | .resetComplete _ _ _ | .reconcile | .emberBist _ _ | .kill _ | .scrubLine _ _ | .clearDirtyLine _ | .commit
  | .txnApply | .attest | .scanEnd _ | .registerWrite _ _ _ | .hostMemoryWrite _ _ _ | .hostMemoryRead _ _ _ | .write _
  | .prgPorNAssert _ | .pgoodRise _ | .pgoodTimeout _ | .pgoodFall _ | .thermalTrip _ => false

/-- The commands after which another image may be active, or none: the end of the start-up, the loss of power or a package reset, and
the effective instant of a transaction (R58, R63, R437, R447). -/
def Instr.mayActivate (i : Instr) : Bool :=
  match i with
  | .txnApply | .prgPorNAssert _ | .pgoodRise _ | .pgoodTimeout _ | .thermalTrip _ => true
  | .mm _ | .conv _ | .gslice _ | .binary _ | .unary _ | .cvt _ | .reduce _ | .pool _ | .norm _ | .softmax _ | .scatter _ | .copy _
  | .fill _ | .send _ | .msgwin _ | .publish _ | .sync _ | .setsync _ | .ring _ | .commandStart _ _ | .commandRetire _ _
  | .shadowLoadSwap _ | .doorbell _ _ | .syncSignalApply _ | .messageArrive _ | .stagingUpdate | .beatStart | .scheduleRelease | .syncSet
  | .recordCommit | .mirrorHeaderReceive _ | .mirrorHeaderTimeout | .compare | .safeReadbackCheck _ _ | .release | .checkerRunComplete
  | .checksumVerify _ | .selfTestStep _ _ _ | .selfTestStarved _ _ | .ashMirrorProgram | .ashFetch _ | .ashFetchComplete
  | .frameStart _ _ _ | .linePacket _ _ _ _ _ _ | .frameEnd _ _ | .cameraNoFrameStart _ | .pipelineFrameStart _
  | .pipelineFrameComplete _ | .arm _ _ _ | .rangePacketReceive _ | .rangeReplayInject _ | .gridClose | .decoderTailWrite _ _
  | .decoderEntryStart _ | .decoderEntryFinish _ | .replayFrameOffer _ | .tbTick | .step | .reepoch | .reepochApply | .tbIncrWrite _ _
  | .tbSnapRead | .tbCapRead _ | .offsetMeasurement _ | .sourceLost | .holdoverExpire | .timeWordSend | .timeWordReceive _
  | .followerTimeout _ | .followerCrossCheck _ | .triggerPulseStart _ | .triggerPulseEnd _ | .captureEdge _ _ | .windowClose _
  | .ethReceive _ _ _ | .ethHpEnable _ _ _ | .ethHpDoorbell _ _ | .ethHpTransmit _ | .latticeTimeExchange _ _ | .engineWatchdog _ _
  | .tilePoll _ _ _ | .clusterHang _ | .regionHang _ _ | .dieHang _ _ | .linkTimeout _ _ _ | .longWait _ | .fenceDrainEnd _
  | .dumpWrite _ _ | .resetComplete _ _ _ | .reconcile | .heartbeat _ | .controllerTakeover _ _ | .agingMeasure _ _ _ _
  | .emberBist _ _ | .fence _ _ _ | .reset _ _ _ | .ret _ _ _ | .kill _ | .bist _ _ _ | .resume _ _ | .busyClr _
  | .tilArrRepairWrite _ _ _ | .scrubLine _ _ | .scrubPassOverrun _ | .clearDirtyLine _ | .dramMr4Poll _ _ | .dramRetrain _ | .commit
  | .abort | .txnVote _ | .txnDecide | .stagePregus | .stageDie _ _ | .stageImage | .stageRegion _ | .unstage | .save | .ratchet _
  | .attest | .unlock | .cvuCtxInit _ _ _ _ | .cvuFeed _ _ _ _ _ | .cvuResultRead _ _ _ | .scanStart _ _ | .scanEnd _
  | .registerWrite _ _ _ | .hostMemoryWrite _ _ _ | .hostMemoryRead _ _ _ | .flashOpen _ | .flashClose | .flashWindowWrite _ _
  | .uciEvtRead | .mbTx _ | .mbRxRead | .ucieTrainingDone _ _ _ _ _ | .ucieModuleDown _ _ _ _ | .hostLinkReset
  | .latticeTrainingDone _ _ _ | .flitReceive _ _ | .replayTimeout _ _ | .portDown _ | .write _ | .writeAck _ | .signal _ | .signalAck _
  | .hello _ | .setChip _ | .setRoute _ | .ack _ | .resetNotice _ | .returnNotice _ | .linkDown _ | .host _ | .time _
  | .latSysChipWrite _ | .latRouteWrite _ _ | .prgPorNRelease _ _ _ | .pgoodFall _ | .thermalSample _ _ _ _ | .overLog _
  | .sscOffWrite _ _ | .pwrIocfgWrite _ _ | .jtagInstruction _ | .provisioningCommand _ _ _ _ | .msixUnmask _ | .hostRegisterRead _ _
  | .latticeLaneDegrade _ | .ptpMessageSend _ _ _ | .modulationMinimum _ => false

end Sys2Proof

namespace Sys2Proof.Machine

/-- Memory is in its one canonical form (addresses strictly rising, no byte listed that an unlisted address reads as). -/
def State.memWf (s : State) : Bool := Memory.wf s.mem

/-- The block drives its two safety outputs to safe state (R368). -/
def State.drivesSafe (s : State) : Bool := !s.saf.safeA && s.saf.safeB

/-- The block drives its two safety outputs to their inactive levels (R368). -/
def State.drivesInactive (s : State) : Bool := s.saf.safeA && !s.saf.safeB

/-- The byte of the device address space at an address, through the model's read of one byte. -/
def State.byteAt (s : State) (a : Nat) : Byte := SMap.get 0 s.mem a

/-- Memory holds no error: no flipped bit, no dirty tag, and no transfer of a DRAM channel fails. -/
def State.sound (s : State) : Prop :=
  s.flips = [] ∧ s.peatDirty = [] ∧ s.dramDirty = [] ∧ ∀ c, (s.chan c).linkBad = 0

/-- The command of the table that runs an opcode of queue `q`. -/
def Op.command (o : Op) (q : Nat) : Instr :=
  match o with
  | .mm => .mm q | .conv => .conv q | .gslice => .gslice q | .binary => .binary q | .unary => .unary q | .cvt => .cvt q
  | .reduce => .reduce q | .pool => .pool q | .norm => .norm q | .softmax => .softmax q | .scatter => .scatter q
  | .copy => .copy q | .fill => .fill q | .send => .send q | .msgwin => .msgwin q | .publish => .publish q
  | .sync => .sync q | .setsync => .setsync q | .ring => .ring q

/-- The oldest command in flight of queue `q` that has not run is `f`, of opcode `o`; no write that the queue's earlier commands sent
away is still to be performed (R84), it is the turn of `f` in the ME (R156), and its engine's Kindling holds no parity error (R109). -/
def State.running (s : State) (q : Nat) (o : Op) (f : InFlight) : Prop :=
  (s.queue q).current = some f ∧ Op.ofCode f.desc.opcode.toNat = some o ∧ s.writesPending q f.tile = false ∧
    s.meTurn f.tile f = true ∧ (s.tile f.tile).kindBad.contains o.engine = false

/-- How the reads of `plan` and the writes of `e` end for the command `f` of queue `q`. -/
def State.endedWith (s : State) (q : Nat) (f : InFlight) (consumes rounds exact : Bool) (verdict : State → Nat) (plan : List PlanStep)
    (e : Effect) : Ended :=
  (Run.plan (s.ctxOf q f) f consumes plan { st := s, used := if consumes then planElems plan else [] }).finish
    (s.ctxOf q f) f rounds exact verdict e

/-- The same for a command with no check of what it has written. -/
def State.ended (s : State) (q : Nat) (f : InFlight) (consumes rounds exact : Bool) (plan : List PlanStep) (e : Effect) : Ended :=
  s.endedWith q f consumes rounds exact (fun _ => 0) plan e

/-! ### When the reads and writes of a command succeed -/

/-- The command may reach a range of bytes: no carve-out of it is closed to the command, and no die of it is in reset (R131). -/
def State.opens (s : State) (c : Ctx) (a n : Nat) : Prop := s.carveClosed (some c.region) a n = false

/-- Scale `i` of a header may be read and is legal (R184). -/
def State.scaleGood (s : State) (c : Ctx) (h : ScaleHdr) (i : Nat) : Prop :=
  s.opens c (h.scales + 4 * i) 4 ∧ scaleLegal (leNat (s.peek (h.scales + 4 * i) 4)) = true

/-- The tags of stream block `j` of a consumed operand may be read and agree below 64, and its scales are good (R199 to R202). -/
def State.blockGood (s : State) (c : Ctx) (t : Tensor) (h : ScaleHdr) (j : Nat) : Prop :=
  s.opens c (t.base + t.trailerOff + j) 1 ∧ s.opens c (h.stags + j) 1 ∧
    leNat (s.peek (t.base + t.trailerOff + j) 1) < 64 ∧
    leNat (s.peek (h.stags + j) 1) = leNat (s.peek (t.base + t.trailerOff + j) 1) ∧ ∀ i ∈ t.blockScales j, s.scaleGood c h i

/-- A step of a command's plan may read what it reads, and what it reads raises no status: the elements of XA96 are canonical
(R174), and the tags and scales of a consumed block are good. -/
def State.stepGood (s : State) (c : Ctx) (f : InFlight) (consumes : Bool) : PlanStep → Prop
  | .elems o lo n => ∀ t : Tensor, (f.opnd o).1 = some t →
      let len := t.byteOff (lo + n - 1) + t.elemBytes - t.byteOff lo
      s.opens c (t.base + t.byteOff lo) len ∧
        (t.fmt = .xa96 → (chunks 16 (s.peek (t.base + t.byteOff lo) len)).all xaCanonical = true) ∧
        (consumes = true → o < 2 → t.scale ≠ 0 → ∀ h : ScaleHdr, (f.opnd o).2 = some h → ∀ j ∈ t.blocksOf lo n, s.blockGood c t h j)
  | .raw a n => s.opens c a n
  | .scales o idx => ∀ h : ScaleHdr, (f.opnd o).2 = some h → ∀ i ∈ idx, s.scaleGood c h i
  | _ => True

/-- A command may write its DST, and read the scale tags of the blocks that it writes (R203). -/
def State.dstGood (s : State) (c : Ctx) (f : InFlight) (e : Effect) : Prop :=
  ∀ t : Tensor, f.dst = some t → s.opens c t.base t.extent ∧
    ∀ h : ScaleHdr, f.hdrD = some h → ∀ n : Nat, ∀ j ∈ t.doneBlocks e.rows n, s.opens c (h.stags + j) 1

/-- Nothing stands in the way of the command `f` of queue `q` with this plan of reads and this effect: memory holds no error, and
what it reads and writes may be reached and raises no status. -/
def State.good (s : State) (q : Nat) (f : InFlight) (consumes : Bool) (plan : List PlanStep) (e : Effect) : Prop :=
  s.sound ∧ (∀ p ∈ plan, s.stepGood (s.ctxOf q f) f consumes p) ∧ s.dstGood (s.ctxOf q f) f e

/-- A command that has run with status 0x00 and the flags of its effect. -/
def InFlight.ran (f : InFlight) (e : Effect) : InFlight :=
  { f with executed := true, status := 0, sat := e.sat f.desc, xaSat := e.xaSat, trunc := e.trunc, nanIn := e.nanIn, infIn := e.infIn,
           skipped := e.skipped }

/-- The command `f` of queue `q` has run, and `o` is what its execution ended as: with status 0x00 and the flags of its effect, or
with the status of a failure, after the writes performed before it and with flags that some output raised. -/
def Ended.answers (d : Ended) (q : Nat) (f : InFlight) (e : Effect) (o : Host.Outcome State Fault Refusal) : Prop :=
  (d.status = 0 → o = .next (d.st.setCurrent q (f.ran e))) ∧
  (d.status ≠ 0 → ∃ free : Nat, o = .next (d.st.draw.2.setCurrent q { f.ends e d.status free with executed := true }))

/-- Words 0 of the entries of the event FIFO, oldest first (R464). -/
def State.eventWords (s : State) : List Word := s.link.events.map (·.word0)

/-- Between the two states exactly these events entered the FIFO, given as SEV, UNIT and STATUS, in order, unless it had no room
for all of them (R464). -/
def State.raisedTo (s t : State) (es : List (Nat × Nat × Nat)) : Prop :=
  s.link.events.length + es.length ≤ 1024 → t.eventWords = s.eventWords ++ es.map (fun e => evtWord0 e.1 e.2.1 e.2.2)

/-- A state whose safety requests are handled in service: start-up has not failed and no request is latched. -/
def State.unrequested (s : State) : Prop := s.saf.req = false ∧ s.boot ≠ .failed

end Sys2Proof.Machine
end

