-- ==== Sys2Proof/Certificates/Slice0/Obligations.lean ====
section
/-! DEFINITION. The statements for the provers: what the commands of the block do, by the rules of spec/. -/

open Sys2Proof Sys2Proof.Machine

/-- O1, tier 1 (INVENTORY.md Agents, notes/assumptions/2.md). For every command c and state s with c at the front of the
queue of waiting commands, step of s is exec of c on s with the queue's rest; with an empty queue the block idles (the
model's own choice, assumption 2). -/
def Obligations.StepRunsFront : Prop :=
  (∀ (c : Instr) (rest : List Instr) (s : State), s.pending = c :: rest → step s = exec c { s with pending := rest }) ∧
    (∀ s : State, s.pending = [] → step s = .next s)

/-- O2, tier 1 (R89, R98, R330, R367, R368, R421, R464, R496, R500, R504). At reset no command waits; the time base reads
zero and has not stepped; no result record has been written; no safe-state request is latched, SAFE_A_N is low and
SAFE_B high (the outputs are in safe state while start-up has not ended); every unit reads IN_SERVICE with GEN zero; no
event waits in the event FIFO; PWR_CLKCTRL.MOD is 1 and F_NOM 1,000 MHz on every die; no image is active and no start
has applied. -/
def Obligations.ResetValues : Prop :=
  State.reset.pending = [] ∧ State.reset.tb.now = 0 ∧ State.reset.tb.stepped = false ∧ State.reset.beat.wrSeq = 0 ∧
    State.reset.saf.req = false ∧ State.reset.drivesSafe = true ∧ State.reset.link.events = [] ∧
    State.reset.image = none ∧ State.reset.started = false ∧
    ∀ n : Nat, (State.reset.slot n).u.state = .inService ∧ (State.reset.slot n).u.gen = 0 ∧
      (State.reset.cluUnit n).state = .inService ∧ (State.reset.rgnUnit n).state = .inService ∧
      (State.reset.die n).clkMod = 1 ∧ (State.reset.die n).fNom = 1000

/-- O3, tier 1 (R105). The memory of the machine after reset is in canonical form (addresses strictly rising, no byte listed
that an unlisted address reads as). -/
def Obligations.ResetMemoryCanonical : Prop :=
  State.reset.memWf = true

/-- O4, tier 3 (R105, R126, R130, R135, R136). For every state whose memory is in canonical form, whatever command stands at
the front of its queue, a step that answers a next state leaves memory in canonical form, so that equal contents are
equal data. Every one of the 174 commands is covered. -/
def Obligations.MemoryStaysCanonical : Prop :=
  ∀ s t : State, s.memWf = true → step s = .next t → t.memWf = true

/-- O5, tier 2 (R105, R126). In a memory without errors a write of any length at any address succeeds; every byte of it then
reads as written, every other byte as before, and nothing but memory changes. -/
def Obligations.StoreReadsBack : Prop :=
  ∀ (s : State) (a : Nat) (bs : List Byte), s.sound →
    (s.store a bs).2 = 0 ∧ (s.store a bs).1 = { s with mem := (s.store a bs).1.mem } ∧
      ∀ x : Nat, (s.store a bs).1.byteAt x = if a ≤ x ∧ x < a + bs.length then bs.getD (x - a) 0 else s.byteAt x

/-- O6, tier 2 (R105, R124). In a memory without errors a read of any length at any address succeeds, gives the stored bytes
in order, and changes nothing. -/
def Obligations.FetchReadsMemory : Prop :=
  ∀ (s : State) (a n : Nat), s.sound →
    (s.fetch a n).status = 0 ∧ (s.fetch a n).st = s ∧ (s.fetch a n).data = (List.range n).map (fun i => s.byteAt (a + i))

/-- O7, tier 2 (R106). Within die window d, an offset A lies on local channel c mod 3, global channel d x 3 + (c mod 3),
with c = floor(A / 4,096), at channel offset floor(c / 3) x 4,096 + (A mod 4,096). No two addresses of a die window
share a channel and a channel offset. -/
def Obligations.DramInterleave : Prop :=
  (∀ d off : Nat, d < 4 → off < dramWindow →
    dramLocalChannel off = off / 4096 % 3 ∧ dramChannel (dramBase + d * dramWindow + off) = d * 3 + off / 4096 % 3 ∧
      dramChannelOffset (dramBase + d * dramWindow + off) = off / 4096 / 3 * 4096 + off % 4096) ∧
  ∀ d e a b : Nat, d < 4 → e < 4 → a < dramWindow → b < dramWindow →
    dramChannel (dramBase + d * dramWindow + a) = dramChannel (dramBase + e * dramWindow + b) →
    dramChannelOffset (dramBase + d * dramWindow + a) = dramChannelOffset (dramBase + e * dramWindow + b) → d = e ∧ a = b

/-- O8, tier 2 (R109, R85, notes/assumptions/149.md). For each of the nineteen opcodes: when the command that the engine
would run meets a parity error in the engine's Kindling, it ends with status 0x34, the error is counted in TIL_MEMERR,
TIL_MEMLAST reads 0x34 and SEV-055 is raised for the tile. It has made no write (the model's choice, assumption 149): no
byte of memory and no other queue changes. -/
def Obligations.KindlingErrorFailsCommand : Prop :=
  ∀ (o : Op) (s : State) (q : Nat) (f : InFlight), (s.queue q).current = some f → Op.ofCode f.desc.opcode.toNat = some o →
    s.writesPending q f.tile = false → s.meTurn f.tile f = true → (s.tile f.tile).kindBad.contains o.engine = true →
    ∃ t : State, exec (o.command q) s = .next t ∧ t.mem = s.mem ∧
      (t.queue q).inflight = Machine.setCurrent { f with executed := true, status := 0x34 } (s.queue q).inflight ∧
      (t.tile f.tile).memLast = 0x34 ∧ (t.tile f.tile).ueCount = satInc (s.tile f.tile).ueCount ∧
      s.raisedTo t [(55, f.tile, 0x34)] ∧
      ∀ p : Nat, p ≠ q → t.queue p = s.queue p

/-- O9, tier 1 (R82, R84, R156, notes/assumptions/3.md). For each of the nineteen opcodes: when the oldest command of the
queue that has not run is absent or of another opcode, nothing changes (the model's own choice for a command sent out of
turn, assumption 3); nor does anything while a write that an earlier command of the queue sent away is still to be
performed, or while the ME has a command that it accepted before. -/
def Obligations.EngineIdlesWithoutCommand : Prop :=
  (∀ (o : Op) (s : State) (q : Nat),
    (∀ f : InFlight, (s.queue q).current = some f → Op.ofCode f.desc.opcode.toNat ≠ some o) → exec (o.command q) s = .next s) ∧
  (∀ (o : Op) (s : State) (q : Nat) (f : InFlight), (s.queue q).current = some f →
    s.writesPending q f.tile = true ∨ s.meTurn f.tile f = false → exec (o.command q) s = .next s)

/-- O10, tier 1 (R76, R86). A SYNC that runs only ends its execution. A SETSYNC of an object of this chip whose cluster
takes it enters its value in the operations of the directory's next cycle, behind those that wait, in the order of
logical tile IDs; one of an object of another chip sets nothing and ends (the model's choice, assumption 19). one for a
cluster that takes nothing is dropped and counted. A RING, of its own queue or another, sets TAIL of the queue that it
names to the value that it carries when that queue's tile takes doorbells and the ring has room; with no room DBERR is
set, at a fenced tile the doorbell is dropped and counted, and a queue with no entry in the image takes none. In each
case the RING ends. -/
def Obligations.SyncEngineCommands : Prop :=
  (∀ (s : State) (q : Nat) (f : InFlight), s.running q .sync f →
    exec (.sync q) s = .next (s.setCurrent q { f with executed := true })) ∧
  (∀ (s : State) (q : Nat) (f : InFlight), s.running q .setsync f → refChip f.desc.signalRef.toNat = s.chip →
    s.clusterTakes (refCluster f.desc.signalRef.toNat) (s.draining f.tile) = true →
    ∃ t : State, exec (.setsync q) s = .next t ∧
      (t.cluster (refCluster f.desc.signalRef.toNat)).sets = (s.cluster (refCluster f.desc.signalRef.toNat)).sets ++
        [(1 + f.tile, refObject f.desc.signalRef.toNat, f.desc.signalAdd)] ∧
      t = { s with clusters := t.clusters, queues := t.queues } ∧
      (t.queue q).inflight = Machine.setCurrent { f with executed := true, sigDone := true } (s.queue q).inflight) ∧
  (∀ (s : State) (q : Nat) (f : InFlight), s.running q .setsync f → refChip f.desc.signalRef.toNat ≠ s.chip →
    exec (.setsync q) s = .next (s.setCurrent q { f with executed := true, sigDone := true })) ∧
  (∀ (s : State) (q : Nat) (f : InFlight), s.running q .setsync f → refChip f.desc.signalRef.toNat = s.chip →
    s.clusterTakes (refCluster f.desc.signalRef.toNat) (s.draining f.tile) = false →
    exec (.setsync q) s = .next ((s.dropAt (refCluster f.desc.signalRef.toNat / 4)).setCurrent q { f with executed := true, sigDone := true })) ∧
  (∀ (s : State) (q : Nat) (f : InFlight), s.running q .ring f →
    let n := f.desc.p 14 0
    let v := f.desc.p 31 16
    let ends := fun (t : State) => exec (.ring q) s = .next (t.setCurrent q { f with executed := true })
    (s.alloc n = none → ends s) ∧
    ∀ a : QueueAlloc, s.alloc n = some a →
      (s.tileOpen (tileOfQueue n) = false → ends (s.dropAt (dieOfTile (tileOfQueue n)))) ∧
      (s.tileOpen (tileOfQueue n) = true → 2 ^ a.ringLog2 < (v + 2 ^ 16 - (s.queue n).head.toNat) % 2 ^ 16 →
        ends (s.updQueue n (fun x => { x with dberr := true }))) ∧
      (s.tileOpen (tileOfQueue n) = true → (v + 2 ^ 16 - (s.queue n).head.toNat) % 2 ^ 16 ≤ 2 ^ a.ringLog2 →
        ends (s.updQueue n (fun x => { x with tail := BitVec.ofNat 16 v }))))

/-- O11, tier 2 (R76, R83, R87). A MSGWIN that runs only ends its execution; when it then retires with status 0x00 (its
signal sent or absent, in a state whose memory holds no error and in which no unit stands suspect), window PARAM[3:0] of
the tile that ran it is defined, with its base and its size from PARAM, the other windows of the tile are as before, and
it leaves the commands in flight. Both commands complete in every such state. -/
def Obligations.MsgwinDefinesWindow : Prop :=
  (∀ (s : State) (q : Nat) (f : InFlight), s.running q .msgwin f →
    exec (.msgwin q) s = .next (s.setCurrent q { f with executed := true })) ∧
  (∀ (s : State) (q : Nat) (cycles : Word) (f : InFlight) (rest : List InFlight) (a : QueueAlloc),
    (s.queue q).inflight = f :: rest → s.allocOf q f = some a → a.queue = q → f.executed = true → f.acksDue = 0 → f.status = 0 →
    (f.sigDone = true ∨ f.desc.hasSignal = false) → Op.ofCode f.desc.opcode.toNat = some .msgwin → s.sound → s.suspects = [] →
    ∃ t : State, exec (.commandRetire q cycles) s = .next t ∧ (t.queue q).inflight = rest ∧ (t.queue q).lastStatus = 0 ∧
      ∀ k : Nat, SMap.get {} (t.tile f.tile).windows k =
        if k = f.desc.p 3 0 then { defined := true, base := f.desc.p 30 8, size := f.desc.p 55 32 }
        else SMap.get {} (s.tile f.tile).windows k)

/-- O12, tier 2 (R75, R82, R85, R132, R133, R174, R196, R203). A FILL that runs ends with status 0x00 after it has written
its PARAM as the code of every element of DST, with zero padding lanes (and the trailer of a scaled DST); a COPY of an
unscaled tensor ends with status 0x00 after it has written the code of the SRC0 element at the same coordinates to every
element of DST. The state left is that of those writes in storage order, and nothing else changes but the command in
flight; when a read or a write fails, it is that of the writes performed before, and the command ends with the failing
status. When its memory holds no error and every range that it reads or writes may be reached, every XA96 element it
reads is canonical, and the tags and scales it consumes are good (conditions on the state and the operands alone), each
of them completes so. A COPY of a scaled tensor writes the codes and then, for every stream block of DST, the trailer
byte as SRC0 carries it; it reads no header and ends with status 0x00, or with that of the read or write that failed. -/
def Obligations.FillAndCopyComplete : Prop :=
  (∀ (s : State) (q : Nat) (f : InFlight) (t : Tensor), s.running q .fill f → f.dst = some t →
    let plan : List PlanStep := t.elemIdx.map fun _ => .row
    let e : Effect := { rows := elementRows t (fun _ => fillCode t f.desc) }
    let d := s.ended q f false false false plan e
    d.answers q f e (exec (.fill q) s) ∧
    (s.good q f false plan e → exec (.fill q) s = .next (d.st.setCurrent q (f.ran e)))) ∧
  (∀ (s : State) (q : Nat) (f : InFlight) (a t : Tensor), s.running q .copy f → f.src0 = some a → f.dst = some t → t.scale = 0 →
    let e : Effect := { rows := elementRows t (fun i => s.code a (a.same (t.coords i))) }
    let d := s.ended q f false false false (copyPlan a t) e
    d.answers q f e (exec (.copy q) s) ∧
    (s.good q f false (copyPlan a t) e → exec (.copy q) s = .next (d.st.setCurrent q (f.ran e)))) ∧
  (∀ (s : State) (q : Nat) (f : InFlight) (a t : Tensor), s.running q .copy f → f.src0 = some a → f.dst = some t → t.scale ≠ 0 →
    let e : Effect := { rows := s.copyRows a t }
    let d := s.ended q f false false false (copyPlan a t) e
    let w := State.copyTrailer (s.ctxOf q f) a t (t.doneBlocks e.rows d.performed) d.st
    (d.status = 0 → exec (.copy q) s = .next (w.1.setCurrent q { f.ran e with status := BitVec.ofNat 8 w.2 })) ∧
    (d.status ≠ 0 → exec (.copy q) s =
      .next ((State.copyTrailer (s.ctxOf q f) a t (t.doneBlocks e.rows d.performed) d.st.draw.2).1.setCurrent q { f.ran e with
        status := BitVec.ofNat 8 d.status })) ∧
    (s.good q f false (copyPlan a t) e → (∀ j : Nat, j < a.nblk → s.opens (s.ctxOf q f) (a.base + a.trailerOff + j) 1) →
      exec (.copy q) s = .next (w.1.setCurrent q (f.ran e))))

/-- O13, tier 2 (R82, R85, R174, R181, R183, R225, R226, R229, R230, R231, R240). BINARY, UNARY, POOL, REDUCE and NORM that
run end with status 0x00. For each element of DST they have written the rounding, under EXT.ROUND, of the rule's value:
for BINARY the function of the SRC0 element and the SRC1 element broadcast over its size-1 dimensions; for UNARY the
function of the SRC0 element; for POOL the largest value of the window or its mean; for REDUCE the sum, the largest
element or its place along the axis; for NORM the normalised element with gain and bias. SAT is the share of saturated
outputs against SAT_THRESH. When a read or a write fails, the state left is that of the writes performed before, and the
command ends with the failing status; which of its outputs count for its flags is a free choice (assumption 167). When
its memory holds no error and every range that it reads or writes may be reached, every XA96 element it reads is
canonical, and the tags and scales it consumes are good (conditions on the state and the operands alone), each of them
completes so. -/
def Obligations.VectorCommandsComplete : Prop :=
  (∀ (s : State) (q : Nat) (f : InFlight) (a w t : Tensor), s.running q .binary f → f.src0 = some a → f.src1 = some w → f.dst = some t →
    let e := roundedEffect t f
      (fun i => binaryV (f.desc.p 7 0) (s.elem a (a.same (t.coords i))) (s.elem w (broadcastIdx w (t.coords i)))) (fun _ => false)
    let d := s.ended q f false true false (binaryPlan a w t) e
    d.answers q f e (exec (.binary q) s) ∧
    (s.good q f false (binaryPlan a w t) e → exec (.binary q) s = .next (d.st.setCurrent q (f.ran e)))) ∧
  (∀ (s : State) (q : Nat) (f : InFlight) (a t : Tensor), s.running q .unary f → f.src0 = some a → f.dst = some t →
    let e := roundedEffect t f
      (fun i => unaryV (f.desc.p 7 0) (s.elem a (a.same (t.coords i)))) (fun i => s.srcSat a (a.same (t.coords i)))
    let d := s.ended q f false true false (unaryPlan a t) e
    d.answers q f e (exec (.unary q) s) ∧
    (s.good q f false (unaryPlan a t) e → exec (.unary q) s = .next (d.st.setCurrent q (f.ran e)))) ∧
  (∀ (s : State) (q : Nat) (f : InFlight) (a t : Tensor), s.running q .pool f → f.src0 = some a → f.dst = some t →
    let e := s.poolEffect f a t
    let d := s.ended q f false true false (poolPlan f a t) e
    d.answers q f e (exec (.pool q) s) ∧
    (s.good q f false (poolPlan f a t) e → exec (.pool q) s = .next (d.st.setCurrent q (f.ran e)))) ∧
  (∀ (s : State) (q : Nat) (f : InFlight) (a t : Tensor), s.running q .reduce f → f.src0 = some a → f.dst = some t →
    let e := s.reduceEffect f a t
    let d := s.ended q f false true false (reducePlan f a t) e
    d.answers q f e (exec (.reduce q) s) ∧
    (s.good q f false (reducePlan f a t) e → exec (.reduce q) s = .next (d.st.setCurrent q (f.ran e)))) ∧
  (∀ (s : State) (q : Nat) (f : InFlight) (a w t : Tensor), s.running q .norm f → f.src0 = some a → f.src1 = some w → f.dst = some t →
    let e := s.normEffect f a w t
    let d := s.ended q f false true false (normPlan a w t) e
    d.answers q f e (exec (.norm q) s) ∧
    (s.good q f false (normPlan a w t) e → exec (.norm q) s = .next (d.st.setCurrent q (f.ran e))))

/-- O14, tier 2 (R78, R85, R174, R201, R203, R205, R206, R246, R251, R252, R253, R512). CVT, SCATTER and SOFTMAX that run
end with status 0x00: CVT has written every SRC0 element, converted with its scales, in the order of SRC0's stream
blocks; SCATTER has added every SRC0 element whose index lies in DST, in the order of SRC0, and has set SKIPPED when one
did not; SOFTMAX has written, row by row, the statistics entry and the outputs that its MODE calls for. When a read or a
write fails, the state left is that of the writes performed before (of a SOFTMAX, a first part of them in their order),
and the command ends with the failing status; which of its outputs count for its flags is a free choice (assumption
167). When its memory holds no error and every range that it reads or writes may be reached, every XA96 element it reads
is canonical, and the tags and scales it consumes are good (conditions on the state and the operands alone), each of
them completes so; a SOFTMAX in STATS mode also needs that no entry of its rows holds a NEXT above its KBLK. -/
def Obligations.ConversionsComplete : Prop :=
  (∀ (s : State) (q : Nat) (f : InFlight) (a t : Tensor), s.running q .cvt f → f.src0 = some a → f.dst = some t →
    let e := s.cvtEffect f a t
    let d := s.ended q f true true true (cvtPlan f a t) e
    d.answers q f e (exec (.cvt q) s) ∧
    (s.good q f true (cvtPlan f a t) e → exec (.cvt q) s = .next (d.st.setCurrent q (f.ran e)))) ∧
  (∀ (s : State) (q : Nat) (f : InFlight) (a w t : Tensor), s.running q .scatter f → f.src0 = some a → f.src1 = some w → f.dst = some t →
    let e := s.scatterEffect a w t
    let d := s.ended q f false true false (s.scatterPlan a w t) e
    d.answers q f e (exec (.scatter q) s) ∧
    (s.good q f false (s.scatterPlan a w t) e → exec (.scatter q) s = .next (d.st.setCurrent q (f.ran e)))) ∧
  (∀ (s : State) (q : Nat) (f : InFlight) (a : Tensor), s.running q .softmax f → f.src0 = some a →
    let r := s.softmaxReads (s.ctxOf q f) f a
    let w := State.storeAll (s.ctxOf q f) (s.softmaxWrites f a) r.st
    let g := f.ran { outs := s.softmaxOuts f a }
    (r.status = 0 → w.2 = 0 → exec (.softmax q) s = .next (w.1.setCurrent q g)) ∧
    (r.status = 0 → w.2 ≠ 0 → ∃ sat : Bool, exec (.softmax q) s =
      .next (w.1.draw.2.setCurrent q { g with status := BitVec.ofNat 8 w.2, sat := sat })) ∧
    (r.status ≠ 0 → ∃ (n : Nat) (sat : Bool), n ≤ min r.rows (s.softmaxWrites f a).length ∧ exec (.softmax q) s =
      .next ((State.storeAll (s.ctxOf q f) ((s.softmaxWrites f a).take n) r.st.draw.2).1.draw.2.setCurrent q { g with
        status := BitVec.ofNat 8 r.status, sat := sat })) ∧
    (s.sound → (∀ p ∈ s.softmaxPlan f a, s.stepGood (s.ctxOf q f) f false p) →
      (∀ x ∈ s.softmaxWrites f a, s.opens (s.ctxOf q f) x.1 x.2.length) →
      (f.desc.p 49 48 = 1 → ∀ i : Nat, i < softmaxRows a →
        s.opens (s.ctxOf q f) (smAddr f.desc i) 32 ∧ (s.smOld f.desc i).next ≤ f.desc.p 56 51) →
      exec (.softmax q) s = .next (w.1.setCurrent q g)))

/-- O15, tier 2 (R85, R147, R148, R149, R150, R154, R167, R168, R181, R189, R204, R213). MM and CONV that run end with
status 0x00 after they have written the outputs of their job (each the rounding of the sum of products in the rule's
order, the window of a CONV gathered with its padding) to DST. TIL_ARR_BUSY grows by the outputs that passed the array,
and the active and shadow registers hold the last weight set, unless every set has been swapped in already. With RESIDUE
set and operands that have residues, a column whose residues differ from its sum sets RESIDUE_ERR and RES_COL and raises
SEV-016 (once for a command, the model's choice: assumption 162); with none, no event is raised by it. When a read or a
write fails, the command ends with the failing status, no weight set is swapped in by it, and the outputs that passed
the array are a number from those written to those that were ready. When its memory holds no error and every range that
it reads or writes may be reached, every XA96 element it reads is canonical, and the tags and scales it consumes are
good (conditions on the state and the operands alone), each of them completes so. -/
def Obligations.MatrixCommandsComplete : Prop :=
  (∀ (s : State) (q : Nat) (f : InFlight) (a w t : Tensor), s.running q .mm f → f.src0 = some a → f.src1 = some w → f.dst = some t →
    let j := MeJob.of .mm f.desc a w t
    let e := j.effect s f
    let d := s.ended q f true true false (j.plan f.desc) e
    let u := j.settle d.st s f f.tile d.ready (decide (f.swaps < j.sets.length))
    (d.status = 0 → exec (.mm q) s = .next (u.setCurrent q (f.ran e))) ∧
    (d.status ≠ 0 → ∃ n free : Nat, d.performed ≤ n ∧ n ≤ max d.performed d.ready ∧ exec (.mm q) s =
      .next ((j.settle d.st.draw.2.draw.2 s f f.tile n false).setCurrent q { f.ends e d.status free with executed := true })) ∧
    (s.good q f true (j.plan f.desc) e → exec (.mm q) s = .next (u.setCurrent q (f.ran e))) ∧
    (u.tile f.tile).busy = (d.st.tile f.tile).busy + BitVec.ofNat 32 d.ready ∧
    (∀ set : Nat × Nat, f.swaps < j.sets.length → j.sets.getLast? = some set →
      (u.tile f.tile).active = j.setRegs s (s.repairOf f.tile) set.1 set.2 ∧
      (u.tile f.tile).shadow = j.setRegs s (s.repairOf f.tile) set.1 set.2) ∧
    (j.sets.length ≤ f.swaps →
      (u.tile f.tile).active = (d.st.tile f.tile).active ∧ (u.tile f.tile).shadow = (d.st.tile f.tile).shadow) ∧
    (¬ ((s.tile f.tile).residue = true ∧ j.hasResidue = true ∧ j.badCols s f d.ready ≠ []) → d.st.raisedTo u []) ∧
    ∀ col : Nat, (s.tile f.tile).residue = true → j.hasResidue = true → (j.badCols s f d.ready).getLast? = some col →
      (u.tile f.tile).residueErr = true ∧ (u.tile f.tile).resCol = BitVec.ofNat 6 col ∧ d.st.raisedTo u [(16, f.tile, 0)]) ∧
  (∀ (s : State) (q : Nat) (f : InFlight) (a w t : Tensor), s.running q .conv f → f.src0 = some a → f.src1 = some w → f.dst = some t →
    let j := MeJob.of .conv f.desc a w t
    let e := j.effect s f
    let d := s.ended q f true true false (j.plan f.desc) e
    let u := j.settle d.st s f f.tile d.ready (decide (f.swaps < j.sets.length))
    (d.status = 0 → exec (.conv q) s = .next (u.setCurrent q (f.ran e))) ∧
    (d.status ≠ 0 → ∃ n free : Nat, d.performed ≤ n ∧ n ≤ max d.performed d.ready ∧ exec (.conv q) s =
      .next ((j.settle d.st.draw.2.draw.2 s f f.tile n false).setCurrent q { f.ends e d.status free with executed := true })) ∧
    (s.good q f true (j.plan f.desc) e → exec (.conv q) s = .next (u.setCurrent q (f.ran e))) ∧
    (u.tile f.tile).busy = (d.st.tile f.tile).busy + BitVec.ofNat 32 d.ready ∧
    (∀ set : Nat × Nat, f.swaps < j.sets.length → j.sets.getLast? = some set →
      (u.tile f.tile).active = j.setRegs s (s.repairOf f.tile) set.1 set.2 ∧
      (u.tile f.tile).shadow = j.setRegs s (s.repairOf f.tile) set.1 set.2) ∧
    (j.sets.length ≤ f.swaps →
      (u.tile f.tile).active = (d.st.tile f.tile).active ∧ (u.tile f.tile).shadow = (d.st.tile f.tile).shadow) ∧
    (¬ ((s.tile f.tile).residue = true ∧ j.hasResidue = true ∧ j.badCols s f d.ready ≠ []) → d.st.raisedTo u []) ∧
    ∀ col : Nat, (s.tile f.tile).residue = true → j.hasResidue = true → (j.badCols s f d.ready).getLast? = some col →
      (u.tile f.tile).residueErr = true ∧ (u.tile f.tile).resCol = BitVec.ofNat 6 col ∧ d.st.raisedTo u [(16, f.tile, 0)])

/-- O16, tier 2 (R371, R388). A GSLICE runs as an MM, and the CRC-64 over the stored bytes of DST is compared with PARAM
before a statistics record is written. When its reads and writes succeed and the CRC agrees, it ends with status 0x00
and leaves what an MM leaves; when one fails, it ends as an MM that fails. In a state in which nothing stands in the way
of its reads and writes it completes so when the CRC over what it writes agrees; when that CRC differs, it ends with
status 0x50, SEV-009 is raised for the tile with that status, the tile becomes suspect for event 9, and no statistics
record is written. -/
def Obligations.GoldenSliceSignature : Prop :=
  ∀ (s : State) (q : Nat) (f : InFlight) (a w t : Tensor), s.running q .gslice f → f.src0 = some a → f.src1 = some w → f.dst = some t →
    let j := MeJob.of .gslice f.desc a w t
    let e := j.effect s f
    let d := s.endedWith q f true true false (sliceVerdict f) (j.plan f.desc) e
    let u := j.settle d.st s f f.tile d.ready (decide (f.swaps < j.sets.length))
    let plain := s.ended q f true false false (j.plan f.desc) e
    (d.status = 0 → exec (.gslice q) s = .next (u.setCurrent q (f.ran e))) ∧
    (d.status ≠ 0 → d.status ≠ 0x50 → ∃ n free : Nat, d.performed ≤ n ∧ n ≤ max d.performed d.ready ∧ exec (.gslice q) s =
      .next ((j.settle d.st.draw.2.draw.2 s f f.tile n false).setCurrent q { f.ends e d.status free with executed := true })) ∧
    (s.good q f true (j.plan f.desc) e → crc 5 (plain.st.peek t.base t.storedBytes) = f.desc.param.toNat →
      exec (.gslice q) s = .next (u.setCurrent q (f.ran e))) ∧
    (s.good q f true (j.plan f.desc) e → crc 5 (plain.st.peek t.base t.storedBytes) ≠ f.desc.param.toNat →
      ∃ v : State, exec (.gslice q) s = .next v ∧ (UnitKind.slot, s.slotOfTile f.tile, 9) ∈ v.suspects ∧ v.mem = plain.st.mem ∧
        (((s.tile f.tile).residue && j.hasResidue) = false → s.raisedTo v [(9, f.tile, 0x50)]) ∧
        ∃ g : InFlight, (v.queue q).inflight = Machine.setCurrent g (s.queue q).inflight ∧ g.executed = true ∧ g.status = 0x50)

/-- O17, tier 2 (R75, R83, R87, R95, R174, R196, R203, R410, R477). A SEND to a tile of this chip that takes messages puts
one message with its window, its offset, its signal and the stored bytes (and trailer) of SRC0 behind those that wait at
the target's data engine, and then waits for one acknowledgement. A PUBLISH whose commit tile takes messages puts one
update with its payload offset, its bytes and its capture time behind those that wait for the staging record, and waits
for it to be performed. They do so whenever their reads succeed, and so in every state whose memory holds no error and
in which what they read may be reached and every XA96 element is canonical. When a read fails, the command ends with its
status and sends nothing. A SEND to a tile of this chip that takes no messages, and a PUBLISH whose commit tile takes
none, are discarded and counted, and the command ends with status 0x00 (the SEND without its signal). A SEND to another
chip sends its WRITE packets and then, where its signal is for that chip, the SIGNAL packet, and waits for an
acknowledgement of each; when one cannot be sent it ends with the status. A message that arrives at a tile that cannot
be reached is discarded and counted, and its command is acknowledged without its signal; one whose write fails gives its
command the failing status. -/
def Obligations.SendAndPublish : Prop :=
  (∀ (s : State) (q : Nat) (f : InFlight) (a : Tensor), s.running q .send f → f.src0 = some a →
    let plan := (if a.fmt = .xa96 then a.elemIdx.map (moveRead a) else [.raw a.base a.storedBytes]) ++
      (if a.scale = 0 then [] else [.raw (a.base + a.trailerOff) a.nblk])
    let r := Run.plan (s.ctxOf q f) f false plan { st := s }
    (r.status = 0 ∧ r.st.tileTakes f.tile (f.desc.p 5 0) = true) ∨
      (s.sound ∧ (∀ p ∈ plan, s.stepGood (s.ctxOf q f) f false p) ∧ s.tileTakes f.tile (f.desc.p 5 0) = true) →
    f.desc.p 9 6 = s.chip →
    ∃ t : State, ∃ m : Message, exec (.send q) s = .next t ∧
      (t.tile (f.desc.p 5 0)).msgs = (s.tile (f.desc.p 5 0)).msgs ++ [m] ∧
      m.window = f.desc.p 13 10 ∧ m.offset = f.desc.p 47 16 ∧ m.extent = a.extent ∧ m.parts = s.sendParts a ∧
      m.sender = some (q, f.pos.toNat) ∧
      (m.signal = if f.desc.hasSignal && refChip f.desc.signalRef.toNat == s.chip then some (f.desc.signalRef, f.desc.signalAdd) else none) ∧
      (t.queue q).inflight = Machine.setCurrent { f with
        executed := true, acksDue := 1, sigDone := f.desc.hasSignal && refChip f.desc.signalRef.toNat == s.chip } (s.queue q).inflight) ∧
  (∀ (s : State) (q : Nat) (f : InFlight) (a : Tensor), s.running q .send f → f.src0 = some a →
    let plan := (if a.fmt = .xa96 then a.elemIdx.map (moveRead a) else [.raw a.base a.storedBytes]) ++
      (if a.scale = 0 then [] else [.raw (a.base + a.trailerOff) a.nblk])
    let r := Run.plan (s.ctxOf q f) f false plan { st := s }
    let sig := f.desc.hasSignal && refChip f.desc.signalRef.toNat == f.desc.p 9 6
    let pk := fun (p : Nat × List Byte) =>
      ({ kind := 1, cls := 2, dst := f.desc.p 9 6, word4 := f.desc.p 5 0 + f.desc.p 13 10 * 64, word12 := f.desc.p 47 16 + p.1, data := p.2 } : Packet)
    let ks := (sendChunks (s.sendParts a)).map pk ++ (if sig then [signalPacket f.desc.signalRef.toNat f.desc.signalAdd.toNat] else [])
    let x := State.sendRequests (dieOfTile f.tile) q f.pos.toNat ks r.st 0
    (r.status ≠ 0 → exec (.send q) s = .next (r.st.setCurrent q { f with executed := true, status := BitVec.ofNat 8 r.status })) ∧
    (r.status = 0 → f.desc.p 9 6 = s.chip → r.st.tileTakes f.tile (f.desc.p 5 0) = false →
      exec (.send q) s = .next ((r.st.dropAt (dieOfTile (f.desc.p 5 0))).setCurrent q { f with executed := true, sigDone := true })) ∧
    (r.status = 0 → f.desc.p 9 6 ≠ s.chip → exec (.send q) s = .next (x.1.setCurrent q { f with
      executed := true, status := BitVec.ofNat 8 x.2.1, acksDue := if x.2.1 = 0 then x.2.2 else 0, sigDone := sig }))) ∧
  (∀ (s : State) (q : Nat) (f : InFlight) (a : Tensor), s.running q .publish f → f.src0 = some a →
    let r := Run.plan (s.ctxOf q f) f false [.raw a.base a.storedBytes, .raw f.desc.src1.toNat 8] { st := s }
    (r.status ≠ 0 → exec (.publish q) s = .next (r.st.setCurrent q { f with executed := true, status := BitVec.ofNat 8 r.status })) ∧
    (r.status = 0 → r.st.tileTakes f.tile r.st.commitTile = false →
      exec (.publish q) s = .next ((r.st.dropAt (dieOfTile r.st.commitTile)).setCurrent q { f with executed := true }))) ∧
  (∀ (s : State) (tile q pos : Nat) (m : Message) (rest : List Message), (s.tile tile).msgs = m :: rest → m.sender = some (q, pos) →
    let w := SMap.get {} (s.tile tile).windows m.window
    let s0 := s.updTile tile (fun x => { x with msgs := rest })
    let r := State.storeParts (tile * tileSize + w.base + m.offset) m.parts s0
    (s.tileReachable tile = false → exec (.messageArrive tile) s = .next ((s0.dropAt (dieOfTile tile)).ackDropped q pos)) ∧
    (tile < s.part.tiles → s.tileReachable tile = true → w.defined = true → m.offset + m.extent ≤ w.size → r.2 ≠ 0 →
      exec (.messageArrive tile) s = .next (r.1.failInFlight q pos r.2))) ∧
  (∀ (s : State) (q : Nat) (f : InFlight) (a : Tensor), s.running q .publish f → f.src0 = some a →
    let r := Run.plan (s.ctxOf q f) f false [.raw a.base a.storedBytes, .raw f.desc.src1.toNat 8] { st := s }
    (r.status = 0 ∧ r.st.tileTakes f.tile r.st.commitTile = true) ∨
      (s.sound ∧ s.opens (s.ctxOf q f) a.base a.storedBytes ∧ s.opens (s.ctxOf q f) f.desc.src1.toNat 8 ∧
        s.tileTakes f.tile s.commitTile = true) →
    ∃ t : State, ∃ u : StageUpdate, exec (.publish q) s = .next t ∧ t.beat.staging.updates = s.beat.staging.updates ++ [u] ∧
      u.sender = (q, f.pos.toNat) ∧ u.off = f.desc.p 7 0 ∧ u.bytes = s.peek a.base a.storedBytes ∧
      u.capture = BitVec.ofNat 64 (leNat (s.peek f.desc.src1.toNat 8)) ∧
      (t.queue q).inflight = Machine.setCurrent { f with executed := true, acksDue := 1 } (s.queue q).inflight)

/-- O18, tier 2 (R70, R80, R82, R85, R93, R103). When the head command of a queue can start on a tile and its engine takes
it there, COMMAND_START advances HEAD by one, spends one credit of a beat-released queue, clears WAIT, and puts the
command, with its position and its tile, behind those in flight; when decode fails the command holds the failing status
and does not run. No other queue changes, nor, unless the tile's memory still has to be zeroed, any byte of memory. When
the head command is ready but waits on its sync object, WAIT is set and nothing else of the queue changes but the
instant since which it waits. -/
def Obligations.CommandStartTakesHead : Prop :=
  (∀ (s : State) (q tile : Nat) (a : QueueAlloc), s.alloc q = some a → s.startTile a = some tile → s.arbitrated a tile = true →
    ∃ (t : State) (fl : InFlight), exec (.commandStart q tile) s = .next t ∧
      (t.queue q).head = (s.queue q).head + 1 ∧ (t.queue q).tail = (s.queue q).tail ∧ (t.queue q).wait = false ∧
      (a.doorbellOnly = false → (t.queue q).credit = (s.queue q).credit - 1) ∧
      (t.queue q).inflight = (s.queue q).inflight ++ [fl] ∧ fl.tile = tile ∧ fl.pos = BitVec.ofNat 16 (s.queue q).head.toNat ∧
      (fl.status ≠ 0 → fl.executed = true) ∧ (∀ p : Nat, p ≠ q → t.queue p = s.queue p) ∧
      ((s.tile tile).mustZero = false → t.mem = s.mem)) ∧
  (∀ (s : State) (q tile : Nat) (a : QueueAlloc), s.alloc q = some a → s.startTile a = none → s.headReady a = true →
    s.headWaits a (tileOfQueue q) = true →
    exec (.commandStart q tile) s =
      .next (s.updQueue q (fun x => { x with wait := true, waitSince := some (x.waitSince.getD s.mono) })))

/-- O19, tier 2 (R67, R83, R85). When the oldest command in flight of a queue has run, awaits no acknowledgement and has no
signal still to send, and no unit stands suspect (by the write of the entry or before it), COMMAND_RETIRE takes it out
of those in flight, writes its completion entry (status, flags, SEQ, start beat, cycles, tile, CRC-16) at its slot of
the ring, keeps the status as the queue's last, and sets ERR when the status is not 0x00. HEAD and TAIL stay, and no
other queue changes. (What a MSGWIN and a SETSYNC do besides when they retire is said of them.) -/
def Obligations.CommandRetireCompletes : Prop :=
  ∀ (s : State) (q : Nat) (cycles : Word) (f : InFlight) (rest : List InFlight) (a : QueueAlloc),
    (s.queue q).inflight = f :: rest → s.allocOf q f = some a → a.queue = q → f.executed = true → f.acksDue = 0 →
    (f.status ≠ 0 ∨ f.sigDone = true ∨ f.desc.hasSignal = false) → Op.ofCode f.desc.opcode.toNat ≠ some .msgwin →
    Op.ofCode f.desc.opcode.toNat ≠ some .setsync →
    (s.put (completionAddr a f.pos.toNat)
      (completionEntry (completionAddr a f.pos.toNat) f cycles.toNat (tileOfQueue q))).suspects = [] →
    ∃ t : State, exec (.commandRetire q cycles) s = .next t ∧ (t.queue q).inflight = rest ∧ (t.queue q).lastStatus = f.status ∧
      (t.queue q).err = ((s.queue q).err || (f.status != 0 && f.old.isNone)) ∧ (t.queue q).head = (s.queue q).head ∧
      (t.queue q).tail = (s.queue q).tail ∧
      t.mem = (s.put (completionAddr a f.pos.toNat)
        (completionEntry (completionAddr a f.pos.toNat) f cycles.toNat (tileOfQueue q))).mem ∧
      ∀ p : Nat, p ≠ q → t.queue p = s.queue p

/-- O20, tier 2 (R83, R86, R477). When a command that ended with status 0x00 retires and its signal is for a cluster of this
chip that takes it, SIGNAL_ADD is added to its object, modulo 2^32, in the cycle of the directory in which it retires:
that cycle applies the waiting sets first and then every waiting signal and this one, and leaves none waiting. When a
SETSYNC of an object of this chip retires with status 0x00, the cycle of the directory that sets it has run. A signal
for another chip leaves in a SIGNAL packet; the command waits for its acknowledgement, and retires at once with the
status when the packet cannot be sent (units that stand suspect are fenced with it). -/
def Obligations.RetireSignals : Prop :=
  (∀ (s : State) (q : Nat) (cycles : Word) (f : InFlight) (rest : List InFlight) (a : QueueAlloc),
    (s.queue q).inflight = f :: rest → s.allocOf q f = some a → f.executed = true → f.acksDue = 0 → f.status = 0 →
    f.sigDone = false → f.desc.hasSignal = true → Op.ofCode f.desc.opcode.toNat ≠ some .setsync →
    refChip f.desc.signalRef.toNat = s.chip → s.clusterTakes (refCluster f.desc.signalRef.toNat) (s.draining f.tile) = true →
    let c := refCluster f.desc.signalRef.toNat
    ∃ t : State, exec (.commandRetire q cycles) s = .next t ∧ (t.cluster c).sets = [] ∧ (t.cluster c).signals = [] ∧
      ∀ obj : Nat, t.syncCount c obj =
        ((((s.cluster c).sets.mergeSort (fun a b => decide (a.1 ≤ b.1))).filter (fun e => e.2.1 == obj)).getLast?.map (·.2.2)).getD
            (s.syncCount c obj) +
          (((s.cluster c).signals.filter (fun e => e.1 == obj)).map (·.2)).foldl (· + ·) 0 +
          (if obj = refObject f.desc.signalRef.toNat then f.desc.signalAdd else 0)) ∧
  (∀ (s : State) (q : Nat) (cycles : Word) (f : InFlight) (rest : List InFlight) (a : QueueAlloc),
    (s.queue q).inflight = f :: rest → s.allocOf q f = some a → f.executed = true → f.acksDue = 0 → f.status = 0 →
    f.sigDone = true → Op.ofCode f.desc.opcode.toNat = some .setsync → refChip f.desc.signalRef.toNat = s.chip →
    s.clusterTakes (refCluster f.desc.signalRef.toNat) (s.draining f.tile) = true →
    let c := refCluster f.desc.signalRef.toNat
    ∃ t : State, exec (.commandRetire q cycles) s = .next t ∧ t.cluster c = (s.cluster c).applySync) ∧
  (∀ (s : State) (q : Nat) (cycles : Word) (f : InFlight) (rest : List InFlight) (a : QueueAlloc),
    (s.queue q).inflight = f :: rest → s.allocOf q f = some a → f.executed = true → f.acksDue = 0 → f.status = 0 →
    f.sigDone = false → f.desc.hasSignal = true → Op.ofCode f.desc.opcode.toNat ≠ some .setsync →
    Op.ofCode f.desc.opcode.toNat ≠ some .msgwin → refChip f.desc.signalRef.toNat ≠ s.chip →
    let r := s.sendRequest (dieOfTile f.tile) (signalPacket f.desc.signalRef.toNat f.desc.signalAdd.toNat) q f.pos.toNat
    (r.2 = 0 → exec (.commandRetire q cycles) s = .next (r.1.setOldest q { f with sigDone := true, acksDue := 1 }).settle) ∧
    (r.2 ≠ 0 → exec (.commandRetire q cycles) s =
      .next (r.1.complete a { f with sigDone := true, status := BitVec.ofNat 8 r.2 } cycles.toNat).settle))

/-- O21, tier 2 (R86). SYNC_SIGNAL_APPLY first applies the waiting SETSYNC and SYNC_SET operations, in the order of schedule
entries and then of logical tile IDs, so that an object holds the last value set, or its old count; it then adds every
waiting signal, modulo 2^32. Nothing is left waiting, and no other cluster's objects change. -/
def Obligations.SyncDirectoryCycle : Prop :=
  ∀ (s : State) (c : Nat), ∃ t : State, exec (.syncSignalApply c) s = .next t ∧
    (∀ obj : Nat, t.syncCount c obj =
      ((((s.cluster c).sets.mergeSort (fun a b => decide (a.1 ≤ b.1))).filter (fun e => e.2.1 == obj)).getLast?.map (·.2.2)).getD
          (s.syncCount c obj) +
        (((s.cluster c).signals.filter (fun e => e.1 == obj)).map (·.2)).foldl (· + ·) 0) ∧
    (t.cluster c).sets = [] ∧ (t.cluster c).signals = [] ∧ (∀ d : Nat, d ≠ c → t.cluster d = s.cluster d) ∧
    t = { s with clusters := t.clusters, queues := t.queues }

/-- O22, tier 2 (R69). A doorbell whose (v − HEAD) mod 2^16 exceeds 2^RING_LOG2 leaves TAIL unchanged and sets DBERR of the
queue; any other doorbell to an allocated queue of an open tile sets TAIL to v and changes nothing else. -/
def Obligations.DoorbellRule : Prop :=
  ∀ (s : State) (q : Nat) (value : Word) (a : QueueAlloc), q < s.part.queues → s.alloc q = some a →
    s.tileOpen (tileOfQueue q) = true →
    (2 ^ a.ringLog2 < (value.toNat % 2 ^ 16 + 2 ^ 16 - (s.queue q).head.toNat) % 2 ^ 16 →
      exec (.doorbell q value) s = .next (s.updQueue q (fun x => { x with dberr := true }))) ∧
    ((value.toNat % 2 ^ 16 + 2 ^ 16 - (s.queue q).head.toNat) % 2 ^ 16 ≤ 2 ^ a.ringLog2 →
      exec (.doorbell q value) s = .next (s.updQueue q (fun x => { x with tail := BitVec.ofNat 16 value.toNat })))

/-- O23, tier 2 (R88). The message at the front of a reachable tile's data engine is taken. When it falls outside its window
in any byte, or names a window that was never defined, all of it is dropped: nothing is written, no signal of it is
applied then or later, TIL_MSGDROP of the tile counts it (saturating), and its sender's command receives its
acknowledgement and keeps status 0x00, with which it retires. A message that its window holds and whose writes succeed
is written from the window's base plus its offset on, and its sender receives its acknowledgement; with a signal, the
signal is added in a cycle of its directory after the bytes have been written. -/
def Obligations.MessageArrives : Prop :=
  ∀ (s : State) (tile : Nat) (m : Message) (rest : List Message), (s.tile tile).msgs = m :: rest → tile < s.part.tiles →
    s.tileReachable tile = true →
    let w := SMap.get {} (s.tile tile).windows m.window
    let s0 := s.updTile tile (fun x => { x with msgs := rest })
    let r := State.storeParts (tile * tileSize + w.base + m.offset) m.parts s0
    ((w.defined = false ∨ w.size < m.offset + m.extent) →
      ∃ t : State, exec (.messageArrive tile) s = .next t ∧ (t.tile tile).msgs = rest ∧
        (t.tile tile).msgdrop = satInc (s.tile tile).msgdrop ∧ t = { s with tiles := t.tiles, queues := t.queues } ∧
        (m.sender = none → t.queues = s.queues) ∧
        ∀ q pos : Nat, m.sender = some (q, pos) → ∀ p : Nat, (t.queue p).inflight = (s.queue p).inflight.map
          (fun f => if p = q ∧ f.pos.toNat = pos then { f with acksDue := f.acksDue - 1, sigDone := true } else f)) ∧
    (w.defined = true → m.offset + m.extent ≤ w.size → r.2 = 0 → m.signal = none → ∀ q pos : Nat, m.sender = some (q, pos) →
      exec (.messageArrive tile) s = .next (r.1.ackInFlight q pos)) ∧
    (w.defined = true → m.offset + m.extent ≤ w.size → r.2 = 0 → ∀ (g : Word × Word) (q pos : Nat), m.signal = some g →
      m.sender = some (q, pos) → exec (.messageArrive tile) s = .next ((r.1.applySignal true g.1.toNat g.2.toNat).ackInFlight q pos))

/-- O24, tier 2 (R83, R95, R96). With an update waiting and no commit due, STAGING_UPDATE takes the oldest one: the payload
bytes from its offset on become its bytes, other payload bytes stay, the field's capture time becomes the update's, and
the PUBLISH that sent it receives its acknowledgement. While a commit is due it does nothing. The bytes that the staging
record takes in the commit tile's memory are free values (assumption 22); every other byte of memory stays. With no
update waiting it does nothing. -/
def Obligations.StagingTakesUpdates : Prop :=
  (∀ (s : State) (u : StageUpdate) (rest : List StageUpdate), s.beat.staging.updates = u :: rest → s.commitDue = false →
    ∃ t : State, exec .stagingUpdate s = .next t ∧ t.beat.staging.updates = rest ∧
      (∀ x : Nat, SMap.get 0 t.beat.staging.payload x =
        if u.off ≤ x ∧ x < u.off + u.bytes.length then u.bytes.getD (x - u.off) 0 else SMap.get 0 s.beat.staging.payload x) ∧
      SMap.get 0 t.beat.staging.capture u.off = u.capture ∧
      (∀ p : Nat, (t.queue p).inflight = (s.queue p).inflight.map (fun f =>
        if p = u.sender.1 ∧ f.pos.toNat = u.sender.2 then { f with acksDue := f.acksDue - 1 } else f)) ∧
      ∀ x : Nat, ¬ (s.commitTile * tileSize + s.img.payload.stageOff ≤ x ∧ x < s.commitTile * tileSize + s.img.payload.stageOff + 256) →
        t.byteAt x = s.byteAt x) ∧
  (∀ s : State, s.commitDue = true ∨ s.beat.staging.updates = [] → exec .stagingUpdate s = .next s)

/-- O25, tier 1 (R153, R154, R155, R156, R159, R160, R161, R162). While the first command that a tile's array accepted and
that has not run has a further weight set, whose reads succeed, SHADOW_LOAD_SWAP puts the registers of that set, under
the tile's repair state, into the shadow and the active registers together, and the command steps to the set after it.
It completes so in every state in which memory holds no error and the set's elements, tags and scales may be reached and
are good. -/
def Obligations.ShadowSwap : Prop :=
  ∀ (s : State) (tile q : Nat) (o : Op) (f : InFlight) (j : MeJob) (set : Nat × Nat), s.meLoading tile = some (q, f) →
    Op.ofCode f.desc.opcode.toNat = some o → f.meJob o = some j → j.sets[f.swaps]? = some set →
    (j.setReadable (s.ctxOf q f) f s set = true ∨
      (s.sound ∧ ∀ p ∈ j.weightReads set.1 set.2, s.stepGood (s.ctxOf q f) f true p)) →
    exec (.shadowLoadSwap tile) s = .next ((s.updTile tile (fun x => { x with
      shadow := j.setRegs s (s.repairOf tile) set.1 set.2, active := j.setRegs s (s.repairOf tile) set.1 set.2 })).updQueue q
        (fun x => { x with inflight := x.inflight.map (fun g => if g.order = f.order then { g with swaps := g.swaps + 1 } else g) }))

/-- O26, tier 2 (R89, R347). When the next beat is due, BEAT_START begins it: the number of the next beat to start grows by
one and the frame becomes the frame that holds the beat, floor(n x BEAT_NS / FRAME_NS). Within a frame, with no unit
suspect and no committed entry held back, nothing else changes. At the first beat of a frame the schedule begins at its
first entry besides, the full one or the alternate of the region that went missing first. While no beat is due nothing
changes. -/
def Obligations.BeatStartCounts : Prop :=
  (∀ s : State, s.beatDue = true → s.isBoundary s.beat.next = false → s.suspects = [] → s.ctx.heldEntries = [] →
    exec .beatStart s = .next (s.updBeat (fun b => { b with next := b.next + 1, frame := b.next * s.beatNs / s.frameNs }))) ∧
  (∀ s : State, s.beatDue = true → s.isBoundary s.beat.next = true → s.ctx.heldEntries = [] →
    ∃ t : State, exec .beatStart s = .next t ∧ t.beat.next = s.beat.next + 1 ∧ t.beat.frame = s.frameOfBeat s.beat.next ∧
      t.beat.schedPos = 0 ∧ t.beat.missing = t.beat.missOrder.head?) ∧
  (∀ s : State, s.beatDue = false → exec .beatStart s = .next s)

/-- O27, tier 2 (R89). Beat n lies in frame floor(n x BEAT_NS / FRAME_NS); the first beat of frame k is the least beat that
does not start before the frame, ceil(k x FRAME_NS / BEAT_NS), so it lies in frame k or, where the frame is shorter than
a beat, in none before it; a beat is beat 0 of its frame exactly when it is that first beat. -/
def Obligations.BeatGrid : Prop :=
  ∀ (s : State) (n k : Nat), 0 < s.beatNs → s.beatNs ≤ s.frameNs →
    (s.firstBeat k ≤ n ↔ k ≤ s.frameOfBeat n) ∧ s.frameOfBeat (s.firstBeat k) = k ∧
      (s.isBoundary n = true ↔ n = s.firstBeat (s.frameOfBeat n))

/-- O28, tier 2 (R92). At a frame boundary every credit that a queue of the image still holds is discarded and added to
TIL_MISSED of its tile: after it no queue of the image holds credit, a tile whose queues held none keeps its count, and
the count of a tile of which one queue held credit grows by it (saturating). -/
def Obligations.CreditsDiscardedAtBoundary : Prop :=
  ∀ s : State, (∀ a : QueueAlloc, a ∈ s.img.queues → (s.discardCredits.queue a.queue).credit = 0) ∧
    (∀ t : Nat, (∀ a : QueueAlloc, a ∈ s.img.queues → tileOfQueue a.queue = t → (s.queue a.queue).credit = 0) →
      s.discardCredits.tile t = s.tile t) ∧
    (∀ a : QueueAlloc, a ∈ s.img.queues → (∀ b : QueueAlloc, b ∈ s.img.queues → tileOfQueue b.queue = tileOfQueue a.queue →
        b.queue ≠ a.queue → (s.queue b.queue).credit = 0) → (s.queue a.queue).credit ≠ 0 →
      (s.discardCredits.tile (tileOfQueue a.queue)).missed =
        satInc (s.tile (tileOfQueue a.queue)).missed (s.queue a.queue).credit.toNat) ∧
    s.discardCredits = { s with tiles := s.discardCredits.tiles, queues := s.discardCredits.queues }

/-- O29, tier 2 (R86, R91, R92, R404, R410). When the entry due is a release, SCHEDULE_RELEASE adds its count to the credit
of its queue, saturating at 255, or to TIL_MISSED while the queue's tile is not in service, and steps to the next entry.
When the entry due is a SYNC_SET for a cluster that is open, SYNC_SET enters its value in the directory's next cycle,
before the SETSYNC operations, and steps to the next entry; for a cluster that is not open the value is dropped and
counted. Neither acts while no entry of its kind is due. -/
def Obligations.ScheduleEntries : Prop :=
  (∀ (s : State) (e : SchedEntry), s.schedDue = some e → e.release = true → s.tileInService (tileOfQueue e.queue) = true →
    ∃ t : State, exec .scheduleRelease s = .next t ∧ (t.queue e.queue).credit = satInc (s.queue e.queue).credit e.count ∧
      t.beat.schedPos = s.beat.schedPos + 1 ∧ t = { s with queues := t.queues, beat := t.beat } ∧
      ∀ p : Nat, p ≠ e.queue → t.queue p = s.queue p) ∧
  (∀ (s : State) (e : SchedEntry), s.schedDue = some e → e.release = true → s.tileInService (tileOfQueue e.queue) = false →
    exec .scheduleRelease s =
      .next ((s.updTile (tileOfQueue e.queue) (fun x => { x with missed := satInc x.missed e.count })).updBeat
        (fun b => { b with schedPos := b.schedPos + 1 }))) ∧
  (∀ (s : State) (e : SchedEntry), s.schedDue = some e → e.release = false → s.clusterOpen (refCluster e.sync) = true →
    exec .syncSet s =
      .next ((s.updCluster (refCluster e.sync) (fun x => { x with sets := x.sets ++ [(0, refObject e.sync, BitVec.ofNat 32 e.value)] })).updBeat
        (fun b => { b with schedPos := b.schedPos + 1 }))) ∧
  (∀ (s : State) (e : SchedEntry), s.schedDue = some e → e.release = false → s.clusterOpen (refCluster e.sync) = false →
    exec .syncSet s = .next ((s.dropAt (refCluster e.sync / 4)).updBeat (fun b => { b with schedPos := b.schedPos + 1 }))) ∧
  (∀ s : State, (∀ e : SchedEntry, s.schedDue = some e → e.release = false) → exec .scheduleRelease s = .next s) ∧
  (∀ s : State, (∀ e : SchedEntry, s.schedDue = some e → e.release = true) → exec .syncSet s = .next s)

/-- O30, tier 2 (R19, R94, R96, R97, R98, R100, R101, R373, R402). When the record of a beat is due, its commit tile is in
service and the tile's region is not missing, RECORD_COMMIT steps to the next record. With room in the ring and no gap
to report, the record (header with the quality of R98, payload of the fields not omitted, WR_SEQ, CRC-32P4) is written
to its slot and then WR_SEQ, which grows by one as ALIVE does. With the ring full, WR_SEQ and ALIVE stay and LOST grows
by one, and no byte of memory but those of the ring's LOST changes. After a gap the records it counts are added to LOST
first. While the region of the commit tile is missing, or the tile is not in service, no record is committed: the gap
grows by one. While no record is due nothing changes. -/
def Obligations.RecordCommitWrites : Prop :=
  (∀ (s : State) (x : Nat × Option Nat), s.started = true → s.beat.commitNext < s.beat.next →
    s.beatStart (s.beat.commitNext + 1) ≤ s.now → s.schedOfBeat s.beat.commitNext = x →
    s.tileInService (s.commitTileOf s.beat.commitNext) = true → regionOfTile (s.commitTileOf s.beat.commitNext) ∉ s.beat.missOrder → s.beat.gap = 0 →
    let n := s.beat.commitNext
    let commit := timeWordOf (s.beatStart (n + 1))
    let o := s.oldest x.2
    let q := o.1.quality (s.frameOfBeat n) x.2 (s.beatStart (n + 1)) (isLate s.img.safety.maxAgeNs o.2 commit)
    let rec_ := o.1.recordBytes (o.1.recordHeader n q o.2 commit) (s.payload x.2)
    (s.ringFull = false → ∃ t : State, exec .recordCommit s = .next t ∧ t.beat.commitNext = n + 1 ∧
      t.beat.wrSeq = s.beat.wrSeq + 1 ∧ t.beat.alive = s.beat.alive + 1 ∧ t.beat.lost = s.beat.lost ∧
      t.mem = (((o.1.put (s.ringBase + 256 + 256 * (s.beat.wrSeq.toNat % 2 ^ s.img.payload.ringLog2)) rec_).updBeat (fun b => { b with
        wrSeq := b.wrSeq + 1, alive := b.alive + 1, satNext := false, invalidNext := false })).put s.ringBase
          (leBytes 4 (s.beat.wrSeq + 1).toNat)).mem) ∧
    (s.ringFull = true → ∃ t : State, exec .recordCommit s = .next t ∧ t.beat.commitNext = n + 1 ∧
      t.beat.wrSeq = s.beat.wrSeq ∧ t.beat.alive = s.beat.alive ∧ t.beat.lost = s.beat.lost + 1 ∧
      ∀ x : Nat, ¬ (s.ringBase + 8 ≤ x ∧ x < s.ringBase + 12) → t.byteAt x = s.byteAt x)) ∧
  (∀ (s : State), s.commitDue = true → s.tileInService (s.commitTileOf s.beat.commitNext) = true →
    regionOfTile (s.commitTileOf s.beat.commitNext) ∉ s.beat.missOrder → s.beat.gap ≠ 0 →
    ∃ t : State, exec .recordCommit s = .next t ∧ t.beat.commitNext = s.beat.commitNext + 1 ∧ t.beat.gap = 0 ∧
      t.beat.lost = s.beat.lost + s.beat.gap + (if s.ringFull then 1 else 0) ∧
      t.beat.wrSeq = s.beat.wrSeq + (if s.ringFull then 0 else 1) ∧ t.beat.alive = s.beat.alive + (if s.ringFull then 0 else 1)) ∧
  (∀ s : State, s.commitDue = false → exec .recordCommit s = .next s) ∧
  (∀ s : State, s.commitDue = true → (s.tileInService (s.commitTileOf s.beat.commitNext) = false ∨
      regionOfTile (s.commitTileOf s.beat.commitNext) ∈ s.beat.missOrder) →
    ∃ t : State, exec .recordCommit s = .next t ∧ t.beat.gap = s.beat.gap + 1 ∧ t.beat.wrSeq = s.beat.wrSeq ∧
      t.beat.alive = s.beat.alive ∧ t.beat.commitNext = s.beat.commitNext + 1 ∧ t.mem = s.mem)

/-- O31, tier 2 (R367, R368, R369, R388, R463, R464). Raising an event with room in the FIFO puts one entry with its SEV,
UNIT, STATUS and time stamp behind those that wait; without room it counts the entry as lost and sets OVF. An event
marked S latches the safe-state request with its number, if none is active and start-up has not failed, and drives
SAFE_A_N low and SAFE_B high, except in BENCH mode, which holds them inactive; any other event leaves the request and
the outputs alone. An event of an array (SEV-016, SEV-019) marks the next record INVALID; no other changes the beat's
part of the state, and nothing besides these parts changes. -/
def Obligations.EventRaising : Prop :=
  ∀ (s : State) (sev unit status : Nat) (stamp : Stamp) (detail : List Byte),
    (s.link.events.length < 1024 →
      (s.raiseAt sev unit status stamp detail).link.events = s.link.events ++ [{ word0 := evtWord0 sev unit status, stamp := stamp }] ∧
      (s.raiseAt sev unit status stamp detail).link.lost = s.link.lost) ∧
    (1024 ≤ s.link.events.length →
      (s.raiseAt sev unit status stamp detail).link.events = s.link.events ∧
      (s.raiseAt sev unit status stamp detail).link.lost = satInc s.link.lost ∧
      (s.raiseAt sev unit status stamp detail).link.ovf = true) ∧
    (sevRequestsSafe sev = true → s.unrequested →
      (s.raiseAt sev unit status stamp detail).saf.req = true ∧
      (s.raiseAt sev unit status stamp detail).saf.firstSev = BitVec.ofNat 9 sev ∧
      (s.isBench = false → (s.raiseAt sev unit status stamp detail).drivesSafe = true) ∧
      (s.isBench = true → (s.raiseAt sev unit status stamp detail).drivesInactive = true)) ∧
    (sevRequestsSafe sev = false → (s.raiseAt sev unit status stamp detail).saf = s.saf) ∧
    (s.raiseAt sev unit status stamp detail).beat = (if sev = 16 ∨ sev = 19 then { s.beat with invalidNext := true } else s.beat) ∧
    (s.raiseAt sev unit status stamp detail) = { s with
      saf := (s.raiseAt sev unit status stamp detail).saf, ash := (s.raiseAt sev unit status stamp detail).ash,
      link := (s.raiseAt sev unit status stamp detail).link, beat := (s.raiseAt sev unit status stamp detail).beat }

/-- O32, tier 2 (R374, R392). MIRROR_HEADER_RECEIVE takes the oldest header on its way. One whose CRC-16 over BEAT and its
bytes holds raises SEV-013 when the header was awaited and comes later than 2,000 ns after its beat's end, SEV-014 when
its BEAT is not the previous one plus one, and SEV-012 when its LATE bit disagrees with the age formed from OLDEST and
COMMIT, in this order, and the header after it is awaited. One whose CRC-16 fails counts as missing: SEV-013 is raised
once for its beat, and nothing else is judged. The whole record of CMP_BEAT is kept with the outcome of its CRC-32P4.
MIRROR_HEADER_TIMEOUT raises SEV-013 once for the awaited header when its time is over. -/
def Obligations.MirrorChecks : Prop :=
  (∀ (s : State) (m : Mirror) (rest : List Mirror) (recordOk : Bool), s.saf.mirrors = m :: rest → m.check = crc16Fold m.beat m.header →
    ∃ t : State, exec (.mirrorHeaderReceive ⟨true, recordOk⟩) s = .next t ∧ t.saf.mirrors = rest ∧
      t.saf.prevBeat = some (leAt m.header 0 8) ∧ t.saf.mirrorNext = max s.saf.mirrorNext (m.beat + 1) ∧
      s.raisedTo t (
        (if s.saf.mirrorNext ≤ m.beat ∧ s.mirrorDeadline m.beat < s.now then [(13, 0xFF, 0)] else []) ++
        (match s.saf.prevBeat with | some p => if leAt m.header 0 8 ≠ p + 1 then [(14, 0xFF, 0)] else [] | none => []) ++
        (if headerLateOk s.img.safety.maxAgeNs m.header then [] else [(12, 0xFF, 0)])) ∧
      (m.full ≠ [] → t.saf.mirrored = some (m, recordOk && leAt m.full 252 4 == crc 4 (m.full.take 252))) ∧
      t = { s with saf := t.saf, ash := t.ash, link := t.link }) ∧
  (∀ (s : State) (m : Mirror) (rest : List Mirror) (headerOk recordOk : Bool), s.saf.mirrors = m :: rest →
    (headerOk = false ∨ m.check ≠ crc16Fold m.beat m.header) →
    ∃ t : State, exec (.mirrorHeaderReceive ⟨headerOk, recordOk⟩) s = .next t ∧ t.saf.mirrors = rest ∧ t.saf.prevBeat = s.saf.prevBeat ∧
      t.saf.mirrorNext = max s.saf.mirrorNext (m.beat + 1) ∧ s.raisedTo t (if s.saf.mirrorNext ≤ m.beat then [(13, 0xFF, 0)] else []) ∧
      t = { s with saf := t.saf, ash := t.ash, link := t.link }) ∧
  (∀ s : State, s.started = true → s.mirrorDeadline s.saf.mirrorNext < s.now →
    ∃ t : State, exec .mirrorHeaderTimeout s = .next t ∧ t.saf.mirrorNext = s.saf.mirrorNext + 1 ∧ s.raisedTo t [(13, 0xFF, 0)] ∧
      t = { s with saf := t.saf, ash := t.ash, link := t.link })

/-- O33, tier 2 (R361, R362, R363, R364, R366). When the comparison of the next input frame is due and its record is not
exempt, COMPARE decides by the first row of R363 that applies: SAF_LASTCMP takes the row and its CMP code, the outcome
counts as disagreeing in rows 1 to 5, CHK_ONLY counts those rows and MAIN_ONLY row 6, and the row's event (SEV-004, 005,
006, 008, 001, 002, or none in row 7) is raised, followed by SEV-003 when the rule of R366 holds over the outcomes since
the start or the release. -/
def Obligations.CompareOutcome : Prop :=
  ∀ (s : State), s.cmpDue s.saf.cmpNext = true → (∀ m : Mirror × Bool, s.mirroredFor s.saf.cmpNext = some m → m.1.reepochOnly = false) →
    let row := (s.cmpRow s.saf.cmpNext).1
    let hist := (decide (row ≤ 5) :: s.saf.hist).take 256
    ∃ t : State, exec .compare s = .next t ∧ t.saf.row = row ∧ t.saf.cmp = rowCmp row ∧ t.saf.counted = decide (row ≤ 5) ∧
      t.saf.cmpNext = s.saf.cmpNext + 1 ∧ t.saf.hist = hist ∧ t.saf.cmpAt = some s.now ∧
      t.saf.chkOnly = (if row ≤ 5 then satInc s.saf.chkOnly else s.saf.chkOnly) ∧
      t.saf.mainOnly = (if row = 6 then satInc s.saf.mainOnly else s.saf.mainOnly) ∧
      s.raisedTo t ((if rowSev row = 0 then [] else [(rowSev row, 0xFF, 0)]) ++
        (if disagreeRule s.img.safety hist then [(3, 0xFF, 0)] else [])) ∧ t.mem = s.mem

/-- O34, tier 2 (R367, R368, R369, R370). SAFE_READBACK_CHECK keeps the levels read at the balls and raises SEV-022 when,
while a request is active, either ball does not stand where the request puts it although that ball stood there before,
or 10,000 ns have passed since the request. RELEASE without a request reads status 0x00; with a cause left it is refused
with 0x52 and changes nothing else; with none left after the start it is accepted with 0x00 and waits for the next frame
boundary; before the start it acts at once, with SEV-025 and the outputs inactive. -/
def Obligations.SafeStateOutputs : Prop :=
  (∀ (s : State) (a b : Bool), ∃ t : State, exec (.safeReadbackCheck a b) s = .next t ∧ t.saf.safeARb = a ∧ t.saf.safeBRb = b ∧
    s.raisedTo t (if s.saf.req = true ∧
        ((a ≠ s.isBench ∧ (s.saf.safeARb = s.isBench ∨ s.saf.reqAt + nsInst 10000 ≤ s.mono)) ∨
         (b ≠ !s.isBench ∧ (s.saf.safeBRb = !s.isBench ∨ s.saf.reqAt + nsInst 10000 ≤ s.mono))) then [(22, 0xFF, 0)] else []) ∧
    t = { s with saf := t.saf, ash := t.ash, link := t.link }) ∧
  (∀ s : State, s.saf.req = false → exec .release s = .next (s.updSaf (fun f => { f with last := 0 }))) ∧
  (∀ s : State, s.saf.req = true → s.releaseOk = false → exec .release s = .next (s.updSaf (fun f => { f with last := 0x52 }))) ∧
  (∀ s : State, s.saf.req = true → s.releaseOk = true → s.started = true →
    exec .release s = .next (s.updSaf (fun f => { f with last := 0, releasePend := true }))) ∧
  (∀ s : State, s.saf.req = true → s.releaseOk = true → s.started = false →
    ∃ t : State, exec .release s = .next t ∧ t.saf.req = false ∧ t.saf.last = 0 ∧ t.saf.hist = [] ∧ t.saf.firstSev = 0 ∧
      t.drivesInactive = true ∧ s.raisedTo t [(25, 0xFF, 0)])

/-- O35, tier 2 (R357, R360, R376, R388, R401). CHECKER_RUN_COMPLETE ends the run in progress and keeps buffer 31, formed
from its input buffers by the image's layers, with its frame and its instant. In the first frame, CHECKSUM_VERIFY of an
entry not yet verified whose turn it is (a region's two units take its entries in order) runs its scan on the first of
its units that is idle and marks it verified; when the CRC-64 agrees nothing is raised by it, and when it does not,
SEV-018 with status 0x53 is raised for the entry's region and safe state is requested. -/
def Obligations.CheckerAndChecksums : Prop :=
  (∀ (s : State) (r : CheckerRun), s.saf.run = some r →
    exec .checkerRunComplete s = .next (s.updSaf (fun f => { f with
      run := none, result := some (r.k, r.noInput, s.now, s.img.checker.output r.bufs) }))) ∧
  (∀ (s : State) (i cvu : Nat) (e : ChkSum), s.img.checker.sums[i]? = some e → s.sumUnit e = some cvu → s.sumWaiter i = none → s.started = true → 0 < s.beat.next →
    s.beat.frame = 0 → i ∉ s.saf.sumsDone → s.sumInOrder i e s.saf.sumsDone = true →
    ∃ t u : State, exec (.checksumVerify i) s = .next t ∧ t = u.settle ∧ u.saf.sumsDone = i :: s.saf.sumsDone ∧ u.mem = s.mem ∧
      ((s.verifySum cvu e).2 = true → u = (s.verifySum cvu e).1.updSaf (fun f => { f with sumsDone := i :: f.sumsDone })) ∧
      ((s.verifySum cvu e).2 = false → s.unrequested → u.saf.req = true ∧
        (s.verifySum cvu e).1.raisedTo u [(18, sumTag e, 0x53)]))

/-- O36, tier 2 (R377, R378, R379, R388, notes/assumptions/148.md). A step whose target exists in service and that may run
now (its engine idle and without credit, its beat with time left, no comparison in progress) completes: a step that
passed counts in its target's round; with the last step of the round the round begins again and a failed Pregus target
has recovered. A step that fails on a Pregus target records it as failed and raises SEV-020, which requests safe state;
one that fails on a compute-side target raises SEV-019 and makes the unit SUSPECT. A step that may not run now is
deferred. After the start, a target whose round has not completed within LATENT_MS of its beginning, the first of which
is the start, raises SEV-021 and its time begins again; its place in the round stays. -/
def Obligations.SelfTests : Prop :=
  (∀ (s : State) (g : TestTarget) (unit : Nat), s.testExists g unit = true → s.testRuns g unit = true →
    ∃ t : State, exec (.selfTestStep g unit true) s = .next t ∧ t = { s with saf := t.saf } ∧
      (if testSteps g ≤ (SMap.get (0, 0) s.saf.tests (testKey g unit)).1 + 1 then
        SMap.get (0, 0) t.saf.tests (testKey g unit) = (0, s.mono) ∧ g ∉ t.saf.failedTests
      else
        SMap.get (0, 0) t.saf.tests (testKey g unit) =
          ((SMap.get (0, 0) s.saf.tests (testKey g unit)).1 + 1, (SMap.get (0, 0) s.saf.tests (testKey g unit)).2) ∧
        t.saf.failedTests = s.saf.failedTests)) ∧
  (∀ (s : State) (g : TestTarget) (unit : Nat), s.testExists g unit = true → s.testRuns g unit = true → s.testUnit g unit = none →
    ∃ t : State, exec (.selfTestStep g unit false) s = .next t ∧ g ∈ t.saf.failedTests ∧ s.raisedTo t [(20, 0xFF, 0)] ∧
      (s.unrequested → t.saf.req = true) ∧ t = { s with saf := t.saf, ash := t.ash, link := t.link }) ∧
  (∀ (s : State) (g : TestTarget) (unit : Nat) (k : UnitKind) (u : Nat), s.testExists g unit = true → s.testRuns g unit = true →
    s.testUnit g unit = some (k, u) → s.underRecovery k u = false → s.recoveryHeld k u = false → s.suspects = [] → (s.die (dieOfUnit k u)).fences = [] →
    ∃ t : State, exec (.selfTestStep g unit false) s = .next t ∧ (t.unit k u).state = .suspect ∧ (t.unit k u).cause = 19 ∧
      (t.unit k u).resetReq = true ∧ t.beat.invalidNext = true ∧
      (s.link.events.length + 2 ≤ 1024 → ∃ more : List Word,
        t.eventWords = s.eventWords ++ [evtWord0 19 (s.unitTag k u) 0, evtWord0 209 (s.unitTag k u) 0] ++ more)) ∧
  (∀ (s : State) (g : TestTarget) (unit : Nat) (pass : Bool), s.testRuns g unit = false → exec (.selfTestStep g unit pass) s = .next s) ∧
  (∀ (s : State) (g : TestTarget) (unit : Nat), s.started = true → s.testExists g unit = true →
    max s.saf.testsFrom (SMap.get (0, 0) s.saf.tests (testKey g unit)).2 + nsInst (s.img.safety.latentMs * 1000000) < s.mono →
    ∃ t : State, exec (.selfTestStarved g unit) s = .next t ∧
      SMap.get (0, 0) t.saf.tests (testKey g unit) = ((SMap.get (0, 0) s.saf.tests (testKey g unit)).1, s.mono) ∧
      s.raisedTo t [(21, (match s.testUnit g unit with | some e => s.unitTag e.1 e.2 | none => 0xFF), 0)])

/-- O37, tier 2 (R384, R385, R387). With a full page, or one second after the page's first entry, ASH_MIRROR_PROGRAM
programs up to 64 entries into the next page of the flash mirror, where they then read back, and steps to the page after
it. ASH_FETCH takes the upper half of the sequence number and sets BUSY. ASH_FETCH_COMPLETE clears BUSY and gives the
entry of that number from the ring while the ring holds it. -/
def Obligations.AshLogCommands : Prop :=
  (∀ s : State, 64 ≤ s.ash.page.length ∨ (s.ash.page ≠ [] ∧ s.ash.pageAt + nsInst (10 ^ 9) ≤ s.mono) →
    ∃ t : State, exec .ashMirrorProgram s = .next t ∧ t.ash.page = s.ash.page.drop 64 ∧
      t.ash.mirrorPage = (s.ash.mirrorPage + 1) % ashPages ∧
      (∀ i : Nat, i < ((s.ash.page.take 64).flatMap id).length →
        SMap.get 0xFF t.flash (ashMirror + s.ash.mirrorPage * 4096 + i) = ((s.ash.page.take 64).flatMap id).getD i 0) ∧
      t = { s with flash := t.flash, ash := t.ash }) ∧
  (∀ (s : State) (hi : Word), exec (.ashFetch hi) s = .next (s.updAsh (fun a => { a with selHi := hi, rdBusy := true }))) ∧
  (∀ s : State, s.ash.rdBusy = true →
    let seq := s.ash.selLo.toNat + 2 ^ 32 * s.ash.selHi.toNat
    let e := SMap.get [] s.ash.ring (seq % 131072)
    ∃ t : State, exec .ashFetchComplete s = .next t ∧ t.ash.rdBusy = false ∧ t = { s with ash := t.ash } ∧
      (seq < s.ash.head.toNat → s.ash.head.toNat ≤ seq + 131072 → leAt e 0 8 = seq → e ≠ [] →
        t.ash.data = e ∧ t.ash.rdGone = false ∧ t.ash.rdFlash = false))

/-- O38, tier 2 (R277, R278, R281, R282, R285, R287). A Frame Start of a bound camera with no frame in progress takes its
capture time and device frame; a newer frame than the last with a free raw slot opens in the lower free slot behind
those that wait, and any other counts in SKIP and opens none. A line of the camera's data type with a good CRC and the
full width is stored at its place of the raw slot and counts as a line. The Frame End of a frame whose lines have all
come ends it without an event; one with image lines missing zeroes them, marks SHORT_FRAME, counts the frame in FAULT
and raises SEV-104. When the second device frame in a row ends without a Frame Start, CAMERA_NO_FRAME_START raises
SEV-107 once; a later one counts in LOST. -/
def Obligations.CameraIntake : Prop :=
  (∀ (s : State) (receiver vc : Nat) (fn : Half) (b : CameraBind) (k : Nat), s.bindAt receiver vc = some b → s.isReplay = false →
    s.dieDown (receiver / 2) = false → (s.cam b.camera).cur = none →
    s.frameAt (s.toEpoch (s.captureStamp b s.draws).epoch (s.captureStamp b s.draws).at_) = some k →
    ∃ t : State, exec (.frameStart receiver vc fn) s = .next t ∧ t = { s with cams := t.cams, draws := s.draws + 1 } ∧
      (t.cam b.camera).outage = false ∧ (∀ c : Nat, c ≠ b.camera → t.cam c = s.cam c) ∧
      ((∀ p : Nat, (s.cam b.camera).lastFrame = some p → p < k) → (s.jobsOf b).length < 2 →
        (t.cam b.camera).cur = some k ∧ (t.cam b.camera).lastFrame = some k ∧ (t.cam b.camera).skip = (s.cam b.camera).skip ∧
        (t.cam b.camera).waiting = (s.cam b.camera).waiting ++ [{
          camera := b.camera, facet := b.facet, k := k, capture := s.captureStamp b s.draws, csiFn := fn.toNat
          slot := if ((s.jobsOf b).map (·.slot)).contains 0 then 1 else 0 }]) ∧
      ((∃ p : Nat, (s.cam b.camera).lastFrame = some p ∧ k ≤ p) ∨ 2 ≤ (s.jobsOf b).length →
        (t.cam b.camera).cur = none ∧ (t.cam b.camera).skip = satInc (s.cam b.camera).skip ∧
        (t.cam b.camera).waiting = (s.cam b.camera).waiting)) ∧
  (∀ (s : State) (receiver vc : Nat) (payload : List Byte) (b : CameraBind) (j : FrameJob) (c : IntakeCamera),
    s.bindAt receiver vc = some b → s.rxJob b = some j → s.intakeOf b.camera = some c → s.dieDown (receiver / 2) = false →
    j.lines < c.height → (unpackRaw b.dataType payload).length = c.width →
    exec (.linePacket receiver vc b.dataType payload true true) s =
      .next ((s.put (s.rawSlot b c j.slot + (c.embLines + j.lines) * lineSize b c)
        ((unpackRaw b.dataType payload).flatMap (leBytes (rawBytes (rawBits b.dataType))))).updJob b j.k
          (fun x => { x with lines := x.lines + 1 }))) ∧
  (∀ (s : State) (receiver vc : Nat) (b : CameraBind) (j : FrameJob) (c : IntakeCamera),
    s.bindAt receiver vc = some b → s.rxJob b = some j → s.intakeOf b.camera = some c → s.dieDown (receiver / 2) = false →
    j.emb = c.embLines →
    (c.height ≤ j.lines → j.faulty = false →
      exec (.frameEnd receiver vc) s =
        .next ((s.updJob b j.k (fun _ => { j with ended := true })).updCam b.camera (fun x => { x with cur := none }))) ∧
    (j.lines < c.height → ∃ t : State, exec (.frameEnd receiver vc) s = .next t ∧ (t.cam b.camera).cur = none ∧
      (t.cam b.camera).fault = satInc (s.cam b.camera).fault ∧ (s.sound → s.raisedTo t [(104, b.camera, 0)]) ∧
      t.mem = (s.put (s.rawSlot b c j.slot + (c.embLines + j.lines) * lineSize b c) (zeros ((c.height - j.lines) * lineSize b c))).mem)) ∧
  (∀ (s : State) (b : CameraBind), s.bindOf b.camera = some b → s.started = true → s.isReplay = false →
    let first := match (s.cam b.camera).lastStart with | some p => p + 1 | none => 0
    let j := max first (s.cam b.camera).lostTo
    s.frameStart (j + 1) + nsInst b.latencyNs ≤ s.now →
    ∃ t : State, exec (.cameraNoFrameStart b.camera) s = .next t ∧ (t.cam b.camera).lostTo = j + 1 ∧
      (j = first + 1 → (t.cam b.camera).outage = true ∧ (t.cam b.camera).lost = (s.cam b.camera).lost ∧ s.raisedTo t [(107, b.camera, 0)]) ∧
      (first + 1 < j → (t.cam b.camera).lost = satInc (s.cam b.camera).lost ∧ s.raisedTo t []) ∧
      (j = first → (t.cam b.camera).lost = (s.cam b.camera).lost ∧ s.raisedTo t []))

/-- O39, tier 2 (R283, R318, R321, R322, R326). PIPELINE_FRAME_START of an idle pipeline takes the waiting frame with the
earliest capture time: while its consumers have not finished frame k − 2 the frame waits with WAIT_FREE set; a fresh
frame starts in the pipeline at the die's reading. PIPELINE_FRAME_COMPLETE of a frame whose lines have ended frees the
pipeline, and FRAMES and the camera's count of accepted frames grow by one. ARM sets the arm and its bank of an open
die's Facet, and clears ARM_ERR where it writes 1 to it. -/
def Obligations.PipelineFrames : Prop :=
  (∀ (s : State) (p : Nat) (v : IspView) (j : FrameJob), p < 16 → s.dieDown (p / 4) = false → (s.pipe p).cur = none →
    (s.pipe p).chosen = none → s.nextJob p = some (v, j) → v.bind.pipe = p → s.suspects = [] →
    ∃ t : State, exec (.pipelineFrameStart p) s = .next t ∧
      (t.cam j.camera).waiting = (s.cam j.camera).waiting.erase j ∧
      (s.freeOk v j.k = false → (t.pipe p).waitFree = true ∧ (t.pipe p).chosen = some j ∧ (t.pipe p).cur = none) ∧
      (s.freeOk v j.k = true → (s.facet (facetIndex v.bind)).arm = false → j.capture.epoch = s.tb.epoch →
        s.dieFrameTime (p / 4) ≤ j.capture.at_ + nsInst v.bind.staleNs →
        (t.pipe p).waitFree = false ∧ (t.pipe p).chosen = none ∧
        (t.pipe p).cur = some { j with start := s.dieFrameTime (p / 4), startMono := s.mono, paramErr := false })) ∧
  (∀ (s : State) (p : Nat) (v : IspView) (j : FrameJob), p < 16 → (s.pipe p).cur = some j → j.ended = true →
    s.dieDown (p / 4) = false → s.ispView j.camera = some v → v.bind.pipe = p →
    ∃ t : State, exec (.pipelineFrameComplete p) s = .next t ∧ (t.pipe p).cur = none ∧ (t.pipe p).frames = (s.pipe p).frames + 1 ∧
      (t.pipe p).lastFrame = BitVec.ofNat 16 j.k ∧ (t.cam j.camera).ok = (s.cam j.camera).ok + 1) ∧
  (∀ (s : State) (d i : Nat) (w : Word), d < 4 → i < 8 → s.dieOpen d = true →
    exec (.arm d i w) s = .next (s.updFacet (d * 8 + i) (fun f => { f with
      arm := f.arm || bit w.toNat 31, armBank := bit w.toNat 30, armErr := f.armErr && !(bit w.toNat 27) })))

/-- O40, tier 2 (R290, R292, R293, R294, R303). RANGE_PACKET_RECEIVE takes the oldest packet of the MAC's buffers. A packet
that no template matches counts in NOMATCH and raises SEV-110; a matching one of a frame whose grid is open is binned
into that grid and forwarded; a late one is forwarded, counts in LATE, raises SEV-109, and is not binned.
RANGE_REPLAY_INJECT puts the next slot of the replay ring into the MAC's buffers at its STAMP and moves on. GRID_CLOSE
of the next frame empties its grid, keeps in SEEN whether the MAC's packets came, raises SEV-113 for each of RANGE_MACS
of which none came, and steps to the frame after it. -/
def Obligations.RangeIntake : Prop :=
  (∀ (s : State) (mac : Nat) (x : Stamp) (replay : Bool) (b : List Byte) (rest : List (Stamp × Bool × List Byte)), mac < 4 →
    (s.mac mac).buf = (x, replay, b) :: rest →
    (s.matchPacket mac replay b = none →
      ∃ t : State, exec (.rangePacketReceive mac) s = .next t ∧ (t.mac mac).buf = rest ∧ (t.mac mac).noMatch = satInc (s.mac mac).noMatch ∧
        s.raisedTo t [(110, mac, 0)] ∧ t.range.grids = s.range.grids ∧ t.mem = s.mem) ∧
    (∀ (n k : Nat) (r : RangeTemplate) (p : List Byte), s.matchPacket mac replay b = some (n, r, p) →
      s.frameAt (s.toEpoch x.epoch (x.at_ - nsInst r.latencyNs)) = some k →
      let a := s.img.carveBase r.fwdCarve + r.fwdOff + (SMap.get 0 s.range.tmplSeq n).toNat % 2 ^ r.fwdLog2 * 2048
      let slot := fun (late : Bool) => fwdSlot a (x.at_ - nsInst r.latencyNs) k (SMap.get 0 s.range.tmplSeq n).toNat n r.mac
        (pointCount r p.length) late replay p
      (s.range.next ≤ k → s.now < s.gridCloseAt k → x.epoch = s.tb.epoch →
        ∃ t : State, exec (.rangePacketReceive mac) s = .next t ∧ (t.mac mac).buf = rest ∧ k ∈ (t.mac mac).matched ∧
          SMap.get [] t.range.grids k = binPacket s.img.split r p (SMap.get [] s.range.grids k) ∧
          (∀ k' : Nat, k' ≠ k → SMap.get [] t.range.grids k' = SMap.get [] s.range.grids k') ∧
          SMap.get 0 t.range.tmplSeq n = SMap.get 0 s.range.tmplSeq n + 1 ∧ t.mem = (s.put a (slot false)).mem) ∧
      (k < s.range.next ∨ s.gridCloseAt k ≤ s.now ∨ x.epoch ≠ s.tb.epoch →
        ∃ t : State, exec (.rangePacketReceive mac) s = .next t ∧ (t.mac mac).buf = rest ∧ t.range.grids = s.range.grids ∧
          (t.mac mac).late = satInc (s.mac mac).late ∧ (s.sound → s.raisedTo t [(109, mac, 0)]) ∧
          SMap.get 0 t.range.tmplSeq n = SMap.get 0 s.range.tmplSeq n + 1 ∧ t.mem = (s.put a (slot true)).mem))) ∧
  (∀ (s : State) (mac : Nat) (r : ReplayRing), mac < 4 → s.isReplay = true → s.started = true → s.replayRing mac = some r →
    s.suspects = [] → s.sound →
    let a := s.img.carveBase r.ringCarve + r.ringOff + (s.mac mac).replayPos % 2 ^ r.ringLog2 * 2048
    let d := (s.fetch a 2048).data
    leAt d 62 2 = crc16Fold a (d.take 62) → timeWordNs (timeWordOf (s.mac mac).replayAt) ≤ timeWordNs (leAt d 0 8) →
    timeWordNs (leAt d 0 8) ≤ timeWordNs (timeWordOf s.now) →
    exec (.rangeReplayInject mac) s = .next ((s.rangeTake mac (s.stampAt (instOfTimeWord (leAt d 0 8))) true
      (slice d 18 1 ++ slice d 64 (leAt d 16 2))).nextReplay mac)) ∧
  (∀ s : State, s.started = true → s.gridCloseAt s.range.next ≤ s.now →
    ∃ t : State, exec .gridClose s = .next t ∧ t.range.next = s.range.next + 1 ∧ SMap.get [] t.range.grids s.range.next = [] ∧
      (∀ m : Nat, m ∈ s.img.rangeMacList → (t.mac m).seen = (s.mac m).matched.contains s.range.next ∧ s.range.next ∉ (t.mac m).matched) ∧
      (s.compares = false → s.raisedTo t ((s.img.rangeMacList.filter (fun m => !((s.mac m).matched.contains s.range.next))).map
        (fun m => (113, m, 0)))))

/-- O41, tier 2 (R295, R296, R297, R298, R302). DECODER_TAIL_WRITE takes a tail that the ring has room for and ignores any
other. DECODER_ENTRY_START reads the entry at HEAD; one that fails the checks of step 1 stops the decoder with ERR,
SEV-111 and status 0x44; one that is due, whose stream passes the header checks and decodes whole, leaves its planes
(those of the stream when it asks for no augmentation) with status 0x00. DECODER_ENTRY_FINISH writes the sample line,
steps HEAD, and puts the frame behind those that wait for their offer. REPLAY_FRAME_OFFER hands the oldest one, when its
time has come and a raw slot is free, to its camera's frames, marked REPLAY. -/
def Obligations.ReplayDecoders : Prop :=
  (∀ (s : State) (d : Nat) (w : Word) (r : ReplayRing), d < 4 → s.dieOpen d = true → s.decRing d = some r →
    let room := decide ((w.toNat % 2 ^ 15 + 2 ^ 15 - (s.die d).dec.head.toNat) % 2 ^ 15 ≤ 2 ^ r.ringLog2)
    (room = true → exec (.decoderTailWrite d w) s = .next (s.updDec d (fun x => { x with tail := BitVec.ofNat 15 (w.toNat % 2 ^ 15) }))) ∧
    (room = false → exec (.decoderTailWrite d w) s = .next s)) ∧
  (∀ (s : State) (d : Nat) (r : ReplayRing), d < 4 → (s.die d).dec.err = false → (s.die d).dec.busy = false →
    (s.die d).dec.head ≠ (s.die d).dec.tail → s.isReplay = true → s.dieDown d = false → s.decRing d = some r → s.suspects = [] → s.sound →
    let a := s.img.carveBase r.ringCarve + r.ringOff + (s.die d).dec.head.toNat % 2 ^ r.ringLog2 * 64
    let e := (s.fetch a 64).data
    (s.entryOk d a e = false → ∃ t : State, exec (.decoderEntryStart d) s = .next t ∧ (t.die d).dec.err = true ∧
      (t.die d).dec.status = 0x44 ∧ (t.die d).dec.head = (s.die d).dec.head ∧ s.raisedTo t [(111, d, 0x44)]) ∧
    (∀ (v : IspView) (w h : Nat) (dec : Unit → Option (List (List Nat) × Bool)) (planes : List (List Nat)),
      s.entryOk d a e = true → s.decDue d e = true → s.bitsMatch e = true → s.hostReach (entSrc e) (entLength e) = true →
      s.hostReach (entLine e) 64 = true → s.ispView (entCamera e) = some v →
      ((s.frameAt (s.dieFrameTime d)).getD 0 : Int) ≤ s.entK e d → (leAt e 1 1 = 0 ∨ (s.region (entRegion e)).rngValid = true) →
      headerChecks (entFormat e) (s.entRatio e * entLength e) v.intake.width v.intake.height (entAug e 0) (entAug e 1)
        (s.fetch (entSrc e) (entLength e)).data = .inr (w, h, dec) → dec () = some (planes, false) →
      ∃ t : State, exec (.decoderEntryStart d) s = .next t ∧ (t.die d).dec.busy = true ∧ (t.die d).dec.entry = e ∧
        (t.die d).dec.status = 0 ∧ (t.die d).dec.head = (s.die d).dec.head ∧
        (leAt e 1 1 = 0 → (t.die d).dec.planes = planes) ∧ t = { s with dies := t.dies })) ∧
  (∀ (s : State) (d : Nat), d < 4 → (s.die d).dec.busy = true → s.dieDown d = false →
    let x := (s.die d).dec
    let k := s.entK x.entry d
    ∃ t : State, exec (.decoderEntryFinish d) s = .next t ∧ (t.die d).dec.busy = false ∧ (t.die d).dec.head = x.head + 1 ∧
      (∃ o : Offer, (t.die d).dec.offers = x.offers ++ [(o, entCapOff x.entry)] ∧ o.camera = entCamera x.entry ∧ o.frame = k.toNat ∧
        o.planes = x.planes ∧ o.void = (x.status != 0)) ∧
      t.mem = (s.put (entLine x.entry) (sampleLine (entLine x.entry) x.entry x.status.toNat x.trunc (s.entCapture x.entry k))).mem) ∧
  (∀ (s : State) (d : Nat) (o : Offer) (capOff : Nat) (rest : List (Offer × Nat)) (v : IspView), d < 4 → s.dieDown d = false →
    (s.die d).dec.offers = (o, capOff) :: rest → s.ispView o.camera = some v → (s.jobsOf v.bind).length < 2 →
    (s.t0 + nsInst (o.frame * s.frameNs + capOff)).toNat + nsInst v.bind.latencyNs ≤ s.dieFrameTime d →
    ∃ (t : State) (j : FrameJob), exec (.replayFrameOffer d) s = .next t ∧ (t.die d).dec.offers = rest ∧
      (t.cam o.camera).waiting = (s.cam o.camera).waiting ++ [j] ∧ j.k = o.frame ∧ j.replay = true ∧ j.ended = true ∧ j.void = o.void ∧
      j.capture.at_ = (s.t0 + nsInst (o.frame * s.frameNs + capOff)).toNat ∧ bit j.flags noteReplay = true)

/-- O42, tier 2 (R330). On every TB_TICK of a running counter whose NS is below 10^9, the reading advances by exactly INCR
units of 2^-32 ns, modulo 2^48 seconds, and NS stays below 10^9. The count of ticks grows by one, and the active trigger
pulses count down to their last tick. While no scan runs and the source is not PPS, the tick changes nothing else. -/
def Obligations.TimeBaseCounter : Prop :=
  ∀ s : State, s.timeRuns = true → s.tb.ns.toNat < 10 ^ 9 → s.tb.incr.toNat < 10 ^ 9 * 2 ^ 32 →
    ∃ t : State, exec .tbTick s = .next t ∧ t.tb.now = (s.tb.now + s.tb.incr.toNat) % (2 ^ 48 * 10 ^ 9 * 2 ^ 32) ∧
      t.tb.ns.toNat < 10 ^ 9 ∧ t.tb.ticks = s.tb.ticks + 1 ∧
      (∀ n : Nat, SMap.get 0 t.tb.pulse n = (if 2 ≤ SMap.get 0 s.tb.pulse n then SMap.get 0 s.tb.pulse n - 1 else SMap.get 0 s.tb.pulse n)) ∧
      (s.img.time.source ≠ 3 → (∀ u : Nat, u < 17 → (s.cvuOf u).busy = false) → t = { s with tb := { s.tb with
        sec := t.tb.sec, ns := t.tb.ns, frac := t.tb.frac, ticks := t.tb.ticks, pulse := t.tb.pulse } })

/-- O43, tier 2 (R64, R333, R334, R335, R336, R337). While the counter runs and no activation of the Pregus firmware holds
INCR, a write of TB_INCR whose value differs from 0x2_0000_0000 by at most floor(2^33 x SLEW_PPM / 10^6) is taken; any
other is refused with status 0x61 and leaves the INCR in force; with SLEW_PPM 500 the legal range is 0x1_FFBE_76C9 to
0x2_0041_8937; otherwise the write changes nothing. Before the first step, under SOURCE NONE or PPS, with a legal NS and
no START held, STEP sets the counter to TB_SET and STEPPED; after it, or under a source that steps by itself, it is
refused with 0x60, and an NS of 10^9 or more with 0x64. A REEPOCH that meets the conditions of R336 waits for the next
frame boundary with its DELTA; any other is refused with 0x63. When its instant has come, REEPOCH_APPLY moves the
reading and T0 by the same amount (D, round the span of the counter), steps EPOCH, clears the pending request, marks the
records of this frame and the next, and raises SEV-156; the followers of the dies count on until their next time word. -/
def Obligations.StepAndReepoch : Prop :=
  (∀ (s : State) (lo hi : Word),
    let v := lo.toNat + hi.toNat % 16 * 2 ^ 32
    let d := 2 ^ 33 * s.img.time.slewPpm / 10 ^ 6
    (s.timeRuns = false ∨ s.mono < s.upd.servicesFrom → exec (.tbIncrWrite lo hi) s = .next s) ∧
    (s.timeRuns = true → s.upd.servicesFrom ≤ s.mono → 2 ^ 33 ≤ v + d ∧ v ≤ 2 ^ 33 + d →
      exec (.tbIncrWrite lo hi) s = .next (s.updTb (fun tb => { tb with incrHeld := lo, incr := BitVec.ofNat 36 v, last := 0 }))) ∧
    (s.timeRuns = true → s.upd.servicesFrom ≤ s.mono → v + d < 2 ^ 33 ∨ 2 ^ 33 + d < v →
      exec (.tbIncrWrite lo hi) s = .next (s.updTb (fun tb => { tb with incrHeld := lo, last := 0x61 })))) ∧
  (∀ v : Nat, incrOk 500 v = true ↔ 0x1FFBE76C9 ≤ v ∧ v ≤ 0x200418937) ∧
  (∀ s : State, s.timeRuns = true →
    (s.tb.stepped = false → s.sourceSteps = false → s.tb.set0.toNat % 2 ^ 30 < 10 ^ 9 → s.ctx.txn = none →
      ∃ t : State, exec .step s = .next t ∧ t.tb.now = s.tb.setInstant ∧ t.tb.stepped = true ∧ t.tb.last = 0 ∧
        t = { s with tb := t.tb }) ∧
    (s.tb.stepped = true ∨ s.sourceSteps = true → exec .step s = .next (s.updTb (fun tb => { tb with last := 0x60 }))) ∧
    (s.tb.stepped = false → s.sourceSteps = false → 10 ^ 9 ≤ s.tb.set0.toNat % 2 ^ 30 →
      exec .step s = .next (s.updTb (fun tb => { tb with last := 0x64 })))) ∧
  (∀ s : State,
    (s.reepochOk (toSigned 64 s.tb.reepoch.toNat) = true →
      exec .reepoch s = .next (s.updTb (fun tb => { tb with
        reepochAt := some (s.beatStart s.nextBoundaryBeat, toSigned 64 s.tb.reepoch.toNat), last := 0 }))) ∧
    (s.reepochOk (toSigned 64 s.tb.reepoch.toNat) = false →
      exec .reepoch s = .next (s.updTb (fun tb => { tb with last := 0x63 })))) ∧
  (∀ (s : State) (b : Instant) (d : Int) (z : Int), s.tb.reepochAt = some (b, d) → b ≤ s.now → b < counterSpan → s.tb.t0 = some z →
    s.ctx.txn = none →
    ∃ t : State, exec .reepochApply s = .next t ∧ (t.tb.now : Int) = (b + d * perNs) % (counterSpan : Int) ∧
      t.tb.t0 = some (z + ((t.tb.now : Int) - b)) ∧ t.tb.epoch = s.tb.epoch + 1 ∧ t.tb.reepochAt = none ∧ t.tb.ticks = s.tb.ticks ∧
      s.beat.reepochBefore ≤ t.beat.reepochBefore ∧ s.frameOfBeat (((b : Int) - s.t0).toNat / nsInst s.beatNs) + 2 ≤ t.beat.reepochBefore ∧
      (∀ e : Nat, (t.die e).follower = (s.die e).follower) ∧ s.raisedTo t [(156, 0xFF, 0)])

/-- O44, tier 2 (R334, R338, R339). The first measurement of a source that steps by itself takes the first step to the
source's reading. After the first step an offset measurement within LOCK_NS extends the run of good ones (LOCKED comes
with the 16th) and ends holdover, and VALID returns when LOCKED is 1 (of a PPS source, a measurement within 1 ms); one
above it extends the run of bad ones, and the 4th in a row takes LOCKED away. A measurement of a PPS source more than 1
ms off is lost, with SEV-160 alone; before the first step one of a PPS source does nothing, and with no source or while
the time base does not run none does anything. SOURCE_LOST, once no measurement has come for 8 of the source's
intervals, enters holdover with SEV-151; HOLDOVER_EXPIRE, once holdover has lasted longer than HOLDOVER_MS, clears VALID
with SEV-153. Sooner, neither does anything. -/
def Obligations.SourceAndLock : Prop :=
  (∀ (s : State) (offset : Int), s.timeRuns = true → s.sourceSteps = true → s.tb.stepped = false → s.ctx.txn = none →
    ∃ t : State, exec (.offsetMeasurement offset) s = .next t ∧ t.tb.stepped = true ∧
      (t.tb.now : Int) = ((s.tb.now : Int) - offset) % (counterSpan : Int) ∧ t = { s with tb := t.tb, hp := t.hp }) ∧
  (∀ (s : State) (offset : Int), s.timeRuns = true → s.sourceSteps = true ∨ (s.img.time.source = 3 ∧ offset.natAbs ≤ nsInst 1000000) → s.tb.stepped = true →
    (offset.natAbs ≤ nsInst s.img.time.lockNs → s.tb.goodRun ≤ 16 →
      ∃ t : State, exec (.offsetMeasurement offset) s = .next t ∧ t.tb.goodRun = min 16 (s.tb.goodRun + 1) ∧ t.tb.badRun = 0 ∧
        t.tb.locked = (s.tb.locked || decide (15 ≤ s.tb.goodRun)) ∧ t.tb.holdover = false ∧ t.tb.valid = (s.tb.valid || t.tb.locked) ∧
        t.tb.measuredAt = s.mono ∧ t = { s with tb := t.tb, hp := t.hp }) ∧
    (nsInst s.img.time.lockNs < offset.natAbs → s.tb.badRun ≤ 4 →
      ∃ t : State, exec (.offsetMeasurement offset) s = .next t ∧ t.tb.goodRun = 0 ∧ t.tb.badRun = min 4 (s.tb.badRun + 1) ∧
        t.tb.locked = (s.tb.locked && decide (s.tb.badRun + 1 < 4)) ∧ t.tb.holdover = false ∧ t.tb.now = s.tb.now)) ∧
  (∀ (s : State) (offset : Int), s.timeRuns = true → s.img.time.source = 3 → s.tb.stepped = true → nsInst 1000000 < offset.natAbs →
    ∃ t : State, exec (.offsetMeasurement offset) s = .next t ∧ s.raisedTo t [(160, 0xFF, 0)] ∧ t.tb = { s.tb with ppsNext := t.tb.ppsNext }) ∧
  (∀ (s : State) (offset : Int), s.timeRuns = false ∨ (s.sourceSteps = false ∧ (s.img.time.source ≠ 3 ∨ s.tb.stepped = false)) →
    exec (.offsetMeasurement offset) s = .next s) ∧
  (∀ s : State, s.timeRuns = true → s.img.time.source ≠ 0 → s.tb.holdover = false →
    s.tb.measuredAt + nsInst (8 * sourceInterval s.img.time.source) ≤ s.mono →
    ∃ t : State, exec .sourceLost s = .next t ∧ s.raisedTo t [(151, 0xFF, 0)] ∧
      t.tb = { s.tb with holdover := true, holdAt := s.mono, goodRun := 0, badRun := 0 }) ∧
  (∀ s : State, s.tb.holdover = true → s.tb.valid = true → s.tb.holdAt + nsInst (s.img.time.holdoverMs * 1000000) < s.mono →
    ∃ t : State, exec .holdoverExpire s = .next t ∧ s.raisedTo t [(153, 0xFF, 0)] ∧ t.tb = { s.tb with valid := false }) ∧
  (∀ s : State, s.timeRuns = false ∨ s.img.time.source = 0 ∨ s.tb.holdover = true ∨
    s.mono < s.tb.measuredAt + nsInst (8 * sourceInterval s.img.time.source) → exec .sourceLost s = .next s) ∧
  (∀ s : State, s.tb.holdover = false ∨ s.tb.valid = false ∨ s.mono ≤ s.tb.holdAt + nsInst (s.img.time.holdoverMs * 1000000) →
    exec .holdoverExpire s = .next s)

/-- O45, tier 2 (R331, R351, R352). TB_SNAP_READ latches the reading and EPOCH into the four words and answers with the
first. An edge of a claimed capture input that EDGE selects, once FILT + 1 samples have been taken since the last one,
enters its FIFO of 64 stamps, or sets CAP_OVF with SEV-158 when it is full; a level that has not been seen for so long
changes nothing; TB_CAP_READ answers with word 3, the fill level, and removes the oldest stamp. WINDOW_CLOSE steps to
the monitor's next window and raises SEV-159 when MISS_EN is set and no edge came in the one that closed. -/
def Obligations.TimeReadsAndCaptures : Prop :=
  (∀ s : State, ∃ t : State, exec .tbSnapRead s = .next t ∧ t.tb.snap0 = BitVec.ofNat 32 (s.tb.frac.toNat / 2 ^ 16 * 2 ^ 16 + s.tb.epoch.toNat) ∧
    t.tb.snap1 = BitVec.ofNat 32 s.tb.ns.toNat ∧ t.tb.snap2 = BitVec.ofNat 32 (s.tb.sec.toNat % 2 ^ 32) ∧
    t.tb.snap3 = BitVec.ofNat 32 (s.tb.sec.toNat / 2 ^ 32) ∧ t.link.resp = { kind := 0, data := leBytes 4 t.tb.snap0.toNat } ∧
    t.tb.now = s.tb.now ∧ t = { s with tb := t.tb, link := t.link }) ∧
  (∀ (s : State) (n : Nat), n < 4 → exec (.tbCapRead n) s = .next ((s.updLink (fun l => { l with
      resp := { kind := 0, data := leBytes 4 ((s.caps n).length % 256 * 2 ^ 24) } })).updTb
    (fun tb => { tb with caps := SMap.update [] tb.caps n (List.drop 1) }))) ∧
  (∀ (s : State) (level : Bool) (i : Image) (c : TimeCapture), c.cap < 4 → s.timeRuns = true → s.image = some i →
    i.time.captures.find? (fun x => x.cap == c.cap) = some c → SMap.get false s.tb.capLevel c.cap ≠ level → s.capFiltered c.cap = true →
    edgeSelected c.edge level = true →
    ∃ t : State, exec (.captureEdge c.cap level) s = .next t ∧ SMap.get false t.tb.capLevel c.cap = level ∧
      ((s.caps c.cap).length < 64 → t.caps c.cap = s.caps c.cap ++ [s.stampAt (s.capInstant c s.draws)] ∧ t.tb.capOvf = s.tb.capOvf) ∧
      (64 ≤ (s.caps c.cap).length → t.caps c.cap = s.caps c.cap ∧ t.tb.capOvf = true ∧
        (i.time.monitors = [] → s.isPps c.cap level = false → s.raisedTo t [(158, 0xFF, 0)]))) ∧
  (∀ (s : State) (n : Nat) (level : Bool), s.capFiltered n = false → exec (.captureEdge n level) s = .next s) ∧
  (∀ (s : State) (i : Image) (m : TimeMonitor), s.image = some i → i.time.monitors.find? (fun x => x.cmp == m.cmp) = some m →
    s.started = true →
    let k := SMap.get 0 s.tb.monNext m.cmp
    s.frameStart k + nsInst (m.startNs + m.lenNs) ≤ s.now →
    ∃ t : State, exec (.windowClose m.cmp) s = .next t ∧ SMap.get 0 t.tb.monNext m.cmp = k + 1 ∧
      s.raisedTo t (if m.missEn = true ∧ k ∉ SMap.get [] s.tb.monSeen m.cmp then [(159, 0xFF, 0)] else []))

/-- O46, tier 2 (R346, R348, R349, R368, R500). TIME_WORD_SEND puts a word with the reading, INCR, EPOCH and the safe-state
request on the way to every die; TIME_WORD_RECEIVE locks the follower of a die that runs to it: its reading stands
within 3 ns of the word's, carried on to the present, its time is valid when that is the Pregus reading, and it keeps
the request. A follower without a word for 16 us loses its valid time with SEV-154 and runs on freely, and die 1 then
requests safe state with SEV-023; one that a cross-check finds off by more than 4 ns loses its valid time with SEV-155.
A pulse that falls due on an output that is not held and not active makes it active for floor(WIDTH_NS / 2) ticks more
than its last; TRIGGER_PULSE_END ends a pulse whose ticks have passed and lets a held write of PWR_IOCFG take effect. -/
def Obligations.FollowersAndTriggers : Prop :=
  (∀ s : State, ∃ t : State, exec .timeWordSend s = .next t ∧
    (∀ d : Nat, d < 4 → (t.die d).follower = { (s.die d).follower with wire := some {
      at_ := s.now, tick := s.tb.ticks, incr := s.tb.incr, epoch := s.tb.epoch, req := s.saf.req } }) ∧ t = { s with dies := t.dies }) ∧
  (∀ (s : State) (d : Nat) (w : TimeWord), d < 4 → s.dieDown d = false → (s.die d).follower.wire = some w →
    let x := w.at_ + (s.tb.ticks - w.tick) * w.incr.toNat
    nsInst 3 ≤ x → x + nsInst 3 < counterSpan →
    ∃ t : State, exec (.timeWordReceive d) s = .next t ∧ (t.die d).follower.wire = none ∧ (t.die d).follower.lost = false ∧
      (t.die d).follower.reqSeen = w.req ∧ (t.die d).follower.lastWord = s.mono ∧ (t.die d).follower.incr = w.incr ∧
      (t.die d).follower.epoch = w.epoch ∧ ((t.dieNow d : Int) - x).natAbs ≤ nsInst 3 ∧
      (x = s.now → (t.die d).follower.valid = true) ∧
      (∀ e : Nat, e ≠ d → t.die e = s.die e) ∧ t = { s with dies := t.dies, draws := s.draws + 1 }) ∧
  (∀ (s : State) (d : Nat), d < 4 → s.dieDown d = false → (s.die d).follower.lost = false →
    (s.die d).follower.lastWord + nsInst 16000 ≤ s.mono →
    ∃ t : State, exec (.followerTimeout d) s = .next t ∧ (t.die d).follower = { (s.die d).follower with lost := true, valid := false } ∧
      s.raisedTo t ([(154, d, 0)] ++ (if d = 1 then [(23, 1, 0)] else [])) ∧ (d = 1 → s.unrequested → t.saf.req = true)) ∧
  (∀ (s : State) (d : Nat), d < 4 → s.dieDown d = false →
    let off := (((s.followerDrift d).dieNow d : Int) - s.now).natAbs
    ∃ t : State, exec (.followerCrossCheck d) s = .next t ∧ t.dieNow d = (s.followerDrift d).dieNow d ∧
      (t.die d).follower.valid = ((s.die d).follower.valid && decide (off ≤ nsInst 4)) ∧
      s.raisedTo t (if nsInst 4 < off then [(155, d, 0)] else [])) ∧
  (∀ (s : State) (i : Image) (e : TimeTrigger), s.image = some i → s.trigger e.trig = some e → s.trigHeld e = false →
    (s.nextPulse e).2 ≤ (s.now : Int) → SMap.get 0 s.tb.pulse e.trig = 0 →
    ∃ t : State, exec (.triggerPulseStart e.trig) s = .next t ∧ SMap.get 0 t.tb.pulse e.trig = e.widthNs / 2 + 1 ∧
      SMap.get 0 t.tb.trigNext e.trig = (s.nextPulse e).1 + 1 ∧ t = { s with tb := { s.tb with pulse := t.tb.pulse, trigNext := t.tb.trigNext } }) ∧
  (∀ (s : State) (n : Nat), SMap.get 0 s.tb.pulse n = 1 →
    ∃ t : State, exec (.triggerPulseEnd n) s = .next t ∧ SMap.get 0 t.tb.pulse n = 0 ∧
      SMap.get 0x5 t.tb.iocfg n = (SMap.get none s.tb.iocfgHeld n).getD (SMap.get 0x5 s.tb.iocfg n) ∧
      SMap.get none t.tb.iocfgHeld n = none)

/-- O47, tier 2 (R341, R342, R344, R345, R469, R470). A good PTP message of the time firmware's domain and ports goes to it
with its stamp, and any other PTP message goes nowhere; a frame with a bad FCS on a claimed MAC counts in RX_DROP.
PTP_MESSAGE_SEND with a TS_CTRL of R344 sends the frame with its FCS, unchanged unless MODE is 2, and its completion
carries the transmit stamp unless MODE is 0; any other TS_CTRL fails it with status 0x62 and nothing leaves.
ETH_HP_ENABLE of a claimed MAC with a good control block reads its rings and starts both with no descriptor done;
ETH_HP_DOORBELL sets the tails. ETH_HP_TRANSMIT of a good descriptor sends the frame with its FCS and completes the
descriptor, and no byte of memory changes but those of the descriptor and of the control block's count of transmit
descriptors done. -/
def Obligations.EthernetCommands : Prop :=
  (∀ (s : State) (mac : Nat) (f : List Byte), mac < 4 → s.timeRuns = true →
    ((EthPkt.parse f).isPtp = true → s.ptpHeard mac (EthPkt.parse f).payload = false →
      exec (.ethReceive mac f true) s = .next { s with draws := s.draws + 1 }) ∧
    ((EthPkt.parse f).isPtp = true → s.ptpHeard mac (EthPkt.parse f).payload = true → ∃ t : State, exec (.ethReceive mac f true) s = .next t ∧
      (t.hpath mac).ptp = (s.hpath mac).ptp ++ [(s.rxStamp mac s.draws, f)] ∧ t = { s with hp := t.hp, draws := s.draws + 1 }) ∧
    (s.img.macClaimed mac = true → ∃ t : State, exec (.ethReceive mac f false) s = .next t ∧
      (t.hpath mac).rxDrop = satInc (s.hpath mac).rxDrop ∧ t = { s with hp := t.hp, draws := s.draws + 1 })) ∧
  (∀ (s : State) (mac : Nat) (f : List Byte) (w : Dword), mac < 4 → s.timeRuns = true →
    (tsCtrlOk w.toNat f.length = true → w.toNat % 4 ≠ 2 → ∃ t : State, exec (.ptpMessageSend mac f w) s = .next t ∧
      (t.hpath mac).sent = (s.hpath mac).sent ++ [f ++ fcsOf f] ∧
      (t.hpath mac).ptpDone = (s.hpath mac).ptpDone ++ [(0, if w.toNat % 4 = 0 then none else some (s.txStamp mac s.draws))] ∧
      t = { s with hp := t.hp, draws := s.draws + 1 }) ∧
    (tsCtrlOk w.toNat f.length = true → w.toNat % 4 = 2 → ∃ t : State, exec (.ptpMessageSend mac f w) s = .next t ∧
      (let g := insertStamp f (fld w.toNat 15 4) (fld w.toNat 27 16) (s.txStamp mac s.draws).at_
       (t.hpath mac).sent = (s.hpath mac).sent ++ [g ++ fcsOf g]) ∧
      (t.hpath mac).ptpDone = (s.hpath mac).ptpDone ++ [(0, some (s.txStamp mac s.draws))] ∧
      t = { s with hp := t.hp, draws := s.draws + 1 }) ∧
    (tsCtrlOk w.toNat f.length = false →
      exec (.ptpMessageSend mac f w) s = .next (s.updHpath mac (fun h => { h with
        last := 0x62, ptpDone := h.ptpDone ++ [(0x62, none)] })))) ∧
  (∀ (s : State) (mac : Nat) (lo hi : Word), mac < 4 → (s.hpath mac).enabled = false → bit lo.toNat 0 = true → s.img.macClaimed mac = true →
    s.sound →
    let a := lo.toNat / 64 * 64 + hi.toNat % 2 ^ 16 * 2 ^ 32
    let b := (s.fetch a 64).data
    s.cbOk a = true → s.carveClosed none a 64 = false → 2 ≤ leAt b 16 1 → leAt b 16 1 ≤ 12 → 2 ≤ leAt b 17 1 → leAt b 17 1 ≤ 12 →
    ∃ t : State, exec (.ethHpEnable mac lo hi) s = .next t ∧ (t.hpath mac).enabled = true ∧ (t.hpath mac).cb = a ∧
      (t.hpath mac).txRing = leAt b 0 8 ∧ (t.hpath mac).rxRing = leAt b 8 8 ∧ (t.hpath mac).txLog2 = leAt b 16 1 ∧
      (t.hpath mac).rxLog2 = leAt b 17 1 ∧ (t.hpath mac).txDone = 0 ∧ (t.hpath mac).rxDone = 0 ∧ t = { s with hp := t.hp }) ∧
  (∀ (s : State) (mac : Nat) (w : Word), mac < 4 → exec (.ethHpDoorbell mac w) s = .next (s.updHpath mac (fun h => { h with
    txTail := BitVec.ofNat 16 (w.toNat / 2 ^ 16), rxTail := BitVec.ofNat 16 w.toNat }))) ∧
  (∀ (s : State) (mac : Nat), mac < 4 → (s.hpath mac).enabled = true → (s.hpath mac).txDone ≠ (s.hpath mac).txTail → s.sound →
    s.suspects = [] →
    let a := (s.hpath mac).txRing + (s.hpath mac).txDone.toNat % 2 ^ (s.hpath mac).txLog2 * 32
    let b := (s.fetch a 32).data
    s.hpReach a 32 = true → hpCrcOk a b = true → 60 ≤ leAt b 8 2 → leAt b 8 2 ≤ 9600 → leAt b 10 2 < 2 → (b.drop 12).take 4 = zeros 4 →
    (b.drop 24).take 6 = zeros 6 → s.hpReach (leAt b 0 8) (leAt b 8 2) = true → tsCtrlOk (leAt b 16 8) (leAt b 8 2) = true →
    leAt b 16 8 % 4 = 0 →
    ∃ t : State, exec (.ethHpTransmit mac) s = .next t ∧
      (let g := (s.fetch (leAt b 0 8) (leAt b 8 2)).data
       (t.hpath mac).sent = (s.hpath mac).sent ++ [g ++ fcsOf g]) ∧
      (t.hpath mac).txDone = (s.hpath mac).txDone + 1 ∧ (t.hpath mac).txSeq = (s.hpath mac).txSeq + 1 ∧
      (t.hpath mac).last = (s.hpath mac).last ∧ (t.hpath mac).rxDone = (s.hpath mac).rxDone ∧
      ∀ x : Nat, ¬ (a ≤ x ∧ x < a + 32) → ¬ ((s.hpath mac).cb + 32 ≤ x ∧ x < (s.hpath mac).cb + 34) → t.byteAt x = s.byteAt x)

/-- O48, tier 2 (R141, R404, R405, R406, R407, R408, R409, R412). A command that has run longer than its watchdog limit ends
its engine's commands of that tile with 0x85 (SEV-201, ABORTS counts). A poll that a slot in service does not answer, a
hang of a cluster, region or die, and the first failure of a link make the unit, unless a unit around it is under
recovery or no new recovery may start yet after a takeover, SUSPECT at once with the event as its cause, to be dumped
and reset, with SEV-209 after the event; a link that still fails during its die's reset leaves the die SUSPECT with
SEV-207. A head command that waits for more than two frames raises SEV-220 once. -/
def Obligations.HangsFenceUnits : Prop :=
  (∀ (s : State) (q : Nat) (cycles : Word) (f : InFlight) (e : Nat),
    (s.queue q).inflight.find? (fun x => !x.executed || x.acksDue != 0) = some f → f.engine = some e →
    (watchdogLimit (s.tile f.tile) f < cycles.toNat →
      ∃ t : State, exec (.engineWatchdog q cycles) s = .next t ∧ (t.tile f.tile).aborts = satInc (s.tile f.tile).aborts ∧
        e ∉ (t.tile f.tile).kindBad ∧ (e = 0 → (t.tile f.tile).shadow = []) ∧ s.raisedTo t [(201, f.tile, 0x85)] ∧ t.mem = s.mem ∧
        (∀ a : QueueAlloc, a ∈ s.liveAllocs → (t.queue a.queue).inflight = (s.queue a.queue).inflight.map (fun g =>
          if g.heldIn f.tile e then { g with status := 0x85, executed := true, acksDue := 0, sigDone := true } else g))) ∧
    (cycles.toNat ≤ watchdogLimit (s.tile f.tile) f → exec (.engineWatchdog q cycles) s = .next s)) ∧
  (∀ (s : State),
    let hangs := fun (k : UnitKind) (u : Nat) => (s.unit k u).state = .inService ∧ s.underRecovery k u = false ∧
      s.recoveryHeld k u = false ∧ s.suspects = [] ∧ (s.die (dieOfUnit k u)).fences = []
    let hung := fun (t : State) (k : UnitKind) (u sev : Nat) => (t.unit k u).state = .suspect ∧ (t.unit k u).cause = sev ∧
      (t.unit k u).resetReq = true ∧ (t.unit k u).hostView = .suspect ∧ (t.unit k u).pregusView = .suspect ∧
      (s.link.events.length + 2 ≤ 1024 → ∃ more : List Word,
        t.eventWords = s.eventWords ++ [evtWord0 sev (s.unitTag k u) 0, evtWord0 209 (s.unitTag k u) 0] ++ more)
    (∀ d n : Nat, d < 4 → n < 20 → hangs .slot (d * 20 + n) →
      ∃ t : State, exec (.tilePoll d n false) s = .next t ∧ hung t .slot (d * 20 + n) 202) ∧
    (∀ d n : Nat, s.suspects = [] → exec (.tilePoll d n true) s = .next s) ∧
    (∀ u : Nat, u < 16 → hangs .cluster u → ∃ t : State, exec (.clusterHang u) s = .next t ∧ hung t .cluster u 203) ∧
    (∀ u : Nat, u < 8 → hangs .region u → ∃ t v : State, exec (.regionHang u .bothClusters) s = .next t ∧ hung t .region u 204 ∧
      exec (.regionHang u .peatPort) s = .next v ∧ hung v .region u 204) ∧
    (∀ u : Nat, u < 4 → hangs .die u → ∃ t v w : State, exec (.dieHang u .controllers) s = .next t ∧ hung t .die u 206 ∧
      exec (.dieHang u .fabric) s = .next v ∧ hung v .die u 206 ∧ exec (.dieHang u .pll) s = .next w ∧ hung w .die u 206)) ∧
  (∀ (s : State) (l : Nat) (ring : Bool), l < 4 →
    let d := if ring then (l + 1) % 4 else l
    ((s.die d).u.state = .inService → ∃ t : State, exec (.linkTimeout l ring false) s = .next t ∧ (t.die d).u.state = .suspect ∧
      (t.die d).u.cause = 207 ∧ (t.die d).u.resetReq = true) ∧
    ((s.die d).u.state = .resetting ∨ (s.die d).u.state = .testing →
      ∃ t : State, exec (.linkTimeout l ring true) s = .next t ∧ (t.die d).u.state = .suspect ∧ (t.die d).u.cause = 207 ∧
        (t.die d).u.resetReq = false ∧ s.raisedTo t [(207, d, 0)])) ∧
  (∀ (s : State) (q : Nat) (a : QueueAlloc) (since : Instant), s.alloc q = some a → a.doorbellOnly = false → (s.queue q).wait = true →
    (s.queue q).waitSince = some since → since + nsInst (2 * s.frameNs) < s.mono → (s.queue q).longRaised = false →
    ∃ t : State, exec (.longWait q) s = .next t ∧ t.queue q = { s.queue q with longRaised := true } ∧
      s.raisedTo t [(220, tileOfQueue q, 0)] ∧ (∀ p : Nat, p ≠ q → t.queue p = s.queue p))

/-- O49, tier 2 (R134, R404, R409, R411, R414, R416, R417, R424, R428). FENCE and BIST of a unit that may be fenced make it
FENCING with a drain of 100 us, or 1 ms for a die, and status 0x00; a refused request leaves the unit and answers its
status. At the end of the drain a fence for repair leaves the unit FENCED. RESET of a FENCED or SUSPECT unit asks for
its dump and reset; DUMP_WRITE makes a unit that is asked RESETTING; RESET_COMPLETE without a located fault and with
every entry test passed makes it TESTING with its restore due and its tiles' memory zero (a slot that serves no tile is
ready for its frame boundary, before the start IN_SERVICE at once), and with one failed SUSPECT with 0x83. RETURN during
the restore waits for the unit's checksum entries, or, with none, for its frame boundary, and before the start puts it
IN_SERVICE. KILL makes the slots of its tiles SUSPECT with cause 219, empties their queues, and leaves their memory to
be zeroed. -/
def Obligations.RecoveryRequests : Prop :=
  (∀ (s : State) (d loc : Nat) (k : UnitKind), d < 4 → loc < unitsPerDie k →
    let u := d * unitsPerDie k + loc
    let drains := fun (t : State) (p : FencePurpose) => (t.unit k u).state = .fencing ∧ (t.die d).recovLast = 0 ∧
      { kind := k, unit := u, drainUntil := s.mono + nsInst (if k = .die then 1000000 else 100000), purpose := p } ∈ (t.die d).fences
    let refused := fun (t : State) => t.unit k u = s.unit k u ∧ (t.die d).recovLast = BitVec.ofNat 8 (s.fenceRefusal k u 0) ∧
      (t.die d).fences = (s.die d).fences
    (s.fenceRefusal k u 0 = 0 → ∃ t v : State, exec (.fence d k loc) s = .next t ∧ drains t .repair ∧
      exec (.bist d k loc) s = .next v ∧ drains v .bist) ∧
    (s.fenceRefusal k u 0 ≠ 0 → ∃ t v : State, exec (.fence d k loc) s = .next t ∧ refused t ∧
      exec (.bist d k loc) s = .next v ∧ refused v)) ∧
  (∀ (s : State) (d : Nat) (f : FenceReq), (s.die d).fences.find? (fun x => decide (x.drainUntil ≤ s.mono)) = some f → f.purpose = .repair →
    ∃ t : State, exec (.fenceDrainEnd d) s = .next t ∧ (t.unit f.kind f.unit).state = .fenced ∧ f ∉ (t.die d).fences) ∧
  (∀ (s : State) (d loc : Nat) (k : UnitKind), d < 4 → loc < unitsPerDie k →
    let u := d * unitsPerDie k + loc
    ((s.unit k u).state = .fenced ∨ (s.unit k u).state = .suspect) → s.underRecovery k u = false → s.recoveryHeld k u = false →
    (k = .die → s.restartRefused u = false) →
    ∃ t : State, exec (.reset d k loc) s = .next t ∧ t.unit k u = { s.unit k u with resetReq := true } ∧ (t.die d).recovLast = 0) ∧
  (∀ (s : State) (d : Nat) (hungTiles hungClusters : List Nat) (k : UnitKind) (u : Nat), s.dumpDue d = some (k, u) →
    ∃ t : State, exec (.dumpWrite d ⟨hungTiles, hungClusters⟩) s = .next t ∧ (t.unit k u).state = .resetting ∧ (t.unit k u).resetReq = false ∧
      (t.unit k u).stage = .tests) ∧
  (∀ (s : State) (d : Nat) (k : UnitKind) (u : Nat), d < 4 → (k, u) ∈ (UnitKind.die, d) :: enclosed .die d →
    (s.unit k u).state = .resetting → (∀ e : UnitKind × Nat, e ∈ (UnitKind.die, d) :: enclosed .die d →
      (s.unit e.1 e.2).state = .resetting → e = (k, u)) → (k = .die → (s.die d).pgood = true) →
    (s.unitPasses k u = true → ¬ (k = .slot ∧ s.unitTiles k u = []) → ∃ t : State, exec (.resetComplete d [] true) s = .next t ∧
      (t.unit k u).state = .testing ∧ (t.unit k u).stage = .restore ∧
      ∀ tile x : Nat, tile ∈ s.unitTiles k u → x < tileSize → t.byteAt (tile * tileSize + x) = 0) ∧
    (s.unitPasses k u = true → k = .slot → s.unitTiles k u = [] → ∃ t : State, exec (.resetComplete d [] true) s = .next t ∧
      (s.started = false → (t.unit k u).state = .inService) ∧
      (s.started = true → (t.unit k u).state = .testing ∧ (t.unit k u).stage = .ready ∧
        (t.unit k u).readyBeat = ceilDiv (s.now - s.t0).toNat (nsInst s.beatNs) + 2)) ∧
    (∀ ok : Bool, ok = false ∨ s.unitPasses k u = false → ∃ t : State, exec (.resetComplete d [] ok) s = .next t ∧
      (t.unit k u).state = .suspect ∧ (t.die d).recovLast = 0x83)) ∧
  (∀ (s : State) (d loc : Nat) (k : UnitKind), d < 4 → loc < unitsPerDie k →
    let u := d * unitsPerDie k + loc
    (s.unit k u).state = .testing → (s.unit k u).stage = .restore → s.underRecovery k u = false → s.recoveryHeld k u = false →
    (s.unitSums k u ≠ [] → ∃ t : State, exec (.ret d k loc) s = .next t ∧ (t.unit k u).stage = .checks ∧ (t.unit k u).state = .testing ∧
      (t.die d).recovLast = 0) ∧
    (s.unitSums k u = [] → ∃ t : State, exec (.ret d k loc) s = .next t ∧ (t.die d).recovLast = 0 ∧
      (s.started = false → (t.unit k u).state = .inService) ∧
      (s.started = true → (t.unit k u).state = .testing ∧ (t.unit k u).stage = .ready))) ∧
  (∀ (s : State) (d : Nat), d < 4 →
    let g := 2 * d + fld (s.die d).kill.toNat 8 8
    let tiles := ((List.range 8).filter (fun i => bit (s.die d).kill.toNat i)).map (· + 8 * g)
    g < s.part.regions → (∀ i : Nat, i ∈ (s.die d).killIds → ∃ c : Carveout, s.img.carve i = some c ∧ c.owner = g) →
    (s.rgnUnit g).state.recovering = false → s.unitRefusal .region g = 0 → (∀ x : Nat, x ∈ tiles → s.tileInService x = true) →
    ∃ t : State, exec (.kill d) s = .next t ∧ (t.die d).recovLast = 0 ∧
      (∀ x : Nat, x ∈ tiles → (t.slot (s.slotOfTile x)).u.state = .suspect ∧ (t.slot (s.slotOfTile x)).u.cause = 219 ∧
        (t.tile x).mustZero = true) ∧
      (∀ a : QueueAlloc, a ∈ s.img.queues → tileOfQueue a.queue ∈ tiles →
        (t.queue a.queue).head = (s.queue a.queue).tail ∧ (t.queue a.queue).inflight = []))

/-- O50, tier 2 (R85, R164, R165, R168, R421, R423, R424, R425, R426). RECONCILE leaves every state alone while the copies
of every unit agree, a slot's TIL_ARR_REPAIR with the repair map among them, and makes a unit whose copies disagree
SUSPECT with cause 208. HEARTBEAT restarts the 1 ms of its die; without one for 1 ms CONTROLLER_TAKEOVER hands the die
to the standby processor (SEV-205), and no new recovery starts for 2 ms. AGING_MEASURE keeps the drift in ppm and raises
SEV-215 at 2 % and SEV-216 at 4 %, each once. EMBER_BIST without a fault changes nothing; a fault of the array that a
free spare can serve, and a row of the tile memory while a spare row of its bank is left (SEV-060), is repaired, any
other retires the Ember. RESUME of an idle queue clears ERR and, with DISCARD, empties it; BUSY_CLR clears the busy
count; the Die Controller alone writes TIL_ARR_REPAIR, while the array is held and with legal contents. -/
def Obligations.ControllersAndRepairs : Prop :=
  (∀ (s : State),
    let copiesAgree := fun (e : UnitKind × Nat) => (s.unit e.1 e.2).hostView = .inService ∧ (s.unit e.1 e.2).pregusView = .inService ∧
      (e.1 = .slot → (s.slot e.2).repair = s.mapRepair e.2)
    let gensAgree := fun (e : UnitKind × Nat) => (s.unit e.1 e.2).gen = (s.unit e.1 e.2).genHost ∧
      (s.unit e.1 e.2).gen = (s.unit e.1 e.2).genPregus
    ((∀ e : UnitKind × Nat, e ∈ allUnits → (s.unit e.1 e.2).state = .inService → copiesAgree e ∧ gensAgree e) →
      ∃ t : State, exec .reconcile s = .next t ∧ (∀ (k : UnitKind) (u : Nat), (t.unit k u).state = (s.unit k u).state) ∧
        t = { s with slots := t.slots, cluUnits := t.cluUnits, rgnUnits := t.rgnUnits, dies := t.dies }) ∧
    (∀ e : UnitKind × Nat, e ∈ allUnits → (s.unit e.1 e.2).state = .inService → ¬ copiesAgree e → s.underRecovery e.1 e.2 = false →
      s.recoveryHeld e.1 e.2 = false →
      (∀ e' : UnitKind × Nat, e' ∈ allUnits → e' ≠ e → (s.unit e'.1 e'.2).state = .inService → copiesAgree e' ∧ gensAgree e') →
      ∃ t : State, exec .reconcile s = .next t ∧ (t.unit e.1 e.2).state = .suspect ∧ (t.unit e.1 e.2).cause = 208)) ∧
  (∀ (s : State) (d : Nat), d < 4 → exec (.heartbeat d) s = .next (s.updDie d (fun x => { x with beatAt := s.mono }))) ∧
  (∀ (s : State) (d : Nat) (ok : Bool), d < 4 → (s.die d).beatAt + nsInst 1000000 ≤ s.mono →
    (if (s.die d).serving then (s.die d).aRetired else (s.die d).bRetired) = false →
    ∃ t : State, exec (.controllerTakeover d ok) s = .next t ∧ (t.die d).serving = !(s.die d).serving ∧
      (t.die d).swaps = satInc (s.die d).swaps ∧ (t.die d).beatAt = s.mono ∧ (t.die d).holdUntil = s.mono + nsInst 2000000 ∧ s.raisedTo t [(205, d, 0)] ∧
      (if (s.die d).serving then (t.die d).bRetired else (t.die d).aRetired) =
        ((if (s.die d).serving then (s.die d).bRetired else (s.die d).aRetired) || !ok)) ∧
  (∀ (s : State) (d n fS fR : Nat), d < 4 → n < 20 → 0 < fR → (s.slot (d * 20 + n)).u.state ≠ .off →
    let ppm := min 0xFFFF ((fR - fS) * 1000000 / fR)
    let x := s.slot (d * 20 + n)
    ∃ t : State, exec (.agingMeasure d n fS fR) s = .next t ∧
      t.slot (d * 20 + n) = { x with drift := BitVec.ofNat 16 ppm, warn := x.warn || decide (20000 ≤ ppm), retire := x.retire || decide (40000 ≤ ppm) } ∧
      s.raisedTo t ((if 20000 ≤ ppm ∧ x.warn = false then [(215, s.unitTag .slot (d * 20 + n), 0)] else []) ++
        (if 40000 ≤ ppm ∧ x.retire = false then [(216, s.unitTag .slot (d * 20 + n), 0)] else []))) ∧
  (∀ (s : State) (c p : Nat) (found : BistFault), c < 16 → s.ember c = some p →
    (found = .none → exec (.emberBist c found) s = .next s) ∧
    (∀ bank row : Nat, found = .memRow bank row →
      (s.tileSpares p (bank % 32) < 8 → ∃ t : State, exec (.emberBist c found) s = .next t ∧ (t.slot p).u = (s.slot p).u ∧
        s.raisedTo t [(217, s.unitTag .slot p, 0), (60, s.unitTag .slot p, 0)]) ∧
      (8 ≤ s.tileSpares p (bank % 32) → ∃ t : State, exec (.emberBist c found) s = .next t ∧ (t.slot p).u.state = .retired ∧
        (t.slot p).u.cause = 61)) ∧
    (∀ n : ArrRepair, found ≠ .none → (∀ bank row : Nat, found ≠ .memRow bank row) →
      (ArrRepair.ofWord (s.slot p).repair.toNat).choose (s.slot p).colFor found = some n →
      ∃ t : State, exec (.emberBist c found) s = .next t ∧ (t.slot p).repair = BitVec.ofNat 32 n.toWord ∧ (t.slot p).u = (s.slot p).u ∧
        s.repair.generation ≤ t.repair.generation) ∧
    (found ≠ .none → (ArrRepair.ofWord (s.slot p).repair.toNat).choose (s.slot p).colFor found = none →
      ∃ t : State, exec (.emberBist c found) s = .next t ∧ (t.slot p).u.state = .retired ∧ (t.slot p).u.cause = 217)) ∧
  (∀ (s : State) (q : Nat) (w : Word), q < s.part.queues → s.tileOpen (tileOfQueue q) = true → s.tileInService (tileOfQueue q) = true →
    bit w.toNat 31 = true →
    ((s.queue q).inflight = [] → ∃ t : State, exec (.resume q w) s = .next t ∧ (t.queue q).err = false ∧
      (t.queue q).head = (if bit w.toNat 30 then (s.queue q).tail else (s.queue q).head) ∧ t = { s with queues := t.queues } ∧
      ∀ p : Nat, p ≠ q → t.queue p = s.queue p) ∧
    ((s.queue q).inflight ≠ [] → ∃ t : State, exec (.resume q w) s = .next t ∧ (t.queue q).err = (s.queue q).err ∧
      (t.queue q).resumeErr = true ∧ (t.queue q).head = (s.queue q).head)) ∧
  (∀ (s : State) (tile : Nat), tile < s.part.tiles → s.tileOpen tile = true →
    exec (.busyClr tile) s = .next (s.updTile tile (fun x => { x with busy := 0 }))) ∧
  (∀ (s : State) (tile : Nat) (w : Word), tile < s.part.tiles →
    (s.arrHeld tile = true → arrRepairBad w.toNat = false → exec (.tilArrRepairWrite .dieController tile w) s =
      .next (s.updSlot (s.slotOfTile tile) (fun x => { x with repair := BitVec.ofNat 32 (w.toNat % 2 ^ 24 / 8 * 8) }))) ∧
    (s.arrHeld tile = false ∨ arrRepairBad w.toNat = true → exec (.tilArrRepairWrite .dieController tile w) s =
      .next (s.updTile tile (fun x => { x with repairWerr := true }))) ∧
    ∀ ag : Agent, ag ≠ .dieController → (ag = .host → s.tileOpen tile = true) → exec (.tilArrRepairWrite ag tile w) s = .next s)

/-- O51, tier 2 (R121, R124, R127, R135, R136, R137, R141). SCRUB_LINE of the line whose turn it is in a memory without
errors changes nothing but its place in the pass, and of another line nothing; a unit with an error that its code
corrects, in a row of which the passes before corrected none, reads clean afterwards and no byte changes.
SCRUB_PASS_OVERRUN raises SEV-059 when, with an image active, the pass has lasted longer than its interval, and the
interval begins again. CLEAR_DIRTY_LINE zeroes the dirty line or block and clears its tag. DRAM_MR4_POLL keeps the
multiplier and raises SEV-062 when it rises above 1; DRAM_RETRAIN notes its instant. -/
def Obligations.MemoryMaintenance : Prop :=
  (∀ (s : State) (addr m : Nat) (f : Bool), s.scrubMem addr = some m →
    ((s.scrubNext m).1 = addr / 64 * 64 → s.sound → s.suspects = [] → s.rowTests = [] →
      exec (.scrubLine addr f) s = .next (s.scrubStep m (addr / 64 * 64) (s.scrubNext m).2)) ∧
    ((s.scrubNext m).1 ≠ addr / 64 * 64 → exec (.scrubLine addr f) s = .next s)) ∧
  (∀ (s : State) (addr m u z : Nat) (f : Bool) (ps : List Nat), s.scrubMem addr = some m →
    (s.scrubNext m).1 = addr / 64 * 64 → s.suspects = [] → s.rowTests = [] → s.peatDirty = [] →
    s.dramDirty = [] → SMap.wf [] s.flips = true → (u, z) ∈ s.units (addr / 64 * 64) 64 →
    decodeUnit z (SMap.get [] s.flips u) = .corrected ps → SMap.get 0 s.rowsHit (s.rowOf u) = 0 →
    (∀ e : Nat × Nat, e ∈ s.units (addr / 64 * 64) 64 → e ≠ (u, z) → decodeUnit e.2 (SMap.get [] s.flips e.1) = .clean) →
    ∃ t : State, exec (.scrubLine addr f) s = .next t ∧ SMap.get [] t.flips u = [] ∧ t.mem = s.mem) ∧
  (∀ (s : State) (addr m : Nat), s.scrubMem addr = some m → s.image.isSome = true →
    max s.scrubFrom (SMap.get 0 s.scrubStart m) + nsInst (s.passNs m) < s.mono →
    ∃ t : State, exec (.scrubPassOverrun addr) s = .next t ∧ SMap.get 0 t.scrubStart m = s.mono ∧ s.raisedTo t [(59, memTag m, 0)] ∧
      t.mem = s.mem) ∧
  (∀ (s : State) (addr : Nat), s.isDirty addr = true →
    let size := if addr < dramBase then 64 else 4096
    ∃ t : State, exec (.clearDirtyLine addr) s = .next t ∧ t.isDirty addr = false ∧
      (∀ x : Nat, addr / size * size ≤ x → x < addr / size * size + size → t.byteAt x = 0) ∧
      t = { s with mem := t.mem, flips := t.flips, peatDirty := t.peatDirty, dramDirty := t.dramDirty }) ∧
  (∀ (s : State) (c : Nat) (twoX : Bool), c < 12 → (s.chan c).trained = true → (s.chan c).pollAt + nsInst 16000000 ≤ s.mono →
    ∃ t : State, exec (.dramMr4Poll c twoX) s = .next t ∧ t.chan c = { s.chan c with refresh2x := twoX, pollAt := s.mono } ∧
      s.raisedTo t (if twoX = true ∧ (s.chan c).refresh2x = false then [(62, c / 3, 0)] else [])) ∧
  (∀ (s : State) (c : Nat), c < 12 → (s.chan c).trained = true →
    exec (.dramRetrain c) s = .next (s.updChan c (fun x => { x with retrainAt := s.mono })))

/-- O52, tier 2 (R390, R394, R395, R396, R398, R401). CVU_CTX_INIT by the context's agent empties the pending bytes and sets
POLY and the register's INIT; POLY 6 and 7 set WERR alone. CVU_FEED appends its bytes: the register run over all bytes
still pending is as if it had run over the earlier ones and these. CVU_RESULT_READ answers a word of the register after
every pending byte, xor XOROUT. SCAN_START of an idle unit by an agent that may start it begins the scan of its
registers, which ends with 0x17 unless its range lies in carve-outs. SCAN_END of a scan whose lines that are left lie in
sound, open memory runs the register over them, gives the check value with status 0x00 and counts it. -/
def Obligations.CheckValueUnits : Prop :=
  (∀ (s : State) (ag : Agent) (u c : Nat) (w : Word), (ag = .host → s.cvuOpen u = true) → c < 2 → ctxAgent ag u c = true → bit w.toNat 3 = true →
    ∃ t : State, exec (.cvuCtxInit ag u c w) s = .next t ∧
      (w.toNat % 8 < 6 → (t.cvuOf u).ctx c = { (s.cvuOf u).ctx c with
        fifo := [], poly := BitVec.ofNat 3 w.toNat, reg := BitVec.ofNat 64 (polyOf (w.toNat % 8)).init }) ∧
      (6 ≤ w.toNat % 8 → (t.cvuOf u).ctx c = { (s.cvuOf u).ctx c with werr := true }) ∧
      t = { s with cvu := t.cvu, clusters := t.clusters }) ∧
  (∀ (s : State) (ag : Agent) (u c size : Nat) (w : Word), (ag = .host → s.cvuOpen u = true) → c < 2 → ctxAgent ag u c = true →
    (size = 1 ∨ size = 2 ∨ size = 4) → ((s.cvuOf u).ctx c).fifo.length + size ≤ 16 →
    let x := (s.cvuOf u).ctx c
    ∃ t : State, exec (.cvuFeed ag u c size w) s = .next t ∧ ((t.cvuOf u).ctx c).poly = x.poly ∧ ((t.cvuOf u).ctx c).ovf = x.ovf ∧
      crcRun (polyOf x.poly.toNat) ((t.cvuOf u).ctx c).reg.toNat ((t.cvuOf u).ctx c).fifo =
        crcRun (polyOf x.poly.toNat) x.reg.toNat (x.fifo ++ leBytes size w.toNat)) ∧
  (∀ (s : State) (u c i : Nat), s.cvuOpen u = true → c < 2 → i < 2 → ((s.cvuOf u).ctx c).fifo.length ≤ 16 →
    let x := (s.cvuOf u).ctx c
    let p := polyOf x.poly.toNat
    ∃ t : State, exec (.cvuResultRead u c i) s = .next t ∧
      t.link.resp = { kind := 0, data := leBytes 4 ((crcRun p x.reg.toNat x.fifo ^^^ p.xorOut) % 2 ^ p.width / 2 ^ (32 * i)) }) ∧
  (∀ (s : State) (ag : Agent) (u : Nat), (ag = .host → s.cvuOpen u = true) → scanAgent ag u = true → (s.cvuOf u).busy = false →
    (s.cvuOf u).scanPoly.toNat < 6 → (s.cvuOf u).scanLen ≠ 0 →
    exec (.scanStart ag u) s = .next (s.updCvu u (fun y => { y with
      busy := true, runAddr := y.scanAddr.toNat, runLen := y.scanLen.toNat, runPoly := y.scanPoly.toNat, runLines := 0
      runReg := (polyOf y.scanPoly.toNat).init
      runStat := if s.img.covers (s.img.carves.length + 1) y.scanAddr.toNat y.scanLen.toNat = true then 0 else 0x17 }))) ∧
  (∀ (s : State) (u n : Nat), u ≤ 16 → (s.cvuOf u).busy = true → (s.cvuOf u).runLen = 64 * n → (s.cvuOf u).runLines ≤ n →
    (s.cvuOf u).runStat = 0 → s.sound → s.suspects = [] →
    (∀ i : Nat, (s.cvuOf u).runLines ≤ i → i < n → s.carveClosed (cvuRegion u) ((s.cvuOf u).runAddr + 64 * i) 64 = false) →
    let x := s.cvuOf u
    let p := polyOf x.runPoly
    let reg := crcRun p x.runReg ((List.range (64 * (n - x.runLines))).map (fun i => s.byteAt (x.runAddr + 64 * x.runLines + i)))
    ∃ t : State, exec (.scanEnd u) s = .next t ∧ t.cvuOf u = { x with
      busy := false, lastStatus := 0, count := x.count + 1, runLines := n, runReg := reg
      result := BitVec.ofNat 64 ((reg ^^^ p.xorOut) % 2 ^ p.width) } ∧
      t.mem = s.mem)

/-- O53, tier 2 (R433, R434, R435, R436, R437, R463). COMMIT of a list that passes its checks, with an instant of R433 (a
START before the first step is checked at that step) and no ACTIVATE, makes it pending at its T with no vote in and
status 0x00; a COMMIT with a transaction pending, or whose list cannot be taken or fails its checks, answers 0x79 and
leaves what is pending. ABORT before the decision ends the transaction with 0x7B and SEV-253; after it, it is refused
with 0x7A. Until 200 us before T a die that owns entries votes yes when every unit they name on it is in service. Until
100 us before T, TXN_DECIDE decides COMMIT with every vote in and yes, and rolls back for a no, and for a vote that is
out 200 us before T; later its decision is late. At T a decided transaction applies and ends with 0x00 (a START sets T0
to T); any other is rolled back, and without a decision in time each die in service that voted yes is SUSPECT with cause
254. -/
def Obligations.Transactions : Prop :=
  (∀ (s : State) (id : Word) (l : List TxnEntry) (w : Instant), s.timeRuns = true → s.ctx.txn = none → s.fetchList = (s, some (id, l)) →
    s.listOk l = true → s.whenInstant = some w → (countOp l 3 = 0 ∨ s.tb.stepped = true → instantOk s.now w = true) →
    activateMask l = none →
    ∃ t : State, exec .commit s = .next t ∧ t.ctx.txnLast = 0 ∧ t.ctx.txn = some {
      id := id, entries := l, target := (s.txnInstant l w).1, when_ := w, beat := (s.txnInstant l w).2, voted := [], decision := none } ∧ t = { s with ctx := t.ctx }) ∧
  (∀ s : State, s.timeRuns = true → (s.ctx.txn ≠ none ∨ s.fetchList = (s, none) ∨
      ∃ x : Word × List TxnEntry, s.fetchList = (s, some x) ∧ s.listOk x.2 = false) →
    ∃ t : State, exec .commit s = .next t ∧ t.ctx = { s.ctx with txnLast := 0x79 } ∧ t = { s with ctx := t.ctx, link := t.link }) ∧
  (∀ (s : State) (x : Txn), s.timeRuns = true → s.ctx.txn = some x →
    (x.decision = none → ∃ t : State, exec .abort s = .next t ∧ t.ctx = { s.ctx with txn := none, txnLast := 0x7B } ∧
      s.raisedTo t [(253, 0xFF, 0x7B)]) ∧
    (x.decision ≠ none → ∃ t : State, exec .abort s = .next t ∧ t.ctx = { s.ctx with txnLast := 0x7A })) ∧
  (∀ (s : State) (x : Txn) (w : Instant) (d : Nat), s.ctx.txn = some x → x.target = some w → s.now + nsInst 200000 ≤ w →
    x.decision = none → d ∈ x.owners s.part → (∀ v : Nat × Bool, v ∈ x.voted → v.1 ≠ d) → s.dieDown d = false →
    exec (.txnVote d) s = .next (s.updCtx (fun c => { c with txn := some { x with voted := x.voted ++
      [(d, x.entries.all (fun e => (e.units s.part).all (fun u => u.dieOf != d || s.unitServes u)))] } }))) ∧
  (∀ (s : State) (x : Txn) (w : Instant), s.ctx.txn = some x → x.target = some w → x.decision = none →
    (s.now + nsInst 100000 ≤ w → x.voted.all (fun v => v.2) = true → x.prepared s.part = true →
      exec .txnDecide s = .next (s.updCtx (fun c => { c with txn := some { x with decision := some true, late := false } }))) ∧
    (s.now + nsInst 100000 ≤ w →
      x.voted.all (fun v => v.2) = false ∨ (x.prepared s.part = false ∧ w < s.now + nsInst 200000) →
      ∃ t : State, exec .txnDecide s = .next t ∧ t.ctx = { s.ctx with txn := none, txnLast := 0x7B } ∧ s.raisedTo t [(253, 0xFF, 0x7B)]) ∧
    (s.now + nsInst 200000 ≤ w → x.voted.all (fun v => v.2) = true → x.prepared s.part = false → exec .txnDecide s = .next s) ∧
    (s.now < w → w < s.now + nsInst 100000 → exec .txnDecide s = .next (s.updCtx (fun c => { c with
      txn := some { x with decision := some (x.prepared s.part && x.voted.all (fun v => v.2)), late := true } })))) ∧
  (∀ (s : State) (x : Txn), s.ctx.txn = some x → s.txnReady x = true →
    (x.decision = some true → x.late = false → s.txnBlocked x = false → ∃ t : State, exec .txnApply s = .next t ∧ t.ctx.txn = none ∧ t.ctx.txnLast = 0 ∧
      (∀ (e : TxnEntry) (w : Instant), x.entries = [e] → e.op = 3 → x.target = some w → t.tb.t0 = some (w : Int))) ∧
    (x.decision ≠ some true → ∃ t : State, exec .txnApply s = .next t ∧ t.ctx.txn = none ∧ t.ctx.txnLast = 0x7B ∧
      t.image = s.image ∧ t.tb = s.tb ∧
      (∀ d : Nat, x.decision = none ∨ x.late = true → (d, true) ∈ x.voted → (s.die d).u.state = .inService →
        (t.die d).u.state = .suspect ∧ (t.die d).u.cause = 254)))

/-- O54, tier 2 (R440, R441, R442, R443, R446, R447, R449, R452, R454). With no operation busy and no ACTIVATE pending:
STAGE_PREGUS and STAGE_DIE of a firmware that verifies and fits, STAGE_IMAGE of a valid image, and SAVE end with status
0x00 and what they name is staged or stored; a firmware that does not verify ends with its status and SEV-255, and its
unit is unstaged, whatever was staged of it before; STAGE_REGION fences its region for the update; UNSTAGE discards
everything staged. RATCHET sets the component's counter to its active SEC_VERSION, or is refused with 0x7D. ATTEST
writes the report and its signature at SEC_REPORT_ADDR. UNLOCK with a valid token raises DEBUG to at least its LEVEL
with SEV-260, and any other token, or an address that holds none that can be read, answers 0x7E with SEV-261; each draws
a new SEC_CHAL. A verified provisioning command programs an empty key slot, or revokes one that may be revoked, with
status 0x00; one that does not verify, or whose signer may not sign it, answers 0x71. -/
def Obligations.UpdateAndSecurity : Prop :=
  (∀ s : State, s.timeRuns = true → s.updBusy = false → s.activatePending = false →
    (∀ f : Firmware, s.loadFirmware 1 (!s.upd.selPregus) = .ok f → s.pregusFits f = true →
      ∃ t : State, exec .stagePregus s = .next t ∧ t.upd.pregusStaged = f ∧ bit t.upd.staged.toNat 0 = true ∧ t.upd.last = 0) ∧
    (∀ e : Nat, s.loadFirmware 1 (!s.upd.selPregus) = .error e →
      ∃ t : State, exec .stagePregus s = .next t ∧ t.upd.last = BitVec.ofNat 8 e ∧ t.upd.staged = s.upd.staged &&& ~~~1#14 ∧
        t.upd.pregusStaged = s.upd.pregusStaged ∧ s.raisedTo t [(255, 0xFF, e)]) ∧
    (∀ (d : Nat) (f : Firmware), d < 4 → (if (s.die d).serving then (s.die d).aRetired else (s.die d).bRetired) = false →
      s.dieDown d = false → s.loadFirmware 2 (!s.upd.selDie) = .ok f → s.dieFits d f = true →
      ∃ t : State, exec (.stageDie d true) s = .next t ∧ (if (s.die d).serving then (t.die d).fwA else (t.die d).fwB) = f ∧
        bit t.upd.staged.toNat (d + 1) = true ∧ t.upd.last = 0 ∧ (t.die d).serving = (s.die d).serving) ∧
    (∀ (d e : Nat), d < 4 → (if (s.die d).serving then (s.die d).aRetired else (s.die d).bRetired) = false →
      s.dieDown d = false → s.loadFirmware 2 (!s.upd.selDie) = .error e →
      ∃ t : State, exec (.stageDie d true) s = .next t ∧ t.upd.last = BitVec.ofNat 8 e ∧ bit t.upd.staged.toNat (d + 1) = false ∧
        t.dies = s.dies ∧ s.raisedTo t [(255, d, e)]) ∧
    (∀ i : Image, s.checkSlot (!s.upd.selImage) s.firmwareToRun = .ok i →
      ∃ t : State, exec .stageImage s = .next t ∧ t.upd.image = some i ∧ bit t.upd.staged.toNat 5 = true ∧ t.upd.last = 0 ∧
        t.image = s.image ∧ t.upd.hitless = (match s.image with | some a => hitless a i | none => false)) ∧
    (∀ g : Nat, g < s.part.regions → s.isStaged 5 = true → s.fenceRefusal .region g 1 = 0 →
      ∃ t : State, exec (.stageRegion g) s = .next t ∧ (t.rgnUnit g).state = .fencing ∧
        { kind := .region, unit := g, drainUntil := s.mono + nsInst 100000, purpose := .update } ∈ (t.die (g / 2)).fences) ∧
    (∃ t : State, exec .unstage s = .next t ∧ t.upd.staged = 0 ∧ t.upd.image = none ∧ t.upd.last = 0) ∧
    (∃ t : State, exec .save s = .next t ∧ t.upd.settings = some s.currentSettings ∧ t.upd.last = 0)) ∧
  (∀ (s : State) (comp : Nat), s.timeRuns = true →
    (s.ratchetRefused comp = false → ∃ t : State, exec (.ratchet comp) s = .next t ∧ t.sec.last = 0 ∧
      t.ratchetPair comp = ((s.ratchetPair comp).1, (s.ratchetPair comp).1) ∧ s.raisedTo t [(258, 0xFF, 0)]) ∧
    (s.ratchetRefused comp = true → ∃ t : State, exec (.ratchet comp) s = .next t ∧ t.sec.last = 0x7D ∧ t.sec.cntPregus = s.sec.cntPregus ∧
      t.sec.cntDie = s.sec.cntDie ∧ t.sec.cntStruct = s.sec.cntStruct)) ∧
  (∀ s : State, s.timeRuns = true → s.reportPlaced s.sec.reportAddr = true →
    ∃ t : State, exec .attest s = .next t ∧ t.sec.last = 0 ∧
      t.mem = (s.put s.sec.reportAddr (s.report ++ slice (identitySign (sha3 s.report)) 0 4627)).mem) ∧
  (∀ s : State, s.timeRuns = true → s.sound → s.inCarve s.sec.reportAddr (128 + 4627) = true →
    s.carveClosed none s.sec.reportAddr (128 + 4627) = false →
    let b := (s.fetch s.sec.reportAddr (128 + 4627)).data
    let good := s.tokenOk (b.take 128) && s.signedBy (leAt b 8 4) 2 (b.take 128) (b.drop 128)
    ∃ t : State, exec .unlock s = .next t ∧ t.sec.chalDraw = s.sec.chalDraw + 1 ∧
      (good = true → t.sec.debugLevel = BitVec.ofNat 2 (max (leAt b 4 4) s.sec.debugLevel.toNat) ∧ t.sec.last = 0 ∧ s.raisedTo t [(260, 0xFF, 0)]) ∧
      (good = false → t.sec.debugLevel = s.sec.debugLevel ∧ t.sec.last = 0x7E ∧ s.raisedTo t [(261, 0xFF, 0x7E)])) ∧
  (∀ s : State, s.timeRuns = true → s.inCarve s.sec.reportAddr (128 + 4627) = false ∨
      s.carveClosed none s.sec.reportAddr (128 + 4627) = true →
    ∃ t : State, exec .unlock s = .next t ∧ t.sec = { s.sec with chalDraw := s.sec.chalDraw + 1, last := 0x7E } ∧
      s.raisedTo t [(261, 0xFF, 0x7E)]) ∧
  (∀ (s : State) (slot roles signer : Nat) (digest msg sig : List Byte), s.timeRuns = true →
    (s.provisionSigned 0 msg sig = true → 0 < slot → slot < 8 → (s.keySlot slot).programmed = false →
      ∃ t : State, exec (.provisioningCommand (.program slot digest roles) 0 msg sig) s = .next t ∧ t.sec.last = 0 ∧
        t.keySlot slot = { programmed := true, digest := digest, roles := roles % 8, revoked := false }) ∧
    ((signer = 0 ∨ signer = slot) → s.provisionSigned signer msg sig = true → slot < 8 → (s.keySlot slot).programmed = true →
      (s.keySlot slot).revoked = false → s.lastFirmwareSlot slot = false →
      ∃ t : State, exec (.provisioningCommand (.revoke slot) signer msg sig) s = .next t ∧ t.sec.last = 0 ∧
        t.keySlot slot = { s.keySlot slot with revoked := true } ∧ s.raisedTo t [(259, 0xFF, 0)]) ∧
    (∀ c : Provision, s.provisionSigned signer msg sig = false ∨ signer ∉ Provision.signers c →
      ∃ t : State, exec (.provisioningCommand c signer msg sig) s = .next t ∧ t.sec = { s.sec with last := 0x71 }))

/-- O55, tier 2 (R5, R43, R69, R409, R457, R459, R460, R461). A register write at an aligned offset of the register region
makes the write of the register that stands there, unless it comes from the host and the register's unit is fenced,
which drops and counts it; a host write to a doorbell of BAR2 is the DOORBELL of that queue; a DOORBELL of a queue that
the part does not have is ignored with 0x90, one of a queue with no entry in the image changes nothing, and one at a
fenced tile is dropped and counted; a misaligned host write is dropped with 0x90. SEC_NONCE reads back what was written.
A read of a size other than 4 completes as Unsupported Request with 0x90. A host write to open, sound memory inside
carve-outs stores its bytes and changes nothing else; a host read there answers the stored bytes. -/
def Obligations.HostAccesses : Prop :=
  (∀ (s : State) (ag : Agent) (o : Nat) (v : Word) (r : Reg), o < 0x10000000 → regAt s.part o = some r →
    (ag = .host → s.link.d3hot = false) →
    ((ag = .host → s.unitOpen r.unit = true) → exec (.registerWrite ag o v) s = .next (s.writeReg ag r v.toNat)) ∧
    (ag = .host → s.unitOpen r.unit = false → exec (.registerWrite ag o v) s = .next (s.dropAt r.unit.dieOf))) ∧
  (∀ (s : State) (q : Nat) (v : Word), s.link.d3hot = false → q < 0x8000 →
    exec (.registerWrite .host (0x10000000 + 4 * q) v) s = exec (.doorbell q v) s) ∧
  (∀ (s : State) (q : Nat) (v : Word),
    (s.part.queues ≤ q → exec (.doorbell q v) s = .next (s.updLink (fun l => { l with errLast := 0x90 }))) ∧
    (q < s.part.queues → s.alloc q = none → exec (.doorbell q v) s = .next s) ∧
    (q < s.part.queues → s.alloc q ≠ none → s.tileOpen (tileOfQueue q) = false →
      exec (.doorbell q v) s = .next (s.dropAt (dieOfTile (tileOfQueue q))))) ∧
  (∀ (s : State) (o : Nat) (v : Word), o % 4 ≠ 0 → exec (.registerWrite .host o v) s =
    .next (s.updLink (fun l => { l with errLast := 0x90, drops := satInc l.drops }))) ∧
  (∀ (s : State) (i : Nat) (v : Word), s.link.d3hot = false → i < 8 →
    ∃ t u : State, exec (.registerWrite .host (0x20010 + 4 * i) v) s = .next t ∧ exec (.hostRegisterRead (0x20010 + 4 * i) 4) t = .next u ∧
      u.link.resp = { kind := 0, data := leBytes 4 v.toNat } ∧ t = { s with sec := { s.sec with nonce := t.sec.nonce } }) ∧
  (∀ (s : State) (o size : Nat), size ≠ 4 →
    ∃ t : State, exec (.hostRegisterRead o size) s = .next t ∧ t.link.resp = { kind := 1, data := [] } ∧ t.link.errLast = 0x90 ∧
      t.link.aborts = satInc s.link.aborts ∧ t = { s with link := t.link }) ∧
  (∀ (s : State) (o a : Nat) (bs : List Byte), s.sound → s.link.d3hot = false → bs ≠ [] → bar4 o = .memory a →
    s.covered a bs.length = true → s.carveClosed none a bs.length = false →
    ∃ t : State, exec (.hostMemoryWrite o bs false) s = .next t ∧ t = { s with mem := t.mem } ∧
      ∀ x : Nat, t.byteAt x = if a ≤ x ∧ x < a + bs.length then bs.getD (x - a) 0 else s.byteAt x) ∧
  (∀ (s : State) (o a n : Nat), s.sound → s.link.d3hot = false → n ≠ 0 → bar4 o = .memory a → s.covered a n = true →
    s.carveClosed none a n = false →
    exec (.hostMemoryRead o n false) s = .next (s.updLink (fun l => { l with
      resp := { kind := 0, data := (List.range n).map (fun i => s.byteAt (a + i)) } })))

/-- O56, tier 2 (R463, R464, R465, R466, R467, R468, R480). FLASH_OPEN opens a slot of the table that is not active and
refuses any other with 0x92; FLASH_CLOSE closes; FLASH_WINDOW_WRITE inside the open slot stores its bytes, and outside
it is dropped, counted, with 0x92. UCI_EVT_READ and MB_RX_READ answer with the last word of the oldest entry and remove
it. MB_TX of a malformed message answers 0x96 with SEV-311; a well-formed one by path leaves through the first port of
its path. UCIE_TRAINING_DONE sets modules and rate and raises SEV-301 when both are down, else SEV-302 for a module down
and SEV-303 for less width or rate; UCIE_MODULE_DOWN counts a retrain likewise. HOST_LINK_RESET returns the
configuration space alone. MSIX_UNMASK enables the vector, and one that waited is sent. -/
def Obligations.HostLinkCommands : Prop :=
  (∀ (s : State) (k : Nat), s.flashServed = true →
    (0 < k → k ≤ 6 → s.slotActive k = false → exec (.flashOpen k) s = .next (s.updLink (fun l => { l with
      flSlot := BitVec.ofNat 3 k, flOpenSlot := k, flOpened := true, flLast := 0, flErased := [] }))) ∧
    (k = 0 ∨ 6 < k ∨ s.slotActive k = true → exec (.flashOpen k) s = .next (s.updLink (fun l => { l with
      flSlot := BitVec.ofNat 3 k, flLast := 0x92 }))) ∧
    exec .flashClose s = .next (s.updLink (fun l => { l with flOpened := false, flOpenSlot := 0, flErased := [], flLast := 0 }))) ∧
  (∀ (s : State) (off : Nat) (bs : List Byte), s.flashServed = true → s.link.flOpened = true → bs ≠ [] →
    let r := flashSlotRange s.link.flOpenSlot
    (r.1 ≤ off → off + bs.length ≤ r.1 + r.2 → ∃ t : State, exec (.flashWindowWrite off bs) s = .next t ∧
      (∀ i : Nat, i < bs.length → SMap.get 0xFF t.flash (off + i) = bs.getD i 0) ∧
      t = { s with flash := t.flash, link := { s.link with flErased := t.link.flErased } }) ∧
    (off < r.1 ∨ r.1 + r.2 < off + bs.length → exec (.flashWindowWrite off bs) s = .next (s.updLink (fun l => { l with
      flDrops := satInc l.flDrops, flLast := 0x92 })))) ∧
  (∀ s : State, exec .uciEvtRead s = .next (s.updLink (fun l => { l with
    resp := { kind := 0, data := leBytes 4 (s.link.evtWord 3) }, events := l.events.drop 1 }))) ∧
  (∀ s : State, exec .mbRxRead s = .next (s.updLink (fun l => { l with
    resp := { kind := 0, data := leBytes 4 (s.link.mbRxWord 15) }, mbRx := l.mbRx.drop 1 }))) ∧
  (∀ (s : State) (w : Word),
    let l := { s.link with mbTx := SMap.set 0 s.link.mbTx 15 w }
    let m := Mgmt.parse l.mbMessage
    (mgmtOk l.mbMessage = false → ∃ t : State, exec (.mbTx w) s = .next t ∧ t.link.mbLast = 0x96 ∧ s.raisedTo t [(311, 0xFF, 0x96)]) ∧
    (mgmtOk l.mbMessage = true → s.mbBusy = false → m.type ≠ 16 → m.dst = 0x80 → m.hops ≠ 0 → (s.port (m.path % 4)).up = true →
      s.dieDown (m.path % 4) = false →
      let x := s.port (m.path % 4)
      let y : PortSt := { x with heardAt := if x.idle = true then s.mono else x.heardAt }
      let k : Packet := { kind := 5, cls := 0, dst := 0, src := s.chip, data := { m with hops := m.hops - 1, path := m.path / 4 }.bytes }
      ∃ t : State, exec (.mbTx w) s = .next t ∧ t.link = { l with mbLast := 0 } ∧ t.port (m.path % 4) = y.queuePacket k)) ∧
  (∀ (s : State) (a x b y : Bool) (rate : Nat), s.boot ≠ .held → s.boot ≠ .testMode → 1 ≤ rate → rate ≤ 6 →
    ∃ t : State, exec (.ucieTrainingDone a x b y rate) s = .next t ∧ t.link.mods = BitVec.ofNat 4 (modsOf a x b y) ∧
      t.link.rate = BitVec.ofNat 4 (if a || b then rate else 0) ∧
      s.raisedTo t (if a || b then (if a then [] else [(302, 0, 0x98)]) ++ (if b then [] else [(302, 2, 0x98)]) ++
        (if (a && x) || (b && y) || decide (rate < s.link.rate.toNat) then [(303, 0xFF, 0)] else []) else [(301, 0xFF, 0x98)]) ∧
      t = { s with link := t.link, ash := t.ash }) ∧
  (∀ (s : State) (m rate : Nat) (x8 : Bool), m < 2 → bit s.link.mods.toNat (2 * m) = true → 1 ≤ rate → rate ≤ 6 →
    (∃ t : State, exec (.ucieModuleDown m true x8 rate) s = .next t ∧ t.link.retrains = satInc s.link.retrains ∧
      t.link.rate = BitVec.ofNat 4 rate ∧ bit t.link.mods.toNat (2 * m) = true ∧ bit t.link.mods.toNat (2 * m + 1) = x8 ∧
      s.raisedTo t (if (x8 = true ∧ bit s.link.mods.toNat (2 * m + 1) = false) ∨ rate < s.link.rate.toNat then [(303, 0xFF, 0)] else [])) ∧
    (∃ t : State, exec (.ucieModuleDown m false x8 rate) s = .next t ∧ t.link.retrains = satInc s.link.retrains ∧
      bit t.link.mods.toNat (2 * m) = false ∧
      s.raisedTo t (if bit s.link.mods.toNat (2 * (1 - m)) then [(302, 2 * m, 0x98)] else [(301, 0xFF, 0x98)]))) ∧
  (∀ s : State, exec .hostLinkReset s = .next (s.updLink (fun l => { l with d3hot := false, msixEnable := false }))) ∧
  (∀ (s : State) (v : Nat), v < 2048 → ∃ t : State, exec (.msixUnmask v) s = .next t ∧ t.link.msixEnable = true ∧
    SMap.get false t.link.unmasked v = true ∧ SMap.get false t.link.pba v = false ∧
    (SMap.get false s.link.pba v = true → v ∈ t.link.sent) ∧ t = { s with link := t.link })

/-- O57, tier 2 (R471, R472, R473, R474, R475, R478, R479, R481, R483). A port that trains comes up with four lanes or all
(SEV-308 for four) and fresh numbers and sends HELLO; one that does not stays DOWN with 0x97. A flit with a bad CRC is
answered with a NAK; an idle flit's acknowledgement and credits are taken; the single payload flit of a data packet for
this chip, with the number that is due, puts the packet in the inbox and is acknowledged. A timeout replays every flit
not acknowledged; the third without progress, and one 20 us after the latest ACK or credit, retrains the port first, and
with three failed retrains it goes DOWN, as PORT_DOWN takes it: every request outstanding ends with 0x94.
LATTICE_LANE_DEGRADE leaves four lanes with SEV-308. LAT_SYS takes CHIP only while NUMBERED is 0, which it sets;
LAT_ROUTE takes its value. LATTICE_TIME_EXCHANGE sends a TIME message and keeps the measured offset. -/
def Obligations.LatticePorts : Prop :=
  (∀ (s : State) (p : Nat) (four : Bool), s.portLive p = true → (s.port p).up = false →
    (∃ t : State, exec (.latticeTrainingDone p true four) s = .next t ∧ (t.port p).state = (if four then 3 else 2) ∧
      (t.port p).txSeq = 1 ∧ (t.port p).rxSeq = 0 ∧ (t.port p).replayBuf.length = 1 ∧
      (t.port p).outbox.length = (s.port p).outbox.length + 1 ∧ s.raisedTo t (if four then [(308, p, 0)] else [])) ∧
    exec (.latticeTrainingDone p false four) s = .next (s.updPort p (fun x => { x with state := 0, trainStatus := 0x97 }))) ∧
  (∀ (s : State) (p : Nat) (f : List Byte), s.portLive p = true → (s.port p).up = true → f.length = 256 →
    (leAt f 248 8 ≠ crc 5 (f.take 248) → exec (.flitReceive p f) s = .next (s.updPort p (fun x => x.sendIdle true))) ∧
    (leAt f 248 8 = crc 5 (f.take 248) → bit (flitHeader f) 26 = true → bit (flitHeader f) 25 = false →
      exec (.flitReceive p f) s = .next (s.updPort p (fun x =>
        (((x.takeAck (flitHeader f)).takeCredits (flitHeader f)).heard s.mono (flitHeader f)).pump))) ∧
    (leAt f 248 8 = crc 5 (f.take 248) → bit (flitHeader f) 26 = false → bit (flitHeader f) 25 = false →
      (s.port p).txWait = [] → (s.port p).txOpen = none → (s.port p).partialRx = [] → fld (flitHeader f) 11 0 = (s.port p).rxSeq.toNat → s.lat.numbered = true →
      (Packet.parse (slice f 8 240)).kind ∈ [1, 2, 3, 4] → (Packet.parse (slice f 8 240)).dst = s.chip →
      flitsOf (leAt (slice f 8 240) 6 2) = 1 →
      ∃ t : State, exec (.flitReceive p f) s = .next t ∧ (t.port p).inbox = (s.port p).inbox ++ [Packet.parse (slice f 8 240)] ∧
        (t.port p).rxSeq = (s.port p).rxSeq + 1 ∧ (t.port p).partialRx = [] ∧ (t.port p).txSeq = (s.port p).txSeq ∧
        (t.port p).outbox.length = (s.port p).outbox.length + 1 ∧ t = { s with dies := t.dies })) ∧
  (∀ (s : State) (p failed : Nat), s.portLive p = true → (s.port p).up = true → (s.port p).replayBuf ≠ [] →
    ((s.port p).noProgress < 2 → s.mono < (s.port p).heardAt + nsInst 20000 → ∃ t : State, exec (.replayTimeout p failed) s = .next t ∧
      (t.port p).replays = satInc (s.port p).replays ∧ (t.port p).noProgress = (s.port p).noProgress + 1 ∧
      (t.port p).outbox = (s.port p).outbox ++ (s.port p).replayBuf ∧ (t.port p).replayBuf = (s.port p).replayBuf ∧
      (t.port p).retrains = (s.port p).retrains) ∧
    (2 ≤ (s.port p).noProgress ∨ (s.port p).heardAt + nsInst 20000 ≤ s.mono → 3 ≤ failed → ∃ t : State, exec (.replayTimeout p failed) s = .next t ∧ (t.port p).state = 0 ∧
      (t.port p).replayBuf = [] ∧ (t.port p).outstanding = []) ∧
    (2 ≤ (s.port p).noProgress ∨ (s.port p).heardAt + nsInst 20000 ≤ s.mono → failed < 3 → ∃ t : State, exec (.replayTimeout p failed) s = .next t ∧ (t.port p).state = (s.port p).state ∧
      (t.port p).outbox = (s.port p).outbox ++ (s.port p).replayBuf ∧ (t.port p).noProgress = 0)) ∧
  (∀ (s : State) (p : Nat), p < 4 → (s.port p).up = true →
    ∃ t : State, exec (.portDown p) s = .next t ∧ (t.port p).state = 0 ∧ (t.port p).outstanding = [] ∧
      (∀ (r : Nat × Nat × Nat) (f : InFlight), r ∈ (s.port p).outstanding → f ∈ (t.queue r.2.1).inflight → f.pos.toNat = r.2.2 →
        f.status = 0x94 ∧ f.executed = true ∧ f.acksDue = 0)) ∧
  (∀ (s : State) (p : Nat), s.portLive p = true → (s.port p).state = 2 →
    ∃ t : State, exec (.latticeLaneDegrade p) s = .next t ∧ t.port p = { s.port p with state := 3 } ∧ s.raisedTo t [(308, p, 0)]) ∧
  (∀ (s : State) (w : Word), exec (.latSysChipWrite w) s = .next (s.updLat (fun l => { l with
    topo := BitVec.ofNat 3 (fld w.toNat 30 28), chip := if l.numbered then l.chip else BitVec.ofNat 4 (fld w.toNat 27 24), numbered := true
    fmChip := BitVec.ofNat 4 (fld w.toNat 23 20), timeMaster := BitVec.ofNat 4 (fld w.toNat 19 16)
    countM1 := BitVec.ofNat 4 (fld w.toNat 15 12) }))) ∧
  (∀ (s : State) (c : Nat) (w : Word), c < 16 → exec (.latRouteWrite c w) s = .next (s.updLat (fun l => { l with
    routes := SMap.set 0x7777 l.routes c (BitVec.ofNat 16 w.toNat) }))) ∧
  (∀ (s : State) (p : Nat) (offset : Int), s.portLive p = true → (s.port p).up = true →
    ∃ t : State, exec (.latticeTimeExchange p offset) s = .next t ∧ (t.port p).timeOffset = offset ∧
      t.lat.mgmtSeq = s.lat.mgmtSeq + 1 ∧ (t.port p).inbox = (s.port p).inbox ∧ t.tb = s.tb)

/-- O58, tier 2 (R86, R87, R476, R477, R479, R480, R481, R483). WRITE takes the packet at the front of the port's inbox and,
unless a packet of its message was dropped before, writes its data from the window's base plus its offset on. SIGNAL of
a message that was not dropped is added to its object in a cycle of the open directory. WRITE_ACK and SIGNAL_ACK end the
request that their TAG names: its command loses one acknowledgement to wait for, after a discarded message without its
signal, or takes the status that came back. HELLO, ACK, RESET_NOTICE, RETURN_NOTICE, LINK_DOWN and HOST go to the host's
mailbox. SET_CHIP numbers a chip that has no number; SET_ROUTE from FM_CHIP sets the routes of its mask; TIME on the
followed port acts as a measurement when the source is LATTICE. -/
def Obligations.LatticePackets : Prop :=
  (∀ (s : State) (p : Nat) (k : Packet) (rest : List Packet), p < 4 → (s.port p).inbox = k :: rest →
    (k.kind = 1 → k.word4 % 64 < s.part.tiles → s.tileReachable (k.word4 % 64) = true → s.sound →
      (s.messageOf k).any (fun m => m.dropped.isSome) = false →
      let w := SMap.get {} (s.tile (k.word4 % 64)).windows (fld k.word4 9 6)
      w.defined = true → k.word12 + k.data.length ≤ w.size →
      ∃ t : State, exec (.write p) s = .next t ∧ (t.port p).inbox = rest ∧
        ∀ x : Nat, t.byteAt x = if k.word4 % 64 * tileSize + w.base + k.word12 ≤ x ∧
            x < k.word4 % 64 * tileSize + w.base + k.word12 + k.data.length then
          k.data.getD (x - (k.word4 % 64 * tileSize + w.base + k.word12)) 0 else s.byteAt x) ∧
    (k.kind = 3 → refCluster k.word12 < s.part.clusters → s.clusterOpen (refCluster k.word12) = true →
      (s.messageOf k).any (fun m => m.dropped.isSome) = false →
      ∃ t : State, exec (.signal p) s = .next t ∧ (t.port p).inbox = rest ∧ t.mem = s.mem ∧
        t.cluster (refCluster k.word12) = ({ s.cluster (refCluster k.word12) with
          signals := (s.cluster (refCluster k.word12)).signals ++ [(refObject k.word12, BitVec.ofNat 32 (leAt k.data 0 4))] }
            : ClusterSt).applySync) ∧
    (∀ o q pos : Nat, s.requestOf k.tag = some (o, q, pos) →
      let code := k.word12 % 256
      let acked := fun (t : State) => (∀ r : Nat × Nat × Nat, r ∈ (t.port o).outstanding → r.1 ≠ k.tag) ∧
        (t.queue q).inflight = (s.queue q).inflight.map (fun f => if f.pos.toNat = pos then
          (if ackFails code = true then { f with status := BitVec.ofNat 8 code, executed := true, acksDue := 0, sigDone := true }
           else { f with acksDue := f.acksDue - 1, sigDone := f.sigDone || (code == 1 && k.kind == 2) }) else f)
      (k.kind = 2 → ∃ t : State, exec (.writeAck p) s = .next t ∧ acked t) ∧
      (k.kind = 4 → ∃ t : State, exec (.signalAck p) s = .next t ∧ acked t)) ∧
    (k.kind = 5 → s.link.mbRx.length < 64 →
      let arrives := fun (t : State) => (t.port p).inbox = rest ∧ t.link.mbRx = s.link.mbRx ++ [k.data] ∧ t.mem = s.mem
      ((Mgmt.parse k.data).type = 1 → ∃ t : State, exec (.hello p) s = .next t ∧ arrives t) ∧
      ((Mgmt.parse k.data).type = 4 → ∃ t : State, exec (.ack p) s = .next t ∧ arrives t) ∧
      ((Mgmt.parse k.data).type = 5 → ∃ t : State, exec (.resetNotice p) s = .next t ∧ arrives t) ∧
      ((Mgmt.parse k.data).type = 6 → ∃ t : State, exec (.returnNotice p) s = .next t ∧ arrives t) ∧
      ((Mgmt.parse k.data).type = 7 → ∃ t : State, exec (.linkDown p) s = .next t ∧ arrives t) ∧
      ((Mgmt.parse k.data).type = 8 → ∃ t : State, exec (.host p) s = .next t ∧ arrives t)) ∧
    (k.kind = 5 → (Mgmt.parse k.data).type = 2 → s.lat.numbered = false →
      let b := fun (i : Nat) => leAt (Mgmt.parse k.data).body i 1
      b 0 < 16 → b 1 < 16 → b 2 < 16 → 1 ≤ b 3 → b 3 ≤ 16 → b 4 ≤ 4 →
      ∃ t : State, exec (.setChip p) s = .next t ∧ (t.port p).inbox = rest ∧ t.lat.numbered = true ∧ t.lat.chip = BitVec.ofNat 4 (b 0) ∧
        t.lat.fmChip = BitVec.ofNat 4 (b 1) ∧ t.lat.timeMaster = BitVec.ofNat 4 (b 2) ∧ t.lat.countM1 = BitVec.ofNat 4 (b 3 - 1) ∧
        t.lat.topo = BitVec.ofNat 3 (b 4) ∧ t.lat.routes = s.lat.routes) ∧
    (k.kind = 5 → (Mgmt.parse k.data).type = 3 → (Mgmt.parse k.data).src = s.lat.fmChip.toNat →
      ∃ t : State, exec (.setRoute p) s = .next t ∧ (t.port p).inbox = rest ∧
        ∀ c : Nat, c < 16 → SMap.get 0x7777 t.lat.routes c =
          (if bit (leAt (Mgmt.parse k.data).body 0 2) c then BitVec.ofNat 16 (leAt (Mgmt.parse k.data).body (2 + 2 * c) 2)
           else SMap.get 0x7777 s.lat.routes c)) ∧
    (k.kind = 5 → (Mgmt.parse k.data).type = 16 → s.followsPort p = true → s.img.time.source = 4 →
      exec (.time p) s = .next ((s.updPort p (fun x => { x with inbox := rest })).offsetMeasurement (s.port p).timeOffset)))

/-- O59, tier 2 (R63, R448, R453, R492, R493, R496, R497, R500, R503, R504, R507, R508). PRG_POR_N_RELEASE with Pregus
firmware that verifies starts the time base at 0 and the power-up at die 0, and with TEST_EN_N low enters test mode; a
low of 800 ns changes nothing and one of 1,200 ns resets the package but for what R416 keeps. PGOOD_RISE accepts a die's
power, lets its Lattice port train and lets the start-up go on to the next die; PGOOD_TIMEOUT and PGOOD_FALL leave the
die without power and SUSPECT with cause 206. THERMAL_SAMPLE keeps the readings and forms TJ_MAX, BAD3 and the derated
F_NOM; THERMAL_TRIP drives THERMTRIP_N and takes the die's power. OVER_LOG writes its entry when a second has passed.
SSC_OFF_WRITE waits for MODULATION_MINIMUM, which takes its values; PWR_IOCFG waits for the end of an active pulse; the
test port takes an accepted instruction and ignores any other. -/
def Obligations.PowerAndPins : Prop :=
  (∀ (s : State) (bistOk : Bool) (ds : List (Nat × List Nat)), s.boot = .held → s.thermTrip = false →
    (∃ t : State, exec (.prgPorNRelease true bistOk ds) s = .next t ∧ t.boot = .testMode ∧ t.sec.testMode = true) ∧
    (∀ f : Firmware, s.loadFirmware 1 s.upd.selPregus = .ok f → ∃ t : State, exec (.prgPorNRelease false bistOk ds) s = .next t ∧
      t.boot = .powering 0 ∧ (t.die 0).pwrEn = true ∧ t.upd.pregus = f ∧ t.fitted = ds ∧ t.bistOk = bistOk ∧ t.tanexReset = false ∧
      t.tb.now = 0 ∧ t.tb.incr = 0x200000000)) ∧
  (∀ (s : State) (ns : Nat), (ns ≤ 800 → exec (.prgPorNAssert ns) s = .next s) ∧
    (1200 ≤ ns → ∃ t : State, exec (.prgPorNAssert ns) s = .next t ∧ t.boot = .held ∧ t.mem = [] ∧ t.image = none ∧ t.saf = State.reset.saf ∧
      t.flash = s.flash ∧ t.ash.ring = s.ash.ring ∧ t.ash.head = s.ash.head ∧ t.sec.keys = s.sec.keys ∧ t.pending = s.pending)) ∧
  (∀ (s : State) (d : Nat), d < 4 → (s.die d).pwrEn = true →
    ((s.die d).pgood = false → s.boot.awaits d = false → ∃ t : State, exec (.pgoodRise d) s = .next t ∧ (t.die d).pgood = true ∧
      (t.port d).state = (if (s.port d).state = 0 then 1 else (s.port d).state) ∧ (∀ e : Nat, e ≠ d → t.die e = s.die e) ∧ t = { s with dies := t.dies }) ∧
    ((s.die d).pgood = false → s.boot = .powering d → d < 3 → ∃ t : State, exec (.pgoodRise d) s = .next t ∧ (t.die d).pgood = true ∧
      t.boot = .powering (d + 1) ∧ (t.die (d + 1)).pwrEn = true) ∧
    ((s.die d).pgood = false → s.boot.awaits d = false → (s.die d).pwrAt + nsInst 2000000 ≤ s.mono →
      ∃ t : State, exec (.pgoodTimeout d) s = .next t ∧ (t.die d).pwrEn = false ∧ (t.die d).u.state = .suspect ∧ (t.die d).u.cause = 206) ∧
    ((s.die d).pgood = true → (s.die d).u.state = .inService → ∃ t : State, exec (.pgoodFall d) s = .next t ∧ (t.die d).pwrEn = false ∧
      (t.die d).pgood = false ∧ (t.die d).u.state = .suspect ∧ (t.die d).u.cause = 206) ∧
    ((s.die d).u.state = .inService → s.boot.awaits d = false → ∃ t : State, exec (.thermalTrip d) s = .next t ∧ t.thermTrip = true ∧
      (t.die d).tripOff = true ∧ (t.die d).pwrEn = false ∧ (t.die d).u.state = .suspect ∧ (t.die d).u.resetReq = false ∧
      (t.die d).trips = s.mono :: (s.die d).trips)) ∧
  (∀ (s : State) (d : Nat) (temps volts : List Int) (valid : List Bool), d < 4 → (s.die d).pgood = true → (s.die d).u.state ≠ .resetting →
    let m := sensors 24 temps volts valid
    let r := derate s.fMin (tjMaxOf m) (s.die d).fNom (s.die d).riseRun
    ∃ t : State, exec (.thermalSample d temps volts valid) s = .next t ∧ (t.die d).sens = m ∧ (t.die d).tjMax = BitVec.ofInt 11 (tjMaxOf m) ∧
      (t.die d).fNom = r.1 ∧ (t.die d).riseRun = r.2 ∧ (t.die d).overFlag = (r.1 == s.fMin && decide (500 < tjMaxOf m)) ∧
      (∀ e : Nat, e ≠ d → t.die e = s.die e) ∧ t = { s with dies := t.dies }) ∧
  (∀ (s : State) (d : Nat), d < 4 → (s.die d).overFlag = true → (∀ x : Instant, (s.die d).overAt = some x → x + nsInst (10 ^ 9) ≤ s.mono) →
    ∃ t : State, exec (.overLog d) s = .next t ∧ (t.die d).overAt = some s.mono ∧ t.ash.head = s.ash.head + 1 ∧
      t = { s with dies := t.dies, ash := t.ash }) ∧
  (∀ (s : State) (d : Nat) (w : Word), d < 4 → s.dieOpen d = true →
    ∃ t : State, exec (.sscOffWrite d w) s = .next t ∧ (t.die d).clkMod = (s.die d).clkMod ∧ (t.die d).sscOff = (s.die d).sscOff ∧
      (fld w.toNat 2 1 ≠ 3 → (bit w.toNat 0 = false ∨ s.vehicleLoaded = false) →
        (t.die d).clkPending = some (BitVec.ofNat 2 (fld w.toNat 2 1), bit w.toNat 0)) ∧
      (fld w.toNat 2 1 = 3 ∨ (bit w.toNat 0 = true ∧ s.vehicleLoaded = true) → (t.die d).clkWerr = true)) ∧
  (∀ (s : State) (d : Nat) (p : BitVec 2 × Bool), (s.die d).clkPending = some p →
    exec (.modulationMinimum d) s = .next (s.updDie d (fun x => { x with clkMod := p.1, sscOff := p.2, clkPending := none }))) ∧
  (∀ (s : State) (n : Nat) (w : Word), n < 12 →
    (s.trigActive n = false → exec (.pwrIocfgWrite n w) s = .next (s.updTb (fun tb => { tb with
      iocfg := SMap.set 0x5 tb.iocfg n (BitVec.ofNat 32 (w.toNat % 16)) }))) ∧
    (s.trigActive n = true → exec (.pwrIocfgWrite n w) s = .next (s.updTb (fun tb => { tb with
      iocfgHeld := SMap.set none tb.iocfgHeld n (some (BitVec.ofNat 32 (w.toNat % 16))) })))) ∧
  (∀ (s : State) (op : JtagOp), (jtagAccepted s.sec.testMode op = true → exec (.jtagInstruction op) s = .next (s.updSec (fun x => { x with jtag := op }))) ∧
    (jtagAccepted s.sec.testMode op = false → exec (.jtagInstruction op) s = .next s))

/-- O60, tier 2 (INVENTORY.md Faults, R9, R58, R63, R437). Every command, with any operands and in any state, answers a next
state: what it is refused or fails with is a status, an event or a dropped access of that state. The 115 commands that
store nothing leave every byte of memory as it was, in every state; and the active image is another, or none, only after
the end of the start-up, the assertion of PRG_POR_N, a thermal trip or the effective instant of a transaction. -/
def Obligations.EveryCommandAnswers : Prop :=
  (∀ (i : Instr) (s : State), ∃ t : State, exec i s = .next t) ∧
  (∀ (i : Instr) (s t : State), i.storesNothing = true → exec i s = .next t → t.mem = s.mem) ∧
  (∀ (i : Instr) (s t : State), i.mayActivate = false → exec i s = .next t → t.image = s.image)
end

