-- ==== Sys2Proof/Laws/SMap.lean ====
section
/-! SUPPORT. Sparse maps: a read after a write, and the canonical form of every write. -/

namespace Sys2Proof.Machine

@[simp] theorem SMap.get_nil {α : Type} (d : α) (k : Nat) : SMap.get d [] k = d := rfl

theorem SMap.get_dropWhile_le {α : Type} (d : α) (t : SMap α) (k p : Nat) (h : k < p) :
    SMap.get d (t.dropWhile (fun e => decide (e.1 ≤ k))) p = SMap.get d t p := by
  induction t with
  | nil => rfl
  | cons e t ih =>
    obtain ⟨k', v⟩ := e
    by_cases hk : k' ≤ k
    · have h1 : ¬ p < k' := by omega
      have h2 : ¬ p = k' := by omega
      simp [List.dropWhile, hk, SMap.get, h1, h2, ih]
    · simp [List.dropWhile, hk]

theorem SMap.get_dropWhile_self {α : Type} (d : α) (t : SMap α) (k : Nat) :
    SMap.get d (t.dropWhile (fun e => decide (e.1 ≤ k))) k = d := by
  induction t with
  | nil => rfl
  | cons e t ih =>
    obtain ⟨k', v⟩ := e
    by_cases hk : k' ≤ k
    · simp [List.dropWhile, hk, ih]
    · have h1 : k < k' := by omega
      simp [List.dropWhile, hk, SMap.get, h1]

theorem SMap.get_consCell_self {α : Type} [DecidableEq α] (d : α) (k : Nat) (v : α) (m : SMap α) (h : SMap.get d m k = d) :
    SMap.get d (SMap.consCell d k v m) k = v := by
  unfold SMap.consCell
  split
  · next hv => rw [h, hv]
  · simp [SMap.get]

theorem SMap.get_consCell_lt {α : Type} [DecidableEq α] (d : α) (k p : Nat) (v : α) (m : SMap α) (h : k < p) :
    SMap.get d (SMap.consCell d k v m) p = SMap.get d m p := by
  unfold SMap.consCell
  split
  · rfl
  · have h1 : ¬ p < k := by omega
    have h2 : ¬ p = k := by omega
    simp [SMap.get, h1, h2]

theorem SMap.get_consCell_gt {α : Type} [DecidableEq α] (d : α) (k p : Nat) (v : α) (m : SMap α) (h : p < k)
    (hm : SMap.get d m p = d) : SMap.get d (SMap.consCell d k v m) p = d := by
  unfold SMap.consCell
  split
  · exact hm
  · simp [SMap.get, h]

/-- A read of the key just written gives the value written. -/
@[simp] theorem SMap.get_set_self {α : Type} [DecidableEq α] (d : α) (m : SMap α) (k : Nat) (v : α) :
    SMap.get d (SMap.set d m k v) k = v := by
  induction m with
  | nil => exact SMap.get_consCell_self d k v [] rfl
  | cons e t ih =>
    obtain ⟨k', v'⟩ := e
    unfold SMap.set
    split
    · next h => exact SMap.get_consCell_self d k v _ (by simp [SMap.get, h])
    · split
      · exact SMap.get_consCell_self d k v _ (SMap.get_dropWhile_self d t k)
      · next h1 h2 => simp [SMap.get, h1, h2, ih]

/-- A read of another key gives what it gave before. -/
theorem SMap.get_set_ne {α : Type} [DecidableEq α] (d : α) (m : SMap α) (k p : Nat) (v : α) (h : p ≠ k) :
    SMap.get d (SMap.set d m k v) p = SMap.get d m p := by
  induction m with
  | nil =>
    by_cases hp : k < p
    · exact SMap.get_consCell_lt d k p v [] hp
    · exact SMap.get_consCell_gt d k p v [] (by omega) rfl
  | cons e t ih =>
    obtain ⟨k', v'⟩ := e
    unfold SMap.set
    split
    · next hk =>
      by_cases hp : k < p
      · exact SMap.get_consCell_lt d k p v _ hp
      · have h1 : p < k' := by omega
        rw [SMap.get_consCell_gt d k p v _ (by omega) (by simp [SMap.get, h1])]
        simp [SMap.get, h1]
    · split
      · next hk hk' =>
        subst hk'
        by_cases hp : k < p
        · have h1 : ¬ p < k := by omega
          rw [SMap.get_consCell_lt d k p v _ hp, SMap.get_dropWhile_le d t k p hp]
          simp [SMap.get, h1, h]
        · have h1 : p < k := by omega
          unfold SMap.consCell
          split
          · have : ∀ l : SMap α, SMap.get d (l.dropWhile (fun e => decide (e.1 ≤ k))) p = d := by
              intro l
              induction l with
              | nil => rfl
              | cons e l ihl =>
                obtain ⟨k2, v2⟩ := e
                by_cases h2 : k2 ≤ k
                · simp [List.dropWhile, h2, ihl]
                · have h3 : p < k2 := by omega
                  simp [List.dropWhile, h2, SMap.get, h3]
            rw [this]; simp [SMap.get, h1]
          · simp [SMap.get, h1]
      · next h1 h2 => simp [SMap.get, ih]

theorem SMap.get_set {α : Type} [DecidableEq α] (d : α) (m : SMap α) (k p : Nat) (v : α) :
    SMap.get d (SMap.set d m k v) p = if p = k then v else SMap.get d m p := by
  split
  · next h => subst h; simp
  · next h => exact SMap.get_set_ne d m k p v h

@[simp] theorem SMap.get_update_self {α : Type} [DecidableEq α] (d : α) (m : SMap α) (k : Nat) (f : α → α) :
    SMap.get d (SMap.update d m k f) k = f (SMap.get d m k) := by simp [SMap.update]

theorem SMap.get_update {α : Type} [DecidableEq α] (d : α) (m : SMap α) (k p : Nat) (f : α → α) :
    SMap.get d (SMap.update d m k f) p = if p = k then f (SMap.get d m k) else SMap.get d m p := SMap.get_set d m k p _

theorem SMap.get_update_ne {α : Type} [DecidableEq α] (d : α) (m : SMap α) (k p : Nat) (f : α → α) (h : p ≠ k) :
    SMap.get d (SMap.update d m k f) p = SMap.get d m p := SMap.get_set_ne d m k p _ h

/-- A bound below which no key of a canonical map lies may be lowered. -/
theorem SMap.wfFrom_weaken {α : Type} [DecidableEq α] (d : α) (m : SMap α) (lo lo' : Option Nat)
    (hlo : ∀ x, lo' = some x → ∃ y, lo = some y ∧ x ≤ y) (h : SMap.wfFrom d lo m = true) : SMap.wfFrom d lo' m = true := by
  cases m with
  | nil => rfl
  | cons e t =>
    obtain ⟨k, v⟩ := e
    simp only [SMap.wfFrom, Bool.and_eq_true] at h ⊢
    refine ⟨⟨?_, h.1.2⟩, h.2⟩
    cases lo' with
    | none => rfl
    | some x =>
      obtain ⟨y, hy, hxy⟩ := hlo x rfl
      subst hy
      simp only [decide_eq_true_eq] at h ⊢
      omega

theorem SMap.dropWhile_le_of_wf {α : Type} [DecidableEq α] (d : α) (t : SMap α) (k : Nat)
    (h : SMap.wfFrom d (some k) t = true) : t.dropWhile (fun e => decide (e.1 ≤ k)) = t := by
  cases t with
  | nil => rfl
  | cons e t =>
    obtain ⟨k', v⟩ := e
    simp only [SMap.wfFrom, Bool.and_eq_true, decide_eq_true_eq] at h
    have h1 : ¬ k' ≤ k := by omega
    simp [List.dropWhile, h1]

theorem SMap.wfFrom_consCell {α : Type} [DecidableEq α] (d : α) (lo : Option Nat) (k : Nat) (v : α) (m : SMap α)
    (hlo : ∀ x, lo = some x → x < k) (h : SMap.wfFrom d (some k) m = true) :
    SMap.wfFrom d lo (SMap.consCell d k v m) = true := by
  unfold SMap.consCell
  split
  · exact SMap.wfFrom_weaken d m (some k) lo (fun x hx => ⟨k, rfl, Nat.le_of_lt (hlo x hx)⟩) h
  · next hv =>
    simp only [SMap.wfFrom, Bool.and_eq_true]
    refine ⟨⟨?_, by simpa using hv⟩, h⟩
    cases lo with
    | none => rfl
    | some x => simpa using hlo x rfl

theorem SMap.wfFrom_set {α : Type} [DecidableEq α] (d : α) (m : SMap α) (lo : Option Nat) (k : Nat) (v : α)
    (hlo : ∀ x, lo = some x → x < k) (h : SMap.wfFrom d lo m = true) : SMap.wfFrom d lo (SMap.set d m k v) = true := by
  induction m generalizing lo with
  | nil => exact SMap.wfFrom_consCell d lo k v [] hlo rfl
  | cons e t ih =>
    obtain ⟨k', v'⟩ := e
    have h' := h
    simp only [SMap.wfFrom, Bool.and_eq_true] at h
    unfold SMap.set
    split
    · next hk =>
      refine SMap.wfFrom_consCell d lo k v _ hlo ?_
      simp only [SMap.wfFrom, Bool.and_eq_true]
      exact ⟨⟨by simpa using hk, h.1.2⟩, h.2⟩
    · split
      · next hk hk' =>
        subst hk'
        rw [SMap.dropWhile_le_of_wf d t k h.2]
        exact SMap.wfFrom_consCell d lo k v t hlo h.2
      · next hk hk' =>
        simp only [SMap.wfFrom, Bool.and_eq_true]
        refine ⟨h.1, ih (some k') ?_ h.2⟩
        intro x hx
        cases hx
        omega

/-- A write keeps the canonical form. -/
theorem SMap.wf_set {α : Type} [DecidableEq α] (d : α) (m : SMap α) (k : Nat) (v : α) (h : SMap.wf d m = true) :
    SMap.wf d (SMap.set d m k v) = true := SMap.wfFrom_set d m none k v (fun _ hx => by cases hx) h

theorem SMap.wfFrom_filter {α : Type} [DecidableEq α] (d : α) (m : SMap α) (lo : Option Nat) (p : Nat × α → Bool)
    (h : SMap.wfFrom d lo m = true) : SMap.wfFrom d lo (m.filter p) = true := by
  induction m generalizing lo with
  | nil => rfl
  | cons e t ih =>
    obtain ⟨k, v⟩ := e
    simp only [SMap.wfFrom, Bool.and_eq_true] at h
    simp only [List.filter]
    split
    · simp only [SMap.wfFrom, Bool.and_eq_true]
      exact ⟨h.1, ih (some k) h.2⟩
    · refine ih lo (SMap.wfFrom_weaken d t (some k) lo ?_ h.2)
      intro x hx
      subst hx
      exact ⟨k, rfl, by simpa using Nat.le_of_lt (by simpa using h.1.1)⟩

/-- Taking entries out keeps the canonical form. -/
theorem SMap.wf_filter {α : Type} [DecidableEq α] (d : α) (m : SMap α) (p : Nat × α → Bool) (h : SMap.wf d m = true) :
    SMap.wf d (m.filter p) = true := SMap.wfFrom_filter d m none p h

/-- A map with no entry is canonical. -/
@[simp] theorem SMap.wf_nil {α : Type} [DecidableEq α] (d : α) : SMap.wf d ([] : SMap α) = true := rfl

end Sys2Proof.Machine
end

