-- ==== Sys2Proof/Laws/State.lean ====
section
/-! SUPPORT. The fields of the State after each named update: an update of one part leaves every other field as it is, and the
accessor of the part reads what was written. -/

namespace Sys2Proof.Machine

/-! ### updTile -/

@[simp] theorem State.updTile_pending (s : State) (t : Nat) (f : TileSt → TileSt) : (s.updTile t f).pending = s.pending := (rfl)
@[simp] theorem State.updTile_part (s : State) (t : Nat) (f : TileSt → TileSt) : (s.updTile t f).part = s.part := (rfl)
@[simp] theorem State.updTile_stepping (s : State) (t : Nat) (f : TileSt → TileSt) : (s.updTile t f).stepping = s.stepping := (rfl)
@[simp] theorem State.updTile_fitted (s : State) (t : Nat) (f : TileSt → TileSt) : (s.updTile t f).fitted = s.fitted := (rfl)
@[simp] theorem State.updTile_dramRate (s : State) (t : Nat) (f : TileSt → TileSt) : (s.updTile t f).dramRate = s.dramRate := (rfl)
@[simp] theorem State.updTile_bistOk (s : State) (t : Nat) (f : TileSt → TileSt) : (s.updTile t f).bistOk = s.bistOk := (rfl)
@[simp] theorem State.updTile_tanexReset (s : State) (t : Nat) (f : TileSt → TileSt) : (s.updTile t f).tanexReset = s.tanexReset := (rfl)
@[simp] theorem State.updTile_thermTrip (s : State) (t : Nat) (f : TileSt → TileSt) : (s.updTile t f).thermTrip = s.thermTrip := (rfl)
@[simp] theorem State.updTile_prgSens (s : State) (t : Nat) (f : TileSt → TileSt) : (s.updTile t f).prgSens = s.prgSens := (rfl)
@[simp] theorem State.updTile_boot (s : State) (t : Nat) (f : TileSt → TileSt) : (s.updTile t f).boot = s.boot := (rfl)
@[simp] theorem State.updTile_mem (s : State) (t : Nat) (f : TileSt → TileSt) : (s.updTile t f).mem = s.mem := (rfl)
@[simp] theorem State.updTile_flips (s : State) (t : Nat) (f : TileSt → TileSt) : (s.updTile t f).flips = s.flips := (rfl)
@[simp] theorem State.updTile_peatDirty (s : State) (t : Nat) (f : TileSt → TileSt) : (s.updTile t f).peatDirty = s.peatDirty := (rfl)
@[simp] theorem State.updTile_dramDirty (s : State) (t : Nat) (f : TileSt → TileSt) : (s.updTile t f).dramDirty = s.dramDirty := (rfl)
@[simp] theorem State.updTile_scrubPos (s : State) (t : Nat) (f : TileSt → TileSt) : (s.updTile t f).scrubPos = s.scrubPos := (rfl)
@[simp] theorem State.updTile_scrubPass (s : State) (t : Nat) (f : TileSt → TileSt) : (s.updTile t f).scrubPass = s.scrubPass := (rfl)
@[simp] theorem State.updTile_scrubStart (s : State) (t : Nat) (f : TileSt → TileSt) : (s.updTile t f).scrubStart = s.scrubStart := (rfl)
@[simp] theorem State.updTile_scrubFrom (s : State) (t : Nat) (f : TileSt → TileSt) : (s.updTile t f).scrubFrom = s.scrubFrom := (rfl)
@[simp] theorem State.updTile_rowsHit (s : State) (t : Nat) (f : TileSt → TileSt) : (s.updTile t f).rowsHit = s.rowsHit := (rfl)
@[simp] theorem State.updTile_bankCe (s : State) (t : Nat) (f : TileSt → TileSt) : (s.updTile t f).bankCe = s.bankCe := (rfl)
@[simp] theorem State.updTile_rowTests (s : State) (t : Nat) (f : TileSt → TileSt) : (s.updTile t f).rowTests = s.rowTests := (rfl)
@[simp] theorem State.updTile_pprDone (s : State) (t : Nat) (f : TileSt → TileSt) : (s.updTile t f).pprDone = s.pprDone := (rfl)
@[simp] theorem State.updTile_flash (s : State) (t : Nat) (f : TileSt → TileSt) : (s.updTile t f).flash = s.flash := (rfl)
@[simp] theorem State.updTile_queues (s : State) (t : Nat) (f : TileSt → TileSt) : (s.updTile t f).queues = s.queues := (rfl)
@[simp] theorem State.updTile_clusters (s : State) (t : Nat) (f : TileSt → TileSt) : (s.updTile t f).clusters = s.clusters := (rfl)
@[simp] theorem State.updTile_cluUnits (s : State) (t : Nat) (f : TileSt → TileSt) : (s.updTile t f).cluUnits = s.cluUnits := (rfl)
@[simp] theorem State.updTile_regions (s : State) (t : Nat) (f : TileSt → TileSt) : (s.updTile t f).regions = s.regions := (rfl)
@[simp] theorem State.updTile_rgnUnits (s : State) (t : Nat) (f : TileSt → TileSt) : (s.updTile t f).rgnUnits = s.rgnUnits := (rfl)
@[simp] theorem State.updTile_repair (s : State) (t : Nat) (f : TileSt → TileSt) : (s.updTile t f).repair = s.repair := (rfl)
@[simp] theorem State.updTile_slots (s : State) (t : Nat) (f : TileSt → TileSt) : (s.updTile t f).slots = s.slots := (rfl)
@[simp] theorem State.updTile_chans (s : State) (t : Nat) (f : TileSt → TileSt) : (s.updTile t f).chans = s.chans := (rfl)
@[simp] theorem State.updTile_dies (s : State) (t : Nat) (f : TileSt → TileSt) : (s.updTile t f).dies = s.dies := (rfl)
@[simp] theorem State.updTile_cams (s : State) (t : Nat) (f : TileSt → TileSt) : (s.updTile t f).cams = s.cams := (rfl)
@[simp] theorem State.updTile_pipes (s : State) (t : Nat) (f : TileSt → TileSt) : (s.updTile t f).pipes = s.pipes := (rfl)
@[simp] theorem State.updTile_fctx (s : State) (t : Nat) (f : TileSt → TileSt) : (s.updTile t f).fctx = s.fctx := (rfl)
@[simp] theorem State.updTile_range (s : State) (t : Nat) (f : TileSt → TileSt) : (s.updTile t f).range = s.range := (rfl)
@[simp] theorem State.updTile_hp (s : State) (t : Nat) (f : TileSt → TileSt) : (s.updTile t f).hp = s.hp := (rfl)
@[simp] theorem State.updTile_tb (s : State) (t : Nat) (f : TileSt → TileSt) : (s.updTile t f).tb = s.tb := (rfl)
@[simp] theorem State.updTile_beat (s : State) (t : Nat) (f : TileSt → TileSt) : (s.updTile t f).beat = s.beat := (rfl)
@[simp] theorem State.updTile_saf (s : State) (t : Nat) (f : TileSt → TileSt) : (s.updTile t f).saf = s.saf := (rfl)
@[simp] theorem State.updTile_ash (s : State) (t : Nat) (f : TileSt → TileSt) : (s.updTile t f).ash = s.ash := (rfl)
@[simp] theorem State.updTile_link (s : State) (t : Nat) (f : TileSt → TileSt) : (s.updTile t f).link = s.link := (rfl)
@[simp] theorem State.updTile_ctx (s : State) (t : Nat) (f : TileSt → TileSt) : (s.updTile t f).ctx = s.ctx := (rfl)
@[simp] theorem State.updTile_upd (s : State) (t : Nat) (f : TileSt → TileSt) : (s.updTile t f).upd = s.upd := (rfl)
@[simp] theorem State.updTile_sec (s : State) (t : Nat) (f : TileSt → TileSt) : (s.updTile t f).sec = s.sec := (rfl)
@[simp] theorem State.updTile_lat (s : State) (t : Nat) (f : TileSt → TileSt) : (s.updTile t f).lat = s.lat := (rfl)
@[simp] theorem State.updTile_cvu (s : State) (t : Nat) (f : TileSt → TileSt) : (s.updTile t f).cvu = s.cvu := (rfl)
@[simp] theorem State.updTile_image (s : State) (t : Nat) (f : TileSt → TileSt) : (s.updTile t f).image = s.image := (rfl)
@[simp] theorem State.updTile_suspects (s : State) (t : Nat) (f : TileSt → TileSt) : (s.updTile t f).suspects = s.suspects := (rfl)
@[simp] theorem State.updTile_starts (s : State) (t : Nat) (f : TileSt → TileSt) : (s.updTile t f).starts = s.starts := (rfl)
@[simp] theorem State.updTile_draws (s : State) (t : Nat) (f : TileSt → TileSt) : (s.updTile t f).draws = s.draws := (rfl)
@[simp] theorem State.updTile_tile_self (s : State) (t : Nat) (f : TileSt → TileSt) : (s.updTile t f).tile t = f (s.tile t) := SMap.get_update_self _ _ _ _
theorem State.updTile_tile_ne (s : State) (t : Nat) (f : TileSt → TileSt) (k : Nat) (h : k ≠ t) : (s.updTile t f).tile k = s.tile k := SMap.get_update_ne _ _ _ _ _ h
theorem State.updTile_tile (s : State) (t : Nat) (f : TileSt → TileSt) (k : Nat) : (s.updTile t f).tile k = if k = t then f (s.tile t) else s.tile k := SMap.get_update _ _ _ _ _
@[simp] theorem State.updTile_queue (s : State) (t : Nat) (f : TileSt → TileSt) (y : Nat) : (s.updTile t f).queue y = s.queue y := (rfl)
@[simp] theorem State.updTile_cluster (s : State) (t : Nat) (f : TileSt → TileSt) (y : Nat) : (s.updTile t f).cluster y = s.cluster y := (rfl)
@[simp] theorem State.updTile_cluUnit (s : State) (t : Nat) (f : TileSt → TileSt) (y : Nat) : (s.updTile t f).cluUnit y = s.cluUnit y := (rfl)
@[simp] theorem State.updTile_region (s : State) (t : Nat) (f : TileSt → TileSt) (y : Nat) : (s.updTile t f).region y = s.region y := (rfl)
@[simp] theorem State.updTile_rgnUnit (s : State) (t : Nat) (f : TileSt → TileSt) (y : Nat) : (s.updTile t f).rgnUnit y = s.rgnUnit y := (rfl)
@[simp] theorem State.updTile_slot (s : State) (t : Nat) (f : TileSt → TileSt) (y : Nat) : (s.updTile t f).slot y = s.slot y := (rfl)
@[simp] theorem State.updTile_chan (s : State) (t : Nat) (f : TileSt → TileSt) (y : Nat) : (s.updTile t f).chan y = s.chan y := (rfl)
@[simp] theorem State.updTile_die (s : State) (t : Nat) (f : TileSt → TileSt) (y : Nat) : (s.updTile t f).die y = s.die y := (rfl)
@[simp] theorem State.updTile_cam (s : State) (t : Nat) (f : TileSt → TileSt) (y : Nat) : (s.updTile t f).cam y = s.cam y := (rfl)
@[simp] theorem State.updTile_pipe (s : State) (t : Nat) (f : TileSt → TileSt) (y : Nat) : (s.updTile t f).pipe y = s.pipe y := (rfl)
@[simp] theorem State.updTile_facet (s : State) (t : Nat) (f : TileSt → TileSt) (y : Nat) : (s.updTile t f).facet y = s.facet y := (rfl)
@[simp] theorem State.updTile_mac (s : State) (t : Nat) (f : TileSt → TileSt) (y : Nat) : (s.updTile t f).mac y = s.mac y := (rfl)
@[simp] theorem State.updTile_hpath (s : State) (t : Nat) (f : TileSt → TileSt) (y : Nat) : (s.updTile t f).hpath y = s.hpath y := (rfl)
@[simp] theorem State.updTile_img (s : State) (t : Nat) (f : TileSt → TileSt) : (s.updTile t f).img = s.img := (rfl)
@[simp] theorem State.updTile_mode (s : State) (t : Nat) (f : TileSt → TileSt) : (s.updTile t f).mode = s.mode := (rfl)
@[simp] theorem State.updTile_isBench (s : State) (t : Nat) (f : TileSt → TileSt) : (s.updTile t f).isBench = s.isBench := (rfl)
@[simp] theorem State.updTile_compares (s : State) (t : Nat) (f : TileSt → TileSt) : (s.updTile t f).compares = s.compares := (rfl)
@[simp] theorem State.updTile_isReplay (s : State) (t : Nat) (f : TileSt → TileSt) : (s.updTile t f).isReplay = s.isReplay := (rfl)
@[simp] theorem State.updTile_alloc (s : State) (t : Nat) (f : TileSt → TileSt) (y : Nat) : (s.updTile t f).alloc y = s.alloc y := (rfl)
@[simp] theorem State.updTile_role (s : State) (t : Nat) (f : TileSt → TileSt) (y : Nat) : (s.updTile t f).role y = s.role y := (rfl)
@[simp] theorem State.updTile_schedule (s : State) (t : Nat) (f : TileSt → TileSt) : (s.updTile t f).schedule = s.schedule := (rfl)
@[simp] theorem State.updTile_commitTile (s : State) (t : Nat) (f : TileSt → TileSt) : (s.updTile t f).commitTile = s.commitTile := (rfl)
@[simp] theorem State.updTile_now (s : State) (t : Nat) (f : TileSt → TileSt) : (s.updTile t f).now = s.now := (rfl)
@[simp] theorem State.updTile_mono (s : State) (t : Nat) (f : TileSt → TileSt) : (s.updTile t f).mono = s.mono := (rfl)
@[simp] theorem State.updTile_stampAt (s : State) (t : Nat) (f : TileSt → TileSt) (x : Instant) : (s.updTile t f).stampAt x = s.stampAt x := (rfl)
@[simp] theorem State.updTile_stamp (s : State) (t : Nat) (f : TileSt → TileSt) : (s.updTile t f).stamp = s.stamp := (rfl)
@[simp] theorem State.updTile_dieNow (s : State) (t : Nat) (f : TileSt → TileSt) (y : Nat) : (s.updTile t f).dieNow y = s.dieNow y := (rfl)
@[simp] theorem State.updTile_dieStamp (s : State) (t : Nat) (f : TileSt → TileSt) (y : Nat) : (s.updTile t f).dieStamp y = s.dieStamp y := (rfl)
@[simp] theorem State.updTile_frameNs (s : State) (t : Nat) (f : TileSt → TileSt) : (s.updTile t f).frameNs = s.frameNs := (rfl)
@[simp] theorem State.updTile_beatNs (s : State) (t : Nat) (f : TileSt → TileSt) : (s.updTile t f).beatNs = s.beatNs := (rfl)
@[simp] theorem State.updTile_started (s : State) (t : Nat) (f : TileSt → TileSt) : (s.updTile t f).started = s.started := (rfl)
@[simp] theorem State.updTile_t0 (s : State) (t : Nat) (f : TileSt → TileSt) : (s.updTile t f).t0 = s.t0 := (rfl)
@[simp] theorem State.updTile_firstBeat (s : State) (t : Nat) (f : TileSt → TileSt) (y : Nat) : (s.updTile t f).firstBeat y = s.firstBeat y := (rfl)
@[simp] theorem State.updTile_frameOfBeat (s : State) (t : Nat) (f : TileSt → TileSt) (y : Nat) : (s.updTile t f).frameOfBeat y = s.frameOfBeat y := (rfl)
@[simp] theorem State.updTile_beatStart (s : State) (t : Nat) (f : TileSt → TileSt) (y : Nat) : (s.updTile t f).beatStart y = s.beatStart y := (rfl)
@[simp] theorem State.updTile_frameStart (s : State) (t : Nat) (f : TileSt → TileSt) (y : Nat) : (s.updTile t f).frameStart y = s.frameStart y := (rfl)
@[simp] theorem State.updTile_isBoundary (s : State) (t : Nat) (f : TileSt → TileSt) (y : Nat) : (s.updTile t f).isBoundary y = s.isBoundary y := (rfl)
@[simp] theorem State.updTile_frameAt (s : State) (t : Nat) (f : TileSt → TileSt) (x : Instant) : (s.updTile t f).frameAt x = s.frameAt x := (rfl)
@[simp] theorem State.updTile_txnDue (s : State) (t : Nat) (f : TileSt → TileSt) : (s.updTile t f).txnDue = s.txnDue := (rfl)
@[simp] theorem State.updTile_chip (s : State) (t : Nat) (f : TileSt → TileSt) : (s.updTile t f).chip = s.chip := (rfl)
@[simp] theorem State.updTile_port (s : State) (t : Nat) (f : TileSt → TileSt) (y : Nat) : (s.updTile t f).port y = s.port y := (rfl)

/-! ### updQueue -/

@[simp] theorem State.updQueue_pending (s : State) (q : Nat) (f : QueueSt → QueueSt) : (s.updQueue q f).pending = s.pending := (rfl)
@[simp] theorem State.updQueue_part (s : State) (q : Nat) (f : QueueSt → QueueSt) : (s.updQueue q f).part = s.part := (rfl)
@[simp] theorem State.updQueue_stepping (s : State) (q : Nat) (f : QueueSt → QueueSt) : (s.updQueue q f).stepping = s.stepping := (rfl)
@[simp] theorem State.updQueue_fitted (s : State) (q : Nat) (f : QueueSt → QueueSt) : (s.updQueue q f).fitted = s.fitted := (rfl)
@[simp] theorem State.updQueue_dramRate (s : State) (q : Nat) (f : QueueSt → QueueSt) : (s.updQueue q f).dramRate = s.dramRate := (rfl)
@[simp] theorem State.updQueue_bistOk (s : State) (q : Nat) (f : QueueSt → QueueSt) : (s.updQueue q f).bistOk = s.bistOk := (rfl)
@[simp] theorem State.updQueue_tanexReset (s : State) (q : Nat) (f : QueueSt → QueueSt) : (s.updQueue q f).tanexReset = s.tanexReset := (rfl)
@[simp] theorem State.updQueue_thermTrip (s : State) (q : Nat) (f : QueueSt → QueueSt) : (s.updQueue q f).thermTrip = s.thermTrip := (rfl)
@[simp] theorem State.updQueue_prgSens (s : State) (q : Nat) (f : QueueSt → QueueSt) : (s.updQueue q f).prgSens = s.prgSens := (rfl)
@[simp] theorem State.updQueue_boot (s : State) (q : Nat) (f : QueueSt → QueueSt) : (s.updQueue q f).boot = s.boot := (rfl)
@[simp] theorem State.updQueue_mem (s : State) (q : Nat) (f : QueueSt → QueueSt) : (s.updQueue q f).mem = s.mem := (rfl)
@[simp] theorem State.updQueue_flips (s : State) (q : Nat) (f : QueueSt → QueueSt) : (s.updQueue q f).flips = s.flips := (rfl)
@[simp] theorem State.updQueue_peatDirty (s : State) (q : Nat) (f : QueueSt → QueueSt) : (s.updQueue q f).peatDirty = s.peatDirty := (rfl)
@[simp] theorem State.updQueue_dramDirty (s : State) (q : Nat) (f : QueueSt → QueueSt) : (s.updQueue q f).dramDirty = s.dramDirty := (rfl)
@[simp] theorem State.updQueue_scrubPos (s : State) (q : Nat) (f : QueueSt → QueueSt) : (s.updQueue q f).scrubPos = s.scrubPos := (rfl)
@[simp] theorem State.updQueue_scrubPass (s : State) (q : Nat) (f : QueueSt → QueueSt) : (s.updQueue q f).scrubPass = s.scrubPass := (rfl)
@[simp] theorem State.updQueue_scrubStart (s : State) (q : Nat) (f : QueueSt → QueueSt) : (s.updQueue q f).scrubStart = s.scrubStart := (rfl)
@[simp] theorem State.updQueue_scrubFrom (s : State) (q : Nat) (f : QueueSt → QueueSt) : (s.updQueue q f).scrubFrom = s.scrubFrom := (rfl)
@[simp] theorem State.updQueue_rowsHit (s : State) (q : Nat) (f : QueueSt → QueueSt) : (s.updQueue q f).rowsHit = s.rowsHit := (rfl)
@[simp] theorem State.updQueue_bankCe (s : State) (q : Nat) (f : QueueSt → QueueSt) : (s.updQueue q f).bankCe = s.bankCe := (rfl)
@[simp] theorem State.updQueue_rowTests (s : State) (q : Nat) (f : QueueSt → QueueSt) : (s.updQueue q f).rowTests = s.rowTests := (rfl)
@[simp] theorem State.updQueue_pprDone (s : State) (q : Nat) (f : QueueSt → QueueSt) : (s.updQueue q f).pprDone = s.pprDone := (rfl)
@[simp] theorem State.updQueue_flash (s : State) (q : Nat) (f : QueueSt → QueueSt) : (s.updQueue q f).flash = s.flash := (rfl)
@[simp] theorem State.updQueue_tiles (s : State) (q : Nat) (f : QueueSt → QueueSt) : (s.updQueue q f).tiles = s.tiles := (rfl)
@[simp] theorem State.updQueue_clusters (s : State) (q : Nat) (f : QueueSt → QueueSt) : (s.updQueue q f).clusters = s.clusters := (rfl)
@[simp] theorem State.updQueue_cluUnits (s : State) (q : Nat) (f : QueueSt → QueueSt) : (s.updQueue q f).cluUnits = s.cluUnits := (rfl)
@[simp] theorem State.updQueue_regions (s : State) (q : Nat) (f : QueueSt → QueueSt) : (s.updQueue q f).regions = s.regions := (rfl)
@[simp] theorem State.updQueue_rgnUnits (s : State) (q : Nat) (f : QueueSt → QueueSt) : (s.updQueue q f).rgnUnits = s.rgnUnits := (rfl)
@[simp] theorem State.updQueue_repair (s : State) (q : Nat) (f : QueueSt → QueueSt) : (s.updQueue q f).repair = s.repair := (rfl)
@[simp] theorem State.updQueue_slots (s : State) (q : Nat) (f : QueueSt → QueueSt) : (s.updQueue q f).slots = s.slots := (rfl)
@[simp] theorem State.updQueue_chans (s : State) (q : Nat) (f : QueueSt → QueueSt) : (s.updQueue q f).chans = s.chans := (rfl)
@[simp] theorem State.updQueue_dies (s : State) (q : Nat) (f : QueueSt → QueueSt) : (s.updQueue q f).dies = s.dies := (rfl)
@[simp] theorem State.updQueue_cams (s : State) (q : Nat) (f : QueueSt → QueueSt) : (s.updQueue q f).cams = s.cams := (rfl)
@[simp] theorem State.updQueue_pipes (s : State) (q : Nat) (f : QueueSt → QueueSt) : (s.updQueue q f).pipes = s.pipes := (rfl)
@[simp] theorem State.updQueue_fctx (s : State) (q : Nat) (f : QueueSt → QueueSt) : (s.updQueue q f).fctx = s.fctx := (rfl)
@[simp] theorem State.updQueue_range (s : State) (q : Nat) (f : QueueSt → QueueSt) : (s.updQueue q f).range = s.range := (rfl)
@[simp] theorem State.updQueue_hp (s : State) (q : Nat) (f : QueueSt → QueueSt) : (s.updQueue q f).hp = s.hp := (rfl)
@[simp] theorem State.updQueue_tb (s : State) (q : Nat) (f : QueueSt → QueueSt) : (s.updQueue q f).tb = s.tb := (rfl)
@[simp] theorem State.updQueue_beat (s : State) (q : Nat) (f : QueueSt → QueueSt) : (s.updQueue q f).beat = s.beat := (rfl)
@[simp] theorem State.updQueue_saf (s : State) (q : Nat) (f : QueueSt → QueueSt) : (s.updQueue q f).saf = s.saf := (rfl)
@[simp] theorem State.updQueue_ash (s : State) (q : Nat) (f : QueueSt → QueueSt) : (s.updQueue q f).ash = s.ash := (rfl)
@[simp] theorem State.updQueue_link (s : State) (q : Nat) (f : QueueSt → QueueSt) : (s.updQueue q f).link = s.link := (rfl)
@[simp] theorem State.updQueue_ctx (s : State) (q : Nat) (f : QueueSt → QueueSt) : (s.updQueue q f).ctx = s.ctx := (rfl)
@[simp] theorem State.updQueue_upd (s : State) (q : Nat) (f : QueueSt → QueueSt) : (s.updQueue q f).upd = s.upd := (rfl)
@[simp] theorem State.updQueue_sec (s : State) (q : Nat) (f : QueueSt → QueueSt) : (s.updQueue q f).sec = s.sec := (rfl)
@[simp] theorem State.updQueue_lat (s : State) (q : Nat) (f : QueueSt → QueueSt) : (s.updQueue q f).lat = s.lat := (rfl)
@[simp] theorem State.updQueue_cvu (s : State) (q : Nat) (f : QueueSt → QueueSt) : (s.updQueue q f).cvu = s.cvu := (rfl)
@[simp] theorem State.updQueue_image (s : State) (q : Nat) (f : QueueSt → QueueSt) : (s.updQueue q f).image = s.image := (rfl)
@[simp] theorem State.updQueue_suspects (s : State) (q : Nat) (f : QueueSt → QueueSt) : (s.updQueue q f).suspects = s.suspects := (rfl)
@[simp] theorem State.updQueue_starts (s : State) (q : Nat) (f : QueueSt → QueueSt) : (s.updQueue q f).starts = s.starts := (rfl)
@[simp] theorem State.updQueue_draws (s : State) (q : Nat) (f : QueueSt → QueueSt) : (s.updQueue q f).draws = s.draws := (rfl)
@[simp] theorem State.updQueue_queue_self (s : State) (q : Nat) (f : QueueSt → QueueSt) : (s.updQueue q f).queue q = f (s.queue q) := SMap.get_update_self _ _ _ _
theorem State.updQueue_queue_ne (s : State) (q : Nat) (f : QueueSt → QueueSt) (k : Nat) (h : k ≠ q) : (s.updQueue q f).queue k = s.queue k := SMap.get_update_ne _ _ _ _ _ h
theorem State.updQueue_queue (s : State) (q : Nat) (f : QueueSt → QueueSt) (k : Nat) : (s.updQueue q f).queue k = if k = q then f (s.queue q) else s.queue k := SMap.get_update _ _ _ _ _
@[simp] theorem State.updQueue_tile (s : State) (q : Nat) (f : QueueSt → QueueSt) (y : Nat) : (s.updQueue q f).tile y = s.tile y := (rfl)
@[simp] theorem State.updQueue_cluster (s : State) (q : Nat) (f : QueueSt → QueueSt) (y : Nat) : (s.updQueue q f).cluster y = s.cluster y := (rfl)
@[simp] theorem State.updQueue_cluUnit (s : State) (q : Nat) (f : QueueSt → QueueSt) (y : Nat) : (s.updQueue q f).cluUnit y = s.cluUnit y := (rfl)
@[simp] theorem State.updQueue_region (s : State) (q : Nat) (f : QueueSt → QueueSt) (y : Nat) : (s.updQueue q f).region y = s.region y := (rfl)
@[simp] theorem State.updQueue_rgnUnit (s : State) (q : Nat) (f : QueueSt → QueueSt) (y : Nat) : (s.updQueue q f).rgnUnit y = s.rgnUnit y := (rfl)
@[simp] theorem State.updQueue_slot (s : State) (q : Nat) (f : QueueSt → QueueSt) (y : Nat) : (s.updQueue q f).slot y = s.slot y := (rfl)
@[simp] theorem State.updQueue_chan (s : State) (q : Nat) (f : QueueSt → QueueSt) (y : Nat) : (s.updQueue q f).chan y = s.chan y := (rfl)
@[simp] theorem State.updQueue_die (s : State) (q : Nat) (f : QueueSt → QueueSt) (y : Nat) : (s.updQueue q f).die y = s.die y := (rfl)
@[simp] theorem State.updQueue_cam (s : State) (q : Nat) (f : QueueSt → QueueSt) (y : Nat) : (s.updQueue q f).cam y = s.cam y := (rfl)
@[simp] theorem State.updQueue_pipe (s : State) (q : Nat) (f : QueueSt → QueueSt) (y : Nat) : (s.updQueue q f).pipe y = s.pipe y := (rfl)
@[simp] theorem State.updQueue_facet (s : State) (q : Nat) (f : QueueSt → QueueSt) (y : Nat) : (s.updQueue q f).facet y = s.facet y := (rfl)
@[simp] theorem State.updQueue_mac (s : State) (q : Nat) (f : QueueSt → QueueSt) (y : Nat) : (s.updQueue q f).mac y = s.mac y := (rfl)
@[simp] theorem State.updQueue_hpath (s : State) (q : Nat) (f : QueueSt → QueueSt) (y : Nat) : (s.updQueue q f).hpath y = s.hpath y := (rfl)
@[simp] theorem State.updQueue_img (s : State) (q : Nat) (f : QueueSt → QueueSt) : (s.updQueue q f).img = s.img := (rfl)
@[simp] theorem State.updQueue_mode (s : State) (q : Nat) (f : QueueSt → QueueSt) : (s.updQueue q f).mode = s.mode := (rfl)
@[simp] theorem State.updQueue_isBench (s : State) (q : Nat) (f : QueueSt → QueueSt) : (s.updQueue q f).isBench = s.isBench := (rfl)
@[simp] theorem State.updQueue_compares (s : State) (q : Nat) (f : QueueSt → QueueSt) : (s.updQueue q f).compares = s.compares := (rfl)
@[simp] theorem State.updQueue_isReplay (s : State) (q : Nat) (f : QueueSt → QueueSt) : (s.updQueue q f).isReplay = s.isReplay := (rfl)
@[simp] theorem State.updQueue_alloc (s : State) (q : Nat) (f : QueueSt → QueueSt) (y : Nat) : (s.updQueue q f).alloc y = s.alloc y := (rfl)
@[simp] theorem State.updQueue_role (s : State) (q : Nat) (f : QueueSt → QueueSt) (y : Nat) : (s.updQueue q f).role y = s.role y := (rfl)
@[simp] theorem State.updQueue_schedule (s : State) (q : Nat) (f : QueueSt → QueueSt) : (s.updQueue q f).schedule = s.schedule := (rfl)
@[simp] theorem State.updQueue_commitTile (s : State) (q : Nat) (f : QueueSt → QueueSt) : (s.updQueue q f).commitTile = s.commitTile := (rfl)
@[simp] theorem State.updQueue_now (s : State) (q : Nat) (f : QueueSt → QueueSt) : (s.updQueue q f).now = s.now := (rfl)
@[simp] theorem State.updQueue_mono (s : State) (q : Nat) (f : QueueSt → QueueSt) : (s.updQueue q f).mono = s.mono := (rfl)
@[simp] theorem State.updQueue_stampAt (s : State) (q : Nat) (f : QueueSt → QueueSt) (x : Instant) : (s.updQueue q f).stampAt x = s.stampAt x := (rfl)
@[simp] theorem State.updQueue_stamp (s : State) (q : Nat) (f : QueueSt → QueueSt) : (s.updQueue q f).stamp = s.stamp := (rfl)
@[simp] theorem State.updQueue_dieNow (s : State) (q : Nat) (f : QueueSt → QueueSt) (y : Nat) : (s.updQueue q f).dieNow y = s.dieNow y := (rfl)
@[simp] theorem State.updQueue_dieStamp (s : State) (q : Nat) (f : QueueSt → QueueSt) (y : Nat) : (s.updQueue q f).dieStamp y = s.dieStamp y := (rfl)
@[simp] theorem State.updQueue_frameNs (s : State) (q : Nat) (f : QueueSt → QueueSt) : (s.updQueue q f).frameNs = s.frameNs := (rfl)
@[simp] theorem State.updQueue_beatNs (s : State) (q : Nat) (f : QueueSt → QueueSt) : (s.updQueue q f).beatNs = s.beatNs := (rfl)
@[simp] theorem State.updQueue_started (s : State) (q : Nat) (f : QueueSt → QueueSt) : (s.updQueue q f).started = s.started := (rfl)
@[simp] theorem State.updQueue_t0 (s : State) (q : Nat) (f : QueueSt → QueueSt) : (s.updQueue q f).t0 = s.t0 := (rfl)
@[simp] theorem State.updQueue_firstBeat (s : State) (q : Nat) (f : QueueSt → QueueSt) (y : Nat) : (s.updQueue q f).firstBeat y = s.firstBeat y := (rfl)
@[simp] theorem State.updQueue_frameOfBeat (s : State) (q : Nat) (f : QueueSt → QueueSt) (y : Nat) : (s.updQueue q f).frameOfBeat y = s.frameOfBeat y := (rfl)
@[simp] theorem State.updQueue_beatStart (s : State) (q : Nat) (f : QueueSt → QueueSt) (y : Nat) : (s.updQueue q f).beatStart y = s.beatStart y := (rfl)
@[simp] theorem State.updQueue_frameStart (s : State) (q : Nat) (f : QueueSt → QueueSt) (y : Nat) : (s.updQueue q f).frameStart y = s.frameStart y := (rfl)
@[simp] theorem State.updQueue_isBoundary (s : State) (q : Nat) (f : QueueSt → QueueSt) (y : Nat) : (s.updQueue q f).isBoundary y = s.isBoundary y := (rfl)
@[simp] theorem State.updQueue_frameAt (s : State) (q : Nat) (f : QueueSt → QueueSt) (x : Instant) : (s.updQueue q f).frameAt x = s.frameAt x := (rfl)
@[simp] theorem State.updQueue_txnDue (s : State) (q : Nat) (f : QueueSt → QueueSt) : (s.updQueue q f).txnDue = s.txnDue := (rfl)
@[simp] theorem State.updQueue_chip (s : State) (q : Nat) (f : QueueSt → QueueSt) : (s.updQueue q f).chip = s.chip := (rfl)
@[simp] theorem State.updQueue_port (s : State) (q : Nat) (f : QueueSt → QueueSt) (y : Nat) : (s.updQueue q f).port y = s.port y := (rfl)

/-! ### updCluster -/

@[simp] theorem State.updCluster_pending (s : State) (c : Nat) (f : ClusterSt → ClusterSt) : (s.updCluster c f).pending = s.pending := (rfl)
@[simp] theorem State.updCluster_part (s : State) (c : Nat) (f : ClusterSt → ClusterSt) : (s.updCluster c f).part = s.part := (rfl)
@[simp] theorem State.updCluster_stepping (s : State) (c : Nat) (f : ClusterSt → ClusterSt) : (s.updCluster c f).stepping = s.stepping := (rfl)
@[simp] theorem State.updCluster_fitted (s : State) (c : Nat) (f : ClusterSt → ClusterSt) : (s.updCluster c f).fitted = s.fitted := (rfl)
@[simp] theorem State.updCluster_dramRate (s : State) (c : Nat) (f : ClusterSt → ClusterSt) : (s.updCluster c f).dramRate = s.dramRate := (rfl)
@[simp] theorem State.updCluster_bistOk (s : State) (c : Nat) (f : ClusterSt → ClusterSt) : (s.updCluster c f).bistOk = s.bistOk := (rfl)
@[simp] theorem State.updCluster_tanexReset (s : State) (c : Nat) (f : ClusterSt → ClusterSt) : (s.updCluster c f).tanexReset = s.tanexReset := (rfl)
@[simp] theorem State.updCluster_thermTrip (s : State) (c : Nat) (f : ClusterSt → ClusterSt) : (s.updCluster c f).thermTrip = s.thermTrip := (rfl)
@[simp] theorem State.updCluster_prgSens (s : State) (c : Nat) (f : ClusterSt → ClusterSt) : (s.updCluster c f).prgSens = s.prgSens := (rfl)
@[simp] theorem State.updCluster_boot (s : State) (c : Nat) (f : ClusterSt → ClusterSt) : (s.updCluster c f).boot = s.boot := (rfl)
@[simp] theorem State.updCluster_mem (s : State) (c : Nat) (f : ClusterSt → ClusterSt) : (s.updCluster c f).mem = s.mem := (rfl)
@[simp] theorem State.updCluster_flips (s : State) (c : Nat) (f : ClusterSt → ClusterSt) : (s.updCluster c f).flips = s.flips := (rfl)
@[simp] theorem State.updCluster_peatDirty (s : State) (c : Nat) (f : ClusterSt → ClusterSt) : (s.updCluster c f).peatDirty = s.peatDirty := (rfl)
@[simp] theorem State.updCluster_dramDirty (s : State) (c : Nat) (f : ClusterSt → ClusterSt) : (s.updCluster c f).dramDirty = s.dramDirty := (rfl)
@[simp] theorem State.updCluster_scrubPos (s : State) (c : Nat) (f : ClusterSt → ClusterSt) : (s.updCluster c f).scrubPos = s.scrubPos := (rfl)
@[simp] theorem State.updCluster_scrubPass (s : State) (c : Nat) (f : ClusterSt → ClusterSt) : (s.updCluster c f).scrubPass = s.scrubPass := (rfl)
@[simp] theorem State.updCluster_scrubStart (s : State) (c : Nat) (f : ClusterSt → ClusterSt) : (s.updCluster c f).scrubStart = s.scrubStart := (rfl)
@[simp] theorem State.updCluster_scrubFrom (s : State) (c : Nat) (f : ClusterSt → ClusterSt) : (s.updCluster c f).scrubFrom = s.scrubFrom := (rfl)
@[simp] theorem State.updCluster_rowsHit (s : State) (c : Nat) (f : ClusterSt → ClusterSt) : (s.updCluster c f).rowsHit = s.rowsHit := (rfl)
@[simp] theorem State.updCluster_bankCe (s : State) (c : Nat) (f : ClusterSt → ClusterSt) : (s.updCluster c f).bankCe = s.bankCe := (rfl)
@[simp] theorem State.updCluster_rowTests (s : State) (c : Nat) (f : ClusterSt → ClusterSt) : (s.updCluster c f).rowTests = s.rowTests := (rfl)
@[simp] theorem State.updCluster_pprDone (s : State) (c : Nat) (f : ClusterSt → ClusterSt) : (s.updCluster c f).pprDone = s.pprDone := (rfl)
@[simp] theorem State.updCluster_flash (s : State) (c : Nat) (f : ClusterSt → ClusterSt) : (s.updCluster c f).flash = s.flash := (rfl)
@[simp] theorem State.updCluster_tiles (s : State) (c : Nat) (f : ClusterSt → ClusterSt) : (s.updCluster c f).tiles = s.tiles := (rfl)
@[simp] theorem State.updCluster_queues (s : State) (c : Nat) (f : ClusterSt → ClusterSt) : (s.updCluster c f).queues = s.queues := (rfl)
@[simp] theorem State.updCluster_cluUnits (s : State) (c : Nat) (f : ClusterSt → ClusterSt) : (s.updCluster c f).cluUnits = s.cluUnits := (rfl)
@[simp] theorem State.updCluster_regions (s : State) (c : Nat) (f : ClusterSt → ClusterSt) : (s.updCluster c f).regions = s.regions := (rfl)
@[simp] theorem State.updCluster_rgnUnits (s : State) (c : Nat) (f : ClusterSt → ClusterSt) : (s.updCluster c f).rgnUnits = s.rgnUnits := (rfl)
@[simp] theorem State.updCluster_repair (s : State) (c : Nat) (f : ClusterSt → ClusterSt) : (s.updCluster c f).repair = s.repair := (rfl)
@[simp] theorem State.updCluster_slots (s : State) (c : Nat) (f : ClusterSt → ClusterSt) : (s.updCluster c f).slots = s.slots := (rfl)
@[simp] theorem State.updCluster_chans (s : State) (c : Nat) (f : ClusterSt → ClusterSt) : (s.updCluster c f).chans = s.chans := (rfl)
@[simp] theorem State.updCluster_dies (s : State) (c : Nat) (f : ClusterSt → ClusterSt) : (s.updCluster c f).dies = s.dies := (rfl)
@[simp] theorem State.updCluster_cams (s : State) (c : Nat) (f : ClusterSt → ClusterSt) : (s.updCluster c f).cams = s.cams := (rfl)
@[simp] theorem State.updCluster_pipes (s : State) (c : Nat) (f : ClusterSt → ClusterSt) : (s.updCluster c f).pipes = s.pipes := (rfl)
@[simp] theorem State.updCluster_fctx (s : State) (c : Nat) (f : ClusterSt → ClusterSt) : (s.updCluster c f).fctx = s.fctx := (rfl)
@[simp] theorem State.updCluster_range (s : State) (c : Nat) (f : ClusterSt → ClusterSt) : (s.updCluster c f).range = s.range := (rfl)
@[simp] theorem State.updCluster_hp (s : State) (c : Nat) (f : ClusterSt → ClusterSt) : (s.updCluster c f).hp = s.hp := (rfl)
@[simp] theorem State.updCluster_tb (s : State) (c : Nat) (f : ClusterSt → ClusterSt) : (s.updCluster c f).tb = s.tb := (rfl)
@[simp] theorem State.updCluster_beat (s : State) (c : Nat) (f : ClusterSt → ClusterSt) : (s.updCluster c f).beat = s.beat := (rfl)
@[simp] theorem State.updCluster_saf (s : State) (c : Nat) (f : ClusterSt → ClusterSt) : (s.updCluster c f).saf = s.saf := (rfl)
@[simp] theorem State.updCluster_ash (s : State) (c : Nat) (f : ClusterSt → ClusterSt) : (s.updCluster c f).ash = s.ash := (rfl)
@[simp] theorem State.updCluster_link (s : State) (c : Nat) (f : ClusterSt → ClusterSt) : (s.updCluster c f).link = s.link := (rfl)
@[simp] theorem State.updCluster_ctx (s : State) (c : Nat) (f : ClusterSt → ClusterSt) : (s.updCluster c f).ctx = s.ctx := (rfl)
@[simp] theorem State.updCluster_upd (s : State) (c : Nat) (f : ClusterSt → ClusterSt) : (s.updCluster c f).upd = s.upd := (rfl)
@[simp] theorem State.updCluster_sec (s : State) (c : Nat) (f : ClusterSt → ClusterSt) : (s.updCluster c f).sec = s.sec := (rfl)
@[simp] theorem State.updCluster_lat (s : State) (c : Nat) (f : ClusterSt → ClusterSt) : (s.updCluster c f).lat = s.lat := (rfl)
@[simp] theorem State.updCluster_cvu (s : State) (c : Nat) (f : ClusterSt → ClusterSt) : (s.updCluster c f).cvu = s.cvu := (rfl)
@[simp] theorem State.updCluster_image (s : State) (c : Nat) (f : ClusterSt → ClusterSt) : (s.updCluster c f).image = s.image := (rfl)
@[simp] theorem State.updCluster_suspects (s : State) (c : Nat) (f : ClusterSt → ClusterSt) : (s.updCluster c f).suspects = s.suspects := (rfl)
@[simp] theorem State.updCluster_starts (s : State) (c : Nat) (f : ClusterSt → ClusterSt) : (s.updCluster c f).starts = s.starts := (rfl)
@[simp] theorem State.updCluster_draws (s : State) (c : Nat) (f : ClusterSt → ClusterSt) : (s.updCluster c f).draws = s.draws := (rfl)
@[simp] theorem State.updCluster_cluster_self (s : State) (c : Nat) (f : ClusterSt → ClusterSt) : (s.updCluster c f).cluster c = f (s.cluster c) := SMap.get_update_self _ _ _ _
theorem State.updCluster_cluster_ne (s : State) (c : Nat) (f : ClusterSt → ClusterSt) (k : Nat) (h : k ≠ c) : (s.updCluster c f).cluster k = s.cluster k := SMap.get_update_ne _ _ _ _ _ h
theorem State.updCluster_cluster (s : State) (c : Nat) (f : ClusterSt → ClusterSt) (k : Nat) : (s.updCluster c f).cluster k = if k = c then f (s.cluster c) else s.cluster k := SMap.get_update _ _ _ _ _
@[simp] theorem State.updCluster_tile (s : State) (c : Nat) (f : ClusterSt → ClusterSt) (y : Nat) : (s.updCluster c f).tile y = s.tile y := (rfl)
@[simp] theorem State.updCluster_queue (s : State) (c : Nat) (f : ClusterSt → ClusterSt) (y : Nat) : (s.updCluster c f).queue y = s.queue y := (rfl)
@[simp] theorem State.updCluster_cluUnit (s : State) (c : Nat) (f : ClusterSt → ClusterSt) (y : Nat) : (s.updCluster c f).cluUnit y = s.cluUnit y := (rfl)
@[simp] theorem State.updCluster_region (s : State) (c : Nat) (f : ClusterSt → ClusterSt) (y : Nat) : (s.updCluster c f).region y = s.region y := (rfl)
@[simp] theorem State.updCluster_rgnUnit (s : State) (c : Nat) (f : ClusterSt → ClusterSt) (y : Nat) : (s.updCluster c f).rgnUnit y = s.rgnUnit y := (rfl)
@[simp] theorem State.updCluster_slot (s : State) (c : Nat) (f : ClusterSt → ClusterSt) (y : Nat) : (s.updCluster c f).slot y = s.slot y := (rfl)
@[simp] theorem State.updCluster_chan (s : State) (c : Nat) (f : ClusterSt → ClusterSt) (y : Nat) : (s.updCluster c f).chan y = s.chan y := (rfl)
@[simp] theorem State.updCluster_die (s : State) (c : Nat) (f : ClusterSt → ClusterSt) (y : Nat) : (s.updCluster c f).die y = s.die y := (rfl)
@[simp] theorem State.updCluster_cam (s : State) (c : Nat) (f : ClusterSt → ClusterSt) (y : Nat) : (s.updCluster c f).cam y = s.cam y := (rfl)
@[simp] theorem State.updCluster_pipe (s : State) (c : Nat) (f : ClusterSt → ClusterSt) (y : Nat) : (s.updCluster c f).pipe y = s.pipe y := (rfl)
@[simp] theorem State.updCluster_facet (s : State) (c : Nat) (f : ClusterSt → ClusterSt) (y : Nat) : (s.updCluster c f).facet y = s.facet y := (rfl)
@[simp] theorem State.updCluster_mac (s : State) (c : Nat) (f : ClusterSt → ClusterSt) (y : Nat) : (s.updCluster c f).mac y = s.mac y := (rfl)
@[simp] theorem State.updCluster_hpath (s : State) (c : Nat) (f : ClusterSt → ClusterSt) (y : Nat) : (s.updCluster c f).hpath y = s.hpath y := (rfl)
@[simp] theorem State.updCluster_img (s : State) (c : Nat) (f : ClusterSt → ClusterSt) : (s.updCluster c f).img = s.img := (rfl)
@[simp] theorem State.updCluster_mode (s : State) (c : Nat) (f : ClusterSt → ClusterSt) : (s.updCluster c f).mode = s.mode := (rfl)
@[simp] theorem State.updCluster_isBench (s : State) (c : Nat) (f : ClusterSt → ClusterSt) : (s.updCluster c f).isBench = s.isBench := (rfl)
@[simp] theorem State.updCluster_compares (s : State) (c : Nat) (f : ClusterSt → ClusterSt) : (s.updCluster c f).compares = s.compares := (rfl)
@[simp] theorem State.updCluster_isReplay (s : State) (c : Nat) (f : ClusterSt → ClusterSt) : (s.updCluster c f).isReplay = s.isReplay := (rfl)
@[simp] theorem State.updCluster_alloc (s : State) (c : Nat) (f : ClusterSt → ClusterSt) (y : Nat) : (s.updCluster c f).alloc y = s.alloc y := (rfl)
@[simp] theorem State.updCluster_role (s : State) (c : Nat) (f : ClusterSt → ClusterSt) (y : Nat) : (s.updCluster c f).role y = s.role y := (rfl)
@[simp] theorem State.updCluster_schedule (s : State) (c : Nat) (f : ClusterSt → ClusterSt) : (s.updCluster c f).schedule = s.schedule := (rfl)
@[simp] theorem State.updCluster_commitTile (s : State) (c : Nat) (f : ClusterSt → ClusterSt) : (s.updCluster c f).commitTile = s.commitTile := (rfl)
@[simp] theorem State.updCluster_now (s : State) (c : Nat) (f : ClusterSt → ClusterSt) : (s.updCluster c f).now = s.now := (rfl)
@[simp] theorem State.updCluster_mono (s : State) (c : Nat) (f : ClusterSt → ClusterSt) : (s.updCluster c f).mono = s.mono := (rfl)
@[simp] theorem State.updCluster_stampAt (s : State) (c : Nat) (f : ClusterSt → ClusterSt) (x : Instant) : (s.updCluster c f).stampAt x = s.stampAt x := (rfl)
@[simp] theorem State.updCluster_stamp (s : State) (c : Nat) (f : ClusterSt → ClusterSt) : (s.updCluster c f).stamp = s.stamp := (rfl)
@[simp] theorem State.updCluster_dieNow (s : State) (c : Nat) (f : ClusterSt → ClusterSt) (y : Nat) : (s.updCluster c f).dieNow y = s.dieNow y := (rfl)
@[simp] theorem State.updCluster_dieStamp (s : State) (c : Nat) (f : ClusterSt → ClusterSt) (y : Nat) : (s.updCluster c f).dieStamp y = s.dieStamp y := (rfl)
@[simp] theorem State.updCluster_frameNs (s : State) (c : Nat) (f : ClusterSt → ClusterSt) : (s.updCluster c f).frameNs = s.frameNs := (rfl)
@[simp] theorem State.updCluster_beatNs (s : State) (c : Nat) (f : ClusterSt → ClusterSt) : (s.updCluster c f).beatNs = s.beatNs := (rfl)
@[simp] theorem State.updCluster_started (s : State) (c : Nat) (f : ClusterSt → ClusterSt) : (s.updCluster c f).started = s.started := (rfl)
@[simp] theorem State.updCluster_t0 (s : State) (c : Nat) (f : ClusterSt → ClusterSt) : (s.updCluster c f).t0 = s.t0 := (rfl)
@[simp] theorem State.updCluster_firstBeat (s : State) (c : Nat) (f : ClusterSt → ClusterSt) (y : Nat) : (s.updCluster c f).firstBeat y = s.firstBeat y := (rfl)
@[simp] theorem State.updCluster_frameOfBeat (s : State) (c : Nat) (f : ClusterSt → ClusterSt) (y : Nat) : (s.updCluster c f).frameOfBeat y = s.frameOfBeat y := (rfl)
@[simp] theorem State.updCluster_beatStart (s : State) (c : Nat) (f : ClusterSt → ClusterSt) (y : Nat) : (s.updCluster c f).beatStart y = s.beatStart y := (rfl)
@[simp] theorem State.updCluster_frameStart (s : State) (c : Nat) (f : ClusterSt → ClusterSt) (y : Nat) : (s.updCluster c f).frameStart y = s.frameStart y := (rfl)
@[simp] theorem State.updCluster_isBoundary (s : State) (c : Nat) (f : ClusterSt → ClusterSt) (y : Nat) : (s.updCluster c f).isBoundary y = s.isBoundary y := (rfl)
@[simp] theorem State.updCluster_frameAt (s : State) (c : Nat) (f : ClusterSt → ClusterSt) (x : Instant) : (s.updCluster c f).frameAt x = s.frameAt x := (rfl)
@[simp] theorem State.updCluster_txnDue (s : State) (c : Nat) (f : ClusterSt → ClusterSt) : (s.updCluster c f).txnDue = s.txnDue := (rfl)
@[simp] theorem State.updCluster_chip (s : State) (c : Nat) (f : ClusterSt → ClusterSt) : (s.updCluster c f).chip = s.chip := (rfl)
@[simp] theorem State.updCluster_port (s : State) (c : Nat) (f : ClusterSt → ClusterSt) (y : Nat) : (s.updCluster c f).port y = s.port y := (rfl)

/-! ### updCluUnit -/

@[simp] theorem State.updCluUnit_pending (s : State) (c : Nat) (f : UnitSt → UnitSt) : (s.updCluUnit c f).pending = s.pending := (rfl)
@[simp] theorem State.updCluUnit_part (s : State) (c : Nat) (f : UnitSt → UnitSt) : (s.updCluUnit c f).part = s.part := (rfl)
@[simp] theorem State.updCluUnit_stepping (s : State) (c : Nat) (f : UnitSt → UnitSt) : (s.updCluUnit c f).stepping = s.stepping := (rfl)
@[simp] theorem State.updCluUnit_fitted (s : State) (c : Nat) (f : UnitSt → UnitSt) : (s.updCluUnit c f).fitted = s.fitted := (rfl)
@[simp] theorem State.updCluUnit_dramRate (s : State) (c : Nat) (f : UnitSt → UnitSt) : (s.updCluUnit c f).dramRate = s.dramRate := (rfl)
@[simp] theorem State.updCluUnit_bistOk (s : State) (c : Nat) (f : UnitSt → UnitSt) : (s.updCluUnit c f).bistOk = s.bistOk := (rfl)
@[simp] theorem State.updCluUnit_tanexReset (s : State) (c : Nat) (f : UnitSt → UnitSt) : (s.updCluUnit c f).tanexReset = s.tanexReset := (rfl)
@[simp] theorem State.updCluUnit_thermTrip (s : State) (c : Nat) (f : UnitSt → UnitSt) : (s.updCluUnit c f).thermTrip = s.thermTrip := (rfl)
@[simp] theorem State.updCluUnit_prgSens (s : State) (c : Nat) (f : UnitSt → UnitSt) : (s.updCluUnit c f).prgSens = s.prgSens := (rfl)
@[simp] theorem State.updCluUnit_boot (s : State) (c : Nat) (f : UnitSt → UnitSt) : (s.updCluUnit c f).boot = s.boot := (rfl)
@[simp] theorem State.updCluUnit_mem (s : State) (c : Nat) (f : UnitSt → UnitSt) : (s.updCluUnit c f).mem = s.mem := (rfl)
@[simp] theorem State.updCluUnit_flips (s : State) (c : Nat) (f : UnitSt → UnitSt) : (s.updCluUnit c f).flips = s.flips := (rfl)
@[simp] theorem State.updCluUnit_peatDirty (s : State) (c : Nat) (f : UnitSt → UnitSt) : (s.updCluUnit c f).peatDirty = s.peatDirty := (rfl)
@[simp] theorem State.updCluUnit_dramDirty (s : State) (c : Nat) (f : UnitSt → UnitSt) : (s.updCluUnit c f).dramDirty = s.dramDirty := (rfl)
@[simp] theorem State.updCluUnit_scrubPos (s : State) (c : Nat) (f : UnitSt → UnitSt) : (s.updCluUnit c f).scrubPos = s.scrubPos := (rfl)
@[simp] theorem State.updCluUnit_scrubPass (s : State) (c : Nat) (f : UnitSt → UnitSt) : (s.updCluUnit c f).scrubPass = s.scrubPass := (rfl)
@[simp] theorem State.updCluUnit_scrubStart (s : State) (c : Nat) (f : UnitSt → UnitSt) : (s.updCluUnit c f).scrubStart = s.scrubStart := (rfl)
@[simp] theorem State.updCluUnit_scrubFrom (s : State) (c : Nat) (f : UnitSt → UnitSt) : (s.updCluUnit c f).scrubFrom = s.scrubFrom := (rfl)
@[simp] theorem State.updCluUnit_rowsHit (s : State) (c : Nat) (f : UnitSt → UnitSt) : (s.updCluUnit c f).rowsHit = s.rowsHit := (rfl)
@[simp] theorem State.updCluUnit_bankCe (s : State) (c : Nat) (f : UnitSt → UnitSt) : (s.updCluUnit c f).bankCe = s.bankCe := (rfl)
@[simp] theorem State.updCluUnit_rowTests (s : State) (c : Nat) (f : UnitSt → UnitSt) : (s.updCluUnit c f).rowTests = s.rowTests := (rfl)
@[simp] theorem State.updCluUnit_pprDone (s : State) (c : Nat) (f : UnitSt → UnitSt) : (s.updCluUnit c f).pprDone = s.pprDone := (rfl)
@[simp] theorem State.updCluUnit_flash (s : State) (c : Nat) (f : UnitSt → UnitSt) : (s.updCluUnit c f).flash = s.flash := (rfl)
@[simp] theorem State.updCluUnit_tiles (s : State) (c : Nat) (f : UnitSt → UnitSt) : (s.updCluUnit c f).tiles = s.tiles := (rfl)
@[simp] theorem State.updCluUnit_queues (s : State) (c : Nat) (f : UnitSt → UnitSt) : (s.updCluUnit c f).queues = s.queues := (rfl)
@[simp] theorem State.updCluUnit_clusters (s : State) (c : Nat) (f : UnitSt → UnitSt) : (s.updCluUnit c f).clusters = s.clusters := (rfl)
@[simp] theorem State.updCluUnit_regions (s : State) (c : Nat) (f : UnitSt → UnitSt) : (s.updCluUnit c f).regions = s.regions := (rfl)
@[simp] theorem State.updCluUnit_rgnUnits (s : State) (c : Nat) (f : UnitSt → UnitSt) : (s.updCluUnit c f).rgnUnits = s.rgnUnits := (rfl)
@[simp] theorem State.updCluUnit_repair (s : State) (c : Nat) (f : UnitSt → UnitSt) : (s.updCluUnit c f).repair = s.repair := (rfl)
@[simp] theorem State.updCluUnit_slots (s : State) (c : Nat) (f : UnitSt → UnitSt) : (s.updCluUnit c f).slots = s.slots := (rfl)
@[simp] theorem State.updCluUnit_chans (s : State) (c : Nat) (f : UnitSt → UnitSt) : (s.updCluUnit c f).chans = s.chans := (rfl)
@[simp] theorem State.updCluUnit_dies (s : State) (c : Nat) (f : UnitSt → UnitSt) : (s.updCluUnit c f).dies = s.dies := (rfl)
@[simp] theorem State.updCluUnit_cams (s : State) (c : Nat) (f : UnitSt → UnitSt) : (s.updCluUnit c f).cams = s.cams := (rfl)
@[simp] theorem State.updCluUnit_pipes (s : State) (c : Nat) (f : UnitSt → UnitSt) : (s.updCluUnit c f).pipes = s.pipes := (rfl)
@[simp] theorem State.updCluUnit_fctx (s : State) (c : Nat) (f : UnitSt → UnitSt) : (s.updCluUnit c f).fctx = s.fctx := (rfl)
@[simp] theorem State.updCluUnit_range (s : State) (c : Nat) (f : UnitSt → UnitSt) : (s.updCluUnit c f).range = s.range := (rfl)
@[simp] theorem State.updCluUnit_hp (s : State) (c : Nat) (f : UnitSt → UnitSt) : (s.updCluUnit c f).hp = s.hp := (rfl)
@[simp] theorem State.updCluUnit_tb (s : State) (c : Nat) (f : UnitSt → UnitSt) : (s.updCluUnit c f).tb = s.tb := (rfl)
@[simp] theorem State.updCluUnit_beat (s : State) (c : Nat) (f : UnitSt → UnitSt) : (s.updCluUnit c f).beat = s.beat := (rfl)
@[simp] theorem State.updCluUnit_saf (s : State) (c : Nat) (f : UnitSt → UnitSt) : (s.updCluUnit c f).saf = s.saf := (rfl)
@[simp] theorem State.updCluUnit_ash (s : State) (c : Nat) (f : UnitSt → UnitSt) : (s.updCluUnit c f).ash = s.ash := (rfl)
@[simp] theorem State.updCluUnit_link (s : State) (c : Nat) (f : UnitSt → UnitSt) : (s.updCluUnit c f).link = s.link := (rfl)
@[simp] theorem State.updCluUnit_ctx (s : State) (c : Nat) (f : UnitSt → UnitSt) : (s.updCluUnit c f).ctx = s.ctx := (rfl)
@[simp] theorem State.updCluUnit_upd (s : State) (c : Nat) (f : UnitSt → UnitSt) : (s.updCluUnit c f).upd = s.upd := (rfl)
@[simp] theorem State.updCluUnit_sec (s : State) (c : Nat) (f : UnitSt → UnitSt) : (s.updCluUnit c f).sec = s.sec := (rfl)
@[simp] theorem State.updCluUnit_lat (s : State) (c : Nat) (f : UnitSt → UnitSt) : (s.updCluUnit c f).lat = s.lat := (rfl)
@[simp] theorem State.updCluUnit_cvu (s : State) (c : Nat) (f : UnitSt → UnitSt) : (s.updCluUnit c f).cvu = s.cvu := (rfl)
@[simp] theorem State.updCluUnit_image (s : State) (c : Nat) (f : UnitSt → UnitSt) : (s.updCluUnit c f).image = s.image := (rfl)
@[simp] theorem State.updCluUnit_suspects (s : State) (c : Nat) (f : UnitSt → UnitSt) : (s.updCluUnit c f).suspects = s.suspects := (rfl)
@[simp] theorem State.updCluUnit_starts (s : State) (c : Nat) (f : UnitSt → UnitSt) : (s.updCluUnit c f).starts = s.starts := (rfl)
@[simp] theorem State.updCluUnit_draws (s : State) (c : Nat) (f : UnitSt → UnitSt) : (s.updCluUnit c f).draws = s.draws := (rfl)
@[simp] theorem State.updCluUnit_cluUnit_self (s : State) (c : Nat) (f : UnitSt → UnitSt) : (s.updCluUnit c f).cluUnit c = f (s.cluUnit c) := SMap.get_update_self _ _ _ _
theorem State.updCluUnit_cluUnit_ne (s : State) (c : Nat) (f : UnitSt → UnitSt) (k : Nat) (h : k ≠ c) : (s.updCluUnit c f).cluUnit k = s.cluUnit k := SMap.get_update_ne _ _ _ _ _ h
theorem State.updCluUnit_cluUnit (s : State) (c : Nat) (f : UnitSt → UnitSt) (k : Nat) : (s.updCluUnit c f).cluUnit k = if k = c then f (s.cluUnit c) else s.cluUnit k := SMap.get_update _ _ _ _ _
@[simp] theorem State.updCluUnit_tile (s : State) (c : Nat) (f : UnitSt → UnitSt) (y : Nat) : (s.updCluUnit c f).tile y = s.tile y := (rfl)
@[simp] theorem State.updCluUnit_queue (s : State) (c : Nat) (f : UnitSt → UnitSt) (y : Nat) : (s.updCluUnit c f).queue y = s.queue y := (rfl)
@[simp] theorem State.updCluUnit_cluster (s : State) (c : Nat) (f : UnitSt → UnitSt) (y : Nat) : (s.updCluUnit c f).cluster y = s.cluster y := (rfl)
@[simp] theorem State.updCluUnit_region (s : State) (c : Nat) (f : UnitSt → UnitSt) (y : Nat) : (s.updCluUnit c f).region y = s.region y := (rfl)
@[simp] theorem State.updCluUnit_rgnUnit (s : State) (c : Nat) (f : UnitSt → UnitSt) (y : Nat) : (s.updCluUnit c f).rgnUnit y = s.rgnUnit y := (rfl)
@[simp] theorem State.updCluUnit_slot (s : State) (c : Nat) (f : UnitSt → UnitSt) (y : Nat) : (s.updCluUnit c f).slot y = s.slot y := (rfl)
@[simp] theorem State.updCluUnit_chan (s : State) (c : Nat) (f : UnitSt → UnitSt) (y : Nat) : (s.updCluUnit c f).chan y = s.chan y := (rfl)
@[simp] theorem State.updCluUnit_die (s : State) (c : Nat) (f : UnitSt → UnitSt) (y : Nat) : (s.updCluUnit c f).die y = s.die y := (rfl)
@[simp] theorem State.updCluUnit_cam (s : State) (c : Nat) (f : UnitSt → UnitSt) (y : Nat) : (s.updCluUnit c f).cam y = s.cam y := (rfl)
@[simp] theorem State.updCluUnit_pipe (s : State) (c : Nat) (f : UnitSt → UnitSt) (y : Nat) : (s.updCluUnit c f).pipe y = s.pipe y := (rfl)
@[simp] theorem State.updCluUnit_facet (s : State) (c : Nat) (f : UnitSt → UnitSt) (y : Nat) : (s.updCluUnit c f).facet y = s.facet y := (rfl)
@[simp] theorem State.updCluUnit_mac (s : State) (c : Nat) (f : UnitSt → UnitSt) (y : Nat) : (s.updCluUnit c f).mac y = s.mac y := (rfl)
@[simp] theorem State.updCluUnit_hpath (s : State) (c : Nat) (f : UnitSt → UnitSt) (y : Nat) : (s.updCluUnit c f).hpath y = s.hpath y := (rfl)
@[simp] theorem State.updCluUnit_img (s : State) (c : Nat) (f : UnitSt → UnitSt) : (s.updCluUnit c f).img = s.img := (rfl)
@[simp] theorem State.updCluUnit_mode (s : State) (c : Nat) (f : UnitSt → UnitSt) : (s.updCluUnit c f).mode = s.mode := (rfl)
@[simp] theorem State.updCluUnit_isBench (s : State) (c : Nat) (f : UnitSt → UnitSt) : (s.updCluUnit c f).isBench = s.isBench := (rfl)
@[simp] theorem State.updCluUnit_compares (s : State) (c : Nat) (f : UnitSt → UnitSt) : (s.updCluUnit c f).compares = s.compares := (rfl)
@[simp] theorem State.updCluUnit_isReplay (s : State) (c : Nat) (f : UnitSt → UnitSt) : (s.updCluUnit c f).isReplay = s.isReplay := (rfl)
@[simp] theorem State.updCluUnit_alloc (s : State) (c : Nat) (f : UnitSt → UnitSt) (y : Nat) : (s.updCluUnit c f).alloc y = s.alloc y := (rfl)
@[simp] theorem State.updCluUnit_role (s : State) (c : Nat) (f : UnitSt → UnitSt) (y : Nat) : (s.updCluUnit c f).role y = s.role y := (rfl)
@[simp] theorem State.updCluUnit_schedule (s : State) (c : Nat) (f : UnitSt → UnitSt) : (s.updCluUnit c f).schedule = s.schedule := (rfl)
@[simp] theorem State.updCluUnit_commitTile (s : State) (c : Nat) (f : UnitSt → UnitSt) : (s.updCluUnit c f).commitTile = s.commitTile := (rfl)
@[simp] theorem State.updCluUnit_now (s : State) (c : Nat) (f : UnitSt → UnitSt) : (s.updCluUnit c f).now = s.now := (rfl)
@[simp] theorem State.updCluUnit_mono (s : State) (c : Nat) (f : UnitSt → UnitSt) : (s.updCluUnit c f).mono = s.mono := (rfl)
@[simp] theorem State.updCluUnit_stampAt (s : State) (c : Nat) (f : UnitSt → UnitSt) (x : Instant) : (s.updCluUnit c f).stampAt x = s.stampAt x := (rfl)
@[simp] theorem State.updCluUnit_stamp (s : State) (c : Nat) (f : UnitSt → UnitSt) : (s.updCluUnit c f).stamp = s.stamp := (rfl)
@[simp] theorem State.updCluUnit_dieNow (s : State) (c : Nat) (f : UnitSt → UnitSt) (y : Nat) : (s.updCluUnit c f).dieNow y = s.dieNow y := (rfl)
@[simp] theorem State.updCluUnit_dieStamp (s : State) (c : Nat) (f : UnitSt → UnitSt) (y : Nat) : (s.updCluUnit c f).dieStamp y = s.dieStamp y := (rfl)
@[simp] theorem State.updCluUnit_frameNs (s : State) (c : Nat) (f : UnitSt → UnitSt) : (s.updCluUnit c f).frameNs = s.frameNs := (rfl)
@[simp] theorem State.updCluUnit_beatNs (s : State) (c : Nat) (f : UnitSt → UnitSt) : (s.updCluUnit c f).beatNs = s.beatNs := (rfl)
@[simp] theorem State.updCluUnit_started (s : State) (c : Nat) (f : UnitSt → UnitSt) : (s.updCluUnit c f).started = s.started := (rfl)
@[simp] theorem State.updCluUnit_t0 (s : State) (c : Nat) (f : UnitSt → UnitSt) : (s.updCluUnit c f).t0 = s.t0 := (rfl)
@[simp] theorem State.updCluUnit_firstBeat (s : State) (c : Nat) (f : UnitSt → UnitSt) (y : Nat) : (s.updCluUnit c f).firstBeat y = s.firstBeat y := (rfl)
@[simp] theorem State.updCluUnit_frameOfBeat (s : State) (c : Nat) (f : UnitSt → UnitSt) (y : Nat) : (s.updCluUnit c f).frameOfBeat y = s.frameOfBeat y := (rfl)
@[simp] theorem State.updCluUnit_beatStart (s : State) (c : Nat) (f : UnitSt → UnitSt) (y : Nat) : (s.updCluUnit c f).beatStart y = s.beatStart y := (rfl)
@[simp] theorem State.updCluUnit_frameStart (s : State) (c : Nat) (f : UnitSt → UnitSt) (y : Nat) : (s.updCluUnit c f).frameStart y = s.frameStart y := (rfl)
@[simp] theorem State.updCluUnit_isBoundary (s : State) (c : Nat) (f : UnitSt → UnitSt) (y : Nat) : (s.updCluUnit c f).isBoundary y = s.isBoundary y := (rfl)
@[simp] theorem State.updCluUnit_frameAt (s : State) (c : Nat) (f : UnitSt → UnitSt) (x : Instant) : (s.updCluUnit c f).frameAt x = s.frameAt x := (rfl)
@[simp] theorem State.updCluUnit_txnDue (s : State) (c : Nat) (f : UnitSt → UnitSt) : (s.updCluUnit c f).txnDue = s.txnDue := (rfl)
@[simp] theorem State.updCluUnit_chip (s : State) (c : Nat) (f : UnitSt → UnitSt) : (s.updCluUnit c f).chip = s.chip := (rfl)
@[simp] theorem State.updCluUnit_port (s : State) (c : Nat) (f : UnitSt → UnitSt) (y : Nat) : (s.updCluUnit c f).port y = s.port y := (rfl)

/-! ### updRegion -/

@[simp] theorem State.updRegion_pending (s : State) (g : Nat) (f : RegionSt → RegionSt) : (s.updRegion g f).pending = s.pending := (rfl)
@[simp] theorem State.updRegion_part (s : State) (g : Nat) (f : RegionSt → RegionSt) : (s.updRegion g f).part = s.part := (rfl)
@[simp] theorem State.updRegion_stepping (s : State) (g : Nat) (f : RegionSt → RegionSt) : (s.updRegion g f).stepping = s.stepping := (rfl)
@[simp] theorem State.updRegion_fitted (s : State) (g : Nat) (f : RegionSt → RegionSt) : (s.updRegion g f).fitted = s.fitted := (rfl)
@[simp] theorem State.updRegion_dramRate (s : State) (g : Nat) (f : RegionSt → RegionSt) : (s.updRegion g f).dramRate = s.dramRate := (rfl)
@[simp] theorem State.updRegion_bistOk (s : State) (g : Nat) (f : RegionSt → RegionSt) : (s.updRegion g f).bistOk = s.bistOk := (rfl)
@[simp] theorem State.updRegion_tanexReset (s : State) (g : Nat) (f : RegionSt → RegionSt) : (s.updRegion g f).tanexReset = s.tanexReset := (rfl)
@[simp] theorem State.updRegion_thermTrip (s : State) (g : Nat) (f : RegionSt → RegionSt) : (s.updRegion g f).thermTrip = s.thermTrip := (rfl)
@[simp] theorem State.updRegion_prgSens (s : State) (g : Nat) (f : RegionSt → RegionSt) : (s.updRegion g f).prgSens = s.prgSens := (rfl)
@[simp] theorem State.updRegion_boot (s : State) (g : Nat) (f : RegionSt → RegionSt) : (s.updRegion g f).boot = s.boot := (rfl)
@[simp] theorem State.updRegion_mem (s : State) (g : Nat) (f : RegionSt → RegionSt) : (s.updRegion g f).mem = s.mem := (rfl)
@[simp] theorem State.updRegion_flips (s : State) (g : Nat) (f : RegionSt → RegionSt) : (s.updRegion g f).flips = s.flips := (rfl)
@[simp] theorem State.updRegion_peatDirty (s : State) (g : Nat) (f : RegionSt → RegionSt) : (s.updRegion g f).peatDirty = s.peatDirty := (rfl)
@[simp] theorem State.updRegion_dramDirty (s : State) (g : Nat) (f : RegionSt → RegionSt) : (s.updRegion g f).dramDirty = s.dramDirty := (rfl)
@[simp] theorem State.updRegion_scrubPos (s : State) (g : Nat) (f : RegionSt → RegionSt) : (s.updRegion g f).scrubPos = s.scrubPos := (rfl)
@[simp] theorem State.updRegion_scrubPass (s : State) (g : Nat) (f : RegionSt → RegionSt) : (s.updRegion g f).scrubPass = s.scrubPass := (rfl)
@[simp] theorem State.updRegion_scrubStart (s : State) (g : Nat) (f : RegionSt → RegionSt) : (s.updRegion g f).scrubStart = s.scrubStart := (rfl)
@[simp] theorem State.updRegion_scrubFrom (s : State) (g : Nat) (f : RegionSt → RegionSt) : (s.updRegion g f).scrubFrom = s.scrubFrom := (rfl)
@[simp] theorem State.updRegion_rowsHit (s : State) (g : Nat) (f : RegionSt → RegionSt) : (s.updRegion g f).rowsHit = s.rowsHit := (rfl)
@[simp] theorem State.updRegion_bankCe (s : State) (g : Nat) (f : RegionSt → RegionSt) : (s.updRegion g f).bankCe = s.bankCe := (rfl)
@[simp] theorem State.updRegion_rowTests (s : State) (g : Nat) (f : RegionSt → RegionSt) : (s.updRegion g f).rowTests = s.rowTests := (rfl)
@[simp] theorem State.updRegion_pprDone (s : State) (g : Nat) (f : RegionSt → RegionSt) : (s.updRegion g f).pprDone = s.pprDone := (rfl)
@[simp] theorem State.updRegion_flash (s : State) (g : Nat) (f : RegionSt → RegionSt) : (s.updRegion g f).flash = s.flash := (rfl)
@[simp] theorem State.updRegion_tiles (s : State) (g : Nat) (f : RegionSt → RegionSt) : (s.updRegion g f).tiles = s.tiles := (rfl)
@[simp] theorem State.updRegion_queues (s : State) (g : Nat) (f : RegionSt → RegionSt) : (s.updRegion g f).queues = s.queues := (rfl)
@[simp] theorem State.updRegion_clusters (s : State) (g : Nat) (f : RegionSt → RegionSt) : (s.updRegion g f).clusters = s.clusters := (rfl)
@[simp] theorem State.updRegion_cluUnits (s : State) (g : Nat) (f : RegionSt → RegionSt) : (s.updRegion g f).cluUnits = s.cluUnits := (rfl)
@[simp] theorem State.updRegion_rgnUnits (s : State) (g : Nat) (f : RegionSt → RegionSt) : (s.updRegion g f).rgnUnits = s.rgnUnits := (rfl)
@[simp] theorem State.updRegion_repair (s : State) (g : Nat) (f : RegionSt → RegionSt) : (s.updRegion g f).repair = s.repair := (rfl)
@[simp] theorem State.updRegion_slots (s : State) (g : Nat) (f : RegionSt → RegionSt) : (s.updRegion g f).slots = s.slots := (rfl)
@[simp] theorem State.updRegion_chans (s : State) (g : Nat) (f : RegionSt → RegionSt) : (s.updRegion g f).chans = s.chans := (rfl)
@[simp] theorem State.updRegion_dies (s : State) (g : Nat) (f : RegionSt → RegionSt) : (s.updRegion g f).dies = s.dies := (rfl)
@[simp] theorem State.updRegion_cams (s : State) (g : Nat) (f : RegionSt → RegionSt) : (s.updRegion g f).cams = s.cams := (rfl)
@[simp] theorem State.updRegion_pipes (s : State) (g : Nat) (f : RegionSt → RegionSt) : (s.updRegion g f).pipes = s.pipes := (rfl)
@[simp] theorem State.updRegion_fctx (s : State) (g : Nat) (f : RegionSt → RegionSt) : (s.updRegion g f).fctx = s.fctx := (rfl)
@[simp] theorem State.updRegion_range (s : State) (g : Nat) (f : RegionSt → RegionSt) : (s.updRegion g f).range = s.range := (rfl)
@[simp] theorem State.updRegion_hp (s : State) (g : Nat) (f : RegionSt → RegionSt) : (s.updRegion g f).hp = s.hp := (rfl)
@[simp] theorem State.updRegion_tb (s : State) (g : Nat) (f : RegionSt → RegionSt) : (s.updRegion g f).tb = s.tb := (rfl)
@[simp] theorem State.updRegion_beat (s : State) (g : Nat) (f : RegionSt → RegionSt) : (s.updRegion g f).beat = s.beat := (rfl)
@[simp] theorem State.updRegion_saf (s : State) (g : Nat) (f : RegionSt → RegionSt) : (s.updRegion g f).saf = s.saf := (rfl)
@[simp] theorem State.updRegion_ash (s : State) (g : Nat) (f : RegionSt → RegionSt) : (s.updRegion g f).ash = s.ash := (rfl)
@[simp] theorem State.updRegion_link (s : State) (g : Nat) (f : RegionSt → RegionSt) : (s.updRegion g f).link = s.link := (rfl)
@[simp] theorem State.updRegion_ctx (s : State) (g : Nat) (f : RegionSt → RegionSt) : (s.updRegion g f).ctx = s.ctx := (rfl)
@[simp] theorem State.updRegion_upd (s : State) (g : Nat) (f : RegionSt → RegionSt) : (s.updRegion g f).upd = s.upd := (rfl)
@[simp] theorem State.updRegion_sec (s : State) (g : Nat) (f : RegionSt → RegionSt) : (s.updRegion g f).sec = s.sec := (rfl)
@[simp] theorem State.updRegion_lat (s : State) (g : Nat) (f : RegionSt → RegionSt) : (s.updRegion g f).lat = s.lat := (rfl)
@[simp] theorem State.updRegion_cvu (s : State) (g : Nat) (f : RegionSt → RegionSt) : (s.updRegion g f).cvu = s.cvu := (rfl)
@[simp] theorem State.updRegion_image (s : State) (g : Nat) (f : RegionSt → RegionSt) : (s.updRegion g f).image = s.image := (rfl)
@[simp] theorem State.updRegion_suspects (s : State) (g : Nat) (f : RegionSt → RegionSt) : (s.updRegion g f).suspects = s.suspects := (rfl)
@[simp] theorem State.updRegion_starts (s : State) (g : Nat) (f : RegionSt → RegionSt) : (s.updRegion g f).starts = s.starts := (rfl)
@[simp] theorem State.updRegion_draws (s : State) (g : Nat) (f : RegionSt → RegionSt) : (s.updRegion g f).draws = s.draws := (rfl)
@[simp] theorem State.updRegion_region_self (s : State) (g : Nat) (f : RegionSt → RegionSt) : (s.updRegion g f).region g = f (s.region g) := SMap.get_update_self _ _ _ _
theorem State.updRegion_region_ne (s : State) (g : Nat) (f : RegionSt → RegionSt) (k : Nat) (h : k ≠ g) : (s.updRegion g f).region k = s.region k := SMap.get_update_ne _ _ _ _ _ h
theorem State.updRegion_region (s : State) (g : Nat) (f : RegionSt → RegionSt) (k : Nat) : (s.updRegion g f).region k = if k = g then f (s.region g) else s.region k := SMap.get_update _ _ _ _ _
@[simp] theorem State.updRegion_tile (s : State) (g : Nat) (f : RegionSt → RegionSt) (y : Nat) : (s.updRegion g f).tile y = s.tile y := (rfl)
@[simp] theorem State.updRegion_queue (s : State) (g : Nat) (f : RegionSt → RegionSt) (y : Nat) : (s.updRegion g f).queue y = s.queue y := (rfl)
@[simp] theorem State.updRegion_cluster (s : State) (g : Nat) (f : RegionSt → RegionSt) (y : Nat) : (s.updRegion g f).cluster y = s.cluster y := (rfl)
@[simp] theorem State.updRegion_cluUnit (s : State) (g : Nat) (f : RegionSt → RegionSt) (y : Nat) : (s.updRegion g f).cluUnit y = s.cluUnit y := (rfl)
@[simp] theorem State.updRegion_rgnUnit (s : State) (g : Nat) (f : RegionSt → RegionSt) (y : Nat) : (s.updRegion g f).rgnUnit y = s.rgnUnit y := (rfl)
@[simp] theorem State.updRegion_slot (s : State) (g : Nat) (f : RegionSt → RegionSt) (y : Nat) : (s.updRegion g f).slot y = s.slot y := (rfl)
@[simp] theorem State.updRegion_chan (s : State) (g : Nat) (f : RegionSt → RegionSt) (y : Nat) : (s.updRegion g f).chan y = s.chan y := (rfl)
@[simp] theorem State.updRegion_die (s : State) (g : Nat) (f : RegionSt → RegionSt) (y : Nat) : (s.updRegion g f).die y = s.die y := (rfl)
@[simp] theorem State.updRegion_cam (s : State) (g : Nat) (f : RegionSt → RegionSt) (y : Nat) : (s.updRegion g f).cam y = s.cam y := (rfl)
@[simp] theorem State.updRegion_pipe (s : State) (g : Nat) (f : RegionSt → RegionSt) (y : Nat) : (s.updRegion g f).pipe y = s.pipe y := (rfl)
@[simp] theorem State.updRegion_facet (s : State) (g : Nat) (f : RegionSt → RegionSt) (y : Nat) : (s.updRegion g f).facet y = s.facet y := (rfl)
@[simp] theorem State.updRegion_mac (s : State) (g : Nat) (f : RegionSt → RegionSt) (y : Nat) : (s.updRegion g f).mac y = s.mac y := (rfl)
@[simp] theorem State.updRegion_hpath (s : State) (g : Nat) (f : RegionSt → RegionSt) (y : Nat) : (s.updRegion g f).hpath y = s.hpath y := (rfl)
@[simp] theorem State.updRegion_img (s : State) (g : Nat) (f : RegionSt → RegionSt) : (s.updRegion g f).img = s.img := (rfl)
@[simp] theorem State.updRegion_mode (s : State) (g : Nat) (f : RegionSt → RegionSt) : (s.updRegion g f).mode = s.mode := (rfl)
@[simp] theorem State.updRegion_isBench (s : State) (g : Nat) (f : RegionSt → RegionSt) : (s.updRegion g f).isBench = s.isBench := (rfl)
@[simp] theorem State.updRegion_compares (s : State) (g : Nat) (f : RegionSt → RegionSt) : (s.updRegion g f).compares = s.compares := (rfl)
@[simp] theorem State.updRegion_isReplay (s : State) (g : Nat) (f : RegionSt → RegionSt) : (s.updRegion g f).isReplay = s.isReplay := (rfl)
@[simp] theorem State.updRegion_alloc (s : State) (g : Nat) (f : RegionSt → RegionSt) (y : Nat) : (s.updRegion g f).alloc y = s.alloc y := (rfl)
@[simp] theorem State.updRegion_role (s : State) (g : Nat) (f : RegionSt → RegionSt) (y : Nat) : (s.updRegion g f).role y = s.role y := (rfl)
@[simp] theorem State.updRegion_schedule (s : State) (g : Nat) (f : RegionSt → RegionSt) : (s.updRegion g f).schedule = s.schedule := (rfl)
@[simp] theorem State.updRegion_commitTile (s : State) (g : Nat) (f : RegionSt → RegionSt) : (s.updRegion g f).commitTile = s.commitTile := (rfl)
@[simp] theorem State.updRegion_now (s : State) (g : Nat) (f : RegionSt → RegionSt) : (s.updRegion g f).now = s.now := (rfl)
@[simp] theorem State.updRegion_mono (s : State) (g : Nat) (f : RegionSt → RegionSt) : (s.updRegion g f).mono = s.mono := (rfl)
@[simp] theorem State.updRegion_stampAt (s : State) (g : Nat) (f : RegionSt → RegionSt) (x : Instant) : (s.updRegion g f).stampAt x = s.stampAt x := (rfl)
@[simp] theorem State.updRegion_stamp (s : State) (g : Nat) (f : RegionSt → RegionSt) : (s.updRegion g f).stamp = s.stamp := (rfl)
@[simp] theorem State.updRegion_dieNow (s : State) (g : Nat) (f : RegionSt → RegionSt) (y : Nat) : (s.updRegion g f).dieNow y = s.dieNow y := (rfl)
@[simp] theorem State.updRegion_dieStamp (s : State) (g : Nat) (f : RegionSt → RegionSt) (y : Nat) : (s.updRegion g f).dieStamp y = s.dieStamp y := (rfl)
@[simp] theorem State.updRegion_frameNs (s : State) (g : Nat) (f : RegionSt → RegionSt) : (s.updRegion g f).frameNs = s.frameNs := (rfl)
@[simp] theorem State.updRegion_beatNs (s : State) (g : Nat) (f : RegionSt → RegionSt) : (s.updRegion g f).beatNs = s.beatNs := (rfl)
@[simp] theorem State.updRegion_started (s : State) (g : Nat) (f : RegionSt → RegionSt) : (s.updRegion g f).started = s.started := (rfl)
@[simp] theorem State.updRegion_t0 (s : State) (g : Nat) (f : RegionSt → RegionSt) : (s.updRegion g f).t0 = s.t0 := (rfl)
@[simp] theorem State.updRegion_firstBeat (s : State) (g : Nat) (f : RegionSt → RegionSt) (y : Nat) : (s.updRegion g f).firstBeat y = s.firstBeat y := (rfl)
@[simp] theorem State.updRegion_frameOfBeat (s : State) (g : Nat) (f : RegionSt → RegionSt) (y : Nat) : (s.updRegion g f).frameOfBeat y = s.frameOfBeat y := (rfl)
@[simp] theorem State.updRegion_beatStart (s : State) (g : Nat) (f : RegionSt → RegionSt) (y : Nat) : (s.updRegion g f).beatStart y = s.beatStart y := (rfl)
@[simp] theorem State.updRegion_frameStart (s : State) (g : Nat) (f : RegionSt → RegionSt) (y : Nat) : (s.updRegion g f).frameStart y = s.frameStart y := (rfl)
@[simp] theorem State.updRegion_isBoundary (s : State) (g : Nat) (f : RegionSt → RegionSt) (y : Nat) : (s.updRegion g f).isBoundary y = s.isBoundary y := (rfl)
@[simp] theorem State.updRegion_frameAt (s : State) (g : Nat) (f : RegionSt → RegionSt) (x : Instant) : (s.updRegion g f).frameAt x = s.frameAt x := (rfl)
@[simp] theorem State.updRegion_txnDue (s : State) (g : Nat) (f : RegionSt → RegionSt) : (s.updRegion g f).txnDue = s.txnDue := (rfl)
@[simp] theorem State.updRegion_chip (s : State) (g : Nat) (f : RegionSt → RegionSt) : (s.updRegion g f).chip = s.chip := (rfl)
@[simp] theorem State.updRegion_port (s : State) (g : Nat) (f : RegionSt → RegionSt) (y : Nat) : (s.updRegion g f).port y = s.port y := (rfl)

/-! ### updRgnUnit -/

@[simp] theorem State.updRgnUnit_pending (s : State) (g : Nat) (f : UnitSt → UnitSt) : (s.updRgnUnit g f).pending = s.pending := (rfl)
@[simp] theorem State.updRgnUnit_part (s : State) (g : Nat) (f : UnitSt → UnitSt) : (s.updRgnUnit g f).part = s.part := (rfl)
@[simp] theorem State.updRgnUnit_stepping (s : State) (g : Nat) (f : UnitSt → UnitSt) : (s.updRgnUnit g f).stepping = s.stepping := (rfl)
@[simp] theorem State.updRgnUnit_fitted (s : State) (g : Nat) (f : UnitSt → UnitSt) : (s.updRgnUnit g f).fitted = s.fitted := (rfl)
@[simp] theorem State.updRgnUnit_dramRate (s : State) (g : Nat) (f : UnitSt → UnitSt) : (s.updRgnUnit g f).dramRate = s.dramRate := (rfl)
@[simp] theorem State.updRgnUnit_bistOk (s : State) (g : Nat) (f : UnitSt → UnitSt) : (s.updRgnUnit g f).bistOk = s.bistOk := (rfl)
@[simp] theorem State.updRgnUnit_tanexReset (s : State) (g : Nat) (f : UnitSt → UnitSt) : (s.updRgnUnit g f).tanexReset = s.tanexReset := (rfl)
@[simp] theorem State.updRgnUnit_thermTrip (s : State) (g : Nat) (f : UnitSt → UnitSt) : (s.updRgnUnit g f).thermTrip = s.thermTrip := (rfl)
@[simp] theorem State.updRgnUnit_prgSens (s : State) (g : Nat) (f : UnitSt → UnitSt) : (s.updRgnUnit g f).prgSens = s.prgSens := (rfl)
@[simp] theorem State.updRgnUnit_boot (s : State) (g : Nat) (f : UnitSt → UnitSt) : (s.updRgnUnit g f).boot = s.boot := (rfl)
@[simp] theorem State.updRgnUnit_mem (s : State) (g : Nat) (f : UnitSt → UnitSt) : (s.updRgnUnit g f).mem = s.mem := (rfl)
@[simp] theorem State.updRgnUnit_flips (s : State) (g : Nat) (f : UnitSt → UnitSt) : (s.updRgnUnit g f).flips = s.flips := (rfl)
@[simp] theorem State.updRgnUnit_peatDirty (s : State) (g : Nat) (f : UnitSt → UnitSt) : (s.updRgnUnit g f).peatDirty = s.peatDirty := (rfl)
@[simp] theorem State.updRgnUnit_dramDirty (s : State) (g : Nat) (f : UnitSt → UnitSt) : (s.updRgnUnit g f).dramDirty = s.dramDirty := (rfl)
@[simp] theorem State.updRgnUnit_scrubPos (s : State) (g : Nat) (f : UnitSt → UnitSt) : (s.updRgnUnit g f).scrubPos = s.scrubPos := (rfl)
@[simp] theorem State.updRgnUnit_scrubPass (s : State) (g : Nat) (f : UnitSt → UnitSt) : (s.updRgnUnit g f).scrubPass = s.scrubPass := (rfl)
@[simp] theorem State.updRgnUnit_scrubStart (s : State) (g : Nat) (f : UnitSt → UnitSt) : (s.updRgnUnit g f).scrubStart = s.scrubStart := (rfl)
@[simp] theorem State.updRgnUnit_scrubFrom (s : State) (g : Nat) (f : UnitSt → UnitSt) : (s.updRgnUnit g f).scrubFrom = s.scrubFrom := (rfl)
@[simp] theorem State.updRgnUnit_rowsHit (s : State) (g : Nat) (f : UnitSt → UnitSt) : (s.updRgnUnit g f).rowsHit = s.rowsHit := (rfl)
@[simp] theorem State.updRgnUnit_bankCe (s : State) (g : Nat) (f : UnitSt → UnitSt) : (s.updRgnUnit g f).bankCe = s.bankCe := (rfl)
@[simp] theorem State.updRgnUnit_rowTests (s : State) (g : Nat) (f : UnitSt → UnitSt) : (s.updRgnUnit g f).rowTests = s.rowTests := (rfl)
@[simp] theorem State.updRgnUnit_pprDone (s : State) (g : Nat) (f : UnitSt → UnitSt) : (s.updRgnUnit g f).pprDone = s.pprDone := (rfl)
@[simp] theorem State.updRgnUnit_flash (s : State) (g : Nat) (f : UnitSt → UnitSt) : (s.updRgnUnit g f).flash = s.flash := (rfl)
@[simp] theorem State.updRgnUnit_tiles (s : State) (g : Nat) (f : UnitSt → UnitSt) : (s.updRgnUnit g f).tiles = s.tiles := (rfl)
@[simp] theorem State.updRgnUnit_queues (s : State) (g : Nat) (f : UnitSt → UnitSt) : (s.updRgnUnit g f).queues = s.queues := (rfl)
@[simp] theorem State.updRgnUnit_clusters (s : State) (g : Nat) (f : UnitSt → UnitSt) : (s.updRgnUnit g f).clusters = s.clusters := (rfl)
@[simp] theorem State.updRgnUnit_cluUnits (s : State) (g : Nat) (f : UnitSt → UnitSt) : (s.updRgnUnit g f).cluUnits = s.cluUnits := (rfl)
@[simp] theorem State.updRgnUnit_regions (s : State) (g : Nat) (f : UnitSt → UnitSt) : (s.updRgnUnit g f).regions = s.regions := (rfl)
@[simp] theorem State.updRgnUnit_repair (s : State) (g : Nat) (f : UnitSt → UnitSt) : (s.updRgnUnit g f).repair = s.repair := (rfl)
@[simp] theorem State.updRgnUnit_slots (s : State) (g : Nat) (f : UnitSt → UnitSt) : (s.updRgnUnit g f).slots = s.slots := (rfl)
@[simp] theorem State.updRgnUnit_chans (s : State) (g : Nat) (f : UnitSt → UnitSt) : (s.updRgnUnit g f).chans = s.chans := (rfl)
@[simp] theorem State.updRgnUnit_dies (s : State) (g : Nat) (f : UnitSt → UnitSt) : (s.updRgnUnit g f).dies = s.dies := (rfl)
@[simp] theorem State.updRgnUnit_cams (s : State) (g : Nat) (f : UnitSt → UnitSt) : (s.updRgnUnit g f).cams = s.cams := (rfl)
@[simp] theorem State.updRgnUnit_pipes (s : State) (g : Nat) (f : UnitSt → UnitSt) : (s.updRgnUnit g f).pipes = s.pipes := (rfl)
@[simp] theorem State.updRgnUnit_fctx (s : State) (g : Nat) (f : UnitSt → UnitSt) : (s.updRgnUnit g f).fctx = s.fctx := (rfl)
@[simp] theorem State.updRgnUnit_range (s : State) (g : Nat) (f : UnitSt → UnitSt) : (s.updRgnUnit g f).range = s.range := (rfl)
@[simp] theorem State.updRgnUnit_hp (s : State) (g : Nat) (f : UnitSt → UnitSt) : (s.updRgnUnit g f).hp = s.hp := (rfl)
@[simp] theorem State.updRgnUnit_tb (s : State) (g : Nat) (f : UnitSt → UnitSt) : (s.updRgnUnit g f).tb = s.tb := (rfl)
@[simp] theorem State.updRgnUnit_beat (s : State) (g : Nat) (f : UnitSt → UnitSt) : (s.updRgnUnit g f).beat = s.beat := (rfl)
@[simp] theorem State.updRgnUnit_saf (s : State) (g : Nat) (f : UnitSt → UnitSt) : (s.updRgnUnit g f).saf = s.saf := (rfl)
@[simp] theorem State.updRgnUnit_ash (s : State) (g : Nat) (f : UnitSt → UnitSt) : (s.updRgnUnit g f).ash = s.ash := (rfl)
@[simp] theorem State.updRgnUnit_link (s : State) (g : Nat) (f : UnitSt → UnitSt) : (s.updRgnUnit g f).link = s.link := (rfl)
@[simp] theorem State.updRgnUnit_ctx (s : State) (g : Nat) (f : UnitSt → UnitSt) : (s.updRgnUnit g f).ctx = s.ctx := (rfl)
@[simp] theorem State.updRgnUnit_upd (s : State) (g : Nat) (f : UnitSt → UnitSt) : (s.updRgnUnit g f).upd = s.upd := (rfl)
@[simp] theorem State.updRgnUnit_sec (s : State) (g : Nat) (f : UnitSt → UnitSt) : (s.updRgnUnit g f).sec = s.sec := (rfl)
@[simp] theorem State.updRgnUnit_lat (s : State) (g : Nat) (f : UnitSt → UnitSt) : (s.updRgnUnit g f).lat = s.lat := (rfl)
@[simp] theorem State.updRgnUnit_cvu (s : State) (g : Nat) (f : UnitSt → UnitSt) : (s.updRgnUnit g f).cvu = s.cvu := (rfl)
@[simp] theorem State.updRgnUnit_image (s : State) (g : Nat) (f : UnitSt → UnitSt) : (s.updRgnUnit g f).image = s.image := (rfl)
@[simp] theorem State.updRgnUnit_suspects (s : State) (g : Nat) (f : UnitSt → UnitSt) : (s.updRgnUnit g f).suspects = s.suspects := (rfl)
@[simp] theorem State.updRgnUnit_starts (s : State) (g : Nat) (f : UnitSt → UnitSt) : (s.updRgnUnit g f).starts = s.starts := (rfl)
@[simp] theorem State.updRgnUnit_draws (s : State) (g : Nat) (f : UnitSt → UnitSt) : (s.updRgnUnit g f).draws = s.draws := (rfl)
@[simp] theorem State.updRgnUnit_rgnUnit_self (s : State) (g : Nat) (f : UnitSt → UnitSt) : (s.updRgnUnit g f).rgnUnit g = f (s.rgnUnit g) := SMap.get_update_self _ _ _ _
theorem State.updRgnUnit_rgnUnit_ne (s : State) (g : Nat) (f : UnitSt → UnitSt) (k : Nat) (h : k ≠ g) : (s.updRgnUnit g f).rgnUnit k = s.rgnUnit k := SMap.get_update_ne _ _ _ _ _ h
theorem State.updRgnUnit_rgnUnit (s : State) (g : Nat) (f : UnitSt → UnitSt) (k : Nat) : (s.updRgnUnit g f).rgnUnit k = if k = g then f (s.rgnUnit g) else s.rgnUnit k := SMap.get_update _ _ _ _ _
@[simp] theorem State.updRgnUnit_tile (s : State) (g : Nat) (f : UnitSt → UnitSt) (y : Nat) : (s.updRgnUnit g f).tile y = s.tile y := (rfl)
@[simp] theorem State.updRgnUnit_queue (s : State) (g : Nat) (f : UnitSt → UnitSt) (y : Nat) : (s.updRgnUnit g f).queue y = s.queue y := (rfl)
@[simp] theorem State.updRgnUnit_cluster (s : State) (g : Nat) (f : UnitSt → UnitSt) (y : Nat) : (s.updRgnUnit g f).cluster y = s.cluster y := (rfl)
@[simp] theorem State.updRgnUnit_cluUnit (s : State) (g : Nat) (f : UnitSt → UnitSt) (y : Nat) : (s.updRgnUnit g f).cluUnit y = s.cluUnit y := (rfl)
@[simp] theorem State.updRgnUnit_region (s : State) (g : Nat) (f : UnitSt → UnitSt) (y : Nat) : (s.updRgnUnit g f).region y = s.region y := (rfl)
@[simp] theorem State.updRgnUnit_slot (s : State) (g : Nat) (f : UnitSt → UnitSt) (y : Nat) : (s.updRgnUnit g f).slot y = s.slot y := (rfl)
@[simp] theorem State.updRgnUnit_chan (s : State) (g : Nat) (f : UnitSt → UnitSt) (y : Nat) : (s.updRgnUnit g f).chan y = s.chan y := (rfl)
@[simp] theorem State.updRgnUnit_die (s : State) (g : Nat) (f : UnitSt → UnitSt) (y : Nat) : (s.updRgnUnit g f).die y = s.die y := (rfl)
@[simp] theorem State.updRgnUnit_cam (s : State) (g : Nat) (f : UnitSt → UnitSt) (y : Nat) : (s.updRgnUnit g f).cam y = s.cam y := (rfl)
@[simp] theorem State.updRgnUnit_pipe (s : State) (g : Nat) (f : UnitSt → UnitSt) (y : Nat) : (s.updRgnUnit g f).pipe y = s.pipe y := (rfl)
@[simp] theorem State.updRgnUnit_facet (s : State) (g : Nat) (f : UnitSt → UnitSt) (y : Nat) : (s.updRgnUnit g f).facet y = s.facet y := (rfl)
@[simp] theorem State.updRgnUnit_mac (s : State) (g : Nat) (f : UnitSt → UnitSt) (y : Nat) : (s.updRgnUnit g f).mac y = s.mac y := (rfl)
@[simp] theorem State.updRgnUnit_hpath (s : State) (g : Nat) (f : UnitSt → UnitSt) (y : Nat) : (s.updRgnUnit g f).hpath y = s.hpath y := (rfl)
@[simp] theorem State.updRgnUnit_img (s : State) (g : Nat) (f : UnitSt → UnitSt) : (s.updRgnUnit g f).img = s.img := (rfl)
@[simp] theorem State.updRgnUnit_mode (s : State) (g : Nat) (f : UnitSt → UnitSt) : (s.updRgnUnit g f).mode = s.mode := (rfl)
@[simp] theorem State.updRgnUnit_isBench (s : State) (g : Nat) (f : UnitSt → UnitSt) : (s.updRgnUnit g f).isBench = s.isBench := (rfl)
@[simp] theorem State.updRgnUnit_compares (s : State) (g : Nat) (f : UnitSt → UnitSt) : (s.updRgnUnit g f).compares = s.compares := (rfl)
@[simp] theorem State.updRgnUnit_isReplay (s : State) (g : Nat) (f : UnitSt → UnitSt) : (s.updRgnUnit g f).isReplay = s.isReplay := (rfl)
@[simp] theorem State.updRgnUnit_alloc (s : State) (g : Nat) (f : UnitSt → UnitSt) (y : Nat) : (s.updRgnUnit g f).alloc y = s.alloc y := (rfl)
@[simp] theorem State.updRgnUnit_role (s : State) (g : Nat) (f : UnitSt → UnitSt) (y : Nat) : (s.updRgnUnit g f).role y = s.role y := (rfl)
@[simp] theorem State.updRgnUnit_schedule (s : State) (g : Nat) (f : UnitSt → UnitSt) : (s.updRgnUnit g f).schedule = s.schedule := (rfl)
@[simp] theorem State.updRgnUnit_commitTile (s : State) (g : Nat) (f : UnitSt → UnitSt) : (s.updRgnUnit g f).commitTile = s.commitTile := (rfl)
@[simp] theorem State.updRgnUnit_now (s : State) (g : Nat) (f : UnitSt → UnitSt) : (s.updRgnUnit g f).now = s.now := (rfl)
@[simp] theorem State.updRgnUnit_mono (s : State) (g : Nat) (f : UnitSt → UnitSt) : (s.updRgnUnit g f).mono = s.mono := (rfl)
@[simp] theorem State.updRgnUnit_stampAt (s : State) (g : Nat) (f : UnitSt → UnitSt) (x : Instant) : (s.updRgnUnit g f).stampAt x = s.stampAt x := (rfl)
@[simp] theorem State.updRgnUnit_stamp (s : State) (g : Nat) (f : UnitSt → UnitSt) : (s.updRgnUnit g f).stamp = s.stamp := (rfl)
@[simp] theorem State.updRgnUnit_dieNow (s : State) (g : Nat) (f : UnitSt → UnitSt) (y : Nat) : (s.updRgnUnit g f).dieNow y = s.dieNow y := (rfl)
@[simp] theorem State.updRgnUnit_dieStamp (s : State) (g : Nat) (f : UnitSt → UnitSt) (y : Nat) : (s.updRgnUnit g f).dieStamp y = s.dieStamp y := (rfl)
@[simp] theorem State.updRgnUnit_frameNs (s : State) (g : Nat) (f : UnitSt → UnitSt) : (s.updRgnUnit g f).frameNs = s.frameNs := (rfl)
@[simp] theorem State.updRgnUnit_beatNs (s : State) (g : Nat) (f : UnitSt → UnitSt) : (s.updRgnUnit g f).beatNs = s.beatNs := (rfl)
@[simp] theorem State.updRgnUnit_started (s : State) (g : Nat) (f : UnitSt → UnitSt) : (s.updRgnUnit g f).started = s.started := (rfl)
@[simp] theorem State.updRgnUnit_t0 (s : State) (g : Nat) (f : UnitSt → UnitSt) : (s.updRgnUnit g f).t0 = s.t0 := (rfl)
@[simp] theorem State.updRgnUnit_firstBeat (s : State) (g : Nat) (f : UnitSt → UnitSt) (y : Nat) : (s.updRgnUnit g f).firstBeat y = s.firstBeat y := (rfl)
@[simp] theorem State.updRgnUnit_frameOfBeat (s : State) (g : Nat) (f : UnitSt → UnitSt) (y : Nat) : (s.updRgnUnit g f).frameOfBeat y = s.frameOfBeat y := (rfl)
@[simp] theorem State.updRgnUnit_beatStart (s : State) (g : Nat) (f : UnitSt → UnitSt) (y : Nat) : (s.updRgnUnit g f).beatStart y = s.beatStart y := (rfl)
@[simp] theorem State.updRgnUnit_frameStart (s : State) (g : Nat) (f : UnitSt → UnitSt) (y : Nat) : (s.updRgnUnit g f).frameStart y = s.frameStart y := (rfl)
@[simp] theorem State.updRgnUnit_isBoundary (s : State) (g : Nat) (f : UnitSt → UnitSt) (y : Nat) : (s.updRgnUnit g f).isBoundary y = s.isBoundary y := (rfl)
@[simp] theorem State.updRgnUnit_frameAt (s : State) (g : Nat) (f : UnitSt → UnitSt) (x : Instant) : (s.updRgnUnit g f).frameAt x = s.frameAt x := (rfl)
@[simp] theorem State.updRgnUnit_txnDue (s : State) (g : Nat) (f : UnitSt → UnitSt) : (s.updRgnUnit g f).txnDue = s.txnDue := (rfl)
@[simp] theorem State.updRgnUnit_chip (s : State) (g : Nat) (f : UnitSt → UnitSt) : (s.updRgnUnit g f).chip = s.chip := (rfl)
@[simp] theorem State.updRgnUnit_port (s : State) (g : Nat) (f : UnitSt → UnitSt) (y : Nat) : (s.updRgnUnit g f).port y = s.port y := (rfl)

/-! ### updSlot -/

@[simp] theorem State.updSlot_pending (s : State) (p : Nat) (f : SlotSt → SlotSt) : (s.updSlot p f).pending = s.pending := (rfl)
@[simp] theorem State.updSlot_part (s : State) (p : Nat) (f : SlotSt → SlotSt) : (s.updSlot p f).part = s.part := (rfl)
@[simp] theorem State.updSlot_stepping (s : State) (p : Nat) (f : SlotSt → SlotSt) : (s.updSlot p f).stepping = s.stepping := (rfl)
@[simp] theorem State.updSlot_fitted (s : State) (p : Nat) (f : SlotSt → SlotSt) : (s.updSlot p f).fitted = s.fitted := (rfl)
@[simp] theorem State.updSlot_dramRate (s : State) (p : Nat) (f : SlotSt → SlotSt) : (s.updSlot p f).dramRate = s.dramRate := (rfl)
@[simp] theorem State.updSlot_bistOk (s : State) (p : Nat) (f : SlotSt → SlotSt) : (s.updSlot p f).bistOk = s.bistOk := (rfl)
@[simp] theorem State.updSlot_tanexReset (s : State) (p : Nat) (f : SlotSt → SlotSt) : (s.updSlot p f).tanexReset = s.tanexReset := (rfl)
@[simp] theorem State.updSlot_thermTrip (s : State) (p : Nat) (f : SlotSt → SlotSt) : (s.updSlot p f).thermTrip = s.thermTrip := (rfl)
@[simp] theorem State.updSlot_prgSens (s : State) (p : Nat) (f : SlotSt → SlotSt) : (s.updSlot p f).prgSens = s.prgSens := (rfl)
@[simp] theorem State.updSlot_boot (s : State) (p : Nat) (f : SlotSt → SlotSt) : (s.updSlot p f).boot = s.boot := (rfl)
@[simp] theorem State.updSlot_mem (s : State) (p : Nat) (f : SlotSt → SlotSt) : (s.updSlot p f).mem = s.mem := (rfl)
@[simp] theorem State.updSlot_flips (s : State) (p : Nat) (f : SlotSt → SlotSt) : (s.updSlot p f).flips = s.flips := (rfl)
@[simp] theorem State.updSlot_peatDirty (s : State) (p : Nat) (f : SlotSt → SlotSt) : (s.updSlot p f).peatDirty = s.peatDirty := (rfl)
@[simp] theorem State.updSlot_dramDirty (s : State) (p : Nat) (f : SlotSt → SlotSt) : (s.updSlot p f).dramDirty = s.dramDirty := (rfl)
@[simp] theorem State.updSlot_scrubPos (s : State) (p : Nat) (f : SlotSt → SlotSt) : (s.updSlot p f).scrubPos = s.scrubPos := (rfl)
@[simp] theorem State.updSlot_scrubPass (s : State) (p : Nat) (f : SlotSt → SlotSt) : (s.updSlot p f).scrubPass = s.scrubPass := (rfl)
@[simp] theorem State.updSlot_scrubStart (s : State) (p : Nat) (f : SlotSt → SlotSt) : (s.updSlot p f).scrubStart = s.scrubStart := (rfl)
@[simp] theorem State.updSlot_scrubFrom (s : State) (p : Nat) (f : SlotSt → SlotSt) : (s.updSlot p f).scrubFrom = s.scrubFrom := (rfl)
@[simp] theorem State.updSlot_rowsHit (s : State) (p : Nat) (f : SlotSt → SlotSt) : (s.updSlot p f).rowsHit = s.rowsHit := (rfl)
@[simp] theorem State.updSlot_bankCe (s : State) (p : Nat) (f : SlotSt → SlotSt) : (s.updSlot p f).bankCe = s.bankCe := (rfl)
@[simp] theorem State.updSlot_rowTests (s : State) (p : Nat) (f : SlotSt → SlotSt) : (s.updSlot p f).rowTests = s.rowTests := (rfl)
@[simp] theorem State.updSlot_pprDone (s : State) (p : Nat) (f : SlotSt → SlotSt) : (s.updSlot p f).pprDone = s.pprDone := (rfl)
@[simp] theorem State.updSlot_flash (s : State) (p : Nat) (f : SlotSt → SlotSt) : (s.updSlot p f).flash = s.flash := (rfl)
@[simp] theorem State.updSlot_tiles (s : State) (p : Nat) (f : SlotSt → SlotSt) : (s.updSlot p f).tiles = s.tiles := (rfl)
@[simp] theorem State.updSlot_queues (s : State) (p : Nat) (f : SlotSt → SlotSt) : (s.updSlot p f).queues = s.queues := (rfl)
@[simp] theorem State.updSlot_clusters (s : State) (p : Nat) (f : SlotSt → SlotSt) : (s.updSlot p f).clusters = s.clusters := (rfl)
@[simp] theorem State.updSlot_cluUnits (s : State) (p : Nat) (f : SlotSt → SlotSt) : (s.updSlot p f).cluUnits = s.cluUnits := (rfl)
@[simp] theorem State.updSlot_regions (s : State) (p : Nat) (f : SlotSt → SlotSt) : (s.updSlot p f).regions = s.regions := (rfl)
@[simp] theorem State.updSlot_rgnUnits (s : State) (p : Nat) (f : SlotSt → SlotSt) : (s.updSlot p f).rgnUnits = s.rgnUnits := (rfl)
@[simp] theorem State.updSlot_repair (s : State) (p : Nat) (f : SlotSt → SlotSt) : (s.updSlot p f).repair = s.repair := (rfl)
@[simp] theorem State.updSlot_chans (s : State) (p : Nat) (f : SlotSt → SlotSt) : (s.updSlot p f).chans = s.chans := (rfl)
@[simp] theorem State.updSlot_dies (s : State) (p : Nat) (f : SlotSt → SlotSt) : (s.updSlot p f).dies = s.dies := (rfl)
@[simp] theorem State.updSlot_cams (s : State) (p : Nat) (f : SlotSt → SlotSt) : (s.updSlot p f).cams = s.cams := (rfl)
@[simp] theorem State.updSlot_pipes (s : State) (p : Nat) (f : SlotSt → SlotSt) : (s.updSlot p f).pipes = s.pipes := (rfl)
@[simp] theorem State.updSlot_fctx (s : State) (p : Nat) (f : SlotSt → SlotSt) : (s.updSlot p f).fctx = s.fctx := (rfl)
@[simp] theorem State.updSlot_range (s : State) (p : Nat) (f : SlotSt → SlotSt) : (s.updSlot p f).range = s.range := (rfl)
@[simp] theorem State.updSlot_hp (s : State) (p : Nat) (f : SlotSt → SlotSt) : (s.updSlot p f).hp = s.hp := (rfl)
@[simp] theorem State.updSlot_tb (s : State) (p : Nat) (f : SlotSt → SlotSt) : (s.updSlot p f).tb = s.tb := (rfl)
@[simp] theorem State.updSlot_beat (s : State) (p : Nat) (f : SlotSt → SlotSt) : (s.updSlot p f).beat = s.beat := (rfl)
@[simp] theorem State.updSlot_saf (s : State) (p : Nat) (f : SlotSt → SlotSt) : (s.updSlot p f).saf = s.saf := (rfl)
@[simp] theorem State.updSlot_ash (s : State) (p : Nat) (f : SlotSt → SlotSt) : (s.updSlot p f).ash = s.ash := (rfl)
@[simp] theorem State.updSlot_link (s : State) (p : Nat) (f : SlotSt → SlotSt) : (s.updSlot p f).link = s.link := (rfl)
@[simp] theorem State.updSlot_ctx (s : State) (p : Nat) (f : SlotSt → SlotSt) : (s.updSlot p f).ctx = s.ctx := (rfl)
@[simp] theorem State.updSlot_upd (s : State) (p : Nat) (f : SlotSt → SlotSt) : (s.updSlot p f).upd = s.upd := (rfl)
@[simp] theorem State.updSlot_sec (s : State) (p : Nat) (f : SlotSt → SlotSt) : (s.updSlot p f).sec = s.sec := (rfl)
@[simp] theorem State.updSlot_lat (s : State) (p : Nat) (f : SlotSt → SlotSt) : (s.updSlot p f).lat = s.lat := (rfl)
@[simp] theorem State.updSlot_cvu (s : State) (p : Nat) (f : SlotSt → SlotSt) : (s.updSlot p f).cvu = s.cvu := (rfl)
@[simp] theorem State.updSlot_image (s : State) (p : Nat) (f : SlotSt → SlotSt) : (s.updSlot p f).image = s.image := (rfl)
@[simp] theorem State.updSlot_suspects (s : State) (p : Nat) (f : SlotSt → SlotSt) : (s.updSlot p f).suspects = s.suspects := (rfl)
@[simp] theorem State.updSlot_starts (s : State) (p : Nat) (f : SlotSt → SlotSt) : (s.updSlot p f).starts = s.starts := (rfl)
@[simp] theorem State.updSlot_draws (s : State) (p : Nat) (f : SlotSt → SlotSt) : (s.updSlot p f).draws = s.draws := (rfl)
@[simp] theorem State.updSlot_slot_self (s : State) (p : Nat) (f : SlotSt → SlotSt) : (s.updSlot p f).slot p = f (s.slot p) := SMap.get_update_self _ _ _ _
theorem State.updSlot_slot_ne (s : State) (p : Nat) (f : SlotSt → SlotSt) (k : Nat) (h : k ≠ p) : (s.updSlot p f).slot k = s.slot k := SMap.get_update_ne _ _ _ _ _ h
theorem State.updSlot_slot (s : State) (p : Nat) (f : SlotSt → SlotSt) (k : Nat) : (s.updSlot p f).slot k = if k = p then f (s.slot p) else s.slot k := SMap.get_update _ _ _ _ _
@[simp] theorem State.updSlot_tile (s : State) (p : Nat) (f : SlotSt → SlotSt) (y : Nat) : (s.updSlot p f).tile y = s.tile y := (rfl)
@[simp] theorem State.updSlot_queue (s : State) (p : Nat) (f : SlotSt → SlotSt) (y : Nat) : (s.updSlot p f).queue y = s.queue y := (rfl)
@[simp] theorem State.updSlot_cluster (s : State) (p : Nat) (f : SlotSt → SlotSt) (y : Nat) : (s.updSlot p f).cluster y = s.cluster y := (rfl)
@[simp] theorem State.updSlot_cluUnit (s : State) (p : Nat) (f : SlotSt → SlotSt) (y : Nat) : (s.updSlot p f).cluUnit y = s.cluUnit y := (rfl)
@[simp] theorem State.updSlot_region (s : State) (p : Nat) (f : SlotSt → SlotSt) (y : Nat) : (s.updSlot p f).region y = s.region y := (rfl)
@[simp] theorem State.updSlot_rgnUnit (s : State) (p : Nat) (f : SlotSt → SlotSt) (y : Nat) : (s.updSlot p f).rgnUnit y = s.rgnUnit y := (rfl)
@[simp] theorem State.updSlot_chan (s : State) (p : Nat) (f : SlotSt → SlotSt) (y : Nat) : (s.updSlot p f).chan y = s.chan y := (rfl)
@[simp] theorem State.updSlot_die (s : State) (p : Nat) (f : SlotSt → SlotSt) (y : Nat) : (s.updSlot p f).die y = s.die y := (rfl)
@[simp] theorem State.updSlot_cam (s : State) (p : Nat) (f : SlotSt → SlotSt) (y : Nat) : (s.updSlot p f).cam y = s.cam y := (rfl)
@[simp] theorem State.updSlot_pipe (s : State) (p : Nat) (f : SlotSt → SlotSt) (y : Nat) : (s.updSlot p f).pipe y = s.pipe y := (rfl)
@[simp] theorem State.updSlot_facet (s : State) (p : Nat) (f : SlotSt → SlotSt) (y : Nat) : (s.updSlot p f).facet y = s.facet y := (rfl)
@[simp] theorem State.updSlot_mac (s : State) (p : Nat) (f : SlotSt → SlotSt) (y : Nat) : (s.updSlot p f).mac y = s.mac y := (rfl)
@[simp] theorem State.updSlot_hpath (s : State) (p : Nat) (f : SlotSt → SlotSt) (y : Nat) : (s.updSlot p f).hpath y = s.hpath y := (rfl)
@[simp] theorem State.updSlot_img (s : State) (p : Nat) (f : SlotSt → SlotSt) : (s.updSlot p f).img = s.img := (rfl)
@[simp] theorem State.updSlot_mode (s : State) (p : Nat) (f : SlotSt → SlotSt) : (s.updSlot p f).mode = s.mode := (rfl)
@[simp] theorem State.updSlot_isBench (s : State) (p : Nat) (f : SlotSt → SlotSt) : (s.updSlot p f).isBench = s.isBench := (rfl)
@[simp] theorem State.updSlot_compares (s : State) (p : Nat) (f : SlotSt → SlotSt) : (s.updSlot p f).compares = s.compares := (rfl)
@[simp] theorem State.updSlot_isReplay (s : State) (p : Nat) (f : SlotSt → SlotSt) : (s.updSlot p f).isReplay = s.isReplay := (rfl)
@[simp] theorem State.updSlot_alloc (s : State) (p : Nat) (f : SlotSt → SlotSt) (y : Nat) : (s.updSlot p f).alloc y = s.alloc y := (rfl)
@[simp] theorem State.updSlot_role (s : State) (p : Nat) (f : SlotSt → SlotSt) (y : Nat) : (s.updSlot p f).role y = s.role y := (rfl)
@[simp] theorem State.updSlot_schedule (s : State) (p : Nat) (f : SlotSt → SlotSt) : (s.updSlot p f).schedule = s.schedule := (rfl)
@[simp] theorem State.updSlot_commitTile (s : State) (p : Nat) (f : SlotSt → SlotSt) : (s.updSlot p f).commitTile = s.commitTile := (rfl)
@[simp] theorem State.updSlot_now (s : State) (p : Nat) (f : SlotSt → SlotSt) : (s.updSlot p f).now = s.now := (rfl)
@[simp] theorem State.updSlot_mono (s : State) (p : Nat) (f : SlotSt → SlotSt) : (s.updSlot p f).mono = s.mono := (rfl)
@[simp] theorem State.updSlot_stampAt (s : State) (p : Nat) (f : SlotSt → SlotSt) (x : Instant) : (s.updSlot p f).stampAt x = s.stampAt x := (rfl)
@[simp] theorem State.updSlot_stamp (s : State) (p : Nat) (f : SlotSt → SlotSt) : (s.updSlot p f).stamp = s.stamp := (rfl)
@[simp] theorem State.updSlot_dieNow (s : State) (p : Nat) (f : SlotSt → SlotSt) (y : Nat) : (s.updSlot p f).dieNow y = s.dieNow y := (rfl)
@[simp] theorem State.updSlot_dieStamp (s : State) (p : Nat) (f : SlotSt → SlotSt) (y : Nat) : (s.updSlot p f).dieStamp y = s.dieStamp y := (rfl)
@[simp] theorem State.updSlot_frameNs (s : State) (p : Nat) (f : SlotSt → SlotSt) : (s.updSlot p f).frameNs = s.frameNs := (rfl)
@[simp] theorem State.updSlot_beatNs (s : State) (p : Nat) (f : SlotSt → SlotSt) : (s.updSlot p f).beatNs = s.beatNs := (rfl)
@[simp] theorem State.updSlot_started (s : State) (p : Nat) (f : SlotSt → SlotSt) : (s.updSlot p f).started = s.started := (rfl)
@[simp] theorem State.updSlot_t0 (s : State) (p : Nat) (f : SlotSt → SlotSt) : (s.updSlot p f).t0 = s.t0 := (rfl)
@[simp] theorem State.updSlot_firstBeat (s : State) (p : Nat) (f : SlotSt → SlotSt) (y : Nat) : (s.updSlot p f).firstBeat y = s.firstBeat y := (rfl)
@[simp] theorem State.updSlot_frameOfBeat (s : State) (p : Nat) (f : SlotSt → SlotSt) (y : Nat) : (s.updSlot p f).frameOfBeat y = s.frameOfBeat y := (rfl)
@[simp] theorem State.updSlot_beatStart (s : State) (p : Nat) (f : SlotSt → SlotSt) (y : Nat) : (s.updSlot p f).beatStart y = s.beatStart y := (rfl)
@[simp] theorem State.updSlot_frameStart (s : State) (p : Nat) (f : SlotSt → SlotSt) (y : Nat) : (s.updSlot p f).frameStart y = s.frameStart y := (rfl)
@[simp] theorem State.updSlot_isBoundary (s : State) (p : Nat) (f : SlotSt → SlotSt) (y : Nat) : (s.updSlot p f).isBoundary y = s.isBoundary y := (rfl)
@[simp] theorem State.updSlot_frameAt (s : State) (p : Nat) (f : SlotSt → SlotSt) (x : Instant) : (s.updSlot p f).frameAt x = s.frameAt x := (rfl)
@[simp] theorem State.updSlot_txnDue (s : State) (p : Nat) (f : SlotSt → SlotSt) : (s.updSlot p f).txnDue = s.txnDue := (rfl)
@[simp] theorem State.updSlot_chip (s : State) (p : Nat) (f : SlotSt → SlotSt) : (s.updSlot p f).chip = s.chip := (rfl)
@[simp] theorem State.updSlot_port (s : State) (p : Nat) (f : SlotSt → SlotSt) (y : Nat) : (s.updSlot p f).port y = s.port y := (rfl)

/-! ### updChan -/

@[simp] theorem State.updChan_pending (s : State) (c : Nat) (f : ChanSt → ChanSt) : (s.updChan c f).pending = s.pending := (rfl)
@[simp] theorem State.updChan_part (s : State) (c : Nat) (f : ChanSt → ChanSt) : (s.updChan c f).part = s.part := (rfl)
@[simp] theorem State.updChan_stepping (s : State) (c : Nat) (f : ChanSt → ChanSt) : (s.updChan c f).stepping = s.stepping := (rfl)
@[simp] theorem State.updChan_fitted (s : State) (c : Nat) (f : ChanSt → ChanSt) : (s.updChan c f).fitted = s.fitted := (rfl)
@[simp] theorem State.updChan_dramRate (s : State) (c : Nat) (f : ChanSt → ChanSt) : (s.updChan c f).dramRate = s.dramRate := (rfl)
@[simp] theorem State.updChan_bistOk (s : State) (c : Nat) (f : ChanSt → ChanSt) : (s.updChan c f).bistOk = s.bistOk := (rfl)
@[simp] theorem State.updChan_tanexReset (s : State) (c : Nat) (f : ChanSt → ChanSt) : (s.updChan c f).tanexReset = s.tanexReset := (rfl)
@[simp] theorem State.updChan_thermTrip (s : State) (c : Nat) (f : ChanSt → ChanSt) : (s.updChan c f).thermTrip = s.thermTrip := (rfl)
@[simp] theorem State.updChan_prgSens (s : State) (c : Nat) (f : ChanSt → ChanSt) : (s.updChan c f).prgSens = s.prgSens := (rfl)
@[simp] theorem State.updChan_boot (s : State) (c : Nat) (f : ChanSt → ChanSt) : (s.updChan c f).boot = s.boot := (rfl)
@[simp] theorem State.updChan_mem (s : State) (c : Nat) (f : ChanSt → ChanSt) : (s.updChan c f).mem = s.mem := (rfl)
@[simp] theorem State.updChan_flips (s : State) (c : Nat) (f : ChanSt → ChanSt) : (s.updChan c f).flips = s.flips := (rfl)
@[simp] theorem State.updChan_peatDirty (s : State) (c : Nat) (f : ChanSt → ChanSt) : (s.updChan c f).peatDirty = s.peatDirty := (rfl)
@[simp] theorem State.updChan_dramDirty (s : State) (c : Nat) (f : ChanSt → ChanSt) : (s.updChan c f).dramDirty = s.dramDirty := (rfl)
@[simp] theorem State.updChan_scrubPos (s : State) (c : Nat) (f : ChanSt → ChanSt) : (s.updChan c f).scrubPos = s.scrubPos := (rfl)
@[simp] theorem State.updChan_scrubPass (s : State) (c : Nat) (f : ChanSt → ChanSt) : (s.updChan c f).scrubPass = s.scrubPass := (rfl)
@[simp] theorem State.updChan_scrubStart (s : State) (c : Nat) (f : ChanSt → ChanSt) : (s.updChan c f).scrubStart = s.scrubStart := (rfl)
@[simp] theorem State.updChan_scrubFrom (s : State) (c : Nat) (f : ChanSt → ChanSt) : (s.updChan c f).scrubFrom = s.scrubFrom := (rfl)
@[simp] theorem State.updChan_rowsHit (s : State) (c : Nat) (f : ChanSt → ChanSt) : (s.updChan c f).rowsHit = s.rowsHit := (rfl)
@[simp] theorem State.updChan_bankCe (s : State) (c : Nat) (f : ChanSt → ChanSt) : (s.updChan c f).bankCe = s.bankCe := (rfl)
@[simp] theorem State.updChan_rowTests (s : State) (c : Nat) (f : ChanSt → ChanSt) : (s.updChan c f).rowTests = s.rowTests := (rfl)
@[simp] theorem State.updChan_pprDone (s : State) (c : Nat) (f : ChanSt → ChanSt) : (s.updChan c f).pprDone = s.pprDone := (rfl)
@[simp] theorem State.updChan_flash (s : State) (c : Nat) (f : ChanSt → ChanSt) : (s.updChan c f).flash = s.flash := (rfl)
@[simp] theorem State.updChan_tiles (s : State) (c : Nat) (f : ChanSt → ChanSt) : (s.updChan c f).tiles = s.tiles := (rfl)
@[simp] theorem State.updChan_queues (s : State) (c : Nat) (f : ChanSt → ChanSt) : (s.updChan c f).queues = s.queues := (rfl)
@[simp] theorem State.updChan_clusters (s : State) (c : Nat) (f : ChanSt → ChanSt) : (s.updChan c f).clusters = s.clusters := (rfl)
@[simp] theorem State.updChan_cluUnits (s : State) (c : Nat) (f : ChanSt → ChanSt) : (s.updChan c f).cluUnits = s.cluUnits := (rfl)
@[simp] theorem State.updChan_regions (s : State) (c : Nat) (f : ChanSt → ChanSt) : (s.updChan c f).regions = s.regions := (rfl)
@[simp] theorem State.updChan_rgnUnits (s : State) (c : Nat) (f : ChanSt → ChanSt) : (s.updChan c f).rgnUnits = s.rgnUnits := (rfl)
@[simp] theorem State.updChan_repair (s : State) (c : Nat) (f : ChanSt → ChanSt) : (s.updChan c f).repair = s.repair := (rfl)
@[simp] theorem State.updChan_slots (s : State) (c : Nat) (f : ChanSt → ChanSt) : (s.updChan c f).slots = s.slots := (rfl)
@[simp] theorem State.updChan_dies (s : State) (c : Nat) (f : ChanSt → ChanSt) : (s.updChan c f).dies = s.dies := (rfl)
@[simp] theorem State.updChan_cams (s : State) (c : Nat) (f : ChanSt → ChanSt) : (s.updChan c f).cams = s.cams := (rfl)
@[simp] theorem State.updChan_pipes (s : State) (c : Nat) (f : ChanSt → ChanSt) : (s.updChan c f).pipes = s.pipes := (rfl)
@[simp] theorem State.updChan_fctx (s : State) (c : Nat) (f : ChanSt → ChanSt) : (s.updChan c f).fctx = s.fctx := (rfl)
@[simp] theorem State.updChan_range (s : State) (c : Nat) (f : ChanSt → ChanSt) : (s.updChan c f).range = s.range := (rfl)
@[simp] theorem State.updChan_hp (s : State) (c : Nat) (f : ChanSt → ChanSt) : (s.updChan c f).hp = s.hp := (rfl)
@[simp] theorem State.updChan_tb (s : State) (c : Nat) (f : ChanSt → ChanSt) : (s.updChan c f).tb = s.tb := (rfl)
@[simp] theorem State.updChan_beat (s : State) (c : Nat) (f : ChanSt → ChanSt) : (s.updChan c f).beat = s.beat := (rfl)
@[simp] theorem State.updChan_saf (s : State) (c : Nat) (f : ChanSt → ChanSt) : (s.updChan c f).saf = s.saf := (rfl)
@[simp] theorem State.updChan_ash (s : State) (c : Nat) (f : ChanSt → ChanSt) : (s.updChan c f).ash = s.ash := (rfl)
@[simp] theorem State.updChan_link (s : State) (c : Nat) (f : ChanSt → ChanSt) : (s.updChan c f).link = s.link := (rfl)
@[simp] theorem State.updChan_ctx (s : State) (c : Nat) (f : ChanSt → ChanSt) : (s.updChan c f).ctx = s.ctx := (rfl)
@[simp] theorem State.updChan_upd (s : State) (c : Nat) (f : ChanSt → ChanSt) : (s.updChan c f).upd = s.upd := (rfl)
@[simp] theorem State.updChan_sec (s : State) (c : Nat) (f : ChanSt → ChanSt) : (s.updChan c f).sec = s.sec := (rfl)
@[simp] theorem State.updChan_lat (s : State) (c : Nat) (f : ChanSt → ChanSt) : (s.updChan c f).lat = s.lat := (rfl)
@[simp] theorem State.updChan_cvu (s : State) (c : Nat) (f : ChanSt → ChanSt) : (s.updChan c f).cvu = s.cvu := (rfl)
@[simp] theorem State.updChan_image (s : State) (c : Nat) (f : ChanSt → ChanSt) : (s.updChan c f).image = s.image := (rfl)
@[simp] theorem State.updChan_suspects (s : State) (c : Nat) (f : ChanSt → ChanSt) : (s.updChan c f).suspects = s.suspects := (rfl)
@[simp] theorem State.updChan_starts (s : State) (c : Nat) (f : ChanSt → ChanSt) : (s.updChan c f).starts = s.starts := (rfl)
@[simp] theorem State.updChan_draws (s : State) (c : Nat) (f : ChanSt → ChanSt) : (s.updChan c f).draws = s.draws := (rfl)
@[simp] theorem State.updChan_chan_self (s : State) (c : Nat) (f : ChanSt → ChanSt) : (s.updChan c f).chan c = f (s.chan c) := SMap.get_update_self _ _ _ _
theorem State.updChan_chan_ne (s : State) (c : Nat) (f : ChanSt → ChanSt) (k : Nat) (h : k ≠ c) : (s.updChan c f).chan k = s.chan k := SMap.get_update_ne _ _ _ _ _ h
theorem State.updChan_chan (s : State) (c : Nat) (f : ChanSt → ChanSt) (k : Nat) : (s.updChan c f).chan k = if k = c then f (s.chan c) else s.chan k := SMap.get_update _ _ _ _ _
@[simp] theorem State.updChan_tile (s : State) (c : Nat) (f : ChanSt → ChanSt) (y : Nat) : (s.updChan c f).tile y = s.tile y := (rfl)
@[simp] theorem State.updChan_queue (s : State) (c : Nat) (f : ChanSt → ChanSt) (y : Nat) : (s.updChan c f).queue y = s.queue y := (rfl)
@[simp] theorem State.updChan_cluster (s : State) (c : Nat) (f : ChanSt → ChanSt) (y : Nat) : (s.updChan c f).cluster y = s.cluster y := (rfl)
@[simp] theorem State.updChan_cluUnit (s : State) (c : Nat) (f : ChanSt → ChanSt) (y : Nat) : (s.updChan c f).cluUnit y = s.cluUnit y := (rfl)
@[simp] theorem State.updChan_region (s : State) (c : Nat) (f : ChanSt → ChanSt) (y : Nat) : (s.updChan c f).region y = s.region y := (rfl)
@[simp] theorem State.updChan_rgnUnit (s : State) (c : Nat) (f : ChanSt → ChanSt) (y : Nat) : (s.updChan c f).rgnUnit y = s.rgnUnit y := (rfl)
@[simp] theorem State.updChan_slot (s : State) (c : Nat) (f : ChanSt → ChanSt) (y : Nat) : (s.updChan c f).slot y = s.slot y := (rfl)
@[simp] theorem State.updChan_die (s : State) (c : Nat) (f : ChanSt → ChanSt) (y : Nat) : (s.updChan c f).die y = s.die y := (rfl)
@[simp] theorem State.updChan_cam (s : State) (c : Nat) (f : ChanSt → ChanSt) (y : Nat) : (s.updChan c f).cam y = s.cam y := (rfl)
@[simp] theorem State.updChan_pipe (s : State) (c : Nat) (f : ChanSt → ChanSt) (y : Nat) : (s.updChan c f).pipe y = s.pipe y := (rfl)
@[simp] theorem State.updChan_facet (s : State) (c : Nat) (f : ChanSt → ChanSt) (y : Nat) : (s.updChan c f).facet y = s.facet y := (rfl)
@[simp] theorem State.updChan_mac (s : State) (c : Nat) (f : ChanSt → ChanSt) (y : Nat) : (s.updChan c f).mac y = s.mac y := (rfl)
@[simp] theorem State.updChan_hpath (s : State) (c : Nat) (f : ChanSt → ChanSt) (y : Nat) : (s.updChan c f).hpath y = s.hpath y := (rfl)
@[simp] theorem State.updChan_img (s : State) (c : Nat) (f : ChanSt → ChanSt) : (s.updChan c f).img = s.img := (rfl)
@[simp] theorem State.updChan_mode (s : State) (c : Nat) (f : ChanSt → ChanSt) : (s.updChan c f).mode = s.mode := (rfl)
@[simp] theorem State.updChan_isBench (s : State) (c : Nat) (f : ChanSt → ChanSt) : (s.updChan c f).isBench = s.isBench := (rfl)
@[simp] theorem State.updChan_compares (s : State) (c : Nat) (f : ChanSt → ChanSt) : (s.updChan c f).compares = s.compares := (rfl)
@[simp] theorem State.updChan_isReplay (s : State) (c : Nat) (f : ChanSt → ChanSt) : (s.updChan c f).isReplay = s.isReplay := (rfl)
@[simp] theorem State.updChan_alloc (s : State) (c : Nat) (f : ChanSt → ChanSt) (y : Nat) : (s.updChan c f).alloc y = s.alloc y := (rfl)
@[simp] theorem State.updChan_role (s : State) (c : Nat) (f : ChanSt → ChanSt) (y : Nat) : (s.updChan c f).role y = s.role y := (rfl)
@[simp] theorem State.updChan_schedule (s : State) (c : Nat) (f : ChanSt → ChanSt) : (s.updChan c f).schedule = s.schedule := (rfl)
@[simp] theorem State.updChan_commitTile (s : State) (c : Nat) (f : ChanSt → ChanSt) : (s.updChan c f).commitTile = s.commitTile := (rfl)
@[simp] theorem State.updChan_now (s : State) (c : Nat) (f : ChanSt → ChanSt) : (s.updChan c f).now = s.now := (rfl)
@[simp] theorem State.updChan_mono (s : State) (c : Nat) (f : ChanSt → ChanSt) : (s.updChan c f).mono = s.mono := (rfl)
@[simp] theorem State.updChan_stampAt (s : State) (c : Nat) (f : ChanSt → ChanSt) (x : Instant) : (s.updChan c f).stampAt x = s.stampAt x := (rfl)
@[simp] theorem State.updChan_stamp (s : State) (c : Nat) (f : ChanSt → ChanSt) : (s.updChan c f).stamp = s.stamp := (rfl)
@[simp] theorem State.updChan_dieNow (s : State) (c : Nat) (f : ChanSt → ChanSt) (y : Nat) : (s.updChan c f).dieNow y = s.dieNow y := (rfl)
@[simp] theorem State.updChan_dieStamp (s : State) (c : Nat) (f : ChanSt → ChanSt) (y : Nat) : (s.updChan c f).dieStamp y = s.dieStamp y := (rfl)
@[simp] theorem State.updChan_frameNs (s : State) (c : Nat) (f : ChanSt → ChanSt) : (s.updChan c f).frameNs = s.frameNs := (rfl)
@[simp] theorem State.updChan_beatNs (s : State) (c : Nat) (f : ChanSt → ChanSt) : (s.updChan c f).beatNs = s.beatNs := (rfl)
@[simp] theorem State.updChan_started (s : State) (c : Nat) (f : ChanSt → ChanSt) : (s.updChan c f).started = s.started := (rfl)
@[simp] theorem State.updChan_t0 (s : State) (c : Nat) (f : ChanSt → ChanSt) : (s.updChan c f).t0 = s.t0 := (rfl)
@[simp] theorem State.updChan_firstBeat (s : State) (c : Nat) (f : ChanSt → ChanSt) (y : Nat) : (s.updChan c f).firstBeat y = s.firstBeat y := (rfl)
@[simp] theorem State.updChan_frameOfBeat (s : State) (c : Nat) (f : ChanSt → ChanSt) (y : Nat) : (s.updChan c f).frameOfBeat y = s.frameOfBeat y := (rfl)
@[simp] theorem State.updChan_beatStart (s : State) (c : Nat) (f : ChanSt → ChanSt) (y : Nat) : (s.updChan c f).beatStart y = s.beatStart y := (rfl)
@[simp] theorem State.updChan_frameStart (s : State) (c : Nat) (f : ChanSt → ChanSt) (y : Nat) : (s.updChan c f).frameStart y = s.frameStart y := (rfl)
@[simp] theorem State.updChan_isBoundary (s : State) (c : Nat) (f : ChanSt → ChanSt) (y : Nat) : (s.updChan c f).isBoundary y = s.isBoundary y := (rfl)
@[simp] theorem State.updChan_frameAt (s : State) (c : Nat) (f : ChanSt → ChanSt) (x : Instant) : (s.updChan c f).frameAt x = s.frameAt x := (rfl)
@[simp] theorem State.updChan_txnDue (s : State) (c : Nat) (f : ChanSt → ChanSt) : (s.updChan c f).txnDue = s.txnDue := (rfl)
@[simp] theorem State.updChan_chip (s : State) (c : Nat) (f : ChanSt → ChanSt) : (s.updChan c f).chip = s.chip := (rfl)
@[simp] theorem State.updChan_port (s : State) (c : Nat) (f : ChanSt → ChanSt) (y : Nat) : (s.updChan c f).port y = s.port y := (rfl)

/-! ### updDie -/

@[simp] theorem State.updDie_pending (s : State) (d : Nat) (f : DieSt → DieSt) : (s.updDie d f).pending = s.pending := (rfl)
@[simp] theorem State.updDie_part (s : State) (d : Nat) (f : DieSt → DieSt) : (s.updDie d f).part = s.part := (rfl)
@[simp] theorem State.updDie_stepping (s : State) (d : Nat) (f : DieSt → DieSt) : (s.updDie d f).stepping = s.stepping := (rfl)
@[simp] theorem State.updDie_fitted (s : State) (d : Nat) (f : DieSt → DieSt) : (s.updDie d f).fitted = s.fitted := (rfl)
@[simp] theorem State.updDie_dramRate (s : State) (d : Nat) (f : DieSt → DieSt) : (s.updDie d f).dramRate = s.dramRate := (rfl)
@[simp] theorem State.updDie_bistOk (s : State) (d : Nat) (f : DieSt → DieSt) : (s.updDie d f).bistOk = s.bistOk := (rfl)
@[simp] theorem State.updDie_tanexReset (s : State) (d : Nat) (f : DieSt → DieSt) : (s.updDie d f).tanexReset = s.tanexReset := (rfl)
@[simp] theorem State.updDie_thermTrip (s : State) (d : Nat) (f : DieSt → DieSt) : (s.updDie d f).thermTrip = s.thermTrip := (rfl)
@[simp] theorem State.updDie_prgSens (s : State) (d : Nat) (f : DieSt → DieSt) : (s.updDie d f).prgSens = s.prgSens := (rfl)
@[simp] theorem State.updDie_boot (s : State) (d : Nat) (f : DieSt → DieSt) : (s.updDie d f).boot = s.boot := (rfl)
@[simp] theorem State.updDie_mem (s : State) (d : Nat) (f : DieSt → DieSt) : (s.updDie d f).mem = s.mem := (rfl)
@[simp] theorem State.updDie_flips (s : State) (d : Nat) (f : DieSt → DieSt) : (s.updDie d f).flips = s.flips := (rfl)
@[simp] theorem State.updDie_peatDirty (s : State) (d : Nat) (f : DieSt → DieSt) : (s.updDie d f).peatDirty = s.peatDirty := (rfl)
@[simp] theorem State.updDie_dramDirty (s : State) (d : Nat) (f : DieSt → DieSt) : (s.updDie d f).dramDirty = s.dramDirty := (rfl)
@[simp] theorem State.updDie_scrubPos (s : State) (d : Nat) (f : DieSt → DieSt) : (s.updDie d f).scrubPos = s.scrubPos := (rfl)
@[simp] theorem State.updDie_scrubPass (s : State) (d : Nat) (f : DieSt → DieSt) : (s.updDie d f).scrubPass = s.scrubPass := (rfl)
@[simp] theorem State.updDie_scrubStart (s : State) (d : Nat) (f : DieSt → DieSt) : (s.updDie d f).scrubStart = s.scrubStart := (rfl)
@[simp] theorem State.updDie_scrubFrom (s : State) (d : Nat) (f : DieSt → DieSt) : (s.updDie d f).scrubFrom = s.scrubFrom := (rfl)
@[simp] theorem State.updDie_rowsHit (s : State) (d : Nat) (f : DieSt → DieSt) : (s.updDie d f).rowsHit = s.rowsHit := (rfl)
@[simp] theorem State.updDie_bankCe (s : State) (d : Nat) (f : DieSt → DieSt) : (s.updDie d f).bankCe = s.bankCe := (rfl)
@[simp] theorem State.updDie_rowTests (s : State) (d : Nat) (f : DieSt → DieSt) : (s.updDie d f).rowTests = s.rowTests := (rfl)
@[simp] theorem State.updDie_pprDone (s : State) (d : Nat) (f : DieSt → DieSt) : (s.updDie d f).pprDone = s.pprDone := (rfl)
@[simp] theorem State.updDie_flash (s : State) (d : Nat) (f : DieSt → DieSt) : (s.updDie d f).flash = s.flash := (rfl)
@[simp] theorem State.updDie_tiles (s : State) (d : Nat) (f : DieSt → DieSt) : (s.updDie d f).tiles = s.tiles := (rfl)
@[simp] theorem State.updDie_queues (s : State) (d : Nat) (f : DieSt → DieSt) : (s.updDie d f).queues = s.queues := (rfl)
@[simp] theorem State.updDie_clusters (s : State) (d : Nat) (f : DieSt → DieSt) : (s.updDie d f).clusters = s.clusters := (rfl)
@[simp] theorem State.updDie_cluUnits (s : State) (d : Nat) (f : DieSt → DieSt) : (s.updDie d f).cluUnits = s.cluUnits := (rfl)
@[simp] theorem State.updDie_regions (s : State) (d : Nat) (f : DieSt → DieSt) : (s.updDie d f).regions = s.regions := (rfl)
@[simp] theorem State.updDie_rgnUnits (s : State) (d : Nat) (f : DieSt → DieSt) : (s.updDie d f).rgnUnits = s.rgnUnits := (rfl)
@[simp] theorem State.updDie_repair (s : State) (d : Nat) (f : DieSt → DieSt) : (s.updDie d f).repair = s.repair := (rfl)
@[simp] theorem State.updDie_slots (s : State) (d : Nat) (f : DieSt → DieSt) : (s.updDie d f).slots = s.slots := (rfl)
@[simp] theorem State.updDie_chans (s : State) (d : Nat) (f : DieSt → DieSt) : (s.updDie d f).chans = s.chans := (rfl)
@[simp] theorem State.updDie_cams (s : State) (d : Nat) (f : DieSt → DieSt) : (s.updDie d f).cams = s.cams := (rfl)
@[simp] theorem State.updDie_pipes (s : State) (d : Nat) (f : DieSt → DieSt) : (s.updDie d f).pipes = s.pipes := (rfl)
@[simp] theorem State.updDie_fctx (s : State) (d : Nat) (f : DieSt → DieSt) : (s.updDie d f).fctx = s.fctx := (rfl)
@[simp] theorem State.updDie_range (s : State) (d : Nat) (f : DieSt → DieSt) : (s.updDie d f).range = s.range := (rfl)
@[simp] theorem State.updDie_hp (s : State) (d : Nat) (f : DieSt → DieSt) : (s.updDie d f).hp = s.hp := (rfl)
@[simp] theorem State.updDie_tb (s : State) (d : Nat) (f : DieSt → DieSt) : (s.updDie d f).tb = s.tb := (rfl)
@[simp] theorem State.updDie_beat (s : State) (d : Nat) (f : DieSt → DieSt) : (s.updDie d f).beat = s.beat := (rfl)
@[simp] theorem State.updDie_saf (s : State) (d : Nat) (f : DieSt → DieSt) : (s.updDie d f).saf = s.saf := (rfl)
@[simp] theorem State.updDie_ash (s : State) (d : Nat) (f : DieSt → DieSt) : (s.updDie d f).ash = s.ash := (rfl)
@[simp] theorem State.updDie_link (s : State) (d : Nat) (f : DieSt → DieSt) : (s.updDie d f).link = s.link := (rfl)
@[simp] theorem State.updDie_ctx (s : State) (d : Nat) (f : DieSt → DieSt) : (s.updDie d f).ctx = s.ctx := (rfl)
@[simp] theorem State.updDie_upd (s : State) (d : Nat) (f : DieSt → DieSt) : (s.updDie d f).upd = s.upd := (rfl)
@[simp] theorem State.updDie_sec (s : State) (d : Nat) (f : DieSt → DieSt) : (s.updDie d f).sec = s.sec := (rfl)
@[simp] theorem State.updDie_lat (s : State) (d : Nat) (f : DieSt → DieSt) : (s.updDie d f).lat = s.lat := (rfl)
@[simp] theorem State.updDie_cvu (s : State) (d : Nat) (f : DieSt → DieSt) : (s.updDie d f).cvu = s.cvu := (rfl)
@[simp] theorem State.updDie_image (s : State) (d : Nat) (f : DieSt → DieSt) : (s.updDie d f).image = s.image := (rfl)
@[simp] theorem State.updDie_suspects (s : State) (d : Nat) (f : DieSt → DieSt) : (s.updDie d f).suspects = s.suspects := (rfl)
@[simp] theorem State.updDie_starts (s : State) (d : Nat) (f : DieSt → DieSt) : (s.updDie d f).starts = s.starts := (rfl)
@[simp] theorem State.updDie_draws (s : State) (d : Nat) (f : DieSt → DieSt) : (s.updDie d f).draws = s.draws := (rfl)
@[simp] theorem State.updDie_die_self (s : State) (d : Nat) (f : DieSt → DieSt) : (s.updDie d f).die d = f (s.die d) := SMap.get_update_self _ _ _ _
theorem State.updDie_die_ne (s : State) (d : Nat) (f : DieSt → DieSt) (k : Nat) (h : k ≠ d) : (s.updDie d f).die k = s.die k := SMap.get_update_ne _ _ _ _ _ h
theorem State.updDie_die (s : State) (d : Nat) (f : DieSt → DieSt) (k : Nat) : (s.updDie d f).die k = if k = d then f (s.die d) else s.die k := SMap.get_update _ _ _ _ _
@[simp] theorem State.updDie_tile (s : State) (d : Nat) (f : DieSt → DieSt) (y : Nat) : (s.updDie d f).tile y = s.tile y := (rfl)
@[simp] theorem State.updDie_queue (s : State) (d : Nat) (f : DieSt → DieSt) (y : Nat) : (s.updDie d f).queue y = s.queue y := (rfl)
@[simp] theorem State.updDie_cluster (s : State) (d : Nat) (f : DieSt → DieSt) (y : Nat) : (s.updDie d f).cluster y = s.cluster y := (rfl)
@[simp] theorem State.updDie_cluUnit (s : State) (d : Nat) (f : DieSt → DieSt) (y : Nat) : (s.updDie d f).cluUnit y = s.cluUnit y := (rfl)
@[simp] theorem State.updDie_region (s : State) (d : Nat) (f : DieSt → DieSt) (y : Nat) : (s.updDie d f).region y = s.region y := (rfl)
@[simp] theorem State.updDie_rgnUnit (s : State) (d : Nat) (f : DieSt → DieSt) (y : Nat) : (s.updDie d f).rgnUnit y = s.rgnUnit y := (rfl)
@[simp] theorem State.updDie_slot (s : State) (d : Nat) (f : DieSt → DieSt) (y : Nat) : (s.updDie d f).slot y = s.slot y := (rfl)
@[simp] theorem State.updDie_chan (s : State) (d : Nat) (f : DieSt → DieSt) (y : Nat) : (s.updDie d f).chan y = s.chan y := (rfl)
@[simp] theorem State.updDie_cam (s : State) (d : Nat) (f : DieSt → DieSt) (y : Nat) : (s.updDie d f).cam y = s.cam y := (rfl)
@[simp] theorem State.updDie_pipe (s : State) (d : Nat) (f : DieSt → DieSt) (y : Nat) : (s.updDie d f).pipe y = s.pipe y := (rfl)
@[simp] theorem State.updDie_facet (s : State) (d : Nat) (f : DieSt → DieSt) (y : Nat) : (s.updDie d f).facet y = s.facet y := (rfl)
@[simp] theorem State.updDie_mac (s : State) (d : Nat) (f : DieSt → DieSt) (y : Nat) : (s.updDie d f).mac y = s.mac y := (rfl)
@[simp] theorem State.updDie_hpath (s : State) (d : Nat) (f : DieSt → DieSt) (y : Nat) : (s.updDie d f).hpath y = s.hpath y := (rfl)
@[simp] theorem State.updDie_img (s : State) (d : Nat) (f : DieSt → DieSt) : (s.updDie d f).img = s.img := (rfl)
@[simp] theorem State.updDie_mode (s : State) (d : Nat) (f : DieSt → DieSt) : (s.updDie d f).mode = s.mode := (rfl)
@[simp] theorem State.updDie_isBench (s : State) (d : Nat) (f : DieSt → DieSt) : (s.updDie d f).isBench = s.isBench := (rfl)
@[simp] theorem State.updDie_compares (s : State) (d : Nat) (f : DieSt → DieSt) : (s.updDie d f).compares = s.compares := (rfl)
@[simp] theorem State.updDie_isReplay (s : State) (d : Nat) (f : DieSt → DieSt) : (s.updDie d f).isReplay = s.isReplay := (rfl)
@[simp] theorem State.updDie_alloc (s : State) (d : Nat) (f : DieSt → DieSt) (y : Nat) : (s.updDie d f).alloc y = s.alloc y := (rfl)
@[simp] theorem State.updDie_role (s : State) (d : Nat) (f : DieSt → DieSt) (y : Nat) : (s.updDie d f).role y = s.role y := (rfl)
@[simp] theorem State.updDie_schedule (s : State) (d : Nat) (f : DieSt → DieSt) : (s.updDie d f).schedule = s.schedule := (rfl)
@[simp] theorem State.updDie_commitTile (s : State) (d : Nat) (f : DieSt → DieSt) : (s.updDie d f).commitTile = s.commitTile := (rfl)
@[simp] theorem State.updDie_now (s : State) (d : Nat) (f : DieSt → DieSt) : (s.updDie d f).now = s.now := (rfl)
@[simp] theorem State.updDie_mono (s : State) (d : Nat) (f : DieSt → DieSt) : (s.updDie d f).mono = s.mono := (rfl)
@[simp] theorem State.updDie_stampAt (s : State) (d : Nat) (f : DieSt → DieSt) (x : Instant) : (s.updDie d f).stampAt x = s.stampAt x := (rfl)
@[simp] theorem State.updDie_stamp (s : State) (d : Nat) (f : DieSt → DieSt) : (s.updDie d f).stamp = s.stamp := (rfl)
@[simp] theorem State.updDie_frameNs (s : State) (d : Nat) (f : DieSt → DieSt) : (s.updDie d f).frameNs = s.frameNs := (rfl)
@[simp] theorem State.updDie_beatNs (s : State) (d : Nat) (f : DieSt → DieSt) : (s.updDie d f).beatNs = s.beatNs := (rfl)
@[simp] theorem State.updDie_started (s : State) (d : Nat) (f : DieSt → DieSt) : (s.updDie d f).started = s.started := (rfl)
@[simp] theorem State.updDie_t0 (s : State) (d : Nat) (f : DieSt → DieSt) : (s.updDie d f).t0 = s.t0 := (rfl)
@[simp] theorem State.updDie_firstBeat (s : State) (d : Nat) (f : DieSt → DieSt) (y : Nat) : (s.updDie d f).firstBeat y = s.firstBeat y := (rfl)
@[simp] theorem State.updDie_frameOfBeat (s : State) (d : Nat) (f : DieSt → DieSt) (y : Nat) : (s.updDie d f).frameOfBeat y = s.frameOfBeat y := (rfl)
@[simp] theorem State.updDie_beatStart (s : State) (d : Nat) (f : DieSt → DieSt) (y : Nat) : (s.updDie d f).beatStart y = s.beatStart y := (rfl)
@[simp] theorem State.updDie_frameStart (s : State) (d : Nat) (f : DieSt → DieSt) (y : Nat) : (s.updDie d f).frameStart y = s.frameStart y := (rfl)
@[simp] theorem State.updDie_isBoundary (s : State) (d : Nat) (f : DieSt → DieSt) (y : Nat) : (s.updDie d f).isBoundary y = s.isBoundary y := (rfl)
@[simp] theorem State.updDie_frameAt (s : State) (d : Nat) (f : DieSt → DieSt) (x : Instant) : (s.updDie d f).frameAt x = s.frameAt x := (rfl)
@[simp] theorem State.updDie_txnDue (s : State) (d : Nat) (f : DieSt → DieSt) : (s.updDie d f).txnDue = s.txnDue := (rfl)
@[simp] theorem State.updDie_chip (s : State) (d : Nat) (f : DieSt → DieSt) : (s.updDie d f).chip = s.chip := (rfl)

/-! ### updCam -/

@[simp] theorem State.updCam_pending (s : State) (c : Nat) (f : CamSt → CamSt) : (s.updCam c f).pending = s.pending := (rfl)
@[simp] theorem State.updCam_part (s : State) (c : Nat) (f : CamSt → CamSt) : (s.updCam c f).part = s.part := (rfl)
@[simp] theorem State.updCam_stepping (s : State) (c : Nat) (f : CamSt → CamSt) : (s.updCam c f).stepping = s.stepping := (rfl)
@[simp] theorem State.updCam_fitted (s : State) (c : Nat) (f : CamSt → CamSt) : (s.updCam c f).fitted = s.fitted := (rfl)
@[simp] theorem State.updCam_dramRate (s : State) (c : Nat) (f : CamSt → CamSt) : (s.updCam c f).dramRate = s.dramRate := (rfl)
@[simp] theorem State.updCam_bistOk (s : State) (c : Nat) (f : CamSt → CamSt) : (s.updCam c f).bistOk = s.bistOk := (rfl)
@[simp] theorem State.updCam_tanexReset (s : State) (c : Nat) (f : CamSt → CamSt) : (s.updCam c f).tanexReset = s.tanexReset := (rfl)
@[simp] theorem State.updCam_thermTrip (s : State) (c : Nat) (f : CamSt → CamSt) : (s.updCam c f).thermTrip = s.thermTrip := (rfl)
@[simp] theorem State.updCam_prgSens (s : State) (c : Nat) (f : CamSt → CamSt) : (s.updCam c f).prgSens = s.prgSens := (rfl)
@[simp] theorem State.updCam_boot (s : State) (c : Nat) (f : CamSt → CamSt) : (s.updCam c f).boot = s.boot := (rfl)
@[simp] theorem State.updCam_mem (s : State) (c : Nat) (f : CamSt → CamSt) : (s.updCam c f).mem = s.mem := (rfl)
@[simp] theorem State.updCam_flips (s : State) (c : Nat) (f : CamSt → CamSt) : (s.updCam c f).flips = s.flips := (rfl)
@[simp] theorem State.updCam_peatDirty (s : State) (c : Nat) (f : CamSt → CamSt) : (s.updCam c f).peatDirty = s.peatDirty := (rfl)
@[simp] theorem State.updCam_dramDirty (s : State) (c : Nat) (f : CamSt → CamSt) : (s.updCam c f).dramDirty = s.dramDirty := (rfl)
@[simp] theorem State.updCam_scrubPos (s : State) (c : Nat) (f : CamSt → CamSt) : (s.updCam c f).scrubPos = s.scrubPos := (rfl)
@[simp] theorem State.updCam_scrubPass (s : State) (c : Nat) (f : CamSt → CamSt) : (s.updCam c f).scrubPass = s.scrubPass := (rfl)
@[simp] theorem State.updCam_scrubStart (s : State) (c : Nat) (f : CamSt → CamSt) : (s.updCam c f).scrubStart = s.scrubStart := (rfl)
@[simp] theorem State.updCam_scrubFrom (s : State) (c : Nat) (f : CamSt → CamSt) : (s.updCam c f).scrubFrom = s.scrubFrom := (rfl)
@[simp] theorem State.updCam_rowsHit (s : State) (c : Nat) (f : CamSt → CamSt) : (s.updCam c f).rowsHit = s.rowsHit := (rfl)
@[simp] theorem State.updCam_bankCe (s : State) (c : Nat) (f : CamSt → CamSt) : (s.updCam c f).bankCe = s.bankCe := (rfl)
@[simp] theorem State.updCam_rowTests (s : State) (c : Nat) (f : CamSt → CamSt) : (s.updCam c f).rowTests = s.rowTests := (rfl)
@[simp] theorem State.updCam_pprDone (s : State) (c : Nat) (f : CamSt → CamSt) : (s.updCam c f).pprDone = s.pprDone := (rfl)
@[simp] theorem State.updCam_flash (s : State) (c : Nat) (f : CamSt → CamSt) : (s.updCam c f).flash = s.flash := (rfl)
@[simp] theorem State.updCam_tiles (s : State) (c : Nat) (f : CamSt → CamSt) : (s.updCam c f).tiles = s.tiles := (rfl)
@[simp] theorem State.updCam_queues (s : State) (c : Nat) (f : CamSt → CamSt) : (s.updCam c f).queues = s.queues := (rfl)
@[simp] theorem State.updCam_clusters (s : State) (c : Nat) (f : CamSt → CamSt) : (s.updCam c f).clusters = s.clusters := (rfl)
@[simp] theorem State.updCam_cluUnits (s : State) (c : Nat) (f : CamSt → CamSt) : (s.updCam c f).cluUnits = s.cluUnits := (rfl)
@[simp] theorem State.updCam_regions (s : State) (c : Nat) (f : CamSt → CamSt) : (s.updCam c f).regions = s.regions := (rfl)
@[simp] theorem State.updCam_rgnUnits (s : State) (c : Nat) (f : CamSt → CamSt) : (s.updCam c f).rgnUnits = s.rgnUnits := (rfl)
@[simp] theorem State.updCam_repair (s : State) (c : Nat) (f : CamSt → CamSt) : (s.updCam c f).repair = s.repair := (rfl)
@[simp] theorem State.updCam_slots (s : State) (c : Nat) (f : CamSt → CamSt) : (s.updCam c f).slots = s.slots := (rfl)
@[simp] theorem State.updCam_chans (s : State) (c : Nat) (f : CamSt → CamSt) : (s.updCam c f).chans = s.chans := (rfl)
@[simp] theorem State.updCam_dies (s : State) (c : Nat) (f : CamSt → CamSt) : (s.updCam c f).dies = s.dies := (rfl)
@[simp] theorem State.updCam_pipes (s : State) (c : Nat) (f : CamSt → CamSt) : (s.updCam c f).pipes = s.pipes := (rfl)
@[simp] theorem State.updCam_fctx (s : State) (c : Nat) (f : CamSt → CamSt) : (s.updCam c f).fctx = s.fctx := (rfl)
@[simp] theorem State.updCam_range (s : State) (c : Nat) (f : CamSt → CamSt) : (s.updCam c f).range = s.range := (rfl)
@[simp] theorem State.updCam_hp (s : State) (c : Nat) (f : CamSt → CamSt) : (s.updCam c f).hp = s.hp := (rfl)
@[simp] theorem State.updCam_tb (s : State) (c : Nat) (f : CamSt → CamSt) : (s.updCam c f).tb = s.tb := (rfl)
@[simp] theorem State.updCam_beat (s : State) (c : Nat) (f : CamSt → CamSt) : (s.updCam c f).beat = s.beat := (rfl)
@[simp] theorem State.updCam_saf (s : State) (c : Nat) (f : CamSt → CamSt) : (s.updCam c f).saf = s.saf := (rfl)
@[simp] theorem State.updCam_ash (s : State) (c : Nat) (f : CamSt → CamSt) : (s.updCam c f).ash = s.ash := (rfl)
@[simp] theorem State.updCam_link (s : State) (c : Nat) (f : CamSt → CamSt) : (s.updCam c f).link = s.link := (rfl)
@[simp] theorem State.updCam_ctx (s : State) (c : Nat) (f : CamSt → CamSt) : (s.updCam c f).ctx = s.ctx := (rfl)
@[simp] theorem State.updCam_upd (s : State) (c : Nat) (f : CamSt → CamSt) : (s.updCam c f).upd = s.upd := (rfl)
@[simp] theorem State.updCam_sec (s : State) (c : Nat) (f : CamSt → CamSt) : (s.updCam c f).sec = s.sec := (rfl)
@[simp] theorem State.updCam_lat (s : State) (c : Nat) (f : CamSt → CamSt) : (s.updCam c f).lat = s.lat := (rfl)
@[simp] theorem State.updCam_cvu (s : State) (c : Nat) (f : CamSt → CamSt) : (s.updCam c f).cvu = s.cvu := (rfl)
@[simp] theorem State.updCam_image (s : State) (c : Nat) (f : CamSt → CamSt) : (s.updCam c f).image = s.image := (rfl)
@[simp] theorem State.updCam_suspects (s : State) (c : Nat) (f : CamSt → CamSt) : (s.updCam c f).suspects = s.suspects := (rfl)
@[simp] theorem State.updCam_starts (s : State) (c : Nat) (f : CamSt → CamSt) : (s.updCam c f).starts = s.starts := (rfl)
@[simp] theorem State.updCam_draws (s : State) (c : Nat) (f : CamSt → CamSt) : (s.updCam c f).draws = s.draws := (rfl)
@[simp] theorem State.updCam_cam_self (s : State) (c : Nat) (f : CamSt → CamSt) : (s.updCam c f).cam c = f (s.cam c) := SMap.get_update_self _ _ _ _
theorem State.updCam_cam_ne (s : State) (c : Nat) (f : CamSt → CamSt) (k : Nat) (h : k ≠ c) : (s.updCam c f).cam k = s.cam k := SMap.get_update_ne _ _ _ _ _ h
theorem State.updCam_cam (s : State) (c : Nat) (f : CamSt → CamSt) (k : Nat) : (s.updCam c f).cam k = if k = c then f (s.cam c) else s.cam k := SMap.get_update _ _ _ _ _
@[simp] theorem State.updCam_tile (s : State) (c : Nat) (f : CamSt → CamSt) (y : Nat) : (s.updCam c f).tile y = s.tile y := (rfl)
@[simp] theorem State.updCam_queue (s : State) (c : Nat) (f : CamSt → CamSt) (y : Nat) : (s.updCam c f).queue y = s.queue y := (rfl)
@[simp] theorem State.updCam_cluster (s : State) (c : Nat) (f : CamSt → CamSt) (y : Nat) : (s.updCam c f).cluster y = s.cluster y := (rfl)
@[simp] theorem State.updCam_cluUnit (s : State) (c : Nat) (f : CamSt → CamSt) (y : Nat) : (s.updCam c f).cluUnit y = s.cluUnit y := (rfl)
@[simp] theorem State.updCam_region (s : State) (c : Nat) (f : CamSt → CamSt) (y : Nat) : (s.updCam c f).region y = s.region y := (rfl)
@[simp] theorem State.updCam_rgnUnit (s : State) (c : Nat) (f : CamSt → CamSt) (y : Nat) : (s.updCam c f).rgnUnit y = s.rgnUnit y := (rfl)
@[simp] theorem State.updCam_slot (s : State) (c : Nat) (f : CamSt → CamSt) (y : Nat) : (s.updCam c f).slot y = s.slot y := (rfl)
@[simp] theorem State.updCam_chan (s : State) (c : Nat) (f : CamSt → CamSt) (y : Nat) : (s.updCam c f).chan y = s.chan y := (rfl)
@[simp] theorem State.updCam_die (s : State) (c : Nat) (f : CamSt → CamSt) (y : Nat) : (s.updCam c f).die y = s.die y := (rfl)
@[simp] theorem State.updCam_pipe (s : State) (c : Nat) (f : CamSt → CamSt) (y : Nat) : (s.updCam c f).pipe y = s.pipe y := (rfl)
@[simp] theorem State.updCam_facet (s : State) (c : Nat) (f : CamSt → CamSt) (y : Nat) : (s.updCam c f).facet y = s.facet y := (rfl)
@[simp] theorem State.updCam_mac (s : State) (c : Nat) (f : CamSt → CamSt) (y : Nat) : (s.updCam c f).mac y = s.mac y := (rfl)
@[simp] theorem State.updCam_hpath (s : State) (c : Nat) (f : CamSt → CamSt) (y : Nat) : (s.updCam c f).hpath y = s.hpath y := (rfl)
@[simp] theorem State.updCam_img (s : State) (c : Nat) (f : CamSt → CamSt) : (s.updCam c f).img = s.img := (rfl)
@[simp] theorem State.updCam_mode (s : State) (c : Nat) (f : CamSt → CamSt) : (s.updCam c f).mode = s.mode := (rfl)
@[simp] theorem State.updCam_isBench (s : State) (c : Nat) (f : CamSt → CamSt) : (s.updCam c f).isBench = s.isBench := (rfl)
@[simp] theorem State.updCam_compares (s : State) (c : Nat) (f : CamSt → CamSt) : (s.updCam c f).compares = s.compares := (rfl)
@[simp] theorem State.updCam_isReplay (s : State) (c : Nat) (f : CamSt → CamSt) : (s.updCam c f).isReplay = s.isReplay := (rfl)
@[simp] theorem State.updCam_alloc (s : State) (c : Nat) (f : CamSt → CamSt) (y : Nat) : (s.updCam c f).alloc y = s.alloc y := (rfl)
@[simp] theorem State.updCam_role (s : State) (c : Nat) (f : CamSt → CamSt) (y : Nat) : (s.updCam c f).role y = s.role y := (rfl)
@[simp] theorem State.updCam_schedule (s : State) (c : Nat) (f : CamSt → CamSt) : (s.updCam c f).schedule = s.schedule := (rfl)
@[simp] theorem State.updCam_commitTile (s : State) (c : Nat) (f : CamSt → CamSt) : (s.updCam c f).commitTile = s.commitTile := (rfl)
@[simp] theorem State.updCam_now (s : State) (c : Nat) (f : CamSt → CamSt) : (s.updCam c f).now = s.now := (rfl)
@[simp] theorem State.updCam_mono (s : State) (c : Nat) (f : CamSt → CamSt) : (s.updCam c f).mono = s.mono := (rfl)
@[simp] theorem State.updCam_stampAt (s : State) (c : Nat) (f : CamSt → CamSt) (x : Instant) : (s.updCam c f).stampAt x = s.stampAt x := (rfl)
@[simp] theorem State.updCam_stamp (s : State) (c : Nat) (f : CamSt → CamSt) : (s.updCam c f).stamp = s.stamp := (rfl)
@[simp] theorem State.updCam_dieNow (s : State) (c : Nat) (f : CamSt → CamSt) (y : Nat) : (s.updCam c f).dieNow y = s.dieNow y := (rfl)
@[simp] theorem State.updCam_dieStamp (s : State) (c : Nat) (f : CamSt → CamSt) (y : Nat) : (s.updCam c f).dieStamp y = s.dieStamp y := (rfl)
@[simp] theorem State.updCam_frameNs (s : State) (c : Nat) (f : CamSt → CamSt) : (s.updCam c f).frameNs = s.frameNs := (rfl)
@[simp] theorem State.updCam_beatNs (s : State) (c : Nat) (f : CamSt → CamSt) : (s.updCam c f).beatNs = s.beatNs := (rfl)
@[simp] theorem State.updCam_started (s : State) (c : Nat) (f : CamSt → CamSt) : (s.updCam c f).started = s.started := (rfl)
@[simp] theorem State.updCam_t0 (s : State) (c : Nat) (f : CamSt → CamSt) : (s.updCam c f).t0 = s.t0 := (rfl)
@[simp] theorem State.updCam_firstBeat (s : State) (c : Nat) (f : CamSt → CamSt) (y : Nat) : (s.updCam c f).firstBeat y = s.firstBeat y := (rfl)
@[simp] theorem State.updCam_frameOfBeat (s : State) (c : Nat) (f : CamSt → CamSt) (y : Nat) : (s.updCam c f).frameOfBeat y = s.frameOfBeat y := (rfl)
@[simp] theorem State.updCam_beatStart (s : State) (c : Nat) (f : CamSt → CamSt) (y : Nat) : (s.updCam c f).beatStart y = s.beatStart y := (rfl)
@[simp] theorem State.updCam_frameStart (s : State) (c : Nat) (f : CamSt → CamSt) (y : Nat) : (s.updCam c f).frameStart y = s.frameStart y := (rfl)
@[simp] theorem State.updCam_isBoundary (s : State) (c : Nat) (f : CamSt → CamSt) (y : Nat) : (s.updCam c f).isBoundary y = s.isBoundary y := (rfl)
@[simp] theorem State.updCam_frameAt (s : State) (c : Nat) (f : CamSt → CamSt) (x : Instant) : (s.updCam c f).frameAt x = s.frameAt x := (rfl)
@[simp] theorem State.updCam_txnDue (s : State) (c : Nat) (f : CamSt → CamSt) : (s.updCam c f).txnDue = s.txnDue := (rfl)
@[simp] theorem State.updCam_chip (s : State) (c : Nat) (f : CamSt → CamSt) : (s.updCam c f).chip = s.chip := (rfl)
@[simp] theorem State.updCam_port (s : State) (c : Nat) (f : CamSt → CamSt) (y : Nat) : (s.updCam c f).port y = s.port y := (rfl)

/-! ### updPipe -/

@[simp] theorem State.updPipe_pending (s : State) (p : Nat) (f : PipeSt → PipeSt) : (s.updPipe p f).pending = s.pending := (rfl)
@[simp] theorem State.updPipe_part (s : State) (p : Nat) (f : PipeSt → PipeSt) : (s.updPipe p f).part = s.part := (rfl)
@[simp] theorem State.updPipe_stepping (s : State) (p : Nat) (f : PipeSt → PipeSt) : (s.updPipe p f).stepping = s.stepping := (rfl)
@[simp] theorem State.updPipe_fitted (s : State) (p : Nat) (f : PipeSt → PipeSt) : (s.updPipe p f).fitted = s.fitted := (rfl)
@[simp] theorem State.updPipe_dramRate (s : State) (p : Nat) (f : PipeSt → PipeSt) : (s.updPipe p f).dramRate = s.dramRate := (rfl)
@[simp] theorem State.updPipe_bistOk (s : State) (p : Nat) (f : PipeSt → PipeSt) : (s.updPipe p f).bistOk = s.bistOk := (rfl)
@[simp] theorem State.updPipe_tanexReset (s : State) (p : Nat) (f : PipeSt → PipeSt) : (s.updPipe p f).tanexReset = s.tanexReset := (rfl)
@[simp] theorem State.updPipe_thermTrip (s : State) (p : Nat) (f : PipeSt → PipeSt) : (s.updPipe p f).thermTrip = s.thermTrip := (rfl)
@[simp] theorem State.updPipe_prgSens (s : State) (p : Nat) (f : PipeSt → PipeSt) : (s.updPipe p f).prgSens = s.prgSens := (rfl)
@[simp] theorem State.updPipe_boot (s : State) (p : Nat) (f : PipeSt → PipeSt) : (s.updPipe p f).boot = s.boot := (rfl)
@[simp] theorem State.updPipe_mem (s : State) (p : Nat) (f : PipeSt → PipeSt) : (s.updPipe p f).mem = s.mem := (rfl)
@[simp] theorem State.updPipe_flips (s : State) (p : Nat) (f : PipeSt → PipeSt) : (s.updPipe p f).flips = s.flips := (rfl)
@[simp] theorem State.updPipe_peatDirty (s : State) (p : Nat) (f : PipeSt → PipeSt) : (s.updPipe p f).peatDirty = s.peatDirty := (rfl)
@[simp] theorem State.updPipe_dramDirty (s : State) (p : Nat) (f : PipeSt → PipeSt) : (s.updPipe p f).dramDirty = s.dramDirty := (rfl)
@[simp] theorem State.updPipe_scrubPos (s : State) (p : Nat) (f : PipeSt → PipeSt) : (s.updPipe p f).scrubPos = s.scrubPos := (rfl)
@[simp] theorem State.updPipe_scrubPass (s : State) (p : Nat) (f : PipeSt → PipeSt) : (s.updPipe p f).scrubPass = s.scrubPass := (rfl)
@[simp] theorem State.updPipe_scrubStart (s : State) (p : Nat) (f : PipeSt → PipeSt) : (s.updPipe p f).scrubStart = s.scrubStart := (rfl)
@[simp] theorem State.updPipe_scrubFrom (s : State) (p : Nat) (f : PipeSt → PipeSt) : (s.updPipe p f).scrubFrom = s.scrubFrom := (rfl)
@[simp] theorem State.updPipe_rowsHit (s : State) (p : Nat) (f : PipeSt → PipeSt) : (s.updPipe p f).rowsHit = s.rowsHit := (rfl)
@[simp] theorem State.updPipe_bankCe (s : State) (p : Nat) (f : PipeSt → PipeSt) : (s.updPipe p f).bankCe = s.bankCe := (rfl)
@[simp] theorem State.updPipe_rowTests (s : State) (p : Nat) (f : PipeSt → PipeSt) : (s.updPipe p f).rowTests = s.rowTests := (rfl)
@[simp] theorem State.updPipe_pprDone (s : State) (p : Nat) (f : PipeSt → PipeSt) : (s.updPipe p f).pprDone = s.pprDone := (rfl)
@[simp] theorem State.updPipe_flash (s : State) (p : Nat) (f : PipeSt → PipeSt) : (s.updPipe p f).flash = s.flash := (rfl)
@[simp] theorem State.updPipe_tiles (s : State) (p : Nat) (f : PipeSt → PipeSt) : (s.updPipe p f).tiles = s.tiles := (rfl)
@[simp] theorem State.updPipe_queues (s : State) (p : Nat) (f : PipeSt → PipeSt) : (s.updPipe p f).queues = s.queues := (rfl)
@[simp] theorem State.updPipe_clusters (s : State) (p : Nat) (f : PipeSt → PipeSt) : (s.updPipe p f).clusters = s.clusters := (rfl)
@[simp] theorem State.updPipe_cluUnits (s : State) (p : Nat) (f : PipeSt → PipeSt) : (s.updPipe p f).cluUnits = s.cluUnits := (rfl)
@[simp] theorem State.updPipe_regions (s : State) (p : Nat) (f : PipeSt → PipeSt) : (s.updPipe p f).regions = s.regions := (rfl)
@[simp] theorem State.updPipe_rgnUnits (s : State) (p : Nat) (f : PipeSt → PipeSt) : (s.updPipe p f).rgnUnits = s.rgnUnits := (rfl)
@[simp] theorem State.updPipe_repair (s : State) (p : Nat) (f : PipeSt → PipeSt) : (s.updPipe p f).repair = s.repair := (rfl)
@[simp] theorem State.updPipe_slots (s : State) (p : Nat) (f : PipeSt → PipeSt) : (s.updPipe p f).slots = s.slots := (rfl)
@[simp] theorem State.updPipe_chans (s : State) (p : Nat) (f : PipeSt → PipeSt) : (s.updPipe p f).chans = s.chans := (rfl)
@[simp] theorem State.updPipe_dies (s : State) (p : Nat) (f : PipeSt → PipeSt) : (s.updPipe p f).dies = s.dies := (rfl)
@[simp] theorem State.updPipe_cams (s : State) (p : Nat) (f : PipeSt → PipeSt) : (s.updPipe p f).cams = s.cams := (rfl)
@[simp] theorem State.updPipe_fctx (s : State) (p : Nat) (f : PipeSt → PipeSt) : (s.updPipe p f).fctx = s.fctx := (rfl)
@[simp] theorem State.updPipe_range (s : State) (p : Nat) (f : PipeSt → PipeSt) : (s.updPipe p f).range = s.range := (rfl)
@[simp] theorem State.updPipe_hp (s : State) (p : Nat) (f : PipeSt → PipeSt) : (s.updPipe p f).hp = s.hp := (rfl)
@[simp] theorem State.updPipe_tb (s : State) (p : Nat) (f : PipeSt → PipeSt) : (s.updPipe p f).tb = s.tb := (rfl)
@[simp] theorem State.updPipe_beat (s : State) (p : Nat) (f : PipeSt → PipeSt) : (s.updPipe p f).beat = s.beat := (rfl)
@[simp] theorem State.updPipe_saf (s : State) (p : Nat) (f : PipeSt → PipeSt) : (s.updPipe p f).saf = s.saf := (rfl)
@[simp] theorem State.updPipe_ash (s : State) (p : Nat) (f : PipeSt → PipeSt) : (s.updPipe p f).ash = s.ash := (rfl)
@[simp] theorem State.updPipe_link (s : State) (p : Nat) (f : PipeSt → PipeSt) : (s.updPipe p f).link = s.link := (rfl)
@[simp] theorem State.updPipe_ctx (s : State) (p : Nat) (f : PipeSt → PipeSt) : (s.updPipe p f).ctx = s.ctx := (rfl)
@[simp] theorem State.updPipe_upd (s : State) (p : Nat) (f : PipeSt → PipeSt) : (s.updPipe p f).upd = s.upd := (rfl)
@[simp] theorem State.updPipe_sec (s : State) (p : Nat) (f : PipeSt → PipeSt) : (s.updPipe p f).sec = s.sec := (rfl)
@[simp] theorem State.updPipe_lat (s : State) (p : Nat) (f : PipeSt → PipeSt) : (s.updPipe p f).lat = s.lat := (rfl)
@[simp] theorem State.updPipe_cvu (s : State) (p : Nat) (f : PipeSt → PipeSt) : (s.updPipe p f).cvu = s.cvu := (rfl)
@[simp] theorem State.updPipe_image (s : State) (p : Nat) (f : PipeSt → PipeSt) : (s.updPipe p f).image = s.image := (rfl)
@[simp] theorem State.updPipe_suspects (s : State) (p : Nat) (f : PipeSt → PipeSt) : (s.updPipe p f).suspects = s.suspects := (rfl)
@[simp] theorem State.updPipe_starts (s : State) (p : Nat) (f : PipeSt → PipeSt) : (s.updPipe p f).starts = s.starts := (rfl)
@[simp] theorem State.updPipe_draws (s : State) (p : Nat) (f : PipeSt → PipeSt) : (s.updPipe p f).draws = s.draws := (rfl)
@[simp] theorem State.updPipe_pipe_self (s : State) (p : Nat) (f : PipeSt → PipeSt) : (s.updPipe p f).pipe p = f (s.pipe p) := SMap.get_update_self _ _ _ _
theorem State.updPipe_pipe_ne (s : State) (p : Nat) (f : PipeSt → PipeSt) (k : Nat) (h : k ≠ p) : (s.updPipe p f).pipe k = s.pipe k := SMap.get_update_ne _ _ _ _ _ h
theorem State.updPipe_pipe (s : State) (p : Nat) (f : PipeSt → PipeSt) (k : Nat) : (s.updPipe p f).pipe k = if k = p then f (s.pipe p) else s.pipe k := SMap.get_update _ _ _ _ _
@[simp] theorem State.updPipe_tile (s : State) (p : Nat) (f : PipeSt → PipeSt) (y : Nat) : (s.updPipe p f).tile y = s.tile y := (rfl)
@[simp] theorem State.updPipe_queue (s : State) (p : Nat) (f : PipeSt → PipeSt) (y : Nat) : (s.updPipe p f).queue y = s.queue y := (rfl)
@[simp] theorem State.updPipe_cluster (s : State) (p : Nat) (f : PipeSt → PipeSt) (y : Nat) : (s.updPipe p f).cluster y = s.cluster y := (rfl)
@[simp] theorem State.updPipe_cluUnit (s : State) (p : Nat) (f : PipeSt → PipeSt) (y : Nat) : (s.updPipe p f).cluUnit y = s.cluUnit y := (rfl)
@[simp] theorem State.updPipe_region (s : State) (p : Nat) (f : PipeSt → PipeSt) (y : Nat) : (s.updPipe p f).region y = s.region y := (rfl)
@[simp] theorem State.updPipe_rgnUnit (s : State) (p : Nat) (f : PipeSt → PipeSt) (y : Nat) : (s.updPipe p f).rgnUnit y = s.rgnUnit y := (rfl)
@[simp] theorem State.updPipe_slot (s : State) (p : Nat) (f : PipeSt → PipeSt) (y : Nat) : (s.updPipe p f).slot y = s.slot y := (rfl)
@[simp] theorem State.updPipe_chan (s : State) (p : Nat) (f : PipeSt → PipeSt) (y : Nat) : (s.updPipe p f).chan y = s.chan y := (rfl)
@[simp] theorem State.updPipe_die (s : State) (p : Nat) (f : PipeSt → PipeSt) (y : Nat) : (s.updPipe p f).die y = s.die y := (rfl)
@[simp] theorem State.updPipe_cam (s : State) (p : Nat) (f : PipeSt → PipeSt) (y : Nat) : (s.updPipe p f).cam y = s.cam y := (rfl)
@[simp] theorem State.updPipe_facet (s : State) (p : Nat) (f : PipeSt → PipeSt) (y : Nat) : (s.updPipe p f).facet y = s.facet y := (rfl)
@[simp] theorem State.updPipe_mac (s : State) (p : Nat) (f : PipeSt → PipeSt) (y : Nat) : (s.updPipe p f).mac y = s.mac y := (rfl)
@[simp] theorem State.updPipe_hpath (s : State) (p : Nat) (f : PipeSt → PipeSt) (y : Nat) : (s.updPipe p f).hpath y = s.hpath y := (rfl)
@[simp] theorem State.updPipe_img (s : State) (p : Nat) (f : PipeSt → PipeSt) : (s.updPipe p f).img = s.img := (rfl)
@[simp] theorem State.updPipe_mode (s : State) (p : Nat) (f : PipeSt → PipeSt) : (s.updPipe p f).mode = s.mode := (rfl)
@[simp] theorem State.updPipe_isBench (s : State) (p : Nat) (f : PipeSt → PipeSt) : (s.updPipe p f).isBench = s.isBench := (rfl)
@[simp] theorem State.updPipe_compares (s : State) (p : Nat) (f : PipeSt → PipeSt) : (s.updPipe p f).compares = s.compares := (rfl)
@[simp] theorem State.updPipe_isReplay (s : State) (p : Nat) (f : PipeSt → PipeSt) : (s.updPipe p f).isReplay = s.isReplay := (rfl)
@[simp] theorem State.updPipe_alloc (s : State) (p : Nat) (f : PipeSt → PipeSt) (y : Nat) : (s.updPipe p f).alloc y = s.alloc y := (rfl)
@[simp] theorem State.updPipe_role (s : State) (p : Nat) (f : PipeSt → PipeSt) (y : Nat) : (s.updPipe p f).role y = s.role y := (rfl)
@[simp] theorem State.updPipe_schedule (s : State) (p : Nat) (f : PipeSt → PipeSt) : (s.updPipe p f).schedule = s.schedule := (rfl)
@[simp] theorem State.updPipe_commitTile (s : State) (p : Nat) (f : PipeSt → PipeSt) : (s.updPipe p f).commitTile = s.commitTile := (rfl)
@[simp] theorem State.updPipe_now (s : State) (p : Nat) (f : PipeSt → PipeSt) : (s.updPipe p f).now = s.now := (rfl)
@[simp] theorem State.updPipe_mono (s : State) (p : Nat) (f : PipeSt → PipeSt) : (s.updPipe p f).mono = s.mono := (rfl)
@[simp] theorem State.updPipe_stampAt (s : State) (p : Nat) (f : PipeSt → PipeSt) (x : Instant) : (s.updPipe p f).stampAt x = s.stampAt x := (rfl)
@[simp] theorem State.updPipe_stamp (s : State) (p : Nat) (f : PipeSt → PipeSt) : (s.updPipe p f).stamp = s.stamp := (rfl)
@[simp] theorem State.updPipe_dieNow (s : State) (p : Nat) (f : PipeSt → PipeSt) (y : Nat) : (s.updPipe p f).dieNow y = s.dieNow y := (rfl)
@[simp] theorem State.updPipe_dieStamp (s : State) (p : Nat) (f : PipeSt → PipeSt) (y : Nat) : (s.updPipe p f).dieStamp y = s.dieStamp y := (rfl)
@[simp] theorem State.updPipe_frameNs (s : State) (p : Nat) (f : PipeSt → PipeSt) : (s.updPipe p f).frameNs = s.frameNs := (rfl)
@[simp] theorem State.updPipe_beatNs (s : State) (p : Nat) (f : PipeSt → PipeSt) : (s.updPipe p f).beatNs = s.beatNs := (rfl)
@[simp] theorem State.updPipe_started (s : State) (p : Nat) (f : PipeSt → PipeSt) : (s.updPipe p f).started = s.started := (rfl)
@[simp] theorem State.updPipe_t0 (s : State) (p : Nat) (f : PipeSt → PipeSt) : (s.updPipe p f).t0 = s.t0 := (rfl)
@[simp] theorem State.updPipe_firstBeat (s : State) (p : Nat) (f : PipeSt → PipeSt) (y : Nat) : (s.updPipe p f).firstBeat y = s.firstBeat y := (rfl)
@[simp] theorem State.updPipe_frameOfBeat (s : State) (p : Nat) (f : PipeSt → PipeSt) (y : Nat) : (s.updPipe p f).frameOfBeat y = s.frameOfBeat y := (rfl)
@[simp] theorem State.updPipe_beatStart (s : State) (p : Nat) (f : PipeSt → PipeSt) (y : Nat) : (s.updPipe p f).beatStart y = s.beatStart y := (rfl)
@[simp] theorem State.updPipe_frameStart (s : State) (p : Nat) (f : PipeSt → PipeSt) (y : Nat) : (s.updPipe p f).frameStart y = s.frameStart y := (rfl)
@[simp] theorem State.updPipe_isBoundary (s : State) (p : Nat) (f : PipeSt → PipeSt) (y : Nat) : (s.updPipe p f).isBoundary y = s.isBoundary y := (rfl)
@[simp] theorem State.updPipe_frameAt (s : State) (p : Nat) (f : PipeSt → PipeSt) (x : Instant) : (s.updPipe p f).frameAt x = s.frameAt x := (rfl)
@[simp] theorem State.updPipe_txnDue (s : State) (p : Nat) (f : PipeSt → PipeSt) : (s.updPipe p f).txnDue = s.txnDue := (rfl)
@[simp] theorem State.updPipe_chip (s : State) (p : Nat) (f : PipeSt → PipeSt) : (s.updPipe p f).chip = s.chip := (rfl)
@[simp] theorem State.updPipe_port (s : State) (p : Nat) (f : PipeSt → PipeSt) (y : Nat) : (s.updPipe p f).port y = s.port y := (rfl)

/-! ### updFacet -/

@[simp] theorem State.updFacet_pending (s : State) (i : Nat) (f : FctxSt → FctxSt) : (s.updFacet i f).pending = s.pending := (rfl)
@[simp] theorem State.updFacet_part (s : State) (i : Nat) (f : FctxSt → FctxSt) : (s.updFacet i f).part = s.part := (rfl)
@[simp] theorem State.updFacet_stepping (s : State) (i : Nat) (f : FctxSt → FctxSt) : (s.updFacet i f).stepping = s.stepping := (rfl)
@[simp] theorem State.updFacet_fitted (s : State) (i : Nat) (f : FctxSt → FctxSt) : (s.updFacet i f).fitted = s.fitted := (rfl)
@[simp] theorem State.updFacet_dramRate (s : State) (i : Nat) (f : FctxSt → FctxSt) : (s.updFacet i f).dramRate = s.dramRate := (rfl)
@[simp] theorem State.updFacet_bistOk (s : State) (i : Nat) (f : FctxSt → FctxSt) : (s.updFacet i f).bistOk = s.bistOk := (rfl)
@[simp] theorem State.updFacet_tanexReset (s : State) (i : Nat) (f : FctxSt → FctxSt) : (s.updFacet i f).tanexReset = s.tanexReset := (rfl)
@[simp] theorem State.updFacet_thermTrip (s : State) (i : Nat) (f : FctxSt → FctxSt) : (s.updFacet i f).thermTrip = s.thermTrip := (rfl)
@[simp] theorem State.updFacet_prgSens (s : State) (i : Nat) (f : FctxSt → FctxSt) : (s.updFacet i f).prgSens = s.prgSens := (rfl)
@[simp] theorem State.updFacet_boot (s : State) (i : Nat) (f : FctxSt → FctxSt) : (s.updFacet i f).boot = s.boot := (rfl)
@[simp] theorem State.updFacet_mem (s : State) (i : Nat) (f : FctxSt → FctxSt) : (s.updFacet i f).mem = s.mem := (rfl)
@[simp] theorem State.updFacet_flips (s : State) (i : Nat) (f : FctxSt → FctxSt) : (s.updFacet i f).flips = s.flips := (rfl)
@[simp] theorem State.updFacet_peatDirty (s : State) (i : Nat) (f : FctxSt → FctxSt) : (s.updFacet i f).peatDirty = s.peatDirty := (rfl)
@[simp] theorem State.updFacet_dramDirty (s : State) (i : Nat) (f : FctxSt → FctxSt) : (s.updFacet i f).dramDirty = s.dramDirty := (rfl)
@[simp] theorem State.updFacet_scrubPos (s : State) (i : Nat) (f : FctxSt → FctxSt) : (s.updFacet i f).scrubPos = s.scrubPos := (rfl)
@[simp] theorem State.updFacet_scrubPass (s : State) (i : Nat) (f : FctxSt → FctxSt) : (s.updFacet i f).scrubPass = s.scrubPass := (rfl)
@[simp] theorem State.updFacet_scrubStart (s : State) (i : Nat) (f : FctxSt → FctxSt) : (s.updFacet i f).scrubStart = s.scrubStart := (rfl)
@[simp] theorem State.updFacet_scrubFrom (s : State) (i : Nat) (f : FctxSt → FctxSt) : (s.updFacet i f).scrubFrom = s.scrubFrom := (rfl)
@[simp] theorem State.updFacet_rowsHit (s : State) (i : Nat) (f : FctxSt → FctxSt) : (s.updFacet i f).rowsHit = s.rowsHit := (rfl)
@[simp] theorem State.updFacet_bankCe (s : State) (i : Nat) (f : FctxSt → FctxSt) : (s.updFacet i f).bankCe = s.bankCe := (rfl)
@[simp] theorem State.updFacet_rowTests (s : State) (i : Nat) (f : FctxSt → FctxSt) : (s.updFacet i f).rowTests = s.rowTests := (rfl)
@[simp] theorem State.updFacet_pprDone (s : State) (i : Nat) (f : FctxSt → FctxSt) : (s.updFacet i f).pprDone = s.pprDone := (rfl)
@[simp] theorem State.updFacet_flash (s : State) (i : Nat) (f : FctxSt → FctxSt) : (s.updFacet i f).flash = s.flash := (rfl)
@[simp] theorem State.updFacet_tiles (s : State) (i : Nat) (f : FctxSt → FctxSt) : (s.updFacet i f).tiles = s.tiles := (rfl)
@[simp] theorem State.updFacet_queues (s : State) (i : Nat) (f : FctxSt → FctxSt) : (s.updFacet i f).queues = s.queues := (rfl)
@[simp] theorem State.updFacet_clusters (s : State) (i : Nat) (f : FctxSt → FctxSt) : (s.updFacet i f).clusters = s.clusters := (rfl)
@[simp] theorem State.updFacet_cluUnits (s : State) (i : Nat) (f : FctxSt → FctxSt) : (s.updFacet i f).cluUnits = s.cluUnits := (rfl)
@[simp] theorem State.updFacet_regions (s : State) (i : Nat) (f : FctxSt → FctxSt) : (s.updFacet i f).regions = s.regions := (rfl)
@[simp] theorem State.updFacet_rgnUnits (s : State) (i : Nat) (f : FctxSt → FctxSt) : (s.updFacet i f).rgnUnits = s.rgnUnits := (rfl)
@[simp] theorem State.updFacet_repair (s : State) (i : Nat) (f : FctxSt → FctxSt) : (s.updFacet i f).repair = s.repair := (rfl)
@[simp] theorem State.updFacet_slots (s : State) (i : Nat) (f : FctxSt → FctxSt) : (s.updFacet i f).slots = s.slots := (rfl)
@[simp] theorem State.updFacet_chans (s : State) (i : Nat) (f : FctxSt → FctxSt) : (s.updFacet i f).chans = s.chans := (rfl)
@[simp] theorem State.updFacet_dies (s : State) (i : Nat) (f : FctxSt → FctxSt) : (s.updFacet i f).dies = s.dies := (rfl)
@[simp] theorem State.updFacet_cams (s : State) (i : Nat) (f : FctxSt → FctxSt) : (s.updFacet i f).cams = s.cams := (rfl)
@[simp] theorem State.updFacet_pipes (s : State) (i : Nat) (f : FctxSt → FctxSt) : (s.updFacet i f).pipes = s.pipes := (rfl)
@[simp] theorem State.updFacet_range (s : State) (i : Nat) (f : FctxSt → FctxSt) : (s.updFacet i f).range = s.range := (rfl)
@[simp] theorem State.updFacet_hp (s : State) (i : Nat) (f : FctxSt → FctxSt) : (s.updFacet i f).hp = s.hp := (rfl)
@[simp] theorem State.updFacet_tb (s : State) (i : Nat) (f : FctxSt → FctxSt) : (s.updFacet i f).tb = s.tb := (rfl)
@[simp] theorem State.updFacet_beat (s : State) (i : Nat) (f : FctxSt → FctxSt) : (s.updFacet i f).beat = s.beat := (rfl)
@[simp] theorem State.updFacet_saf (s : State) (i : Nat) (f : FctxSt → FctxSt) : (s.updFacet i f).saf = s.saf := (rfl)
@[simp] theorem State.updFacet_ash (s : State) (i : Nat) (f : FctxSt → FctxSt) : (s.updFacet i f).ash = s.ash := (rfl)
@[simp] theorem State.updFacet_link (s : State) (i : Nat) (f : FctxSt → FctxSt) : (s.updFacet i f).link = s.link := (rfl)
@[simp] theorem State.updFacet_ctx (s : State) (i : Nat) (f : FctxSt → FctxSt) : (s.updFacet i f).ctx = s.ctx := (rfl)
@[simp] theorem State.updFacet_upd (s : State) (i : Nat) (f : FctxSt → FctxSt) : (s.updFacet i f).upd = s.upd := (rfl)
@[simp] theorem State.updFacet_sec (s : State) (i : Nat) (f : FctxSt → FctxSt) : (s.updFacet i f).sec = s.sec := (rfl)
@[simp] theorem State.updFacet_lat (s : State) (i : Nat) (f : FctxSt → FctxSt) : (s.updFacet i f).lat = s.lat := (rfl)
@[simp] theorem State.updFacet_cvu (s : State) (i : Nat) (f : FctxSt → FctxSt) : (s.updFacet i f).cvu = s.cvu := (rfl)
@[simp] theorem State.updFacet_image (s : State) (i : Nat) (f : FctxSt → FctxSt) : (s.updFacet i f).image = s.image := (rfl)
@[simp] theorem State.updFacet_suspects (s : State) (i : Nat) (f : FctxSt → FctxSt) : (s.updFacet i f).suspects = s.suspects := (rfl)
@[simp] theorem State.updFacet_starts (s : State) (i : Nat) (f : FctxSt → FctxSt) : (s.updFacet i f).starts = s.starts := (rfl)
@[simp] theorem State.updFacet_draws (s : State) (i : Nat) (f : FctxSt → FctxSt) : (s.updFacet i f).draws = s.draws := (rfl)
@[simp] theorem State.updFacet_facet_self (s : State) (i : Nat) (f : FctxSt → FctxSt) : (s.updFacet i f).facet i = f (s.facet i) := SMap.get_update_self _ _ _ _
theorem State.updFacet_facet_ne (s : State) (i : Nat) (f : FctxSt → FctxSt) (k : Nat) (h : k ≠ i) : (s.updFacet i f).facet k = s.facet k := SMap.get_update_ne _ _ _ _ _ h
theorem State.updFacet_facet (s : State) (i : Nat) (f : FctxSt → FctxSt) (k : Nat) : (s.updFacet i f).facet k = if k = i then f (s.facet i) else s.facet k := SMap.get_update _ _ _ _ _
@[simp] theorem State.updFacet_tile (s : State) (i : Nat) (f : FctxSt → FctxSt) (y : Nat) : (s.updFacet i f).tile y = s.tile y := (rfl)
@[simp] theorem State.updFacet_queue (s : State) (i : Nat) (f : FctxSt → FctxSt) (y : Nat) : (s.updFacet i f).queue y = s.queue y := (rfl)
@[simp] theorem State.updFacet_cluster (s : State) (i : Nat) (f : FctxSt → FctxSt) (y : Nat) : (s.updFacet i f).cluster y = s.cluster y := (rfl)
@[simp] theorem State.updFacet_cluUnit (s : State) (i : Nat) (f : FctxSt → FctxSt) (y : Nat) : (s.updFacet i f).cluUnit y = s.cluUnit y := (rfl)
@[simp] theorem State.updFacet_region (s : State) (i : Nat) (f : FctxSt → FctxSt) (y : Nat) : (s.updFacet i f).region y = s.region y := (rfl)
@[simp] theorem State.updFacet_rgnUnit (s : State) (i : Nat) (f : FctxSt → FctxSt) (y : Nat) : (s.updFacet i f).rgnUnit y = s.rgnUnit y := (rfl)
@[simp] theorem State.updFacet_slot (s : State) (i : Nat) (f : FctxSt → FctxSt) (y : Nat) : (s.updFacet i f).slot y = s.slot y := (rfl)
@[simp] theorem State.updFacet_chan (s : State) (i : Nat) (f : FctxSt → FctxSt) (y : Nat) : (s.updFacet i f).chan y = s.chan y := (rfl)
@[simp] theorem State.updFacet_die (s : State) (i : Nat) (f : FctxSt → FctxSt) (y : Nat) : (s.updFacet i f).die y = s.die y := (rfl)
@[simp] theorem State.updFacet_cam (s : State) (i : Nat) (f : FctxSt → FctxSt) (y : Nat) : (s.updFacet i f).cam y = s.cam y := (rfl)
@[simp] theorem State.updFacet_pipe (s : State) (i : Nat) (f : FctxSt → FctxSt) (y : Nat) : (s.updFacet i f).pipe y = s.pipe y := (rfl)
@[simp] theorem State.updFacet_mac (s : State) (i : Nat) (f : FctxSt → FctxSt) (y : Nat) : (s.updFacet i f).mac y = s.mac y := (rfl)
@[simp] theorem State.updFacet_hpath (s : State) (i : Nat) (f : FctxSt → FctxSt) (y : Nat) : (s.updFacet i f).hpath y = s.hpath y := (rfl)
@[simp] theorem State.updFacet_img (s : State) (i : Nat) (f : FctxSt → FctxSt) : (s.updFacet i f).img = s.img := (rfl)
@[simp] theorem State.updFacet_mode (s : State) (i : Nat) (f : FctxSt → FctxSt) : (s.updFacet i f).mode = s.mode := (rfl)
@[simp] theorem State.updFacet_isBench (s : State) (i : Nat) (f : FctxSt → FctxSt) : (s.updFacet i f).isBench = s.isBench := (rfl)
@[simp] theorem State.updFacet_compares (s : State) (i : Nat) (f : FctxSt → FctxSt) : (s.updFacet i f).compares = s.compares := (rfl)
@[simp] theorem State.updFacet_isReplay (s : State) (i : Nat) (f : FctxSt → FctxSt) : (s.updFacet i f).isReplay = s.isReplay := (rfl)
@[simp] theorem State.updFacet_alloc (s : State) (i : Nat) (f : FctxSt → FctxSt) (y : Nat) : (s.updFacet i f).alloc y = s.alloc y := (rfl)
@[simp] theorem State.updFacet_role (s : State) (i : Nat) (f : FctxSt → FctxSt) (y : Nat) : (s.updFacet i f).role y = s.role y := (rfl)
@[simp] theorem State.updFacet_schedule (s : State) (i : Nat) (f : FctxSt → FctxSt) : (s.updFacet i f).schedule = s.schedule := (rfl)
@[simp] theorem State.updFacet_commitTile (s : State) (i : Nat) (f : FctxSt → FctxSt) : (s.updFacet i f).commitTile = s.commitTile := (rfl)
@[simp] theorem State.updFacet_now (s : State) (i : Nat) (f : FctxSt → FctxSt) : (s.updFacet i f).now = s.now := (rfl)
@[simp] theorem State.updFacet_mono (s : State) (i : Nat) (f : FctxSt → FctxSt) : (s.updFacet i f).mono = s.mono := (rfl)
@[simp] theorem State.updFacet_stampAt (s : State) (i : Nat) (f : FctxSt → FctxSt) (x : Instant) : (s.updFacet i f).stampAt x = s.stampAt x := (rfl)
@[simp] theorem State.updFacet_stamp (s : State) (i : Nat) (f : FctxSt → FctxSt) : (s.updFacet i f).stamp = s.stamp := (rfl)
@[simp] theorem State.updFacet_dieNow (s : State) (i : Nat) (f : FctxSt → FctxSt) (y : Nat) : (s.updFacet i f).dieNow y = s.dieNow y := (rfl)
@[simp] theorem State.updFacet_dieStamp (s : State) (i : Nat) (f : FctxSt → FctxSt) (y : Nat) : (s.updFacet i f).dieStamp y = s.dieStamp y := (rfl)
@[simp] theorem State.updFacet_frameNs (s : State) (i : Nat) (f : FctxSt → FctxSt) : (s.updFacet i f).frameNs = s.frameNs := (rfl)
@[simp] theorem State.updFacet_beatNs (s : State) (i : Nat) (f : FctxSt → FctxSt) : (s.updFacet i f).beatNs = s.beatNs := (rfl)
@[simp] theorem State.updFacet_started (s : State) (i : Nat) (f : FctxSt → FctxSt) : (s.updFacet i f).started = s.started := (rfl)
@[simp] theorem State.updFacet_t0 (s : State) (i : Nat) (f : FctxSt → FctxSt) : (s.updFacet i f).t0 = s.t0 := (rfl)
@[simp] theorem State.updFacet_firstBeat (s : State) (i : Nat) (f : FctxSt → FctxSt) (y : Nat) : (s.updFacet i f).firstBeat y = s.firstBeat y := (rfl)
@[simp] theorem State.updFacet_frameOfBeat (s : State) (i : Nat) (f : FctxSt → FctxSt) (y : Nat) : (s.updFacet i f).frameOfBeat y = s.frameOfBeat y := (rfl)
@[simp] theorem State.updFacet_beatStart (s : State) (i : Nat) (f : FctxSt → FctxSt) (y : Nat) : (s.updFacet i f).beatStart y = s.beatStart y := (rfl)
@[simp] theorem State.updFacet_frameStart (s : State) (i : Nat) (f : FctxSt → FctxSt) (y : Nat) : (s.updFacet i f).frameStart y = s.frameStart y := (rfl)
@[simp] theorem State.updFacet_isBoundary (s : State) (i : Nat) (f : FctxSt → FctxSt) (y : Nat) : (s.updFacet i f).isBoundary y = s.isBoundary y := (rfl)
@[simp] theorem State.updFacet_frameAt (s : State) (i : Nat) (f : FctxSt → FctxSt) (x : Instant) : (s.updFacet i f).frameAt x = s.frameAt x := (rfl)
@[simp] theorem State.updFacet_txnDue (s : State) (i : Nat) (f : FctxSt → FctxSt) : (s.updFacet i f).txnDue = s.txnDue := (rfl)
@[simp] theorem State.updFacet_chip (s : State) (i : Nat) (f : FctxSt → FctxSt) : (s.updFacet i f).chip = s.chip := (rfl)
@[simp] theorem State.updFacet_port (s : State) (i : Nat) (f : FctxSt → FctxSt) (y : Nat) : (s.updFacet i f).port y = s.port y := (rfl)

/-! ### updMac -/

@[simp] theorem State.updMac_pending (s : State) (m : Nat) (f : RangeMacSt → RangeMacSt) : (s.updMac m f).pending = s.pending := (rfl)
@[simp] theorem State.updMac_part (s : State) (m : Nat) (f : RangeMacSt → RangeMacSt) : (s.updMac m f).part = s.part := (rfl)
@[simp] theorem State.updMac_stepping (s : State) (m : Nat) (f : RangeMacSt → RangeMacSt) : (s.updMac m f).stepping = s.stepping := (rfl)
@[simp] theorem State.updMac_fitted (s : State) (m : Nat) (f : RangeMacSt → RangeMacSt) : (s.updMac m f).fitted = s.fitted := (rfl)
@[simp] theorem State.updMac_dramRate (s : State) (m : Nat) (f : RangeMacSt → RangeMacSt) : (s.updMac m f).dramRate = s.dramRate := (rfl)
@[simp] theorem State.updMac_bistOk (s : State) (m : Nat) (f : RangeMacSt → RangeMacSt) : (s.updMac m f).bistOk = s.bistOk := (rfl)
@[simp] theorem State.updMac_tanexReset (s : State) (m : Nat) (f : RangeMacSt → RangeMacSt) : (s.updMac m f).tanexReset = s.tanexReset := (rfl)
@[simp] theorem State.updMac_thermTrip (s : State) (m : Nat) (f : RangeMacSt → RangeMacSt) : (s.updMac m f).thermTrip = s.thermTrip := (rfl)
@[simp] theorem State.updMac_prgSens (s : State) (m : Nat) (f : RangeMacSt → RangeMacSt) : (s.updMac m f).prgSens = s.prgSens := (rfl)
@[simp] theorem State.updMac_boot (s : State) (m : Nat) (f : RangeMacSt → RangeMacSt) : (s.updMac m f).boot = s.boot := (rfl)
@[simp] theorem State.updMac_mem (s : State) (m : Nat) (f : RangeMacSt → RangeMacSt) : (s.updMac m f).mem = s.mem := (rfl)
@[simp] theorem State.updMac_flips (s : State) (m : Nat) (f : RangeMacSt → RangeMacSt) : (s.updMac m f).flips = s.flips := (rfl)
@[simp] theorem State.updMac_peatDirty (s : State) (m : Nat) (f : RangeMacSt → RangeMacSt) : (s.updMac m f).peatDirty = s.peatDirty := (rfl)
@[simp] theorem State.updMac_dramDirty (s : State) (m : Nat) (f : RangeMacSt → RangeMacSt) : (s.updMac m f).dramDirty = s.dramDirty := (rfl)
@[simp] theorem State.updMac_scrubPos (s : State) (m : Nat) (f : RangeMacSt → RangeMacSt) : (s.updMac m f).scrubPos = s.scrubPos := (rfl)
@[simp] theorem State.updMac_scrubPass (s : State) (m : Nat) (f : RangeMacSt → RangeMacSt) : (s.updMac m f).scrubPass = s.scrubPass := (rfl)
@[simp] theorem State.updMac_scrubStart (s : State) (m : Nat) (f : RangeMacSt → RangeMacSt) : (s.updMac m f).scrubStart = s.scrubStart := (rfl)
@[simp] theorem State.updMac_scrubFrom (s : State) (m : Nat) (f : RangeMacSt → RangeMacSt) : (s.updMac m f).scrubFrom = s.scrubFrom := (rfl)
@[simp] theorem State.updMac_rowsHit (s : State) (m : Nat) (f : RangeMacSt → RangeMacSt) : (s.updMac m f).rowsHit = s.rowsHit := (rfl)
@[simp] theorem State.updMac_bankCe (s : State) (m : Nat) (f : RangeMacSt → RangeMacSt) : (s.updMac m f).bankCe = s.bankCe := (rfl)
@[simp] theorem State.updMac_rowTests (s : State) (m : Nat) (f : RangeMacSt → RangeMacSt) : (s.updMac m f).rowTests = s.rowTests := (rfl)
@[simp] theorem State.updMac_pprDone (s : State) (m : Nat) (f : RangeMacSt → RangeMacSt) : (s.updMac m f).pprDone = s.pprDone := (rfl)
@[simp] theorem State.updMac_flash (s : State) (m : Nat) (f : RangeMacSt → RangeMacSt) : (s.updMac m f).flash = s.flash := (rfl)
@[simp] theorem State.updMac_tiles (s : State) (m : Nat) (f : RangeMacSt → RangeMacSt) : (s.updMac m f).tiles = s.tiles := (rfl)
@[simp] theorem State.updMac_queues (s : State) (m : Nat) (f : RangeMacSt → RangeMacSt) : (s.updMac m f).queues = s.queues := (rfl)
@[simp] theorem State.updMac_clusters (s : State) (m : Nat) (f : RangeMacSt → RangeMacSt) : (s.updMac m f).clusters = s.clusters := (rfl)
@[simp] theorem State.updMac_cluUnits (s : State) (m : Nat) (f : RangeMacSt → RangeMacSt) : (s.updMac m f).cluUnits = s.cluUnits := (rfl)
@[simp] theorem State.updMac_regions (s : State) (m : Nat) (f : RangeMacSt → RangeMacSt) : (s.updMac m f).regions = s.regions := (rfl)
@[simp] theorem State.updMac_rgnUnits (s : State) (m : Nat) (f : RangeMacSt → RangeMacSt) : (s.updMac m f).rgnUnits = s.rgnUnits := (rfl)
@[simp] theorem State.updMac_repair (s : State) (m : Nat) (f : RangeMacSt → RangeMacSt) : (s.updMac m f).repair = s.repair := (rfl)
@[simp] theorem State.updMac_slots (s : State) (m : Nat) (f : RangeMacSt → RangeMacSt) : (s.updMac m f).slots = s.slots := (rfl)
@[simp] theorem State.updMac_chans (s : State) (m : Nat) (f : RangeMacSt → RangeMacSt) : (s.updMac m f).chans = s.chans := (rfl)
@[simp] theorem State.updMac_dies (s : State) (m : Nat) (f : RangeMacSt → RangeMacSt) : (s.updMac m f).dies = s.dies := (rfl)
@[simp] theorem State.updMac_cams (s : State) (m : Nat) (f : RangeMacSt → RangeMacSt) : (s.updMac m f).cams = s.cams := (rfl)
@[simp] theorem State.updMac_pipes (s : State) (m : Nat) (f : RangeMacSt → RangeMacSt) : (s.updMac m f).pipes = s.pipes := (rfl)
@[simp] theorem State.updMac_fctx (s : State) (m : Nat) (f : RangeMacSt → RangeMacSt) : (s.updMac m f).fctx = s.fctx := (rfl)
@[simp] theorem State.updMac_hp (s : State) (m : Nat) (f : RangeMacSt → RangeMacSt) : (s.updMac m f).hp = s.hp := (rfl)
@[simp] theorem State.updMac_tb (s : State) (m : Nat) (f : RangeMacSt → RangeMacSt) : (s.updMac m f).tb = s.tb := (rfl)
@[simp] theorem State.updMac_beat (s : State) (m : Nat) (f : RangeMacSt → RangeMacSt) : (s.updMac m f).beat = s.beat := (rfl)
@[simp] theorem State.updMac_saf (s : State) (m : Nat) (f : RangeMacSt → RangeMacSt) : (s.updMac m f).saf = s.saf := (rfl)
@[simp] theorem State.updMac_ash (s : State) (m : Nat) (f : RangeMacSt → RangeMacSt) : (s.updMac m f).ash = s.ash := (rfl)
@[simp] theorem State.updMac_link (s : State) (m : Nat) (f : RangeMacSt → RangeMacSt) : (s.updMac m f).link = s.link := (rfl)
@[simp] theorem State.updMac_ctx (s : State) (m : Nat) (f : RangeMacSt → RangeMacSt) : (s.updMac m f).ctx = s.ctx := (rfl)
@[simp] theorem State.updMac_upd (s : State) (m : Nat) (f : RangeMacSt → RangeMacSt) : (s.updMac m f).upd = s.upd := (rfl)
@[simp] theorem State.updMac_sec (s : State) (m : Nat) (f : RangeMacSt → RangeMacSt) : (s.updMac m f).sec = s.sec := (rfl)
@[simp] theorem State.updMac_lat (s : State) (m : Nat) (f : RangeMacSt → RangeMacSt) : (s.updMac m f).lat = s.lat := (rfl)
@[simp] theorem State.updMac_cvu (s : State) (m : Nat) (f : RangeMacSt → RangeMacSt) : (s.updMac m f).cvu = s.cvu := (rfl)
@[simp] theorem State.updMac_image (s : State) (m : Nat) (f : RangeMacSt → RangeMacSt) : (s.updMac m f).image = s.image := (rfl)
@[simp] theorem State.updMac_suspects (s : State) (m : Nat) (f : RangeMacSt → RangeMacSt) : (s.updMac m f).suspects = s.suspects := (rfl)
@[simp] theorem State.updMac_starts (s : State) (m : Nat) (f : RangeMacSt → RangeMacSt) : (s.updMac m f).starts = s.starts := (rfl)
@[simp] theorem State.updMac_draws (s : State) (m : Nat) (f : RangeMacSt → RangeMacSt) : (s.updMac m f).draws = s.draws := (rfl)
@[simp] theorem State.updMac_mac_self (s : State) (m : Nat) (f : RangeMacSt → RangeMacSt) : (s.updMac m f).mac m = f (s.mac m) := SMap.get_update_self _ _ _ _
theorem State.updMac_mac_ne (s : State) (m : Nat) (f : RangeMacSt → RangeMacSt) (k : Nat) (h : k ≠ m) : (s.updMac m f).mac k = s.mac k := SMap.get_update_ne _ _ _ _ _ h
theorem State.updMac_mac (s : State) (m : Nat) (f : RangeMacSt → RangeMacSt) (k : Nat) : (s.updMac m f).mac k = if k = m then f (s.mac m) else s.mac k := SMap.get_update _ _ _ _ _
@[simp] theorem State.updMac_tile (s : State) (m : Nat) (f : RangeMacSt → RangeMacSt) (y : Nat) : (s.updMac m f).tile y = s.tile y := (rfl)
@[simp] theorem State.updMac_queue (s : State) (m : Nat) (f : RangeMacSt → RangeMacSt) (y : Nat) : (s.updMac m f).queue y = s.queue y := (rfl)
@[simp] theorem State.updMac_cluster (s : State) (m : Nat) (f : RangeMacSt → RangeMacSt) (y : Nat) : (s.updMac m f).cluster y = s.cluster y := (rfl)
@[simp] theorem State.updMac_cluUnit (s : State) (m : Nat) (f : RangeMacSt → RangeMacSt) (y : Nat) : (s.updMac m f).cluUnit y = s.cluUnit y := (rfl)
@[simp] theorem State.updMac_region (s : State) (m : Nat) (f : RangeMacSt → RangeMacSt) (y : Nat) : (s.updMac m f).region y = s.region y := (rfl)
@[simp] theorem State.updMac_rgnUnit (s : State) (m : Nat) (f : RangeMacSt → RangeMacSt) (y : Nat) : (s.updMac m f).rgnUnit y = s.rgnUnit y := (rfl)
@[simp] theorem State.updMac_slot (s : State) (m : Nat) (f : RangeMacSt → RangeMacSt) (y : Nat) : (s.updMac m f).slot y = s.slot y := (rfl)
@[simp] theorem State.updMac_chan (s : State) (m : Nat) (f : RangeMacSt → RangeMacSt) (y : Nat) : (s.updMac m f).chan y = s.chan y := (rfl)
@[simp] theorem State.updMac_die (s : State) (m : Nat) (f : RangeMacSt → RangeMacSt) (y : Nat) : (s.updMac m f).die y = s.die y := (rfl)
@[simp] theorem State.updMac_cam (s : State) (m : Nat) (f : RangeMacSt → RangeMacSt) (y : Nat) : (s.updMac m f).cam y = s.cam y := (rfl)
@[simp] theorem State.updMac_pipe (s : State) (m : Nat) (f : RangeMacSt → RangeMacSt) (y : Nat) : (s.updMac m f).pipe y = s.pipe y := (rfl)
@[simp] theorem State.updMac_facet (s : State) (m : Nat) (f : RangeMacSt → RangeMacSt) (y : Nat) : (s.updMac m f).facet y = s.facet y := (rfl)
@[simp] theorem State.updMac_hpath (s : State) (m : Nat) (f : RangeMacSt → RangeMacSt) (y : Nat) : (s.updMac m f).hpath y = s.hpath y := (rfl)
@[simp] theorem State.updMac_img (s : State) (m : Nat) (f : RangeMacSt → RangeMacSt) : (s.updMac m f).img = s.img := (rfl)
@[simp] theorem State.updMac_mode (s : State) (m : Nat) (f : RangeMacSt → RangeMacSt) : (s.updMac m f).mode = s.mode := (rfl)
@[simp] theorem State.updMac_isBench (s : State) (m : Nat) (f : RangeMacSt → RangeMacSt) : (s.updMac m f).isBench = s.isBench := (rfl)
@[simp] theorem State.updMac_compares (s : State) (m : Nat) (f : RangeMacSt → RangeMacSt) : (s.updMac m f).compares = s.compares := (rfl)
@[simp] theorem State.updMac_isReplay (s : State) (m : Nat) (f : RangeMacSt → RangeMacSt) : (s.updMac m f).isReplay = s.isReplay := (rfl)
@[simp] theorem State.updMac_alloc (s : State) (m : Nat) (f : RangeMacSt → RangeMacSt) (y : Nat) : (s.updMac m f).alloc y = s.alloc y := (rfl)
@[simp] theorem State.updMac_role (s : State) (m : Nat) (f : RangeMacSt → RangeMacSt) (y : Nat) : (s.updMac m f).role y = s.role y := (rfl)
@[simp] theorem State.updMac_schedule (s : State) (m : Nat) (f : RangeMacSt → RangeMacSt) : (s.updMac m f).schedule = s.schedule := (rfl)
@[simp] theorem State.updMac_commitTile (s : State) (m : Nat) (f : RangeMacSt → RangeMacSt) : (s.updMac m f).commitTile = s.commitTile := (rfl)
@[simp] theorem State.updMac_now (s : State) (m : Nat) (f : RangeMacSt → RangeMacSt) : (s.updMac m f).now = s.now := (rfl)
@[simp] theorem State.updMac_mono (s : State) (m : Nat) (f : RangeMacSt → RangeMacSt) : (s.updMac m f).mono = s.mono := (rfl)
@[simp] theorem State.updMac_stampAt (s : State) (m : Nat) (f : RangeMacSt → RangeMacSt) (x : Instant) : (s.updMac m f).stampAt x = s.stampAt x := (rfl)
@[simp] theorem State.updMac_stamp (s : State) (m : Nat) (f : RangeMacSt → RangeMacSt) : (s.updMac m f).stamp = s.stamp := (rfl)
@[simp] theorem State.updMac_dieNow (s : State) (m : Nat) (f : RangeMacSt → RangeMacSt) (y : Nat) : (s.updMac m f).dieNow y = s.dieNow y := (rfl)
@[simp] theorem State.updMac_dieStamp (s : State) (m : Nat) (f : RangeMacSt → RangeMacSt) (y : Nat) : (s.updMac m f).dieStamp y = s.dieStamp y := (rfl)
@[simp] theorem State.updMac_frameNs (s : State) (m : Nat) (f : RangeMacSt → RangeMacSt) : (s.updMac m f).frameNs = s.frameNs := (rfl)
@[simp] theorem State.updMac_beatNs (s : State) (m : Nat) (f : RangeMacSt → RangeMacSt) : (s.updMac m f).beatNs = s.beatNs := (rfl)
@[simp] theorem State.updMac_started (s : State) (m : Nat) (f : RangeMacSt → RangeMacSt) : (s.updMac m f).started = s.started := (rfl)
@[simp] theorem State.updMac_t0 (s : State) (m : Nat) (f : RangeMacSt → RangeMacSt) : (s.updMac m f).t0 = s.t0 := (rfl)
@[simp] theorem State.updMac_firstBeat (s : State) (m : Nat) (f : RangeMacSt → RangeMacSt) (y : Nat) : (s.updMac m f).firstBeat y = s.firstBeat y := (rfl)
@[simp] theorem State.updMac_frameOfBeat (s : State) (m : Nat) (f : RangeMacSt → RangeMacSt) (y : Nat) : (s.updMac m f).frameOfBeat y = s.frameOfBeat y := (rfl)
@[simp] theorem State.updMac_beatStart (s : State) (m : Nat) (f : RangeMacSt → RangeMacSt) (y : Nat) : (s.updMac m f).beatStart y = s.beatStart y := (rfl)
@[simp] theorem State.updMac_frameStart (s : State) (m : Nat) (f : RangeMacSt → RangeMacSt) (y : Nat) : (s.updMac m f).frameStart y = s.frameStart y := (rfl)
@[simp] theorem State.updMac_isBoundary (s : State) (m : Nat) (f : RangeMacSt → RangeMacSt) (y : Nat) : (s.updMac m f).isBoundary y = s.isBoundary y := (rfl)
@[simp] theorem State.updMac_frameAt (s : State) (m : Nat) (f : RangeMacSt → RangeMacSt) (x : Instant) : (s.updMac m f).frameAt x = s.frameAt x := (rfl)
@[simp] theorem State.updMac_txnDue (s : State) (m : Nat) (f : RangeMacSt → RangeMacSt) : (s.updMac m f).txnDue = s.txnDue := (rfl)
@[simp] theorem State.updMac_chip (s : State) (m : Nat) (f : RangeMacSt → RangeMacSt) : (s.updMac m f).chip = s.chip := (rfl)
@[simp] theorem State.updMac_port (s : State) (m : Nat) (f : RangeMacSt → RangeMacSt) (y : Nat) : (s.updMac m f).port y = s.port y := (rfl)

/-! ### updHpath -/

@[simp] theorem State.updHpath_pending (s : State) (m : Nat) (f : HpSt → HpSt) : (s.updHpath m f).pending = s.pending := (rfl)
@[simp] theorem State.updHpath_part (s : State) (m : Nat) (f : HpSt → HpSt) : (s.updHpath m f).part = s.part := (rfl)
@[simp] theorem State.updHpath_stepping (s : State) (m : Nat) (f : HpSt → HpSt) : (s.updHpath m f).stepping = s.stepping := (rfl)
@[simp] theorem State.updHpath_fitted (s : State) (m : Nat) (f : HpSt → HpSt) : (s.updHpath m f).fitted = s.fitted := (rfl)
@[simp] theorem State.updHpath_dramRate (s : State) (m : Nat) (f : HpSt → HpSt) : (s.updHpath m f).dramRate = s.dramRate := (rfl)
@[simp] theorem State.updHpath_bistOk (s : State) (m : Nat) (f : HpSt → HpSt) : (s.updHpath m f).bistOk = s.bistOk := (rfl)
@[simp] theorem State.updHpath_tanexReset (s : State) (m : Nat) (f : HpSt → HpSt) : (s.updHpath m f).tanexReset = s.tanexReset := (rfl)
@[simp] theorem State.updHpath_thermTrip (s : State) (m : Nat) (f : HpSt → HpSt) : (s.updHpath m f).thermTrip = s.thermTrip := (rfl)
@[simp] theorem State.updHpath_prgSens (s : State) (m : Nat) (f : HpSt → HpSt) : (s.updHpath m f).prgSens = s.prgSens := (rfl)
@[simp] theorem State.updHpath_boot (s : State) (m : Nat) (f : HpSt → HpSt) : (s.updHpath m f).boot = s.boot := (rfl)
@[simp] theorem State.updHpath_mem (s : State) (m : Nat) (f : HpSt → HpSt) : (s.updHpath m f).mem = s.mem := (rfl)
@[simp] theorem State.updHpath_flips (s : State) (m : Nat) (f : HpSt → HpSt) : (s.updHpath m f).flips = s.flips := (rfl)
@[simp] theorem State.updHpath_peatDirty (s : State) (m : Nat) (f : HpSt → HpSt) : (s.updHpath m f).peatDirty = s.peatDirty := (rfl)
@[simp] theorem State.updHpath_dramDirty (s : State) (m : Nat) (f : HpSt → HpSt) : (s.updHpath m f).dramDirty = s.dramDirty := (rfl)
@[simp] theorem State.updHpath_scrubPos (s : State) (m : Nat) (f : HpSt → HpSt) : (s.updHpath m f).scrubPos = s.scrubPos := (rfl)
@[simp] theorem State.updHpath_scrubPass (s : State) (m : Nat) (f : HpSt → HpSt) : (s.updHpath m f).scrubPass = s.scrubPass := (rfl)
@[simp] theorem State.updHpath_scrubStart (s : State) (m : Nat) (f : HpSt → HpSt) : (s.updHpath m f).scrubStart = s.scrubStart := (rfl)
@[simp] theorem State.updHpath_scrubFrom (s : State) (m : Nat) (f : HpSt → HpSt) : (s.updHpath m f).scrubFrom = s.scrubFrom := (rfl)
@[simp] theorem State.updHpath_rowsHit (s : State) (m : Nat) (f : HpSt → HpSt) : (s.updHpath m f).rowsHit = s.rowsHit := (rfl)
@[simp] theorem State.updHpath_bankCe (s : State) (m : Nat) (f : HpSt → HpSt) : (s.updHpath m f).bankCe = s.bankCe := (rfl)
@[simp] theorem State.updHpath_rowTests (s : State) (m : Nat) (f : HpSt → HpSt) : (s.updHpath m f).rowTests = s.rowTests := (rfl)
@[simp] theorem State.updHpath_pprDone (s : State) (m : Nat) (f : HpSt → HpSt) : (s.updHpath m f).pprDone = s.pprDone := (rfl)
@[simp] theorem State.updHpath_flash (s : State) (m : Nat) (f : HpSt → HpSt) : (s.updHpath m f).flash = s.flash := (rfl)
@[simp] theorem State.updHpath_tiles (s : State) (m : Nat) (f : HpSt → HpSt) : (s.updHpath m f).tiles = s.tiles := (rfl)
@[simp] theorem State.updHpath_queues (s : State) (m : Nat) (f : HpSt → HpSt) : (s.updHpath m f).queues = s.queues := (rfl)
@[simp] theorem State.updHpath_clusters (s : State) (m : Nat) (f : HpSt → HpSt) : (s.updHpath m f).clusters = s.clusters := (rfl)
@[simp] theorem State.updHpath_cluUnits (s : State) (m : Nat) (f : HpSt → HpSt) : (s.updHpath m f).cluUnits = s.cluUnits := (rfl)
@[simp] theorem State.updHpath_regions (s : State) (m : Nat) (f : HpSt → HpSt) : (s.updHpath m f).regions = s.regions := (rfl)
@[simp] theorem State.updHpath_rgnUnits (s : State) (m : Nat) (f : HpSt → HpSt) : (s.updHpath m f).rgnUnits = s.rgnUnits := (rfl)
@[simp] theorem State.updHpath_repair (s : State) (m : Nat) (f : HpSt → HpSt) : (s.updHpath m f).repair = s.repair := (rfl)
@[simp] theorem State.updHpath_slots (s : State) (m : Nat) (f : HpSt → HpSt) : (s.updHpath m f).slots = s.slots := (rfl)
@[simp] theorem State.updHpath_chans (s : State) (m : Nat) (f : HpSt → HpSt) : (s.updHpath m f).chans = s.chans := (rfl)
@[simp] theorem State.updHpath_dies (s : State) (m : Nat) (f : HpSt → HpSt) : (s.updHpath m f).dies = s.dies := (rfl)
@[simp] theorem State.updHpath_cams (s : State) (m : Nat) (f : HpSt → HpSt) : (s.updHpath m f).cams = s.cams := (rfl)
@[simp] theorem State.updHpath_pipes (s : State) (m : Nat) (f : HpSt → HpSt) : (s.updHpath m f).pipes = s.pipes := (rfl)
@[simp] theorem State.updHpath_fctx (s : State) (m : Nat) (f : HpSt → HpSt) : (s.updHpath m f).fctx = s.fctx := (rfl)
@[simp] theorem State.updHpath_range (s : State) (m : Nat) (f : HpSt → HpSt) : (s.updHpath m f).range = s.range := (rfl)
@[simp] theorem State.updHpath_tb (s : State) (m : Nat) (f : HpSt → HpSt) : (s.updHpath m f).tb = s.tb := (rfl)
@[simp] theorem State.updHpath_beat (s : State) (m : Nat) (f : HpSt → HpSt) : (s.updHpath m f).beat = s.beat := (rfl)
@[simp] theorem State.updHpath_saf (s : State) (m : Nat) (f : HpSt → HpSt) : (s.updHpath m f).saf = s.saf := (rfl)
@[simp] theorem State.updHpath_ash (s : State) (m : Nat) (f : HpSt → HpSt) : (s.updHpath m f).ash = s.ash := (rfl)
@[simp] theorem State.updHpath_link (s : State) (m : Nat) (f : HpSt → HpSt) : (s.updHpath m f).link = s.link := (rfl)
@[simp] theorem State.updHpath_ctx (s : State) (m : Nat) (f : HpSt → HpSt) : (s.updHpath m f).ctx = s.ctx := (rfl)
@[simp] theorem State.updHpath_upd (s : State) (m : Nat) (f : HpSt → HpSt) : (s.updHpath m f).upd = s.upd := (rfl)
@[simp] theorem State.updHpath_sec (s : State) (m : Nat) (f : HpSt → HpSt) : (s.updHpath m f).sec = s.sec := (rfl)
@[simp] theorem State.updHpath_lat (s : State) (m : Nat) (f : HpSt → HpSt) : (s.updHpath m f).lat = s.lat := (rfl)
@[simp] theorem State.updHpath_cvu (s : State) (m : Nat) (f : HpSt → HpSt) : (s.updHpath m f).cvu = s.cvu := (rfl)
@[simp] theorem State.updHpath_image (s : State) (m : Nat) (f : HpSt → HpSt) : (s.updHpath m f).image = s.image := (rfl)
@[simp] theorem State.updHpath_suspects (s : State) (m : Nat) (f : HpSt → HpSt) : (s.updHpath m f).suspects = s.suspects := (rfl)
@[simp] theorem State.updHpath_starts (s : State) (m : Nat) (f : HpSt → HpSt) : (s.updHpath m f).starts = s.starts := (rfl)
@[simp] theorem State.updHpath_draws (s : State) (m : Nat) (f : HpSt → HpSt) : (s.updHpath m f).draws = s.draws := (rfl)
@[simp] theorem State.updHpath_hpath_self (s : State) (m : Nat) (f : HpSt → HpSt) : (s.updHpath m f).hpath m = f (s.hpath m) := SMap.get_update_self _ _ _ _
theorem State.updHpath_hpath_ne (s : State) (m : Nat) (f : HpSt → HpSt) (k : Nat) (h : k ≠ m) : (s.updHpath m f).hpath k = s.hpath k := SMap.get_update_ne _ _ _ _ _ h
theorem State.updHpath_hpath (s : State) (m : Nat) (f : HpSt → HpSt) (k : Nat) : (s.updHpath m f).hpath k = if k = m then f (s.hpath m) else s.hpath k := SMap.get_update _ _ _ _ _
@[simp] theorem State.updHpath_tile (s : State) (m : Nat) (f : HpSt → HpSt) (y : Nat) : (s.updHpath m f).tile y = s.tile y := (rfl)
@[simp] theorem State.updHpath_queue (s : State) (m : Nat) (f : HpSt → HpSt) (y : Nat) : (s.updHpath m f).queue y = s.queue y := (rfl)
@[simp] theorem State.updHpath_cluster (s : State) (m : Nat) (f : HpSt → HpSt) (y : Nat) : (s.updHpath m f).cluster y = s.cluster y := (rfl)
@[simp] theorem State.updHpath_cluUnit (s : State) (m : Nat) (f : HpSt → HpSt) (y : Nat) : (s.updHpath m f).cluUnit y = s.cluUnit y := (rfl)
@[simp] theorem State.updHpath_region (s : State) (m : Nat) (f : HpSt → HpSt) (y : Nat) : (s.updHpath m f).region y = s.region y := (rfl)
@[simp] theorem State.updHpath_rgnUnit (s : State) (m : Nat) (f : HpSt → HpSt) (y : Nat) : (s.updHpath m f).rgnUnit y = s.rgnUnit y := (rfl)
@[simp] theorem State.updHpath_slot (s : State) (m : Nat) (f : HpSt → HpSt) (y : Nat) : (s.updHpath m f).slot y = s.slot y := (rfl)
@[simp] theorem State.updHpath_chan (s : State) (m : Nat) (f : HpSt → HpSt) (y : Nat) : (s.updHpath m f).chan y = s.chan y := (rfl)
@[simp] theorem State.updHpath_die (s : State) (m : Nat) (f : HpSt → HpSt) (y : Nat) : (s.updHpath m f).die y = s.die y := (rfl)
@[simp] theorem State.updHpath_cam (s : State) (m : Nat) (f : HpSt → HpSt) (y : Nat) : (s.updHpath m f).cam y = s.cam y := (rfl)
@[simp] theorem State.updHpath_pipe (s : State) (m : Nat) (f : HpSt → HpSt) (y : Nat) : (s.updHpath m f).pipe y = s.pipe y := (rfl)
@[simp] theorem State.updHpath_facet (s : State) (m : Nat) (f : HpSt → HpSt) (y : Nat) : (s.updHpath m f).facet y = s.facet y := (rfl)
@[simp] theorem State.updHpath_mac (s : State) (m : Nat) (f : HpSt → HpSt) (y : Nat) : (s.updHpath m f).mac y = s.mac y := (rfl)
@[simp] theorem State.updHpath_img (s : State) (m : Nat) (f : HpSt → HpSt) : (s.updHpath m f).img = s.img := (rfl)
@[simp] theorem State.updHpath_mode (s : State) (m : Nat) (f : HpSt → HpSt) : (s.updHpath m f).mode = s.mode := (rfl)
@[simp] theorem State.updHpath_isBench (s : State) (m : Nat) (f : HpSt → HpSt) : (s.updHpath m f).isBench = s.isBench := (rfl)
@[simp] theorem State.updHpath_compares (s : State) (m : Nat) (f : HpSt → HpSt) : (s.updHpath m f).compares = s.compares := (rfl)
@[simp] theorem State.updHpath_isReplay (s : State) (m : Nat) (f : HpSt → HpSt) : (s.updHpath m f).isReplay = s.isReplay := (rfl)
@[simp] theorem State.updHpath_alloc (s : State) (m : Nat) (f : HpSt → HpSt) (y : Nat) : (s.updHpath m f).alloc y = s.alloc y := (rfl)
@[simp] theorem State.updHpath_role (s : State) (m : Nat) (f : HpSt → HpSt) (y : Nat) : (s.updHpath m f).role y = s.role y := (rfl)
@[simp] theorem State.updHpath_schedule (s : State) (m : Nat) (f : HpSt → HpSt) : (s.updHpath m f).schedule = s.schedule := (rfl)
@[simp] theorem State.updHpath_commitTile (s : State) (m : Nat) (f : HpSt → HpSt) : (s.updHpath m f).commitTile = s.commitTile := (rfl)
@[simp] theorem State.updHpath_now (s : State) (m : Nat) (f : HpSt → HpSt) : (s.updHpath m f).now = s.now := (rfl)
@[simp] theorem State.updHpath_mono (s : State) (m : Nat) (f : HpSt → HpSt) : (s.updHpath m f).mono = s.mono := (rfl)
@[simp] theorem State.updHpath_stampAt (s : State) (m : Nat) (f : HpSt → HpSt) (x : Instant) : (s.updHpath m f).stampAt x = s.stampAt x := (rfl)
@[simp] theorem State.updHpath_stamp (s : State) (m : Nat) (f : HpSt → HpSt) : (s.updHpath m f).stamp = s.stamp := (rfl)
@[simp] theorem State.updHpath_dieNow (s : State) (m : Nat) (f : HpSt → HpSt) (y : Nat) : (s.updHpath m f).dieNow y = s.dieNow y := (rfl)
@[simp] theorem State.updHpath_dieStamp (s : State) (m : Nat) (f : HpSt → HpSt) (y : Nat) : (s.updHpath m f).dieStamp y = s.dieStamp y := (rfl)
@[simp] theorem State.updHpath_frameNs (s : State) (m : Nat) (f : HpSt → HpSt) : (s.updHpath m f).frameNs = s.frameNs := (rfl)
@[simp] theorem State.updHpath_beatNs (s : State) (m : Nat) (f : HpSt → HpSt) : (s.updHpath m f).beatNs = s.beatNs := (rfl)
@[simp] theorem State.updHpath_started (s : State) (m : Nat) (f : HpSt → HpSt) : (s.updHpath m f).started = s.started := (rfl)
@[simp] theorem State.updHpath_t0 (s : State) (m : Nat) (f : HpSt → HpSt) : (s.updHpath m f).t0 = s.t0 := (rfl)
@[simp] theorem State.updHpath_firstBeat (s : State) (m : Nat) (f : HpSt → HpSt) (y : Nat) : (s.updHpath m f).firstBeat y = s.firstBeat y := (rfl)
@[simp] theorem State.updHpath_frameOfBeat (s : State) (m : Nat) (f : HpSt → HpSt) (y : Nat) : (s.updHpath m f).frameOfBeat y = s.frameOfBeat y := (rfl)
@[simp] theorem State.updHpath_beatStart (s : State) (m : Nat) (f : HpSt → HpSt) (y : Nat) : (s.updHpath m f).beatStart y = s.beatStart y := (rfl)
@[simp] theorem State.updHpath_frameStart (s : State) (m : Nat) (f : HpSt → HpSt) (y : Nat) : (s.updHpath m f).frameStart y = s.frameStart y := (rfl)
@[simp] theorem State.updHpath_isBoundary (s : State) (m : Nat) (f : HpSt → HpSt) (y : Nat) : (s.updHpath m f).isBoundary y = s.isBoundary y := (rfl)
@[simp] theorem State.updHpath_frameAt (s : State) (m : Nat) (f : HpSt → HpSt) (x : Instant) : (s.updHpath m f).frameAt x = s.frameAt x := (rfl)
@[simp] theorem State.updHpath_txnDue (s : State) (m : Nat) (f : HpSt → HpSt) : (s.updHpath m f).txnDue = s.txnDue := (rfl)
@[simp] theorem State.updHpath_chip (s : State) (m : Nat) (f : HpSt → HpSt) : (s.updHpath m f).chip = s.chip := (rfl)
@[simp] theorem State.updHpath_port (s : State) (m : Nat) (f : HpSt → HpSt) (y : Nat) : (s.updHpath m f).port y = s.port y := (rfl)

/-! ### updPort -/

@[simp] theorem State.updPort_pending (s : State) (d : Nat) (f : PortSt → PortSt) : (s.updPort d f).pending = s.pending := (rfl)
@[simp] theorem State.updPort_part (s : State) (d : Nat) (f : PortSt → PortSt) : (s.updPort d f).part = s.part := (rfl)
@[simp] theorem State.updPort_stepping (s : State) (d : Nat) (f : PortSt → PortSt) : (s.updPort d f).stepping = s.stepping := (rfl)
@[simp] theorem State.updPort_fitted (s : State) (d : Nat) (f : PortSt → PortSt) : (s.updPort d f).fitted = s.fitted := (rfl)
@[simp] theorem State.updPort_dramRate (s : State) (d : Nat) (f : PortSt → PortSt) : (s.updPort d f).dramRate = s.dramRate := (rfl)
@[simp] theorem State.updPort_bistOk (s : State) (d : Nat) (f : PortSt → PortSt) : (s.updPort d f).bistOk = s.bistOk := (rfl)
@[simp] theorem State.updPort_tanexReset (s : State) (d : Nat) (f : PortSt → PortSt) : (s.updPort d f).tanexReset = s.tanexReset := (rfl)
@[simp] theorem State.updPort_thermTrip (s : State) (d : Nat) (f : PortSt → PortSt) : (s.updPort d f).thermTrip = s.thermTrip := (rfl)
@[simp] theorem State.updPort_prgSens (s : State) (d : Nat) (f : PortSt → PortSt) : (s.updPort d f).prgSens = s.prgSens := (rfl)
@[simp] theorem State.updPort_boot (s : State) (d : Nat) (f : PortSt → PortSt) : (s.updPort d f).boot = s.boot := (rfl)
@[simp] theorem State.updPort_mem (s : State) (d : Nat) (f : PortSt → PortSt) : (s.updPort d f).mem = s.mem := (rfl)
@[simp] theorem State.updPort_flips (s : State) (d : Nat) (f : PortSt → PortSt) : (s.updPort d f).flips = s.flips := (rfl)
@[simp] theorem State.updPort_peatDirty (s : State) (d : Nat) (f : PortSt → PortSt) : (s.updPort d f).peatDirty = s.peatDirty := (rfl)
@[simp] theorem State.updPort_dramDirty (s : State) (d : Nat) (f : PortSt → PortSt) : (s.updPort d f).dramDirty = s.dramDirty := (rfl)
@[simp] theorem State.updPort_scrubPos (s : State) (d : Nat) (f : PortSt → PortSt) : (s.updPort d f).scrubPos = s.scrubPos := (rfl)
@[simp] theorem State.updPort_scrubPass (s : State) (d : Nat) (f : PortSt → PortSt) : (s.updPort d f).scrubPass = s.scrubPass := (rfl)
@[simp] theorem State.updPort_scrubStart (s : State) (d : Nat) (f : PortSt → PortSt) : (s.updPort d f).scrubStart = s.scrubStart := (rfl)
@[simp] theorem State.updPort_scrubFrom (s : State) (d : Nat) (f : PortSt → PortSt) : (s.updPort d f).scrubFrom = s.scrubFrom := (rfl)
@[simp] theorem State.updPort_rowsHit (s : State) (d : Nat) (f : PortSt → PortSt) : (s.updPort d f).rowsHit = s.rowsHit := (rfl)
@[simp] theorem State.updPort_bankCe (s : State) (d : Nat) (f : PortSt → PortSt) : (s.updPort d f).bankCe = s.bankCe := (rfl)
@[simp] theorem State.updPort_rowTests (s : State) (d : Nat) (f : PortSt → PortSt) : (s.updPort d f).rowTests = s.rowTests := (rfl)
@[simp] theorem State.updPort_pprDone (s : State) (d : Nat) (f : PortSt → PortSt) : (s.updPort d f).pprDone = s.pprDone := (rfl)
@[simp] theorem State.updPort_flash (s : State) (d : Nat) (f : PortSt → PortSt) : (s.updPort d f).flash = s.flash := (rfl)
@[simp] theorem State.updPort_tiles (s : State) (d : Nat) (f : PortSt → PortSt) : (s.updPort d f).tiles = s.tiles := (rfl)
@[simp] theorem State.updPort_queues (s : State) (d : Nat) (f : PortSt → PortSt) : (s.updPort d f).queues = s.queues := (rfl)
@[simp] theorem State.updPort_clusters (s : State) (d : Nat) (f : PortSt → PortSt) : (s.updPort d f).clusters = s.clusters := (rfl)
@[simp] theorem State.updPort_cluUnits (s : State) (d : Nat) (f : PortSt → PortSt) : (s.updPort d f).cluUnits = s.cluUnits := (rfl)
@[simp] theorem State.updPort_regions (s : State) (d : Nat) (f : PortSt → PortSt) : (s.updPort d f).regions = s.regions := (rfl)
@[simp] theorem State.updPort_rgnUnits (s : State) (d : Nat) (f : PortSt → PortSt) : (s.updPort d f).rgnUnits = s.rgnUnits := (rfl)
@[simp] theorem State.updPort_repair (s : State) (d : Nat) (f : PortSt → PortSt) : (s.updPort d f).repair = s.repair := (rfl)
@[simp] theorem State.updPort_slots (s : State) (d : Nat) (f : PortSt → PortSt) : (s.updPort d f).slots = s.slots := (rfl)
@[simp] theorem State.updPort_chans (s : State) (d : Nat) (f : PortSt → PortSt) : (s.updPort d f).chans = s.chans := (rfl)
@[simp] theorem State.updPort_cams (s : State) (d : Nat) (f : PortSt → PortSt) : (s.updPort d f).cams = s.cams := (rfl)
@[simp] theorem State.updPort_pipes (s : State) (d : Nat) (f : PortSt → PortSt) : (s.updPort d f).pipes = s.pipes := (rfl)
@[simp] theorem State.updPort_fctx (s : State) (d : Nat) (f : PortSt → PortSt) : (s.updPort d f).fctx = s.fctx := (rfl)
@[simp] theorem State.updPort_range (s : State) (d : Nat) (f : PortSt → PortSt) : (s.updPort d f).range = s.range := (rfl)
@[simp] theorem State.updPort_hp (s : State) (d : Nat) (f : PortSt → PortSt) : (s.updPort d f).hp = s.hp := (rfl)
@[simp] theorem State.updPort_tb (s : State) (d : Nat) (f : PortSt → PortSt) : (s.updPort d f).tb = s.tb := (rfl)
@[simp] theorem State.updPort_beat (s : State) (d : Nat) (f : PortSt → PortSt) : (s.updPort d f).beat = s.beat := (rfl)
@[simp] theorem State.updPort_saf (s : State) (d : Nat) (f : PortSt → PortSt) : (s.updPort d f).saf = s.saf := (rfl)
@[simp] theorem State.updPort_ash (s : State) (d : Nat) (f : PortSt → PortSt) : (s.updPort d f).ash = s.ash := (rfl)
@[simp] theorem State.updPort_link (s : State) (d : Nat) (f : PortSt → PortSt) : (s.updPort d f).link = s.link := (rfl)
@[simp] theorem State.updPort_ctx (s : State) (d : Nat) (f : PortSt → PortSt) : (s.updPort d f).ctx = s.ctx := (rfl)
@[simp] theorem State.updPort_upd (s : State) (d : Nat) (f : PortSt → PortSt) : (s.updPort d f).upd = s.upd := (rfl)
@[simp] theorem State.updPort_sec (s : State) (d : Nat) (f : PortSt → PortSt) : (s.updPort d f).sec = s.sec := (rfl)
@[simp] theorem State.updPort_lat (s : State) (d : Nat) (f : PortSt → PortSt) : (s.updPort d f).lat = s.lat := (rfl)
@[simp] theorem State.updPort_cvu (s : State) (d : Nat) (f : PortSt → PortSt) : (s.updPort d f).cvu = s.cvu := (rfl)
@[simp] theorem State.updPort_image (s : State) (d : Nat) (f : PortSt → PortSt) : (s.updPort d f).image = s.image := (rfl)
@[simp] theorem State.updPort_suspects (s : State) (d : Nat) (f : PortSt → PortSt) : (s.updPort d f).suspects = s.suspects := (rfl)
@[simp] theorem State.updPort_starts (s : State) (d : Nat) (f : PortSt → PortSt) : (s.updPort d f).starts = s.starts := (rfl)
@[simp] theorem State.updPort_draws (s : State) (d : Nat) (f : PortSt → PortSt) : (s.updPort d f).draws = s.draws := (rfl)
@[simp] theorem State.updPort_port_self (s : State) (d : Nat) (f : PortSt → PortSt) : (s.updPort d f).port d = f (s.port d) := by simp [State.updPort, State.port]
theorem State.updPort_port_ne (s : State) (d : Nat) (f : PortSt → PortSt) (k : Nat) (h : k ≠ d) : (s.updPort d f).port k = s.port k := by simp [State.updPort, State.port, State.updDie_die_ne _ _ _ _ h]
theorem State.updPort_die_ne (s : State) (d : Nat) (f : PortSt → PortSt) (k : Nat) (h : k ≠ d) : (s.updPort d f).die k = s.die k := State.updDie_die_ne _ _ _ _ h
@[simp] theorem State.updPort_tile (s : State) (d : Nat) (f : PortSt → PortSt) (y : Nat) : (s.updPort d f).tile y = s.tile y := (rfl)
@[simp] theorem State.updPort_queue (s : State) (d : Nat) (f : PortSt → PortSt) (y : Nat) : (s.updPort d f).queue y = s.queue y := (rfl)
@[simp] theorem State.updPort_cluster (s : State) (d : Nat) (f : PortSt → PortSt) (y : Nat) : (s.updPort d f).cluster y = s.cluster y := (rfl)
@[simp] theorem State.updPort_cluUnit (s : State) (d : Nat) (f : PortSt → PortSt) (y : Nat) : (s.updPort d f).cluUnit y = s.cluUnit y := (rfl)
@[simp] theorem State.updPort_region (s : State) (d : Nat) (f : PortSt → PortSt) (y : Nat) : (s.updPort d f).region y = s.region y := (rfl)
@[simp] theorem State.updPort_rgnUnit (s : State) (d : Nat) (f : PortSt → PortSt) (y : Nat) : (s.updPort d f).rgnUnit y = s.rgnUnit y := (rfl)
@[simp] theorem State.updPort_slot (s : State) (d : Nat) (f : PortSt → PortSt) (y : Nat) : (s.updPort d f).slot y = s.slot y := (rfl)
@[simp] theorem State.updPort_chan (s : State) (d : Nat) (f : PortSt → PortSt) (y : Nat) : (s.updPort d f).chan y = s.chan y := (rfl)
@[simp] theorem State.updPort_cam (s : State) (d : Nat) (f : PortSt → PortSt) (y : Nat) : (s.updPort d f).cam y = s.cam y := (rfl)
@[simp] theorem State.updPort_pipe (s : State) (d : Nat) (f : PortSt → PortSt) (y : Nat) : (s.updPort d f).pipe y = s.pipe y := (rfl)
@[simp] theorem State.updPort_facet (s : State) (d : Nat) (f : PortSt → PortSt) (y : Nat) : (s.updPort d f).facet y = s.facet y := (rfl)
@[simp] theorem State.updPort_mac (s : State) (d : Nat) (f : PortSt → PortSt) (y : Nat) : (s.updPort d f).mac y = s.mac y := (rfl)
@[simp] theorem State.updPort_hpath (s : State) (d : Nat) (f : PortSt → PortSt) (y : Nat) : (s.updPort d f).hpath y = s.hpath y := (rfl)
@[simp] theorem State.updPort_img (s : State) (d : Nat) (f : PortSt → PortSt) : (s.updPort d f).img = s.img := (rfl)
@[simp] theorem State.updPort_mode (s : State) (d : Nat) (f : PortSt → PortSt) : (s.updPort d f).mode = s.mode := (rfl)
@[simp] theorem State.updPort_isBench (s : State) (d : Nat) (f : PortSt → PortSt) : (s.updPort d f).isBench = s.isBench := (rfl)
@[simp] theorem State.updPort_compares (s : State) (d : Nat) (f : PortSt → PortSt) : (s.updPort d f).compares = s.compares := (rfl)
@[simp] theorem State.updPort_isReplay (s : State) (d : Nat) (f : PortSt → PortSt) : (s.updPort d f).isReplay = s.isReplay := (rfl)
@[simp] theorem State.updPort_alloc (s : State) (d : Nat) (f : PortSt → PortSt) (y : Nat) : (s.updPort d f).alloc y = s.alloc y := (rfl)
@[simp] theorem State.updPort_role (s : State) (d : Nat) (f : PortSt → PortSt) (y : Nat) : (s.updPort d f).role y = s.role y := (rfl)
@[simp] theorem State.updPort_schedule (s : State) (d : Nat) (f : PortSt → PortSt) : (s.updPort d f).schedule = s.schedule := (rfl)
@[simp] theorem State.updPort_commitTile (s : State) (d : Nat) (f : PortSt → PortSt) : (s.updPort d f).commitTile = s.commitTile := (rfl)
@[simp] theorem State.updPort_now (s : State) (d : Nat) (f : PortSt → PortSt) : (s.updPort d f).now = s.now := (rfl)
@[simp] theorem State.updPort_mono (s : State) (d : Nat) (f : PortSt → PortSt) : (s.updPort d f).mono = s.mono := (rfl)
@[simp] theorem State.updPort_stampAt (s : State) (d : Nat) (f : PortSt → PortSt) (x : Instant) : (s.updPort d f).stampAt x = s.stampAt x := (rfl)
@[simp] theorem State.updPort_stamp (s : State) (d : Nat) (f : PortSt → PortSt) : (s.updPort d f).stamp = s.stamp := (rfl)
@[simp] theorem State.updPort_frameNs (s : State) (d : Nat) (f : PortSt → PortSt) : (s.updPort d f).frameNs = s.frameNs := (rfl)
@[simp] theorem State.updPort_beatNs (s : State) (d : Nat) (f : PortSt → PortSt) : (s.updPort d f).beatNs = s.beatNs := (rfl)
@[simp] theorem State.updPort_started (s : State) (d : Nat) (f : PortSt → PortSt) : (s.updPort d f).started = s.started := (rfl)
@[simp] theorem State.updPort_t0 (s : State) (d : Nat) (f : PortSt → PortSt) : (s.updPort d f).t0 = s.t0 := (rfl)
@[simp] theorem State.updPort_firstBeat (s : State) (d : Nat) (f : PortSt → PortSt) (y : Nat) : (s.updPort d f).firstBeat y = s.firstBeat y := (rfl)
@[simp] theorem State.updPort_frameOfBeat (s : State) (d : Nat) (f : PortSt → PortSt) (y : Nat) : (s.updPort d f).frameOfBeat y = s.frameOfBeat y := (rfl)
@[simp] theorem State.updPort_beatStart (s : State) (d : Nat) (f : PortSt → PortSt) (y : Nat) : (s.updPort d f).beatStart y = s.beatStart y := (rfl)
@[simp] theorem State.updPort_frameStart (s : State) (d : Nat) (f : PortSt → PortSt) (y : Nat) : (s.updPort d f).frameStart y = s.frameStart y := (rfl)
@[simp] theorem State.updPort_isBoundary (s : State) (d : Nat) (f : PortSt → PortSt) (y : Nat) : (s.updPort d f).isBoundary y = s.isBoundary y := (rfl)
@[simp] theorem State.updPort_frameAt (s : State) (d : Nat) (f : PortSt → PortSt) (x : Instant) : (s.updPort d f).frameAt x = s.frameAt x := (rfl)
@[simp] theorem State.updPort_txnDue (s : State) (d : Nat) (f : PortSt → PortSt) : (s.updPort d f).txnDue = s.txnDue := (rfl)
@[simp] theorem State.updPort_chip (s : State) (d : Nat) (f : PortSt → PortSt) : (s.updPort d f).chip = s.chip := (rfl)

/-! ### updTb -/

@[simp] theorem State.updTb_pending (s : State) (f : TimeBase → TimeBase) : (s.updTb f).pending = s.pending := (rfl)
@[simp] theorem State.updTb_part (s : State) (f : TimeBase → TimeBase) : (s.updTb f).part = s.part := (rfl)
@[simp] theorem State.updTb_stepping (s : State) (f : TimeBase → TimeBase) : (s.updTb f).stepping = s.stepping := (rfl)
@[simp] theorem State.updTb_fitted (s : State) (f : TimeBase → TimeBase) : (s.updTb f).fitted = s.fitted := (rfl)
@[simp] theorem State.updTb_dramRate (s : State) (f : TimeBase → TimeBase) : (s.updTb f).dramRate = s.dramRate := (rfl)
@[simp] theorem State.updTb_bistOk (s : State) (f : TimeBase → TimeBase) : (s.updTb f).bistOk = s.bistOk := (rfl)
@[simp] theorem State.updTb_tanexReset (s : State) (f : TimeBase → TimeBase) : (s.updTb f).tanexReset = s.tanexReset := (rfl)
@[simp] theorem State.updTb_thermTrip (s : State) (f : TimeBase → TimeBase) : (s.updTb f).thermTrip = s.thermTrip := (rfl)
@[simp] theorem State.updTb_prgSens (s : State) (f : TimeBase → TimeBase) : (s.updTb f).prgSens = s.prgSens := (rfl)
@[simp] theorem State.updTb_boot (s : State) (f : TimeBase → TimeBase) : (s.updTb f).boot = s.boot := (rfl)
@[simp] theorem State.updTb_mem (s : State) (f : TimeBase → TimeBase) : (s.updTb f).mem = s.mem := (rfl)
@[simp] theorem State.updTb_flips (s : State) (f : TimeBase → TimeBase) : (s.updTb f).flips = s.flips := (rfl)
@[simp] theorem State.updTb_peatDirty (s : State) (f : TimeBase → TimeBase) : (s.updTb f).peatDirty = s.peatDirty := (rfl)
@[simp] theorem State.updTb_dramDirty (s : State) (f : TimeBase → TimeBase) : (s.updTb f).dramDirty = s.dramDirty := (rfl)
@[simp] theorem State.updTb_scrubPos (s : State) (f : TimeBase → TimeBase) : (s.updTb f).scrubPos = s.scrubPos := (rfl)
@[simp] theorem State.updTb_scrubPass (s : State) (f : TimeBase → TimeBase) : (s.updTb f).scrubPass = s.scrubPass := (rfl)
@[simp] theorem State.updTb_scrubStart (s : State) (f : TimeBase → TimeBase) : (s.updTb f).scrubStart = s.scrubStart := (rfl)
@[simp] theorem State.updTb_scrubFrom (s : State) (f : TimeBase → TimeBase) : (s.updTb f).scrubFrom = s.scrubFrom := (rfl)
@[simp] theorem State.updTb_rowsHit (s : State) (f : TimeBase → TimeBase) : (s.updTb f).rowsHit = s.rowsHit := (rfl)
@[simp] theorem State.updTb_bankCe (s : State) (f : TimeBase → TimeBase) : (s.updTb f).bankCe = s.bankCe := (rfl)
@[simp] theorem State.updTb_rowTests (s : State) (f : TimeBase → TimeBase) : (s.updTb f).rowTests = s.rowTests := (rfl)
@[simp] theorem State.updTb_pprDone (s : State) (f : TimeBase → TimeBase) : (s.updTb f).pprDone = s.pprDone := (rfl)
@[simp] theorem State.updTb_flash (s : State) (f : TimeBase → TimeBase) : (s.updTb f).flash = s.flash := (rfl)
@[simp] theorem State.updTb_tiles (s : State) (f : TimeBase → TimeBase) : (s.updTb f).tiles = s.tiles := (rfl)
@[simp] theorem State.updTb_queues (s : State) (f : TimeBase → TimeBase) : (s.updTb f).queues = s.queues := (rfl)
@[simp] theorem State.updTb_clusters (s : State) (f : TimeBase → TimeBase) : (s.updTb f).clusters = s.clusters := (rfl)
@[simp] theorem State.updTb_cluUnits (s : State) (f : TimeBase → TimeBase) : (s.updTb f).cluUnits = s.cluUnits := (rfl)
@[simp] theorem State.updTb_regions (s : State) (f : TimeBase → TimeBase) : (s.updTb f).regions = s.regions := (rfl)
@[simp] theorem State.updTb_rgnUnits (s : State) (f : TimeBase → TimeBase) : (s.updTb f).rgnUnits = s.rgnUnits := (rfl)
@[simp] theorem State.updTb_repair (s : State) (f : TimeBase → TimeBase) : (s.updTb f).repair = s.repair := (rfl)
@[simp] theorem State.updTb_slots (s : State) (f : TimeBase → TimeBase) : (s.updTb f).slots = s.slots := (rfl)
@[simp] theorem State.updTb_chans (s : State) (f : TimeBase → TimeBase) : (s.updTb f).chans = s.chans := (rfl)
@[simp] theorem State.updTb_dies (s : State) (f : TimeBase → TimeBase) : (s.updTb f).dies = s.dies := (rfl)
@[simp] theorem State.updTb_cams (s : State) (f : TimeBase → TimeBase) : (s.updTb f).cams = s.cams := (rfl)
@[simp] theorem State.updTb_pipes (s : State) (f : TimeBase → TimeBase) : (s.updTb f).pipes = s.pipes := (rfl)
@[simp] theorem State.updTb_fctx (s : State) (f : TimeBase → TimeBase) : (s.updTb f).fctx = s.fctx := (rfl)
@[simp] theorem State.updTb_range (s : State) (f : TimeBase → TimeBase) : (s.updTb f).range = s.range := (rfl)
@[simp] theorem State.updTb_hp (s : State) (f : TimeBase → TimeBase) : (s.updTb f).hp = s.hp := (rfl)
@[simp] theorem State.updTb_beat (s : State) (f : TimeBase → TimeBase) : (s.updTb f).beat = s.beat := (rfl)
@[simp] theorem State.updTb_saf (s : State) (f : TimeBase → TimeBase) : (s.updTb f).saf = s.saf := (rfl)
@[simp] theorem State.updTb_ash (s : State) (f : TimeBase → TimeBase) : (s.updTb f).ash = s.ash := (rfl)
@[simp] theorem State.updTb_link (s : State) (f : TimeBase → TimeBase) : (s.updTb f).link = s.link := (rfl)
@[simp] theorem State.updTb_ctx (s : State) (f : TimeBase → TimeBase) : (s.updTb f).ctx = s.ctx := (rfl)
@[simp] theorem State.updTb_upd (s : State) (f : TimeBase → TimeBase) : (s.updTb f).upd = s.upd := (rfl)
@[simp] theorem State.updTb_sec (s : State) (f : TimeBase → TimeBase) : (s.updTb f).sec = s.sec := (rfl)
@[simp] theorem State.updTb_lat (s : State) (f : TimeBase → TimeBase) : (s.updTb f).lat = s.lat := (rfl)
@[simp] theorem State.updTb_cvu (s : State) (f : TimeBase → TimeBase) : (s.updTb f).cvu = s.cvu := (rfl)
@[simp] theorem State.updTb_image (s : State) (f : TimeBase → TimeBase) : (s.updTb f).image = s.image := (rfl)
@[simp] theorem State.updTb_suspects (s : State) (f : TimeBase → TimeBase) : (s.updTb f).suspects = s.suspects := (rfl)
@[simp] theorem State.updTb_starts (s : State) (f : TimeBase → TimeBase) : (s.updTb f).starts = s.starts := (rfl)
@[simp] theorem State.updTb_draws (s : State) (f : TimeBase → TimeBase) : (s.updTb f).draws = s.draws := (rfl)
@[simp] theorem State.updTb_tb (s : State) (f : TimeBase → TimeBase) : (s.updTb f).tb = f s.tb := (rfl)
@[simp] theorem State.updTb_tile (s : State) (f : TimeBase → TimeBase) (y : Nat) : (s.updTb f).tile y = s.tile y := (rfl)
@[simp] theorem State.updTb_queue (s : State) (f : TimeBase → TimeBase) (y : Nat) : (s.updTb f).queue y = s.queue y := (rfl)
@[simp] theorem State.updTb_cluster (s : State) (f : TimeBase → TimeBase) (y : Nat) : (s.updTb f).cluster y = s.cluster y := (rfl)
@[simp] theorem State.updTb_cluUnit (s : State) (f : TimeBase → TimeBase) (y : Nat) : (s.updTb f).cluUnit y = s.cluUnit y := (rfl)
@[simp] theorem State.updTb_region (s : State) (f : TimeBase → TimeBase) (y : Nat) : (s.updTb f).region y = s.region y := (rfl)
@[simp] theorem State.updTb_rgnUnit (s : State) (f : TimeBase → TimeBase) (y : Nat) : (s.updTb f).rgnUnit y = s.rgnUnit y := (rfl)
@[simp] theorem State.updTb_slot (s : State) (f : TimeBase → TimeBase) (y : Nat) : (s.updTb f).slot y = s.slot y := (rfl)
@[simp] theorem State.updTb_chan (s : State) (f : TimeBase → TimeBase) (y : Nat) : (s.updTb f).chan y = s.chan y := (rfl)
@[simp] theorem State.updTb_die (s : State) (f : TimeBase → TimeBase) (y : Nat) : (s.updTb f).die y = s.die y := (rfl)
@[simp] theorem State.updTb_cam (s : State) (f : TimeBase → TimeBase) (y : Nat) : (s.updTb f).cam y = s.cam y := (rfl)
@[simp] theorem State.updTb_pipe (s : State) (f : TimeBase → TimeBase) (y : Nat) : (s.updTb f).pipe y = s.pipe y := (rfl)
@[simp] theorem State.updTb_facet (s : State) (f : TimeBase → TimeBase) (y : Nat) : (s.updTb f).facet y = s.facet y := (rfl)
@[simp] theorem State.updTb_mac (s : State) (f : TimeBase → TimeBase) (y : Nat) : (s.updTb f).mac y = s.mac y := (rfl)
@[simp] theorem State.updTb_hpath (s : State) (f : TimeBase → TimeBase) (y : Nat) : (s.updTb f).hpath y = s.hpath y := (rfl)
@[simp] theorem State.updTb_img (s : State) (f : TimeBase → TimeBase) : (s.updTb f).img = s.img := (rfl)
@[simp] theorem State.updTb_mode (s : State) (f : TimeBase → TimeBase) : (s.updTb f).mode = s.mode := (rfl)
@[simp] theorem State.updTb_isBench (s : State) (f : TimeBase → TimeBase) : (s.updTb f).isBench = s.isBench := (rfl)
@[simp] theorem State.updTb_compares (s : State) (f : TimeBase → TimeBase) : (s.updTb f).compares = s.compares := (rfl)
@[simp] theorem State.updTb_isReplay (s : State) (f : TimeBase → TimeBase) : (s.updTb f).isReplay = s.isReplay := (rfl)
@[simp] theorem State.updTb_alloc (s : State) (f : TimeBase → TimeBase) (y : Nat) : (s.updTb f).alloc y = s.alloc y := (rfl)
@[simp] theorem State.updTb_role (s : State) (f : TimeBase → TimeBase) (y : Nat) : (s.updTb f).role y = s.role y := (rfl)
@[simp] theorem State.updTb_schedule (s : State) (f : TimeBase → TimeBase) : (s.updTb f).schedule = s.schedule := (rfl)
@[simp] theorem State.updTb_commitTile (s : State) (f : TimeBase → TimeBase) : (s.updTb f).commitTile = s.commitTile := (rfl)
@[simp] theorem State.updTb_frameNs (s : State) (f : TimeBase → TimeBase) : (s.updTb f).frameNs = s.frameNs := (rfl)
@[simp] theorem State.updTb_beatNs (s : State) (f : TimeBase → TimeBase) : (s.updTb f).beatNs = s.beatNs := (rfl)
@[simp] theorem State.updTb_firstBeat (s : State) (f : TimeBase → TimeBase) (y : Nat) : (s.updTb f).firstBeat y = s.firstBeat y := (rfl)
@[simp] theorem State.updTb_frameOfBeat (s : State) (f : TimeBase → TimeBase) (y : Nat) : (s.updTb f).frameOfBeat y = s.frameOfBeat y := (rfl)
@[simp] theorem State.updTb_isBoundary (s : State) (f : TimeBase → TimeBase) (y : Nat) : (s.updTb f).isBoundary y = s.isBoundary y := (rfl)
@[simp] theorem State.updTb_chip (s : State) (f : TimeBase → TimeBase) : (s.updTb f).chip = s.chip := (rfl)
@[simp] theorem State.updTb_port (s : State) (f : TimeBase → TimeBase) (y : Nat) : (s.updTb f).port y = s.port y := (rfl)

/-! ### updBeat -/

@[simp] theorem State.updBeat_pending (s : State) (f : BeatSt → BeatSt) : (s.updBeat f).pending = s.pending := (rfl)
@[simp] theorem State.updBeat_part (s : State) (f : BeatSt → BeatSt) : (s.updBeat f).part = s.part := (rfl)
@[simp] theorem State.updBeat_stepping (s : State) (f : BeatSt → BeatSt) : (s.updBeat f).stepping = s.stepping := (rfl)
@[simp] theorem State.updBeat_fitted (s : State) (f : BeatSt → BeatSt) : (s.updBeat f).fitted = s.fitted := (rfl)
@[simp] theorem State.updBeat_dramRate (s : State) (f : BeatSt → BeatSt) : (s.updBeat f).dramRate = s.dramRate := (rfl)
@[simp] theorem State.updBeat_bistOk (s : State) (f : BeatSt → BeatSt) : (s.updBeat f).bistOk = s.bistOk := (rfl)
@[simp] theorem State.updBeat_tanexReset (s : State) (f : BeatSt → BeatSt) : (s.updBeat f).tanexReset = s.tanexReset := (rfl)
@[simp] theorem State.updBeat_thermTrip (s : State) (f : BeatSt → BeatSt) : (s.updBeat f).thermTrip = s.thermTrip := (rfl)
@[simp] theorem State.updBeat_prgSens (s : State) (f : BeatSt → BeatSt) : (s.updBeat f).prgSens = s.prgSens := (rfl)
@[simp] theorem State.updBeat_boot (s : State) (f : BeatSt → BeatSt) : (s.updBeat f).boot = s.boot := (rfl)
@[simp] theorem State.updBeat_mem (s : State) (f : BeatSt → BeatSt) : (s.updBeat f).mem = s.mem := (rfl)
@[simp] theorem State.updBeat_flips (s : State) (f : BeatSt → BeatSt) : (s.updBeat f).flips = s.flips := (rfl)
@[simp] theorem State.updBeat_peatDirty (s : State) (f : BeatSt → BeatSt) : (s.updBeat f).peatDirty = s.peatDirty := (rfl)
@[simp] theorem State.updBeat_dramDirty (s : State) (f : BeatSt → BeatSt) : (s.updBeat f).dramDirty = s.dramDirty := (rfl)
@[simp] theorem State.updBeat_scrubPos (s : State) (f : BeatSt → BeatSt) : (s.updBeat f).scrubPos = s.scrubPos := (rfl)
@[simp] theorem State.updBeat_scrubPass (s : State) (f : BeatSt → BeatSt) : (s.updBeat f).scrubPass = s.scrubPass := (rfl)
@[simp] theorem State.updBeat_scrubStart (s : State) (f : BeatSt → BeatSt) : (s.updBeat f).scrubStart = s.scrubStart := (rfl)
@[simp] theorem State.updBeat_scrubFrom (s : State) (f : BeatSt → BeatSt) : (s.updBeat f).scrubFrom = s.scrubFrom := (rfl)
@[simp] theorem State.updBeat_rowsHit (s : State) (f : BeatSt → BeatSt) : (s.updBeat f).rowsHit = s.rowsHit := (rfl)
@[simp] theorem State.updBeat_bankCe (s : State) (f : BeatSt → BeatSt) : (s.updBeat f).bankCe = s.bankCe := (rfl)
@[simp] theorem State.updBeat_rowTests (s : State) (f : BeatSt → BeatSt) : (s.updBeat f).rowTests = s.rowTests := (rfl)
@[simp] theorem State.updBeat_pprDone (s : State) (f : BeatSt → BeatSt) : (s.updBeat f).pprDone = s.pprDone := (rfl)
@[simp] theorem State.updBeat_flash (s : State) (f : BeatSt → BeatSt) : (s.updBeat f).flash = s.flash := (rfl)
@[simp] theorem State.updBeat_tiles (s : State) (f : BeatSt → BeatSt) : (s.updBeat f).tiles = s.tiles := (rfl)
@[simp] theorem State.updBeat_queues (s : State) (f : BeatSt → BeatSt) : (s.updBeat f).queues = s.queues := (rfl)
@[simp] theorem State.updBeat_clusters (s : State) (f : BeatSt → BeatSt) : (s.updBeat f).clusters = s.clusters := (rfl)
@[simp] theorem State.updBeat_cluUnits (s : State) (f : BeatSt → BeatSt) : (s.updBeat f).cluUnits = s.cluUnits := (rfl)
@[simp] theorem State.updBeat_regions (s : State) (f : BeatSt → BeatSt) : (s.updBeat f).regions = s.regions := (rfl)
@[simp] theorem State.updBeat_rgnUnits (s : State) (f : BeatSt → BeatSt) : (s.updBeat f).rgnUnits = s.rgnUnits := (rfl)
@[simp] theorem State.updBeat_repair (s : State) (f : BeatSt → BeatSt) : (s.updBeat f).repair = s.repair := (rfl)
@[simp] theorem State.updBeat_slots (s : State) (f : BeatSt → BeatSt) : (s.updBeat f).slots = s.slots := (rfl)
@[simp] theorem State.updBeat_chans (s : State) (f : BeatSt → BeatSt) : (s.updBeat f).chans = s.chans := (rfl)
@[simp] theorem State.updBeat_dies (s : State) (f : BeatSt → BeatSt) : (s.updBeat f).dies = s.dies := (rfl)
@[simp] theorem State.updBeat_cams (s : State) (f : BeatSt → BeatSt) : (s.updBeat f).cams = s.cams := (rfl)
@[simp] theorem State.updBeat_pipes (s : State) (f : BeatSt → BeatSt) : (s.updBeat f).pipes = s.pipes := (rfl)
@[simp] theorem State.updBeat_fctx (s : State) (f : BeatSt → BeatSt) : (s.updBeat f).fctx = s.fctx := (rfl)
@[simp] theorem State.updBeat_range (s : State) (f : BeatSt → BeatSt) : (s.updBeat f).range = s.range := (rfl)
@[simp] theorem State.updBeat_hp (s : State) (f : BeatSt → BeatSt) : (s.updBeat f).hp = s.hp := (rfl)
@[simp] theorem State.updBeat_tb (s : State) (f : BeatSt → BeatSt) : (s.updBeat f).tb = s.tb := (rfl)
@[simp] theorem State.updBeat_saf (s : State) (f : BeatSt → BeatSt) : (s.updBeat f).saf = s.saf := (rfl)
@[simp] theorem State.updBeat_ash (s : State) (f : BeatSt → BeatSt) : (s.updBeat f).ash = s.ash := (rfl)
@[simp] theorem State.updBeat_link (s : State) (f : BeatSt → BeatSt) : (s.updBeat f).link = s.link := (rfl)
@[simp] theorem State.updBeat_ctx (s : State) (f : BeatSt → BeatSt) : (s.updBeat f).ctx = s.ctx := (rfl)
@[simp] theorem State.updBeat_upd (s : State) (f : BeatSt → BeatSt) : (s.updBeat f).upd = s.upd := (rfl)
@[simp] theorem State.updBeat_sec (s : State) (f : BeatSt → BeatSt) : (s.updBeat f).sec = s.sec := (rfl)
@[simp] theorem State.updBeat_lat (s : State) (f : BeatSt → BeatSt) : (s.updBeat f).lat = s.lat := (rfl)
@[simp] theorem State.updBeat_cvu (s : State) (f : BeatSt → BeatSt) : (s.updBeat f).cvu = s.cvu := (rfl)
@[simp] theorem State.updBeat_image (s : State) (f : BeatSt → BeatSt) : (s.updBeat f).image = s.image := (rfl)
@[simp] theorem State.updBeat_suspects (s : State) (f : BeatSt → BeatSt) : (s.updBeat f).suspects = s.suspects := (rfl)
@[simp] theorem State.updBeat_starts (s : State) (f : BeatSt → BeatSt) : (s.updBeat f).starts = s.starts := (rfl)
@[simp] theorem State.updBeat_draws (s : State) (f : BeatSt → BeatSt) : (s.updBeat f).draws = s.draws := (rfl)
@[simp] theorem State.updBeat_beat (s : State) (f : BeatSt → BeatSt) : (s.updBeat f).beat = f s.beat := (rfl)
@[simp] theorem State.updBeat_tile (s : State) (f : BeatSt → BeatSt) (y : Nat) : (s.updBeat f).tile y = s.tile y := (rfl)
@[simp] theorem State.updBeat_queue (s : State) (f : BeatSt → BeatSt) (y : Nat) : (s.updBeat f).queue y = s.queue y := (rfl)
@[simp] theorem State.updBeat_cluster (s : State) (f : BeatSt → BeatSt) (y : Nat) : (s.updBeat f).cluster y = s.cluster y := (rfl)
@[simp] theorem State.updBeat_cluUnit (s : State) (f : BeatSt → BeatSt) (y : Nat) : (s.updBeat f).cluUnit y = s.cluUnit y := (rfl)
@[simp] theorem State.updBeat_region (s : State) (f : BeatSt → BeatSt) (y : Nat) : (s.updBeat f).region y = s.region y := (rfl)
@[simp] theorem State.updBeat_rgnUnit (s : State) (f : BeatSt → BeatSt) (y : Nat) : (s.updBeat f).rgnUnit y = s.rgnUnit y := (rfl)
@[simp] theorem State.updBeat_slot (s : State) (f : BeatSt → BeatSt) (y : Nat) : (s.updBeat f).slot y = s.slot y := (rfl)
@[simp] theorem State.updBeat_chan (s : State) (f : BeatSt → BeatSt) (y : Nat) : (s.updBeat f).chan y = s.chan y := (rfl)
@[simp] theorem State.updBeat_die (s : State) (f : BeatSt → BeatSt) (y : Nat) : (s.updBeat f).die y = s.die y := (rfl)
@[simp] theorem State.updBeat_cam (s : State) (f : BeatSt → BeatSt) (y : Nat) : (s.updBeat f).cam y = s.cam y := (rfl)
@[simp] theorem State.updBeat_pipe (s : State) (f : BeatSt → BeatSt) (y : Nat) : (s.updBeat f).pipe y = s.pipe y := (rfl)
@[simp] theorem State.updBeat_facet (s : State) (f : BeatSt → BeatSt) (y : Nat) : (s.updBeat f).facet y = s.facet y := (rfl)
@[simp] theorem State.updBeat_mac (s : State) (f : BeatSt → BeatSt) (y : Nat) : (s.updBeat f).mac y = s.mac y := (rfl)
@[simp] theorem State.updBeat_hpath (s : State) (f : BeatSt → BeatSt) (y : Nat) : (s.updBeat f).hpath y = s.hpath y := (rfl)
@[simp] theorem State.updBeat_img (s : State) (f : BeatSt → BeatSt) : (s.updBeat f).img = s.img := (rfl)
@[simp] theorem State.updBeat_mode (s : State) (f : BeatSt → BeatSt) : (s.updBeat f).mode = s.mode := (rfl)
@[simp] theorem State.updBeat_isBench (s : State) (f : BeatSt → BeatSt) : (s.updBeat f).isBench = s.isBench := (rfl)
@[simp] theorem State.updBeat_compares (s : State) (f : BeatSt → BeatSt) : (s.updBeat f).compares = s.compares := (rfl)
@[simp] theorem State.updBeat_isReplay (s : State) (f : BeatSt → BeatSt) : (s.updBeat f).isReplay = s.isReplay := (rfl)
@[simp] theorem State.updBeat_alloc (s : State) (f : BeatSt → BeatSt) (y : Nat) : (s.updBeat f).alloc y = s.alloc y := (rfl)
@[simp] theorem State.updBeat_role (s : State) (f : BeatSt → BeatSt) (y : Nat) : (s.updBeat f).role y = s.role y := (rfl)
@[simp] theorem State.updBeat_now (s : State) (f : BeatSt → BeatSt) : (s.updBeat f).now = s.now := (rfl)
@[simp] theorem State.updBeat_mono (s : State) (f : BeatSt → BeatSt) : (s.updBeat f).mono = s.mono := (rfl)
@[simp] theorem State.updBeat_stampAt (s : State) (f : BeatSt → BeatSt) (x : Instant) : (s.updBeat f).stampAt x = s.stampAt x := (rfl)
@[simp] theorem State.updBeat_stamp (s : State) (f : BeatSt → BeatSt) : (s.updBeat f).stamp = s.stamp := (rfl)
@[simp] theorem State.updBeat_dieNow (s : State) (f : BeatSt → BeatSt) (y : Nat) : (s.updBeat f).dieNow y = s.dieNow y := (rfl)
@[simp] theorem State.updBeat_dieStamp (s : State) (f : BeatSt → BeatSt) (y : Nat) : (s.updBeat f).dieStamp y = s.dieStamp y := (rfl)
@[simp] theorem State.updBeat_frameNs (s : State) (f : BeatSt → BeatSt) : (s.updBeat f).frameNs = s.frameNs := (rfl)
@[simp] theorem State.updBeat_beatNs (s : State) (f : BeatSt → BeatSt) : (s.updBeat f).beatNs = s.beatNs := (rfl)
@[simp] theorem State.updBeat_started (s : State) (f : BeatSt → BeatSt) : (s.updBeat f).started = s.started := (rfl)
@[simp] theorem State.updBeat_t0 (s : State) (f : BeatSt → BeatSt) : (s.updBeat f).t0 = s.t0 := (rfl)
@[simp] theorem State.updBeat_firstBeat (s : State) (f : BeatSt → BeatSt) (y : Nat) : (s.updBeat f).firstBeat y = s.firstBeat y := (rfl)
@[simp] theorem State.updBeat_frameOfBeat (s : State) (f : BeatSt → BeatSt) (y : Nat) : (s.updBeat f).frameOfBeat y = s.frameOfBeat y := (rfl)
@[simp] theorem State.updBeat_beatStart (s : State) (f : BeatSt → BeatSt) (y : Nat) : (s.updBeat f).beatStart y = s.beatStart y := (rfl)
@[simp] theorem State.updBeat_frameStart (s : State) (f : BeatSt → BeatSt) (y : Nat) : (s.updBeat f).frameStart y = s.frameStart y := (rfl)
@[simp] theorem State.updBeat_isBoundary (s : State) (f : BeatSt → BeatSt) (y : Nat) : (s.updBeat f).isBoundary y = s.isBoundary y := (rfl)
@[simp] theorem State.updBeat_frameAt (s : State) (f : BeatSt → BeatSt) (x : Instant) : (s.updBeat f).frameAt x = s.frameAt x := (rfl)
@[simp] theorem State.updBeat_txnDue (s : State) (f : BeatSt → BeatSt) : (s.updBeat f).txnDue = s.txnDue := (rfl)
@[simp] theorem State.updBeat_chip (s : State) (f : BeatSt → BeatSt) : (s.updBeat f).chip = s.chip := (rfl)
@[simp] theorem State.updBeat_port (s : State) (f : BeatSt → BeatSt) (y : Nat) : (s.updBeat f).port y = s.port y := (rfl)

/-! ### updSaf -/

@[simp] theorem State.updSaf_pending (s : State) (f : SafetySt → SafetySt) : (s.updSaf f).pending = s.pending := (rfl)
@[simp] theorem State.updSaf_part (s : State) (f : SafetySt → SafetySt) : (s.updSaf f).part = s.part := (rfl)
@[simp] theorem State.updSaf_stepping (s : State) (f : SafetySt → SafetySt) : (s.updSaf f).stepping = s.stepping := (rfl)
@[simp] theorem State.updSaf_fitted (s : State) (f : SafetySt → SafetySt) : (s.updSaf f).fitted = s.fitted := (rfl)
@[simp] theorem State.updSaf_dramRate (s : State) (f : SafetySt → SafetySt) : (s.updSaf f).dramRate = s.dramRate := (rfl)
@[simp] theorem State.updSaf_bistOk (s : State) (f : SafetySt → SafetySt) : (s.updSaf f).bistOk = s.bistOk := (rfl)
@[simp] theorem State.updSaf_tanexReset (s : State) (f : SafetySt → SafetySt) : (s.updSaf f).tanexReset = s.tanexReset := (rfl)
@[simp] theorem State.updSaf_thermTrip (s : State) (f : SafetySt → SafetySt) : (s.updSaf f).thermTrip = s.thermTrip := (rfl)
@[simp] theorem State.updSaf_prgSens (s : State) (f : SafetySt → SafetySt) : (s.updSaf f).prgSens = s.prgSens := (rfl)
@[simp] theorem State.updSaf_boot (s : State) (f : SafetySt → SafetySt) : (s.updSaf f).boot = s.boot := (rfl)
@[simp] theorem State.updSaf_mem (s : State) (f : SafetySt → SafetySt) : (s.updSaf f).mem = s.mem := (rfl)
@[simp] theorem State.updSaf_flips (s : State) (f : SafetySt → SafetySt) : (s.updSaf f).flips = s.flips := (rfl)
@[simp] theorem State.updSaf_peatDirty (s : State) (f : SafetySt → SafetySt) : (s.updSaf f).peatDirty = s.peatDirty := (rfl)
@[simp] theorem State.updSaf_dramDirty (s : State) (f : SafetySt → SafetySt) : (s.updSaf f).dramDirty = s.dramDirty := (rfl)
@[simp] theorem State.updSaf_scrubPos (s : State) (f : SafetySt → SafetySt) : (s.updSaf f).scrubPos = s.scrubPos := (rfl)
@[simp] theorem State.updSaf_scrubPass (s : State) (f : SafetySt → SafetySt) : (s.updSaf f).scrubPass = s.scrubPass := (rfl)
@[simp] theorem State.updSaf_scrubStart (s : State) (f : SafetySt → SafetySt) : (s.updSaf f).scrubStart = s.scrubStart := (rfl)
@[simp] theorem State.updSaf_scrubFrom (s : State) (f : SafetySt → SafetySt) : (s.updSaf f).scrubFrom = s.scrubFrom := (rfl)
@[simp] theorem State.updSaf_rowsHit (s : State) (f : SafetySt → SafetySt) : (s.updSaf f).rowsHit = s.rowsHit := (rfl)
@[simp] theorem State.updSaf_bankCe (s : State) (f : SafetySt → SafetySt) : (s.updSaf f).bankCe = s.bankCe := (rfl)
@[simp] theorem State.updSaf_rowTests (s : State) (f : SafetySt → SafetySt) : (s.updSaf f).rowTests = s.rowTests := (rfl)
@[simp] theorem State.updSaf_pprDone (s : State) (f : SafetySt → SafetySt) : (s.updSaf f).pprDone = s.pprDone := (rfl)
@[simp] theorem State.updSaf_flash (s : State) (f : SafetySt → SafetySt) : (s.updSaf f).flash = s.flash := (rfl)
@[simp] theorem State.updSaf_tiles (s : State) (f : SafetySt → SafetySt) : (s.updSaf f).tiles = s.tiles := (rfl)
@[simp] theorem State.updSaf_queues (s : State) (f : SafetySt → SafetySt) : (s.updSaf f).queues = s.queues := (rfl)
@[simp] theorem State.updSaf_clusters (s : State) (f : SafetySt → SafetySt) : (s.updSaf f).clusters = s.clusters := (rfl)
@[simp] theorem State.updSaf_cluUnits (s : State) (f : SafetySt → SafetySt) : (s.updSaf f).cluUnits = s.cluUnits := (rfl)
@[simp] theorem State.updSaf_regions (s : State) (f : SafetySt → SafetySt) : (s.updSaf f).regions = s.regions := (rfl)
@[simp] theorem State.updSaf_rgnUnits (s : State) (f : SafetySt → SafetySt) : (s.updSaf f).rgnUnits = s.rgnUnits := (rfl)
@[simp] theorem State.updSaf_repair (s : State) (f : SafetySt → SafetySt) : (s.updSaf f).repair = s.repair := (rfl)
@[simp] theorem State.updSaf_slots (s : State) (f : SafetySt → SafetySt) : (s.updSaf f).slots = s.slots := (rfl)
@[simp] theorem State.updSaf_chans (s : State) (f : SafetySt → SafetySt) : (s.updSaf f).chans = s.chans := (rfl)
@[simp] theorem State.updSaf_dies (s : State) (f : SafetySt → SafetySt) : (s.updSaf f).dies = s.dies := (rfl)
@[simp] theorem State.updSaf_cams (s : State) (f : SafetySt → SafetySt) : (s.updSaf f).cams = s.cams := (rfl)
@[simp] theorem State.updSaf_pipes (s : State) (f : SafetySt → SafetySt) : (s.updSaf f).pipes = s.pipes := (rfl)
@[simp] theorem State.updSaf_fctx (s : State) (f : SafetySt → SafetySt) : (s.updSaf f).fctx = s.fctx := (rfl)
@[simp] theorem State.updSaf_range (s : State) (f : SafetySt → SafetySt) : (s.updSaf f).range = s.range := (rfl)
@[simp] theorem State.updSaf_hp (s : State) (f : SafetySt → SafetySt) : (s.updSaf f).hp = s.hp := (rfl)
@[simp] theorem State.updSaf_tb (s : State) (f : SafetySt → SafetySt) : (s.updSaf f).tb = s.tb := (rfl)
@[simp] theorem State.updSaf_beat (s : State) (f : SafetySt → SafetySt) : (s.updSaf f).beat = s.beat := (rfl)
@[simp] theorem State.updSaf_ash (s : State) (f : SafetySt → SafetySt) : (s.updSaf f).ash = s.ash := (rfl)
@[simp] theorem State.updSaf_link (s : State) (f : SafetySt → SafetySt) : (s.updSaf f).link = s.link := (rfl)
@[simp] theorem State.updSaf_ctx (s : State) (f : SafetySt → SafetySt) : (s.updSaf f).ctx = s.ctx := (rfl)
@[simp] theorem State.updSaf_upd (s : State) (f : SafetySt → SafetySt) : (s.updSaf f).upd = s.upd := (rfl)
@[simp] theorem State.updSaf_sec (s : State) (f : SafetySt → SafetySt) : (s.updSaf f).sec = s.sec := (rfl)
@[simp] theorem State.updSaf_lat (s : State) (f : SafetySt → SafetySt) : (s.updSaf f).lat = s.lat := (rfl)
@[simp] theorem State.updSaf_cvu (s : State) (f : SafetySt → SafetySt) : (s.updSaf f).cvu = s.cvu := (rfl)
@[simp] theorem State.updSaf_image (s : State) (f : SafetySt → SafetySt) : (s.updSaf f).image = s.image := (rfl)
@[simp] theorem State.updSaf_suspects (s : State) (f : SafetySt → SafetySt) : (s.updSaf f).suspects = s.suspects := (rfl)
@[simp] theorem State.updSaf_starts (s : State) (f : SafetySt → SafetySt) : (s.updSaf f).starts = s.starts := (rfl)
@[simp] theorem State.updSaf_draws (s : State) (f : SafetySt → SafetySt) : (s.updSaf f).draws = s.draws := (rfl)
@[simp] theorem State.updSaf_saf (s : State) (f : SafetySt → SafetySt) : (s.updSaf f).saf = f s.saf := (rfl)
@[simp] theorem State.updSaf_tile (s : State) (f : SafetySt → SafetySt) (y : Nat) : (s.updSaf f).tile y = s.tile y := (rfl)
@[simp] theorem State.updSaf_queue (s : State) (f : SafetySt → SafetySt) (y : Nat) : (s.updSaf f).queue y = s.queue y := (rfl)
@[simp] theorem State.updSaf_cluster (s : State) (f : SafetySt → SafetySt) (y : Nat) : (s.updSaf f).cluster y = s.cluster y := (rfl)
@[simp] theorem State.updSaf_cluUnit (s : State) (f : SafetySt → SafetySt) (y : Nat) : (s.updSaf f).cluUnit y = s.cluUnit y := (rfl)
@[simp] theorem State.updSaf_region (s : State) (f : SafetySt → SafetySt) (y : Nat) : (s.updSaf f).region y = s.region y := (rfl)
@[simp] theorem State.updSaf_rgnUnit (s : State) (f : SafetySt → SafetySt) (y : Nat) : (s.updSaf f).rgnUnit y = s.rgnUnit y := (rfl)
@[simp] theorem State.updSaf_slot (s : State) (f : SafetySt → SafetySt) (y : Nat) : (s.updSaf f).slot y = s.slot y := (rfl)
@[simp] theorem State.updSaf_chan (s : State) (f : SafetySt → SafetySt) (y : Nat) : (s.updSaf f).chan y = s.chan y := (rfl)
@[simp] theorem State.updSaf_die (s : State) (f : SafetySt → SafetySt) (y : Nat) : (s.updSaf f).die y = s.die y := (rfl)
@[simp] theorem State.updSaf_cam (s : State) (f : SafetySt → SafetySt) (y : Nat) : (s.updSaf f).cam y = s.cam y := (rfl)
@[simp] theorem State.updSaf_pipe (s : State) (f : SafetySt → SafetySt) (y : Nat) : (s.updSaf f).pipe y = s.pipe y := (rfl)
@[simp] theorem State.updSaf_facet (s : State) (f : SafetySt → SafetySt) (y : Nat) : (s.updSaf f).facet y = s.facet y := (rfl)
@[simp] theorem State.updSaf_mac (s : State) (f : SafetySt → SafetySt) (y : Nat) : (s.updSaf f).mac y = s.mac y := (rfl)
@[simp] theorem State.updSaf_hpath (s : State) (f : SafetySt → SafetySt) (y : Nat) : (s.updSaf f).hpath y = s.hpath y := (rfl)
@[simp] theorem State.updSaf_img (s : State) (f : SafetySt → SafetySt) : (s.updSaf f).img = s.img := (rfl)
@[simp] theorem State.updSaf_mode (s : State) (f : SafetySt → SafetySt) : (s.updSaf f).mode = s.mode := (rfl)
@[simp] theorem State.updSaf_isBench (s : State) (f : SafetySt → SafetySt) : (s.updSaf f).isBench = s.isBench := (rfl)
@[simp] theorem State.updSaf_compares (s : State) (f : SafetySt → SafetySt) : (s.updSaf f).compares = s.compares := (rfl)
@[simp] theorem State.updSaf_isReplay (s : State) (f : SafetySt → SafetySt) : (s.updSaf f).isReplay = s.isReplay := (rfl)
@[simp] theorem State.updSaf_alloc (s : State) (f : SafetySt → SafetySt) (y : Nat) : (s.updSaf f).alloc y = s.alloc y := (rfl)
@[simp] theorem State.updSaf_role (s : State) (f : SafetySt → SafetySt) (y : Nat) : (s.updSaf f).role y = s.role y := (rfl)
@[simp] theorem State.updSaf_schedule (s : State) (f : SafetySt → SafetySt) : (s.updSaf f).schedule = s.schedule := (rfl)
@[simp] theorem State.updSaf_commitTile (s : State) (f : SafetySt → SafetySt) : (s.updSaf f).commitTile = s.commitTile := (rfl)
@[simp] theorem State.updSaf_now (s : State) (f : SafetySt → SafetySt) : (s.updSaf f).now = s.now := (rfl)
@[simp] theorem State.updSaf_mono (s : State) (f : SafetySt → SafetySt) : (s.updSaf f).mono = s.mono := (rfl)
@[simp] theorem State.updSaf_stampAt (s : State) (f : SafetySt → SafetySt) (x : Instant) : (s.updSaf f).stampAt x = s.stampAt x := (rfl)
@[simp] theorem State.updSaf_stamp (s : State) (f : SafetySt → SafetySt) : (s.updSaf f).stamp = s.stamp := (rfl)
@[simp] theorem State.updSaf_dieNow (s : State) (f : SafetySt → SafetySt) (y : Nat) : (s.updSaf f).dieNow y = s.dieNow y := (rfl)
@[simp] theorem State.updSaf_dieStamp (s : State) (f : SafetySt → SafetySt) (y : Nat) : (s.updSaf f).dieStamp y = s.dieStamp y := (rfl)
@[simp] theorem State.updSaf_frameNs (s : State) (f : SafetySt → SafetySt) : (s.updSaf f).frameNs = s.frameNs := (rfl)
@[simp] theorem State.updSaf_beatNs (s : State) (f : SafetySt → SafetySt) : (s.updSaf f).beatNs = s.beatNs := (rfl)
@[simp] theorem State.updSaf_started (s : State) (f : SafetySt → SafetySt) : (s.updSaf f).started = s.started := (rfl)
@[simp] theorem State.updSaf_t0 (s : State) (f : SafetySt → SafetySt) : (s.updSaf f).t0 = s.t0 := (rfl)
@[simp] theorem State.updSaf_firstBeat (s : State) (f : SafetySt → SafetySt) (y : Nat) : (s.updSaf f).firstBeat y = s.firstBeat y := (rfl)
@[simp] theorem State.updSaf_frameOfBeat (s : State) (f : SafetySt → SafetySt) (y : Nat) : (s.updSaf f).frameOfBeat y = s.frameOfBeat y := (rfl)
@[simp] theorem State.updSaf_beatStart (s : State) (f : SafetySt → SafetySt) (y : Nat) : (s.updSaf f).beatStart y = s.beatStart y := (rfl)
@[simp] theorem State.updSaf_frameStart (s : State) (f : SafetySt → SafetySt) (y : Nat) : (s.updSaf f).frameStart y = s.frameStart y := (rfl)
@[simp] theorem State.updSaf_isBoundary (s : State) (f : SafetySt → SafetySt) (y : Nat) : (s.updSaf f).isBoundary y = s.isBoundary y := (rfl)
@[simp] theorem State.updSaf_frameAt (s : State) (f : SafetySt → SafetySt) (x : Instant) : (s.updSaf f).frameAt x = s.frameAt x := (rfl)
@[simp] theorem State.updSaf_txnDue (s : State) (f : SafetySt → SafetySt) : (s.updSaf f).txnDue = s.txnDue := (rfl)
@[simp] theorem State.updSaf_chip (s : State) (f : SafetySt → SafetySt) : (s.updSaf f).chip = s.chip := (rfl)
@[simp] theorem State.updSaf_port (s : State) (f : SafetySt → SafetySt) (y : Nat) : (s.updSaf f).port y = s.port y := (rfl)

/-! ### updAsh -/

@[simp] theorem State.updAsh_pending (s : State) (f : AshSt → AshSt) : (s.updAsh f).pending = s.pending := (rfl)
@[simp] theorem State.updAsh_part (s : State) (f : AshSt → AshSt) : (s.updAsh f).part = s.part := (rfl)
@[simp] theorem State.updAsh_stepping (s : State) (f : AshSt → AshSt) : (s.updAsh f).stepping = s.stepping := (rfl)
@[simp] theorem State.updAsh_fitted (s : State) (f : AshSt → AshSt) : (s.updAsh f).fitted = s.fitted := (rfl)
@[simp] theorem State.updAsh_dramRate (s : State) (f : AshSt → AshSt) : (s.updAsh f).dramRate = s.dramRate := (rfl)
@[simp] theorem State.updAsh_bistOk (s : State) (f : AshSt → AshSt) : (s.updAsh f).bistOk = s.bistOk := (rfl)
@[simp] theorem State.updAsh_tanexReset (s : State) (f : AshSt → AshSt) : (s.updAsh f).tanexReset = s.tanexReset := (rfl)
@[simp] theorem State.updAsh_thermTrip (s : State) (f : AshSt → AshSt) : (s.updAsh f).thermTrip = s.thermTrip := (rfl)
@[simp] theorem State.updAsh_prgSens (s : State) (f : AshSt → AshSt) : (s.updAsh f).prgSens = s.prgSens := (rfl)
@[simp] theorem State.updAsh_boot (s : State) (f : AshSt → AshSt) : (s.updAsh f).boot = s.boot := (rfl)
@[simp] theorem State.updAsh_mem (s : State) (f : AshSt → AshSt) : (s.updAsh f).mem = s.mem := (rfl)
@[simp] theorem State.updAsh_flips (s : State) (f : AshSt → AshSt) : (s.updAsh f).flips = s.flips := (rfl)
@[simp] theorem State.updAsh_peatDirty (s : State) (f : AshSt → AshSt) : (s.updAsh f).peatDirty = s.peatDirty := (rfl)
@[simp] theorem State.updAsh_dramDirty (s : State) (f : AshSt → AshSt) : (s.updAsh f).dramDirty = s.dramDirty := (rfl)
@[simp] theorem State.updAsh_scrubPos (s : State) (f : AshSt → AshSt) : (s.updAsh f).scrubPos = s.scrubPos := (rfl)
@[simp] theorem State.updAsh_scrubPass (s : State) (f : AshSt → AshSt) : (s.updAsh f).scrubPass = s.scrubPass := (rfl)
@[simp] theorem State.updAsh_scrubStart (s : State) (f : AshSt → AshSt) : (s.updAsh f).scrubStart = s.scrubStart := (rfl)
@[simp] theorem State.updAsh_scrubFrom (s : State) (f : AshSt → AshSt) : (s.updAsh f).scrubFrom = s.scrubFrom := (rfl)
@[simp] theorem State.updAsh_rowsHit (s : State) (f : AshSt → AshSt) : (s.updAsh f).rowsHit = s.rowsHit := (rfl)
@[simp] theorem State.updAsh_bankCe (s : State) (f : AshSt → AshSt) : (s.updAsh f).bankCe = s.bankCe := (rfl)
@[simp] theorem State.updAsh_rowTests (s : State) (f : AshSt → AshSt) : (s.updAsh f).rowTests = s.rowTests := (rfl)
@[simp] theorem State.updAsh_pprDone (s : State) (f : AshSt → AshSt) : (s.updAsh f).pprDone = s.pprDone := (rfl)
@[simp] theorem State.updAsh_flash (s : State) (f : AshSt → AshSt) : (s.updAsh f).flash = s.flash := (rfl)
@[simp] theorem State.updAsh_tiles (s : State) (f : AshSt → AshSt) : (s.updAsh f).tiles = s.tiles := (rfl)
@[simp] theorem State.updAsh_queues (s : State) (f : AshSt → AshSt) : (s.updAsh f).queues = s.queues := (rfl)
@[simp] theorem State.updAsh_clusters (s : State) (f : AshSt → AshSt) : (s.updAsh f).clusters = s.clusters := (rfl)
@[simp] theorem State.updAsh_cluUnits (s : State) (f : AshSt → AshSt) : (s.updAsh f).cluUnits = s.cluUnits := (rfl)
@[simp] theorem State.updAsh_regions (s : State) (f : AshSt → AshSt) : (s.updAsh f).regions = s.regions := (rfl)
@[simp] theorem State.updAsh_rgnUnits (s : State) (f : AshSt → AshSt) : (s.updAsh f).rgnUnits = s.rgnUnits := (rfl)
@[simp] theorem State.updAsh_repair (s : State) (f : AshSt → AshSt) : (s.updAsh f).repair = s.repair := (rfl)
@[simp] theorem State.updAsh_slots (s : State) (f : AshSt → AshSt) : (s.updAsh f).slots = s.slots := (rfl)
@[simp] theorem State.updAsh_chans (s : State) (f : AshSt → AshSt) : (s.updAsh f).chans = s.chans := (rfl)
@[simp] theorem State.updAsh_dies (s : State) (f : AshSt → AshSt) : (s.updAsh f).dies = s.dies := (rfl)
@[simp] theorem State.updAsh_cams (s : State) (f : AshSt → AshSt) : (s.updAsh f).cams = s.cams := (rfl)
@[simp] theorem State.updAsh_pipes (s : State) (f : AshSt → AshSt) : (s.updAsh f).pipes = s.pipes := (rfl)
@[simp] theorem State.updAsh_fctx (s : State) (f : AshSt → AshSt) : (s.updAsh f).fctx = s.fctx := (rfl)
@[simp] theorem State.updAsh_range (s : State) (f : AshSt → AshSt) : (s.updAsh f).range = s.range := (rfl)
@[simp] theorem State.updAsh_hp (s : State) (f : AshSt → AshSt) : (s.updAsh f).hp = s.hp := (rfl)
@[simp] theorem State.updAsh_tb (s : State) (f : AshSt → AshSt) : (s.updAsh f).tb = s.tb := (rfl)
@[simp] theorem State.updAsh_beat (s : State) (f : AshSt → AshSt) : (s.updAsh f).beat = s.beat := (rfl)
@[simp] theorem State.updAsh_saf (s : State) (f : AshSt → AshSt) : (s.updAsh f).saf = s.saf := (rfl)
@[simp] theorem State.updAsh_link (s : State) (f : AshSt → AshSt) : (s.updAsh f).link = s.link := (rfl)
@[simp] theorem State.updAsh_ctx (s : State) (f : AshSt → AshSt) : (s.updAsh f).ctx = s.ctx := (rfl)
@[simp] theorem State.updAsh_upd (s : State) (f : AshSt → AshSt) : (s.updAsh f).upd = s.upd := (rfl)
@[simp] theorem State.updAsh_sec (s : State) (f : AshSt → AshSt) : (s.updAsh f).sec = s.sec := (rfl)
@[simp] theorem State.updAsh_lat (s : State) (f : AshSt → AshSt) : (s.updAsh f).lat = s.lat := (rfl)
@[simp] theorem State.updAsh_cvu (s : State) (f : AshSt → AshSt) : (s.updAsh f).cvu = s.cvu := (rfl)
@[simp] theorem State.updAsh_image (s : State) (f : AshSt → AshSt) : (s.updAsh f).image = s.image := (rfl)
@[simp] theorem State.updAsh_suspects (s : State) (f : AshSt → AshSt) : (s.updAsh f).suspects = s.suspects := (rfl)
@[simp] theorem State.updAsh_starts (s : State) (f : AshSt → AshSt) : (s.updAsh f).starts = s.starts := (rfl)
@[simp] theorem State.updAsh_draws (s : State) (f : AshSt → AshSt) : (s.updAsh f).draws = s.draws := (rfl)
@[simp] theorem State.updAsh_ash (s : State) (f : AshSt → AshSt) : (s.updAsh f).ash = f s.ash := (rfl)
@[simp] theorem State.updAsh_tile (s : State) (f : AshSt → AshSt) (y : Nat) : (s.updAsh f).tile y = s.tile y := (rfl)
@[simp] theorem State.updAsh_queue (s : State) (f : AshSt → AshSt) (y : Nat) : (s.updAsh f).queue y = s.queue y := (rfl)
@[simp] theorem State.updAsh_cluster (s : State) (f : AshSt → AshSt) (y : Nat) : (s.updAsh f).cluster y = s.cluster y := (rfl)
@[simp] theorem State.updAsh_cluUnit (s : State) (f : AshSt → AshSt) (y : Nat) : (s.updAsh f).cluUnit y = s.cluUnit y := (rfl)
@[simp] theorem State.updAsh_region (s : State) (f : AshSt → AshSt) (y : Nat) : (s.updAsh f).region y = s.region y := (rfl)
@[simp] theorem State.updAsh_rgnUnit (s : State) (f : AshSt → AshSt) (y : Nat) : (s.updAsh f).rgnUnit y = s.rgnUnit y := (rfl)
@[simp] theorem State.updAsh_slot (s : State) (f : AshSt → AshSt) (y : Nat) : (s.updAsh f).slot y = s.slot y := (rfl)
@[simp] theorem State.updAsh_chan (s : State) (f : AshSt → AshSt) (y : Nat) : (s.updAsh f).chan y = s.chan y := (rfl)
@[simp] theorem State.updAsh_die (s : State) (f : AshSt → AshSt) (y : Nat) : (s.updAsh f).die y = s.die y := (rfl)
@[simp] theorem State.updAsh_cam (s : State) (f : AshSt → AshSt) (y : Nat) : (s.updAsh f).cam y = s.cam y := (rfl)
@[simp] theorem State.updAsh_pipe (s : State) (f : AshSt → AshSt) (y : Nat) : (s.updAsh f).pipe y = s.pipe y := (rfl)
@[simp] theorem State.updAsh_facet (s : State) (f : AshSt → AshSt) (y : Nat) : (s.updAsh f).facet y = s.facet y := (rfl)
@[simp] theorem State.updAsh_mac (s : State) (f : AshSt → AshSt) (y : Nat) : (s.updAsh f).mac y = s.mac y := (rfl)
@[simp] theorem State.updAsh_hpath (s : State) (f : AshSt → AshSt) (y : Nat) : (s.updAsh f).hpath y = s.hpath y := (rfl)
@[simp] theorem State.updAsh_img (s : State) (f : AshSt → AshSt) : (s.updAsh f).img = s.img := (rfl)
@[simp] theorem State.updAsh_mode (s : State) (f : AshSt → AshSt) : (s.updAsh f).mode = s.mode := (rfl)
@[simp] theorem State.updAsh_isBench (s : State) (f : AshSt → AshSt) : (s.updAsh f).isBench = s.isBench := (rfl)
@[simp] theorem State.updAsh_compares (s : State) (f : AshSt → AshSt) : (s.updAsh f).compares = s.compares := (rfl)
@[simp] theorem State.updAsh_isReplay (s : State) (f : AshSt → AshSt) : (s.updAsh f).isReplay = s.isReplay := (rfl)
@[simp] theorem State.updAsh_alloc (s : State) (f : AshSt → AshSt) (y : Nat) : (s.updAsh f).alloc y = s.alloc y := (rfl)
@[simp] theorem State.updAsh_role (s : State) (f : AshSt → AshSt) (y : Nat) : (s.updAsh f).role y = s.role y := (rfl)
@[simp] theorem State.updAsh_schedule (s : State) (f : AshSt → AshSt) : (s.updAsh f).schedule = s.schedule := (rfl)
@[simp] theorem State.updAsh_commitTile (s : State) (f : AshSt → AshSt) : (s.updAsh f).commitTile = s.commitTile := (rfl)
@[simp] theorem State.updAsh_now (s : State) (f : AshSt → AshSt) : (s.updAsh f).now = s.now := (rfl)
@[simp] theorem State.updAsh_mono (s : State) (f : AshSt → AshSt) : (s.updAsh f).mono = s.mono := (rfl)
@[simp] theorem State.updAsh_stampAt (s : State) (f : AshSt → AshSt) (x : Instant) : (s.updAsh f).stampAt x = s.stampAt x := (rfl)
@[simp] theorem State.updAsh_stamp (s : State) (f : AshSt → AshSt) : (s.updAsh f).stamp = s.stamp := (rfl)
@[simp] theorem State.updAsh_dieNow (s : State) (f : AshSt → AshSt) (y : Nat) : (s.updAsh f).dieNow y = s.dieNow y := (rfl)
@[simp] theorem State.updAsh_dieStamp (s : State) (f : AshSt → AshSt) (y : Nat) : (s.updAsh f).dieStamp y = s.dieStamp y := (rfl)
@[simp] theorem State.updAsh_frameNs (s : State) (f : AshSt → AshSt) : (s.updAsh f).frameNs = s.frameNs := (rfl)
@[simp] theorem State.updAsh_beatNs (s : State) (f : AshSt → AshSt) : (s.updAsh f).beatNs = s.beatNs := (rfl)
@[simp] theorem State.updAsh_started (s : State) (f : AshSt → AshSt) : (s.updAsh f).started = s.started := (rfl)
@[simp] theorem State.updAsh_t0 (s : State) (f : AshSt → AshSt) : (s.updAsh f).t0 = s.t0 := (rfl)
@[simp] theorem State.updAsh_firstBeat (s : State) (f : AshSt → AshSt) (y : Nat) : (s.updAsh f).firstBeat y = s.firstBeat y := (rfl)
@[simp] theorem State.updAsh_frameOfBeat (s : State) (f : AshSt → AshSt) (y : Nat) : (s.updAsh f).frameOfBeat y = s.frameOfBeat y := (rfl)
@[simp] theorem State.updAsh_beatStart (s : State) (f : AshSt → AshSt) (y : Nat) : (s.updAsh f).beatStart y = s.beatStart y := (rfl)
@[simp] theorem State.updAsh_frameStart (s : State) (f : AshSt → AshSt) (y : Nat) : (s.updAsh f).frameStart y = s.frameStart y := (rfl)
@[simp] theorem State.updAsh_isBoundary (s : State) (f : AshSt → AshSt) (y : Nat) : (s.updAsh f).isBoundary y = s.isBoundary y := (rfl)
@[simp] theorem State.updAsh_frameAt (s : State) (f : AshSt → AshSt) (x : Instant) : (s.updAsh f).frameAt x = s.frameAt x := (rfl)
@[simp] theorem State.updAsh_txnDue (s : State) (f : AshSt → AshSt) : (s.updAsh f).txnDue = s.txnDue := (rfl)
@[simp] theorem State.updAsh_chip (s : State) (f : AshSt → AshSt) : (s.updAsh f).chip = s.chip := (rfl)
@[simp] theorem State.updAsh_port (s : State) (f : AshSt → AshSt) (y : Nat) : (s.updAsh f).port y = s.port y := (rfl)

/-! ### updLink -/

@[simp] theorem State.updLink_pending (s : State) (f : HostLinkSt → HostLinkSt) : (s.updLink f).pending = s.pending := (rfl)
@[simp] theorem State.updLink_part (s : State) (f : HostLinkSt → HostLinkSt) : (s.updLink f).part = s.part := (rfl)
@[simp] theorem State.updLink_stepping (s : State) (f : HostLinkSt → HostLinkSt) : (s.updLink f).stepping = s.stepping := (rfl)
@[simp] theorem State.updLink_fitted (s : State) (f : HostLinkSt → HostLinkSt) : (s.updLink f).fitted = s.fitted := (rfl)
@[simp] theorem State.updLink_dramRate (s : State) (f : HostLinkSt → HostLinkSt) : (s.updLink f).dramRate = s.dramRate := (rfl)
@[simp] theorem State.updLink_bistOk (s : State) (f : HostLinkSt → HostLinkSt) : (s.updLink f).bistOk = s.bistOk := (rfl)
@[simp] theorem State.updLink_tanexReset (s : State) (f : HostLinkSt → HostLinkSt) : (s.updLink f).tanexReset = s.tanexReset := (rfl)
@[simp] theorem State.updLink_thermTrip (s : State) (f : HostLinkSt → HostLinkSt) : (s.updLink f).thermTrip = s.thermTrip := (rfl)
@[simp] theorem State.updLink_prgSens (s : State) (f : HostLinkSt → HostLinkSt) : (s.updLink f).prgSens = s.prgSens := (rfl)
@[simp] theorem State.updLink_boot (s : State) (f : HostLinkSt → HostLinkSt) : (s.updLink f).boot = s.boot := (rfl)
@[simp] theorem State.updLink_mem (s : State) (f : HostLinkSt → HostLinkSt) : (s.updLink f).mem = s.mem := (rfl)
@[simp] theorem State.updLink_flips (s : State) (f : HostLinkSt → HostLinkSt) : (s.updLink f).flips = s.flips := (rfl)
@[simp] theorem State.updLink_peatDirty (s : State) (f : HostLinkSt → HostLinkSt) : (s.updLink f).peatDirty = s.peatDirty := (rfl)
@[simp] theorem State.updLink_dramDirty (s : State) (f : HostLinkSt → HostLinkSt) : (s.updLink f).dramDirty = s.dramDirty := (rfl)
@[simp] theorem State.updLink_scrubPos (s : State) (f : HostLinkSt → HostLinkSt) : (s.updLink f).scrubPos = s.scrubPos := (rfl)
@[simp] theorem State.updLink_scrubPass (s : State) (f : HostLinkSt → HostLinkSt) : (s.updLink f).scrubPass = s.scrubPass := (rfl)
@[simp] theorem State.updLink_scrubStart (s : State) (f : HostLinkSt → HostLinkSt) : (s.updLink f).scrubStart = s.scrubStart := (rfl)
@[simp] theorem State.updLink_scrubFrom (s : State) (f : HostLinkSt → HostLinkSt) : (s.updLink f).scrubFrom = s.scrubFrom := (rfl)
@[simp] theorem State.updLink_rowsHit (s : State) (f : HostLinkSt → HostLinkSt) : (s.updLink f).rowsHit = s.rowsHit := (rfl)
@[simp] theorem State.updLink_bankCe (s : State) (f : HostLinkSt → HostLinkSt) : (s.updLink f).bankCe = s.bankCe := (rfl)
@[simp] theorem State.updLink_rowTests (s : State) (f : HostLinkSt → HostLinkSt) : (s.updLink f).rowTests = s.rowTests := (rfl)
@[simp] theorem State.updLink_pprDone (s : State) (f : HostLinkSt → HostLinkSt) : (s.updLink f).pprDone = s.pprDone := (rfl)
@[simp] theorem State.updLink_flash (s : State) (f : HostLinkSt → HostLinkSt) : (s.updLink f).flash = s.flash := (rfl)
@[simp] theorem State.updLink_tiles (s : State) (f : HostLinkSt → HostLinkSt) : (s.updLink f).tiles = s.tiles := (rfl)
@[simp] theorem State.updLink_queues (s : State) (f : HostLinkSt → HostLinkSt) : (s.updLink f).queues = s.queues := (rfl)
@[simp] theorem State.updLink_clusters (s : State) (f : HostLinkSt → HostLinkSt) : (s.updLink f).clusters = s.clusters := (rfl)
@[simp] theorem State.updLink_cluUnits (s : State) (f : HostLinkSt → HostLinkSt) : (s.updLink f).cluUnits = s.cluUnits := (rfl)
@[simp] theorem State.updLink_regions (s : State) (f : HostLinkSt → HostLinkSt) : (s.updLink f).regions = s.regions := (rfl)
@[simp] theorem State.updLink_rgnUnits (s : State) (f : HostLinkSt → HostLinkSt) : (s.updLink f).rgnUnits = s.rgnUnits := (rfl)
@[simp] theorem State.updLink_repair (s : State) (f : HostLinkSt → HostLinkSt) : (s.updLink f).repair = s.repair := (rfl)
@[simp] theorem State.updLink_slots (s : State) (f : HostLinkSt → HostLinkSt) : (s.updLink f).slots = s.slots := (rfl)
@[simp] theorem State.updLink_chans (s : State) (f : HostLinkSt → HostLinkSt) : (s.updLink f).chans = s.chans := (rfl)
@[simp] theorem State.updLink_dies (s : State) (f : HostLinkSt → HostLinkSt) : (s.updLink f).dies = s.dies := (rfl)
@[simp] theorem State.updLink_cams (s : State) (f : HostLinkSt → HostLinkSt) : (s.updLink f).cams = s.cams := (rfl)
@[simp] theorem State.updLink_pipes (s : State) (f : HostLinkSt → HostLinkSt) : (s.updLink f).pipes = s.pipes := (rfl)
@[simp] theorem State.updLink_fctx (s : State) (f : HostLinkSt → HostLinkSt) : (s.updLink f).fctx = s.fctx := (rfl)
@[simp] theorem State.updLink_range (s : State) (f : HostLinkSt → HostLinkSt) : (s.updLink f).range = s.range := (rfl)
@[simp] theorem State.updLink_hp (s : State) (f : HostLinkSt → HostLinkSt) : (s.updLink f).hp = s.hp := (rfl)
@[simp] theorem State.updLink_tb (s : State) (f : HostLinkSt → HostLinkSt) : (s.updLink f).tb = s.tb := (rfl)
@[simp] theorem State.updLink_beat (s : State) (f : HostLinkSt → HostLinkSt) : (s.updLink f).beat = s.beat := (rfl)
@[simp] theorem State.updLink_saf (s : State) (f : HostLinkSt → HostLinkSt) : (s.updLink f).saf = s.saf := (rfl)
@[simp] theorem State.updLink_ash (s : State) (f : HostLinkSt → HostLinkSt) : (s.updLink f).ash = s.ash := (rfl)
@[simp] theorem State.updLink_ctx (s : State) (f : HostLinkSt → HostLinkSt) : (s.updLink f).ctx = s.ctx := (rfl)
@[simp] theorem State.updLink_upd (s : State) (f : HostLinkSt → HostLinkSt) : (s.updLink f).upd = s.upd := (rfl)
@[simp] theorem State.updLink_sec (s : State) (f : HostLinkSt → HostLinkSt) : (s.updLink f).sec = s.sec := (rfl)
@[simp] theorem State.updLink_lat (s : State) (f : HostLinkSt → HostLinkSt) : (s.updLink f).lat = s.lat := (rfl)
@[simp] theorem State.updLink_cvu (s : State) (f : HostLinkSt → HostLinkSt) : (s.updLink f).cvu = s.cvu := (rfl)
@[simp] theorem State.updLink_image (s : State) (f : HostLinkSt → HostLinkSt) : (s.updLink f).image = s.image := (rfl)
@[simp] theorem State.updLink_suspects (s : State) (f : HostLinkSt → HostLinkSt) : (s.updLink f).suspects = s.suspects := (rfl)
@[simp] theorem State.updLink_starts (s : State) (f : HostLinkSt → HostLinkSt) : (s.updLink f).starts = s.starts := (rfl)
@[simp] theorem State.updLink_draws (s : State) (f : HostLinkSt → HostLinkSt) : (s.updLink f).draws = s.draws := (rfl)
@[simp] theorem State.updLink_link (s : State) (f : HostLinkSt → HostLinkSt) : (s.updLink f).link = f s.link := (rfl)
@[simp] theorem State.updLink_tile (s : State) (f : HostLinkSt → HostLinkSt) (y : Nat) : (s.updLink f).tile y = s.tile y := (rfl)
@[simp] theorem State.updLink_queue (s : State) (f : HostLinkSt → HostLinkSt) (y : Nat) : (s.updLink f).queue y = s.queue y := (rfl)
@[simp] theorem State.updLink_cluster (s : State) (f : HostLinkSt → HostLinkSt) (y : Nat) : (s.updLink f).cluster y = s.cluster y := (rfl)
@[simp] theorem State.updLink_cluUnit (s : State) (f : HostLinkSt → HostLinkSt) (y : Nat) : (s.updLink f).cluUnit y = s.cluUnit y := (rfl)
@[simp] theorem State.updLink_region (s : State) (f : HostLinkSt → HostLinkSt) (y : Nat) : (s.updLink f).region y = s.region y := (rfl)
@[simp] theorem State.updLink_rgnUnit (s : State) (f : HostLinkSt → HostLinkSt) (y : Nat) : (s.updLink f).rgnUnit y = s.rgnUnit y := (rfl)
@[simp] theorem State.updLink_slot (s : State) (f : HostLinkSt → HostLinkSt) (y : Nat) : (s.updLink f).slot y = s.slot y := (rfl)
@[simp] theorem State.updLink_chan (s : State) (f : HostLinkSt → HostLinkSt) (y : Nat) : (s.updLink f).chan y = s.chan y := (rfl)
@[simp] theorem State.updLink_die (s : State) (f : HostLinkSt → HostLinkSt) (y : Nat) : (s.updLink f).die y = s.die y := (rfl)
@[simp] theorem State.updLink_cam (s : State) (f : HostLinkSt → HostLinkSt) (y : Nat) : (s.updLink f).cam y = s.cam y := (rfl)
@[simp] theorem State.updLink_pipe (s : State) (f : HostLinkSt → HostLinkSt) (y : Nat) : (s.updLink f).pipe y = s.pipe y := (rfl)
@[simp] theorem State.updLink_facet (s : State) (f : HostLinkSt → HostLinkSt) (y : Nat) : (s.updLink f).facet y = s.facet y := (rfl)
@[simp] theorem State.updLink_mac (s : State) (f : HostLinkSt → HostLinkSt) (y : Nat) : (s.updLink f).mac y = s.mac y := (rfl)
@[simp] theorem State.updLink_hpath (s : State) (f : HostLinkSt → HostLinkSt) (y : Nat) : (s.updLink f).hpath y = s.hpath y := (rfl)
@[simp] theorem State.updLink_img (s : State) (f : HostLinkSt → HostLinkSt) : (s.updLink f).img = s.img := (rfl)
@[simp] theorem State.updLink_mode (s : State) (f : HostLinkSt → HostLinkSt) : (s.updLink f).mode = s.mode := (rfl)
@[simp] theorem State.updLink_isBench (s : State) (f : HostLinkSt → HostLinkSt) : (s.updLink f).isBench = s.isBench := (rfl)
@[simp] theorem State.updLink_compares (s : State) (f : HostLinkSt → HostLinkSt) : (s.updLink f).compares = s.compares := (rfl)
@[simp] theorem State.updLink_isReplay (s : State) (f : HostLinkSt → HostLinkSt) : (s.updLink f).isReplay = s.isReplay := (rfl)
@[simp] theorem State.updLink_alloc (s : State) (f : HostLinkSt → HostLinkSt) (y : Nat) : (s.updLink f).alloc y = s.alloc y := (rfl)
@[simp] theorem State.updLink_role (s : State) (f : HostLinkSt → HostLinkSt) (y : Nat) : (s.updLink f).role y = s.role y := (rfl)
@[simp] theorem State.updLink_schedule (s : State) (f : HostLinkSt → HostLinkSt) : (s.updLink f).schedule = s.schedule := (rfl)
@[simp] theorem State.updLink_commitTile (s : State) (f : HostLinkSt → HostLinkSt) : (s.updLink f).commitTile = s.commitTile := (rfl)
@[simp] theorem State.updLink_now (s : State) (f : HostLinkSt → HostLinkSt) : (s.updLink f).now = s.now := (rfl)
@[simp] theorem State.updLink_mono (s : State) (f : HostLinkSt → HostLinkSt) : (s.updLink f).mono = s.mono := (rfl)
@[simp] theorem State.updLink_stampAt (s : State) (f : HostLinkSt → HostLinkSt) (x : Instant) : (s.updLink f).stampAt x = s.stampAt x := (rfl)
@[simp] theorem State.updLink_stamp (s : State) (f : HostLinkSt → HostLinkSt) : (s.updLink f).stamp = s.stamp := (rfl)
@[simp] theorem State.updLink_dieNow (s : State) (f : HostLinkSt → HostLinkSt) (y : Nat) : (s.updLink f).dieNow y = s.dieNow y := (rfl)
@[simp] theorem State.updLink_dieStamp (s : State) (f : HostLinkSt → HostLinkSt) (y : Nat) : (s.updLink f).dieStamp y = s.dieStamp y := (rfl)
@[simp] theorem State.updLink_frameNs (s : State) (f : HostLinkSt → HostLinkSt) : (s.updLink f).frameNs = s.frameNs := (rfl)
@[simp] theorem State.updLink_beatNs (s : State) (f : HostLinkSt → HostLinkSt) : (s.updLink f).beatNs = s.beatNs := (rfl)
@[simp] theorem State.updLink_started (s : State) (f : HostLinkSt → HostLinkSt) : (s.updLink f).started = s.started := (rfl)
@[simp] theorem State.updLink_t0 (s : State) (f : HostLinkSt → HostLinkSt) : (s.updLink f).t0 = s.t0 := (rfl)
@[simp] theorem State.updLink_firstBeat (s : State) (f : HostLinkSt → HostLinkSt) (y : Nat) : (s.updLink f).firstBeat y = s.firstBeat y := (rfl)
@[simp] theorem State.updLink_frameOfBeat (s : State) (f : HostLinkSt → HostLinkSt) (y : Nat) : (s.updLink f).frameOfBeat y = s.frameOfBeat y := (rfl)
@[simp] theorem State.updLink_beatStart (s : State) (f : HostLinkSt → HostLinkSt) (y : Nat) : (s.updLink f).beatStart y = s.beatStart y := (rfl)
@[simp] theorem State.updLink_frameStart (s : State) (f : HostLinkSt → HostLinkSt) (y : Nat) : (s.updLink f).frameStart y = s.frameStart y := (rfl)
@[simp] theorem State.updLink_isBoundary (s : State) (f : HostLinkSt → HostLinkSt) (y : Nat) : (s.updLink f).isBoundary y = s.isBoundary y := (rfl)
@[simp] theorem State.updLink_frameAt (s : State) (f : HostLinkSt → HostLinkSt) (x : Instant) : (s.updLink f).frameAt x = s.frameAt x := (rfl)
@[simp] theorem State.updLink_txnDue (s : State) (f : HostLinkSt → HostLinkSt) : (s.updLink f).txnDue = s.txnDue := (rfl)
@[simp] theorem State.updLink_chip (s : State) (f : HostLinkSt → HostLinkSt) : (s.updLink f).chip = s.chip := (rfl)
@[simp] theorem State.updLink_port (s : State) (f : HostLinkSt → HostLinkSt) (y : Nat) : (s.updLink f).port y = s.port y := (rfl)

/-! ### updCtx -/

@[simp] theorem State.updCtx_pending (s : State) (f : CtxSt → CtxSt) : (s.updCtx f).pending = s.pending := (rfl)
@[simp] theorem State.updCtx_part (s : State) (f : CtxSt → CtxSt) : (s.updCtx f).part = s.part := (rfl)
@[simp] theorem State.updCtx_stepping (s : State) (f : CtxSt → CtxSt) : (s.updCtx f).stepping = s.stepping := (rfl)
@[simp] theorem State.updCtx_fitted (s : State) (f : CtxSt → CtxSt) : (s.updCtx f).fitted = s.fitted := (rfl)
@[simp] theorem State.updCtx_dramRate (s : State) (f : CtxSt → CtxSt) : (s.updCtx f).dramRate = s.dramRate := (rfl)
@[simp] theorem State.updCtx_bistOk (s : State) (f : CtxSt → CtxSt) : (s.updCtx f).bistOk = s.bistOk := (rfl)
@[simp] theorem State.updCtx_tanexReset (s : State) (f : CtxSt → CtxSt) : (s.updCtx f).tanexReset = s.tanexReset := (rfl)
@[simp] theorem State.updCtx_thermTrip (s : State) (f : CtxSt → CtxSt) : (s.updCtx f).thermTrip = s.thermTrip := (rfl)
@[simp] theorem State.updCtx_prgSens (s : State) (f : CtxSt → CtxSt) : (s.updCtx f).prgSens = s.prgSens := (rfl)
@[simp] theorem State.updCtx_boot (s : State) (f : CtxSt → CtxSt) : (s.updCtx f).boot = s.boot := (rfl)
@[simp] theorem State.updCtx_mem (s : State) (f : CtxSt → CtxSt) : (s.updCtx f).mem = s.mem := (rfl)
@[simp] theorem State.updCtx_flips (s : State) (f : CtxSt → CtxSt) : (s.updCtx f).flips = s.flips := (rfl)
@[simp] theorem State.updCtx_peatDirty (s : State) (f : CtxSt → CtxSt) : (s.updCtx f).peatDirty = s.peatDirty := (rfl)
@[simp] theorem State.updCtx_dramDirty (s : State) (f : CtxSt → CtxSt) : (s.updCtx f).dramDirty = s.dramDirty := (rfl)
@[simp] theorem State.updCtx_scrubPos (s : State) (f : CtxSt → CtxSt) : (s.updCtx f).scrubPos = s.scrubPos := (rfl)
@[simp] theorem State.updCtx_scrubPass (s : State) (f : CtxSt → CtxSt) : (s.updCtx f).scrubPass = s.scrubPass := (rfl)
@[simp] theorem State.updCtx_scrubStart (s : State) (f : CtxSt → CtxSt) : (s.updCtx f).scrubStart = s.scrubStart := (rfl)
@[simp] theorem State.updCtx_scrubFrom (s : State) (f : CtxSt → CtxSt) : (s.updCtx f).scrubFrom = s.scrubFrom := (rfl)
@[simp] theorem State.updCtx_rowsHit (s : State) (f : CtxSt → CtxSt) : (s.updCtx f).rowsHit = s.rowsHit := (rfl)
@[simp] theorem State.updCtx_bankCe (s : State) (f : CtxSt → CtxSt) : (s.updCtx f).bankCe = s.bankCe := (rfl)
@[simp] theorem State.updCtx_rowTests (s : State) (f : CtxSt → CtxSt) : (s.updCtx f).rowTests = s.rowTests := (rfl)
@[simp] theorem State.updCtx_pprDone (s : State) (f : CtxSt → CtxSt) : (s.updCtx f).pprDone = s.pprDone := (rfl)
@[simp] theorem State.updCtx_flash (s : State) (f : CtxSt → CtxSt) : (s.updCtx f).flash = s.flash := (rfl)
@[simp] theorem State.updCtx_tiles (s : State) (f : CtxSt → CtxSt) : (s.updCtx f).tiles = s.tiles := (rfl)
@[simp] theorem State.updCtx_queues (s : State) (f : CtxSt → CtxSt) : (s.updCtx f).queues = s.queues := (rfl)
@[simp] theorem State.updCtx_clusters (s : State) (f : CtxSt → CtxSt) : (s.updCtx f).clusters = s.clusters := (rfl)
@[simp] theorem State.updCtx_cluUnits (s : State) (f : CtxSt → CtxSt) : (s.updCtx f).cluUnits = s.cluUnits := (rfl)
@[simp] theorem State.updCtx_regions (s : State) (f : CtxSt → CtxSt) : (s.updCtx f).regions = s.regions := (rfl)
@[simp] theorem State.updCtx_rgnUnits (s : State) (f : CtxSt → CtxSt) : (s.updCtx f).rgnUnits = s.rgnUnits := (rfl)
@[simp] theorem State.updCtx_repair (s : State) (f : CtxSt → CtxSt) : (s.updCtx f).repair = s.repair := (rfl)
@[simp] theorem State.updCtx_slots (s : State) (f : CtxSt → CtxSt) : (s.updCtx f).slots = s.slots := (rfl)
@[simp] theorem State.updCtx_chans (s : State) (f : CtxSt → CtxSt) : (s.updCtx f).chans = s.chans := (rfl)
@[simp] theorem State.updCtx_dies (s : State) (f : CtxSt → CtxSt) : (s.updCtx f).dies = s.dies := (rfl)
@[simp] theorem State.updCtx_cams (s : State) (f : CtxSt → CtxSt) : (s.updCtx f).cams = s.cams := (rfl)
@[simp] theorem State.updCtx_pipes (s : State) (f : CtxSt → CtxSt) : (s.updCtx f).pipes = s.pipes := (rfl)
@[simp] theorem State.updCtx_fctx (s : State) (f : CtxSt → CtxSt) : (s.updCtx f).fctx = s.fctx := (rfl)
@[simp] theorem State.updCtx_range (s : State) (f : CtxSt → CtxSt) : (s.updCtx f).range = s.range := (rfl)
@[simp] theorem State.updCtx_hp (s : State) (f : CtxSt → CtxSt) : (s.updCtx f).hp = s.hp := (rfl)
@[simp] theorem State.updCtx_tb (s : State) (f : CtxSt → CtxSt) : (s.updCtx f).tb = s.tb := (rfl)
@[simp] theorem State.updCtx_beat (s : State) (f : CtxSt → CtxSt) : (s.updCtx f).beat = s.beat := (rfl)
@[simp] theorem State.updCtx_saf (s : State) (f : CtxSt → CtxSt) : (s.updCtx f).saf = s.saf := (rfl)
@[simp] theorem State.updCtx_ash (s : State) (f : CtxSt → CtxSt) : (s.updCtx f).ash = s.ash := (rfl)
@[simp] theorem State.updCtx_link (s : State) (f : CtxSt → CtxSt) : (s.updCtx f).link = s.link := (rfl)
@[simp] theorem State.updCtx_upd (s : State) (f : CtxSt → CtxSt) : (s.updCtx f).upd = s.upd := (rfl)
@[simp] theorem State.updCtx_sec (s : State) (f : CtxSt → CtxSt) : (s.updCtx f).sec = s.sec := (rfl)
@[simp] theorem State.updCtx_lat (s : State) (f : CtxSt → CtxSt) : (s.updCtx f).lat = s.lat := (rfl)
@[simp] theorem State.updCtx_cvu (s : State) (f : CtxSt → CtxSt) : (s.updCtx f).cvu = s.cvu := (rfl)
@[simp] theorem State.updCtx_image (s : State) (f : CtxSt → CtxSt) : (s.updCtx f).image = s.image := (rfl)
@[simp] theorem State.updCtx_suspects (s : State) (f : CtxSt → CtxSt) : (s.updCtx f).suspects = s.suspects := (rfl)
@[simp] theorem State.updCtx_starts (s : State) (f : CtxSt → CtxSt) : (s.updCtx f).starts = s.starts := (rfl)
@[simp] theorem State.updCtx_draws (s : State) (f : CtxSt → CtxSt) : (s.updCtx f).draws = s.draws := (rfl)
@[simp] theorem State.updCtx_ctx (s : State) (f : CtxSt → CtxSt) : (s.updCtx f).ctx = f s.ctx := (rfl)
@[simp] theorem State.updCtx_tile (s : State) (f : CtxSt → CtxSt) (y : Nat) : (s.updCtx f).tile y = s.tile y := (rfl)
@[simp] theorem State.updCtx_queue (s : State) (f : CtxSt → CtxSt) (y : Nat) : (s.updCtx f).queue y = s.queue y := (rfl)
@[simp] theorem State.updCtx_cluster (s : State) (f : CtxSt → CtxSt) (y : Nat) : (s.updCtx f).cluster y = s.cluster y := (rfl)
@[simp] theorem State.updCtx_cluUnit (s : State) (f : CtxSt → CtxSt) (y : Nat) : (s.updCtx f).cluUnit y = s.cluUnit y := (rfl)
@[simp] theorem State.updCtx_region (s : State) (f : CtxSt → CtxSt) (y : Nat) : (s.updCtx f).region y = s.region y := (rfl)
@[simp] theorem State.updCtx_rgnUnit (s : State) (f : CtxSt → CtxSt) (y : Nat) : (s.updCtx f).rgnUnit y = s.rgnUnit y := (rfl)
@[simp] theorem State.updCtx_slot (s : State) (f : CtxSt → CtxSt) (y : Nat) : (s.updCtx f).slot y = s.slot y := (rfl)
@[simp] theorem State.updCtx_chan (s : State) (f : CtxSt → CtxSt) (y : Nat) : (s.updCtx f).chan y = s.chan y := (rfl)
@[simp] theorem State.updCtx_die (s : State) (f : CtxSt → CtxSt) (y : Nat) : (s.updCtx f).die y = s.die y := (rfl)
@[simp] theorem State.updCtx_cam (s : State) (f : CtxSt → CtxSt) (y : Nat) : (s.updCtx f).cam y = s.cam y := (rfl)
@[simp] theorem State.updCtx_pipe (s : State) (f : CtxSt → CtxSt) (y : Nat) : (s.updCtx f).pipe y = s.pipe y := (rfl)
@[simp] theorem State.updCtx_facet (s : State) (f : CtxSt → CtxSt) (y : Nat) : (s.updCtx f).facet y = s.facet y := (rfl)
@[simp] theorem State.updCtx_mac (s : State) (f : CtxSt → CtxSt) (y : Nat) : (s.updCtx f).mac y = s.mac y := (rfl)
@[simp] theorem State.updCtx_hpath (s : State) (f : CtxSt → CtxSt) (y : Nat) : (s.updCtx f).hpath y = s.hpath y := (rfl)
@[simp] theorem State.updCtx_img (s : State) (f : CtxSt → CtxSt) : (s.updCtx f).img = s.img := (rfl)
@[simp] theorem State.updCtx_alloc (s : State) (f : CtxSt → CtxSt) (y : Nat) : (s.updCtx f).alloc y = s.alloc y := (rfl)
@[simp] theorem State.updCtx_role (s : State) (f : CtxSt → CtxSt) (y : Nat) : (s.updCtx f).role y = s.role y := (rfl)
@[simp] theorem State.updCtx_now (s : State) (f : CtxSt → CtxSt) : (s.updCtx f).now = s.now := (rfl)
@[simp] theorem State.updCtx_mono (s : State) (f : CtxSt → CtxSt) : (s.updCtx f).mono = s.mono := (rfl)
@[simp] theorem State.updCtx_stampAt (s : State) (f : CtxSt → CtxSt) (x : Instant) : (s.updCtx f).stampAt x = s.stampAt x := (rfl)
@[simp] theorem State.updCtx_stamp (s : State) (f : CtxSt → CtxSt) : (s.updCtx f).stamp = s.stamp := (rfl)
@[simp] theorem State.updCtx_dieNow (s : State) (f : CtxSt → CtxSt) (y : Nat) : (s.updCtx f).dieNow y = s.dieNow y := (rfl)
@[simp] theorem State.updCtx_dieStamp (s : State) (f : CtxSt → CtxSt) (y : Nat) : (s.updCtx f).dieStamp y = s.dieStamp y := (rfl)
@[simp] theorem State.updCtx_frameNs (s : State) (f : CtxSt → CtxSt) : (s.updCtx f).frameNs = s.frameNs := (rfl)
@[simp] theorem State.updCtx_beatNs (s : State) (f : CtxSt → CtxSt) : (s.updCtx f).beatNs = s.beatNs := (rfl)
@[simp] theorem State.updCtx_started (s : State) (f : CtxSt → CtxSt) : (s.updCtx f).started = s.started := (rfl)
@[simp] theorem State.updCtx_t0 (s : State) (f : CtxSt → CtxSt) : (s.updCtx f).t0 = s.t0 := (rfl)
@[simp] theorem State.updCtx_firstBeat (s : State) (f : CtxSt → CtxSt) (y : Nat) : (s.updCtx f).firstBeat y = s.firstBeat y := (rfl)
@[simp] theorem State.updCtx_frameOfBeat (s : State) (f : CtxSt → CtxSt) (y : Nat) : (s.updCtx f).frameOfBeat y = s.frameOfBeat y := (rfl)
@[simp] theorem State.updCtx_beatStart (s : State) (f : CtxSt → CtxSt) (y : Nat) : (s.updCtx f).beatStart y = s.beatStart y := (rfl)
@[simp] theorem State.updCtx_frameStart (s : State) (f : CtxSt → CtxSt) (y : Nat) : (s.updCtx f).frameStart y = s.frameStart y := (rfl)
@[simp] theorem State.updCtx_isBoundary (s : State) (f : CtxSt → CtxSt) (y : Nat) : (s.updCtx f).isBoundary y = s.isBoundary y := (rfl)
@[simp] theorem State.updCtx_frameAt (s : State) (f : CtxSt → CtxSt) (x : Instant) : (s.updCtx f).frameAt x = s.frameAt x := (rfl)
@[simp] theorem State.updCtx_chip (s : State) (f : CtxSt → CtxSt) : (s.updCtx f).chip = s.chip := (rfl)
@[simp] theorem State.updCtx_port (s : State) (f : CtxSt → CtxSt) (y : Nat) : (s.updCtx f).port y = s.port y := (rfl)

/-! ### updUpd -/

@[simp] theorem State.updUpd_pending (s : State) (f : UpdSt → UpdSt) : (s.updUpd f).pending = s.pending := (rfl)
@[simp] theorem State.updUpd_part (s : State) (f : UpdSt → UpdSt) : (s.updUpd f).part = s.part := (rfl)
@[simp] theorem State.updUpd_stepping (s : State) (f : UpdSt → UpdSt) : (s.updUpd f).stepping = s.stepping := (rfl)
@[simp] theorem State.updUpd_fitted (s : State) (f : UpdSt → UpdSt) : (s.updUpd f).fitted = s.fitted := (rfl)
@[simp] theorem State.updUpd_dramRate (s : State) (f : UpdSt → UpdSt) : (s.updUpd f).dramRate = s.dramRate := (rfl)
@[simp] theorem State.updUpd_bistOk (s : State) (f : UpdSt → UpdSt) : (s.updUpd f).bistOk = s.bistOk := (rfl)
@[simp] theorem State.updUpd_tanexReset (s : State) (f : UpdSt → UpdSt) : (s.updUpd f).tanexReset = s.tanexReset := (rfl)
@[simp] theorem State.updUpd_thermTrip (s : State) (f : UpdSt → UpdSt) : (s.updUpd f).thermTrip = s.thermTrip := (rfl)
@[simp] theorem State.updUpd_prgSens (s : State) (f : UpdSt → UpdSt) : (s.updUpd f).prgSens = s.prgSens := (rfl)
@[simp] theorem State.updUpd_boot (s : State) (f : UpdSt → UpdSt) : (s.updUpd f).boot = s.boot := (rfl)
@[simp] theorem State.updUpd_mem (s : State) (f : UpdSt → UpdSt) : (s.updUpd f).mem = s.mem := (rfl)
@[simp] theorem State.updUpd_flips (s : State) (f : UpdSt → UpdSt) : (s.updUpd f).flips = s.flips := (rfl)
@[simp] theorem State.updUpd_peatDirty (s : State) (f : UpdSt → UpdSt) : (s.updUpd f).peatDirty = s.peatDirty := (rfl)
@[simp] theorem State.updUpd_dramDirty (s : State) (f : UpdSt → UpdSt) : (s.updUpd f).dramDirty = s.dramDirty := (rfl)
@[simp] theorem State.updUpd_scrubPos (s : State) (f : UpdSt → UpdSt) : (s.updUpd f).scrubPos = s.scrubPos := (rfl)
@[simp] theorem State.updUpd_scrubPass (s : State) (f : UpdSt → UpdSt) : (s.updUpd f).scrubPass = s.scrubPass := (rfl)
@[simp] theorem State.updUpd_scrubStart (s : State) (f : UpdSt → UpdSt) : (s.updUpd f).scrubStart = s.scrubStart := (rfl)
@[simp] theorem State.updUpd_scrubFrom (s : State) (f : UpdSt → UpdSt) : (s.updUpd f).scrubFrom = s.scrubFrom := (rfl)
@[simp] theorem State.updUpd_rowsHit (s : State) (f : UpdSt → UpdSt) : (s.updUpd f).rowsHit = s.rowsHit := (rfl)
@[simp] theorem State.updUpd_bankCe (s : State) (f : UpdSt → UpdSt) : (s.updUpd f).bankCe = s.bankCe := (rfl)
@[simp] theorem State.updUpd_rowTests (s : State) (f : UpdSt → UpdSt) : (s.updUpd f).rowTests = s.rowTests := (rfl)
@[simp] theorem State.updUpd_pprDone (s : State) (f : UpdSt → UpdSt) : (s.updUpd f).pprDone = s.pprDone := (rfl)
@[simp] theorem State.updUpd_flash (s : State) (f : UpdSt → UpdSt) : (s.updUpd f).flash = s.flash := (rfl)
@[simp] theorem State.updUpd_tiles (s : State) (f : UpdSt → UpdSt) : (s.updUpd f).tiles = s.tiles := (rfl)
@[simp] theorem State.updUpd_queues (s : State) (f : UpdSt → UpdSt) : (s.updUpd f).queues = s.queues := (rfl)
@[simp] theorem State.updUpd_clusters (s : State) (f : UpdSt → UpdSt) : (s.updUpd f).clusters = s.clusters := (rfl)
@[simp] theorem State.updUpd_cluUnits (s : State) (f : UpdSt → UpdSt) : (s.updUpd f).cluUnits = s.cluUnits := (rfl)
@[simp] theorem State.updUpd_regions (s : State) (f : UpdSt → UpdSt) : (s.updUpd f).regions = s.regions := (rfl)
@[simp] theorem State.updUpd_rgnUnits (s : State) (f : UpdSt → UpdSt) : (s.updUpd f).rgnUnits = s.rgnUnits := (rfl)
@[simp] theorem State.updUpd_repair (s : State) (f : UpdSt → UpdSt) : (s.updUpd f).repair = s.repair := (rfl)
@[simp] theorem State.updUpd_slots (s : State) (f : UpdSt → UpdSt) : (s.updUpd f).slots = s.slots := (rfl)
@[simp] theorem State.updUpd_chans (s : State) (f : UpdSt → UpdSt) : (s.updUpd f).chans = s.chans := (rfl)
@[simp] theorem State.updUpd_dies (s : State) (f : UpdSt → UpdSt) : (s.updUpd f).dies = s.dies := (rfl)
@[simp] theorem State.updUpd_cams (s : State) (f : UpdSt → UpdSt) : (s.updUpd f).cams = s.cams := (rfl)
@[simp] theorem State.updUpd_pipes (s : State) (f : UpdSt → UpdSt) : (s.updUpd f).pipes = s.pipes := (rfl)
@[simp] theorem State.updUpd_fctx (s : State) (f : UpdSt → UpdSt) : (s.updUpd f).fctx = s.fctx := (rfl)
@[simp] theorem State.updUpd_range (s : State) (f : UpdSt → UpdSt) : (s.updUpd f).range = s.range := (rfl)
@[simp] theorem State.updUpd_hp (s : State) (f : UpdSt → UpdSt) : (s.updUpd f).hp = s.hp := (rfl)
@[simp] theorem State.updUpd_tb (s : State) (f : UpdSt → UpdSt) : (s.updUpd f).tb = s.tb := (rfl)
@[simp] theorem State.updUpd_beat (s : State) (f : UpdSt → UpdSt) : (s.updUpd f).beat = s.beat := (rfl)
@[simp] theorem State.updUpd_saf (s : State) (f : UpdSt → UpdSt) : (s.updUpd f).saf = s.saf := (rfl)
@[simp] theorem State.updUpd_ash (s : State) (f : UpdSt → UpdSt) : (s.updUpd f).ash = s.ash := (rfl)
@[simp] theorem State.updUpd_link (s : State) (f : UpdSt → UpdSt) : (s.updUpd f).link = s.link := (rfl)
@[simp] theorem State.updUpd_ctx (s : State) (f : UpdSt → UpdSt) : (s.updUpd f).ctx = s.ctx := (rfl)
@[simp] theorem State.updUpd_sec (s : State) (f : UpdSt → UpdSt) : (s.updUpd f).sec = s.sec := (rfl)
@[simp] theorem State.updUpd_lat (s : State) (f : UpdSt → UpdSt) : (s.updUpd f).lat = s.lat := (rfl)
@[simp] theorem State.updUpd_cvu (s : State) (f : UpdSt → UpdSt) : (s.updUpd f).cvu = s.cvu := (rfl)
@[simp] theorem State.updUpd_image (s : State) (f : UpdSt → UpdSt) : (s.updUpd f).image = s.image := (rfl)
@[simp] theorem State.updUpd_suspects (s : State) (f : UpdSt → UpdSt) : (s.updUpd f).suspects = s.suspects := (rfl)
@[simp] theorem State.updUpd_starts (s : State) (f : UpdSt → UpdSt) : (s.updUpd f).starts = s.starts := (rfl)
@[simp] theorem State.updUpd_draws (s : State) (f : UpdSt → UpdSt) : (s.updUpd f).draws = s.draws := (rfl)
@[simp] theorem State.updUpd_upd (s : State) (f : UpdSt → UpdSt) : (s.updUpd f).upd = f s.upd := (rfl)
@[simp] theorem State.updUpd_tile (s : State) (f : UpdSt → UpdSt) (y : Nat) : (s.updUpd f).tile y = s.tile y := (rfl)
@[simp] theorem State.updUpd_queue (s : State) (f : UpdSt → UpdSt) (y : Nat) : (s.updUpd f).queue y = s.queue y := (rfl)
@[simp] theorem State.updUpd_cluster (s : State) (f : UpdSt → UpdSt) (y : Nat) : (s.updUpd f).cluster y = s.cluster y := (rfl)
@[simp] theorem State.updUpd_cluUnit (s : State) (f : UpdSt → UpdSt) (y : Nat) : (s.updUpd f).cluUnit y = s.cluUnit y := (rfl)
@[simp] theorem State.updUpd_region (s : State) (f : UpdSt → UpdSt) (y : Nat) : (s.updUpd f).region y = s.region y := (rfl)
@[simp] theorem State.updUpd_rgnUnit (s : State) (f : UpdSt → UpdSt) (y : Nat) : (s.updUpd f).rgnUnit y = s.rgnUnit y := (rfl)
@[simp] theorem State.updUpd_slot (s : State) (f : UpdSt → UpdSt) (y : Nat) : (s.updUpd f).slot y = s.slot y := (rfl)
@[simp] theorem State.updUpd_chan (s : State) (f : UpdSt → UpdSt) (y : Nat) : (s.updUpd f).chan y = s.chan y := (rfl)
@[simp] theorem State.updUpd_die (s : State) (f : UpdSt → UpdSt) (y : Nat) : (s.updUpd f).die y = s.die y := (rfl)
@[simp] theorem State.updUpd_cam (s : State) (f : UpdSt → UpdSt) (y : Nat) : (s.updUpd f).cam y = s.cam y := (rfl)
@[simp] theorem State.updUpd_pipe (s : State) (f : UpdSt → UpdSt) (y : Nat) : (s.updUpd f).pipe y = s.pipe y := (rfl)
@[simp] theorem State.updUpd_facet (s : State) (f : UpdSt → UpdSt) (y : Nat) : (s.updUpd f).facet y = s.facet y := (rfl)
@[simp] theorem State.updUpd_mac (s : State) (f : UpdSt → UpdSt) (y : Nat) : (s.updUpd f).mac y = s.mac y := (rfl)
@[simp] theorem State.updUpd_hpath (s : State) (f : UpdSt → UpdSt) (y : Nat) : (s.updUpd f).hpath y = s.hpath y := (rfl)
@[simp] theorem State.updUpd_img (s : State) (f : UpdSt → UpdSt) : (s.updUpd f).img = s.img := (rfl)
@[simp] theorem State.updUpd_mode (s : State) (f : UpdSt → UpdSt) : (s.updUpd f).mode = s.mode := (rfl)
@[simp] theorem State.updUpd_isBench (s : State) (f : UpdSt → UpdSt) : (s.updUpd f).isBench = s.isBench := (rfl)
@[simp] theorem State.updUpd_compares (s : State) (f : UpdSt → UpdSt) : (s.updUpd f).compares = s.compares := (rfl)
@[simp] theorem State.updUpd_isReplay (s : State) (f : UpdSt → UpdSt) : (s.updUpd f).isReplay = s.isReplay := (rfl)
@[simp] theorem State.updUpd_alloc (s : State) (f : UpdSt → UpdSt) (y : Nat) : (s.updUpd f).alloc y = s.alloc y := (rfl)
@[simp] theorem State.updUpd_role (s : State) (f : UpdSt → UpdSt) (y : Nat) : (s.updUpd f).role y = s.role y := (rfl)
@[simp] theorem State.updUpd_schedule (s : State) (f : UpdSt → UpdSt) : (s.updUpd f).schedule = s.schedule := (rfl)
@[simp] theorem State.updUpd_commitTile (s : State) (f : UpdSt → UpdSt) : (s.updUpd f).commitTile = s.commitTile := (rfl)
@[simp] theorem State.updUpd_now (s : State) (f : UpdSt → UpdSt) : (s.updUpd f).now = s.now := (rfl)
@[simp] theorem State.updUpd_mono (s : State) (f : UpdSt → UpdSt) : (s.updUpd f).mono = s.mono := (rfl)
@[simp] theorem State.updUpd_stampAt (s : State) (f : UpdSt → UpdSt) (x : Instant) : (s.updUpd f).stampAt x = s.stampAt x := (rfl)
@[simp] theorem State.updUpd_stamp (s : State) (f : UpdSt → UpdSt) : (s.updUpd f).stamp = s.stamp := (rfl)
@[simp] theorem State.updUpd_dieNow (s : State) (f : UpdSt → UpdSt) (y : Nat) : (s.updUpd f).dieNow y = s.dieNow y := (rfl)
@[simp] theorem State.updUpd_dieStamp (s : State) (f : UpdSt → UpdSt) (y : Nat) : (s.updUpd f).dieStamp y = s.dieStamp y := (rfl)
@[simp] theorem State.updUpd_frameNs (s : State) (f : UpdSt → UpdSt) : (s.updUpd f).frameNs = s.frameNs := (rfl)
@[simp] theorem State.updUpd_beatNs (s : State) (f : UpdSt → UpdSt) : (s.updUpd f).beatNs = s.beatNs := (rfl)
@[simp] theorem State.updUpd_started (s : State) (f : UpdSt → UpdSt) : (s.updUpd f).started = s.started := (rfl)
@[simp] theorem State.updUpd_t0 (s : State) (f : UpdSt → UpdSt) : (s.updUpd f).t0 = s.t0 := (rfl)
@[simp] theorem State.updUpd_firstBeat (s : State) (f : UpdSt → UpdSt) (y : Nat) : (s.updUpd f).firstBeat y = s.firstBeat y := (rfl)
@[simp] theorem State.updUpd_frameOfBeat (s : State) (f : UpdSt → UpdSt) (y : Nat) : (s.updUpd f).frameOfBeat y = s.frameOfBeat y := (rfl)
@[simp] theorem State.updUpd_beatStart (s : State) (f : UpdSt → UpdSt) (y : Nat) : (s.updUpd f).beatStart y = s.beatStart y := (rfl)
@[simp] theorem State.updUpd_frameStart (s : State) (f : UpdSt → UpdSt) (y : Nat) : (s.updUpd f).frameStart y = s.frameStart y := (rfl)
@[simp] theorem State.updUpd_isBoundary (s : State) (f : UpdSt → UpdSt) (y : Nat) : (s.updUpd f).isBoundary y = s.isBoundary y := (rfl)
@[simp] theorem State.updUpd_frameAt (s : State) (f : UpdSt → UpdSt) (x : Instant) : (s.updUpd f).frameAt x = s.frameAt x := (rfl)
@[simp] theorem State.updUpd_txnDue (s : State) (f : UpdSt → UpdSt) : (s.updUpd f).txnDue = s.txnDue := (rfl)
@[simp] theorem State.updUpd_chip (s : State) (f : UpdSt → UpdSt) : (s.updUpd f).chip = s.chip := (rfl)
@[simp] theorem State.updUpd_port (s : State) (f : UpdSt → UpdSt) (y : Nat) : (s.updUpd f).port y = s.port y := (rfl)

/-! ### updSec -/

@[simp] theorem State.updSec_pending (s : State) (f : SecSt → SecSt) : (s.updSec f).pending = s.pending := (rfl)
@[simp] theorem State.updSec_part (s : State) (f : SecSt → SecSt) : (s.updSec f).part = s.part := (rfl)
@[simp] theorem State.updSec_stepping (s : State) (f : SecSt → SecSt) : (s.updSec f).stepping = s.stepping := (rfl)
@[simp] theorem State.updSec_fitted (s : State) (f : SecSt → SecSt) : (s.updSec f).fitted = s.fitted := (rfl)
@[simp] theorem State.updSec_dramRate (s : State) (f : SecSt → SecSt) : (s.updSec f).dramRate = s.dramRate := (rfl)
@[simp] theorem State.updSec_bistOk (s : State) (f : SecSt → SecSt) : (s.updSec f).bistOk = s.bistOk := (rfl)
@[simp] theorem State.updSec_tanexReset (s : State) (f : SecSt → SecSt) : (s.updSec f).tanexReset = s.tanexReset := (rfl)
@[simp] theorem State.updSec_thermTrip (s : State) (f : SecSt → SecSt) : (s.updSec f).thermTrip = s.thermTrip := (rfl)
@[simp] theorem State.updSec_prgSens (s : State) (f : SecSt → SecSt) : (s.updSec f).prgSens = s.prgSens := (rfl)
@[simp] theorem State.updSec_boot (s : State) (f : SecSt → SecSt) : (s.updSec f).boot = s.boot := (rfl)
@[simp] theorem State.updSec_mem (s : State) (f : SecSt → SecSt) : (s.updSec f).mem = s.mem := (rfl)
@[simp] theorem State.updSec_flips (s : State) (f : SecSt → SecSt) : (s.updSec f).flips = s.flips := (rfl)
@[simp] theorem State.updSec_peatDirty (s : State) (f : SecSt → SecSt) : (s.updSec f).peatDirty = s.peatDirty := (rfl)
@[simp] theorem State.updSec_dramDirty (s : State) (f : SecSt → SecSt) : (s.updSec f).dramDirty = s.dramDirty := (rfl)
@[simp] theorem State.updSec_scrubPos (s : State) (f : SecSt → SecSt) : (s.updSec f).scrubPos = s.scrubPos := (rfl)
@[simp] theorem State.updSec_scrubPass (s : State) (f : SecSt → SecSt) : (s.updSec f).scrubPass = s.scrubPass := (rfl)
@[simp] theorem State.updSec_scrubStart (s : State) (f : SecSt → SecSt) : (s.updSec f).scrubStart = s.scrubStart := (rfl)
@[simp] theorem State.updSec_scrubFrom (s : State) (f : SecSt → SecSt) : (s.updSec f).scrubFrom = s.scrubFrom := (rfl)
@[simp] theorem State.updSec_rowsHit (s : State) (f : SecSt → SecSt) : (s.updSec f).rowsHit = s.rowsHit := (rfl)
@[simp] theorem State.updSec_bankCe (s : State) (f : SecSt → SecSt) : (s.updSec f).bankCe = s.bankCe := (rfl)
@[simp] theorem State.updSec_rowTests (s : State) (f : SecSt → SecSt) : (s.updSec f).rowTests = s.rowTests := (rfl)
@[simp] theorem State.updSec_pprDone (s : State) (f : SecSt → SecSt) : (s.updSec f).pprDone = s.pprDone := (rfl)
@[simp] theorem State.updSec_flash (s : State) (f : SecSt → SecSt) : (s.updSec f).flash = s.flash := (rfl)
@[simp] theorem State.updSec_tiles (s : State) (f : SecSt → SecSt) : (s.updSec f).tiles = s.tiles := (rfl)
@[simp] theorem State.updSec_queues (s : State) (f : SecSt → SecSt) : (s.updSec f).queues = s.queues := (rfl)
@[simp] theorem State.updSec_clusters (s : State) (f : SecSt → SecSt) : (s.updSec f).clusters = s.clusters := (rfl)
@[simp] theorem State.updSec_cluUnits (s : State) (f : SecSt → SecSt) : (s.updSec f).cluUnits = s.cluUnits := (rfl)
@[simp] theorem State.updSec_regions (s : State) (f : SecSt → SecSt) : (s.updSec f).regions = s.regions := (rfl)
@[simp] theorem State.updSec_rgnUnits (s : State) (f : SecSt → SecSt) : (s.updSec f).rgnUnits = s.rgnUnits := (rfl)
@[simp] theorem State.updSec_repair (s : State) (f : SecSt → SecSt) : (s.updSec f).repair = s.repair := (rfl)
@[simp] theorem State.updSec_slots (s : State) (f : SecSt → SecSt) : (s.updSec f).slots = s.slots := (rfl)
@[simp] theorem State.updSec_chans (s : State) (f : SecSt → SecSt) : (s.updSec f).chans = s.chans := (rfl)
@[simp] theorem State.updSec_dies (s : State) (f : SecSt → SecSt) : (s.updSec f).dies = s.dies := (rfl)
@[simp] theorem State.updSec_cams (s : State) (f : SecSt → SecSt) : (s.updSec f).cams = s.cams := (rfl)
@[simp] theorem State.updSec_pipes (s : State) (f : SecSt → SecSt) : (s.updSec f).pipes = s.pipes := (rfl)
@[simp] theorem State.updSec_fctx (s : State) (f : SecSt → SecSt) : (s.updSec f).fctx = s.fctx := (rfl)
@[simp] theorem State.updSec_range (s : State) (f : SecSt → SecSt) : (s.updSec f).range = s.range := (rfl)
@[simp] theorem State.updSec_hp (s : State) (f : SecSt → SecSt) : (s.updSec f).hp = s.hp := (rfl)
@[simp] theorem State.updSec_tb (s : State) (f : SecSt → SecSt) : (s.updSec f).tb = s.tb := (rfl)
@[simp] theorem State.updSec_beat (s : State) (f : SecSt → SecSt) : (s.updSec f).beat = s.beat := (rfl)
@[simp] theorem State.updSec_saf (s : State) (f : SecSt → SecSt) : (s.updSec f).saf = s.saf := (rfl)
@[simp] theorem State.updSec_ash (s : State) (f : SecSt → SecSt) : (s.updSec f).ash = s.ash := (rfl)
@[simp] theorem State.updSec_link (s : State) (f : SecSt → SecSt) : (s.updSec f).link = s.link := (rfl)
@[simp] theorem State.updSec_ctx (s : State) (f : SecSt → SecSt) : (s.updSec f).ctx = s.ctx := (rfl)
@[simp] theorem State.updSec_upd (s : State) (f : SecSt → SecSt) : (s.updSec f).upd = s.upd := (rfl)
@[simp] theorem State.updSec_lat (s : State) (f : SecSt → SecSt) : (s.updSec f).lat = s.lat := (rfl)
@[simp] theorem State.updSec_cvu (s : State) (f : SecSt → SecSt) : (s.updSec f).cvu = s.cvu := (rfl)
@[simp] theorem State.updSec_image (s : State) (f : SecSt → SecSt) : (s.updSec f).image = s.image := (rfl)
@[simp] theorem State.updSec_suspects (s : State) (f : SecSt → SecSt) : (s.updSec f).suspects = s.suspects := (rfl)
@[simp] theorem State.updSec_starts (s : State) (f : SecSt → SecSt) : (s.updSec f).starts = s.starts := (rfl)
@[simp] theorem State.updSec_draws (s : State) (f : SecSt → SecSt) : (s.updSec f).draws = s.draws := (rfl)
@[simp] theorem State.updSec_sec (s : State) (f : SecSt → SecSt) : (s.updSec f).sec = f s.sec := (rfl)
@[simp] theorem State.updSec_tile (s : State) (f : SecSt → SecSt) (y : Nat) : (s.updSec f).tile y = s.tile y := (rfl)
@[simp] theorem State.updSec_queue (s : State) (f : SecSt → SecSt) (y : Nat) : (s.updSec f).queue y = s.queue y := (rfl)
@[simp] theorem State.updSec_cluster (s : State) (f : SecSt → SecSt) (y : Nat) : (s.updSec f).cluster y = s.cluster y := (rfl)
@[simp] theorem State.updSec_cluUnit (s : State) (f : SecSt → SecSt) (y : Nat) : (s.updSec f).cluUnit y = s.cluUnit y := (rfl)
@[simp] theorem State.updSec_region (s : State) (f : SecSt → SecSt) (y : Nat) : (s.updSec f).region y = s.region y := (rfl)
@[simp] theorem State.updSec_rgnUnit (s : State) (f : SecSt → SecSt) (y : Nat) : (s.updSec f).rgnUnit y = s.rgnUnit y := (rfl)
@[simp] theorem State.updSec_slot (s : State) (f : SecSt → SecSt) (y : Nat) : (s.updSec f).slot y = s.slot y := (rfl)
@[simp] theorem State.updSec_chan (s : State) (f : SecSt → SecSt) (y : Nat) : (s.updSec f).chan y = s.chan y := (rfl)
@[simp] theorem State.updSec_die (s : State) (f : SecSt → SecSt) (y : Nat) : (s.updSec f).die y = s.die y := (rfl)
@[simp] theorem State.updSec_cam (s : State) (f : SecSt → SecSt) (y : Nat) : (s.updSec f).cam y = s.cam y := (rfl)
@[simp] theorem State.updSec_pipe (s : State) (f : SecSt → SecSt) (y : Nat) : (s.updSec f).pipe y = s.pipe y := (rfl)
@[simp] theorem State.updSec_facet (s : State) (f : SecSt → SecSt) (y : Nat) : (s.updSec f).facet y = s.facet y := (rfl)
@[simp] theorem State.updSec_mac (s : State) (f : SecSt → SecSt) (y : Nat) : (s.updSec f).mac y = s.mac y := (rfl)
@[simp] theorem State.updSec_hpath (s : State) (f : SecSt → SecSt) (y : Nat) : (s.updSec f).hpath y = s.hpath y := (rfl)
@[simp] theorem State.updSec_img (s : State) (f : SecSt → SecSt) : (s.updSec f).img = s.img := (rfl)
@[simp] theorem State.updSec_mode (s : State) (f : SecSt → SecSt) : (s.updSec f).mode = s.mode := (rfl)
@[simp] theorem State.updSec_isBench (s : State) (f : SecSt → SecSt) : (s.updSec f).isBench = s.isBench := (rfl)
@[simp] theorem State.updSec_compares (s : State) (f : SecSt → SecSt) : (s.updSec f).compares = s.compares := (rfl)
@[simp] theorem State.updSec_isReplay (s : State) (f : SecSt → SecSt) : (s.updSec f).isReplay = s.isReplay := (rfl)
@[simp] theorem State.updSec_alloc (s : State) (f : SecSt → SecSt) (y : Nat) : (s.updSec f).alloc y = s.alloc y := (rfl)
@[simp] theorem State.updSec_role (s : State) (f : SecSt → SecSt) (y : Nat) : (s.updSec f).role y = s.role y := (rfl)
@[simp] theorem State.updSec_schedule (s : State) (f : SecSt → SecSt) : (s.updSec f).schedule = s.schedule := (rfl)
@[simp] theorem State.updSec_commitTile (s : State) (f : SecSt → SecSt) : (s.updSec f).commitTile = s.commitTile := (rfl)
@[simp] theorem State.updSec_now (s : State) (f : SecSt → SecSt) : (s.updSec f).now = s.now := (rfl)
@[simp] theorem State.updSec_mono (s : State) (f : SecSt → SecSt) : (s.updSec f).mono = s.mono := (rfl)
@[simp] theorem State.updSec_stampAt (s : State) (f : SecSt → SecSt) (x : Instant) : (s.updSec f).stampAt x = s.stampAt x := (rfl)
@[simp] theorem State.updSec_stamp (s : State) (f : SecSt → SecSt) : (s.updSec f).stamp = s.stamp := (rfl)
@[simp] theorem State.updSec_dieNow (s : State) (f : SecSt → SecSt) (y : Nat) : (s.updSec f).dieNow y = s.dieNow y := (rfl)
@[simp] theorem State.updSec_dieStamp (s : State) (f : SecSt → SecSt) (y : Nat) : (s.updSec f).dieStamp y = s.dieStamp y := (rfl)
@[simp] theorem State.updSec_frameNs (s : State) (f : SecSt → SecSt) : (s.updSec f).frameNs = s.frameNs := (rfl)
@[simp] theorem State.updSec_beatNs (s : State) (f : SecSt → SecSt) : (s.updSec f).beatNs = s.beatNs := (rfl)
@[simp] theorem State.updSec_started (s : State) (f : SecSt → SecSt) : (s.updSec f).started = s.started := (rfl)
@[simp] theorem State.updSec_t0 (s : State) (f : SecSt → SecSt) : (s.updSec f).t0 = s.t0 := (rfl)
@[simp] theorem State.updSec_firstBeat (s : State) (f : SecSt → SecSt) (y : Nat) : (s.updSec f).firstBeat y = s.firstBeat y := (rfl)
@[simp] theorem State.updSec_frameOfBeat (s : State) (f : SecSt → SecSt) (y : Nat) : (s.updSec f).frameOfBeat y = s.frameOfBeat y := (rfl)
@[simp] theorem State.updSec_beatStart (s : State) (f : SecSt → SecSt) (y : Nat) : (s.updSec f).beatStart y = s.beatStart y := (rfl)
@[simp] theorem State.updSec_frameStart (s : State) (f : SecSt → SecSt) (y : Nat) : (s.updSec f).frameStart y = s.frameStart y := (rfl)
@[simp] theorem State.updSec_isBoundary (s : State) (f : SecSt → SecSt) (y : Nat) : (s.updSec f).isBoundary y = s.isBoundary y := (rfl)
@[simp] theorem State.updSec_frameAt (s : State) (f : SecSt → SecSt) (x : Instant) : (s.updSec f).frameAt x = s.frameAt x := (rfl)
@[simp] theorem State.updSec_txnDue (s : State) (f : SecSt → SecSt) : (s.updSec f).txnDue = s.txnDue := (rfl)
@[simp] theorem State.updSec_chip (s : State) (f : SecSt → SecSt) : (s.updSec f).chip = s.chip := (rfl)
@[simp] theorem State.updSec_port (s : State) (f : SecSt → SecSt) (y : Nat) : (s.updSec f).port y = s.port y := (rfl)

/-! ### updLat -/

@[simp] theorem State.updLat_pending (s : State) (f : LatSt → LatSt) : (s.updLat f).pending = s.pending := (rfl)
@[simp] theorem State.updLat_part (s : State) (f : LatSt → LatSt) : (s.updLat f).part = s.part := (rfl)
@[simp] theorem State.updLat_stepping (s : State) (f : LatSt → LatSt) : (s.updLat f).stepping = s.stepping := (rfl)
@[simp] theorem State.updLat_fitted (s : State) (f : LatSt → LatSt) : (s.updLat f).fitted = s.fitted := (rfl)
@[simp] theorem State.updLat_dramRate (s : State) (f : LatSt → LatSt) : (s.updLat f).dramRate = s.dramRate := (rfl)
@[simp] theorem State.updLat_bistOk (s : State) (f : LatSt → LatSt) : (s.updLat f).bistOk = s.bistOk := (rfl)
@[simp] theorem State.updLat_tanexReset (s : State) (f : LatSt → LatSt) : (s.updLat f).tanexReset = s.tanexReset := (rfl)
@[simp] theorem State.updLat_thermTrip (s : State) (f : LatSt → LatSt) : (s.updLat f).thermTrip = s.thermTrip := (rfl)
@[simp] theorem State.updLat_prgSens (s : State) (f : LatSt → LatSt) : (s.updLat f).prgSens = s.prgSens := (rfl)
@[simp] theorem State.updLat_boot (s : State) (f : LatSt → LatSt) : (s.updLat f).boot = s.boot := (rfl)
@[simp] theorem State.updLat_mem (s : State) (f : LatSt → LatSt) : (s.updLat f).mem = s.mem := (rfl)
@[simp] theorem State.updLat_flips (s : State) (f : LatSt → LatSt) : (s.updLat f).flips = s.flips := (rfl)
@[simp] theorem State.updLat_peatDirty (s : State) (f : LatSt → LatSt) : (s.updLat f).peatDirty = s.peatDirty := (rfl)
@[simp] theorem State.updLat_dramDirty (s : State) (f : LatSt → LatSt) : (s.updLat f).dramDirty = s.dramDirty := (rfl)
@[simp] theorem State.updLat_scrubPos (s : State) (f : LatSt → LatSt) : (s.updLat f).scrubPos = s.scrubPos := (rfl)
@[simp] theorem State.updLat_scrubPass (s : State) (f : LatSt → LatSt) : (s.updLat f).scrubPass = s.scrubPass := (rfl)
@[simp] theorem State.updLat_scrubStart (s : State) (f : LatSt → LatSt) : (s.updLat f).scrubStart = s.scrubStart := (rfl)
@[simp] theorem State.updLat_scrubFrom (s : State) (f : LatSt → LatSt) : (s.updLat f).scrubFrom = s.scrubFrom := (rfl)
@[simp] theorem State.updLat_rowsHit (s : State) (f : LatSt → LatSt) : (s.updLat f).rowsHit = s.rowsHit := (rfl)
@[simp] theorem State.updLat_bankCe (s : State) (f : LatSt → LatSt) : (s.updLat f).bankCe = s.bankCe := (rfl)
@[simp] theorem State.updLat_rowTests (s : State) (f : LatSt → LatSt) : (s.updLat f).rowTests = s.rowTests := (rfl)
@[simp] theorem State.updLat_pprDone (s : State) (f : LatSt → LatSt) : (s.updLat f).pprDone = s.pprDone := (rfl)
@[simp] theorem State.updLat_flash (s : State) (f : LatSt → LatSt) : (s.updLat f).flash = s.flash := (rfl)
@[simp] theorem State.updLat_tiles (s : State) (f : LatSt → LatSt) : (s.updLat f).tiles = s.tiles := (rfl)
@[simp] theorem State.updLat_queues (s : State) (f : LatSt → LatSt) : (s.updLat f).queues = s.queues := (rfl)
@[simp] theorem State.updLat_clusters (s : State) (f : LatSt → LatSt) : (s.updLat f).clusters = s.clusters := (rfl)
@[simp] theorem State.updLat_cluUnits (s : State) (f : LatSt → LatSt) : (s.updLat f).cluUnits = s.cluUnits := (rfl)
@[simp] theorem State.updLat_regions (s : State) (f : LatSt → LatSt) : (s.updLat f).regions = s.regions := (rfl)
@[simp] theorem State.updLat_rgnUnits (s : State) (f : LatSt → LatSt) : (s.updLat f).rgnUnits = s.rgnUnits := (rfl)
@[simp] theorem State.updLat_repair (s : State) (f : LatSt → LatSt) : (s.updLat f).repair = s.repair := (rfl)
@[simp] theorem State.updLat_slots (s : State) (f : LatSt → LatSt) : (s.updLat f).slots = s.slots := (rfl)
@[simp] theorem State.updLat_chans (s : State) (f : LatSt → LatSt) : (s.updLat f).chans = s.chans := (rfl)
@[simp] theorem State.updLat_dies (s : State) (f : LatSt → LatSt) : (s.updLat f).dies = s.dies := (rfl)
@[simp] theorem State.updLat_cams (s : State) (f : LatSt → LatSt) : (s.updLat f).cams = s.cams := (rfl)
@[simp] theorem State.updLat_pipes (s : State) (f : LatSt → LatSt) : (s.updLat f).pipes = s.pipes := (rfl)
@[simp] theorem State.updLat_fctx (s : State) (f : LatSt → LatSt) : (s.updLat f).fctx = s.fctx := (rfl)
@[simp] theorem State.updLat_range (s : State) (f : LatSt → LatSt) : (s.updLat f).range = s.range := (rfl)
@[simp] theorem State.updLat_hp (s : State) (f : LatSt → LatSt) : (s.updLat f).hp = s.hp := (rfl)
@[simp] theorem State.updLat_tb (s : State) (f : LatSt → LatSt) : (s.updLat f).tb = s.tb := (rfl)
@[simp] theorem State.updLat_beat (s : State) (f : LatSt → LatSt) : (s.updLat f).beat = s.beat := (rfl)
@[simp] theorem State.updLat_saf (s : State) (f : LatSt → LatSt) : (s.updLat f).saf = s.saf := (rfl)
@[simp] theorem State.updLat_ash (s : State) (f : LatSt → LatSt) : (s.updLat f).ash = s.ash := (rfl)
@[simp] theorem State.updLat_link (s : State) (f : LatSt → LatSt) : (s.updLat f).link = s.link := (rfl)
@[simp] theorem State.updLat_ctx (s : State) (f : LatSt → LatSt) : (s.updLat f).ctx = s.ctx := (rfl)
@[simp] theorem State.updLat_upd (s : State) (f : LatSt → LatSt) : (s.updLat f).upd = s.upd := (rfl)
@[simp] theorem State.updLat_sec (s : State) (f : LatSt → LatSt) : (s.updLat f).sec = s.sec := (rfl)
@[simp] theorem State.updLat_cvu (s : State) (f : LatSt → LatSt) : (s.updLat f).cvu = s.cvu := (rfl)
@[simp] theorem State.updLat_image (s : State) (f : LatSt → LatSt) : (s.updLat f).image = s.image := (rfl)
@[simp] theorem State.updLat_suspects (s : State) (f : LatSt → LatSt) : (s.updLat f).suspects = s.suspects := (rfl)
@[simp] theorem State.updLat_starts (s : State) (f : LatSt → LatSt) : (s.updLat f).starts = s.starts := (rfl)
@[simp] theorem State.updLat_draws (s : State) (f : LatSt → LatSt) : (s.updLat f).draws = s.draws := (rfl)
@[simp] theorem State.updLat_lat (s : State) (f : LatSt → LatSt) : (s.updLat f).lat = f s.lat := (rfl)
@[simp] theorem State.updLat_tile (s : State) (f : LatSt → LatSt) (y : Nat) : (s.updLat f).tile y = s.tile y := (rfl)
@[simp] theorem State.updLat_queue (s : State) (f : LatSt → LatSt) (y : Nat) : (s.updLat f).queue y = s.queue y := (rfl)
@[simp] theorem State.updLat_cluster (s : State) (f : LatSt → LatSt) (y : Nat) : (s.updLat f).cluster y = s.cluster y := (rfl)
@[simp] theorem State.updLat_cluUnit (s : State) (f : LatSt → LatSt) (y : Nat) : (s.updLat f).cluUnit y = s.cluUnit y := (rfl)
@[simp] theorem State.updLat_region (s : State) (f : LatSt → LatSt) (y : Nat) : (s.updLat f).region y = s.region y := (rfl)
@[simp] theorem State.updLat_rgnUnit (s : State) (f : LatSt → LatSt) (y : Nat) : (s.updLat f).rgnUnit y = s.rgnUnit y := (rfl)
@[simp] theorem State.updLat_slot (s : State) (f : LatSt → LatSt) (y : Nat) : (s.updLat f).slot y = s.slot y := (rfl)
@[simp] theorem State.updLat_chan (s : State) (f : LatSt → LatSt) (y : Nat) : (s.updLat f).chan y = s.chan y := (rfl)
@[simp] theorem State.updLat_die (s : State) (f : LatSt → LatSt) (y : Nat) : (s.updLat f).die y = s.die y := (rfl)
@[simp] theorem State.updLat_cam (s : State) (f : LatSt → LatSt) (y : Nat) : (s.updLat f).cam y = s.cam y := (rfl)
@[simp] theorem State.updLat_pipe (s : State) (f : LatSt → LatSt) (y : Nat) : (s.updLat f).pipe y = s.pipe y := (rfl)
@[simp] theorem State.updLat_facet (s : State) (f : LatSt → LatSt) (y : Nat) : (s.updLat f).facet y = s.facet y := (rfl)
@[simp] theorem State.updLat_mac (s : State) (f : LatSt → LatSt) (y : Nat) : (s.updLat f).mac y = s.mac y := (rfl)
@[simp] theorem State.updLat_hpath (s : State) (f : LatSt → LatSt) (y : Nat) : (s.updLat f).hpath y = s.hpath y := (rfl)
@[simp] theorem State.updLat_img (s : State) (f : LatSt → LatSt) : (s.updLat f).img = s.img := (rfl)
@[simp] theorem State.updLat_mode (s : State) (f : LatSt → LatSt) : (s.updLat f).mode = s.mode := (rfl)
@[simp] theorem State.updLat_isBench (s : State) (f : LatSt → LatSt) : (s.updLat f).isBench = s.isBench := (rfl)
@[simp] theorem State.updLat_compares (s : State) (f : LatSt → LatSt) : (s.updLat f).compares = s.compares := (rfl)
@[simp] theorem State.updLat_isReplay (s : State) (f : LatSt → LatSt) : (s.updLat f).isReplay = s.isReplay := (rfl)
@[simp] theorem State.updLat_alloc (s : State) (f : LatSt → LatSt) (y : Nat) : (s.updLat f).alloc y = s.alloc y := (rfl)
@[simp] theorem State.updLat_role (s : State) (f : LatSt → LatSt) (y : Nat) : (s.updLat f).role y = s.role y := (rfl)
@[simp] theorem State.updLat_schedule (s : State) (f : LatSt → LatSt) : (s.updLat f).schedule = s.schedule := (rfl)
@[simp] theorem State.updLat_commitTile (s : State) (f : LatSt → LatSt) : (s.updLat f).commitTile = s.commitTile := (rfl)
@[simp] theorem State.updLat_now (s : State) (f : LatSt → LatSt) : (s.updLat f).now = s.now := (rfl)
@[simp] theorem State.updLat_mono (s : State) (f : LatSt → LatSt) : (s.updLat f).mono = s.mono := (rfl)
@[simp] theorem State.updLat_stampAt (s : State) (f : LatSt → LatSt) (x : Instant) : (s.updLat f).stampAt x = s.stampAt x := (rfl)
@[simp] theorem State.updLat_stamp (s : State) (f : LatSt → LatSt) : (s.updLat f).stamp = s.stamp := (rfl)
@[simp] theorem State.updLat_dieNow (s : State) (f : LatSt → LatSt) (y : Nat) : (s.updLat f).dieNow y = s.dieNow y := (rfl)
@[simp] theorem State.updLat_dieStamp (s : State) (f : LatSt → LatSt) (y : Nat) : (s.updLat f).dieStamp y = s.dieStamp y := (rfl)
@[simp] theorem State.updLat_frameNs (s : State) (f : LatSt → LatSt) : (s.updLat f).frameNs = s.frameNs := (rfl)
@[simp] theorem State.updLat_beatNs (s : State) (f : LatSt → LatSt) : (s.updLat f).beatNs = s.beatNs := (rfl)
@[simp] theorem State.updLat_started (s : State) (f : LatSt → LatSt) : (s.updLat f).started = s.started := (rfl)
@[simp] theorem State.updLat_t0 (s : State) (f : LatSt → LatSt) : (s.updLat f).t0 = s.t0 := (rfl)
@[simp] theorem State.updLat_firstBeat (s : State) (f : LatSt → LatSt) (y : Nat) : (s.updLat f).firstBeat y = s.firstBeat y := (rfl)
@[simp] theorem State.updLat_frameOfBeat (s : State) (f : LatSt → LatSt) (y : Nat) : (s.updLat f).frameOfBeat y = s.frameOfBeat y := (rfl)
@[simp] theorem State.updLat_beatStart (s : State) (f : LatSt → LatSt) (y : Nat) : (s.updLat f).beatStart y = s.beatStart y := (rfl)
@[simp] theorem State.updLat_frameStart (s : State) (f : LatSt → LatSt) (y : Nat) : (s.updLat f).frameStart y = s.frameStart y := (rfl)
@[simp] theorem State.updLat_isBoundary (s : State) (f : LatSt → LatSt) (y : Nat) : (s.updLat f).isBoundary y = s.isBoundary y := (rfl)
@[simp] theorem State.updLat_frameAt (s : State) (f : LatSt → LatSt) (x : Instant) : (s.updLat f).frameAt x = s.frameAt x := (rfl)
@[simp] theorem State.updLat_txnDue (s : State) (f : LatSt → LatSt) : (s.updLat f).txnDue = s.txnDue := (rfl)
@[simp] theorem State.updLat_port (s : State) (f : LatSt → LatSt) (y : Nat) : (s.updLat f).port y = s.port y := (rfl)

end Sys2Proof.Machine
end

