-- ==== Sys2Proof/Laws/Events.lean ====
section
/-! SUPPORT. Raising an event (R367, R386, R388, R464): what it does to the FIFO and to the safe-state request, that it changes the
safety, log and link parts of the state and one flag of the record alone, and how the events of several raises add up. -/

namespace Sys2Proof.Machine

/-! ### The parts that an event changes -/

theorem State.msix_eq (s : State) (v : Nat) : s.msix v = { s with link := s.link.msix v } := (rfl)

@[simp] theorem HostLinkSt.msix_events (l : HostLinkSt) (v : Nat) : (l.msix v).events = l.events := by
  unfold HostLinkSt.msix; (repeat' split) <;> rfl

@[simp] theorem HostLinkSt.msix_lost (l : HostLinkSt) (v : Nat) : (l.msix v).lost = l.lost := by
  unfold HostLinkSt.msix; (repeat' split) <;> rfl

@[simp] theorem HostLinkSt.msix_ovf (l : HostLinkSt) (v : Nat) : (l.msix v).ovf = l.ovf := by
  unfold HostLinkSt.msix; (repeat' split) <;> rfl

theorem State.requestSafe_eq (s : State) (sev : Nat) :
    s.requestSafe sev = { s with saf := (s.requestSafe sev).saf, link := (s.requestSafe sev).link } := by
  unfold State.requestSafe; split <;> rfl

theorem State.fifo_eq (s : State) (sev unit status : Nat) (stamp : Stamp) :
    s.fifo sev unit status stamp =
      { s with ash := (s.fifo sev unit status stamp).ash, link := (s.fifo sev unit status stamp).link } := by
  unfold State.fifo; dsimp only; (repeat' split) <;> rfl

/-- `t` differs from `s` in the parts alone that an event changes. -/
def State.EventOnly (s t : State) : Prop := t = { s with saf := t.saf, ash := t.ash, link := t.link, beat := t.beat }

theorem State.EventOnly.ash {s t : State} (h : s.EventOnly t) (a : AshSt) : s.EventOnly { t with ash := a } := by
  have g := congrArg (fun x : State => { x with ash := a }) h
  exact g

theorem State.EventOnly.beat {s t : State} (h : s.EventOnly t) (b : BeatSt) : s.EventOnly { t with beat := b } := by
  have g := congrArg (fun x : State => { x with beat := b }) h
  exact g

theorem State.EventOnly.saf {s t : State} (h : s.EventOnly t) (f : SafetySt) : s.EventOnly { t with saf := f } := by
  have g := congrArg (fun x : State => { x with saf := f }) h
  exact g

theorem State.EventOnly.link {s t : State} (h : s.EventOnly t) (l : HostLinkSt) : s.EventOnly { t with link := l } := by
  have g := congrArg (fun x : State => { x with link := l }) h
  exact g

theorem State.EventOnly.ite {s t u : State} (p : Prop) [Decidable p] (h : s.EventOnly t) (g : s.EventOnly u) :
    s.EventOnly (if p then t else u) := by split <;> assumption

theorem State.EventOnly.fifo (s : State) (sev unit status : Nat) (stamp : Stamp) : s.EventOnly (s.fifo sev unit status stamp) := by
  unfold State.EventOnly; rw [State.fifo_eq]

theorem State.EventOnly.requestSafe {s t : State} (h : s.EventOnly t) (sev : Nat) : s.EventOnly (t.requestSafe sev) := by
  have g := (h.saf (t.requestSafe sev).saf).link (t.requestSafe sev).link
  rw [State.requestSafe_eq]
  exact g

theorem State.EventOnly.noteCause {s t : State} (h : s.EventOnly t) : s.EventOnly t.noteCause := by
  have g := h.saf t.noteCause.saf
  exact g

/-- An event changes the safety, log and link parts of the state and one flag of the record (`State.raiseAt_beat`) alone. -/
theorem State.raiseAt_eq (s : State) (sev unit status : Nat) (stamp : Stamp) (detail : List Byte) :
    s.raiseAt sev unit status stamp detail = { s with
      saf := (s.raiseAt sev unit status stamp detail).saf, ash := (s.raiseAt sev unit status stamp detail).ash,
      link := (s.raiseAt sev unit status stamp detail).link, beat := (s.raiseAt sev unit status stamp detail).beat } := by
  have h := ((State.EventOnly.fifo s sev unit status stamp).ash
    ((s.fifo sev unit status stamp).ash.logEvent s.mono stamp sev unit status detail))
  have g := State.EventOnly.ite (sevMarksNext sev = true) (h.beat { (s.fifo sev unit status stamp).beat with invalidNext := true }) h
  exact State.EventOnly.ite (sevRequestsSafe sev = true) (g.noteCause.requestSafe sev) g

@[simp] theorem State.fifo_beat (s : State) (sev unit status : Nat) (stamp : Stamp) : (s.fifo sev unit status stamp).beat = s.beat := by
  rw [State.fifo_eq]

@[simp] theorem State.requestSafe_beat (s : State) (sev : Nat) : (s.requestSafe sev).beat = s.beat := by rw [State.requestSafe_eq]

@[simp] theorem State.noteCause_beat (s : State) : s.noteCause.beat = s.beat := (rfl)

/-- An event of an array marks the record of the beat that runs INVALID; any other leaves the beat's part of the state alone. -/
theorem State.raiseAt_beat (s : State) (sev unit status : Nat) (stamp : Stamp) (detail : List Byte) :
    (s.raiseAt sev unit status stamp detail).beat = if sevMarksNext sev then { s.beat with invalidNext := true } else s.beat := by
  unfold State.raiseAt
  dsimp only
  split <;> split <;> simp

theorem State.raise_eq (s : State) (sev unit status : Nat) : s.raise sev unit status = { s with
    saf := (s.raise sev unit status).saf, ash := (s.raise sev unit status).ash, link := (s.raise sev unit status).link,
    beat := (s.raise sev unit status).beat } := State.raiseAt_eq _ _ _ _ _ _

theorem State.raise_beat (s : State) (sev unit status : Nat) :
    (s.raise sev unit status).beat = if sevMarksNext sev then { s.beat with invalidNext := true } else s.beat :=
  State.raiseAt_beat _ _ _ _ _ _

theorem State.raiseDie_eq (s : State) (d sev unit status : Nat) : s.raiseDie d sev unit status = { s with
    saf := (s.raiseDie d sev unit status).saf, ash := (s.raiseDie d sev unit status).ash,
    link := (s.raiseDie d sev unit status).link, beat := (s.raiseDie d sev unit status).beat } := State.raiseAt_eq _ _ _ _ _ _

theorem State.raiseDie_beat (s : State) (d sev unit status : Nat) :
    (s.raiseDie d sev unit status).beat = if sevMarksNext sev then { s.beat with invalidNext := true } else s.beat :=
  State.raiseAt_beat _ _ _ _ _ _

/-! ### raiseAt -/

@[simp] theorem State.raiseAt_pending (s : State) (sev unit status : Nat) (stamp : Stamp) (detail : List Byte) : (s.raiseAt sev unit status stamp detail).pending = s.pending := by rw [State.raiseAt_eq]
@[simp] theorem State.raiseAt_part (s : State) (sev unit status : Nat) (stamp : Stamp) (detail : List Byte) : (s.raiseAt sev unit status stamp detail).part = s.part := by rw [State.raiseAt_eq]
@[simp] theorem State.raiseAt_stepping (s : State) (sev unit status : Nat) (stamp : Stamp) (detail : List Byte) : (s.raiseAt sev unit status stamp detail).stepping = s.stepping := by rw [State.raiseAt_eq]
@[simp] theorem State.raiseAt_fitted (s : State) (sev unit status : Nat) (stamp : Stamp) (detail : List Byte) : (s.raiseAt sev unit status stamp detail).fitted = s.fitted := by rw [State.raiseAt_eq]
@[simp] theorem State.raiseAt_dramRate (s : State) (sev unit status : Nat) (stamp : Stamp) (detail : List Byte) : (s.raiseAt sev unit status stamp detail).dramRate = s.dramRate := by rw [State.raiseAt_eq]
@[simp] theorem State.raiseAt_bistOk (s : State) (sev unit status : Nat) (stamp : Stamp) (detail : List Byte) : (s.raiseAt sev unit status stamp detail).bistOk = s.bistOk := by rw [State.raiseAt_eq]
@[simp] theorem State.raiseAt_tanexReset (s : State) (sev unit status : Nat) (stamp : Stamp) (detail : List Byte) : (s.raiseAt sev unit status stamp detail).tanexReset = s.tanexReset := by rw [State.raiseAt_eq]
@[simp] theorem State.raiseAt_thermTrip (s : State) (sev unit status : Nat) (stamp : Stamp) (detail : List Byte) : (s.raiseAt sev unit status stamp detail).thermTrip = s.thermTrip := by rw [State.raiseAt_eq]
@[simp] theorem State.raiseAt_prgSens (s : State) (sev unit status : Nat) (stamp : Stamp) (detail : List Byte) : (s.raiseAt sev unit status stamp detail).prgSens = s.prgSens := by rw [State.raiseAt_eq]
@[simp] theorem State.raiseAt_boot (s : State) (sev unit status : Nat) (stamp : Stamp) (detail : List Byte) : (s.raiseAt sev unit status stamp detail).boot = s.boot := by rw [State.raiseAt_eq]
@[simp] theorem State.raiseAt_flips (s : State) (sev unit status : Nat) (stamp : Stamp) (detail : List Byte) : (s.raiseAt sev unit status stamp detail).flips = s.flips := by rw [State.raiseAt_eq]
@[simp] theorem State.raiseAt_peatDirty (s : State) (sev unit status : Nat) (stamp : Stamp) (detail : List Byte) : (s.raiseAt sev unit status stamp detail).peatDirty = s.peatDirty := by rw [State.raiseAt_eq]
@[simp] theorem State.raiseAt_dramDirty (s : State) (sev unit status : Nat) (stamp : Stamp) (detail : List Byte) : (s.raiseAt sev unit status stamp detail).dramDirty = s.dramDirty := by rw [State.raiseAt_eq]
@[simp] theorem State.raiseAt_scrubPos (s : State) (sev unit status : Nat) (stamp : Stamp) (detail : List Byte) : (s.raiseAt sev unit status stamp detail).scrubPos = s.scrubPos := by rw [State.raiseAt_eq]
@[simp] theorem State.raiseAt_scrubPass (s : State) (sev unit status : Nat) (stamp : Stamp) (detail : List Byte) : (s.raiseAt sev unit status stamp detail).scrubPass = s.scrubPass := by rw [State.raiseAt_eq]
@[simp] theorem State.raiseAt_scrubStart (s : State) (sev unit status : Nat) (stamp : Stamp) (detail : List Byte) : (s.raiseAt sev unit status stamp detail).scrubStart = s.scrubStart := by rw [State.raiseAt_eq]
@[simp] theorem State.raiseAt_scrubFrom (s : State) (sev unit status : Nat) (stamp : Stamp) (detail : List Byte) : (s.raiseAt sev unit status stamp detail).scrubFrom = s.scrubFrom := by rw [State.raiseAt_eq]
@[simp] theorem State.raiseAt_rowsHit (s : State) (sev unit status : Nat) (stamp : Stamp) (detail : List Byte) : (s.raiseAt sev unit status stamp detail).rowsHit = s.rowsHit := by rw [State.raiseAt_eq]
@[simp] theorem State.raiseAt_bankCe (s : State) (sev unit status : Nat) (stamp : Stamp) (detail : List Byte) : (s.raiseAt sev unit status stamp detail).bankCe = s.bankCe := by rw [State.raiseAt_eq]
@[simp] theorem State.raiseAt_rowTests (s : State) (sev unit status : Nat) (stamp : Stamp) (detail : List Byte) : (s.raiseAt sev unit status stamp detail).rowTests = s.rowTests := by rw [State.raiseAt_eq]
@[simp] theorem State.raiseAt_pprDone (s : State) (sev unit status : Nat) (stamp : Stamp) (detail : List Byte) : (s.raiseAt sev unit status stamp detail).pprDone = s.pprDone := by rw [State.raiseAt_eq]
@[simp] theorem State.raiseAt_flash (s : State) (sev unit status : Nat) (stamp : Stamp) (detail : List Byte) : (s.raiseAt sev unit status stamp detail).flash = s.flash := by rw [State.raiseAt_eq]
@[simp] theorem State.raiseAt_tiles (s : State) (sev unit status : Nat) (stamp : Stamp) (detail : List Byte) : (s.raiseAt sev unit status stamp detail).tiles = s.tiles := by rw [State.raiseAt_eq]
@[simp] theorem State.raiseAt_queues (s : State) (sev unit status : Nat) (stamp : Stamp) (detail : List Byte) : (s.raiseAt sev unit status stamp detail).queues = s.queues := by rw [State.raiseAt_eq]
@[simp] theorem State.raiseAt_clusters (s : State) (sev unit status : Nat) (stamp : Stamp) (detail : List Byte) : (s.raiseAt sev unit status stamp detail).clusters = s.clusters := by rw [State.raiseAt_eq]
@[simp] theorem State.raiseAt_cluUnits (s : State) (sev unit status : Nat) (stamp : Stamp) (detail : List Byte) : (s.raiseAt sev unit status stamp detail).cluUnits = s.cluUnits := by rw [State.raiseAt_eq]
@[simp] theorem State.raiseAt_regions (s : State) (sev unit status : Nat) (stamp : Stamp) (detail : List Byte) : (s.raiseAt sev unit status stamp detail).regions = s.regions := by rw [State.raiseAt_eq]
@[simp] theorem State.raiseAt_rgnUnits (s : State) (sev unit status : Nat) (stamp : Stamp) (detail : List Byte) : (s.raiseAt sev unit status stamp detail).rgnUnits = s.rgnUnits := by rw [State.raiseAt_eq]
@[simp] theorem State.raiseAt_repair (s : State) (sev unit status : Nat) (stamp : Stamp) (detail : List Byte) : (s.raiseAt sev unit status stamp detail).repair = s.repair := by rw [State.raiseAt_eq]
@[simp] theorem State.raiseAt_slots (s : State) (sev unit status : Nat) (stamp : Stamp) (detail : List Byte) : (s.raiseAt sev unit status stamp detail).slots = s.slots := by rw [State.raiseAt_eq]
@[simp] theorem State.raiseAt_chans (s : State) (sev unit status : Nat) (stamp : Stamp) (detail : List Byte) : (s.raiseAt sev unit status stamp detail).chans = s.chans := by rw [State.raiseAt_eq]
@[simp] theorem State.raiseAt_dies (s : State) (sev unit status : Nat) (stamp : Stamp) (detail : List Byte) : (s.raiseAt sev unit status stamp detail).dies = s.dies := by rw [State.raiseAt_eq]
@[simp] theorem State.raiseAt_cams (s : State) (sev unit status : Nat) (stamp : Stamp) (detail : List Byte) : (s.raiseAt sev unit status stamp detail).cams = s.cams := by rw [State.raiseAt_eq]
@[simp] theorem State.raiseAt_pipes (s : State) (sev unit status : Nat) (stamp : Stamp) (detail : List Byte) : (s.raiseAt sev unit status stamp detail).pipes = s.pipes := by rw [State.raiseAt_eq]
@[simp] theorem State.raiseAt_fctx (s : State) (sev unit status : Nat) (stamp : Stamp) (detail : List Byte) : (s.raiseAt sev unit status stamp detail).fctx = s.fctx := by rw [State.raiseAt_eq]
@[simp] theorem State.raiseAt_range (s : State) (sev unit status : Nat) (stamp : Stamp) (detail : List Byte) : (s.raiseAt sev unit status stamp detail).range = s.range := by rw [State.raiseAt_eq]
@[simp] theorem State.raiseAt_hp (s : State) (sev unit status : Nat) (stamp : Stamp) (detail : List Byte) : (s.raiseAt sev unit status stamp detail).hp = s.hp := by rw [State.raiseAt_eq]
@[simp] theorem State.raiseAt_tb (s : State) (sev unit status : Nat) (stamp : Stamp) (detail : List Byte) : (s.raiseAt sev unit status stamp detail).tb = s.tb := by rw [State.raiseAt_eq]
@[simp] theorem State.raiseAt_ctx (s : State) (sev unit status : Nat) (stamp : Stamp) (detail : List Byte) : (s.raiseAt sev unit status stamp detail).ctx = s.ctx := by rw [State.raiseAt_eq]
@[simp] theorem State.raiseAt_upd (s : State) (sev unit status : Nat) (stamp : Stamp) (detail : List Byte) : (s.raiseAt sev unit status stamp detail).upd = s.upd := by rw [State.raiseAt_eq]
@[simp] theorem State.raiseAt_sec (s : State) (sev unit status : Nat) (stamp : Stamp) (detail : List Byte) : (s.raiseAt sev unit status stamp detail).sec = s.sec := by rw [State.raiseAt_eq]
@[simp] theorem State.raiseAt_lat (s : State) (sev unit status : Nat) (stamp : Stamp) (detail : List Byte) : (s.raiseAt sev unit status stamp detail).lat = s.lat := by rw [State.raiseAt_eq]
@[simp] theorem State.raiseAt_cvu (s : State) (sev unit status : Nat) (stamp : Stamp) (detail : List Byte) : (s.raiseAt sev unit status stamp detail).cvu = s.cvu := by rw [State.raiseAt_eq]
@[simp] theorem State.raiseAt_image (s : State) (sev unit status : Nat) (stamp : Stamp) (detail : List Byte) : (s.raiseAt sev unit status stamp detail).image = s.image := by rw [State.raiseAt_eq]
@[simp] theorem State.raiseAt_suspects (s : State) (sev unit status : Nat) (stamp : Stamp) (detail : List Byte) : (s.raiseAt sev unit status stamp detail).suspects = s.suspects := by rw [State.raiseAt_eq]
@[simp] theorem State.raiseAt_starts (s : State) (sev unit status : Nat) (stamp : Stamp) (detail : List Byte) : (s.raiseAt sev unit status stamp detail).starts = s.starts := by rw [State.raiseAt_eq]
@[simp] theorem State.raiseAt_draws (s : State) (sev unit status : Nat) (stamp : Stamp) (detail : List Byte) : (s.raiseAt sev unit status stamp detail).draws = s.draws := by rw [State.raiseAt_eq]
@[simp] theorem State.raiseAt_tile (s : State) (sev unit status : Nat) (stamp : Stamp) (detail : List Byte) (y : Nat) : (s.raiseAt sev unit status stamp detail).tile y = s.tile y := by rw [State.raiseAt_eq]; (exact (rfl))
@[simp] theorem State.raiseAt_queue (s : State) (sev unit status : Nat) (stamp : Stamp) (detail : List Byte) (y : Nat) : (s.raiseAt sev unit status stamp detail).queue y = s.queue y := by rw [State.raiseAt_eq]; (exact (rfl))
@[simp] theorem State.raiseAt_cluster (s : State) (sev unit status : Nat) (stamp : Stamp) (detail : List Byte) (y : Nat) : (s.raiseAt sev unit status stamp detail).cluster y = s.cluster y := by rw [State.raiseAt_eq]; (exact (rfl))
@[simp] theorem State.raiseAt_cluUnit (s : State) (sev unit status : Nat) (stamp : Stamp) (detail : List Byte) (y : Nat) : (s.raiseAt sev unit status stamp detail).cluUnit y = s.cluUnit y := by rw [State.raiseAt_eq]; (exact (rfl))
@[simp] theorem State.raiseAt_region (s : State) (sev unit status : Nat) (stamp : Stamp) (detail : List Byte) (y : Nat) : (s.raiseAt sev unit status stamp detail).region y = s.region y := by rw [State.raiseAt_eq]; (exact (rfl))
@[simp] theorem State.raiseAt_rgnUnit (s : State) (sev unit status : Nat) (stamp : Stamp) (detail : List Byte) (y : Nat) : (s.raiseAt sev unit status stamp detail).rgnUnit y = s.rgnUnit y := by rw [State.raiseAt_eq]; (exact (rfl))
@[simp] theorem State.raiseAt_slot (s : State) (sev unit status : Nat) (stamp : Stamp) (detail : List Byte) (y : Nat) : (s.raiseAt sev unit status stamp detail).slot y = s.slot y := by rw [State.raiseAt_eq]; (exact (rfl))
@[simp] theorem State.raiseAt_chan (s : State) (sev unit status : Nat) (stamp : Stamp) (detail : List Byte) (y : Nat) : (s.raiseAt sev unit status stamp detail).chan y = s.chan y := by rw [State.raiseAt_eq]; (exact (rfl))
@[simp] theorem State.raiseAt_die (s : State) (sev unit status : Nat) (stamp : Stamp) (detail : List Byte) (y : Nat) : (s.raiseAt sev unit status stamp detail).die y = s.die y := by rw [State.raiseAt_eq]; (exact (rfl))
@[simp] theorem State.raiseAt_cam (s : State) (sev unit status : Nat) (stamp : Stamp) (detail : List Byte) (y : Nat) : (s.raiseAt sev unit status stamp detail).cam y = s.cam y := by rw [State.raiseAt_eq]; (exact (rfl))
@[simp] theorem State.raiseAt_pipe (s : State) (sev unit status : Nat) (stamp : Stamp) (detail : List Byte) (y : Nat) : (s.raiseAt sev unit status stamp detail).pipe y = s.pipe y := by rw [State.raiseAt_eq]; (exact (rfl))
@[simp] theorem State.raiseAt_facet (s : State) (sev unit status : Nat) (stamp : Stamp) (detail : List Byte) (y : Nat) : (s.raiseAt sev unit status stamp detail).facet y = s.facet y := by rw [State.raiseAt_eq]; (exact (rfl))
@[simp] theorem State.raiseAt_mac (s : State) (sev unit status : Nat) (stamp : Stamp) (detail : List Byte) (y : Nat) : (s.raiseAt sev unit status stamp detail).mac y = s.mac y := by rw [State.raiseAt_eq]; (exact (rfl))
@[simp] theorem State.raiseAt_hpath (s : State) (sev unit status : Nat) (stamp : Stamp) (detail : List Byte) (y : Nat) : (s.raiseAt sev unit status stamp detail).hpath y = s.hpath y := by rw [State.raiseAt_eq]; (exact (rfl))
@[simp] theorem State.raiseAt_img (s : State) (sev unit status : Nat) (stamp : Stamp) (detail : List Byte) : (s.raiseAt sev unit status stamp detail).img = s.img := by rw [State.raiseAt_eq]; (exact (rfl))
@[simp] theorem State.raiseAt_mode (s : State) (sev unit status : Nat) (stamp : Stamp) (detail : List Byte) : (s.raiseAt sev unit status stamp detail).mode = s.mode := by rw [State.raiseAt_eq]; (exact (rfl))
@[simp] theorem State.raiseAt_isBench (s : State) (sev unit status : Nat) (stamp : Stamp) (detail : List Byte) : (s.raiseAt sev unit status stamp detail).isBench = s.isBench := by rw [State.raiseAt_eq]; (exact (rfl))
@[simp] theorem State.raiseAt_compares (s : State) (sev unit status : Nat) (stamp : Stamp) (detail : List Byte) : (s.raiseAt sev unit status stamp detail).compares = s.compares := by rw [State.raiseAt_eq]; (exact (rfl))
@[simp] theorem State.raiseAt_isReplay (s : State) (sev unit status : Nat) (stamp : Stamp) (detail : List Byte) : (s.raiseAt sev unit status stamp detail).isReplay = s.isReplay := by rw [State.raiseAt_eq]; (exact (rfl))
@[simp] theorem State.raiseAt_alloc (s : State) (sev unit status : Nat) (stamp : Stamp) (detail : List Byte) (y : Nat) : (s.raiseAt sev unit status stamp detail).alloc y = s.alloc y := by rw [State.raiseAt_eq]; (exact (rfl))
@[simp] theorem State.raiseAt_role (s : State) (sev unit status : Nat) (stamp : Stamp) (detail : List Byte) (y : Nat) : (s.raiseAt sev unit status stamp detail).role y = s.role y := by rw [State.raiseAt_eq]; (exact (rfl))
@[simp] theorem State.raiseAt_schedule (s : State) (sev unit status : Nat) (stamp : Stamp) (detail : List Byte) : (s.raiseAt sev unit status stamp detail).schedule = s.schedule := by rw [State.raiseAt_eq, State.raiseAt_beat]; split <;> (exact (rfl))
@[simp] theorem State.raiseAt_commitTile (s : State) (sev unit status : Nat) (stamp : Stamp) (detail : List Byte) : (s.raiseAt sev unit status stamp detail).commitTile = s.commitTile := by rw [State.raiseAt_eq, State.raiseAt_beat]; split <;> (exact (rfl))
@[simp] theorem State.raiseAt_now (s : State) (sev unit status : Nat) (stamp : Stamp) (detail : List Byte) : (s.raiseAt sev unit status stamp detail).now = s.now := by rw [State.raiseAt_eq]; (exact (rfl))
@[simp] theorem State.raiseAt_mono (s : State) (sev unit status : Nat) (stamp : Stamp) (detail : List Byte) : (s.raiseAt sev unit status stamp detail).mono = s.mono := by rw [State.raiseAt_eq]; (exact (rfl))
@[simp] theorem State.raiseAt_stampAt (s : State) (sev unit status : Nat) (stamp : Stamp) (detail : List Byte) (x : Instant) : (s.raiseAt sev unit status stamp detail).stampAt x = s.stampAt x := by rw [State.raiseAt_eq]; (exact (rfl))
@[simp] theorem State.raiseAt_stamp (s : State) (sev unit status : Nat) (stamp : Stamp) (detail : List Byte) : (s.raiseAt sev unit status stamp detail).stamp = s.stamp := by rw [State.raiseAt_eq]; (exact (rfl))
@[simp] theorem State.raiseAt_dieNow (s : State) (sev unit status : Nat) (stamp : Stamp) (detail : List Byte) (y : Nat) : (s.raiseAt sev unit status stamp detail).dieNow y = s.dieNow y := by rw [State.raiseAt_eq]; (exact (rfl))
@[simp] theorem State.raiseAt_dieStamp (s : State) (sev unit status : Nat) (stamp : Stamp) (detail : List Byte) (y : Nat) : (s.raiseAt sev unit status stamp detail).dieStamp y = s.dieStamp y := by rw [State.raiseAt_eq]; (exact (rfl))
@[simp] theorem State.raiseAt_frameNs (s : State) (sev unit status : Nat) (stamp : Stamp) (detail : List Byte) : (s.raiseAt sev unit status stamp detail).frameNs = s.frameNs := by rw [State.raiseAt_eq]; (exact (rfl))
@[simp] theorem State.raiseAt_beatNs (s : State) (sev unit status : Nat) (stamp : Stamp) (detail : List Byte) : (s.raiseAt sev unit status stamp detail).beatNs = s.beatNs := by rw [State.raiseAt_eq]; (exact (rfl))
@[simp] theorem State.raiseAt_started (s : State) (sev unit status : Nat) (stamp : Stamp) (detail : List Byte) : (s.raiseAt sev unit status stamp detail).started = s.started := by rw [State.raiseAt_eq]; (exact (rfl))
@[simp] theorem State.raiseAt_t0 (s : State) (sev unit status : Nat) (stamp : Stamp) (detail : List Byte) : (s.raiseAt sev unit status stamp detail).t0 = s.t0 := by rw [State.raiseAt_eq]; (exact (rfl))
@[simp] theorem State.raiseAt_firstBeat (s : State) (sev unit status : Nat) (stamp : Stamp) (detail : List Byte) (y : Nat) : (s.raiseAt sev unit status stamp detail).firstBeat y = s.firstBeat y := by rw [State.raiseAt_eq]; (exact (rfl))
@[simp] theorem State.raiseAt_frameOfBeat (s : State) (sev unit status : Nat) (stamp : Stamp) (detail : List Byte) (y : Nat) : (s.raiseAt sev unit status stamp detail).frameOfBeat y = s.frameOfBeat y := by rw [State.raiseAt_eq]; (exact (rfl))
@[simp] theorem State.raiseAt_beatStart (s : State) (sev unit status : Nat) (stamp : Stamp) (detail : List Byte) (y : Nat) : (s.raiseAt sev unit status stamp detail).beatStart y = s.beatStart y := by rw [State.raiseAt_eq]; (exact (rfl))
@[simp] theorem State.raiseAt_frameStart (s : State) (sev unit status : Nat) (stamp : Stamp) (detail : List Byte) (y : Nat) : (s.raiseAt sev unit status stamp detail).frameStart y = s.frameStart y := by rw [State.raiseAt_eq]; (exact (rfl))
@[simp] theorem State.raiseAt_isBoundary (s : State) (sev unit status : Nat) (stamp : Stamp) (detail : List Byte) (y : Nat) : (s.raiseAt sev unit status stamp detail).isBoundary y = s.isBoundary y := by rw [State.raiseAt_eq]; (exact (rfl))
@[simp] theorem State.raiseAt_frameAt (s : State) (sev unit status : Nat) (stamp : Stamp) (detail : List Byte) (x : Instant) : (s.raiseAt sev unit status stamp detail).frameAt x = s.frameAt x := by rw [State.raiseAt_eq]; (exact (rfl))
@[simp] theorem State.raiseAt_txnDue (s : State) (sev unit status : Nat) (stamp : Stamp) (detail : List Byte) : (s.raiseAt sev unit status stamp detail).txnDue = s.txnDue := by rw [State.raiseAt_eq]; (exact (rfl))
@[simp] theorem State.raiseAt_chip (s : State) (sev unit status : Nat) (stamp : Stamp) (detail : List Byte) : (s.raiseAt sev unit status stamp detail).chip = s.chip := by rw [State.raiseAt_eq]; (exact (rfl))
@[simp] theorem State.raiseAt_port (s : State) (sev unit status : Nat) (stamp : Stamp) (detail : List Byte) (y : Nat) : (s.raiseAt sev unit status stamp detail).port y = s.port y := by rw [State.raiseAt_eq]; (exact (rfl))

/-! ### raise -/

@[simp] theorem State.raise_pending (s : State) (sev unit status : Nat) : (s.raise sev unit status).pending = s.pending := by rw [State.raise_eq]
@[simp] theorem State.raise_part (s : State) (sev unit status : Nat) : (s.raise sev unit status).part = s.part := by rw [State.raise_eq]
@[simp] theorem State.raise_stepping (s : State) (sev unit status : Nat) : (s.raise sev unit status).stepping = s.stepping := by rw [State.raise_eq]
@[simp] theorem State.raise_fitted (s : State) (sev unit status : Nat) : (s.raise sev unit status).fitted = s.fitted := by rw [State.raise_eq]
@[simp] theorem State.raise_dramRate (s : State) (sev unit status : Nat) : (s.raise sev unit status).dramRate = s.dramRate := by rw [State.raise_eq]
@[simp] theorem State.raise_bistOk (s : State) (sev unit status : Nat) : (s.raise sev unit status).bistOk = s.bistOk := by rw [State.raise_eq]
@[simp] theorem State.raise_tanexReset (s : State) (sev unit status : Nat) : (s.raise sev unit status).tanexReset = s.tanexReset := by rw [State.raise_eq]
@[simp] theorem State.raise_thermTrip (s : State) (sev unit status : Nat) : (s.raise sev unit status).thermTrip = s.thermTrip := by rw [State.raise_eq]
@[simp] theorem State.raise_prgSens (s : State) (sev unit status : Nat) : (s.raise sev unit status).prgSens = s.prgSens := by rw [State.raise_eq]
@[simp] theorem State.raise_boot (s : State) (sev unit status : Nat) : (s.raise sev unit status).boot = s.boot := by rw [State.raise_eq]
@[simp] theorem State.raise_flips (s : State) (sev unit status : Nat) : (s.raise sev unit status).flips = s.flips := by rw [State.raise_eq]
@[simp] theorem State.raise_peatDirty (s : State) (sev unit status : Nat) : (s.raise sev unit status).peatDirty = s.peatDirty := by rw [State.raise_eq]
@[simp] theorem State.raise_dramDirty (s : State) (sev unit status : Nat) : (s.raise sev unit status).dramDirty = s.dramDirty := by rw [State.raise_eq]
@[simp] theorem State.raise_scrubPos (s : State) (sev unit status : Nat) : (s.raise sev unit status).scrubPos = s.scrubPos := by rw [State.raise_eq]
@[simp] theorem State.raise_scrubPass (s : State) (sev unit status : Nat) : (s.raise sev unit status).scrubPass = s.scrubPass := by rw [State.raise_eq]
@[simp] theorem State.raise_scrubStart (s : State) (sev unit status : Nat) : (s.raise sev unit status).scrubStart = s.scrubStart := by rw [State.raise_eq]
@[simp] theorem State.raise_scrubFrom (s : State) (sev unit status : Nat) : (s.raise sev unit status).scrubFrom = s.scrubFrom := by rw [State.raise_eq]
@[simp] theorem State.raise_rowsHit (s : State) (sev unit status : Nat) : (s.raise sev unit status).rowsHit = s.rowsHit := by rw [State.raise_eq]
@[simp] theorem State.raise_bankCe (s : State) (sev unit status : Nat) : (s.raise sev unit status).bankCe = s.bankCe := by rw [State.raise_eq]
@[simp] theorem State.raise_rowTests (s : State) (sev unit status : Nat) : (s.raise sev unit status).rowTests = s.rowTests := by rw [State.raise_eq]
@[simp] theorem State.raise_pprDone (s : State) (sev unit status : Nat) : (s.raise sev unit status).pprDone = s.pprDone := by rw [State.raise_eq]
@[simp] theorem State.raise_flash (s : State) (sev unit status : Nat) : (s.raise sev unit status).flash = s.flash := by rw [State.raise_eq]
@[simp] theorem State.raise_tiles (s : State) (sev unit status : Nat) : (s.raise sev unit status).tiles = s.tiles := by rw [State.raise_eq]
@[simp] theorem State.raise_queues (s : State) (sev unit status : Nat) : (s.raise sev unit status).queues = s.queues := by rw [State.raise_eq]
@[simp] theorem State.raise_clusters (s : State) (sev unit status : Nat) : (s.raise sev unit status).clusters = s.clusters := by rw [State.raise_eq]
@[simp] theorem State.raise_cluUnits (s : State) (sev unit status : Nat) : (s.raise sev unit status).cluUnits = s.cluUnits := by rw [State.raise_eq]
@[simp] theorem State.raise_regions (s : State) (sev unit status : Nat) : (s.raise sev unit status).regions = s.regions := by rw [State.raise_eq]
@[simp] theorem State.raise_rgnUnits (s : State) (sev unit status : Nat) : (s.raise sev unit status).rgnUnits = s.rgnUnits := by rw [State.raise_eq]
@[simp] theorem State.raise_repair (s : State) (sev unit status : Nat) : (s.raise sev unit status).repair = s.repair := by rw [State.raise_eq]
@[simp] theorem State.raise_slots (s : State) (sev unit status : Nat) : (s.raise sev unit status).slots = s.slots := by rw [State.raise_eq]
@[simp] theorem State.raise_chans (s : State) (sev unit status : Nat) : (s.raise sev unit status).chans = s.chans := by rw [State.raise_eq]
@[simp] theorem State.raise_dies (s : State) (sev unit status : Nat) : (s.raise sev unit status).dies = s.dies := by rw [State.raise_eq]
@[simp] theorem State.raise_cams (s : State) (sev unit status : Nat) : (s.raise sev unit status).cams = s.cams := by rw [State.raise_eq]
@[simp] theorem State.raise_pipes (s : State) (sev unit status : Nat) : (s.raise sev unit status).pipes = s.pipes := by rw [State.raise_eq]
@[simp] theorem State.raise_fctx (s : State) (sev unit status : Nat) : (s.raise sev unit status).fctx = s.fctx := by rw [State.raise_eq]
@[simp] theorem State.raise_range (s : State) (sev unit status : Nat) : (s.raise sev unit status).range = s.range := by rw [State.raise_eq]
@[simp] theorem State.raise_hp (s : State) (sev unit status : Nat) : (s.raise sev unit status).hp = s.hp := by rw [State.raise_eq]
@[simp] theorem State.raise_tb (s : State) (sev unit status : Nat) : (s.raise sev unit status).tb = s.tb := by rw [State.raise_eq]
@[simp] theorem State.raise_ctx (s : State) (sev unit status : Nat) : (s.raise sev unit status).ctx = s.ctx := by rw [State.raise_eq]
@[simp] theorem State.raise_upd (s : State) (sev unit status : Nat) : (s.raise sev unit status).upd = s.upd := by rw [State.raise_eq]
@[simp] theorem State.raise_sec (s : State) (sev unit status : Nat) : (s.raise sev unit status).sec = s.sec := by rw [State.raise_eq]
@[simp] theorem State.raise_lat (s : State) (sev unit status : Nat) : (s.raise sev unit status).lat = s.lat := by rw [State.raise_eq]
@[simp] theorem State.raise_cvu (s : State) (sev unit status : Nat) : (s.raise sev unit status).cvu = s.cvu := by rw [State.raise_eq]
@[simp] theorem State.raise_image (s : State) (sev unit status : Nat) : (s.raise sev unit status).image = s.image := by rw [State.raise_eq]
@[simp] theorem State.raise_suspects (s : State) (sev unit status : Nat) : (s.raise sev unit status).suspects = s.suspects := by rw [State.raise_eq]
@[simp] theorem State.raise_starts (s : State) (sev unit status : Nat) : (s.raise sev unit status).starts = s.starts := by rw [State.raise_eq]
@[simp] theorem State.raise_draws (s : State) (sev unit status : Nat) : (s.raise sev unit status).draws = s.draws := by rw [State.raise_eq]
@[simp] theorem State.raise_tile (s : State) (sev unit status : Nat) (y : Nat) : (s.raise sev unit status).tile y = s.tile y := by rw [State.raise_eq]; (exact (rfl))
@[simp] theorem State.raise_queue (s : State) (sev unit status : Nat) (y : Nat) : (s.raise sev unit status).queue y = s.queue y := by rw [State.raise_eq]; (exact (rfl))
@[simp] theorem State.raise_cluster (s : State) (sev unit status : Nat) (y : Nat) : (s.raise sev unit status).cluster y = s.cluster y := by rw [State.raise_eq]; (exact (rfl))
@[simp] theorem State.raise_cluUnit (s : State) (sev unit status : Nat) (y : Nat) : (s.raise sev unit status).cluUnit y = s.cluUnit y := by rw [State.raise_eq]; (exact (rfl))
@[simp] theorem State.raise_region (s : State) (sev unit status : Nat) (y : Nat) : (s.raise sev unit status).region y = s.region y := by rw [State.raise_eq]; (exact (rfl))
@[simp] theorem State.raise_rgnUnit (s : State) (sev unit status : Nat) (y : Nat) : (s.raise sev unit status).rgnUnit y = s.rgnUnit y := by rw [State.raise_eq]; (exact (rfl))
@[simp] theorem State.raise_slot (s : State) (sev unit status : Nat) (y : Nat) : (s.raise sev unit status).slot y = s.slot y := by rw [State.raise_eq]; (exact (rfl))
@[simp] theorem State.raise_chan (s : State) (sev unit status : Nat) (y : Nat) : (s.raise sev unit status).chan y = s.chan y := by rw [State.raise_eq]; (exact (rfl))
@[simp] theorem State.raise_die (s : State) (sev unit status : Nat) (y : Nat) : (s.raise sev unit status).die y = s.die y := by rw [State.raise_eq]; (exact (rfl))
@[simp] theorem State.raise_cam (s : State) (sev unit status : Nat) (y : Nat) : (s.raise sev unit status).cam y = s.cam y := by rw [State.raise_eq]; (exact (rfl))
@[simp] theorem State.raise_pipe (s : State) (sev unit status : Nat) (y : Nat) : (s.raise sev unit status).pipe y = s.pipe y := by rw [State.raise_eq]; (exact (rfl))
@[simp] theorem State.raise_facet (s : State) (sev unit status : Nat) (y : Nat) : (s.raise sev unit status).facet y = s.facet y := by rw [State.raise_eq]; (exact (rfl))
@[simp] theorem State.raise_mac (s : State) (sev unit status : Nat) (y : Nat) : (s.raise sev unit status).mac y = s.mac y := by rw [State.raise_eq]; (exact (rfl))
@[simp] theorem State.raise_hpath (s : State) (sev unit status : Nat) (y : Nat) : (s.raise sev unit status).hpath y = s.hpath y := by rw [State.raise_eq]; (exact (rfl))
@[simp] theorem State.raise_img (s : State) (sev unit status : Nat) : (s.raise sev unit status).img = s.img := by rw [State.raise_eq]; (exact (rfl))
@[simp] theorem State.raise_mode (s : State) (sev unit status : Nat) : (s.raise sev unit status).mode = s.mode := by rw [State.raise_eq]; (exact (rfl))
@[simp] theorem State.raise_isBench (s : State) (sev unit status : Nat) : (s.raise sev unit status).isBench = s.isBench := by rw [State.raise_eq]; (exact (rfl))
@[simp] theorem State.raise_compares (s : State) (sev unit status : Nat) : (s.raise sev unit status).compares = s.compares := by rw [State.raise_eq]; (exact (rfl))
@[simp] theorem State.raise_isReplay (s : State) (sev unit status : Nat) : (s.raise sev unit status).isReplay = s.isReplay := by rw [State.raise_eq]; (exact (rfl))
@[simp] theorem State.raise_alloc (s : State) (sev unit status : Nat) (y : Nat) : (s.raise sev unit status).alloc y = s.alloc y := by rw [State.raise_eq]; (exact (rfl))
@[simp] theorem State.raise_role (s : State) (sev unit status : Nat) (y : Nat) : (s.raise sev unit status).role y = s.role y := by rw [State.raise_eq]; (exact (rfl))
@[simp] theorem State.raise_schedule (s : State) (sev unit status : Nat) : (s.raise sev unit status).schedule = s.schedule := by rw [State.raise_eq, State.raise_beat]; split <;> (exact (rfl))
@[simp] theorem State.raise_commitTile (s : State) (sev unit status : Nat) : (s.raise sev unit status).commitTile = s.commitTile := by rw [State.raise_eq, State.raise_beat]; split <;> (exact (rfl))
@[simp] theorem State.raise_now (s : State) (sev unit status : Nat) : (s.raise sev unit status).now = s.now := by rw [State.raise_eq]; (exact (rfl))
@[simp] theorem State.raise_mono (s : State) (sev unit status : Nat) : (s.raise sev unit status).mono = s.mono := by rw [State.raise_eq]; (exact (rfl))
@[simp] theorem State.raise_stampAt (s : State) (sev unit status : Nat) (x : Instant) : (s.raise sev unit status).stampAt x = s.stampAt x := by rw [State.raise_eq]; (exact (rfl))
@[simp] theorem State.raise_stamp (s : State) (sev unit status : Nat) : (s.raise sev unit status).stamp = s.stamp := by rw [State.raise_eq]; (exact (rfl))
@[simp] theorem State.raise_dieNow (s : State) (sev unit status : Nat) (y : Nat) : (s.raise sev unit status).dieNow y = s.dieNow y := by rw [State.raise_eq]; (exact (rfl))
@[simp] theorem State.raise_dieStamp (s : State) (sev unit status : Nat) (y : Nat) : (s.raise sev unit status).dieStamp y = s.dieStamp y := by rw [State.raise_eq]; (exact (rfl))
@[simp] theorem State.raise_frameNs (s : State) (sev unit status : Nat) : (s.raise sev unit status).frameNs = s.frameNs := by rw [State.raise_eq]; (exact (rfl))
@[simp] theorem State.raise_beatNs (s : State) (sev unit status : Nat) : (s.raise sev unit status).beatNs = s.beatNs := by rw [State.raise_eq]; (exact (rfl))
@[simp] theorem State.raise_started (s : State) (sev unit status : Nat) : (s.raise sev unit status).started = s.started := by rw [State.raise_eq]; (exact (rfl))
@[simp] theorem State.raise_t0 (s : State) (sev unit status : Nat) : (s.raise sev unit status).t0 = s.t0 := by rw [State.raise_eq]; (exact (rfl))
@[simp] theorem State.raise_firstBeat (s : State) (sev unit status : Nat) (y : Nat) : (s.raise sev unit status).firstBeat y = s.firstBeat y := by rw [State.raise_eq]; (exact (rfl))
@[simp] theorem State.raise_frameOfBeat (s : State) (sev unit status : Nat) (y : Nat) : (s.raise sev unit status).frameOfBeat y = s.frameOfBeat y := by rw [State.raise_eq]; (exact (rfl))
@[simp] theorem State.raise_beatStart (s : State) (sev unit status : Nat) (y : Nat) : (s.raise sev unit status).beatStart y = s.beatStart y := by rw [State.raise_eq]; (exact (rfl))
@[simp] theorem State.raise_frameStart (s : State) (sev unit status : Nat) (y : Nat) : (s.raise sev unit status).frameStart y = s.frameStart y := by rw [State.raise_eq]; (exact (rfl))
@[simp] theorem State.raise_isBoundary (s : State) (sev unit status : Nat) (y : Nat) : (s.raise sev unit status).isBoundary y = s.isBoundary y := by rw [State.raise_eq]; (exact (rfl))
@[simp] theorem State.raise_frameAt (s : State) (sev unit status : Nat) (x : Instant) : (s.raise sev unit status).frameAt x = s.frameAt x := by rw [State.raise_eq]; (exact (rfl))
@[simp] theorem State.raise_txnDue (s : State) (sev unit status : Nat) : (s.raise sev unit status).txnDue = s.txnDue := by rw [State.raise_eq]; (exact (rfl))
@[simp] theorem State.raise_chip (s : State) (sev unit status : Nat) : (s.raise sev unit status).chip = s.chip := by rw [State.raise_eq]; (exact (rfl))
@[simp] theorem State.raise_port (s : State) (sev unit status : Nat) (y : Nat) : (s.raise sev unit status).port y = s.port y := by rw [State.raise_eq]; (exact (rfl))

/-! ### raiseDie -/

@[simp] theorem State.raiseDie_pending (s : State) (d sev unit status : Nat) : (s.raiseDie d sev unit status).pending = s.pending := by rw [State.raiseDie_eq]
@[simp] theorem State.raiseDie_part (s : State) (d sev unit status : Nat) : (s.raiseDie d sev unit status).part = s.part := by rw [State.raiseDie_eq]
@[simp] theorem State.raiseDie_stepping (s : State) (d sev unit status : Nat) : (s.raiseDie d sev unit status).stepping = s.stepping := by rw [State.raiseDie_eq]
@[simp] theorem State.raiseDie_fitted (s : State) (d sev unit status : Nat) : (s.raiseDie d sev unit status).fitted = s.fitted := by rw [State.raiseDie_eq]
@[simp] theorem State.raiseDie_dramRate (s : State) (d sev unit status : Nat) : (s.raiseDie d sev unit status).dramRate = s.dramRate := by rw [State.raiseDie_eq]
@[simp] theorem State.raiseDie_bistOk (s : State) (d sev unit status : Nat) : (s.raiseDie d sev unit status).bistOk = s.bistOk := by rw [State.raiseDie_eq]
@[simp] theorem State.raiseDie_tanexReset (s : State) (d sev unit status : Nat) : (s.raiseDie d sev unit status).tanexReset = s.tanexReset := by rw [State.raiseDie_eq]
@[simp] theorem State.raiseDie_thermTrip (s : State) (d sev unit status : Nat) : (s.raiseDie d sev unit status).thermTrip = s.thermTrip := by rw [State.raiseDie_eq]
@[simp] theorem State.raiseDie_prgSens (s : State) (d sev unit status : Nat) : (s.raiseDie d sev unit status).prgSens = s.prgSens := by rw [State.raiseDie_eq]
@[simp] theorem State.raiseDie_boot (s : State) (d sev unit status : Nat) : (s.raiseDie d sev unit status).boot = s.boot := by rw [State.raiseDie_eq]
@[simp] theorem State.raiseDie_flips (s : State) (d sev unit status : Nat) : (s.raiseDie d sev unit status).flips = s.flips := by rw [State.raiseDie_eq]
@[simp] theorem State.raiseDie_peatDirty (s : State) (d sev unit status : Nat) : (s.raiseDie d sev unit status).peatDirty = s.peatDirty := by rw [State.raiseDie_eq]
@[simp] theorem State.raiseDie_dramDirty (s : State) (d sev unit status : Nat) : (s.raiseDie d sev unit status).dramDirty = s.dramDirty := by rw [State.raiseDie_eq]
@[simp] theorem State.raiseDie_scrubPos (s : State) (d sev unit status : Nat) : (s.raiseDie d sev unit status).scrubPos = s.scrubPos := by rw [State.raiseDie_eq]
@[simp] theorem State.raiseDie_scrubPass (s : State) (d sev unit status : Nat) : (s.raiseDie d sev unit status).scrubPass = s.scrubPass := by rw [State.raiseDie_eq]
@[simp] theorem State.raiseDie_scrubStart (s : State) (d sev unit status : Nat) : (s.raiseDie d sev unit status).scrubStart = s.scrubStart := by rw [State.raiseDie_eq]
@[simp] theorem State.raiseDie_scrubFrom (s : State) (d sev unit status : Nat) : (s.raiseDie d sev unit status).scrubFrom = s.scrubFrom := by rw [State.raiseDie_eq]
@[simp] theorem State.raiseDie_rowsHit (s : State) (d sev unit status : Nat) : (s.raiseDie d sev unit status).rowsHit = s.rowsHit := by rw [State.raiseDie_eq]
@[simp] theorem State.raiseDie_bankCe (s : State) (d sev unit status : Nat) : (s.raiseDie d sev unit status).bankCe = s.bankCe := by rw [State.raiseDie_eq]
@[simp] theorem State.raiseDie_rowTests (s : State) (d sev unit status : Nat) : (s.raiseDie d sev unit status).rowTests = s.rowTests := by rw [State.raiseDie_eq]
@[simp] theorem State.raiseDie_pprDone (s : State) (d sev unit status : Nat) : (s.raiseDie d sev unit status).pprDone = s.pprDone := by rw [State.raiseDie_eq]
@[simp] theorem State.raiseDie_flash (s : State) (d sev unit status : Nat) : (s.raiseDie d sev unit status).flash = s.flash := by rw [State.raiseDie_eq]
@[simp] theorem State.raiseDie_tiles (s : State) (d sev unit status : Nat) : (s.raiseDie d sev unit status).tiles = s.tiles := by rw [State.raiseDie_eq]
@[simp] theorem State.raiseDie_queues (s : State) (d sev unit status : Nat) : (s.raiseDie d sev unit status).queues = s.queues := by rw [State.raiseDie_eq]
@[simp] theorem State.raiseDie_clusters (s : State) (d sev unit status : Nat) : (s.raiseDie d sev unit status).clusters = s.clusters := by rw [State.raiseDie_eq]
@[simp] theorem State.raiseDie_cluUnits (s : State) (d sev unit status : Nat) : (s.raiseDie d sev unit status).cluUnits = s.cluUnits := by rw [State.raiseDie_eq]
@[simp] theorem State.raiseDie_regions (s : State) (d sev unit status : Nat) : (s.raiseDie d sev unit status).regions = s.regions := by rw [State.raiseDie_eq]
@[simp] theorem State.raiseDie_rgnUnits (s : State) (d sev unit status : Nat) : (s.raiseDie d sev unit status).rgnUnits = s.rgnUnits := by rw [State.raiseDie_eq]
@[simp] theorem State.raiseDie_repair (s : State) (d sev unit status : Nat) : (s.raiseDie d sev unit status).repair = s.repair := by rw [State.raiseDie_eq]
@[simp] theorem State.raiseDie_slots (s : State) (d sev unit status : Nat) : (s.raiseDie d sev unit status).slots = s.slots := by rw [State.raiseDie_eq]
@[simp] theorem State.raiseDie_chans (s : State) (d sev unit status : Nat) : (s.raiseDie d sev unit status).chans = s.chans := by rw [State.raiseDie_eq]
@[simp] theorem State.raiseDie_dies (s : State) (d sev unit status : Nat) : (s.raiseDie d sev unit status).dies = s.dies := by rw [State.raiseDie_eq]
@[simp] theorem State.raiseDie_cams (s : State) (d sev unit status : Nat) : (s.raiseDie d sev unit status).cams = s.cams := by rw [State.raiseDie_eq]
@[simp] theorem State.raiseDie_pipes (s : State) (d sev unit status : Nat) : (s.raiseDie d sev unit status).pipes = s.pipes := by rw [State.raiseDie_eq]
@[simp] theorem State.raiseDie_fctx (s : State) (d sev unit status : Nat) : (s.raiseDie d sev unit status).fctx = s.fctx := by rw [State.raiseDie_eq]
@[simp] theorem State.raiseDie_range (s : State) (d sev unit status : Nat) : (s.raiseDie d sev unit status).range = s.range := by rw [State.raiseDie_eq]
@[simp] theorem State.raiseDie_hp (s : State) (d sev unit status : Nat) : (s.raiseDie d sev unit status).hp = s.hp := by rw [State.raiseDie_eq]
@[simp] theorem State.raiseDie_tb (s : State) (d sev unit status : Nat) : (s.raiseDie d sev unit status).tb = s.tb := by rw [State.raiseDie_eq]
@[simp] theorem State.raiseDie_ctx (s : State) (d sev unit status : Nat) : (s.raiseDie d sev unit status).ctx = s.ctx := by rw [State.raiseDie_eq]
@[simp] theorem State.raiseDie_upd (s : State) (d sev unit status : Nat) : (s.raiseDie d sev unit status).upd = s.upd := by rw [State.raiseDie_eq]
@[simp] theorem State.raiseDie_sec (s : State) (d sev unit status : Nat) : (s.raiseDie d sev unit status).sec = s.sec := by rw [State.raiseDie_eq]
@[simp] theorem State.raiseDie_lat (s : State) (d sev unit status : Nat) : (s.raiseDie d sev unit status).lat = s.lat := by rw [State.raiseDie_eq]
@[simp] theorem State.raiseDie_cvu (s : State) (d sev unit status : Nat) : (s.raiseDie d sev unit status).cvu = s.cvu := by rw [State.raiseDie_eq]
@[simp] theorem State.raiseDie_image (s : State) (d sev unit status : Nat) : (s.raiseDie d sev unit status).image = s.image := by rw [State.raiseDie_eq]
@[simp] theorem State.raiseDie_suspects (s : State) (d sev unit status : Nat) : (s.raiseDie d sev unit status).suspects = s.suspects := by rw [State.raiseDie_eq]
@[simp] theorem State.raiseDie_starts (s : State) (d sev unit status : Nat) : (s.raiseDie d sev unit status).starts = s.starts := by rw [State.raiseDie_eq]
@[simp] theorem State.raiseDie_draws (s : State) (d sev unit status : Nat) : (s.raiseDie d sev unit status).draws = s.draws := by rw [State.raiseDie_eq]
@[simp] theorem State.raiseDie_tile (s : State) (d sev unit status : Nat) (y : Nat) : (s.raiseDie d sev unit status).tile y = s.tile y := by rw [State.raiseDie_eq]; (exact (rfl))
@[simp] theorem State.raiseDie_queue (s : State) (d sev unit status : Nat) (y : Nat) : (s.raiseDie d sev unit status).queue y = s.queue y := by rw [State.raiseDie_eq]; (exact (rfl))
@[simp] theorem State.raiseDie_cluster (s : State) (d sev unit status : Nat) (y : Nat) : (s.raiseDie d sev unit status).cluster y = s.cluster y := by rw [State.raiseDie_eq]; (exact (rfl))
@[simp] theorem State.raiseDie_cluUnit (s : State) (d sev unit status : Nat) (y : Nat) : (s.raiseDie d sev unit status).cluUnit y = s.cluUnit y := by rw [State.raiseDie_eq]; (exact (rfl))
@[simp] theorem State.raiseDie_region (s : State) (d sev unit status : Nat) (y : Nat) : (s.raiseDie d sev unit status).region y = s.region y := by rw [State.raiseDie_eq]; (exact (rfl))
@[simp] theorem State.raiseDie_rgnUnit (s : State) (d sev unit status : Nat) (y : Nat) : (s.raiseDie d sev unit status).rgnUnit y = s.rgnUnit y := by rw [State.raiseDie_eq]; (exact (rfl))
@[simp] theorem State.raiseDie_slot (s : State) (d sev unit status : Nat) (y : Nat) : (s.raiseDie d sev unit status).slot y = s.slot y := by rw [State.raiseDie_eq]; (exact (rfl))
@[simp] theorem State.raiseDie_chan (s : State) (d sev unit status : Nat) (y : Nat) : (s.raiseDie d sev unit status).chan y = s.chan y := by rw [State.raiseDie_eq]; (exact (rfl))
@[simp] theorem State.raiseDie_die (s : State) (d sev unit status : Nat) (y : Nat) : (s.raiseDie d sev unit status).die y = s.die y := by rw [State.raiseDie_eq]; (exact (rfl))
@[simp] theorem State.raiseDie_cam (s : State) (d sev unit status : Nat) (y : Nat) : (s.raiseDie d sev unit status).cam y = s.cam y := by rw [State.raiseDie_eq]; (exact (rfl))
@[simp] theorem State.raiseDie_pipe (s : State) (d sev unit status : Nat) (y : Nat) : (s.raiseDie d sev unit status).pipe y = s.pipe y := by rw [State.raiseDie_eq]; (exact (rfl))
@[simp] theorem State.raiseDie_facet (s : State) (d sev unit status : Nat) (y : Nat) : (s.raiseDie d sev unit status).facet y = s.facet y := by rw [State.raiseDie_eq]; (exact (rfl))
@[simp] theorem State.raiseDie_mac (s : State) (d sev unit status : Nat) (y : Nat) : (s.raiseDie d sev unit status).mac y = s.mac y := by rw [State.raiseDie_eq]; (exact (rfl))
@[simp] theorem State.raiseDie_hpath (s : State) (d sev unit status : Nat) (y : Nat) : (s.raiseDie d sev unit status).hpath y = s.hpath y := by rw [State.raiseDie_eq]; (exact (rfl))
@[simp] theorem State.raiseDie_img (s : State) (d sev unit status : Nat) : (s.raiseDie d sev unit status).img = s.img := by rw [State.raiseDie_eq]; (exact (rfl))
@[simp] theorem State.raiseDie_mode (s : State) (d sev unit status : Nat) : (s.raiseDie d sev unit status).mode = s.mode := by rw [State.raiseDie_eq]; (exact (rfl))
@[simp] theorem State.raiseDie_isBench (s : State) (d sev unit status : Nat) : (s.raiseDie d sev unit status).isBench = s.isBench := by rw [State.raiseDie_eq]; (exact (rfl))
@[simp] theorem State.raiseDie_compares (s : State) (d sev unit status : Nat) : (s.raiseDie d sev unit status).compares = s.compares := by rw [State.raiseDie_eq]; (exact (rfl))
@[simp] theorem State.raiseDie_isReplay (s : State) (d sev unit status : Nat) : (s.raiseDie d sev unit status).isReplay = s.isReplay := by rw [State.raiseDie_eq]; (exact (rfl))
@[simp] theorem State.raiseDie_alloc (s : State) (d sev unit status : Nat) (y : Nat) : (s.raiseDie d sev unit status).alloc y = s.alloc y := by rw [State.raiseDie_eq]; (exact (rfl))
@[simp] theorem State.raiseDie_role (s : State) (d sev unit status : Nat) (y : Nat) : (s.raiseDie d sev unit status).role y = s.role y := by rw [State.raiseDie_eq]; (exact (rfl))
@[simp] theorem State.raiseDie_schedule (s : State) (d sev unit status : Nat) : (s.raiseDie d sev unit status).schedule = s.schedule := by rw [State.raiseDie_eq, State.raiseDie_beat]; split <;> (exact (rfl))
@[simp] theorem State.raiseDie_commitTile (s : State) (d sev unit status : Nat) : (s.raiseDie d sev unit status).commitTile = s.commitTile := by rw [State.raiseDie_eq, State.raiseDie_beat]; split <;> (exact (rfl))
@[simp] theorem State.raiseDie_now (s : State) (d sev unit status : Nat) : (s.raiseDie d sev unit status).now = s.now := by rw [State.raiseDie_eq]; (exact (rfl))
@[simp] theorem State.raiseDie_mono (s : State) (d sev unit status : Nat) : (s.raiseDie d sev unit status).mono = s.mono := by rw [State.raiseDie_eq]; (exact (rfl))
@[simp] theorem State.raiseDie_stampAt (s : State) (d sev unit status : Nat) (x : Instant) : (s.raiseDie d sev unit status).stampAt x = s.stampAt x := by rw [State.raiseDie_eq]; (exact (rfl))
@[simp] theorem State.raiseDie_stamp (s : State) (d sev unit status : Nat) : (s.raiseDie d sev unit status).stamp = s.stamp := by rw [State.raiseDie_eq]; (exact (rfl))
@[simp] theorem State.raiseDie_dieNow (s : State) (d sev unit status : Nat) (y : Nat) : (s.raiseDie d sev unit status).dieNow y = s.dieNow y := by rw [State.raiseDie_eq]; (exact (rfl))
@[simp] theorem State.raiseDie_dieStamp (s : State) (d sev unit status : Nat) (y : Nat) : (s.raiseDie d sev unit status).dieStamp y = s.dieStamp y := by rw [State.raiseDie_eq]; (exact (rfl))
@[simp] theorem State.raiseDie_frameNs (s : State) (d sev unit status : Nat) : (s.raiseDie d sev unit status).frameNs = s.frameNs := by rw [State.raiseDie_eq]; (exact (rfl))
@[simp] theorem State.raiseDie_beatNs (s : State) (d sev unit status : Nat) : (s.raiseDie d sev unit status).beatNs = s.beatNs := by rw [State.raiseDie_eq]; (exact (rfl))
@[simp] theorem State.raiseDie_started (s : State) (d sev unit status : Nat) : (s.raiseDie d sev unit status).started = s.started := by rw [State.raiseDie_eq]; (exact (rfl))
@[simp] theorem State.raiseDie_t0 (s : State) (d sev unit status : Nat) : (s.raiseDie d sev unit status).t0 = s.t0 := by rw [State.raiseDie_eq]; (exact (rfl))
@[simp] theorem State.raiseDie_firstBeat (s : State) (d sev unit status : Nat) (y : Nat) : (s.raiseDie d sev unit status).firstBeat y = s.firstBeat y := by rw [State.raiseDie_eq]; (exact (rfl))
@[simp] theorem State.raiseDie_frameOfBeat (s : State) (d sev unit status : Nat) (y : Nat) : (s.raiseDie d sev unit status).frameOfBeat y = s.frameOfBeat y := by rw [State.raiseDie_eq]; (exact (rfl))
@[simp] theorem State.raiseDie_beatStart (s : State) (d sev unit status : Nat) (y : Nat) : (s.raiseDie d sev unit status).beatStart y = s.beatStart y := by rw [State.raiseDie_eq]; (exact (rfl))
@[simp] theorem State.raiseDie_frameStart (s : State) (d sev unit status : Nat) (y : Nat) : (s.raiseDie d sev unit status).frameStart y = s.frameStart y := by rw [State.raiseDie_eq]; (exact (rfl))
@[simp] theorem State.raiseDie_isBoundary (s : State) (d sev unit status : Nat) (y : Nat) : (s.raiseDie d sev unit status).isBoundary y = s.isBoundary y := by rw [State.raiseDie_eq]; (exact (rfl))
@[simp] theorem State.raiseDie_frameAt (s : State) (d sev unit status : Nat) (x : Instant) : (s.raiseDie d sev unit status).frameAt x = s.frameAt x := by rw [State.raiseDie_eq]; (exact (rfl))
@[simp] theorem State.raiseDie_txnDue (s : State) (d sev unit status : Nat) : (s.raiseDie d sev unit status).txnDue = s.txnDue := by rw [State.raiseDie_eq]; (exact (rfl))
@[simp] theorem State.raiseDie_chip (s : State) (d sev unit status : Nat) : (s.raiseDie d sev unit status).chip = s.chip := by rw [State.raiseDie_eq]; (exact (rfl))
@[simp] theorem State.raiseDie_port (s : State) (d sev unit status : Nat) (y : Nat) : (s.raiseDie d sev unit status).port y = s.port y := by rw [State.raiseDie_eq]; (exact (rfl))

/-! ### The safe-state request -/

/-- An event that is not marked S leaves the safety part alone. -/
theorem State.raiseAt_saf (s : State) (sev unit status : Nat) (stamp : Stamp) (detail : List Byte) (h : sevRequestsSafe sev = false) :
    (s.raiseAt sev unit status stamp detail).saf = s.saf := by
  unfold State.raiseAt; simp only [h, Bool.false_eq_true, if_false]
  split <;> simp only [State.updBeat, State.updAsh] <;> rw [State.fifo_eq]

/-- An event marked S requests safe state unless a request is active or start-up has failed. -/
theorem State.raiseAt_req (s : State) (sev unit status : Nat) (stamp : Stamp) (detail : List Byte) (h : sevRequestsSafe sev = true)
    (hr : s.saf.req = false) (hb : s.boot ≠ .failed) :
    (s.raiseAt sev unit status stamp detail).saf = { s.saf with
      req := true, reqAt := s.mono, firstSev := BitVec.ofNat 9 sev, causeFrame := s.beat.frame + 1, releasePend := false,
      last := if s.saf.releasePend then 0x52 else s.saf.last, safeA := s.isBench, safeB := !s.isBench } := by
  unfold State.raiseAt; simp only [h, if_true]
  rw [State.fifo_eq]
  split <;> simp [State.requestSafe, State.noteCause, State.updSaf, State.updAsh, State.updBeat, State.driveSafe, State.msix, State.updLink,
    hr, hb, State.mono, State.isBench, State.mode, State.img] <;> rfl

/-! ### The events in the FIFO -/

@[simp] theorem State.requestSafe_events (s : State) (sev : Nat) : (s.requestSafe sev).link.events = s.link.events := by
  unfold State.requestSafe; split
  · rfl
  · simp [State.msix, State.driveSafe]

/-- Raising an event puts its entry behind those that wait while there is room, and leaves the FIFO as it is otherwise. -/
theorem State.raiseAt_events (s : State) (sev unit status : Nat) (stamp : Stamp) (detail : List Byte) :
    (s.raiseAt sev unit status stamp detail).link.events =
      if s.link.events.length < 1024 then s.link.events ++ [{ word0 := evtWord0 sev unit status, stamp := stamp }] else s.link.events := by
  have h : (s.fifo sev unit status stamp).link.events =
      if s.link.events.length < 1024 then s.link.events ++ [{ word0 := evtWord0 sev unit status, stamp := stamp }] else s.link.events := by
    unfold State.fifo
    split
    · simp [State.msix, State.updLink]
    · dsimp only; split <;> simp [State.updLink, State.updAsh]
  unfold State.raiseAt; dsimp only
  split <;> split <;> simp [State.noteCause, h]

theorem State.raise_events (s : State) (sev unit status : Nat) : (s.raise sev unit status).link.events =
    if s.link.events.length < 1024 then s.link.events ++ [{ word0 := evtWord0 sev unit status, stamp := s.stamp }] else s.link.events :=
  State.raiseAt_events _ _ _ _ _ _

theorem State.raiseDie_events (s : State) (d sev unit status : Nat) : (s.raiseDie d sev unit status).link.events =
    if s.link.events.length < 1024 then s.link.events ++ [{ word0 := evtWord0 sev unit status, stamp := s.dieStamp d }] else s.link.events :=
  State.raiseAt_events _ _ _ _ _ _

/-- No event: the FIFO stands as it was. -/
theorem State.raisedTo_nil {s t : State} (h : t.link = s.link) : s.raisedTo t [] := by
  intro _; simp [State.eventWords, h]

/-- No event: the entries stand as they were. -/
theorem State.raisedTo_nil_events {s t : State} (h : t.link.events = s.link.events) : s.raisedTo t [] := by
  intro _; simp [State.eventWords, h]

/-- Events of one stretch after those of another. -/
theorem State.raisedTo_trans {s t u : State} {e f : List (Nat × Nat × Nat)} (h1 : s.raisedTo t e) (h2 : t.raisedTo u f) :
    s.raisedTo u (e ++ f) := by
  intro h
  simp only [List.length_append] at h
  have a := h1 (by omega)
  have hl : t.link.events.length = s.link.events.length + e.length := by
    have := congrArg List.length a
    simpa [State.eventWords] using this
  have b := h2 (by omega)
  rw [b, a]; simp

/-- One event raised. -/
theorem State.raisedTo_raiseAt (s : State) (sev unit status : Nat) (stamp : Stamp) (detail : List Byte) :
    s.raisedTo (s.raiseAt sev unit status stamp detail) [(sev, unit, status)] := by
  intro h
  simp only [List.length_cons, List.length_nil] at h
  simp [State.eventWords, State.raiseAt_events, show s.link.events.length < 1024 by omega]

theorem State.raisedTo_raise (s : State) (sev unit status : Nat) : s.raisedTo (s.raise sev unit status) [(sev, unit, status)] :=
  State.raisedTo_raiseAt _ _ _ _ _ _

theorem State.raisedTo_raiseDie (s : State) (d sev unit status : Nat) :
    s.raisedTo (s.raiseDie d sev unit status) [(sev, unit, status)] := State.raisedTo_raiseAt _ _ _ _ _ _

/-- What happened before the event and touched no entry does not count. -/
theorem State.raisedTo_of_events {s s' t u : State} {e : List (Nat × Nat × Nat)} (h : s'.raisedTo t e)
    (h1 : s'.link.events = s.link.events) (h2 : u.link.events = t.link.events) : s.raisedTo u e := by
  intro hl
  have := h (by rw [h1]; exact hl)
  simpa [State.eventWords, h1, h2] using this

end Sys2Proof.Machine
end

