-- ==== Sys2Proof/Laws/FrameClusters.lean ====
section
/-! SUPPORT. The operations of the model that leave the field clusters of the State as it is: one equation each. -/

namespace Sys2Proof.Machine

theorem foldl_clusters {α : Type} (g : State → α → State) (l : List α) (s : State) (h : ∀ s x, (g s x).clusters = s.clusters) :
    (l.foldl g s).clusters = s.clusters := by
  induction l generalizing s with
  | nil => rfl
  | cons x l ih => simp [ih, h]

theorem foldl_run_clusters {α : Type} (g : Run → α → Run) (l : List α) (r : Run) (h : ∀ r x, (g r x).st.clusters = r.st.clusters) :
    (l.foldl g r).st.clusters = r.st.clusters := by
  induction l generalizing r with
  | nil => rfl
  | cons x l ih => simp [ih, h]

theorem ite_clusters (c : Prop) [Decidable c] (a b : State) : (if c then a else b).clusters = if c then a.clusters else b.clusters := apply_ite _ _ _ _

@[simp] theorem State.msix_clusters (s : State) (v : Nat) : (State.msix s v).clusters = s.clusters := by
  unfold State.msix
  simp

@[simp] theorem State.log_clusters (s : State) (kind status unit : Nat) (detail : List Byte) : (State.log s kind status unit detail).clusters = s.clusters := by
  unfold State.log
  simp

@[simp] theorem State.driveSafe_clusters (s : State) : (State.driveSafe s).clusters = s.clusters := by
  unfold State.driveSafe
  simp

@[simp] theorem State.requestSafe_clusters (s : State) (sev : Nat) : (State.requestSafe s sev).clusters = s.clusters := by
  unfold State.requestSafe
  split <;> simp

@[simp] theorem State.noteCause_clusters (s : State) : (State.noteCause s).clusters = s.clusters := by
  unfold State.noteCause
  simp

@[simp] theorem State.fifo_clusters (s : State) (sev unit status : Nat) (stamp : Stamp) : (State.fifo s sev unit status stamp).clusters = s.clusters := by
  unfold State.fifo
  (repeat' split) <;> simp

@[simp] theorem State.draw_clusters (s : State) : (State.draw s).2.clusters = s.clusters := by
  unfold State.draw
  simp

@[simp] theorem State.zeroRange_clusters (s : State) (a n : Nat) : (State.zeroRange s a n).clusters = s.clusters := by
  unfold State.zeroRange
  simp

@[simp] theorem State.undirty_clusters (s : State) (a : Nat) : (State.undirty s a).clusters = s.clusters := by
  unfold State.undirty
  (repeat' split) <;> simp

@[simp] theorem State.flashPut_clusters (s : State) (off : Nat) (bs : List Byte) : (State.flashPut s off bs).clusters = s.clusters := by
  unfold State.flashPut
  simp

@[simp] theorem State.recordRepairs_clusters (s : State) (es : List RepairEntry) : (State.recordRepairs s es).clusters = s.clusters := by
  unfold State.recordRepairs
  simp [foldl_clusters, ite_clusters]

@[simp] theorem State.recordRepair_clusters (s : State) (e : RepairEntry) : (State.recordRepair s e).clusters = s.clusters := by
  unfold State.recordRepair
  simp

@[simp] theorem State.repairDramRow_clusters (s : State) (a d : Nat) : (State.repairDramRow s a d).clusters = s.clusters := by
  unfold State.repairDramRow
  simp [foldl_clusters, ite_clusters]

@[simp] theorem State.oweRowTest_clusters (s : State) (u : Nat) : (State.oweRowTest s u).clusters = s.clusters := by
  unfold State.oweRowTest
  simp

@[simp] theorem State.noteUncorrectable_clusters (s : State) (a : Nat) : (State.noteUncorrectable s a).1.clusters = s.clusters := by
  unfold State.noteUncorrectable
  split <;> simp

@[simp] theorem State.suspectOwner_clusters (s : State) (a d : Nat) : (State.suspectOwner s a d).clusters = s.clusters := by
  unfold State.suspectOwner
  (repeat' split) <;> simp

@[simp] theorem State.noteAddress_clusters (s : State) (a : Nat) : (State.noteAddress s a).clusters = s.clusters := by
  unfold State.noteAddress
  simp
  (repeat' split) <;> simp

@[simp] theorem State.noteCorrected_clusters (s : State) (a : Nat) : (State.noteCorrected s a).clusters = s.clusters := by
  unfold State.noteCorrected
  split <;> simp

@[simp] theorem State.linkTry_clusters (s : State) (u : Nat) : (State.linkTry s u).1.clusters = s.clusters := by
  unfold State.linkTry
  simp
  (repeat' split) <;> simp

@[simp] theorem State.fetchStored_clusters (s : State) (u size : Nat) : (State.fetchStored s u size).st.clusters = s.clusters := by
  unfold State.fetchStored
  simp
  (repeat' split) <;> simp

@[simp] theorem State.fetchUnit_clusters (s : State) (u size : Nat) : (State.fetchUnit s u size).st.clusters = s.clusters := by
  unfold State.fetchUnit
  simp
  (repeat' split) <;> simp

@[simp] theorem State.fetchPart_clusters (s : State) (first : Bool) (u size : Nat) : (State.fetchPart s first u size).st.clusters = s.clusters := by
  unfold State.fetchPart
  split <;> simp

@[simp] theorem State.fetchUnits_clusters (line : Option Nat) (x1 : List (Nat × Nat)) (r : Fetch) : (State.fetchUnits line x1 r).st.clusters = r.st.clusters := by
  induction x1 generalizing r line with
  | nil => rfl
  | cons e l ih =>
    unfold State.fetchUnits
    split
    · rfl
    · simp [ih]

@[simp] theorem State.fetch_clusters (s : State) (a n : Nat) : (State.fetch s a n).st.clusters = s.clusters := by
  unfold State.fetch
  simp

@[simp] theorem State.fetchAll_clusters (x1 : List (Nat × Nat)) (s : State) : (State.fetchAll x1 s).1.clusters = s.clusters := by
  induction x1 generalizing s <;> unfold State.fetchAll <;> (repeat' split) <;> simp_all <;> (repeat' split) <;> simp_all

@[simp] theorem State.storeUnit_clusters (s : State) (first : Bool) (u size a : Nat) (bs : List Byte) : (State.storeUnit s first u size a bs).1.clusters = s.clusters := by
  unfold State.storeUnit
  simp
  (repeat' split) <;> simp

@[simp] theorem State.storeUnits_clusters (stop : Bool) (a : Nat) (bs : List Byte) (line : Option (Nat × Bool)) (x1 : List (Nat × Nat)) (r : State × Nat) : (State.storeUnits stop a bs line x1 r).1.clusters = r.1.clusters := by
  induction x1 generalizing stop a bs line r with
  | nil => simp [State.storeUnits]
  | cons e l ih => simp [State.storeUnits]; (repeat' split) <;> simp [ih]

@[simp] theorem State.store_clusters (s : State) (a : Nat) (bs : List Byte) : (State.store s a bs).1.clusters = s.clusters := by
  unfold State.store
  simp

@[simp] theorem State.storeHost_clusters (s : State) (a : Nat) (bs : List Byte) : (State.storeHost s a bs).1.clusters = s.clusters := by
  unfold State.storeHost
  simp

@[simp] theorem State.put_clusters (s : State) (a : Nat) (bs : List Byte) : (State.put s a bs).clusters = s.clusters := by
  unfold State.put
  simp

@[simp] theorem State.readOpen_clusters (s : State) (a n : Nat) : (State.readOpen s a n).1.clusters = s.clusters := by
  unfold State.readOpen
  split <;> simp

@[simp] theorem State.dropAt_clusters (s : State) (d : Nat) : (State.dropAt s d).clusters = s.clusters := by
  unfold State.dropAt
  simp

@[simp] theorem State.storeParts_clusters (a : Nat) (x1 : List (Nat × List Byte)) (s : State) : (State.storeParts a x1 s).1.clusters = s.clusters := by
  induction x1 generalizing a s with
  | nil => simp [State.storeParts]
  | cons e l ih => simp [State.storeParts]; (repeat' split) <;> simp [ih]

@[simp] theorem State.deliver_clusters (s : State) (t : Nat) (m : Message) : (State.deliver s t m).1.clusters = s.clusters := by
  unfold State.deliver
  simp
  (repeat' split) <;> simp

@[simp] theorem State.failInFlight_clusters (s : State) (q pos status : Nat) : (State.failInFlight s q pos status).clusters = s.clusters := by
  unfold State.failInFlight
  simp

@[simp] theorem State.ackDropped_clusters (s : State) (q pos : Nat) : (State.ackDropped s q pos).clusters = s.clusters := by
  unfold State.ackDropped
  simp

@[simp] theorem State.ackInFlight_clusters (s : State) (q pos : Nat) : (State.ackInFlight s q pos).clusters = s.clusters := by
  unfold State.ackInFlight
  simp

@[simp] theorem State.queueAt_clusters (s : State) (p : Nat) (k : Packet) : (State.queueAt s p k).clusters = s.clusters := by
  unfold State.queueAt
  simp

@[simp] theorem State.dropPacket_clusters (s : State) (die : Nat) : (State.dropPacket s die).clusters = s.clusters := by
  unfold State.dropPacket
  simp

@[simp] theorem State.lostRequest_clusters (s : State) (die : Nat) : (State.lostRequest s die).clusters = s.clusters := by
  unfold State.lostRequest
  simp

@[simp] theorem State.sendData_clusters (s : State) (die : Nat) (k : Packet) (req : Option (Nat × Nat)) : (State.sendData s die k req).1.clusters = s.clusters := by
  unfold State.sendData
  (repeat' split) <;> simp

@[simp] theorem State.sendRequest_clusters (s : State) (die : Nat) (k : Packet) (q pos : Nat) : (State.sendRequest s die k q pos).1.clusters = s.clusters := by
  unfold State.sendRequest
  simp

@[simp] theorem State.toMailbox_clusters (s : State) (b : List Byte) : (State.toMailbox s b).clusters = s.clusters := by
  unfold State.toMailbox
  split <;> simp

@[simp] theorem State.mgmtThrough_clusters (s : State) (p dst vl : Nat) (b : List Byte) : (State.mgmtThrough s p dst vl b).clusters = s.clusters := by
  unfold State.mgmtThrough
  split <;> simp

@[simp] theorem State.stampMgmt_clusters (s : State) (m : Mgmt) : (State.stampMgmt s m).1.clusters = s.clusters := by
  unfold State.stampMgmt
  simp

@[simp] theorem State.mgmtOnward_clusters (s : State) (die vl : Nat) (m : Mgmt) : (State.mgmtOnward s die vl m).clusters = s.clusters := by
  unfold State.mgmtOnward
  (repeat' split) <;> simp

@[simp] theorem State.sendHello_clusters (s : State) (p : Nat) : (State.sendHello s p).clusters = s.clusters := by
  unfold State.sendHello
  simp

@[simp] theorem State.sendLinkDown_clusters (s : State) (p : Nat) : (State.sendLinkDown s p).clusters = s.clusters := by
  unfold State.sendLinkDown
  simp [foldl_clusters, ite_clusters]

@[simp] theorem State.sendMgmt_clusters (s : State) (die : Nat) (m : Mgmt) : (State.sendMgmt s die m).clusters = s.clusters := by
  unfold State.sendMgmt
  split <;> simp

@[simp] theorem State.sendAck_clusters (s : State) (die dest status : Nat) : (State.sendAck s die dest status).clusters = s.clusters := by
  unfold State.sendAck
  split <;> simp

@[simp] theorem State.answerBack_clusters (s : State) (p : Nat) (k : Packet) (code : Nat) : (State.answerBack s p k code).clusters = s.clusters := by
  unfold State.answerBack
  split <;> simp

@[simp] theorem State.loseOutstanding_clusters (s : State) (p : Nat) (x1 : List (Nat × Nat × Nat)) : (State.loseOutstanding s p x1).clusters = s.clusters := by
  induction x1 generalizing s p with
  | nil => rfl
  | cons e l ih => simp [State.loseOutstanding, ih]

@[simp] theorem State.loseTransit_clusters (s : State) (p : Nat) (l : List (Nat × Packet)) : (State.loseTransit s p l).clusters = s.clusters := by
  unfold State.loseTransit
  simp [foldl_clusters, ite_clusters]

@[simp] theorem State.downPort_clusters (s : State) (p : Nat) : (State.downPort s p).clusters = s.clusters := by
  unfold State.downPort
  simp

@[simp] theorem State.retrainPort_clusters (s : State) (p : Nat) : (State.retrainPort s p).clusters = s.clusters := by
  unfold State.retrainPort
  simp

@[simp] theorem State.replayPort_clusters (s : State) (p : Nat) : (State.replayPort s p).clusters = s.clusters := by
  unfold State.replayPort
  simp [foldl_clusters, ite_clusters]

@[simp] theorem State.cmdFetch_clusters (s : State) (c : Ctx) (a n : Nat) : (State.cmdFetch s c a n).st.clusters = s.clusters := by
  unfold State.cmdFetch
  split <;> simp

@[simp] theorem checkHeader_clusters (s : State) (c : Ctx) (t : Tensor) (applies : Bool) : (checkHeader s c t applies).1.clusters = s.clusters := by
  unfold checkHeader
  simp
  (repeat' split) <;> simp

@[simp] theorem fetchTensor_clusters (s : State) (c : Ctx) (u : Use) (a : Nat) : (fetchTensor s c u a).1.clusters = s.clusters := by
  unfold fetchTensor
  (repeat' split) <;> simp

@[simp] theorem randomChecks_clusters (s : State) (c : Ctx) (x : Opnds) : (randomChecks s c x).1.clusters = s.clusters := by
  unfold randomChecks
  simp
  (repeat' split) <;> simp

@[simp] theorem startChecks_clusters (s : State) (c : Ctx) (o : Op) (x : Opnds) : (startChecks s c o x).1.clusters = s.clusters := by
  unfold startChecks
  simp

@[simp] theorem operandHeader_clusters (s : State) (c : Ctx) (o : Op) (t : Option Tensor) (applies : Tensor → Bool) : (operandHeader s c o t applies).1.clusters = s.clusters := by
  unfold operandHeader
  (repeat' split) <;> simp

@[simp] theorem decodeCmd_clusters (s : State) (c : Ctx) (engine p a : Nat) : (decodeCmd s c engine p a).st.clusters = s.clusters := by
  unfold decodeCmd
  lift_lets
  intro f d fl
  have hf : f.st.clusters = s.clusters := by simp [f]
  clear_value f
  split
  · exact hf
  · split
    · exact hf
    · lift_lets
      intro us r0 r1 rd
      have h0 : r0.1.clusters = s.clusters := by simp [r0, hf]
      have h1 : r1.1.clusters = s.clusters := by simp [r1, h0]
      have h2 : rd.1.clusters = s.clusters := by simp [rd, h1]
      clear_value r0 r1 rd
      intro v x a0 a1 ad
      have h3 : ad.1.clusters = s.clusters := by simp [ad, a1, a0, h2]
      clear_value a0 a1 ad x v
      intro codes
      clear_value codes
      intro st
      have h4 : st.1.clusters = s.clusters := by simp [st, h3]
      (repeat' split) <;> assumption

@[simp] theorem Run.readUnits_clusters (x1 : List (Nat × Nat)) (r : Run) : (Run.readUnits x1 r).st.clusters = r.st.clusters := by
  induction x1 generalizing r <;> unfold Run.readUnits <;> (repeat' split) <;> simp_all <;> (repeat' split) <;> simp_all

@[simp] theorem Run.read_clusters (c : Ctx) (a n : Nat) (r : Run) : (Run.read c a n r).st.clusters = r.st.clusters := by
  unfold Run.read
  (repeat' split) <;> simp

@[simp] theorem Run.readScales_clusters (c : Ctx) (h : ScaleHdr) (x1 : List Nat) (r : Run) : (Run.readScales c h x1 r).st.clusters = r.st.clusters := by
  induction x1 generalizing r <;> unfold Run.readScales <;> (repeat' split) <;> simp_all <;> (repeat' split) <;> simp_all

@[simp] theorem State.tagMismatch_clusters (s : State) (c : Ctx) (fl : InFlight) (opnd j dtag stag : Nat) : (State.tagMismatch s c fl opnd j dtag stag).clusters = s.clusters := by
  unfold State.tagMismatch
  simp

@[simp] theorem Run.consume_clusters (c : Ctx) (fl : InFlight) (opnd : Nat) (t : Tensor) (h : ScaleHdr) (j : Nat) (r : Run) : (Run.consume c fl opnd t h j r).st.clusters = r.st.clusters := by
  unfold Run.consume
  simp
  (repeat' split) <;> simp

@[simp] theorem Run.elems_clusters (c : Ctx) (fl : InFlight) (consumes : Bool) (opnd lo n : Nat) (r : Run) :
    (r.elems c fl consumes opnd lo n).st.clusters = r.st.clusters := by
  unfold Run.elems
  split
  · rfl
  · lift_lets
    intro r1 a len r2
    have h1 : r1.st.clusters = r.st.clusters := by
      simp only [r1]
      split
      · exact foldl_run_clusters _ _ _ (fun r x => Run.consume_clusters ..)
      · rfl
    have h2 : r2.st.clusters = r.st.clusters := by simp [r2, h1]
    split <;> exact h2

@[simp] theorem Run.step_clusters (c : Ctx) (fl : InFlight) (consumes : Bool) (r : Run) (x1 : PlanStep) : (Run.step c fl consumes r x1).st.clusters = r.st.clusters := by
  unfold Run.step
  (repeat' split) <;> simp

@[simp] theorem Run.plan_clusters (c : Ctx) (fl : InFlight) (consumes : Bool) (p : List PlanStep) (r : Run) : (Run.plan c fl consumes p r).st.clusters = r.st.clusters := by
  unfold Run.plan
  simp [foldl_run_clusters]

@[simp] theorem State.storeMerged_clusters (t : Tensor) (x1 : List (Row × Nat)) (s : State) (x3 : Nat) : (State.storeMerged t x1 s x3).1.clusters = s.clusters := by
  induction x1 generalizing t s x3 with
  | nil => simp [State.storeMerged]
  | cons e l ih => simp [State.storeMerged]; (repeat' split) <;> simp [ih]

@[simp] theorem State.storeRows_clusters (t : Tensor) (rows : List Row) (s : State) : (State.storeRows t rows s).1.clusters = s.clusters := by
  unfold State.storeRows
  simp

@[simp] theorem State.undoWrites_clusters (s before : State) : (State.undoWrites s before).clusters = s.clusters := by
  unfold State.undoWrites
  simp

@[simp] theorem State.storeGroups_clusters (exact : Bool) (t : Tensor) (x1 : List (List Row)) (s : State) (x3 : Nat) : (State.storeGroups exact t x1 s x3).1.clusters = s.clusters := by
  induction x1 generalizing exact t s x3 with
  | nil => simp [State.storeGroups]
  | cons e l ih => simp [State.storeGroups]; (repeat' split) <;> simp [ih]

@[simp] theorem State.storeTrailer_clusters (c : Ctx) (t : Tensor) (h : ScaleHdr) (x1 : List Nat) (s : State) : (State.storeTrailer c t h x1 s).1.clusters = s.clusters := by
  induction x1 generalizing c t h s with
  | nil => simp [State.storeTrailer]
  | cons e l ih => simp [State.storeTrailer]; (repeat' split) <;> simp [ih]

@[simp] theorem freePrefix_clusters (exact : Bool) (s : State) (n : Nat) : (freePrefix exact s n).2.clusters = s.clusters := by
  unfold freePrefix
  split <;> simp

@[simp] theorem Run.finish_clusters (c : Ctx) (fl : InFlight) (rounds exact : Bool) (verdict : State → Nat) (e : Effect) (r : Run) : (Run.finish c fl rounds exact verdict e r).st.clusters = r.st.clusters := by
  unfold Run.finish
  simp
  (repeat' split) <;> simp

@[simp] theorem State.setCurrent_clusters (s : State) (q : Nat) (f : InFlight) : (State.setCurrent s q f).clusters = s.clusters := by
  unfold State.setCurrent
  simp

@[simp] theorem State.kindlingFail_clusters (s : State) (tile engine : Nat) : (State.kindlingFail s tile engine).clusters = s.clusters := by
  unfold State.kindlingFail
  simp

@[simp] theorem runEffect_clusters (consumes rounds exact : Bool) (verdict : State → Nat) (plan : List PlanStep) (e : Effect) (c : Ctx) (f : InFlight) (s : State) : (runEffect consumes rounds exact verdict plan e c f s).1.st.clusters = s.clusters := by
  unfold runEffect
  extract_lets r d w
  split <;> simp [r, d, w]

@[simp] theorem State.residueCheck_clusters (s : State) (tile : Nat) (bad : List Nat) : (State.residueCheck s tile bad).clusters = s.clusters := by
  unfold State.residueCheck
  split <;> simp

@[simp] theorem MeJob.settle_clusters (j : MeJob) (s s0 : State) (f : InFlight) (tile seen : Nat) (swaps : Bool) : (MeJob.settle j s s0 f tile seen swaps).clusters = s.clusters := by
  unfold MeJob.settle
  (repeat' split) <;> simp

@[simp] theorem runMe_clusters (o : Op) (verdict : State → Nat) (c : Ctx) (f : InFlight) (s : State) : (runMe o verdict c f s).1.clusters = s.clusters := by
  unfold runMe
  simp
  (repeat' split) <;> simp

@[simp] theorem runGslice_clusters (c : Ctx) (f : InFlight) (s : State) : (runGslice c f s).1.clusters = s.clusters := by
  unfold runGslice
  simp
  (repeat' split) <;> simp

@[simp] theorem State.countSwap_clusters (s : State) (q order : Nat) : (State.countSwap s q order).clusters = s.clusters := by
  unfold State.countSwap
  simp

@[simp] theorem State.shadowLoadSwap_clusters (s : State) (tile : Nat) : (State.shadowLoadSwap s tile).clusters = s.clusters := by
  unfold State.shadowLoadSwap
  (repeat' split) <;> simp

@[simp] theorem runVe_clusters (plan : List PlanStep) (e : Effect) (c : Ctx) (f : InFlight) (s : State) : (runVe plan e c f s).1.clusters = s.clusters := by
  unfold runVe
  simp

@[simp] theorem runBinary_clusters (c : Ctx) (f : InFlight) (s : State) : (runBinary c f s).1.clusters = s.clusters := by
  unfold runBinary
  split <;> simp

@[simp] theorem runUnary_clusters (c : Ctx) (f : InFlight) (s : State) : (runUnary c f s).1.clusters = s.clusters := by
  unfold runUnary
  split <;> simp

@[simp] theorem runCvt_clusters (c : Ctx) (f : InFlight) (s : State) : (runCvt c f s).1.clusters = s.clusters := by
  unfold runCvt
  split <;> simp

@[simp] theorem runReduce_clusters (c : Ctx) (f : InFlight) (s : State) : (runReduce c f s).1.clusters = s.clusters := by
  unfold runReduce
  split <;> simp

@[simp] theorem runPool_clusters (c : Ctx) (f : InFlight) (s : State) : (runPool c f s).1.clusters = s.clusters := by
  unfold runPool
  split <;> simp

@[simp] theorem runNorm_clusters (c : Ctx) (f : InFlight) (s : State) : (runNorm c f s).1.clusters = s.clusters := by
  unfold runNorm
  split <;> simp

@[simp] theorem runScatter_clusters (c : Ctx) (f : InFlight) (s : State) : (runScatter c f s).1.clusters = s.clusters := by
  unfold runScatter
  split <;> simp

@[simp] theorem State.storeAll_clusters (c : Ctx) (x1 : List SmWrite) (s : State) : (State.storeAll c x1 s).1.clusters = s.clusters := by
  induction x1 generalizing c s with
  | nil => simp [State.storeAll]
  | cons e l ih => simp [State.storeAll]; (repeat' split) <;> simp [ih]

@[simp] theorem State.softmaxReads_clusters (s : State) (c : Ctx) (f : InFlight) (a : Tensor) : (State.softmaxReads s c f a).st.clusters = s.clusters := by
  unfold State.softmaxReads
  simp
  (repeat' split) <;> simp

@[simp] theorem runSoftmax_clusters (c : Ctx) (f : InFlight) (s : State) : (runSoftmax c f s).1.clusters = s.clusters := by
  unfold runSoftmax
  simp
  (repeat' split) <;> simp

@[simp] theorem State.copyTrailer_clusters (c : Ctx) (a t : Tensor) (x1 : List Nat) (s : State) : (State.copyTrailer c a t x1 s).1.clusters = s.clusters := by
  induction x1 generalizing c a t s with
  | nil => simp [State.copyTrailer]
  | cons e l ih => simp [State.copyTrailer]; (repeat' split) <;> simp [ih]

@[simp] theorem runCopy_clusters (c : Ctx) (f : InFlight) (s : State) : (runCopy c f s).1.clusters = s.clusters := by
  unfold runCopy
  (repeat' split) <;> simp

@[simp] theorem runFill_clusters (c : Ctx) (f : InFlight) (s : State) : (runFill c f s).1.clusters = s.clusters := by
  unfold runFill
  split <;> simp

@[simp] theorem State.sendRequests_clusters (die q pos : Nat) (x1 : List Packet) (s : State) (x3 : Nat) : (State.sendRequests die q pos x1 s x3).1.clusters = s.clusters := by
  induction x1 generalizing s x3 <;> unfold State.sendRequests <;> (repeat' split) <;> simp_all <;> (repeat' split) <;> simp_all

@[simp] theorem sendRemote_clusters (c : Ctx) (f : InFlight) (a : Tensor) (s data : State) : (sendRemote c f a s data).1.clusters = s.clusters := by
  unfold sendRemote
  simp

@[simp] theorem sendLocal_clusters (c : Ctx) (f : InFlight) (a : Tensor) (s data : State) : (sendLocal c f a s data).1.clusters = s.clusters := by
  unfold sendLocal
  simp
  (repeat' split) <;> simp

@[simp] theorem runSend_clusters (c : Ctx) (f : InFlight) (s : State) : (runSend c f s).1.clusters = s.clusters := by
  unfold runSend
  simp
  (repeat' split) <;> simp

@[simp] theorem State.defineWindow_clusters (s : State) (f : InFlight) : (State.defineWindow s f).clusters = s.clusters := by
  unfold State.defineWindow
  simp

@[simp] theorem runPublish_clusters (c : Ctx) (f : InFlight) (s : State) : (runPublish c f s).1.clusters = s.clusters := by
  unfold runPublish
  simp
  (repeat' split) <;> simp

@[simp] theorem State.stageBytes_clusters (s : State) : (State.stageBytes s).clusters = s.clusters := by
  unfold State.stageBytes
  simp
  (repeat' split) <;> simp

@[simp] theorem State.stagingUpdate_clusters (s : State) : (State.stagingUpdate s).clusters = s.clusters := by
  unfold State.stagingUpdate
  (repeat' split) <;> simp

@[simp] theorem State.dropUpdates_clusters (s : State) (x1 : List StageUpdate) : (State.dropUpdates s x1).clusters = s.clusters := by
  induction x1 generalizing s with
  | nil => rfl
  | cons e l ih => simp [State.dropUpdates, ih]

@[simp] theorem State.loseStaging_clusters (s : State) : (State.loseStaging s).clusters = s.clusters := by
  unfold State.loseStaging
  simp

@[simp] theorem State.doorbell_clusters (s : State) (q tail : Nat) : (State.doorbell s q tail).clusters = s.clusters := by
  unfold State.doorbell
  simp
  (repeat' split) <;> simp

@[simp] theorem State.hostDoorbell_clusters (s : State) (q value : Nat) : (State.hostDoorbell s q value).clusters = s.clusters := by
  unfold State.hostDoorbell
  split <;> simp

@[simp] theorem State.payZero_clusters (s : State) (tile : Nat) : (State.payZero s tile).clusters = s.clusters := by
  unfold State.payZero
  split <;> simp

@[simp] theorem State.takeHead_clusters (s : State) (a : QueueAlloc) (tile : Nat) : (State.takeHead s a tile).clusters = s.clusters := by
  unfold State.takeHead
  simp

@[simp] theorem State.commandStart_clusters (s : State) (q tile : Nat) : (State.commandStart s q tile).clusters = s.clusters := by
  unfold State.commandStart
  (repeat' split) <;> simp

@[simp] theorem State.meFlags_clusters (s : State) (q : Nat) (f : InFlight) : (State.meFlags s q f).clusters = s.clusters := by
  unfold State.meFlags
  (repeat' split) <;> simp

@[simp] theorem State.clearKindling_clusters (s : State) (f : InFlight) : (State.clearKindling s f).clusters = s.clusters := by
  unfold State.clearKindling
  split <;> simp

@[simp] theorem State.complete_clusters (s : State) (a : QueueAlloc) (f : InFlight) (cycles : Nat) : (State.complete s a f cycles).clusters = s.clusters := by
  unfold State.complete
  split <;> simp

@[simp] theorem State.refreshWaits_clusters (s : State) (c : Nat) (x1 : List QueueAlloc) : (State.refreshWaits s c x1).clusters = s.clusters := by
  induction x1 generalizing s c with
  | nil => rfl
  | cons e l ih => unfold State.refreshWaits; (repeat' split) <;> simp_all

@[simp] theorem State.setOldest_clusters (s : State) (q : Nat) (f : InFlight) : (State.setOldest s q f).clusters = s.clusters := by
  unfold State.setOldest
  simp

@[simp] theorem State.completeAll_clusters (s : State) (q status : Nat) (x1 : List InFlight) : (State.completeAll s q status x1).clusters = s.clusters := by
  induction x1 generalizing s q status with
  | nil => rfl
  | cons e l ih => unfold State.completeAll; (repeat' split) <;> simp_all

@[simp] theorem State.answerQueue_clusters (s : State) (q status : Nat) : (State.answerQueue s q status).clusters = s.clusters := by
  unfold State.answerQueue
  simp

@[simp] theorem State.updUnit_clusters (s : State) (k : UnitKind) (u : Nat) (f : UnitSt → UnitSt) : (State.updUnit s k u f).clusters = s.clusters := by
  unfold State.updUnit
  split <;> simp

@[simp] theorem State.setUnit_clusters (s : State) (k : UnitKind) (u : Nat) (st : UnitState) : (State.setUnit s k u st).clusters = s.clusters := by
  unfold State.setUnit
  simp

@[simp] theorem State.refreshMissing_clusters (s : State) : (State.refreshMissing s).clusters = s.clusters := by
  unfold State.refreshMissing
  simp [foldl_clusters, ite_clusters]

@[simp] theorem State.answerAllocs_clusters (s : State) (tiles : List Nat) (status : Nat) (x1 : List QueueAlloc) : (State.answerAllocs s tiles status x1).clusters = s.clusters := by
  induction x1 generalizing s tiles status with
  | nil => rfl
  | cons e l ih => unfold State.answerAllocs; (repeat' split) <;> simp_all

@[simp] theorem State.recallMessages_clusters (s : State) (cmds : List (Nat × Nat)) (x1 : List Nat) : (State.recallMessages s cmds x1).clusters = s.clusters := by
  induction x1 generalizing s cmds with
  | nil => rfl
  | cons e l ih => simp [State.recallMessages, ih]

@[simp] theorem State.discardMessages_clusters (s : State) (t : Nat) (x1 : List Message) : (State.discardMessages s t x1).clusters = s.clusters := by
  induction x1 generalizing s <;> unfold State.discardMessages <;> (repeat' split) <;> simp_all <;> (repeat' split) <;> simp_all

@[simp] theorem State.answerTiles_clusters (s : State) (tiles : List Nat) (status : Nat) : (State.answerTiles s tiles status).clusters = s.clusters := by
  unfold State.answerTiles
  simp [foldl_clusters, ite_clusters]

@[simp] theorem State.absorb_clusters (s : State) (k : UnitKind) (u : Nat) : (State.absorb s k u).clusters = s.clusters := by
  unfold State.absorb
  simp [foldl_clusters, ite_clusters]

@[simp] theorem State.stageFail_clusters (s : State) (unit status : Nat) : (State.stageFail s unit status).clusters = s.clusters := by
  unfold State.stageFail
  simp

@[simp] theorem State.failStage_clusters (s : State) (bitNo unit status : Nat) : (State.failStage s bitNo unit status).clusters = s.clusters := by
  unfold State.failStage
  simp

@[simp] theorem State.endDrains_clusters (s : State) (k : UnitKind) (u : Nat) : (State.endDrains s k u).clusters = s.clusters := by
  unfold State.endDrains
  simp [foldl_clusters, ite_clusters]

@[simp] theorem State.openFence_clusters (s : State) (k : UnitKind) (u cause : Nat) (st : UnitState) : (State.openFence s k u cause st).clusters = s.clusters := by
  unfold State.openFence
  simp

@[simp] theorem State.suspectUnit_clusters (s : State) (k : UnitKind) (u cause : Nat) : (State.suspectUnit s k u cause).clusters = s.clusters := by
  unfold State.suspectUnit
  (repeat' split) <;> simp

@[simp] theorem State.settleAll_clusters (x1 : List (UnitKind × Nat × Nat)) (s : State) : (State.settleAll x1 s).clusters = s.clusters := by
  induction x1 generalizing s with
  | nil => rfl
  | cons e l ih => simp [State.settleAll, ih]

@[simp] theorem State.settle_clusters (s : State) : (State.settle s).clusters = s.clusters := by
  unfold State.settle
  simp

@[simp] theorem State.planFence_clusters (s : State) (k : UnitKind) (u : Nat) (p : FencePurpose) : (State.planFence s k u p).clusters = s.clusters := by
  unfold State.planFence
  simp

@[simp] theorem State.recovStatus_clusters (s : State) (d status : Nat) : (State.recovStatus s d status).clusters = s.clusters := by
  unfold State.recovStatus
  simp

@[simp] theorem State.recovWrite_clusters (s : State) (d op : Nat) (k : UnitKind) (loc : Nat) : (State.recovWrite s d op k loc).clusters = s.clusters := by
  unfold State.recovWrite
  simp

@[simp] theorem State.loadRepair_clusters (s : State) (p : Nat) : (State.loadRepair s p).clusters = s.clusters := by
  unfold State.loadRepair
  simp

@[simp] theorem State.retireSlot_clusters (s : State) (p cause : Nat) : (State.retireSlot s p cause).clusters = s.clusters := by
  unfold State.retireSlot
  simp [foldl_clusters, ite_clusters]

@[simp] theorem State.repairSlotRow_clusters (s : State) (p bank row : Nat) : (State.repairSlotRow s p bank row).clusters = s.clusters := by
  unfold State.repairSlotRow
  simp [foldl_clusters, ite_clusters]

@[simp] theorem State.repairArray_clusters (s : State) (p : Nat) (found : BistFault) : (State.repairArray s p found).clusters = s.clusters := by
  unfold State.repairArray
  simp
  (repeat' split) <;> simp

@[simp] theorem State.applyBist_clusters (s : State) (p : Nat) (found : BistFault) : (State.applyBist s p found).clusters = s.clusters := by
  unfold State.applyBist
  (repeat' split) <;> simp

@[simp] theorem State.startRounds_clusters (s : State) (k : UnitKind) (u : Nat) : (State.startRounds s k u).clusters = s.clusters := by
  unfold State.startRounds
  simp

@[simp] theorem State.bringIn_clusters (s : State) (k : UnitKind) (u : Nat) : (State.bringIn s k u).clusters = s.clusters := by
  unfold State.bringIn
  simp

@[simp] theorem State.readyUnit_clusters (s : State) (k : UnitKind) (u : Nat) : (State.readyUnit s k u).clusters = s.clusters := by
  unfold State.readyUnit
  split <;> simp

@[simp] theorem State.clearTile_clusters (s : State) (t : Nat) : (State.clearTile s t).clusters = s.clusters := by
  unfold State.clearTile
  simp [foldl_clusters, ite_clusters]

@[simp] theorem State.swapEmber_clusters (s : State) (t e : Nat) : (State.swapEmber s t e).clusters = s.clusters := by
  unfold State.swapEmber
  simp

@[simp] theorem State.emberFails_clusters (s : State) (e : Nat) : (State.emberFails s e).clusters = s.clusters := by
  unfold State.emberFails
  simp

@[simp] theorem State.swapTile_clusters (s : State) (t : Nat) : (State.swapTile s t).clusters = s.clusters := by
  unfold State.swapTile
  simp
  (repeat' split) <;> simp

@[simp] theorem State.swapAll_clusters (s : State) : (State.swapAll s).clusters = s.clusters := by
  unfold State.swapAll
  simp [foldl_clusters, ite_clusters]

@[simp] theorem State.abortEngine_clusters (s : State) (tile engine : Nat) : (State.abortEngine s tile engine).clusters = s.clusters := by
  unfold State.abortEngine
  simp [foldl_clusters, ite_clusters]

@[simp] theorem State.engineWatchdog_clusters (s : State) (q cycles : Nat) : (State.engineWatchdog s q cycles).clusters = s.clusters := by
  unfold State.engineWatchdog
  (repeat' split) <;> simp

@[simp] theorem State.hang_clusters (s : State) (k : UnitKind) (u sev : Nat) : (State.hang s k u sev).clusters = s.clusters := by
  unfold State.hang
  split <;> simp

@[simp] theorem State.tileHang_clusters (s : State) (p : Nat) : (State.tileHang s p).clusters = s.clusters := by
  unfold State.tileHang
  split <;> simp

@[simp] theorem State.linkStillFails_clusters (s : State) (d : Nat) : (State.linkStillFails s d).clusters = s.clusters := by
  unfold State.linkStillFails
  split <;> simp

@[simp] theorem State.stageEnd_clusters (s : State) (bits : Nat) : (State.stageEnd s bits).clusters = s.clusters := by
  unfold State.stageEnd
  simp

@[simp] theorem State.drainEnd_clusters (s : State) (d : Nat) (f : FenceReq) : (State.drainEnd s d f).clusters = s.clusters := by
  unfold State.drainEnd
  split <;> simp

@[simp] theorem State.dumpSummary_clusters (s : State) (k : UnitKind) (u status seq : Nat) : (State.dumpSummary s k u status seq).clusters = s.clusters := by
  unfold State.dumpSummary
  simp

@[simp] theorem State.writeDump_clusters (s : State) (k : UnitKind) (u : Nat) (hungTiles hungClusters : List Nat) : (State.writeDump s k u hungTiles hungClusters).clusters = s.clusters := by
  unfold State.writeDump
  simp
  (repeat' split) <;> simp

@[simp] theorem State.clearDie_clusters (s : State) (d : Nat) : (State.clearDie s d).clusters = s.clusters := by
  unfold State.clearDie
  simp [foldl_clusters, ite_clusters]

@[simp] theorem State.powerForReset_clusters (s : State) (k : UnitKind) (u : Nat) : (State.powerForReset s k u).clusters = s.clusters := by
  unfold State.powerForReset
  (repeat' split) <;> simp

@[simp] theorem State.failUnit_clusters (s : State) (k : UnitKind) (u : Nat) : (State.failUnit s k u).clusters = s.clusters := by
  unfold State.failUnit
  simp

@[simp] theorem State.bistUnit_clusters (s : State) (k : UnitKind) (u : Nat) (found : List (Nat × BistFault)) : (State.bistUnit s k u found).clusters = s.clusters := by
  unfold State.bistUnit
  simp [foldl_clusters, ite_clusters]

@[simp] theorem State.zeroTiles_clusters (s : State) (ts : List Nat) : (State.zeroTiles s ts).clusters = s.clusters := by
  unfold State.zeroTiles
  simp [foldl_clusters, ite_clusters]

@[simp] theorem State.resetComplete_clusters (s : State) (k : UnitKind) (u : Nat) (found : List (Nat × BistFault)) (entryTestOk : Bool) : (State.resetComplete s k u found entryTestOk).clusters = s.clusters := by
  unfold State.resetComplete
  simp [foldl_clusters, ite_clusters]

@[simp] theorem State.returnUnit_clusters (s : State) (k : UnitKind) (u : Nat) : (State.returnUnit s k u).1.clusters = s.clusters := by
  unfold State.returnUnit
  simp
  (repeat' split) <;> simp

@[simp] theorem State.returnsAt_clusters (s : State) (n : Nat) : (State.returnsAt s n).clusters = s.clusters := by
  unfold State.returnsAt
  simp [foldl_clusters, ite_clusters]

@[simp] theorem State.agingAt_clusters (s : State) : (State.agingAt s).clusters = s.clusters := by
  unfold State.agingAt
  simp [foldl_clusters, ite_clusters]

@[simp] theorem State.fenceRequest_clusters (s : State) (k : UnitKind) (p : FencePurpose) (policyBit u : Nat) : (State.fenceRequest s k p policyBit u).1.clusters = s.clusters := by
  unfold State.fenceRequest
  simp
  (repeat' split) <;> simp

@[simp] theorem State.resetRequest_clusters (s : State) (k : UnitKind) (u : Nat) : (State.resetRequest s k u).1.clusters = s.clusters := by
  unfold State.resetRequest
  simp
  (repeat' split) <;> simp

@[simp] theorem State.tagCarve_clusters (s : State) (c : Carveout) : (State.tagCarve s c).clusters = s.clusters := by
  unfold State.tagCarve
  split <;> simp

@[simp] theorem State.killQueues_clusters (s : State) (t : Nat) : (State.killQueues s t).clusters = s.clusters := by
  unfold State.killQueues
  simp [foldl_clusters, ite_clusters]

@[simp] theorem State.killTile_clusters (s : State) (t : Nat) : (State.killTile s t).clusters = s.clusters := by
  unfold State.killTile
  simp

@[simp] theorem State.resumeQueue_clusters (s : State) (q value : Nat) : (State.resumeQueue s q value).clusters = s.clusters := by
  unfold State.resumeQueue
  (repeat' split) <;> simp

@[simp] theorem State.writeRepair_clusters (s : State) (agent : Agent) (t w : Nat) : (State.writeRepair s agent t w).clusters = s.clusters := by
  unfold State.writeRepair
  (repeat' split) <;> simp

@[simp] theorem State.reconcileUnit_clusters (s : State) (e : UnitKind × Nat) : (State.reconcileUnit s e).clusters = s.clusters := by
  unfold State.reconcileUnit
  simp [foldl_clusters, ite_clusters]

@[simp] theorem State.rebuildViews_clusters (s : State) (d : Nat) : (State.rebuildViews s d).clusters = s.clusters := by
  unfold State.rebuildViews
  simp [foldl_clusters, ite_clusters]

@[simp] theorem State.schedDone_clusters (s : State) : (State.schedDone s).clusters = s.clusters := by
  unfold State.schedDone
  simp

@[simp] theorem State.releaseCredits_clusters (s : State) (at_ : Instant) (q n : Nat) : (State.releaseCredits s at_ q n).clusters = s.clusters := by
  unfold State.releaseCredits
  simp [foldl_clusters, ite_clusters]

@[simp] theorem State.discardCredits_clusters (s : State) : (State.discardCredits s).clusters = s.clusters := by
  unfold State.discardCredits
  simp [foldl_clusters, ite_clusters]

@[simp] theorem State.clearSlices_clusters (s : State) : (State.clearSlices s).clusters = s.clusters := by
  unfold State.clearSlices
  apply foldl_clusters
  intros
  simp

@[simp] theorem State.sliceMissing_clusters (s : State) (t : Nat) : (State.sliceMissing s t).clusters = s.clusters := by
  unfold State.sliceMissing
  simp

@[simp] theorem State.switchSchedule_clusters (s : State) : (State.switchSchedule s).clusters = s.clusters := by
  unfold State.switchSchedule
  simp [foldl_clusters, ite_clusters]

@[simp] theorem State.releaseAt_clusters (s : State) : (State.releaseAt s).clusters = s.clusters := by
  unfold State.releaseAt
  split <;> simp

@[simp] theorem State.boundary_clusters (s : State) (n k : Nat) : (State.boundary s n k).clusters = s.clusters := by
  unfold State.boundary
  simp [foldl_clusters, ite_clusters]

@[simp] theorem State.beatBegin_clusters (s : State) (n : Nat) : (State.beatBegin s n).clusters = s.clusters := by
  unfold State.beatBegin
  simp [foldl_clusters, ite_clusters]

@[simp] theorem State.putLost_clusters (s : State) : (State.putLost s).clusters = s.clusters := by
  unfold State.putLost
  (repeat' split) <;> simp

@[simp] theorem State.recordLost_clusters (s : State) (n : Nat) : (State.recordLost s n).clusters = s.clusters := by
  unfold State.recordLost
  simp

@[simp] theorem State.ringVector_clusters (s : State) : (State.ringVector s).clusters = s.clusters := by
  unfold State.ringVector
  simp [foldl_clusters, ite_clusters]

@[simp] theorem State.recordWrite_clusters (s : State) (rec : List Byte) : (State.recordWrite s rec).clusters = s.clusters := by
  unfold State.recordWrite
  simp

@[simp] theorem State.lateEvent_clusters (s : State) (n : Nat) : (State.lateEvent s n).clusters = s.clusters := by
  unfold State.lateEvent
  split <;> simp

@[simp] theorem State.oldest_clusters (s : State) (missing : Option Nat) : (State.oldest s missing).1.clusters = s.clusters := by
  unfold State.oldest
  split <;> simp

@[simp] theorem State.commitBeat_clusters (s : State) (n : Nat) (missing : Option Nat) : (State.commitBeat s n missing).clusters = s.clusters := by
  unfold State.commitBeat
  simp [foldl_clusters, ite_clusters]

@[simp] theorem State.recordCommit_clusters (s : State) : (State.recordCommit s).clusters = s.clusters := by
  unfold State.recordCommit
  simp [foldl_clusters, ite_clusters]

@[simp] theorem State.cvuDrop_clusters (s : State) (unit : Nat) : (State.cvuDrop s unit).clusters = s.clusters := by
  unfold State.cvuDrop
  split <;> simp

@[simp] theorem State.scanLines_clusters (s : State) (own : Option Nat) (p : Poly) (x1 : Nat) (x2 : Nat) (x3 : Nat) : (State.scanLines s own p x1 x2 x3).1.clusters = s.clusters := by
  induction x1 generalizing s x2 x3 <;> unfold State.scanLines <;> (repeat' split) <;> simp_all <;> (repeat' split) <;> simp_all

@[simp] theorem State.scanRange_clusters (s : State) (own : Option Nat) (poly a len : Nat) : (State.scanRange s own poly a len).1.clusters = s.clusters := by
  unfold State.scanRange
  split <;> simp

@[simp] theorem State.readCopy_clusters (s : State) (p k : Nat) : (State.readCopy s p k).1.clusters = s.clusters := by
  unfold State.readCopy
  simp
  (repeat' split) <;> simp

@[simp] theorem State.cameraBufs_clusters (k : Nat) (x1 : List (Nat × Nat)) (s : State) : (State.cameraBufs k x1 s).1.clusters = s.clusters := by
  induction x1 generalizing s <;> unfold State.cameraBufs <;> (repeat' split) <;> simp_all <;> (repeat' split) <;> simp_all

@[simp] theorem State.startChecker_clusters (s : State) (k : Nat) (grid : SMap GridCell) (binned : Nat) : (State.startChecker s k grid binned).clusters = s.clusters := by
  unfold State.startChecker
  split <;> simp

@[simp] theorem State.checkerDone_clusters (s : State) : (State.checkerDone s).clusters = s.clusters := by
  unfold State.checkerDone
  split <;> simp

@[simp] theorem State.headerArrives_clusters (s : State) (m : Mirror) : (State.headerArrives s m).clusters = s.clusters := by
  unfold State.headerArrives
  simp
  (repeat' split) <;> simp

@[simp] theorem State.headerMissing_clusters (s : State) (n : Nat) : (State.headerMissing s n).clusters = s.clusters := by
  unfold State.headerMissing
  split <;> simp

@[simp] theorem State.cmpOutcome_clusters (s : State) (row : Nat) (u : Option (Nat × Nat)) : (State.cmpOutcome s row u).clusters = s.clusters := by
  unfold State.cmpOutcome
  simp [foldl_clusters, ite_clusters]

@[simp] theorem State.compareNext_clusters (s : State) : (State.compareNext s).clusters = s.clusters := by
  unfold State.compareNext
  simp
  (repeat' split) <;> simp

@[simp] theorem State.requestRelease_clusters (s : State) : (State.requestRelease s).clusters = s.clusters := by
  unfold State.requestRelease
  (repeat' split) <;> simp

@[simp] theorem State.testPass_clusters (s : State) (t : TestTarget) (unit : Nat) : (State.testPass s t unit).clusters = s.clusters := by
  unfold State.testPass
  simp

@[simp] theorem State.testFail_clusters (s : State) (t : TestTarget) (unit : Nat) : (State.testFail s t unit).clusters = s.clusters := by
  unfold State.testFail
  split <;> simp

@[simp] theorem State.flashErase_clusters (s : State) (a n : Nat) : (State.flashErase s a n).clusters = s.clusters := by
  unfold State.flashErase
  simp

@[simp] theorem State.ashProgram_clusters (s : State) : (State.ashProgram s).clusters = s.clusters := by
  unfold State.ashProgram
  simp [foldl_clusters, ite_clusters]

@[simp] theorem State.ashFetched_clusters (s : State) : (State.ashFetched s).clusters = s.clusters := by
  unfold State.ashFetched
  simp
  (repeat' split) <;> simp

@[simp] theorem State.ashRestore_clusters (s : State) : (State.ashRestore s).clusters = s.clusters := by
  unfold State.ashRestore
  simp

@[simp] theorem State.ppsMissing_clusters (s : State) : (State.ppsMissing s).clusters = s.clusters := by
  unfold State.ppsMissing
  split <;> simp

@[simp] theorem State.logTxn_clusters (s : State) (status : Nat) (t : Txn) : (State.logTxn s status t).clusters = s.clusters := by
  unfold State.logTxn
  simp

@[simp] theorem State.txnRollback_clusters (s : State) : (State.txnRollback s).clusters = s.clusters := by
  unfold State.txnRollback
  split <;> simp

@[simp] theorem State.checkHeldStart_clusters (s : State) : (State.checkHeldStart s).clusters = s.clusters := by
  unfold State.checkHeldStart
  (repeat' split) <;> simp

@[simp] theorem State.rearmSeconds_clusters (s : State) : (State.rearmSeconds s).clusters = s.clusters := by
  unfold State.rearmSeconds
  simp [foldl_clusters, ite_clusters]

@[simp] theorem State.reachReplay_clusters (s : State) : (State.reachReplay s).clusters = s.clusters := by
  unfold State.reachReplay
  simp [foldl_clusters, ite_clusters]

@[simp] theorem State.firstStep_clusters (s : State) (t : Instant) : (State.firstStep s t).clusters = s.clusters := by
  unfold State.firstStep
  simp

@[simp] theorem State.tbStatus_clusters (s : State) (status : Nat) : (State.tbStatus s status).clusters = s.clusters := by
  unfold State.tbStatus
  simp

@[simp] theorem State.step_clusters (s : State) : (State.step s).clusters = s.clusters := by
  unfold State.step
  (repeat' split) <;> simp

@[simp] theorem State.writeIncr_clusters (s : State) (v : Nat) : (State.writeIncr s v).clusters = s.clusters := by
  unfold State.writeIncr
  split <;> simp

@[simp] theorem State.reepoch_clusters (s : State) : (State.reepoch s).clusters = s.clusters := by
  unfold State.reepoch
  simp [foldl_clusters, ite_clusters]

@[simp] theorem State.jump_clusters (s : State) (t : Instant) (d : Int) : (State.jump s t d).clusters = s.clusters := by
  unfold State.jump
  (repeat' split) <;> simp

@[simp] theorem State.reepochApply_clusters (s : State) : (State.reepochApply s).clusters = s.clusters := by
  unfold State.reepochApply
  (repeat' split) <;> simp

@[simp] theorem State.snapLatch_clusters (s : State) : (State.snapLatch s).clusters = s.clusters := by
  unfold State.snapLatch
  simp

@[simp] theorem State.answerWord_clusters (s : State) (w : Nat) : (State.answerWord s w).clusters = s.clusters := by
  unfold State.answerWord
  simp

@[simp] theorem State.countOffset_clusters (s : State) (offset : Int) : (State.countOffset s offset).clusters = s.clusters := by
  unfold State.countOffset
  simp [foldl_clusters, ite_clusters]

@[simp] theorem State.sourceBack_clusters (s : State) : (State.sourceBack s).clusters = s.clusters := by
  unfold State.sourceBack
  simp

@[simp] theorem State.measure_clusters (s : State) (offset : Int) : (State.measure s offset).clusters = s.clusters := by
  unfold State.measure
  (repeat' split) <;> simp

@[simp] theorem State.usePtp_clusters (s : State) : (State.usePtp s).clusters = s.clusters := by
  unfold State.usePtp
  split <;> simp

@[simp] theorem State.ppsMeasure_clusters (s : State) (t : Instant) (offset : Int) : (State.ppsMeasure s t offset).clusters = s.clusters := by
  unfold State.ppsMeasure
  (repeat' split) <;> simp [ite_clusters]

@[simp] theorem State.ppsEdge_clusters (s : State) (t : Instant) : (State.ppsEdge s t).clusters = s.clusters := by
  unfold State.ppsEdge
  simp

@[simp] theorem State.offsetMeasurement_clusters (s : State) (offset : Int) : (State.offsetMeasurement s offset).clusters = s.clusters := by
  unfold State.offsetMeasurement
  (repeat' split) <;> simp

@[simp] theorem State.updFollower_clusters (s : State) (d : Nat) (f : FollowerSt → FollowerSt) : (State.updFollower s d f).clusters = s.clusters := by
  unfold State.updFollower
  simp

@[simp] theorem State.followerBad_clusters (s : State) (d sev : Nat) : (State.followerBad s d sev).clusters = s.clusters := by
  unfold State.followerBad
  simp

@[simp] theorem State.followerDrift_clusters (s : State) (d : Nat) : (State.followerDrift s d).clusters = s.clusters := by
  unfold State.followerDrift
  simp

@[simp] theorem State.triggerPulse_clusters (s : State) (e : TimeTrigger) : (State.triggerPulse s e).clusters = s.clusters := by
  unfold State.triggerPulse
  simp [foldl_clusters, ite_clusters]

@[simp] theorem State.judge_clusters (s : State) (t : Instant) (m : TimeMonitor) : (State.judge s t m).clusters = s.clusters := by
  unfold State.judge
  (repeat' split) <;> simp

@[simp] theorem State.capture_clusters (s : State) (c : TimeCapture) (t : Instant) : (State.capture s c t).clusters = s.clusters := by
  unfold State.capture
  simp [foldl_clusters, ite_clusters]

@[simp] theorem State.windowClose_clusters (s : State) (m : TimeMonitor) : (State.windowClose s m).clusters = s.clusters := by
  unfold State.windowClose
  simp [foldl_clusters, ite_clusters]

@[simp] theorem State.sendFrame_clusters (s : State) (mac : Nat) (f : List Byte) (tsCtrl : Nat) : (State.sendFrame s mac f tsCtrl).1.clusters = s.clusters := by
  unfold State.sendFrame
  simp

@[simp] theorem State.ptpComplete_clusters (s : State) (mac : Nat) (status : Byte) (stamp : Option Stamp) : (State.ptpComplete s mac status stamp).clusters = s.clusters := by
  unfold State.ptpComplete
  simp

@[simp] theorem State.hpComplete_clusters (s : State) (a status flags length seq addr : Nat) (stamp : List Byte) : (State.hpComplete s a status flags length seq addr stamp).clusters = s.clusters := by
  unfold State.hpComplete
  split <;> simp

@[simp] theorem State.hpStatus_clusters (s : State) (mac status : Nat) : (State.hpStatus s mac status).clusters = s.clusters := by
  unfold State.hpStatus
  split <;> simp

@[simp] theorem State.hpEnable_clusters (s : State) (mac : Nat) : (State.hpEnable s mac).clusters = s.clusters := by
  unfold State.hpEnable
  simp [foldl_clusters, ite_clusters]

@[simp] theorem State.writeCbLo_clusters (s : State) (mac : Nat) (w : Word) : (State.writeCbLo s mac w).clusters = s.clusters := by
  unfold State.writeCbLo
  (repeat' split) <;> simp

@[simp] theorem State.writeCbHi_clusters (s : State) (mac : Nat) (w : Word) : (State.writeCbHi s mac w).clusters = s.clusters := by
  unfold State.writeCbHi
  simp

@[simp] theorem State.hpDesc_clusters (s : State) (a : Nat) : (State.hpDesc s a).1.clusters = s.clusters := by
  unfold State.hpDesc
  simp

@[simp] theorem State.txEnd_clusters (s : State) (mac a status flags length addr : Nat) (stamp : List Byte) (irq : Bool) : (State.txEnd s mac a status flags length addr stamp irq).clusters = s.clusters := by
  unfold State.txEnd
  split <;> simp

@[simp] theorem State.hpTransmit_clusters (s : State) (mac : Nat) : (State.hpTransmit s mac).clusters = s.clusters := by
  unfold State.hpTransmit
  simp
  (repeat' split) <;> simp

@[simp] theorem State.rxDrop_clusters (s : State) (mac : Nat) : (State.rxDrop s mac).clusters = s.clusters := by
  unfold State.rxDrop
  simp

@[simp] theorem State.rxEnd_clusters (s : State) (mac a status flags length addr : Nat) (stamp : List Byte) (irq : Bool) : (State.rxEnd s mac a status flags length addr stamp irq).clusters = s.clusters := by
  unfold State.rxEnd
  split <;> simp

@[simp] theorem State.hpReceive_clusters (mac : Nat) (f : List Byte) (x : Stamp) (x1 : Nat) (s : State) : (State.hpReceive mac f x x1 s).clusters = s.clusters := by
  induction x1 generalizing mac f x s <;> unfold State.hpReceive <;> (repeat' split) <;> simp_all <;> (repeat' split) <;> simp_all

@[simp] theorem State.rangeTake_clusters (s : State) (mac : Nat) (x : Stamp) (replay : Bool) (f : List Byte) : (State.rangeTake s mac x replay f).clusters = s.clusters := by
  unfold State.rangeTake
  simp [foldl_clusters, ite_clusters]

@[simp] theorem State.ethReceive_clusters (s : State) (mac : Nat) (f : List Byte) (fcsOk : Bool) : (State.ethReceive s mac f fcsOk).clusters = s.clusters := by
  unfold State.ethReceive
  (repeat' split) <;> simp

@[simp] theorem State.updJob_clusters (s : State) (b : CameraBind) (k : Nat) (f : FrameJob → FrameJob) : (State.updJob s b k f).clusters = s.clusters := by
  unfold State.updJob
  simp

@[simp] theorem State.putLine_clusters (s : State) (b : CameraBind) (c : IntakeCamera) (slot n : Nat) (bs : List Byte) : (State.putLine s b c slot n bs).clusters = s.clusters := by
  unfold State.putLine
  simp

@[simp] theorem State.zeroLines_clusters (s : State) (b : CameraBind) (c : IntakeCamera) (slot n m : Nat) : (State.zeroLines s b c slot n m).clusters = s.clusters := by
  unfold State.zeroLines
  simp

@[simp] theorem State.endFrame_clusters (s : State) (b : CameraBind) : (State.endFrame s b).clusters = s.clusters := by
  unfold State.endFrame
  simp
  (repeat' split) <;> simp

@[simp] theorem State.strictCut_clusters (s : State) (b : CameraBind) (c : IntakeCamera) (j : FrameJob) (received : Nat) : (State.strictCut s b c j received).clusters = s.clusters := by
  unfold State.strictCut
  split <;> simp

@[simp] theorem State.beginFrame_clusters (s : State) (b : CameraBind) (k : Nat) (capture : Stamp) (csiFn : Nat) : (State.beginFrame s b k capture csiFn).clusters = s.clusters := by
  unfold State.beginFrame
  simp

@[simp] theorem State.frameStartOf_clusters (s : State) (b : CameraBind) (csiFn : Nat) : (State.frameStartOf s b csiFn).clusters = s.clusters := by
  unfold State.frameStartOf
  simp
  (repeat' split) <;> simp

@[simp] theorem State.noFrameStart_clusters (s : State) (b : CameraBind) : (State.noFrameStart s b).clusters = s.clusters := by
  unfold State.noFrameStart
  simp [foldl_clusters, ite_clusters]

@[simp] theorem State.imageLine_clusters (s : State) (b : CameraBind) (c : IntakeCamera) (j : FrameJob) (payload : List Byte) (crcOk : Bool) : (State.imageLine s b c j payload crcOk).clusters = s.clusters := by
  unfold State.imageLine
  simp
  (repeat' split) <;> simp

@[simp] theorem State.embLine_clusters (s : State) (b : CameraBind) (c : IntakeCamera) (j : FrameJob) (payload : List Byte) (crcOk : Bool) : (State.embLine s b c j payload crcOk).clusters = s.clusters := by
  unfold State.embLine
  (repeat' split) <;> simp

@[simp] theorem State.lostLine_clusters (s : State) (b : CameraBind) (c : IntakeCamera) (j : FrameJob) : (State.lostLine s b c j).clusters = s.clusters := by
  unfold State.lostLine
  split <;> simp

@[simp] theorem State.writeNote_clusters (s : State) (j : FrameJob) (flags startWord : Nat) : (State.writeNote s j flags startWord).clusters = s.clusters := by
  unfold State.writeNote
  split <;> simp

@[simp] theorem State.putCopy_clusters (s : State) (v : IspView) (j : FrameJob) (planes : Option (List Plane)) (paramSeq : Nat) : (State.putCopy s v j planes paramSeq).clusters = s.clusters := by
  unfold State.putCopy
  split <;> simp

@[simp] theorem State.putStats_clusters (s : State) (v : IspView) (j : FrameJob) (isVoid : Bool) (f : FctxSt) (body : List Byte) : (State.putStats s v j isVoid f body).clusters = s.clusters := by
  unfold State.putStats
  simp

@[simp] theorem State.dropStale_clusters (s : State) (v : IspView) (j : FrameJob) : (State.dropStale s v j).clusters = s.clusters := by
  unfold State.dropStale
  simp

@[simp] theorem State.readBank_clusters (s : State) (v : IspView) (bank : Bool) : (State.readBank s v bank).1.clusters = s.clusters := by
  unfold State.readBank
  simp
  (repeat' split) <;> simp

@[simp] theorem State.latchArm_clusters (s : State) (v : IspView) : (State.latchArm s v).1.clusters = s.clusters := by
  unfold State.latchArm
  simp
  (repeat' split) <;> simp

@[simp] theorem State.startJob_clusters (s : State) (v : IspView) (j : FrameJob) : (State.startJob s v j).clusters = s.clusters := by
  unfold State.startJob
  simp [foldl_clusters, ite_clusters]

@[simp] theorem State.pipelineStart_clusters (s : State) (p : Nat) : (State.pipelineStart s p).clusters = s.clusters := by
  unfold State.pipelineStart
  simp
  (repeat' split) <;> simp

@[simp] theorem State.readRaw_clusters (s : State) (v : IspView) (slot : Nat) : (State.readRaw s v slot).1.clusters = s.clusters := by
  unfold State.readRaw
  simp
  (repeat' split) <;> simp

@[simp] theorem State.writeFctx_clusters (s : State) (i w : Nat) : (State.writeFctx s i w).clusters = s.clusters := by
  unfold State.writeFctx
  simp

@[simp] theorem State.updDec_clusters (s : State) (d : Nat) (f : DecoderSt → DecoderSt) : (State.updDec s d f).clusters = s.clusters := by
  unfold State.updDec
  simp

@[simp] theorem State.writeDecTail_clusters (s : State) (d w : Nat) : (State.writeDecTail s d w).clusters = s.clusters := by
  unfold State.writeDecTail
  simp
  (repeat' split) <;> simp

@[simp] theorem State.decStop_clusters (s : State) (d status : Nat) : (State.decStop s d status).clusters = s.clusters := by
  unfold State.decStop
  simp

@[simp] theorem State.decVoid_clusters (s : State) (d status : Nat) (e : List Byte) : (State.decVoid s d status e).clusters = s.clusters := by
  unfold State.decVoid
  simp

@[simp] theorem State.decData_clusters (s : State) (a n : Nat) (dec : Unit → Option (List (List Nat) × Bool)) : (State.decData s a n dec).1.clusters = s.clusters := by
  unfold State.decData
  split <;> simp

@[simp] theorem State.decRun_clusters (s : State) (d : Nat) (e : List Byte) (v : IspView) : (State.decRun s d e v).clusters = s.clusters := by
  unfold State.decRun
  simp
  (repeat' split) <;> simp

@[simp] theorem State.decStart_clusters (s : State) (d : Nat) (r : ReplayRing) : (State.decStart s d r).clusters = s.clusters := by
  unfold State.decStart
  simp
  (repeat' split) <;> simp

@[simp] theorem State.decFinish_clusters (s : State) (d : Nat) : (State.decFinish s d).clusters = s.clusters := by
  unfold State.decFinish
  simp

@[simp] theorem State.putRaw_clusters (s : State) (v : IspView) (slot : Nat) (p : List Nat) : (State.putRaw s v slot p).clusters = s.clusters := by
  unfold State.putRaw
  simp [foldl_clusters, ite_clusters]

@[simp] theorem State.offer_clusters (s : State) (d : Nat) (o : Offer) (capOff : Nat) (v : IspView) : (State.offer s d o capOff v).clusters = s.clusters := by
  unfold State.offer
  simp [foldl_clusters, ite_clusters]

@[simp] theorem State.forwardPacket_clusters (s : State) (n : Nat) (t : RangeTemplate) (time : Instant) (k : Nat) (late replay : Bool) (b : List Byte) : (State.forwardPacket s n t time k late replay b).clusters = s.clusters := by
  unfold State.forwardPacket
  simp

@[simp] theorem State.noMatch_clusters (s : State) (mac : Nat) : (State.noMatch s mac).clusters = s.clusters := by
  unfold State.noMatch
  simp

@[simp] theorem State.takeRangePacket_clusters (s : State) (mac n : Nat) (t : RangeTemplate) (x : Stamp) (time : Instant) (k : Nat) (replay : Bool) (b : List Byte) : (State.takeRangePacket s mac n t x time k replay b).clusters = s.clusters := by
  unfold State.takeRangePacket
  simp [foldl_clusters, ite_clusters]

@[simp] theorem State.rangePacket_clusters (s : State) (mac : Nat) : (State.rangePacket s mac).clusters = s.clusters := by
  unfold State.rangePacket
  simp
  (repeat' split) <;> simp

@[simp] theorem State.nextReplay_clusters (s : State) (mac : Nat) : (State.nextReplay s mac).clusters = s.clusters := by
  unfold State.nextReplay
  simp

@[simp] theorem State.replayInject_clusters (s : State) (mac : Nat) (r : ReplayRing) : (State.replayInject s mac r).clusters = s.clusters := by
  unfold State.replayInject
  simp [foldl_clusters, ite_clusters]

@[simp] theorem State.closeMac_clusters (k : Nat) (s : State) (mac : Nat) : (State.closeMac k s mac).clusters = s.clusters := by
  unfold State.closeMac
  simp [foldl_clusters, ite_clusters]

@[simp] theorem State.cleanUnits_clusters (s : State) (p : Nat → Bool) : (State.cleanUnits s p).clusters = s.clusters := by
  unfold State.cleanUnits
  simp

@[simp] theorem State.cleanRow_clusters (s : State) (a : Nat) : (State.cleanRow s a).clusters = s.clusters := by
  unfold State.cleanRow
  simp

@[simp] theorem State.cleanBank_clusters (s : State) (a : Nat) : (State.cleanBank s a).clusters = s.clusters := by
  unfold State.cleanBank
  simp

@[simp] theorem State.repairTileRow_clusters (s : State) (a t : Nat) : (State.repairTileRow s a t).clusters = s.clusters := by
  unfold State.repairTileRow
  simp [foldl_clusters, ite_clusters]

@[simp] theorem State.loseRegion_clusters (s : State) (g : Nat) : (State.loseRegion s g).clusters = s.clusters := by
  unfold State.loseRegion
  split <;> simp

@[simp] theorem State.repairPeatRow_clusters (s : State) (a d : Nat) : (State.repairPeatRow s a d).clusters = s.clusters := by
  unfold State.repairPeatRow
  simp [foldl_clusters, ite_clusters]

@[simp] theorem State.repairRow_clusters (s : State) (a : Nat) : (State.repairRow s a).clusters = s.clusters := by
  unfold State.repairRow
  split <;> simp

@[simp] theorem State.scrubStep_clusters (s : State) (m a : Nat) (fresh : Bool) : (State.scrubStep s m a fresh).clusters = s.clusters := by
  unfold State.scrubStep
  split <;> simp

@[simp] theorem State.scrubFixed_clusters (s : State) (m u errors : Nat) : (State.scrubFixed s m u errors).clusters = s.clusters := by
  unfold State.scrubFixed
  simp [foldl_clusters, ite_clusters]

@[simp] theorem State.scrubUnit_clusters (s : State) (m : Nat) (testFails : Bool) (u size : Nat) : (State.scrubUnit s m testFails u size).clusters = s.clusters := by
  unfold State.scrubUnit
  (repeat' split) <;> simp

@[simp] theorem State.scrubTest_clusters (s : State) (a : Nat) (testFails : Bool) : (State.scrubTest s a testFails).clusters = s.clusters := by
  unfold State.scrubTest
  simp
  (repeat' split) <;> simp

@[simp] theorem State.logComponent_clusters (s : State) (comp version secVersion imageId : Nat) : (State.logComponent s comp version secVersion imageId).clusters = s.clusters := by
  unfold State.logComponent
  simp

@[simp] theorem State.logFirmware_clusters (s : State) (comp : Nat) (f : Firmware) : (State.logFirmware s comp f).clusters = s.clusters := by
  unfold State.logFirmware
  simp

@[simp] theorem State.logImage_clusters (s : State) (i : Image) : (State.logImage s i).clusters = s.clusters := by
  unfold State.logImage
  simp

@[simp] theorem State.postPackage_clusters (s : State) (e : RepairEntry) : (State.postPackage s e).clusters = s.clusters := by
  unfold State.postPackage
  split <;> simp

@[simp] theorem State.applyRepair_clusters (s : State) (e : RepairEntry) : (State.applyRepair s e).clusters = s.clusters := by
  unfold State.applyRepair
  split <;> simp

@[simp] theorem State.markPermanent_clusters (s : State) : (State.markPermanent s).clusters = s.clusters := by
  unfold State.markPermanent
  simp [foldl_clusters, ite_clusters]

@[simp] theorem State.applyRepairs_clusters (s : State) : (State.applyRepairs s).clusters = s.clusters := by
  unfold State.applyRepairs
  simp [foldl_clusters, ite_clusters]

@[simp] theorem State.startBist_clusters (s : State) : (State.startBist s).1.clusters = s.clusters := by
  unfold State.startBist
  simp [foldl_clusters, ite_clusters]

@[simp] theorem State.trainChannel_clusters (s : State) (c : Nat) : (State.trainChannel s c).clusters = s.clusters := by
  unfold State.trainChannel
  simp

@[simp] theorem State.trainAll_clusters (s : State) : (State.trainAll s).clusters = s.clusters := by
  unfold State.trainAll
  simp [foldl_clusters, ite_clusters]

@[simp] theorem State.restoreSettings_clusters (s : State) (fmt : Nat) : (State.restoreSettings s fmt).clusters = s.clusters := by
  unfold State.restoreSettings
  simp only []
  (repeat' split) <;> simp only [State.raise_clusters, State.updTb_clusters] <;>
    rw [foldl_clusters _ _ _ (fun s x => by simp), foldl_clusters _ _ _ (fun s x => by simp)] <;> simp

@[simp] theorem State.imgVerdict_clusters (s : State) (v : Verdict) : (State.imgVerdict s v).clusters = s.clusters := by
  unfold State.imgVerdict
  simp

@[simp] theorem State.imgPassed_clusters (s : State) : (State.imgPassed s).clusters = s.clusters := by
  unfold State.imgPassed
  simp

@[simp] theorem State.liftClocks_clusters (s : State) : (State.liftClocks s).clusters = s.clusters := by
  unfold State.liftClocks
  apply foldl_clusters
  intros
  simp

@[simp] theorem State.zeroCarves_clusters (s : State) : (State.zeroCarves s).clusters = s.clusters := by
  unfold State.zeroCarves
  simp [foldl_clusters, ite_clusters]

@[simp] theorem State.startControllers_clusters (s : State) (f : Firmware) : (State.startControllers s f).clusters = s.clusters := by
  unfold State.startControllers
  simp [foldl_clusters, ite_clusters]

@[simp] theorem State.activateImage_clusters (s : State) (i : Image) (slot fallback : Bool) (die : Firmware) : (State.activateImage s i slot fallback die).clusters = s.clusters := by
  unfold State.activateImage
  simp [foldl_clusters, ite_clusters]

@[simp] theorem State.startImage_clusters (s : State) (die : Firmware) : (State.startImage s die).clusters = s.clusters := by
  unfold State.startImage
  simp
  (repeat' split) <;> simp

@[simp] theorem State.bootFailure_clusters (s : State) (status : Nat) : (State.bootFailure s status).clusters = s.clusters := by
  unfold State.bootFailure
  simp

@[simp] theorem State.finishBoot_clusters (s : State) : (State.finishBoot s).clusters = s.clusters := by
  unfold State.finishBoot
  simp
  (repeat' split) <;> simp

@[simp] theorem State.enablePower_clusters (s : State) (d : Nat) : (State.enablePower s d).clusters = s.clusters := by
  unfold State.enablePower
  simp

@[simp] theorem State.nextDie_clusters (s : State) (d : Nat) : (State.nextDie s d).clusters = s.clusters := by
  unfold State.nextDie
  split <;> simp

@[simp] theorem State.startTime_clusters (s : State) : (State.startTime s).clusters = s.clusters := by
  unfold State.startTime
  simp [foldl_clusters, ite_clusters]

@[simp] theorem State.bootRom_clusters (s : State) : (State.bootRom s).clusters = s.clusters := by
  unfold State.bootRom
  (repeat' split) <;> simp

@[simp] theorem State.gateQ48_clusters (s : State) : (State.gateQ48 s).clusters = s.clusters := by
  unfold State.gateQ48
  (repeat' split) <;> simp [foldl_clusters, ite_clusters]

@[simp] theorem State.porRelease_clusters (s : State) (testEnLow bistOk : Bool) (fitted : List (Nat × List Nat)) : (State.porRelease s testEnLow bistOk fitted).clusters = s.clusters := by
  unfold State.porRelease
  (repeat' split) <;> simp

@[simp] theorem State.pgoodRise_clusters (s : State) (d : Nat) : (State.pgoodRise s d).clusters = s.clusters := by
  unfold State.pgoodRise
  (repeat' split) <;> simp

@[simp] theorem State.leaveOff_clusters (s : State) (d : Nat) : (State.leaveOff s d).clusters = s.clusters := by
  unfold State.leaveOff
  simp

@[simp] theorem State.pgoodTimeout_clusters (s : State) (d : Nat) : (State.pgoodTimeout s d).clusters = s.clusters := by
  unfold State.pgoodTimeout
  (repeat' split) <;> simp

@[simp] theorem State.portOff_clusters (s : State) (d : Nat) : (State.portOff s d).clusters = s.clusters := by
  unfold State.portOff
  split <;> simp

@[simp] theorem State.powerLost_clusters (s : State) (d : Nat) : (State.powerLost s d).clusters = s.clusters := by
  unfold State.powerLost
  simp
  (repeat' split) <;> simp

@[simp] theorem State.sampleDie_clusters (s : State) (d : Nat) (m : SMap SensSt) : (State.sampleDie s d m).clusters = s.clusters := by
  unfold State.sampleDie
  simp

@[simp] theorem State.writeIocfg_clusters (s : State) (t w : Nat) : (State.writeIocfg s t w).clusters = s.clusters := by
  unfold State.writeIocfg
  (repeat' split) <;> simp

@[simp] theorem State.notProven_clusters (s : State) (m : Nat) : (State.notProven s m).clusters = s.clusters := by
  unfold State.notProven
  simp

@[simp] theorem State.stagePregus_clusters (s : State) : (State.stagePregus s).clusters = s.clusters := by
  unfold State.stagePregus
  (repeat' split) <;> simp

@[simp] theorem State.stageDie_clusters (s : State) (d : Nat) (selfTestOk : Bool) : (State.stageDie s d selfTestOk).clusters = s.clusters := by
  unfold State.stageDie
  simp
  (repeat' split) <;> simp

@[simp] theorem State.stageImage_clusters (s : State) : (State.stageImage s).clusters = s.clusters := by
  unfold State.stageImage
  simp
  (repeat' split) <;> simp

@[simp] theorem State.stageRegion_clusters (s : State) (g : Nat) : (State.stageRegion s g).clusters = s.clusters := by
  unfold State.stageRegion
  simp [foldl_clusters, ite_clusters]

@[simp] theorem State.unstage_clusters (s : State) : (State.unstage s).clusters = s.clusters := by
  unfold State.unstage
  simp

@[simp] theorem State.saveSettings_clusters (s : State) : (State.saveSettings s).clusters = s.clusters := by
  unfold State.saveSettings
  simp

@[simp] theorem State.secEnd_clusters (s : State) (status : Nat) : (State.secEnd s status).clusters = s.clusters := by
  unfold State.secEnd
  simp

@[simp] theorem State.updKey_clusters (s : State) (k : Nat) (f : KeySlot → KeySlot) : (State.updKey s k f).clusters = s.clusters := by
  unfold State.updKey
  simp

@[simp] theorem State.provisionAct_clusters (s : State) (c : Provision) : (State.provisionAct s c).1.clusters = s.clusters := by
  unfold State.provisionAct
  (repeat' split) <;> simp

@[simp] theorem State.provision_clusters (s : State) (c : Provision) (signer : Nat) (message signature : List Byte) : (State.provision s c signer message signature).clusters = s.clusters := by
  unfold State.provision
  (repeat' split) <;> simp

@[simp] theorem State.setCounter_clusters (s : State) (comp v : Nat) : (State.setCounter s comp v).clusters = s.clusters := by
  unfold State.setCounter
  simp

@[simp] theorem State.logRatchet_clusters (s : State) (comp : Nat) : (State.logRatchet s comp).clusters = s.clusters := by
  unfold State.logRatchet
  split <;> simp

@[simp] theorem State.ratchet_clusters (s : State) (comp : Nat) : (State.ratchet s comp).clusters = s.clusters := by
  unfold State.ratchet
  simp [foldl_clusters, ite_clusters]

@[simp] theorem State.attest_clusters (s : State) : (State.attest s).clusters = s.clusters := by
  unfold State.attest
  simp [foldl_clusters, ite_clusters]

@[simp] theorem State.readToken_clusters (s : State) : (State.readToken s).1.clusters = s.clusters := by
  unfold State.readToken
  simp

@[simp] theorem State.unlock_clusters (s : State) : (State.unlock s).clusters = s.clusters := by
  unfold State.unlock
  simp [foldl_clusters, ite_clusters]

@[simp] theorem State.uciStatus_clusters (s : State) (status : Nat) : (State.uciStatus s status).clusters = s.clusters := by
  unfold State.uciStatus
  simp

@[simp] theorem State.abortRead_clusters (s : State) (kind status : Nat) : (State.abortRead s kind status).clusters = s.clusters := by
  unfold State.abortRead
  simp

@[simp] theorem State.dropWrite_clusters (s : State) (status : Nat) : (State.dropWrite s status).clusters = s.clusters := by
  unfold State.dropWrite
  simp

@[simp] theorem State.answerBytes_clusters (s : State) (bs : List Byte) : (State.answerBytes s bs).clusters = s.clusters := by
  unfold State.answerBytes
  simp

@[simp] theorem State.notePoison_clusters (s : State) : (State.notePoison s).clusters = s.clusters := by
  unfold State.notePoison
  simp

@[simp] theorem State.flashOpen_clusters (s : State) (k : Nat) : (State.flashOpen s k).clusters = s.clusters := by
  unfold State.flashOpen
  (repeat' split) <;> simp

@[simp] theorem State.flashClose_clusters (s : State) : (State.flashClose s).clusters = s.clusters := by
  unfold State.flashClose
  split <;> simp

@[simp] theorem State.eraseSectors_clusters (s : State) (x1 : List Nat) : (State.eraseSectors s x1).clusters = s.clusters := by
  induction x1 generalizing s with
  | nil => rfl
  | cons e l ih => unfold State.eraseSectors; (repeat' split) <;> simp_all

@[simp] theorem State.flashWrite_clusters (s : State) (off : Nat) (bs : List Byte) : (State.flashWrite s off bs).clusters = s.clusters := by
  unfold State.flashWrite
  simp [foldl_clusters, ite_clusters]

@[simp] theorem State.hostRead_clusters (s : State) (a n : Nat) : (State.hostRead s a n).clusters = s.clusters := by
  unfold State.hostRead
  simp [foldl_clusters, ite_clusters]

@[simp] theorem State.hostWrite_clusters (s : State) (a : Nat) (bs : List Byte) : (State.hostWrite s a bs).clusters = s.clusters := by
  unfold State.hostWrite
  simp [foldl_clusters, ite_clusters]

@[simp] theorem State.hostMemoryRead_clusters (s : State) (o n : Nat) (poisoned : Bool) : (State.hostMemoryRead s o n poisoned).clusters = s.clusters := by
  unfold State.hostMemoryRead
  (repeat' split) <;> simp

@[simp] theorem State.hostMemoryWrite_clusters (s : State) (o : Nat) (bs : List Byte) (poisoned : Bool) : (State.hostMemoryWrite s o bs poisoned).clusters = s.clusters := by
  unfold State.hostMemoryWrite
  (repeat' split) <;> simp

@[simp] theorem State.evtRead_clusters (s : State) : (State.evtRead s).clusters = s.clusters := by
  unfold State.evtRead
  simp

@[simp] theorem State.configReset_clusters (s : State) : (State.configReset s).clusters = s.clusters := by
  unfold State.configReset
  simp

@[simp] theorem State.linkState_clusters (s : State) (rate mods : Nat) (lost : List Nat) (dropped : Bool) (status : Nat) : (State.linkState s rate mods lost dropped status).clusters = s.clusters := by
  unfold State.linkState
  simp [foldl_clusters, ite_clusters]

@[simp] theorem State.ucieTrained_clusters (s : State) (m0Up m0X8 m1Up m1X8 : Bool) (rate : Nat) : (State.ucieTrained s m0Up m0X8 m1Up m1X8 rate).clusters = s.clusters := by
  unfold State.ucieTrained
  split <;> simp

@[simp] theorem State.moduleDown_clusters (s : State) (m : Nat) (retrained x8 : Bool) (rate : Nat) : (State.moduleDown s m retrained x8 rate).clusters = s.clusters := by
  unfold State.moduleDown
  simp [foldl_clusters, ite_clusters]

@[simp] theorem State.portTrained_clusters (s : State) (p : Nat) (trained fourLanes : Bool) : (State.portTrained s p trained fourLanes).clusters = s.clusters := by
  unfold State.portTrained
  (repeat' split) <;> simp

@[simp] theorem State.acknowledge_clusters (s : State) (p : Nat) (k : Packet) (code : Nat) : (State.acknowledge s p k code).clusters = s.clusters := by
  unfold State.acknowledge
  simp

@[simp] theorem State.passOn_clusters (s : State) (p o : Nat) (k : Packet) : (State.passOn s p o k).clusters = s.clusters := by
  unfold State.passOn
  simp

@[simp] theorem State.arriveData_clusters (s0 : State) (p : Nat) (k : Packet) : (State.arriveData s0 p k).clusters = s0.clusters := by
  unfold State.arriveData
  simp
  (repeat' split) <;> simp

@[simp] theorem State.arriveMgmt_clusters (s : State) (p : Nat) (k : Packet) : (State.arriveMgmt s p k).clusters = s.clusters := by
  unfold State.arriveMgmt
  (repeat' split) <;> simp

@[simp] theorem State.arrivePacket_clusters (s : State) (p : Nat) (k : Packet) : (State.arrivePacket s p k).clusters = s.clusters := by
  unfold State.arrivePacket
  split <;> simp

@[simp] theorem State.payloadFlit_clusters (s : State) (p : Nat) (h : Nat) (f : List Byte) : (State.payloadFlit s p h f).clusters = s.clusters := by
  unfold State.payloadFlit
  simp
  (repeat' split) <;> simp

@[simp] theorem State.flitReceive_clusters (s : State) (p : Nat) (f : List Byte) : (State.flitReceive s p f).clusters = s.clusters := by
  unfold State.flitReceive
  simp [foldl_clusters, ite_clusters]

@[simp] theorem State.retrains_clusters (s : State) (p : Nat) (x1 : Nat) : (State.retrains s p x1).clusters = s.clusters := by
  induction x1 generalizing s p <;> simp_all [State.retrains]

@[simp] theorem State.replayTimeout_clusters (s : State) (p failed : Nat) : (State.replayTimeout s p failed).clusters = s.clusters := by
  unfold State.replayTimeout
  simp [foldl_clusters, ite_clusters]

@[simp] theorem State.keepMessage_clusters (s : State) (was : Option RemoteMsg) (k : Packet) (m : RemoteMsg) : (State.keepMessage s was k m).clusters = s.clusters := by
  unfold State.keepMessage
  simp

@[simp] theorem State.undoMessage_clusters (s : State) (m : RemoteMsg) : (State.undoMessage s m).clusters = s.clusters := by
  unfold State.undoMessage
  simp [foldl_clusters, ite_clusters]

@[simp] theorem State.writePacket_clusters (s : State) (p : Nat) (k : Packet) : (State.writePacket s p k).clusters = s.clusters := by
  unfold State.writePacket
  simp
  (repeat' split) <;> simp

@[simp] theorem State.ackPacketIn_clusters (s : State) (k : Packet) : (State.ackPacketIn s k).clusters = s.clusters := by
  unfold State.ackPacketIn
  simp
  (repeat' split) <;> simp

@[simp] theorem State.setChipMsg_clusters (s : State) (m : Mgmt) : (State.setChipMsg s m).1.clusters = s.clusters := by
  unfold State.setChipMsg
  simp
  (repeat' split) <;> simp

@[simp] theorem State.setRouteMsg_clusters (s : State) (m : Mgmt) : (State.setRouteMsg s m).1.clusters = s.clusters := by
  unfold State.setRouteMsg
  split <;> simp

@[simp] theorem State.timeMsg_clusters (s : State) (p : Nat) : (State.timeMsg s p).clusters = s.clusters := by
  unfold State.timeMsg
  split <;> simp

@[simp] theorem State.handleMgmt_clusters (s : State) (die : Nat) (b : List Byte) : (State.handleMgmt s die b).clusters = s.clusters := by
  unfold State.handleMgmt
  simp
  (repeat' split) <;> simp

@[simp] theorem State.takeMgmt_clusters (s : State) (p type : Nat) : (State.takeMgmt s p type).clusters = s.clusters := by
  unfold State.takeMgmt
  (repeat' split) <;> simp

@[simp] theorem State.timeExchange_clusters (s : State) (p : Nat) (offset : Int) : (State.timeExchange s p offset).clusters = s.clusters := by
  unfold State.timeExchange
  split <;> simp

@[simp] theorem State.refuseMsg_clusters (s : State) : (State.refuseMsg s).clusters = s.clusters := by
  unfold State.refuseMsg
  simp

@[simp] theorem State.mbSend_clusters (s : State) (w : Word) : (State.mbSend s w).clusters = s.clusters := by
  unfold State.mbSend
  simp [foldl_clusters, ite_clusters]

@[simp] theorem State.mbRead_clusters (s : State) : (State.mbRead s).clusters = s.clusters := by
  unfold State.mbRead
  simp

@[simp] theorem State.writeRng_clusters (s : State) (g : Nat) (f : RegionSt → RegionSt) : (State.writeRng s g f).clusters = s.clusters := by
  unfold State.writeRng
  simp

@[simp] theorem State.writeDumpBase_clusters (s : State) (d i v : Nat) : (State.writeDumpBase s d i v).clusters = s.clusters := by
  unfold State.writeDumpBase
  (repeat' split) <;> simp

@[simp] theorem State.readList_clusters (s : State) (a n : Nat) : (State.readList s a n).1.clusters = s.clusters := by
  unfold State.readList
  simp
  (repeat' split) <;> simp

@[simp] theorem State.fetchList_clusters (s : State) : (State.fetchList s).1.clusters = s.clusters := by
  unfold State.fetchList
  simp
  (repeat' split) <;> simp

@[simp] theorem State.txnRefuse_clusters (s : State) (status : Nat) : (State.txnRefuse s status).clusters = s.clusters := by
  unfold State.txnRefuse
  simp

@[simp] theorem State.txnPlace_clusters (s : State) (id : Word) (l : List TxnEntry) : (State.txnPlace s id l).clusters = s.clusters := by
  unfold State.txnPlace
  simp
  (repeat' split) <;> simp

@[simp] theorem State.commit_clusters (s : State) : (State.commit s).clusters = s.clusters := by
  unfold State.commit
  simp
  (repeat' split) <;> simp

@[simp] theorem State.txnAbort_clusters (s : State) : (State.txnAbort s).clusters = s.clusters := by
  unfold State.txnAbort
  (repeat' split) <;> simp

@[simp] theorem State.txnVote_clusters (s : State) (d : Nat) : (State.txnVote s d).clusters = s.clusters := by
  unfold State.txnVote
  (repeat' split) <;> simp

@[simp] theorem State.txnDecide_clusters (s : State) : (State.txnDecide s).clusters = s.clusters := by
  unfold State.txnDecide
  simp
  (repeat' split) <;> simp

@[simp] theorem State.enterMode_clusters (s : State) (m out off : Nat) : (State.enterMode s m out off).clusters = s.clusters := by
  unfold State.enterMode
  simp [foldl_clusters, ite_clusters]

@[simp] theorem State.renewQueues_clusters (s : State) (a b : Image) : (State.renewQueues s a b).clusters = s.clusters := by
  unfold State.renewQueues
  apply foldl_clusters
  intros
  simp

@[simp] theorem State.switchImage_clusters (s : State) : (State.switchImage s).clusters = s.clusters := by
  unfold State.switchImage
  (repeat' split) <;> simp [foldl_clusters, ite_clusters]

@[simp] theorem State.switchPregus_clusters (s : State) : (State.switchPregus s).clusters = s.clusters := by
  unfold State.switchPregus
  simp

@[simp] theorem State.switchDies_clusters (s : State) (ds : List Nat) : (State.switchDies s ds).clusters = s.clusters := by
  unfold State.switchDies
  apply foldl_clusters
  intros
  simp

@[simp] theorem State.activate_clusters (s : State) (m : Nat) : (State.activate s m).clusters = s.clusters := by
  unfold State.activate
  simp [foldl_clusters, ite_clusters]

@[simp] theorem State.touchUnit_clusters (s : State) (u : RegUnit) : (State.touchUnit s u).clusters = s.clusters := by
  unfold State.touchUnit
  split <;> simp

@[simp] theorem State.txnMissed_clusters (s : State) (t : Txn) : (State.txnMissed s t).clusters = s.clusters := by
  unfold State.txnMissed
  simp [foldl_clusters, ite_clusters]

@[simp] theorem State.secAct_clusters (s : State) (v : Nat) : (State.secAct s v).clusters = s.clusters := by
  unfold State.secAct
  (repeat' split) <;> simp

@[simp] theorem State.writeBar2_clusters (s : State) (o w : Nat) : (State.writeBar2 s o w).clusters = s.clusters := by
  unfold State.writeBar2
  split <;> simp

@[simp] theorem State.readBar2_clusters (s : State) (o : Nat) : (State.readBar2 s o).clusters = s.clusters := by
  unfold State.readBar2
  split <;> simp

end Sys2Proof.Machine
end

