-- ==== Sys2Proof/Laws/FrameImage.lean ====
section
/-! SUPPORT. The operations of the model that leave the field image of the State as it is: one equation each. -/

namespace Sys2Proof.Machine

theorem foldl_image {α : Type} (g : State → α → State) (l : List α) (s : State) (h : ∀ s x, (g s x).image = s.image) :
    (l.foldl g s).image = s.image := by
  induction l generalizing s with
  | nil => rfl
  | cons x l ih => simp [ih, h]

theorem foldl_run_image {α : Type} (g : Run → α → Run) (l : List α) (r : Run) (h : ∀ r x, (g r x).st.image = r.st.image) :
    (l.foldl g r).st.image = r.st.image := by
  induction l generalizing r with
  | nil => rfl
  | cons x l ih => simp [ih, h]

theorem ite_image (c : Prop) [Decidable c] (a b : State) : (if c then a else b).image = if c then a.image else b.image := apply_ite _ _ _ _

@[simp] theorem State.msix_image (s : State) (v : Nat) : (State.msix s v).image = s.image := by
  unfold State.msix
  simp

@[simp] theorem State.log_image (s : State) (kind status unit : Nat) (detail : List Byte) : (State.log s kind status unit detail).image = s.image := by
  unfold State.log
  simp

@[simp] theorem State.driveSafe_image (s : State) : (State.driveSafe s).image = s.image := by
  unfold State.driveSafe
  simp

@[simp] theorem State.requestSafe_image (s : State) (sev : Nat) : (State.requestSafe s sev).image = s.image := by
  unfold State.requestSafe
  split <;> simp

@[simp] theorem State.noteCause_image (s : State) : (State.noteCause s).image = s.image := by
  unfold State.noteCause
  simp

@[simp] theorem State.fifo_image (s : State) (sev unit status : Nat) (stamp : Stamp) : (State.fifo s sev unit status stamp).image = s.image := by
  unfold State.fifo
  (repeat' split) <;> simp

@[simp] theorem State.draw_image (s : State) : (State.draw s).2.image = s.image := by
  unfold State.draw
  simp

@[simp] theorem State.zeroRange_image (s : State) (a n : Nat) : (State.zeroRange s a n).image = s.image := by
  unfold State.zeroRange
  simp

@[simp] theorem State.undirty_image (s : State) (a : Nat) : (State.undirty s a).image = s.image := by
  unfold State.undirty
  (repeat' split) <;> simp

@[simp] theorem State.flashPut_image (s : State) (off : Nat) (bs : List Byte) : (State.flashPut s off bs).image = s.image := by
  unfold State.flashPut
  simp

@[simp] theorem State.recordRepairs_image (s : State) (es : List RepairEntry) : (State.recordRepairs s es).image = s.image := by
  unfold State.recordRepairs
  simp [foldl_image, ite_image]

@[simp] theorem State.recordRepair_image (s : State) (e : RepairEntry) : (State.recordRepair s e).image = s.image := by
  unfold State.recordRepair
  simp

@[simp] theorem State.repairDramRow_image (s : State) (a d : Nat) : (State.repairDramRow s a d).image = s.image := by
  unfold State.repairDramRow
  simp [foldl_image, ite_image]

@[simp] theorem State.oweRowTest_image (s : State) (u : Nat) : (State.oweRowTest s u).image = s.image := by
  unfold State.oweRowTest
  simp

@[simp] theorem State.noteUncorrectable_image (s : State) (a : Nat) : (State.noteUncorrectable s a).1.image = s.image := by
  unfold State.noteUncorrectable
  split <;> simp

@[simp] theorem State.suspectOwner_image (s : State) (a d : Nat) : (State.suspectOwner s a d).image = s.image := by
  unfold State.suspectOwner
  (repeat' split) <;> simp

@[simp] theorem State.noteAddress_image (s : State) (a : Nat) : (State.noteAddress s a).image = s.image := by
  unfold State.noteAddress
  simp
  (repeat' split) <;> simp

@[simp] theorem State.noteCorrected_image (s : State) (a : Nat) : (State.noteCorrected s a).image = s.image := by
  unfold State.noteCorrected
  split <;> simp

@[simp] theorem State.linkTry_image (s : State) (u : Nat) : (State.linkTry s u).1.image = s.image := by
  unfold State.linkTry
  simp
  (repeat' split) <;> simp

@[simp] theorem State.fetchStored_image (s : State) (u size : Nat) : (State.fetchStored s u size).st.image = s.image := by
  unfold State.fetchStored
  simp
  (repeat' split) <;> simp

@[simp] theorem State.fetchUnit_image (s : State) (u size : Nat) : (State.fetchUnit s u size).st.image = s.image := by
  unfold State.fetchUnit
  simp
  (repeat' split) <;> simp

@[simp] theorem State.fetchPart_image (s : State) (first : Bool) (u size : Nat) : (State.fetchPart s first u size).st.image = s.image := by
  unfold State.fetchPart
  split <;> simp

@[simp] theorem State.fetchUnits_image (line : Option Nat) (x1 : List (Nat × Nat)) (r : Fetch) : (State.fetchUnits line x1 r).st.image = r.st.image := by
  induction x1 generalizing r line with
  | nil => rfl
  | cons e l ih =>
    unfold State.fetchUnits
    split
    · rfl
    · simp [ih]

@[simp] theorem State.fetch_image (s : State) (a n : Nat) : (State.fetch s a n).st.image = s.image := by
  unfold State.fetch
  simp

@[simp] theorem State.fetchAll_image (x1 : List (Nat × Nat)) (s : State) : (State.fetchAll x1 s).1.image = s.image := by
  induction x1 generalizing s <;> unfold State.fetchAll <;> (repeat' split) <;> simp_all <;> (repeat' split) <;> simp_all

@[simp] theorem State.storeUnit_image (s : State) (first : Bool) (u size a : Nat) (bs : List Byte) : (State.storeUnit s first u size a bs).1.image = s.image := by
  unfold State.storeUnit
  simp
  (repeat' split) <;> simp

@[simp] theorem State.storeUnits_image (stop : Bool) (a : Nat) (bs : List Byte) (line : Option (Nat × Bool)) (x1 : List (Nat × Nat)) (r : State × Nat) : (State.storeUnits stop a bs line x1 r).1.image = r.1.image := by
  induction x1 generalizing stop a bs line r with
  | nil => simp [State.storeUnits]
  | cons e l ih => simp [State.storeUnits]; (repeat' split) <;> simp [ih]

@[simp] theorem State.store_image (s : State) (a : Nat) (bs : List Byte) : (State.store s a bs).1.image = s.image := by
  unfold State.store
  simp

@[simp] theorem State.storeHost_image (s : State) (a : Nat) (bs : List Byte) : (State.storeHost s a bs).1.image = s.image := by
  unfold State.storeHost
  simp

@[simp] theorem State.put_image (s : State) (a : Nat) (bs : List Byte) : (State.put s a bs).image = s.image := by
  unfold State.put
  simp

@[simp] theorem State.readOpen_image (s : State) (a n : Nat) : (State.readOpen s a n).1.image = s.image := by
  unfold State.readOpen
  split <;> simp

@[simp] theorem State.dropAt_image (s : State) (d : Nat) : (State.dropAt s d).image = s.image := by
  unfold State.dropAt
  simp

@[simp] theorem State.signalLocal_image (s : State) (outstanding : Bool) (ref add : Nat) : (State.signalLocal s outstanding ref add).image = s.image := by
  unfold State.signalLocal
  simp [foldl_image, ite_image]

@[simp] theorem State.setObject_image (s : State) (ref value : Nat) : (State.setObject s ref value).image = s.image := by
  unfold State.setObject
  simp [foldl_image, ite_image]

@[simp] theorem State.storeParts_image (a : Nat) (x1 : List (Nat × List Byte)) (s : State) : (State.storeParts a x1 s).1.image = s.image := by
  induction x1 generalizing a s with
  | nil => simp [State.storeParts]
  | cons e l ih => simp [State.storeParts]; (repeat' split) <;> simp [ih]

@[simp] theorem State.deliver_image (s : State) (t : Nat) (m : Message) : (State.deliver s t m).1.image = s.image := by
  unfold State.deliver
  simp
  (repeat' split) <;> simp

@[simp] theorem State.failInFlight_image (s : State) (q pos status : Nat) : (State.failInFlight s q pos status).image = s.image := by
  unfold State.failInFlight
  simp

@[simp] theorem State.ackDropped_image (s : State) (q pos : Nat) : (State.ackDropped s q pos).image = s.image := by
  unfold State.ackDropped
  simp

@[simp] theorem State.ackInFlight_image (s : State) (q pos : Nat) : (State.ackInFlight s q pos).image = s.image := by
  unfold State.ackInFlight
  simp

@[simp] theorem State.queueAt_image (s : State) (p : Nat) (k : Packet) : (State.queueAt s p k).image = s.image := by
  unfold State.queueAt
  simp

@[simp] theorem State.dropPacket_image (s : State) (die : Nat) : (State.dropPacket s die).image = s.image := by
  unfold State.dropPacket
  simp

@[simp] theorem State.lostRequest_image (s : State) (die : Nat) : (State.lostRequest s die).image = s.image := by
  unfold State.lostRequest
  simp

@[simp] theorem State.sendData_image (s : State) (die : Nat) (k : Packet) (req : Option (Nat × Nat)) : (State.sendData s die k req).1.image = s.image := by
  unfold State.sendData
  (repeat' split) <;> simp

@[simp] theorem State.sendRequest_image (s : State) (die : Nat) (k : Packet) (q pos : Nat) : (State.sendRequest s die k q pos).1.image = s.image := by
  unfold State.sendRequest
  simp

@[simp] theorem State.toMailbox_image (s : State) (b : List Byte) : (State.toMailbox s b).image = s.image := by
  unfold State.toMailbox
  split <;> simp

@[simp] theorem State.mgmtThrough_image (s : State) (p dst vl : Nat) (b : List Byte) : (State.mgmtThrough s p dst vl b).image = s.image := by
  unfold State.mgmtThrough
  split <;> simp

@[simp] theorem State.stampMgmt_image (s : State) (m : Mgmt) : (State.stampMgmt s m).1.image = s.image := by
  unfold State.stampMgmt
  simp

@[simp] theorem State.mgmtOnward_image (s : State) (die vl : Nat) (m : Mgmt) : (State.mgmtOnward s die vl m).image = s.image := by
  unfold State.mgmtOnward
  (repeat' split) <;> simp

@[simp] theorem State.sendHello_image (s : State) (p : Nat) : (State.sendHello s p).image = s.image := by
  unfold State.sendHello
  simp

@[simp] theorem State.sendLinkDown_image (s : State) (p : Nat) : (State.sendLinkDown s p).image = s.image := by
  unfold State.sendLinkDown
  simp [foldl_image, ite_image]

@[simp] theorem State.sendMgmt_image (s : State) (die : Nat) (m : Mgmt) : (State.sendMgmt s die m).image = s.image := by
  unfold State.sendMgmt
  split <;> simp

@[simp] theorem State.sendAck_image (s : State) (die dest status : Nat) : (State.sendAck s die dest status).image = s.image := by
  unfold State.sendAck
  split <;> simp

@[simp] theorem State.answerBack_image (s : State) (p : Nat) (k : Packet) (code : Nat) : (State.answerBack s p k code).image = s.image := by
  unfold State.answerBack
  split <;> simp

@[simp] theorem State.loseOutstanding_image (s : State) (p : Nat) (x1 : List (Nat × Nat × Nat)) : (State.loseOutstanding s p x1).image = s.image := by
  induction x1 generalizing s p with
  | nil => rfl
  | cons e l ih => simp [State.loseOutstanding, ih]

@[simp] theorem State.loseTransit_image (s : State) (p : Nat) (l : List (Nat × Packet)) : (State.loseTransit s p l).image = s.image := by
  unfold State.loseTransit
  simp [foldl_image, ite_image]

@[simp] theorem State.downPort_image (s : State) (p : Nat) : (State.downPort s p).image = s.image := by
  unfold State.downPort
  simp

@[simp] theorem State.retrainPort_image (s : State) (p : Nat) : (State.retrainPort s p).image = s.image := by
  unfold State.retrainPort
  simp

@[simp] theorem State.replayPort_image (s : State) (p : Nat) : (State.replayPort s p).image = s.image := by
  unfold State.replayPort
  simp [foldl_image, ite_image]

@[simp] theorem State.cmdFetch_image (s : State) (c : Ctx) (a n : Nat) : (State.cmdFetch s c a n).st.image = s.image := by
  unfold State.cmdFetch
  split <;> simp

@[simp] theorem checkHeader_image (s : State) (c : Ctx) (t : Tensor) (applies : Bool) : (checkHeader s c t applies).1.image = s.image := by
  unfold checkHeader
  simp
  (repeat' split) <;> simp

@[simp] theorem fetchTensor_image (s : State) (c : Ctx) (u : Use) (a : Nat) : (fetchTensor s c u a).1.image = s.image := by
  unfold fetchTensor
  (repeat' split) <;> simp

@[simp] theorem randomChecks_image (s : State) (c : Ctx) (x : Opnds) : (randomChecks s c x).1.image = s.image := by
  unfold randomChecks
  simp
  (repeat' split) <;> simp

@[simp] theorem startChecks_image (s : State) (c : Ctx) (o : Op) (x : Opnds) : (startChecks s c o x).1.image = s.image := by
  unfold startChecks
  simp

@[simp] theorem operandHeader_image (s : State) (c : Ctx) (o : Op) (t : Option Tensor) (applies : Tensor → Bool) : (operandHeader s c o t applies).1.image = s.image := by
  unfold operandHeader
  (repeat' split) <;> simp

@[simp] theorem decodeCmd_image (s : State) (c : Ctx) (engine p a : Nat) : (decodeCmd s c engine p a).st.image = s.image := by
  unfold decodeCmd
  lift_lets
  intro f d fl
  have hf : f.st.image = s.image := by simp [f]
  clear_value f
  split
  · exact hf
  · split
    · exact hf
    · lift_lets
      intro us r0 r1 rd
      have h0 : r0.1.image = s.image := by simp [r0, hf]
      have h1 : r1.1.image = s.image := by simp [r1, h0]
      have h2 : rd.1.image = s.image := by simp [rd, h1]
      clear_value r0 r1 rd
      intro v x a0 a1 ad
      have h3 : ad.1.image = s.image := by simp [ad, a1, a0, h2]
      clear_value a0 a1 ad x v
      intro codes
      clear_value codes
      intro st
      have h4 : st.1.image = s.image := by simp [st, h3]
      (repeat' split) <;> assumption

@[simp] theorem Run.readUnits_image (x1 : List (Nat × Nat)) (r : Run) : (Run.readUnits x1 r).st.image = r.st.image := by
  induction x1 generalizing r <;> unfold Run.readUnits <;> (repeat' split) <;> simp_all <;> (repeat' split) <;> simp_all

@[simp] theorem Run.read_image (c : Ctx) (a n : Nat) (r : Run) : (Run.read c a n r).st.image = r.st.image := by
  unfold Run.read
  (repeat' split) <;> simp

@[simp] theorem Run.readScales_image (c : Ctx) (h : ScaleHdr) (x1 : List Nat) (r : Run) : (Run.readScales c h x1 r).st.image = r.st.image := by
  induction x1 generalizing r <;> unfold Run.readScales <;> (repeat' split) <;> simp_all <;> (repeat' split) <;> simp_all

@[simp] theorem State.tagMismatch_image (s : State) (c : Ctx) (fl : InFlight) (opnd j dtag stag : Nat) : (State.tagMismatch s c fl opnd j dtag stag).image = s.image := by
  unfold State.tagMismatch
  simp

@[simp] theorem Run.consume_image (c : Ctx) (fl : InFlight) (opnd : Nat) (t : Tensor) (h : ScaleHdr) (j : Nat) (r : Run) : (Run.consume c fl opnd t h j r).st.image = r.st.image := by
  unfold Run.consume
  simp
  (repeat' split) <;> simp

@[simp] theorem Run.elems_image (c : Ctx) (fl : InFlight) (consumes : Bool) (opnd lo n : Nat) (r : Run) :
    (r.elems c fl consumes opnd lo n).st.image = r.st.image := by
  unfold Run.elems
  split
  · rfl
  · lift_lets
    intro r1 a len r2
    have h1 : r1.st.image = r.st.image := by
      simp only [r1]
      split
      · exact foldl_run_image _ _ _ (fun r x => Run.consume_image ..)
      · rfl
    have h2 : r2.st.image = r.st.image := by simp [r2, h1]
    split <;> exact h2

@[simp] theorem Run.step_image (c : Ctx) (fl : InFlight) (consumes : Bool) (r : Run) (x1 : PlanStep) : (Run.step c fl consumes r x1).st.image = r.st.image := by
  unfold Run.step
  (repeat' split) <;> simp

@[simp] theorem Run.plan_image (c : Ctx) (fl : InFlight) (consumes : Bool) (p : List PlanStep) (r : Run) : (Run.plan c fl consumes p r).st.image = r.st.image := by
  unfold Run.plan
  simp [foldl_run_image]

@[simp] theorem State.storeMerged_image (t : Tensor) (x1 : List (Row × Nat)) (s : State) (x3 : Nat) : (State.storeMerged t x1 s x3).1.image = s.image := by
  induction x1 generalizing t s x3 with
  | nil => simp [State.storeMerged]
  | cons e l ih => simp [State.storeMerged]; (repeat' split) <;> simp [ih]

@[simp] theorem State.storeRows_image (t : Tensor) (rows : List Row) (s : State) : (State.storeRows t rows s).1.image = s.image := by
  unfold State.storeRows
  simp

@[simp] theorem State.undoWrites_image (s before : State) : (State.undoWrites s before).image = s.image := by
  unfold State.undoWrites
  simp

@[simp] theorem State.storeGroups_image (exact : Bool) (t : Tensor) (x1 : List (List Row)) (s : State) (x3 : Nat) : (State.storeGroups exact t x1 s x3).1.image = s.image := by
  induction x1 generalizing exact t s x3 with
  | nil => simp [State.storeGroups]
  | cons e l ih => simp [State.storeGroups]; (repeat' split) <;> simp [ih]

@[simp] theorem State.storeTrailer_image (c : Ctx) (t : Tensor) (h : ScaleHdr) (x1 : List Nat) (s : State) : (State.storeTrailer c t h x1 s).1.image = s.image := by
  induction x1 generalizing c t h s with
  | nil => simp [State.storeTrailer]
  | cons e l ih => simp [State.storeTrailer]; (repeat' split) <;> simp [ih]

@[simp] theorem freePrefix_image (exact : Bool) (s : State) (n : Nat) : (freePrefix exact s n).2.image = s.image := by
  unfold freePrefix
  split <;> simp

@[simp] theorem Run.finish_image (c : Ctx) (fl : InFlight) (rounds exact : Bool) (verdict : State → Nat) (e : Effect) (r : Run) : (Run.finish c fl rounds exact verdict e r).st.image = r.st.image := by
  unfold Run.finish
  simp
  (repeat' split) <;> simp

@[simp] theorem State.setCurrent_image (s : State) (q : Nat) (f : InFlight) : (State.setCurrent s q f).image = s.image := by
  unfold State.setCurrent
  simp

@[simp] theorem State.kindlingFail_image (s : State) (tile engine : Nat) : (State.kindlingFail s tile engine).image = s.image := by
  unfold State.kindlingFail
  simp

@[simp] theorem runEffect_image (consumes rounds exact : Bool) (verdict : State → Nat) (plan : List PlanStep) (e : Effect) (c : Ctx) (f : InFlight) (s : State) : (runEffect consumes rounds exact verdict plan e c f s).1.st.image = s.image := by
  unfold runEffect
  extract_lets r d w
  split <;> simp [r, d, w]

@[simp] theorem State.residueCheck_image (s : State) (tile : Nat) (bad : List Nat) : (State.residueCheck s tile bad).image = s.image := by
  unfold State.residueCheck
  split <;> simp

@[simp] theorem MeJob.settle_image (j : MeJob) (s s0 : State) (f : InFlight) (tile seen : Nat) (swaps : Bool) : (MeJob.settle j s s0 f tile seen swaps).image = s.image := by
  unfold MeJob.settle
  (repeat' split) <;> simp

@[simp] theorem runMe_image (o : Op) (verdict : State → Nat) (c : Ctx) (f : InFlight) (s : State) : (runMe o verdict c f s).1.image = s.image := by
  unfold runMe
  simp
  (repeat' split) <;> simp

@[simp] theorem runGslice_image (c : Ctx) (f : InFlight) (s : State) : (runGslice c f s).1.image = s.image := by
  unfold runGslice
  simp
  (repeat' split) <;> simp

@[simp] theorem State.countSwap_image (s : State) (q order : Nat) : (State.countSwap s q order).image = s.image := by
  unfold State.countSwap
  simp

@[simp] theorem State.shadowLoadSwap_image (s : State) (tile : Nat) : (State.shadowLoadSwap s tile).image = s.image := by
  unfold State.shadowLoadSwap
  (repeat' split) <;> simp

@[simp] theorem runVe_image (plan : List PlanStep) (e : Effect) (c : Ctx) (f : InFlight) (s : State) : (runVe plan e c f s).1.image = s.image := by
  unfold runVe
  simp

@[simp] theorem runBinary_image (c : Ctx) (f : InFlight) (s : State) : (runBinary c f s).1.image = s.image := by
  unfold runBinary
  split <;> simp

@[simp] theorem runUnary_image (c : Ctx) (f : InFlight) (s : State) : (runUnary c f s).1.image = s.image := by
  unfold runUnary
  split <;> simp

@[simp] theorem runCvt_image (c : Ctx) (f : InFlight) (s : State) : (runCvt c f s).1.image = s.image := by
  unfold runCvt
  split <;> simp

@[simp] theorem runReduce_image (c : Ctx) (f : InFlight) (s : State) : (runReduce c f s).1.image = s.image := by
  unfold runReduce
  split <;> simp

@[simp] theorem runPool_image (c : Ctx) (f : InFlight) (s : State) : (runPool c f s).1.image = s.image := by
  unfold runPool
  split <;> simp

@[simp] theorem runNorm_image (c : Ctx) (f : InFlight) (s : State) : (runNorm c f s).1.image = s.image := by
  unfold runNorm
  split <;> simp

@[simp] theorem runScatter_image (c : Ctx) (f : InFlight) (s : State) : (runScatter c f s).1.image = s.image := by
  unfold runScatter
  split <;> simp

@[simp] theorem State.storeAll_image (c : Ctx) (x1 : List SmWrite) (s : State) : (State.storeAll c x1 s).1.image = s.image := by
  induction x1 generalizing c s with
  | nil => simp [State.storeAll]
  | cons e l ih => simp [State.storeAll]; (repeat' split) <;> simp [ih]

@[simp] theorem State.softmaxReads_image (s : State) (c : Ctx) (f : InFlight) (a : Tensor) : (State.softmaxReads s c f a).st.image = s.image := by
  unfold State.softmaxReads
  simp
  (repeat' split) <;> simp

@[simp] theorem runSoftmax_image (c : Ctx) (f : InFlight) (s : State) : (runSoftmax c f s).1.image = s.image := by
  unfold runSoftmax
  simp
  (repeat' split) <;> simp

@[simp] theorem State.copyTrailer_image (c : Ctx) (a t : Tensor) (x1 : List Nat) (s : State) : (State.copyTrailer c a t x1 s).1.image = s.image := by
  induction x1 generalizing c a t s with
  | nil => simp [State.copyTrailer]
  | cons e l ih => simp [State.copyTrailer]; (repeat' split) <;> simp [ih]

@[simp] theorem runCopy_image (c : Ctx) (f : InFlight) (s : State) : (runCopy c f s).1.image = s.image := by
  unfold runCopy
  (repeat' split) <;> simp

@[simp] theorem runFill_image (c : Ctx) (f : InFlight) (s : State) : (runFill c f s).1.image = s.image := by
  unfold runFill
  split <;> simp

@[simp] theorem State.sendRequests_image (die q pos : Nat) (x1 : List Packet) (s : State) (x3 : Nat) : (State.sendRequests die q pos x1 s x3).1.image = s.image := by
  induction x1 generalizing s x3 <;> unfold State.sendRequests <;> (repeat' split) <;> simp_all <;> (repeat' split) <;> simp_all

@[simp] theorem sendRemote_image (c : Ctx) (f : InFlight) (a : Tensor) (s data : State) : (sendRemote c f a s data).1.image = s.image := by
  unfold sendRemote
  simp

@[simp] theorem sendLocal_image (c : Ctx) (f : InFlight) (a : Tensor) (s data : State) : (sendLocal c f a s data).1.image = s.image := by
  unfold sendLocal
  simp
  (repeat' split) <;> simp

@[simp] theorem runSend_image (c : Ctx) (f : InFlight) (s : State) : (runSend c f s).1.image = s.image := by
  unfold runSend
  simp
  (repeat' split) <;> simp

@[simp] theorem State.defineWindow_image (s : State) (f : InFlight) : (State.defineWindow s f).image = s.image := by
  unfold State.defineWindow
  simp

@[simp] theorem runPublish_image (c : Ctx) (f : InFlight) (s : State) : (runPublish c f s).1.image = s.image := by
  unfold runPublish
  simp
  (repeat' split) <;> simp

@[simp] theorem State.stageBytes_image (s : State) : (State.stageBytes s).image = s.image := by
  unfold State.stageBytes
  simp
  (repeat' split) <;> simp

@[simp] theorem State.stagingUpdate_image (s : State) : (State.stagingUpdate s).image = s.image := by
  unfold State.stagingUpdate
  (repeat' split) <;> simp

@[simp] theorem State.dropUpdates_image (s : State) (x1 : List StageUpdate) : (State.dropUpdates s x1).image = s.image := by
  induction x1 generalizing s with
  | nil => rfl
  | cons e l ih => simp [State.dropUpdates, ih]

@[simp] theorem State.loseStaging_image (s : State) : (State.loseStaging s).image = s.image := by
  unfold State.loseStaging
  simp

@[simp] theorem runSetsync_image (c : Ctx) (f : InFlight) (s : State) : (runSetsync c f s).1.image = s.image := by
  unfold runSetsync
  simp
  (repeat' split) <;> simp

@[simp] theorem State.doorbell_image (s : State) (q tail : Nat) : (State.doorbell s q tail).image = s.image := by
  unfold State.doorbell
  simp
  (repeat' split) <;> simp

@[simp] theorem State.hostDoorbell_image (s : State) (q value : Nat) : (State.hostDoorbell s q value).image = s.image := by
  unfold State.hostDoorbell
  split <;> simp

@[simp] theorem State.payZero_image (s : State) (tile : Nat) : (State.payZero s tile).image = s.image := by
  unfold State.payZero
  split <;> simp

@[simp] theorem State.takeHead_image (s : State) (a : QueueAlloc) (tile : Nat) : (State.takeHead s a tile).image = s.image := by
  unfold State.takeHead
  simp

@[simp] theorem State.commandStart_image (s : State) (q tile : Nat) : (State.commandStart s q tile).image = s.image := by
  unfold State.commandStart
  (repeat' split) <;> simp

@[simp] theorem State.meFlags_image (s : State) (q : Nat) (f : InFlight) : (State.meFlags s q f).image = s.image := by
  unfold State.meFlags
  (repeat' split) <;> simp

@[simp] theorem State.clearKindling_image (s : State) (f : InFlight) : (State.clearKindling s f).image = s.image := by
  unfold State.clearKindling
  split <;> simp

@[simp] theorem State.complete_image (s : State) (a : QueueAlloc) (f : InFlight) (cycles : Nat) : (State.complete s a f cycles).image = s.image := by
  unfold State.complete
  split <;> simp

@[simp] theorem State.refreshWaits_image (s : State) (c : Nat) (x1 : List QueueAlloc) : (State.refreshWaits s c x1).image = s.image := by
  induction x1 generalizing s c with
  | nil => rfl
  | cons e l ih => unfold State.refreshWaits; (repeat' split) <;> simp_all

@[simp] theorem State.syncApply_image (s : State) (c : Nat) : (State.syncApply s c).image = s.image := by
  unfold State.syncApply
  simp

@[simp] theorem State.applySignal_image (s : State) (outstanding : Bool) (ref add : Nat) : (State.applySignal s outstanding ref add).image = s.image := by
  unfold State.applySignal
  split <;> simp

@[simp] theorem State.messageArrive_image (s : State) (tile : Nat) : (State.messageArrive s tile).image = s.image := by
  unfold State.messageArrive
  simp
  (repeat' split) <;> simp

@[simp] theorem State.retireSignal_image (s : State) (q : Nat) (f : InFlight) : (State.retireSignal s q f).1.image = s.image := by
  unfold State.retireSignal
  simp
  (repeat' split) <;> simp

@[simp] theorem State.setOldest_image (s : State) (q : Nat) (f : InFlight) : (State.setOldest s q f).image = s.image := by
  unfold State.setOldest
  simp

@[simp] theorem State.retireEffect_image (s : State) (f : InFlight) : (State.retireEffect s f).image = s.image := by
  unfold State.retireEffect
  simp
  (repeat' split) <;> simp

@[simp] theorem State.commandRetire_image (s : State) (q cycles : Nat) : (State.commandRetire s q cycles).image = s.image := by
  unfold State.commandRetire
  simp
  (repeat' split) <;> simp

@[simp] theorem State.completeAll_image (s : State) (q status : Nat) (x1 : List InFlight) : (State.completeAll s q status x1).image = s.image := by
  induction x1 generalizing s q status with
  | nil => rfl
  | cons e l ih => unfold State.completeAll; (repeat' split) <;> simp_all

@[simp] theorem State.answerQueue_image (s : State) (q status : Nat) : (State.answerQueue s q status).image = s.image := by
  unfold State.answerQueue
  simp

@[simp] theorem State.updUnit_image (s : State) (k : UnitKind) (u : Nat) (f : UnitSt → UnitSt) : (State.updUnit s k u f).image = s.image := by
  unfold State.updUnit
  split <;> simp

@[simp] theorem State.setUnit_image (s : State) (k : UnitKind) (u : Nat) (st : UnitState) : (State.setUnit s k u st).image = s.image := by
  unfold State.setUnit
  simp

@[simp] theorem State.refreshMissing_image (s : State) : (State.refreshMissing s).image = s.image := by
  unfold State.refreshMissing
  simp [foldl_image, ite_image]

@[simp] theorem State.answerAllocs_image (s : State) (tiles : List Nat) (status : Nat) (x1 : List QueueAlloc) : (State.answerAllocs s tiles status x1).image = s.image := by
  induction x1 generalizing s tiles status with
  | nil => rfl
  | cons e l ih => unfold State.answerAllocs; (repeat' split) <;> simp_all

@[simp] theorem State.recallMessages_image (s : State) (cmds : List (Nat × Nat)) (x1 : List Nat) : (State.recallMessages s cmds x1).image = s.image := by
  induction x1 generalizing s cmds with
  | nil => rfl
  | cons e l ih => simp [State.recallMessages, ih]

@[simp] theorem State.discardMessages_image (s : State) (t : Nat) (x1 : List Message) : (State.discardMessages s t x1).image = s.image := by
  induction x1 generalizing s <;> unfold State.discardMessages <;> (repeat' split) <;> simp_all <;> (repeat' split) <;> simp_all

@[simp] theorem State.answerTiles_image (s : State) (tiles : List Nat) (status : Nat) : (State.answerTiles s tiles status).image = s.image := by
  unfold State.answerTiles
  simp [foldl_image, ite_image]

@[simp] theorem State.absorb_image (s : State) (k : UnitKind) (u : Nat) : (State.absorb s k u).image = s.image := by
  unfold State.absorb
  simp [foldl_image, ite_image]

@[simp] theorem State.stageFail_image (s : State) (unit status : Nat) : (State.stageFail s unit status).image = s.image := by
  unfold State.stageFail
  simp

@[simp] theorem State.failStage_image (s : State) (bitNo unit status : Nat) : (State.failStage s bitNo unit status).image = s.image := by
  unfold State.failStage
  simp

@[simp] theorem State.endDrains_image (s : State) (k : UnitKind) (u : Nat) : (State.endDrains s k u).image = s.image := by
  unfold State.endDrains
  simp [foldl_image, ite_image]

@[simp] theorem State.openFence_image (s : State) (k : UnitKind) (u cause : Nat) (st : UnitState) : (State.openFence s k u cause st).image = s.image := by
  unfold State.openFence
  simp

@[simp] theorem State.suspectUnit_image (s : State) (k : UnitKind) (u cause : Nat) : (State.suspectUnit s k u cause).image = s.image := by
  unfold State.suspectUnit
  (repeat' split) <;> simp

@[simp] theorem State.settleAll_image (x1 : List (UnitKind × Nat × Nat)) (s : State) : (State.settleAll x1 s).image = s.image := by
  induction x1 generalizing s with
  | nil => rfl
  | cons e l ih => simp [State.settleAll, ih]

@[simp] theorem State.settle_image (s : State) : (State.settle s).image = s.image := by
  unfold State.settle
  simp

@[simp] theorem State.planFence_image (s : State) (k : UnitKind) (u : Nat) (p : FencePurpose) : (State.planFence s k u p).image = s.image := by
  unfold State.planFence
  simp

@[simp] theorem State.recovStatus_image (s : State) (d status : Nat) : (State.recovStatus s d status).image = s.image := by
  unfold State.recovStatus
  simp

@[simp] theorem State.recovWrite_image (s : State) (d op : Nat) (k : UnitKind) (loc : Nat) : (State.recovWrite s d op k loc).image = s.image := by
  unfold State.recovWrite
  simp

@[simp] theorem State.loadRepair_image (s : State) (p : Nat) : (State.loadRepair s p).image = s.image := by
  unfold State.loadRepair
  simp

@[simp] theorem State.retireSlot_image (s : State) (p cause : Nat) : (State.retireSlot s p cause).image = s.image := by
  unfold State.retireSlot
  simp [foldl_image, ite_image]

@[simp] theorem State.repairSlotRow_image (s : State) (p bank row : Nat) : (State.repairSlotRow s p bank row).image = s.image := by
  unfold State.repairSlotRow
  simp [foldl_image, ite_image]

@[simp] theorem State.repairArray_image (s : State) (p : Nat) (found : BistFault) : (State.repairArray s p found).image = s.image := by
  unfold State.repairArray
  simp
  (repeat' split) <;> simp

@[simp] theorem State.applyBist_image (s : State) (p : Nat) (found : BistFault) : (State.applyBist s p found).image = s.image := by
  unfold State.applyBist
  (repeat' split) <;> simp

@[simp] theorem State.startRounds_image (s : State) (k : UnitKind) (u : Nat) : (State.startRounds s k u).image = s.image := by
  unfold State.startRounds
  simp

@[simp] theorem State.bringIn_image (s : State) (k : UnitKind) (u : Nat) : (State.bringIn s k u).image = s.image := by
  unfold State.bringIn
  simp

@[simp] theorem State.readyUnit_image (s : State) (k : UnitKind) (u : Nat) : (State.readyUnit s k u).image = s.image := by
  unfold State.readyUnit
  split <;> simp

@[simp] theorem State.clearTile_image (s : State) (t : Nat) : (State.clearTile s t).image = s.image := by
  unfold State.clearTile
  simp [foldl_image, ite_image]

@[simp] theorem State.swapEmber_image (s : State) (t e : Nat) : (State.swapEmber s t e).image = s.image := by
  unfold State.swapEmber
  simp

@[simp] theorem State.emberFails_image (s : State) (e : Nat) : (State.emberFails s e).image = s.image := by
  unfold State.emberFails
  simp

@[simp] theorem State.swapTile_image (s : State) (t : Nat) : (State.swapTile s t).image = s.image := by
  unfold State.swapTile
  simp
  (repeat' split) <;> simp

@[simp] theorem State.swapAll_image (s : State) : (State.swapAll s).image = s.image := by
  unfold State.swapAll
  simp [foldl_image, ite_image]

@[simp] theorem State.abortEngine_image (s : State) (tile engine : Nat) : (State.abortEngine s tile engine).image = s.image := by
  unfold State.abortEngine
  simp [foldl_image, ite_image]

@[simp] theorem State.engineWatchdog_image (s : State) (q cycles : Nat) : (State.engineWatchdog s q cycles).image = s.image := by
  unfold State.engineWatchdog
  (repeat' split) <;> simp

@[simp] theorem State.hang_image (s : State) (k : UnitKind) (u sev : Nat) : (State.hang s k u sev).image = s.image := by
  unfold State.hang
  split <;> simp

@[simp] theorem State.tileHang_image (s : State) (p : Nat) : (State.tileHang s p).image = s.image := by
  unfold State.tileHang
  split <;> simp

@[simp] theorem State.linkStillFails_image (s : State) (d : Nat) : (State.linkStillFails s d).image = s.image := by
  unfold State.linkStillFails
  split <;> simp

@[simp] theorem State.stageEnd_image (s : State) (bits : Nat) : (State.stageEnd s bits).image = s.image := by
  unfold State.stageEnd
  simp

@[simp] theorem State.drainEnd_image (s : State) (d : Nat) (f : FenceReq) : (State.drainEnd s d f).image = s.image := by
  unfold State.drainEnd
  split <;> simp

@[simp] theorem State.dumpSummary_image (s : State) (k : UnitKind) (u status seq : Nat) : (State.dumpSummary s k u status seq).image = s.image := by
  unfold State.dumpSummary
  simp

@[simp] theorem State.writeDump_image (s : State) (k : UnitKind) (u : Nat) (hungTiles hungClusters : List Nat) : (State.writeDump s k u hungTiles hungClusters).image = s.image := by
  unfold State.writeDump
  simp
  (repeat' split) <;> simp

@[simp] theorem State.clearCluster_image (s : State) (c : Nat) : (State.clearCluster s c).image = s.image := by
  unfold State.clearCluster
  simp

@[simp] theorem State.clearDie_image (s : State) (d : Nat) : (State.clearDie s d).image = s.image := by
  unfold State.clearDie
  simp [foldl_image, ite_image]

@[simp] theorem State.clearUnit_image (s : State) (k : UnitKind) (u : Nat) : (State.clearUnit s k u).image = s.image := by
  unfold State.clearUnit
  (repeat' split) <;> simp [foldl_image, ite_image]

@[simp] theorem State.powerForReset_image (s : State) (k : UnitKind) (u : Nat) : (State.powerForReset s k u).image = s.image := by
  unfold State.powerForReset
  (repeat' split) <;> simp

@[simp] theorem State.dumpWrite_image (s : State) (d : Nat) (hungTiles hungClusters : List Nat) : (State.dumpWrite s d hungTiles hungClusters).image = s.image := by
  unfold State.dumpWrite
  split <;> simp

@[simp] theorem State.failUnit_image (s : State) (k : UnitKind) (u : Nat) : (State.failUnit s k u).image = s.image := by
  unfold State.failUnit
  simp

@[simp] theorem State.bistUnit_image (s : State) (k : UnitKind) (u : Nat) (found : List (Nat × BistFault)) : (State.bistUnit s k u found).image = s.image := by
  unfold State.bistUnit
  simp [foldl_image, ite_image]

@[simp] theorem State.zeroTiles_image (s : State) (ts : List Nat) : (State.zeroTiles s ts).image = s.image := by
  unfold State.zeroTiles
  simp [foldl_image, ite_image]

@[simp] theorem State.resetComplete_image (s : State) (k : UnitKind) (u : Nat) (found : List (Nat × BistFault)) (entryTestOk : Bool) : (State.resetComplete s k u found entryTestOk).image = s.image := by
  unfold State.resetComplete
  simp [foldl_image, ite_image]

@[simp] theorem State.returnUnit_image (s : State) (k : UnitKind) (u : Nat) : (State.returnUnit s k u).1.image = s.image := by
  unfold State.returnUnit
  simp
  (repeat' split) <;> simp

@[simp] theorem State.returnsAt_image (s : State) (n : Nat) : (State.returnsAt s n).image = s.image := by
  unfold State.returnsAt
  simp [foldl_image, ite_image]

@[simp] theorem State.agingAt_image (s : State) : (State.agingAt s).image = s.image := by
  unfold State.agingAt
  simp [foldl_image, ite_image]

@[simp] theorem State.fenceRequest_image (s : State) (k : UnitKind) (p : FencePurpose) (policyBit u : Nat) : (State.fenceRequest s k p policyBit u).1.image = s.image := by
  unfold State.fenceRequest
  simp
  (repeat' split) <;> simp

@[simp] theorem State.resetRequest_image (s : State) (k : UnitKind) (u : Nat) : (State.resetRequest s k u).1.image = s.image := by
  unfold State.resetRequest
  simp
  (repeat' split) <;> simp

@[simp] theorem State.tagCarve_image (s : State) (c : Carveout) : (State.tagCarve s c).image = s.image := by
  unfold State.tagCarve
  split <;> simp

@[simp] theorem State.killQueues_image (s : State) (t : Nat) : (State.killQueues s t).image = s.image := by
  unfold State.killQueues
  simp [foldl_image, ite_image]

@[simp] theorem State.killTile_image (s : State) (t : Nat) : (State.killTile s t).image = s.image := by
  unfold State.killTile
  simp

@[simp] theorem State.resumeQueue_image (s : State) (q value : Nat) : (State.resumeQueue s q value).image = s.image := by
  unfold State.resumeQueue
  (repeat' split) <;> simp

@[simp] theorem State.writeRepair_image (s : State) (agent : Agent) (t w : Nat) : (State.writeRepair s agent t w).image = s.image := by
  unfold State.writeRepair
  (repeat' split) <;> simp

@[simp] theorem State.reconcileUnit_image (s : State) (e : UnitKind × Nat) : (State.reconcileUnit s e).image = s.image := by
  unfold State.reconcileUnit
  simp [foldl_image, ite_image]

@[simp] theorem State.rebuildViews_image (s : State) (d : Nat) : (State.rebuildViews s d).image = s.image := by
  unfold State.rebuildViews
  simp [foldl_image, ite_image]

@[simp] theorem State.schedDone_image (s : State) : (State.schedDone s).image = s.image := by
  unfold State.schedDone
  simp

@[simp] theorem State.releaseCredits_image (s : State) (at_ : Instant) (q n : Nat) : (State.releaseCredits s at_ q n).image = s.image := by
  unfold State.releaseCredits
  simp [foldl_image, ite_image]

@[simp] theorem State.discardCredits_image (s : State) : (State.discardCredits s).image = s.image := by
  unfold State.discardCredits
  simp [foldl_image, ite_image]

@[simp] theorem State.clearSlices_image (s : State) : (State.clearSlices s).image = s.image := by
  unfold State.clearSlices
  apply foldl_image
  intros
  simp

@[simp] theorem State.sliceMissing_image (s : State) (t : Nat) : (State.sliceMissing s t).image = s.image := by
  unfold State.sliceMissing
  simp

@[simp] theorem State.switchSchedule_image (s : State) : (State.switchSchedule s).image = s.image := by
  unfold State.switchSchedule
  simp [foldl_image, ite_image]

@[simp] theorem State.releaseAt_image (s : State) : (State.releaseAt s).image = s.image := by
  unfold State.releaseAt
  split <;> simp

@[simp] theorem State.boundary_image (s : State) (n k : Nat) : (State.boundary s n k).image = s.image := by
  unfold State.boundary
  simp [foldl_image, ite_image]

@[simp] theorem State.beatBegin_image (s : State) (n : Nat) : (State.beatBegin s n).image = s.image := by
  unfold State.beatBegin
  simp [foldl_image, ite_image]

@[simp] theorem State.putLost_image (s : State) : (State.putLost s).image = s.image := by
  unfold State.putLost
  (repeat' split) <;> simp

@[simp] theorem State.recordLost_image (s : State) (n : Nat) : (State.recordLost s n).image = s.image := by
  unfold State.recordLost
  simp

@[simp] theorem State.ringVector_image (s : State) : (State.ringVector s).image = s.image := by
  unfold State.ringVector
  simp [foldl_image, ite_image]

@[simp] theorem State.recordWrite_image (s : State) (rec : List Byte) : (State.recordWrite s rec).image = s.image := by
  unfold State.recordWrite
  simp

@[simp] theorem State.lateEvent_image (s : State) (n : Nat) : (State.lateEvent s n).image = s.image := by
  unfold State.lateEvent
  split <;> simp

@[simp] theorem State.oldest_image (s : State) (missing : Option Nat) : (State.oldest s missing).1.image = s.image := by
  unfold State.oldest
  split <;> simp

@[simp] theorem State.commitBeat_image (s : State) (n : Nat) (missing : Option Nat) : (State.commitBeat s n missing).image = s.image := by
  unfold State.commitBeat
  simp [foldl_image, ite_image]

@[simp] theorem State.recordCommit_image (s : State) : (State.recordCommit s).image = s.image := by
  unfold State.recordCommit
  simp [foldl_image, ite_image]

@[simp] theorem State.updCvu_image (s : State) (unit : Nat) (f : CvuSt → CvuSt) : (State.updCvu s unit f).image = s.image := by
  unfold State.updCvu
  split <;> simp

@[simp] theorem State.updCtxOf_image (s : State) (unit c : Nat) (f : CvuCtx → CvuCtx) : (State.updCtxOf s unit c f).image = s.image := by
  unfold State.updCtxOf
  simp

@[simp] theorem State.cvuDrop_image (s : State) (unit : Nat) : (State.cvuDrop s unit).image = s.image := by
  unfold State.cvuDrop
  split <;> simp

@[simp] theorem State.cvuAdvance_image (s : State) (unit ctx : Nat) : (State.cvuAdvance s unit ctx).image = s.image := by
  unfold State.cvuAdvance
  simp

@[simp] theorem State.cvuInit_image (s : State) (agent : Agent) (unit ctx value : Nat) : (State.cvuInit s agent unit ctx value).image = s.image := by
  unfold State.cvuInit
  (repeat' split) <;> simp

@[simp] theorem State.cvuFeedWrite_image (s : State) (agent : Agent) (unit ctx size data : Nat) : (State.cvuFeedWrite s agent unit ctx size data).image = s.image := by
  unfold State.cvuFeedWrite
  (repeat' split) <;> simp

@[simp] theorem State.cvuClear_image (s : State) (agent : Agent) (unit ctx v : Nat) : (State.cvuClear s agent unit ctx v).image = s.image := by
  unfold State.cvuClear
  split <;> simp

@[simp] theorem State.cvuResultRead_image (s : State) (unit ctx index : Nat) : (State.cvuResultRead s unit ctx index).image = s.image := by
  unfold State.cvuResultRead
  (repeat' split) <;> simp

@[simp] theorem State.scanLines_image (s : State) (own : Option Nat) (p : Poly) (x1 : Nat) (x2 : Nat) (x3 : Nat) : (State.scanLines s own p x1 x2 x3).1.image = s.image := by
  induction x1 generalizing s x2 x3 <;> unfold State.scanLines <;> (repeat' split) <;> simp_all <;> (repeat' split) <;> simp_all

@[simp] theorem State.scanRange_image (s : State) (own : Option Nat) (poly a len : Nat) : (State.scanRange s own poly a len).1.image = s.image := by
  unfold State.scanRange
  split <;> simp

@[simp] theorem State.scanSome_image (s : State) (unit n : Nat) : (State.scanSome s unit n).image = s.image := by
  unfold State.scanSome
  simp [foldl_image, ite_image]

@[simp] theorem State.scanTick_image (s : State) : (State.scanTick s).image = s.image := by
  unfold State.scanTick
  simp [foldl_image, ite_image]

@[simp] theorem State.scanGo_image (s : State) (agent : Agent) (unit : Nat) : (State.scanGo s agent unit).image = s.image := by
  unfold State.scanGo
  simp [foldl_image, ite_image]

@[simp] theorem State.scanStop_image (s : State) (unit : Nat) : (State.scanStop s unit).image = s.image := by
  unfold State.scanStop
  simp

@[simp] theorem State.readCopy_image (s : State) (p k : Nat) : (State.readCopy s p k).1.image = s.image := by
  unfold State.readCopy
  simp
  (repeat' split) <;> simp

@[simp] theorem State.cameraBufs_image (k : Nat) (x1 : List (Nat × Nat)) (s : State) : (State.cameraBufs k x1 s).1.image = s.image := by
  induction x1 generalizing s <;> unfold State.cameraBufs <;> (repeat' split) <;> simp_all <;> (repeat' split) <;> simp_all

@[simp] theorem State.startChecker_image (s : State) (k : Nat) (grid : SMap GridCell) (binned : Nat) : (State.startChecker s k grid binned).image = s.image := by
  unfold State.startChecker
  split <;> simp

@[simp] theorem State.checkerDone_image (s : State) : (State.checkerDone s).image = s.image := by
  unfold State.checkerDone
  split <;> simp

@[simp] theorem State.headerArrives_image (s : State) (m : Mirror) : (State.headerArrives s m).image = s.image := by
  unfold State.headerArrives
  simp
  (repeat' split) <;> simp

@[simp] theorem State.headerMissing_image (s : State) (n : Nat) : (State.headerMissing s n).image = s.image := by
  unfold State.headerMissing
  split <;> simp

@[simp] theorem State.cmpOutcome_image (s : State) (row : Nat) (u : Option (Nat × Nat)) : (State.cmpOutcome s row u).image = s.image := by
  unfold State.cmpOutcome
  simp [foldl_image, ite_image]

@[simp] theorem State.compareNext_image (s : State) : (State.compareNext s).image = s.image := by
  unfold State.compareNext
  simp
  (repeat' split) <;> simp

@[simp] theorem State.requestRelease_image (s : State) : (State.requestRelease s).image = s.image := by
  unfold State.requestRelease
  (repeat' split) <;> simp

@[simp] theorem State.verifySum_image (s : State) (u : Nat) (e : ChkSum) : (State.verifySum s u e).1.image = s.image := by
  unfold State.verifySum
  simp

@[simp] theorem State.sumForReturn_image (s : State) (i cvu : Nat) (e : ChkSum) (k : UnitKind) (u : Nat) : (State.sumForReturn s i cvu e k u).image = s.image := by
  unfold State.sumForReturn
  simp [foldl_image, ite_image]

@[simp] theorem State.sumFirstFrame_image (s : State) (i cvu : Nat) (e : ChkSum) : (State.sumFirstFrame s i cvu e).image = s.image := by
  unfold State.sumFirstFrame
  simp [foldl_image, ite_image]

@[simp] theorem State.checksumVerify_image (s : State) (i : Nat) : (State.checksumVerify s i).image = s.image := by
  unfold State.checksumVerify
  (repeat' split) <;> simp

@[simp] theorem State.testPass_image (s : State) (t : TestTarget) (unit : Nat) : (State.testPass s t unit).image = s.image := by
  unfold State.testPass
  simp

@[simp] theorem State.testFail_image (s : State) (t : TestTarget) (unit : Nat) : (State.testFail s t unit).image = s.image := by
  unfold State.testFail
  split <;> simp

@[simp] theorem State.flashErase_image (s : State) (a n : Nat) : (State.flashErase s a n).image = s.image := by
  unfold State.flashErase
  simp

@[simp] theorem State.ashProgram_image (s : State) : (State.ashProgram s).image = s.image := by
  unfold State.ashProgram
  simp [foldl_image, ite_image]

@[simp] theorem State.ashFetched_image (s : State) : (State.ashFetched s).image = s.image := by
  unfold State.ashFetched
  simp
  (repeat' split) <;> simp

@[simp] theorem State.ashRestore_image (s : State) : (State.ashRestore s).image = s.image := by
  unfold State.ashRestore
  simp

@[simp] theorem State.ppsMissing_image (s : State) : (State.ppsMissing s).image = s.image := by
  unfold State.ppsMissing
  split <;> simp

@[simp] theorem State.logTxn_image (s : State) (status : Nat) (t : Txn) : (State.logTxn s status t).image = s.image := by
  unfold State.logTxn
  simp

@[simp] theorem State.txnRollback_image (s : State) : (State.txnRollback s).image = s.image := by
  unfold State.txnRollback
  split <;> simp

@[simp] theorem State.checkHeldStart_image (s : State) : (State.checkHeldStart s).image = s.image := by
  unfold State.checkHeldStart
  (repeat' split) <;> simp

@[simp] theorem State.rearmSeconds_image (s : State) : (State.rearmSeconds s).image = s.image := by
  unfold State.rearmSeconds
  simp [foldl_image, ite_image]

@[simp] theorem State.reachReplay_image (s : State) : (State.reachReplay s).image = s.image := by
  unfold State.reachReplay
  simp [foldl_image, ite_image]

@[simp] theorem State.firstStep_image (s : State) (t : Instant) : (State.firstStep s t).image = s.image := by
  unfold State.firstStep
  simp

@[simp] theorem State.tbStatus_image (s : State) (status : Nat) : (State.tbStatus s status).image = s.image := by
  unfold State.tbStatus
  simp

@[simp] theorem State.step_image (s : State) : (State.step s).image = s.image := by
  unfold State.step
  (repeat' split) <;> simp

@[simp] theorem State.writeIncr_image (s : State) (v : Nat) : (State.writeIncr s v).image = s.image := by
  unfold State.writeIncr
  split <;> simp

@[simp] theorem State.reepoch_image (s : State) : (State.reepoch s).image = s.image := by
  unfold State.reepoch
  simp [foldl_image, ite_image]

@[simp] theorem State.jump_image (s : State) (t : Instant) (d : Int) : (State.jump s t d).image = s.image := by
  unfold State.jump
  (repeat' split) <;> simp

@[simp] theorem State.reepochApply_image (s : State) : (State.reepochApply s).image = s.image := by
  unfold State.reepochApply
  (repeat' split) <;> simp

@[simp] theorem State.snapLatch_image (s : State) : (State.snapLatch s).image = s.image := by
  unfold State.snapLatch
  simp

@[simp] theorem State.answerWord_image (s : State) (w : Nat) : (State.answerWord s w).image = s.image := by
  unfold State.answerWord
  simp

@[simp] theorem State.countOffset_image (s : State) (offset : Int) : (State.countOffset s offset).image = s.image := by
  unfold State.countOffset
  simp [foldl_image, ite_image]

@[simp] theorem State.sourceBack_image (s : State) : (State.sourceBack s).image = s.image := by
  unfold State.sourceBack
  simp

@[simp] theorem State.measure_image (s : State) (offset : Int) : (State.measure s offset).image = s.image := by
  unfold State.measure
  (repeat' split) <;> simp

@[simp] theorem State.usePtp_image (s : State) : (State.usePtp s).image = s.image := by
  unfold State.usePtp
  split <;> simp

@[simp] theorem State.ppsMeasure_image (s : State) (t : Instant) (offset : Int) : (State.ppsMeasure s t offset).image = s.image := by
  unfold State.ppsMeasure
  (repeat' split) <;> simp [ite_image]

@[simp] theorem State.ppsEdge_image (s : State) (t : Instant) : (State.ppsEdge s t).image = s.image := by
  unfold State.ppsEdge
  simp

@[simp] theorem State.offsetMeasurement_image (s : State) (offset : Int) : (State.offsetMeasurement s offset).image = s.image := by
  unfold State.offsetMeasurement
  (repeat' split) <;> simp

@[simp] theorem State.updFollower_image (s : State) (d : Nat) (f : FollowerSt → FollowerSt) : (State.updFollower s d f).image = s.image := by
  unfold State.updFollower
  simp

@[simp] theorem State.followerBad_image (s : State) (d sev : Nat) : (State.followerBad s d sev).image = s.image := by
  unfold State.followerBad
  simp

@[simp] theorem State.followerDrift_image (s : State) (d : Nat) : (State.followerDrift s d).image = s.image := by
  unfold State.followerDrift
  simp

@[simp] theorem State.triggerPulse_image (s : State) (e : TimeTrigger) : (State.triggerPulse s e).image = s.image := by
  unfold State.triggerPulse
  simp [foldl_image, ite_image]

@[simp] theorem State.judge_image (s : State) (t : Instant) (m : TimeMonitor) : (State.judge s t m).image = s.image := by
  unfold State.judge
  (repeat' split) <;> simp

@[simp] theorem State.capture_image (s : State) (c : TimeCapture) (t : Instant) : (State.capture s c t).image = s.image := by
  unfold State.capture
  simp [foldl_image, ite_image]

@[simp] theorem State.windowClose_image (s : State) (m : TimeMonitor) : (State.windowClose s m).image = s.image := by
  unfold State.windowClose
  simp [foldl_image, ite_image]

@[simp] theorem State.sendFrame_image (s : State) (mac : Nat) (f : List Byte) (tsCtrl : Nat) : (State.sendFrame s mac f tsCtrl).1.image = s.image := by
  unfold State.sendFrame
  simp

@[simp] theorem State.ptpComplete_image (s : State) (mac : Nat) (status : Byte) (stamp : Option Stamp) : (State.ptpComplete s mac status stamp).image = s.image := by
  unfold State.ptpComplete
  simp

@[simp] theorem State.hpComplete_image (s : State) (a status flags length seq addr : Nat) (stamp : List Byte) : (State.hpComplete s a status flags length seq addr stamp).image = s.image := by
  unfold State.hpComplete
  split <;> simp

@[simp] theorem State.hpStatus_image (s : State) (mac status : Nat) : (State.hpStatus s mac status).image = s.image := by
  unfold State.hpStatus
  split <;> simp

@[simp] theorem State.hpEnable_image (s : State) (mac : Nat) : (State.hpEnable s mac).image = s.image := by
  unfold State.hpEnable
  simp [foldl_image, ite_image]

@[simp] theorem State.writeCbLo_image (s : State) (mac : Nat) (w : Word) : (State.writeCbLo s mac w).image = s.image := by
  unfold State.writeCbLo
  (repeat' split) <;> simp

@[simp] theorem State.writeCbHi_image (s : State) (mac : Nat) (w : Word) : (State.writeCbHi s mac w).image = s.image := by
  unfold State.writeCbHi
  simp

@[simp] theorem State.hpDesc_image (s : State) (a : Nat) : (State.hpDesc s a).1.image = s.image := by
  unfold State.hpDesc
  simp

@[simp] theorem State.txEnd_image (s : State) (mac a status flags length addr : Nat) (stamp : List Byte) (irq : Bool) : (State.txEnd s mac a status flags length addr stamp irq).image = s.image := by
  unfold State.txEnd
  split <;> simp

@[simp] theorem State.hpTransmit_image (s : State) (mac : Nat) : (State.hpTransmit s mac).image = s.image := by
  unfold State.hpTransmit
  simp
  (repeat' split) <;> simp

@[simp] theorem State.rxDrop_image (s : State) (mac : Nat) : (State.rxDrop s mac).image = s.image := by
  unfold State.rxDrop
  simp

@[simp] theorem State.rxEnd_image (s : State) (mac a status flags length addr : Nat) (stamp : List Byte) (irq : Bool) : (State.rxEnd s mac a status flags length addr stamp irq).image = s.image := by
  unfold State.rxEnd
  split <;> simp

@[simp] theorem State.hpReceive_image (mac : Nat) (f : List Byte) (x : Stamp) (x1 : Nat) (s : State) : (State.hpReceive mac f x x1 s).image = s.image := by
  induction x1 generalizing mac f x s <;> unfold State.hpReceive <;> (repeat' split) <;> simp_all <;> (repeat' split) <;> simp_all

@[simp] theorem State.rangeTake_image (s : State) (mac : Nat) (x : Stamp) (replay : Bool) (f : List Byte) : (State.rangeTake s mac x replay f).image = s.image := by
  unfold State.rangeTake
  simp [foldl_image, ite_image]

@[simp] theorem State.ethReceive_image (s : State) (mac : Nat) (f : List Byte) (fcsOk : Bool) : (State.ethReceive s mac f fcsOk).image = s.image := by
  unfold State.ethReceive
  (repeat' split) <;> simp

@[simp] theorem State.updJob_image (s : State) (b : CameraBind) (k : Nat) (f : FrameJob → FrameJob) : (State.updJob s b k f).image = s.image := by
  unfold State.updJob
  simp

@[simp] theorem State.putLine_image (s : State) (b : CameraBind) (c : IntakeCamera) (slot n : Nat) (bs : List Byte) : (State.putLine s b c slot n bs).image = s.image := by
  unfold State.putLine
  simp

@[simp] theorem State.zeroLines_image (s : State) (b : CameraBind) (c : IntakeCamera) (slot n m : Nat) : (State.zeroLines s b c slot n m).image = s.image := by
  unfold State.zeroLines
  simp

@[simp] theorem State.endFrame_image (s : State) (b : CameraBind) : (State.endFrame s b).image = s.image := by
  unfold State.endFrame
  simp
  (repeat' split) <;> simp

@[simp] theorem State.strictCut_image (s : State) (b : CameraBind) (c : IntakeCamera) (j : FrameJob) (received : Nat) : (State.strictCut s b c j received).image = s.image := by
  unfold State.strictCut
  split <;> simp

@[simp] theorem State.beginFrame_image (s : State) (b : CameraBind) (k : Nat) (capture : Stamp) (csiFn : Nat) : (State.beginFrame s b k capture csiFn).image = s.image := by
  unfold State.beginFrame
  simp

@[simp] theorem State.frameStartOf_image (s : State) (b : CameraBind) (csiFn : Nat) : (State.frameStartOf s b csiFn).image = s.image := by
  unfold State.frameStartOf
  simp
  (repeat' split) <;> simp

@[simp] theorem State.noFrameStart_image (s : State) (b : CameraBind) : (State.noFrameStart s b).image = s.image := by
  unfold State.noFrameStart
  simp [foldl_image, ite_image]

@[simp] theorem State.imageLine_image (s : State) (b : CameraBind) (c : IntakeCamera) (j : FrameJob) (payload : List Byte) (crcOk : Bool) : (State.imageLine s b c j payload crcOk).image = s.image := by
  unfold State.imageLine
  simp
  (repeat' split) <;> simp

@[simp] theorem State.embLine_image (s : State) (b : CameraBind) (c : IntakeCamera) (j : FrameJob) (payload : List Byte) (crcOk : Bool) : (State.embLine s b c j payload crcOk).image = s.image := by
  unfold State.embLine
  (repeat' split) <;> simp

@[simp] theorem State.lostLine_image (s : State) (b : CameraBind) (c : IntakeCamera) (j : FrameJob) : (State.lostLine s b c j).image = s.image := by
  unfold State.lostLine
  split <;> simp

@[simp] theorem State.writeNote_image (s : State) (j : FrameJob) (flags startWord : Nat) : (State.writeNote s j flags startWord).image = s.image := by
  unfold State.writeNote
  split <;> simp

@[simp] theorem State.putCopy_image (s : State) (v : IspView) (j : FrameJob) (planes : Option (List Plane)) (paramSeq : Nat) : (State.putCopy s v j planes paramSeq).image = s.image := by
  unfold State.putCopy
  split <;> simp

@[simp] theorem State.putStats_image (s : State) (v : IspView) (j : FrameJob) (isVoid : Bool) (f : FctxSt) (body : List Byte) : (State.putStats s v j isVoid f body).image = s.image := by
  unfold State.putStats
  simp

@[simp] theorem State.dropStale_image (s : State) (v : IspView) (j : FrameJob) : (State.dropStale s v j).image = s.image := by
  unfold State.dropStale
  simp

@[simp] theorem State.readBank_image (s : State) (v : IspView) (bank : Bool) : (State.readBank s v bank).1.image = s.image := by
  unfold State.readBank
  simp
  (repeat' split) <;> simp

@[simp] theorem State.latchArm_image (s : State) (v : IspView) : (State.latchArm s v).1.image = s.image := by
  unfold State.latchArm
  simp
  (repeat' split) <;> simp

@[simp] theorem State.startJob_image (s : State) (v : IspView) (j : FrameJob) : (State.startJob s v j).image = s.image := by
  unfold State.startJob
  simp [foldl_image, ite_image]

@[simp] theorem State.pipelineStart_image (s : State) (p : Nat) : (State.pipelineStart s p).image = s.image := by
  unfold State.pipelineStart
  simp
  (repeat' split) <;> simp

@[simp] theorem State.readRaw_image (s : State) (v : IspView) (slot : Nat) : (State.readRaw s v slot).1.image = s.image := by
  unfold State.readRaw
  simp
  (repeat' split) <;> simp

@[simp] theorem State.writeFctx_image (s : State) (i w : Nat) : (State.writeFctx s i w).image = s.image := by
  unfold State.writeFctx
  simp

@[simp] theorem State.updDec_image (s : State) (d : Nat) (f : DecoderSt → DecoderSt) : (State.updDec s d f).image = s.image := by
  unfold State.updDec
  simp

@[simp] theorem State.writeDecTail_image (s : State) (d w : Nat) : (State.writeDecTail s d w).image = s.image := by
  unfold State.writeDecTail
  simp
  (repeat' split) <;> simp

@[simp] theorem State.decStop_image (s : State) (d status : Nat) : (State.decStop s d status).image = s.image := by
  unfold State.decStop
  simp

@[simp] theorem State.decVoid_image (s : State) (d status : Nat) (e : List Byte) : (State.decVoid s d status e).image = s.image := by
  unfold State.decVoid
  simp

@[simp] theorem State.decData_image (s : State) (a n : Nat) (dec : Unit → Option (List (List Nat) × Bool)) : (State.decData s a n dec).1.image = s.image := by
  unfold State.decData
  split <;> simp

@[simp] theorem State.decRun_image (s : State) (d : Nat) (e : List Byte) (v : IspView) : (State.decRun s d e v).image = s.image := by
  unfold State.decRun
  simp
  (repeat' split) <;> simp

@[simp] theorem State.decStart_image (s : State) (d : Nat) (r : ReplayRing) : (State.decStart s d r).image = s.image := by
  unfold State.decStart
  simp
  (repeat' split) <;> simp

@[simp] theorem State.decFinish_image (s : State) (d : Nat) : (State.decFinish s d).image = s.image := by
  unfold State.decFinish
  simp

@[simp] theorem State.putRaw_image (s : State) (v : IspView) (slot : Nat) (p : List Nat) : (State.putRaw s v slot p).image = s.image := by
  unfold State.putRaw
  simp [foldl_image, ite_image]

@[simp] theorem State.offer_image (s : State) (d : Nat) (o : Offer) (capOff : Nat) (v : IspView) : (State.offer s d o capOff v).image = s.image := by
  unfold State.offer
  simp [foldl_image, ite_image]

@[simp] theorem State.forwardPacket_image (s : State) (n : Nat) (t : RangeTemplate) (time : Instant) (k : Nat) (late replay : Bool) (b : List Byte) : (State.forwardPacket s n t time k late replay b).image = s.image := by
  unfold State.forwardPacket
  simp

@[simp] theorem State.noMatch_image (s : State) (mac : Nat) : (State.noMatch s mac).image = s.image := by
  unfold State.noMatch
  simp

@[simp] theorem State.takeRangePacket_image (s : State) (mac n : Nat) (t : RangeTemplate) (x : Stamp) (time : Instant) (k : Nat) (replay : Bool) (b : List Byte) : (State.takeRangePacket s mac n t x time k replay b).image = s.image := by
  unfold State.takeRangePacket
  simp [foldl_image, ite_image]

@[simp] theorem State.rangePacket_image (s : State) (mac : Nat) : (State.rangePacket s mac).image = s.image := by
  unfold State.rangePacket
  simp
  (repeat' split) <;> simp

@[simp] theorem State.nextReplay_image (s : State) (mac : Nat) : (State.nextReplay s mac).image = s.image := by
  unfold State.nextReplay
  simp

@[simp] theorem State.replayInject_image (s : State) (mac : Nat) (r : ReplayRing) : (State.replayInject s mac r).image = s.image := by
  unfold State.replayInject
  simp [foldl_image, ite_image]

@[simp] theorem State.closeMac_image (k : Nat) (s : State) (mac : Nat) : (State.closeMac k s mac).image = s.image := by
  unfold State.closeMac
  simp [foldl_image, ite_image]

@[simp] theorem State.gridClose_image (s : State) : (State.gridClose s).image = s.image := by
  unfold State.gridClose
  simp [foldl_image, ite_image]

@[simp] theorem State.cleanUnits_image (s : State) (p : Nat → Bool) : (State.cleanUnits s p).image = s.image := by
  unfold State.cleanUnits
  simp

@[simp] theorem State.cleanRow_image (s : State) (a : Nat) : (State.cleanRow s a).image = s.image := by
  unfold State.cleanRow
  simp

@[simp] theorem State.cleanBank_image (s : State) (a : Nat) : (State.cleanBank s a).image = s.image := by
  unfold State.cleanBank
  simp

@[simp] theorem State.repairTileRow_image (s : State) (a t : Nat) : (State.repairTileRow s a t).image = s.image := by
  unfold State.repairTileRow
  simp [foldl_image, ite_image]

@[simp] theorem State.loseRegion_image (s : State) (g : Nat) : (State.loseRegion s g).image = s.image := by
  unfold State.loseRegion
  split <;> simp

@[simp] theorem State.repairPeatRow_image (s : State) (a d : Nat) : (State.repairPeatRow s a d).image = s.image := by
  unfold State.repairPeatRow
  simp [foldl_image, ite_image]

@[simp] theorem State.repairRow_image (s : State) (a : Nat) : (State.repairRow s a).image = s.image := by
  unfold State.repairRow
  split <;> simp

@[simp] theorem State.scrubStep_image (s : State) (m a : Nat) (fresh : Bool) : (State.scrubStep s m a fresh).image = s.image := by
  unfold State.scrubStep
  split <;> simp

@[simp] theorem State.scrubFixed_image (s : State) (m u errors : Nat) : (State.scrubFixed s m u errors).image = s.image := by
  unfold State.scrubFixed
  simp [foldl_image, ite_image]

@[simp] theorem State.scrubUnit_image (s : State) (m : Nat) (testFails : Bool) (u size : Nat) : (State.scrubUnit s m testFails u size).image = s.image := by
  unfold State.scrubUnit
  (repeat' split) <;> simp

@[simp] theorem State.scrubTest_image (s : State) (a : Nat) (testFails : Bool) : (State.scrubTest s a testFails).image = s.image := by
  unfold State.scrubTest
  simp
  (repeat' split) <;> simp

@[simp] theorem State.logComponent_image (s : State) (comp version secVersion imageId : Nat) : (State.logComponent s comp version secVersion imageId).image = s.image := by
  unfold State.logComponent
  simp

@[simp] theorem State.logFirmware_image (s : State) (comp : Nat) (f : Firmware) : (State.logFirmware s comp f).image = s.image := by
  unfold State.logFirmware
  simp

@[simp] theorem State.logImage_image (s : State) (i : Image) : (State.logImage s i).image = s.image := by
  unfold State.logImage
  simp

@[simp] theorem State.postPackage_image (s : State) (e : RepairEntry) : (State.postPackage s e).image = s.image := by
  unfold State.postPackage
  split <;> simp

@[simp] theorem State.applyRepair_image (s : State) (e : RepairEntry) : (State.applyRepair s e).image = s.image := by
  unfold State.applyRepair
  split <;> simp

@[simp] theorem State.markPermanent_image (s : State) : (State.markPermanent s).image = s.image := by
  unfold State.markPermanent
  simp [foldl_image, ite_image]

@[simp] theorem State.applyRepairs_image (s : State) : (State.applyRepairs s).image = s.image := by
  unfold State.applyRepairs
  simp [foldl_image, ite_image]

@[simp] theorem State.startBist_image (s : State) : (State.startBist s).1.image = s.image := by
  unfold State.startBist
  simp [foldl_image, ite_image]

@[simp] theorem State.trainChannel_image (s : State) (c : Nat) : (State.trainChannel s c).image = s.image := by
  unfold State.trainChannel
  simp

@[simp] theorem State.trainAll_image (s : State) : (State.trainAll s).image = s.image := by
  unfold State.trainAll
  simp [foldl_image, ite_image]

@[simp] theorem State.restoreSettings_image (s : State) (fmt : Nat) : (State.restoreSettings s fmt).image = s.image := by
  unfold State.restoreSettings
  simp only []
  (repeat' split) <;> simp only [State.raise_image, State.updTb_image] <;>
    rw [foldl_image _ _ _ (fun s x => by simp), foldl_image _ _ _ (fun s x => by simp)] <;> simp

@[simp] theorem State.imgVerdict_image (s : State) (v : Verdict) : (State.imgVerdict s v).image = s.image := by
  unfold State.imgVerdict
  simp

@[simp] theorem State.imgPassed_image (s : State) : (State.imgPassed s).image = s.image := by
  unfold State.imgPassed
  simp

@[simp] theorem State.liftClocks_image (s : State) : (State.liftClocks s).image = s.image := by
  unfold State.liftClocks
  apply foldl_image
  intros
  simp

@[simp] theorem State.zeroCarves_image (s : State) : (State.zeroCarves s).image = s.image := by
  unfold State.zeroCarves
  simp [foldl_image, ite_image]

@[simp] theorem State.startControllers_image (s : State) (f : Firmware) : (State.startControllers s f).image = s.image := by
  unfold State.startControllers
  simp [foldl_image, ite_image]

@[simp] theorem State.bootFailure_image (s : State) (status : Nat) : (State.bootFailure s status).image = s.image := by
  unfold State.bootFailure
  simp

@[simp] theorem State.enablePower_image (s : State) (d : Nat) : (State.enablePower s d).image = s.image := by
  unfold State.enablePower
  simp

@[simp] theorem State.startTime_image (s : State) : (State.startTime s).image = s.image := by
  unfold State.startTime
  simp [foldl_image, ite_image]

@[simp] theorem State.bootRom_image (s : State) : (State.bootRom s).image = s.image := by
  unfold State.bootRom
  (repeat' split) <;> simp

@[simp] theorem State.gateQ48_image (s : State) : (State.gateQ48 s).image = s.image := by
  unfold State.gateQ48
  (repeat' split) <;> simp [foldl_image, ite_image]

@[simp] theorem State.porRelease_image (s : State) (testEnLow bistOk : Bool) (fitted : List (Nat × List Nat)) : (State.porRelease s testEnLow bistOk fitted).image = s.image := by
  unfold State.porRelease
  (repeat' split) <;> simp

@[simp] theorem State.leaveOff_image (s : State) (d : Nat) : (State.leaveOff s d).image = s.image := by
  unfold State.leaveOff
  simp

@[simp] theorem State.portOff_image (s : State) (d : Nat) : (State.portOff s d).image = s.image := by
  unfold State.portOff
  split <;> simp

@[simp] theorem State.powerLost_image (s : State) (d : Nat) : (State.powerLost s d).image = s.image := by
  unfold State.powerLost
  simp
  (repeat' split) <;> simp

@[simp] theorem State.sampleDie_image (s : State) (d : Nat) (m : SMap SensSt) : (State.sampleDie s d m).image = s.image := by
  unfold State.sampleDie
  simp

@[simp] theorem State.writeIocfg_image (s : State) (t w : Nat) : (State.writeIocfg s t w).image = s.image := by
  unfold State.writeIocfg
  (repeat' split) <;> simp

@[simp] theorem State.notProven_image (s : State) (m : Nat) : (State.notProven s m).image = s.image := by
  unfold State.notProven
  simp

@[simp] theorem State.stagePregus_image (s : State) : (State.stagePregus s).image = s.image := by
  unfold State.stagePregus
  (repeat' split) <;> simp

@[simp] theorem State.stageDie_image (s : State) (d : Nat) (selfTestOk : Bool) : (State.stageDie s d selfTestOk).image = s.image := by
  unfold State.stageDie
  simp
  (repeat' split) <;> simp

@[simp] theorem State.stageImage_image (s : State) : (State.stageImage s).image = s.image := by
  unfold State.stageImage
  simp
  (repeat' split) <;> simp

@[simp] theorem State.stageRegion_image (s : State) (g : Nat) : (State.stageRegion s g).image = s.image := by
  unfold State.stageRegion
  simp [foldl_image, ite_image]

@[simp] theorem State.unstage_image (s : State) : (State.unstage s).image = s.image := by
  unfold State.unstage
  simp

@[simp] theorem State.saveSettings_image (s : State) : (State.saveSettings s).image = s.image := by
  unfold State.saveSettings
  simp

@[simp] theorem State.secEnd_image (s : State) (status : Nat) : (State.secEnd s status).image = s.image := by
  unfold State.secEnd
  simp

@[simp] theorem State.updKey_image (s : State) (k : Nat) (f : KeySlot → KeySlot) : (State.updKey s k f).image = s.image := by
  unfold State.updKey
  simp

@[simp] theorem State.provisionAct_image (s : State) (c : Provision) : (State.provisionAct s c).1.image = s.image := by
  unfold State.provisionAct
  (repeat' split) <;> simp

@[simp] theorem State.provision_image (s : State) (c : Provision) (signer : Nat) (message signature : List Byte) : (State.provision s c signer message signature).image = s.image := by
  unfold State.provision
  (repeat' split) <;> simp

@[simp] theorem State.setCounter_image (s : State) (comp v : Nat) : (State.setCounter s comp v).image = s.image := by
  unfold State.setCounter
  simp

@[simp] theorem State.logRatchet_image (s : State) (comp : Nat) : (State.logRatchet s comp).image = s.image := by
  unfold State.logRatchet
  split <;> simp

@[simp] theorem State.ratchet_image (s : State) (comp : Nat) : (State.ratchet s comp).image = s.image := by
  unfold State.ratchet
  simp [foldl_image, ite_image]

@[simp] theorem State.attest_image (s : State) : (State.attest s).image = s.image := by
  unfold State.attest
  simp [foldl_image, ite_image]

@[simp] theorem State.readToken_image (s : State) : (State.readToken s).1.image = s.image := by
  unfold State.readToken
  simp

@[simp] theorem State.unlock_image (s : State) : (State.unlock s).image = s.image := by
  unfold State.unlock
  simp [foldl_image, ite_image]

@[simp] theorem State.uciStatus_image (s : State) (status : Nat) : (State.uciStatus s status).image = s.image := by
  unfold State.uciStatus
  simp

@[simp] theorem State.abortRead_image (s : State) (kind status : Nat) : (State.abortRead s kind status).image = s.image := by
  unfold State.abortRead
  simp

@[simp] theorem State.dropWrite_image (s : State) (status : Nat) : (State.dropWrite s status).image = s.image := by
  unfold State.dropWrite
  simp

@[simp] theorem State.answerBytes_image (s : State) (bs : List Byte) : (State.answerBytes s bs).image = s.image := by
  unfold State.answerBytes
  simp

@[simp] theorem State.notePoison_image (s : State) : (State.notePoison s).image = s.image := by
  unfold State.notePoison
  simp

@[simp] theorem State.flashOpen_image (s : State) (k : Nat) : (State.flashOpen s k).image = s.image := by
  unfold State.flashOpen
  (repeat' split) <;> simp

@[simp] theorem State.flashClose_image (s : State) : (State.flashClose s).image = s.image := by
  unfold State.flashClose
  split <;> simp

@[simp] theorem State.eraseSectors_image (s : State) (x1 : List Nat) : (State.eraseSectors s x1).image = s.image := by
  induction x1 generalizing s with
  | nil => rfl
  | cons e l ih => unfold State.eraseSectors; (repeat' split) <;> simp_all

@[simp] theorem State.flashWrite_image (s : State) (off : Nat) (bs : List Byte) : (State.flashWrite s off bs).image = s.image := by
  unfold State.flashWrite
  simp [foldl_image, ite_image]

@[simp] theorem State.hostRead_image (s : State) (a n : Nat) : (State.hostRead s a n).image = s.image := by
  unfold State.hostRead
  simp [foldl_image, ite_image]

@[simp] theorem State.hostWrite_image (s : State) (a : Nat) (bs : List Byte) : (State.hostWrite s a bs).image = s.image := by
  unfold State.hostWrite
  simp [foldl_image, ite_image]

@[simp] theorem State.hostMemoryRead_image (s : State) (o n : Nat) (poisoned : Bool) : (State.hostMemoryRead s o n poisoned).image = s.image := by
  unfold State.hostMemoryRead
  (repeat' split) <;> simp

@[simp] theorem State.hostMemoryWrite_image (s : State) (o : Nat) (bs : List Byte) (poisoned : Bool) : (State.hostMemoryWrite s o bs poisoned).image = s.image := by
  unfold State.hostMemoryWrite
  (repeat' split) <;> simp

@[simp] theorem State.evtRead_image (s : State) : (State.evtRead s).image = s.image := by
  unfold State.evtRead
  simp

@[simp] theorem State.configReset_image (s : State) : (State.configReset s).image = s.image := by
  unfold State.configReset
  simp

@[simp] theorem State.linkState_image (s : State) (rate mods : Nat) (lost : List Nat) (dropped : Bool) (status : Nat) : (State.linkState s rate mods lost dropped status).image = s.image := by
  unfold State.linkState
  simp [foldl_image, ite_image]

@[simp] theorem State.ucieTrained_image (s : State) (m0Up m0X8 m1Up m1X8 : Bool) (rate : Nat) : (State.ucieTrained s m0Up m0X8 m1Up m1X8 rate).image = s.image := by
  unfold State.ucieTrained
  split <;> simp

@[simp] theorem State.moduleDown_image (s : State) (m : Nat) (retrained x8 : Bool) (rate : Nat) : (State.moduleDown s m retrained x8 rate).image = s.image := by
  unfold State.moduleDown
  simp [foldl_image, ite_image]

@[simp] theorem State.portTrained_image (s : State) (p : Nat) (trained fourLanes : Bool) : (State.portTrained s p trained fourLanes).image = s.image := by
  unfold State.portTrained
  (repeat' split) <;> simp

@[simp] theorem State.acknowledge_image (s : State) (p : Nat) (k : Packet) (code : Nat) : (State.acknowledge s p k code).image = s.image := by
  unfold State.acknowledge
  simp

@[simp] theorem State.passOn_image (s : State) (p o : Nat) (k : Packet) : (State.passOn s p o k).image = s.image := by
  unfold State.passOn
  simp

@[simp] theorem State.arriveData_image (s0 : State) (p : Nat) (k : Packet) : (State.arriveData s0 p k).image = s0.image := by
  unfold State.arriveData
  simp
  (repeat' split) <;> simp

@[simp] theorem State.arriveMgmt_image (s : State) (p : Nat) (k : Packet) : (State.arriveMgmt s p k).image = s.image := by
  unfold State.arriveMgmt
  (repeat' split) <;> simp

@[simp] theorem State.arrivePacket_image (s : State) (p : Nat) (k : Packet) : (State.arrivePacket s p k).image = s.image := by
  unfold State.arrivePacket
  split <;> simp

@[simp] theorem State.payloadFlit_image (s : State) (p : Nat) (h : Nat) (f : List Byte) : (State.payloadFlit s p h f).image = s.image := by
  unfold State.payloadFlit
  simp
  (repeat' split) <;> simp

@[simp] theorem State.flitReceive_image (s : State) (p : Nat) (f : List Byte) : (State.flitReceive s p f).image = s.image := by
  unfold State.flitReceive
  simp [foldl_image, ite_image]

@[simp] theorem State.retrains_image (s : State) (p : Nat) (x1 : Nat) : (State.retrains s p x1).image = s.image := by
  induction x1 generalizing s p <;> simp_all [State.retrains]

@[simp] theorem State.replayTimeout_image (s : State) (p failed : Nat) : (State.replayTimeout s p failed).image = s.image := by
  unfold State.replayTimeout
  simp [foldl_image, ite_image]

@[simp] theorem State.keepMessage_image (s : State) (was : Option RemoteMsg) (k : Packet) (m : RemoteMsg) : (State.keepMessage s was k m).image = s.image := by
  unfold State.keepMessage
  simp

@[simp] theorem State.undoMessage_image (s : State) (m : RemoteMsg) : (State.undoMessage s m).image = s.image := by
  unfold State.undoMessage
  simp [foldl_image, ite_image]

@[simp] theorem State.writePacket_image (s : State) (p : Nat) (k : Packet) : (State.writePacket s p k).image = s.image := by
  unfold State.writePacket
  simp
  (repeat' split) <;> simp

@[simp] theorem State.signalPacketIn_image (s : State) (p : Nat) (k : Packet) : (State.signalPacketIn s p k).image = s.image := by
  unfold State.signalPacketIn
  simp [foldl_image, ite_image]

@[simp] theorem State.ackPacketIn_image (s : State) (k : Packet) : (State.ackPacketIn s k).image = s.image := by
  unfold State.ackPacketIn
  simp
  (repeat' split) <;> simp

@[simp] theorem State.setChipMsg_image (s : State) (m : Mgmt) : (State.setChipMsg s m).1.image = s.image := by
  unfold State.setChipMsg
  simp
  (repeat' split) <;> simp

@[simp] theorem State.setRouteMsg_image (s : State) (m : Mgmt) : (State.setRouteMsg s m).1.image = s.image := by
  unfold State.setRouteMsg
  split <;> simp

@[simp] theorem State.timeMsg_image (s : State) (p : Nat) : (State.timeMsg s p).image = s.image := by
  unfold State.timeMsg
  split <;> simp

@[simp] theorem State.handleMgmt_image (s : State) (die : Nat) (b : List Byte) : (State.handleMgmt s die b).image = s.image := by
  unfold State.handleMgmt
  simp
  (repeat' split) <;> simp

@[simp] theorem State.takeMgmt_image (s : State) (p type : Nat) : (State.takeMgmt s p type).image = s.image := by
  unfold State.takeMgmt
  (repeat' split) <;> simp

@[simp] theorem State.timeExchange_image (s : State) (p : Nat) (offset : Int) : (State.timeExchange s p offset).image = s.image := by
  unfold State.timeExchange
  split <;> simp

@[simp] theorem State.refuseMsg_image (s : State) : (State.refuseMsg s).image = s.image := by
  unfold State.refuseMsg
  simp

@[simp] theorem State.mbSend_image (s : State) (w : Word) : (State.mbSend s w).image = s.image := by
  unfold State.mbSend
  simp [foldl_image, ite_image]

@[simp] theorem State.mbRead_image (s : State) : (State.mbRead s).image = s.image := by
  unfold State.mbRead
  simp

@[simp] theorem State.writeRng_image (s : State) (g : Nat) (f : RegionSt → RegionSt) : (State.writeRng s g f).image = s.image := by
  unfold State.writeRng
  simp

@[simp] theorem State.writeDumpBase_image (s : State) (d i v : Nat) : (State.writeDumpBase s d i v).image = s.image := by
  unfold State.writeDumpBase
  (repeat' split) <;> simp

@[simp] theorem State.writeRw_image (s : State) (agent : Agent) (r : Reg) (w mask : Nat) : (State.writeRw s agent r w mask).image = s.image := by
  unfold State.writeRw
  simp
  (repeat' split) <;> simp

@[simp] theorem State.readList_image (s : State) (a n : Nat) : (State.readList s a n).1.image = s.image := by
  unfold State.readList
  simp
  (repeat' split) <;> simp

@[simp] theorem State.fetchList_image (s : State) : (State.fetchList s).1.image = s.image := by
  unfold State.fetchList
  simp
  (repeat' split) <;> simp

@[simp] theorem State.txnRefuse_image (s : State) (status : Nat) : (State.txnRefuse s status).image = s.image := by
  unfold State.txnRefuse
  simp

@[simp] theorem State.txnPlace_image (s : State) (id : Word) (l : List TxnEntry) : (State.txnPlace s id l).image = s.image := by
  unfold State.txnPlace
  simp
  (repeat' split) <;> simp

@[simp] theorem State.commit_image (s : State) : (State.commit s).image = s.image := by
  unfold State.commit
  simp
  (repeat' split) <;> simp

@[simp] theorem State.txnAbort_image (s : State) : (State.txnAbort s).image = s.image := by
  unfold State.txnAbort
  (repeat' split) <;> simp

@[simp] theorem State.txnVote_image (s : State) (d : Nat) : (State.txnVote s d).image = s.image := by
  unfold State.txnVote
  (repeat' split) <;> simp

@[simp] theorem State.txnDecide_image (s : State) : (State.txnDecide s).image = s.image := by
  unfold State.txnDecide
  simp
  (repeat' split) <;> simp

@[simp] theorem State.enterMode_image (s : State) (m out off : Nat) : (State.enterMode s m out off).image = s.image := by
  unfold State.enterMode
  simp [foldl_image, ite_image]

@[simp] theorem State.renewQueues_image (s : State) (a b : Image) : (State.renewQueues s a b).image = s.image := by
  unfold State.renewQueues
  apply foldl_image
  intros
  simp

@[simp] theorem State.switchPregus_image (s : State) : (State.switchPregus s).image = s.image := by
  unfold State.switchPregus
  simp

@[simp] theorem State.switchDies_image (s : State) (ds : List Nat) : (State.switchDies s ds).image = s.image := by
  unfold State.switchDies
  apply foldl_image
  intros
  simp

@[simp] theorem State.touchUnit_image (s : State) (u : RegUnit) : (State.touchUnit s u).image = s.image := by
  unfold State.touchUnit
  split <;> simp

@[simp] theorem State.applyWrite_image (s : State) (e : TxnEntry) : (State.applyWrite s e).image = s.image := by
  unfold State.applyWrite
  split <;> simp

@[simp] theorem State.txnMissed_image (s : State) (t : Txn) : (State.txnMissed s t).image = s.image := by
  unfold State.txnMissed
  simp [foldl_image, ite_image]

@[simp] theorem State.applyHeld_image (s : State) : (State.applyHeld s).image = s.image := by
  unfold State.applyHeld
  simp [foldl_image, ite_image]

@[simp] theorem State.secAct_image (s : State) (v : Nat) : (State.secAct s v).image = s.image := by
  unfold State.secAct
  (repeat' split) <;> simp

@[simp] theorem State.writeBar2_image (s : State) (o w : Nat) : (State.writeBar2 s o w).image = s.image := by
  unfold State.writeBar2
  split <;> simp

@[simp] theorem State.readAnswer_image (s : State) (r : Reg) : (State.readAnswer s r).image = s.image := by
  unfold State.readAnswer
  split <;> simp

@[simp] theorem State.readBar0_image (s : State) (o : Nat) : (State.readBar0 s o).image = s.image := by
  unfold State.readBar0
  (repeat' split) <;> simp

@[simp] theorem State.readBar2_image (s : State) (o : Nat) : (State.readBar2 s o).image = s.image := by
  unfold State.readBar2
  split <;> simp

@[simp] theorem State.registerRead_image (s : State) (o size : Nat) : (State.registerRead s o size).image = s.image := by
  unfold State.registerRead
  (repeat' split) <;> simp

theorem State.runOp_image (s : State) (q : Nat) (o : Op) (body : Ctx → InFlight → State → State × InFlight)
    (hf : ∀ c f s, (body c f s).1.image = s.image) : (s.runOp q o body).image = s.image := by
  unfold State.runOp
  simp only []
  (repeat' split) <;> simp [hf]

theorem State.takePacket_image (s : State) (p kind : Nat) (f : State → Packet → State) (hf : ∀ s k, (f s k).image = s.image) :
    (s.takePacket p kind f).image = s.image := by
  unfold State.takePacket
  (repeat' split) <;> simp [hf]

theorem State.request_image (s : State) (d op : Nat) (k : UnitKind) (loc : Nat) (f : State → Nat → State × Nat)
    (hf : ∀ s u, (f s u).1.image = s.image) : (s.request d op k loc f).image = s.image := by
  unfold State.request
  (repeat' split) <;> simp [hf]

@[simp] theorem State.askFence_image (s : State) (die : Nat) (kind : UnitKind) (unit : Nat) :
    (s.askFence die kind unit).image = s.image := by
  unfold State.askFence
  exact State.request_image _ _ _ _ _ _ (fun _ _ => by simp)

@[simp] theorem State.askBist_image (s : State) (die : Nat) (kind : UnitKind) (unit : Nat) :
    (s.askBist die kind unit).image = s.image := by
  unfold State.askBist
  exact State.request_image _ _ _ _ _ _ (fun _ _ => by simp)

@[simp] theorem State.askReset_image (s : State) (die : Nat) (kind : UnitKind) (unit : Nat) :
    (s.askReset die kind unit).image = s.image := by
  unfold State.askReset
  exact State.request_image _ _ _ _ _ _ (fun _ _ => by simp)

@[simp] theorem State.askReturn_image (s : State) (die : Nat) (kind : UnitKind) (unit : Nat) :
    (s.askReturn die kind unit).image = s.image := by
  unfold State.askReturn
  exact State.request_image _ _ _ _ _ _ (fun _ _ => by simp)

@[simp] theorem State.killRequest_image (s : State) (d : Nat) : (s.killRequest d).1.image = s.image := by
  unfold State.killRequest
  simp only []
  (repeat' split) <;> simp only [State.raiseDie_image, State.refreshMissing_image]
  rw [foldl_image _ _ _ (fun s i => by split <;> simp), foldl_image _ _ _ (fun s i => by simp)]

@[simp] theorem State.askKill_image (s : State) (die : Nat) : (s.askKill die).image = s.image := by
  unfold State.askKill
  (repeat' split) <;> simp

@[simp] theorem State.recovGo_image (s : State) (d : Nat) : (s.recovGo d).image = s.image := by
  unfold State.recovGo
  simp only []
  split <;> simp

theorem State.updOp_image (s : State) (op : Nat) (unit : Option Nat) (f : State → State) (hf : ∀ s, (f s).image = s.image) :
    (s.updOp op unit f).image = s.image := by
  unfold State.updOp
  simp only []
  (repeat' split) <;> simp [hf]

@[simp] theorem State.updGo_image (s : State) : (s.updGo).image = s.image := by
  unfold State.updGo
  simp only []
  split <;> exact (State.updOp_image _ _ _ _ (fun _ => by simp)).trans (by simp)

@[simp] theorem State.writeAct_image (s : State) (agent : Agent) (r : Reg) (v : Nat) : (s.writeAct agent r v).image = s.image := by
  unfold State.writeAct
  split <;> (try simp only []) <;> (repeat' split) <;> simp

@[simp] theorem State.registerWrite_image (s : State) (agent : Agent) (o w : Nat) : (s.registerWrite agent o w).image = s.image := by
  have h1 (r : Reg) (v : Nat) : (s.writeReg agent r v).image = s.image := by
    unfold State.writeReg
    split <;> simp
  have h2 (a b : Nat) : (s.writeBar0 agent a b).image = s.image := by
    unfold State.writeBar0
    (repeat' split) <;> simp [h1]
  unfold State.registerWrite
  (repeat' split) <;> simp [h2]

@[simp] theorem State.putLevels_image (s : State) (v : IspView) (k : Nat) (planes : Option (List Plane)) :
    (s.putLevels v k planes).image = s.image := by
  unfold State.putLevels
  generalize s.outSlot v k = a
  induction v.levels generalizing s a with
  | nil => rfl
  | cons l ls ih => rw [List.foldl_cons, ih]; simp

@[simp] theorem State.deliverFrame_image (s : State) (v : IspView) (j : FrameJob) (planes : Option (List Plane)) (stats : List Byte) :
    (s.deliverFrame v j planes stats).image = s.image := by
  unfold State.deliverFrame
  simp

@[simp] theorem State.completeFrame_image (s : State) (v : IspView) (j : FrameJob) : (s.completeFrame v j).image = s.image := by
  unfold State.completeFrame
  simp only []
  (repeat' split) <;> simp

end Sys2Proof.Machine
end

