-- ==== Sys2Proof/Laws/FrameQueues.lean ====
section
/-! SUPPORT. The operations of the model that leave the field queues of the State as it is: one equation each. -/

namespace Sys2Proof.Machine

theorem foldl_queues {α : Type} (g : State → α → State) (l : List α) (s : State) (h : ∀ s x, (g s x).queues = s.queues) :
    (l.foldl g s).queues = s.queues := by
  induction l generalizing s with
  | nil => rfl
  | cons x l ih => simp [ih, h]

theorem foldl_run_queues {α : Type} (g : Run → α → Run) (l : List α) (r : Run) (h : ∀ r x, (g r x).st.queues = r.st.queues) :
    (l.foldl g r).st.queues = r.st.queues := by
  induction l generalizing r with
  | nil => rfl
  | cons x l ih => simp [ih, h]

theorem ite_queues (c : Prop) [Decidable c] (a b : State) : (if c then a else b).queues = if c then a.queues else b.queues := apply_ite _ _ _ _

@[simp] theorem State.msix_queues (s : State) (v : Nat) : (State.msix s v).queues = s.queues := by
  unfold State.msix
  simp

@[simp] theorem State.log_queues (s : State) (kind status unit : Nat) (detail : List Byte) : (State.log s kind status unit detail).queues = s.queues := by
  unfold State.log
  simp

@[simp] theorem State.driveSafe_queues (s : State) : (State.driveSafe s).queues = s.queues := by
  unfold State.driveSafe
  simp

@[simp] theorem State.requestSafe_queues (s : State) (sev : Nat) : (State.requestSafe s sev).queues = s.queues := by
  unfold State.requestSafe
  split <;> simp

@[simp] theorem State.noteCause_queues (s : State) : (State.noteCause s).queues = s.queues := by
  unfold State.noteCause
  simp

@[simp] theorem State.fifo_queues (s : State) (sev unit status : Nat) (stamp : Stamp) : (State.fifo s sev unit status stamp).queues = s.queues := by
  unfold State.fifo
  (repeat' split) <;> simp

@[simp] theorem State.draw_queues (s : State) : (State.draw s).2.queues = s.queues := by
  unfold State.draw
  simp

@[simp] theorem State.zeroRange_queues (s : State) (a n : Nat) : (State.zeroRange s a n).queues = s.queues := by
  unfold State.zeroRange
  simp

@[simp] theorem State.undirty_queues (s : State) (a : Nat) : (State.undirty s a).queues = s.queues := by
  unfold State.undirty
  (repeat' split) <;> simp

@[simp] theorem State.flashPut_queues (s : State) (off : Nat) (bs : List Byte) : (State.flashPut s off bs).queues = s.queues := by
  unfold State.flashPut
  simp

@[simp] theorem State.recordRepairs_queues (s : State) (es : List RepairEntry) : (State.recordRepairs s es).queues = s.queues := by
  unfold State.recordRepairs
  simp [foldl_queues, ite_queues]

@[simp] theorem State.recordRepair_queues (s : State) (e : RepairEntry) : (State.recordRepair s e).queues = s.queues := by
  unfold State.recordRepair
  simp

@[simp] theorem State.repairDramRow_queues (s : State) (a d : Nat) : (State.repairDramRow s a d).queues = s.queues := by
  unfold State.repairDramRow
  simp [foldl_queues, ite_queues]

@[simp] theorem State.oweRowTest_queues (s : State) (u : Nat) : (State.oweRowTest s u).queues = s.queues := by
  unfold State.oweRowTest
  simp

@[simp] theorem State.noteUncorrectable_queues (s : State) (a : Nat) : (State.noteUncorrectable s a).1.queues = s.queues := by
  unfold State.noteUncorrectable
  split <;> simp

@[simp] theorem State.suspectOwner_queues (s : State) (a d : Nat) : (State.suspectOwner s a d).queues = s.queues := by
  unfold State.suspectOwner
  (repeat' split) <;> simp

@[simp] theorem State.noteAddress_queues (s : State) (a : Nat) : (State.noteAddress s a).queues = s.queues := by
  unfold State.noteAddress
  simp
  (repeat' split) <;> simp

@[simp] theorem State.noteCorrected_queues (s : State) (a : Nat) : (State.noteCorrected s a).queues = s.queues := by
  unfold State.noteCorrected
  split <;> simp

@[simp] theorem State.linkTry_queues (s : State) (u : Nat) : (State.linkTry s u).1.queues = s.queues := by
  unfold State.linkTry
  simp
  (repeat' split) <;> simp

@[simp] theorem State.fetchStored_queues (s : State) (u size : Nat) : (State.fetchStored s u size).st.queues = s.queues := by
  unfold State.fetchStored
  simp
  (repeat' split) <;> simp

@[simp] theorem State.fetchUnit_queues (s : State) (u size : Nat) : (State.fetchUnit s u size).st.queues = s.queues := by
  unfold State.fetchUnit
  simp
  (repeat' split) <;> simp

@[simp] theorem State.fetchPart_queues (s : State) (first : Bool) (u size : Nat) : (State.fetchPart s first u size).st.queues = s.queues := by
  unfold State.fetchPart
  split <;> simp

@[simp] theorem State.fetchUnits_queues (line : Option Nat) (x1 : List (Nat × Nat)) (r : Fetch) : (State.fetchUnits line x1 r).st.queues = r.st.queues := by
  induction x1 generalizing r line with
  | nil => rfl
  | cons e l ih =>
    unfold State.fetchUnits
    split
    · rfl
    · simp [ih]

@[simp] theorem State.fetch_queues (s : State) (a n : Nat) : (State.fetch s a n).st.queues = s.queues := by
  unfold State.fetch
  simp

@[simp] theorem State.fetchAll_queues (x1 : List (Nat × Nat)) (s : State) : (State.fetchAll x1 s).1.queues = s.queues := by
  induction x1 generalizing s <;> unfold State.fetchAll <;> (repeat' split) <;> simp_all <;> (repeat' split) <;> simp_all

@[simp] theorem State.storeUnit_queues (s : State) (first : Bool) (u size a : Nat) (bs : List Byte) : (State.storeUnit s first u size a bs).1.queues = s.queues := by
  unfold State.storeUnit
  simp
  (repeat' split) <;> simp

@[simp] theorem State.storeUnits_queues (stop : Bool) (a : Nat) (bs : List Byte) (line : Option (Nat × Bool)) (x1 : List (Nat × Nat)) (r : State × Nat) : (State.storeUnits stop a bs line x1 r).1.queues = r.1.queues := by
  induction x1 generalizing stop a bs line r with
  | nil => simp [State.storeUnits]
  | cons e l ih => simp [State.storeUnits]; (repeat' split) <;> simp [ih]

@[simp] theorem State.store_queues (s : State) (a : Nat) (bs : List Byte) : (State.store s a bs).1.queues = s.queues := by
  unfold State.store
  simp

@[simp] theorem State.storeHost_queues (s : State) (a : Nat) (bs : List Byte) : (State.storeHost s a bs).1.queues = s.queues := by
  unfold State.storeHost
  simp

@[simp] theorem State.put_queues (s : State) (a : Nat) (bs : List Byte) : (State.put s a bs).queues = s.queues := by
  unfold State.put
  simp

@[simp] theorem State.readOpen_queues (s : State) (a n : Nat) : (State.readOpen s a n).1.queues = s.queues := by
  unfold State.readOpen
  split <;> simp

@[simp] theorem State.dropAt_queues (s : State) (d : Nat) : (State.dropAt s d).queues = s.queues := by
  unfold State.dropAt
  simp

@[simp] theorem State.signalLocal_queues (s : State) (outstanding : Bool) (ref add : Nat) : (State.signalLocal s outstanding ref add).queues = s.queues := by
  unfold State.signalLocal
  simp [foldl_queues, ite_queues]

@[simp] theorem State.setObject_queues (s : State) (ref value : Nat) : (State.setObject s ref value).queues = s.queues := by
  unfold State.setObject
  simp [foldl_queues, ite_queues]

@[simp] theorem State.storeParts_queues (a : Nat) (x1 : List (Nat × List Byte)) (s : State) : (State.storeParts a x1 s).1.queues = s.queues := by
  induction x1 generalizing a s with
  | nil => simp [State.storeParts]
  | cons e l ih => simp [State.storeParts]; (repeat' split) <;> simp [ih]

@[simp] theorem State.deliver_queues (s : State) (t : Nat) (m : Message) : (State.deliver s t m).1.queues = s.queues := by
  unfold State.deliver
  simp
  (repeat' split) <;> simp

@[simp] theorem State.queueAt_queues (s : State) (p : Nat) (k : Packet) : (State.queueAt s p k).queues = s.queues := by
  unfold State.queueAt
  simp

@[simp] theorem State.dropPacket_queues (s : State) (die : Nat) : (State.dropPacket s die).queues = s.queues := by
  unfold State.dropPacket
  simp

@[simp] theorem State.lostRequest_queues (s : State) (die : Nat) : (State.lostRequest s die).queues = s.queues := by
  unfold State.lostRequest
  simp

@[simp] theorem State.sendData_queues (s : State) (die : Nat) (k : Packet) (req : Option (Nat × Nat)) : (State.sendData s die k req).1.queues = s.queues := by
  unfold State.sendData
  (repeat' split) <;> simp

@[simp] theorem State.sendRequest_queues (s : State) (die : Nat) (k : Packet) (q pos : Nat) : (State.sendRequest s die k q pos).1.queues = s.queues := by
  unfold State.sendRequest
  simp

@[simp] theorem State.toMailbox_queues (s : State) (b : List Byte) : (State.toMailbox s b).queues = s.queues := by
  unfold State.toMailbox
  split <;> simp

@[simp] theorem State.mgmtThrough_queues (s : State) (p dst vl : Nat) (b : List Byte) : (State.mgmtThrough s p dst vl b).queues = s.queues := by
  unfold State.mgmtThrough
  split <;> simp

@[simp] theorem State.stampMgmt_queues (s : State) (m : Mgmt) : (State.stampMgmt s m).1.queues = s.queues := by
  unfold State.stampMgmt
  simp

@[simp] theorem State.mgmtOnward_queues (s : State) (die vl : Nat) (m : Mgmt) : (State.mgmtOnward s die vl m).queues = s.queues := by
  unfold State.mgmtOnward
  (repeat' split) <;> simp

@[simp] theorem State.sendHello_queues (s : State) (p : Nat) : (State.sendHello s p).queues = s.queues := by
  unfold State.sendHello
  simp

@[simp] theorem State.sendLinkDown_queues (s : State) (p : Nat) : (State.sendLinkDown s p).queues = s.queues := by
  unfold State.sendLinkDown
  simp [foldl_queues, ite_queues]

@[simp] theorem State.sendMgmt_queues (s : State) (die : Nat) (m : Mgmt) : (State.sendMgmt s die m).queues = s.queues := by
  unfold State.sendMgmt
  split <;> simp

@[simp] theorem State.sendAck_queues (s : State) (die dest status : Nat) : (State.sendAck s die dest status).queues = s.queues := by
  unfold State.sendAck
  split <;> simp

@[simp] theorem State.answerBack_queues (s : State) (p : Nat) (k : Packet) (code : Nat) : (State.answerBack s p k code).queues = s.queues := by
  unfold State.answerBack
  split <;> simp

@[simp] theorem State.loseTransit_queues (s : State) (p : Nat) (l : List (Nat × Packet)) : (State.loseTransit s p l).queues = s.queues := by
  unfold State.loseTransit
  simp [foldl_queues, ite_queues]

@[simp] theorem State.retrainPort_queues (s : State) (p : Nat) : (State.retrainPort s p).queues = s.queues := by
  unfold State.retrainPort
  simp

@[simp] theorem State.replayPort_queues (s : State) (p : Nat) : (State.replayPort s p).queues = s.queues := by
  unfold State.replayPort
  simp [foldl_queues, ite_queues]

@[simp] theorem State.cmdFetch_queues (s : State) (c : Ctx) (a n : Nat) : (State.cmdFetch s c a n).st.queues = s.queues := by
  unfold State.cmdFetch
  split <;> simp

@[simp] theorem checkHeader_queues (s : State) (c : Ctx) (t : Tensor) (applies : Bool) : (checkHeader s c t applies).1.queues = s.queues := by
  unfold checkHeader
  simp
  (repeat' split) <;> simp

@[simp] theorem fetchTensor_queues (s : State) (c : Ctx) (u : Use) (a : Nat) : (fetchTensor s c u a).1.queues = s.queues := by
  unfold fetchTensor
  (repeat' split) <;> simp

@[simp] theorem randomChecks_queues (s : State) (c : Ctx) (x : Opnds) : (randomChecks s c x).1.queues = s.queues := by
  unfold randomChecks
  simp
  (repeat' split) <;> simp

@[simp] theorem startChecks_queues (s : State) (c : Ctx) (o : Op) (x : Opnds) : (startChecks s c o x).1.queues = s.queues := by
  unfold startChecks
  simp

@[simp] theorem operandHeader_queues (s : State) (c : Ctx) (o : Op) (t : Option Tensor) (applies : Tensor → Bool) : (operandHeader s c o t applies).1.queues = s.queues := by
  unfold operandHeader
  (repeat' split) <;> simp

@[simp] theorem decodeCmd_queues (s : State) (c : Ctx) (engine p a : Nat) : (decodeCmd s c engine p a).st.queues = s.queues := by
  unfold decodeCmd
  lift_lets
  intro f d fl
  have hf : f.st.queues = s.queues := by simp [f]
  clear_value f
  split
  · exact hf
  · split
    · exact hf
    · lift_lets
      intro us r0 r1 rd
      have h0 : r0.1.queues = s.queues := by simp [r0, hf]
      have h1 : r1.1.queues = s.queues := by simp [r1, h0]
      have h2 : rd.1.queues = s.queues := by simp [rd, h1]
      clear_value r0 r1 rd
      intro v x a0 a1 ad
      have h3 : ad.1.queues = s.queues := by simp [ad, a1, a0, h2]
      clear_value a0 a1 ad x v
      intro codes
      clear_value codes
      intro st
      have h4 : st.1.queues = s.queues := by simp [st, h3]
      (repeat' split) <;> assumption

@[simp] theorem Run.readUnits_queues (x1 : List (Nat × Nat)) (r : Run) : (Run.readUnits x1 r).st.queues = r.st.queues := by
  induction x1 generalizing r <;> unfold Run.readUnits <;> (repeat' split) <;> simp_all <;> (repeat' split) <;> simp_all

@[simp] theorem Run.read_queues (c : Ctx) (a n : Nat) (r : Run) : (Run.read c a n r).st.queues = r.st.queues := by
  unfold Run.read
  (repeat' split) <;> simp

@[simp] theorem Run.readScales_queues (c : Ctx) (h : ScaleHdr) (x1 : List Nat) (r : Run) : (Run.readScales c h x1 r).st.queues = r.st.queues := by
  induction x1 generalizing r <;> unfold Run.readScales <;> (repeat' split) <;> simp_all <;> (repeat' split) <;> simp_all

@[simp] theorem State.tagMismatch_queues (s : State) (c : Ctx) (fl : InFlight) (opnd j dtag stag : Nat) : (State.tagMismatch s c fl opnd j dtag stag).queues = s.queues := by
  unfold State.tagMismatch
  simp

@[simp] theorem Run.consume_queues (c : Ctx) (fl : InFlight) (opnd : Nat) (t : Tensor) (h : ScaleHdr) (j : Nat) (r : Run) : (Run.consume c fl opnd t h j r).st.queues = r.st.queues := by
  unfold Run.consume
  simp
  (repeat' split) <;> simp

@[simp] theorem Run.elems_queues (c : Ctx) (fl : InFlight) (consumes : Bool) (opnd lo n : Nat) (r : Run) :
    (r.elems c fl consumes opnd lo n).st.queues = r.st.queues := by
  unfold Run.elems
  split
  · rfl
  · lift_lets
    intro r1 a len r2
    have h1 : r1.st.queues = r.st.queues := by
      simp only [r1]
      split
      · exact foldl_run_queues _ _ _ (fun r x => Run.consume_queues ..)
      · rfl
    have h2 : r2.st.queues = r.st.queues := by simp [r2, h1]
    split <;> exact h2

@[simp] theorem Run.step_queues (c : Ctx) (fl : InFlight) (consumes : Bool) (r : Run) (x1 : PlanStep) : (Run.step c fl consumes r x1).st.queues = r.st.queues := by
  unfold Run.step
  (repeat' split) <;> simp

@[simp] theorem Run.plan_queues (c : Ctx) (fl : InFlight) (consumes : Bool) (p : List PlanStep) (r : Run) : (Run.plan c fl consumes p r).st.queues = r.st.queues := by
  unfold Run.plan
  simp [foldl_run_queues]

@[simp] theorem State.storeMerged_queues (t : Tensor) (x1 : List (Row × Nat)) (s : State) (x3 : Nat) : (State.storeMerged t x1 s x3).1.queues = s.queues := by
  induction x1 generalizing t s x3 with
  | nil => simp [State.storeMerged]
  | cons e l ih => simp [State.storeMerged]; (repeat' split) <;> simp [ih]

@[simp] theorem State.storeRows_queues (t : Tensor) (rows : List Row) (s : State) : (State.storeRows t rows s).1.queues = s.queues := by
  unfold State.storeRows
  simp

@[simp] theorem State.undoWrites_queues (s before : State) : (State.undoWrites s before).queues = s.queues := by
  unfold State.undoWrites
  simp

@[simp] theorem State.storeGroups_queues (exact : Bool) (t : Tensor) (x1 : List (List Row)) (s : State) (x3 : Nat) : (State.storeGroups exact t x1 s x3).1.queues = s.queues := by
  induction x1 generalizing exact t s x3 with
  | nil => simp [State.storeGroups]
  | cons e l ih => simp [State.storeGroups]; (repeat' split) <;> simp [ih]

@[simp] theorem State.storeTrailer_queues (c : Ctx) (t : Tensor) (h : ScaleHdr) (x1 : List Nat) (s : State) : (State.storeTrailer c t h x1 s).1.queues = s.queues := by
  induction x1 generalizing c t h s with
  | nil => simp [State.storeTrailer]
  | cons e l ih => simp [State.storeTrailer]; (repeat' split) <;> simp [ih]

@[simp] theorem freePrefix_queues (exact : Bool) (s : State) (n : Nat) : (freePrefix exact s n).2.queues = s.queues := by
  unfold freePrefix
  split <;> simp

@[simp] theorem Run.finish_queues (c : Ctx) (fl : InFlight) (rounds exact : Bool) (verdict : State → Nat) (e : Effect) (r : Run) : (Run.finish c fl rounds exact verdict e r).st.queues = r.st.queues := by
  unfold Run.finish
  simp
  (repeat' split) <;> simp

@[simp] theorem State.kindlingFail_queues (s : State) (tile engine : Nat) : (State.kindlingFail s tile engine).queues = s.queues := by
  unfold State.kindlingFail
  simp

@[simp] theorem runEffect_queues (consumes rounds exact : Bool) (verdict : State → Nat) (plan : List PlanStep) (e : Effect) (c : Ctx) (f : InFlight) (s : State) : (runEffect consumes rounds exact verdict plan e c f s).1.st.queues = s.queues := by
  unfold runEffect
  extract_lets r d w
  split <;> simp [r, d, w]

@[simp] theorem State.residueCheck_queues (s : State) (tile : Nat) (bad : List Nat) : (State.residueCheck s tile bad).queues = s.queues := by
  unfold State.residueCheck
  split <;> simp

@[simp] theorem MeJob.settle_queues (j : MeJob) (s s0 : State) (f : InFlight) (tile seen : Nat) (swaps : Bool) : (MeJob.settle j s s0 f tile seen swaps).queues = s.queues := by
  unfold MeJob.settle
  (repeat' split) <;> simp

@[simp] theorem runMe_queues (o : Op) (verdict : State → Nat) (c : Ctx) (f : InFlight) (s : State) : (runMe o verdict c f s).1.queues = s.queues := by
  unfold runMe
  simp
  (repeat' split) <;> simp

@[simp] theorem runGslice_queues (c : Ctx) (f : InFlight) (s : State) : (runGslice c f s).1.queues = s.queues := by
  unfold runGslice
  simp
  (repeat' split) <;> simp

@[simp] theorem runVe_queues (plan : List PlanStep) (e : Effect) (c : Ctx) (f : InFlight) (s : State) : (runVe plan e c f s).1.queues = s.queues := by
  unfold runVe
  simp

@[simp] theorem runBinary_queues (c : Ctx) (f : InFlight) (s : State) : (runBinary c f s).1.queues = s.queues := by
  unfold runBinary
  split <;> simp

@[simp] theorem runUnary_queues (c : Ctx) (f : InFlight) (s : State) : (runUnary c f s).1.queues = s.queues := by
  unfold runUnary
  split <;> simp

@[simp] theorem runCvt_queues (c : Ctx) (f : InFlight) (s : State) : (runCvt c f s).1.queues = s.queues := by
  unfold runCvt
  split <;> simp

@[simp] theorem runReduce_queues (c : Ctx) (f : InFlight) (s : State) : (runReduce c f s).1.queues = s.queues := by
  unfold runReduce
  split <;> simp

@[simp] theorem runPool_queues (c : Ctx) (f : InFlight) (s : State) : (runPool c f s).1.queues = s.queues := by
  unfold runPool
  split <;> simp

@[simp] theorem runNorm_queues (c : Ctx) (f : InFlight) (s : State) : (runNorm c f s).1.queues = s.queues := by
  unfold runNorm
  split <;> simp

@[simp] theorem runScatter_queues (c : Ctx) (f : InFlight) (s : State) : (runScatter c f s).1.queues = s.queues := by
  unfold runScatter
  split <;> simp

@[simp] theorem State.storeAll_queues (c : Ctx) (x1 : List SmWrite) (s : State) : (State.storeAll c x1 s).1.queues = s.queues := by
  induction x1 generalizing c s with
  | nil => simp [State.storeAll]
  | cons e l ih => simp [State.storeAll]; (repeat' split) <;> simp [ih]

@[simp] theorem State.softmaxReads_queues (s : State) (c : Ctx) (f : InFlight) (a : Tensor) : (State.softmaxReads s c f a).st.queues = s.queues := by
  unfold State.softmaxReads
  simp
  (repeat' split) <;> simp

@[simp] theorem runSoftmax_queues (c : Ctx) (f : InFlight) (s : State) : (runSoftmax c f s).1.queues = s.queues := by
  unfold runSoftmax
  simp
  (repeat' split) <;> simp

@[simp] theorem State.copyTrailer_queues (c : Ctx) (a t : Tensor) (x1 : List Nat) (s : State) : (State.copyTrailer c a t x1 s).1.queues = s.queues := by
  induction x1 generalizing c a t s with
  | nil => simp [State.copyTrailer]
  | cons e l ih => simp [State.copyTrailer]; (repeat' split) <;> simp [ih]

@[simp] theorem runCopy_queues (c : Ctx) (f : InFlight) (s : State) : (runCopy c f s).1.queues = s.queues := by
  unfold runCopy
  (repeat' split) <;> simp

@[simp] theorem runFill_queues (c : Ctx) (f : InFlight) (s : State) : (runFill c f s).1.queues = s.queues := by
  unfold runFill
  split <;> simp

@[simp] theorem State.sendRequests_queues (die q pos : Nat) (x1 : List Packet) (s : State) (x3 : Nat) : (State.sendRequests die q pos x1 s x3).1.queues = s.queues := by
  induction x1 generalizing s x3 <;> unfold State.sendRequests <;> (repeat' split) <;> simp_all <;> (repeat' split) <;> simp_all

@[simp] theorem sendRemote_queues (c : Ctx) (f : InFlight) (a : Tensor) (s data : State) : (sendRemote c f a s data).1.queues = s.queues := by
  unfold sendRemote
  simp

@[simp] theorem sendLocal_queues (c : Ctx) (f : InFlight) (a : Tensor) (s data : State) : (sendLocal c f a s data).1.queues = s.queues := by
  unfold sendLocal
  simp
  (repeat' split) <;> simp

@[simp] theorem runSend_queues (c : Ctx) (f : InFlight) (s : State) : (runSend c f s).1.queues = s.queues := by
  unfold runSend
  simp
  (repeat' split) <;> simp

@[simp] theorem State.defineWindow_queues (s : State) (f : InFlight) : (State.defineWindow s f).queues = s.queues := by
  unfold State.defineWindow
  simp

@[simp] theorem runPublish_queues (c : Ctx) (f : InFlight) (s : State) : (runPublish c f s).1.queues = s.queues := by
  unfold runPublish
  simp
  (repeat' split) <;> simp

@[simp] theorem State.stageBytes_queues (s : State) : (State.stageBytes s).queues = s.queues := by
  unfold State.stageBytes
  simp
  (repeat' split) <;> simp

@[simp] theorem runSetsync_queues (c : Ctx) (f : InFlight) (s : State) : (runSetsync c f s).1.queues = s.queues := by
  unfold runSetsync
  simp
  (repeat' split) <;> simp

@[simp] theorem State.payZero_queues (s : State) (tile : Nat) : (State.payZero s tile).queues = s.queues := by
  unfold State.payZero
  split <;> simp

@[simp] theorem State.meFlags_queues (s : State) (q : Nat) (f : InFlight) : (State.meFlags s q f).queues = s.queues := by
  unfold State.meFlags
  (repeat' split) <;> simp

@[simp] theorem State.clearKindling_queues (s : State) (f : InFlight) : (State.clearKindling s f).queues = s.queues := by
  unfold State.clearKindling
  split <;> simp

@[simp] theorem State.updUnit_queues (s : State) (k : UnitKind) (u : Nat) (f : UnitSt → UnitSt) : (State.updUnit s k u f).queues = s.queues := by
  unfold State.updUnit
  split <;> simp

@[simp] theorem State.setUnit_queues (s : State) (k : UnitKind) (u : Nat) (st : UnitState) : (State.setUnit s k u st).queues = s.queues := by
  unfold State.setUnit
  simp

@[simp] theorem State.refreshMissing_queues (s : State) : (State.refreshMissing s).queues = s.queues := by
  unfold State.refreshMissing
  simp [foldl_queues, ite_queues]

@[simp] theorem State.recallMessages_queues (s : State) (cmds : List (Nat × Nat)) (x1 : List Nat) : (State.recallMessages s cmds x1).queues = s.queues := by
  induction x1 generalizing s cmds with
  | nil => rfl
  | cons e l ih => simp [State.recallMessages, ih]

@[simp] theorem State.absorb_queues (s : State) (k : UnitKind) (u : Nat) : (State.absorb s k u).queues = s.queues := by
  unfold State.absorb
  simp [foldl_queues, ite_queues]

@[simp] theorem State.stageFail_queues (s : State) (unit status : Nat) : (State.stageFail s unit status).queues = s.queues := by
  unfold State.stageFail
  simp

@[simp] theorem State.failStage_queues (s : State) (bitNo unit status : Nat) : (State.failStage s bitNo unit status).queues = s.queues := by
  unfold State.failStage
  simp

@[simp] theorem State.endDrains_queues (s : State) (k : UnitKind) (u : Nat) : (State.endDrains s k u).queues = s.queues := by
  unfold State.endDrains
  simp [foldl_queues, ite_queues]

@[simp] theorem State.openFence_queues (s : State) (k : UnitKind) (u cause : Nat) (st : UnitState) : (State.openFence s k u cause st).queues = s.queues := by
  unfold State.openFence
  simp

@[simp] theorem State.planFence_queues (s : State) (k : UnitKind) (u : Nat) (p : FencePurpose) : (State.planFence s k u p).queues = s.queues := by
  unfold State.planFence
  simp

@[simp] theorem State.recovStatus_queues (s : State) (d status : Nat) : (State.recovStatus s d status).queues = s.queues := by
  unfold State.recovStatus
  simp

@[simp] theorem State.recovWrite_queues (s : State) (d op : Nat) (k : UnitKind) (loc : Nat) : (State.recovWrite s d op k loc).queues = s.queues := by
  unfold State.recovWrite
  simp

@[simp] theorem State.loadRepair_queues (s : State) (p : Nat) : (State.loadRepair s p).queues = s.queues := by
  unfold State.loadRepair
  simp

@[simp] theorem State.startRounds_queues (s : State) (k : UnitKind) (u : Nat) : (State.startRounds s k u).queues = s.queues := by
  unfold State.startRounds
  simp

@[simp] theorem State.bringIn_queues (s : State) (k : UnitKind) (u : Nat) : (State.bringIn s k u).queues = s.queues := by
  unfold State.bringIn
  simp

@[simp] theorem State.readyUnit_queues (s : State) (k : UnitKind) (u : Nat) : (State.readyUnit s k u).queues = s.queues := by
  unfold State.readyUnit
  split <;> simp

@[simp] theorem State.linkStillFails_queues (s : State) (d : Nat) : (State.linkStillFails s d).queues = s.queues := by
  unfold State.linkStillFails
  split <;> simp

@[simp] theorem State.stageEnd_queues (s : State) (bits : Nat) : (State.stageEnd s bits).queues = s.queues := by
  unfold State.stageEnd
  simp

@[simp] theorem State.dumpSummary_queues (s : State) (k : UnitKind) (u status seq : Nat) : (State.dumpSummary s k u status seq).queues = s.queues := by
  unfold State.dumpSummary
  simp

@[simp] theorem State.writeDump_queues (s : State) (k : UnitKind) (u : Nat) (hungTiles hungClusters : List Nat) : (State.writeDump s k u hungTiles hungClusters).queues = s.queues := by
  unfold State.writeDump
  simp
  (repeat' split) <;> simp

@[simp] theorem State.clearCluster_queues (s : State) (c : Nat) : (State.clearCluster s c).queues = s.queues := by
  unfold State.clearCluster
  simp

@[simp] theorem State.powerForReset_queues (s : State) (k : UnitKind) (u : Nat) : (State.powerForReset s k u).queues = s.queues := by
  unfold State.powerForReset
  (repeat' split) <;> simp

@[simp] theorem State.failUnit_queues (s : State) (k : UnitKind) (u : Nat) : (State.failUnit s k u).queues = s.queues := by
  unfold State.failUnit
  simp

@[simp] theorem State.zeroTiles_queues (s : State) (ts : List Nat) : (State.zeroTiles s ts).queues = s.queues := by
  unfold State.zeroTiles
  simp [foldl_queues, ite_queues]

@[simp] theorem State.returnUnit_queues (s : State) (k : UnitKind) (u : Nat) : (State.returnUnit s k u).1.queues = s.queues := by
  unfold State.returnUnit
  simp
  (repeat' split) <;> simp

@[simp] theorem State.returnsAt_queues (s : State) (n : Nat) : (State.returnsAt s n).queues = s.queues := by
  unfold State.returnsAt
  simp [foldl_queues, ite_queues]

@[simp] theorem State.fenceRequest_queues (s : State) (k : UnitKind) (p : FencePurpose) (policyBit u : Nat) : (State.fenceRequest s k p policyBit u).1.queues = s.queues := by
  unfold State.fenceRequest
  simp
  (repeat' split) <;> simp

@[simp] theorem State.resetRequest_queues (s : State) (k : UnitKind) (u : Nat) : (State.resetRequest s k u).1.queues = s.queues := by
  unfold State.resetRequest
  simp
  (repeat' split) <;> simp

@[simp] theorem State.tagCarve_queues (s : State) (c : Carveout) : (State.tagCarve s c).queues = s.queues := by
  unfold State.tagCarve
  split <;> simp

@[simp] theorem State.writeRepair_queues (s : State) (agent : Agent) (t w : Nat) : (State.writeRepair s agent t w).queues = s.queues := by
  unfold State.writeRepair
  (repeat' split) <;> simp

@[simp] theorem State.rebuildViews_queues (s : State) (d : Nat) : (State.rebuildViews s d).queues = s.queues := by
  unfold State.rebuildViews
  simp [foldl_queues, ite_queues]

@[simp] theorem State.schedDone_queues (s : State) : (State.schedDone s).queues = s.queues := by
  unfold State.schedDone
  simp

@[simp] theorem State.clearSlices_queues (s : State) : (State.clearSlices s).queues = s.queues := by
  unfold State.clearSlices
  apply foldl_queues
  intros
  simp

@[simp] theorem State.releaseAt_queues (s : State) : (State.releaseAt s).queues = s.queues := by
  unfold State.releaseAt
  split <;> simp

@[simp] theorem State.putLost_queues (s : State) : (State.putLost s).queues = s.queues := by
  unfold State.putLost
  (repeat' split) <;> simp

@[simp] theorem State.recordLost_queues (s : State) (n : Nat) : (State.recordLost s n).queues = s.queues := by
  unfold State.recordLost
  simp

@[simp] theorem State.ringVector_queues (s : State) : (State.ringVector s).queues = s.queues := by
  unfold State.ringVector
  simp [foldl_queues, ite_queues]

@[simp] theorem State.recordWrite_queues (s : State) (rec : List Byte) : (State.recordWrite s rec).queues = s.queues := by
  unfold State.recordWrite
  simp

@[simp] theorem State.lateEvent_queues (s : State) (n : Nat) : (State.lateEvent s n).queues = s.queues := by
  unfold State.lateEvent
  split <;> simp

@[simp] theorem State.oldest_queues (s : State) (missing : Option Nat) : (State.oldest s missing).1.queues = s.queues := by
  unfold State.oldest
  split <;> simp

@[simp] theorem State.commitBeat_queues (s : State) (n : Nat) (missing : Option Nat) : (State.commitBeat s n missing).queues = s.queues := by
  unfold State.commitBeat
  simp [foldl_queues, ite_queues]

@[simp] theorem State.recordCommit_queues (s : State) : (State.recordCommit s).queues = s.queues := by
  unfold State.recordCommit
  simp [foldl_queues, ite_queues]

@[simp] theorem State.updCvu_queues (s : State) (unit : Nat) (f : CvuSt → CvuSt) : (State.updCvu s unit f).queues = s.queues := by
  unfold State.updCvu
  split <;> simp

@[simp] theorem State.updCtxOf_queues (s : State) (unit c : Nat) (f : CvuCtx → CvuCtx) : (State.updCtxOf s unit c f).queues = s.queues := by
  unfold State.updCtxOf
  simp

@[simp] theorem State.cvuDrop_queues (s : State) (unit : Nat) : (State.cvuDrop s unit).queues = s.queues := by
  unfold State.cvuDrop
  split <;> simp

@[simp] theorem State.cvuAdvance_queues (s : State) (unit ctx : Nat) : (State.cvuAdvance s unit ctx).queues = s.queues := by
  unfold State.cvuAdvance
  simp

@[simp] theorem State.cvuInit_queues (s : State) (agent : Agent) (unit ctx value : Nat) : (State.cvuInit s agent unit ctx value).queues = s.queues := by
  unfold State.cvuInit
  (repeat' split) <;> simp

@[simp] theorem State.cvuFeedWrite_queues (s : State) (agent : Agent) (unit ctx size data : Nat) : (State.cvuFeedWrite s agent unit ctx size data).queues = s.queues := by
  unfold State.cvuFeedWrite
  (repeat' split) <;> simp

@[simp] theorem State.cvuClear_queues (s : State) (agent : Agent) (unit ctx v : Nat) : (State.cvuClear s agent unit ctx v).queues = s.queues := by
  unfold State.cvuClear
  split <;> simp

@[simp] theorem State.cvuResultRead_queues (s : State) (unit ctx index : Nat) : (State.cvuResultRead s unit ctx index).queues = s.queues := by
  unfold State.cvuResultRead
  (repeat' split) <;> simp

@[simp] theorem State.scanLines_queues (s : State) (own : Option Nat) (p : Poly) (x1 : Nat) (x2 : Nat) (x3 : Nat) : (State.scanLines s own p x1 x2 x3).1.queues = s.queues := by
  induction x1 generalizing s x2 x3 <;> unfold State.scanLines <;> (repeat' split) <;> simp_all <;> (repeat' split) <;> simp_all

@[simp] theorem State.scanRange_queues (s : State) (own : Option Nat) (poly a len : Nat) : (State.scanRange s own poly a len).1.queues = s.queues := by
  unfold State.scanRange
  split <;> simp

@[simp] theorem State.scanSome_queues (s : State) (unit n : Nat) : (State.scanSome s unit n).queues = s.queues := by
  unfold State.scanSome
  simp [foldl_queues, ite_queues]

@[simp] theorem State.scanTick_queues (s : State) : (State.scanTick s).queues = s.queues := by
  unfold State.scanTick
  simp [foldl_queues, ite_queues]

@[simp] theorem State.scanGo_queues (s : State) (agent : Agent) (unit : Nat) : (State.scanGo s agent unit).queues = s.queues := by
  unfold State.scanGo
  simp [foldl_queues, ite_queues]

@[simp] theorem State.readCopy_queues (s : State) (p k : Nat) : (State.readCopy s p k).1.queues = s.queues := by
  unfold State.readCopy
  simp
  (repeat' split) <;> simp

@[simp] theorem State.cameraBufs_queues (k : Nat) (x1 : List (Nat × Nat)) (s : State) : (State.cameraBufs k x1 s).1.queues = s.queues := by
  induction x1 generalizing s <;> unfold State.cameraBufs <;> (repeat' split) <;> simp_all <;> (repeat' split) <;> simp_all

@[simp] theorem State.checkerDone_queues (s : State) : (State.checkerDone s).queues = s.queues := by
  unfold State.checkerDone
  split <;> simp

@[simp] theorem State.headerArrives_queues (s : State) (m : Mirror) : (State.headerArrives s m).queues = s.queues := by
  unfold State.headerArrives
  simp
  (repeat' split) <;> simp

@[simp] theorem State.headerMissing_queues (s : State) (n : Nat) : (State.headerMissing s n).queues = s.queues := by
  unfold State.headerMissing
  split <;> simp

@[simp] theorem State.cmpOutcome_queues (s : State) (row : Nat) (u : Option (Nat × Nat)) : (State.cmpOutcome s row u).queues = s.queues := by
  unfold State.cmpOutcome
  simp [foldl_queues, ite_queues]

@[simp] theorem State.compareNext_queues (s : State) : (State.compareNext s).queues = s.queues := by
  unfold State.compareNext
  simp
  (repeat' split) <;> simp

@[simp] theorem State.requestRelease_queues (s : State) : (State.requestRelease s).queues = s.queues := by
  unfold State.requestRelease
  (repeat' split) <;> simp

@[simp] theorem State.verifySum_queues (s : State) (u : Nat) (e : ChkSum) : (State.verifySum s u e).1.queues = s.queues := by
  unfold State.verifySum
  simp

@[simp] theorem State.sumForReturn_queues (s : State) (i cvu : Nat) (e : ChkSum) (k : UnitKind) (u : Nat) : (State.sumForReturn s i cvu e k u).queues = s.queues := by
  unfold State.sumForReturn
  simp [foldl_queues, ite_queues]

@[simp] theorem State.sumFirstFrame_queues (s : State) (i cvu : Nat) (e : ChkSum) : (State.sumFirstFrame s i cvu e).queues = s.queues := by
  unfold State.sumFirstFrame
  simp [foldl_queues, ite_queues]

@[simp] theorem State.testPass_queues (s : State) (t : TestTarget) (unit : Nat) : (State.testPass s t unit).queues = s.queues := by
  unfold State.testPass
  simp

@[simp] theorem State.flashErase_queues (s : State) (a n : Nat) : (State.flashErase s a n).queues = s.queues := by
  unfold State.flashErase
  simp

@[simp] theorem State.ashProgram_queues (s : State) : (State.ashProgram s).queues = s.queues := by
  unfold State.ashProgram
  simp [foldl_queues, ite_queues]

@[simp] theorem State.ashFetched_queues (s : State) : (State.ashFetched s).queues = s.queues := by
  unfold State.ashFetched
  simp
  (repeat' split) <;> simp

@[simp] theorem State.ashRestore_queues (s : State) : (State.ashRestore s).queues = s.queues := by
  unfold State.ashRestore
  simp

@[simp] theorem State.ppsMissing_queues (s : State) : (State.ppsMissing s).queues = s.queues := by
  unfold State.ppsMissing
  split <;> simp

@[simp] theorem State.logTxn_queues (s : State) (status : Nat) (t : Txn) : (State.logTxn s status t).queues = s.queues := by
  unfold State.logTxn
  simp

@[simp] theorem State.txnRollback_queues (s : State) : (State.txnRollback s).queues = s.queues := by
  unfold State.txnRollback
  split <;> simp

@[simp] theorem State.checkHeldStart_queues (s : State) : (State.checkHeldStart s).queues = s.queues := by
  unfold State.checkHeldStart
  (repeat' split) <;> simp

@[simp] theorem State.rearmSeconds_queues (s : State) : (State.rearmSeconds s).queues = s.queues := by
  unfold State.rearmSeconds
  simp [foldl_queues, ite_queues]

@[simp] theorem State.reachReplay_queues (s : State) : (State.reachReplay s).queues = s.queues := by
  unfold State.reachReplay
  simp [foldl_queues, ite_queues]

@[simp] theorem State.firstStep_queues (s : State) (t : Instant) : (State.firstStep s t).queues = s.queues := by
  unfold State.firstStep
  simp

@[simp] theorem State.tbStatus_queues (s : State) (status : Nat) : (State.tbStatus s status).queues = s.queues := by
  unfold State.tbStatus
  simp

@[simp] theorem State.step_queues (s : State) : (State.step s).queues = s.queues := by
  unfold State.step
  (repeat' split) <;> simp

@[simp] theorem State.writeIncr_queues (s : State) (v : Nat) : (State.writeIncr s v).queues = s.queues := by
  unfold State.writeIncr
  split <;> simp

@[simp] theorem State.reepoch_queues (s : State) : (State.reepoch s).queues = s.queues := by
  unfold State.reepoch
  simp [foldl_queues, ite_queues]

@[simp] theorem State.jump_queues (s : State) (t : Instant) (d : Int) : (State.jump s t d).queues = s.queues := by
  unfold State.jump
  (repeat' split) <;> simp

@[simp] theorem State.reepochApply_queues (s : State) : (State.reepochApply s).queues = s.queues := by
  unfold State.reepochApply
  (repeat' split) <;> simp

@[simp] theorem State.snapLatch_queues (s : State) : (State.snapLatch s).queues = s.queues := by
  unfold State.snapLatch
  simp

@[simp] theorem State.answerWord_queues (s : State) (w : Nat) : (State.answerWord s w).queues = s.queues := by
  unfold State.answerWord
  simp

@[simp] theorem State.countOffset_queues (s : State) (offset : Int) : (State.countOffset s offset).queues = s.queues := by
  unfold State.countOffset
  simp [foldl_queues, ite_queues]

@[simp] theorem State.sourceBack_queues (s : State) : (State.sourceBack s).queues = s.queues := by
  unfold State.sourceBack
  simp

@[simp] theorem State.measure_queues (s : State) (offset : Int) : (State.measure s offset).queues = s.queues := by
  unfold State.measure
  (repeat' split) <;> simp

@[simp] theorem State.usePtp_queues (s : State) : (State.usePtp s).queues = s.queues := by
  unfold State.usePtp
  split <;> simp

@[simp] theorem State.ppsMeasure_queues (s : State) (t : Instant) (offset : Int) : (State.ppsMeasure s t offset).queues = s.queues := by
  unfold State.ppsMeasure
  (repeat' split) <;> simp [ite_queues]

@[simp] theorem State.ppsEdge_queues (s : State) (t : Instant) : (State.ppsEdge s t).queues = s.queues := by
  unfold State.ppsEdge
  simp

@[simp] theorem State.offsetMeasurement_queues (s : State) (offset : Int) : (State.offsetMeasurement s offset).queues = s.queues := by
  unfold State.offsetMeasurement
  (repeat' split) <;> simp

@[simp] theorem State.updFollower_queues (s : State) (d : Nat) (f : FollowerSt → FollowerSt) : (State.updFollower s d f).queues = s.queues := by
  unfold State.updFollower
  simp

@[simp] theorem State.followerBad_queues (s : State) (d sev : Nat) : (State.followerBad s d sev).queues = s.queues := by
  unfold State.followerBad
  simp

@[simp] theorem State.followerDrift_queues (s : State) (d : Nat) : (State.followerDrift s d).queues = s.queues := by
  unfold State.followerDrift
  simp

@[simp] theorem State.triggerPulse_queues (s : State) (e : TimeTrigger) : (State.triggerPulse s e).queues = s.queues := by
  unfold State.triggerPulse
  simp [foldl_queues, ite_queues]

@[simp] theorem State.judge_queues (s : State) (t : Instant) (m : TimeMonitor) : (State.judge s t m).queues = s.queues := by
  unfold State.judge
  (repeat' split) <;> simp

@[simp] theorem State.capture_queues (s : State) (c : TimeCapture) (t : Instant) : (State.capture s c t).queues = s.queues := by
  unfold State.capture
  simp [foldl_queues, ite_queues]

@[simp] theorem State.windowClose_queues (s : State) (m : TimeMonitor) : (State.windowClose s m).queues = s.queues := by
  unfold State.windowClose
  simp [foldl_queues, ite_queues]

@[simp] theorem State.sendFrame_queues (s : State) (mac : Nat) (f : List Byte) (tsCtrl : Nat) : (State.sendFrame s mac f tsCtrl).1.queues = s.queues := by
  unfold State.sendFrame
  simp

@[simp] theorem State.ptpComplete_queues (s : State) (mac : Nat) (status : Byte) (stamp : Option Stamp) : (State.ptpComplete s mac status stamp).queues = s.queues := by
  unfold State.ptpComplete
  simp

@[simp] theorem State.hpComplete_queues (s : State) (a status flags length seq addr : Nat) (stamp : List Byte) : (State.hpComplete s a status flags length seq addr stamp).queues = s.queues := by
  unfold State.hpComplete
  split <;> simp

@[simp] theorem State.hpStatus_queues (s : State) (mac status : Nat) : (State.hpStatus s mac status).queues = s.queues := by
  unfold State.hpStatus
  split <;> simp

@[simp] theorem State.hpEnable_queues (s : State) (mac : Nat) : (State.hpEnable s mac).queues = s.queues := by
  unfold State.hpEnable
  simp [foldl_queues, ite_queues]

@[simp] theorem State.writeCbLo_queues (s : State) (mac : Nat) (w : Word) : (State.writeCbLo s mac w).queues = s.queues := by
  unfold State.writeCbLo
  (repeat' split) <;> simp

@[simp] theorem State.writeCbHi_queues (s : State) (mac : Nat) (w : Word) : (State.writeCbHi s mac w).queues = s.queues := by
  unfold State.writeCbHi
  simp

@[simp] theorem State.hpDesc_queues (s : State) (a : Nat) : (State.hpDesc s a).1.queues = s.queues := by
  unfold State.hpDesc
  simp

@[simp] theorem State.txEnd_queues (s : State) (mac a status flags length addr : Nat) (stamp : List Byte) (irq : Bool) : (State.txEnd s mac a status flags length addr stamp irq).queues = s.queues := by
  unfold State.txEnd
  split <;> simp

@[simp] theorem State.hpTransmit_queues (s : State) (mac : Nat) : (State.hpTransmit s mac).queues = s.queues := by
  unfold State.hpTransmit
  simp
  (repeat' split) <;> simp

@[simp] theorem State.rxDrop_queues (s : State) (mac : Nat) : (State.rxDrop s mac).queues = s.queues := by
  unfold State.rxDrop
  simp

@[simp] theorem State.rxEnd_queues (s : State) (mac a status flags length addr : Nat) (stamp : List Byte) (irq : Bool) : (State.rxEnd s mac a status flags length addr stamp irq).queues = s.queues := by
  unfold State.rxEnd
  split <;> simp

@[simp] theorem State.hpReceive_queues (mac : Nat) (f : List Byte) (x : Stamp) (x1 : Nat) (s : State) : (State.hpReceive mac f x x1 s).queues = s.queues := by
  induction x1 generalizing mac f x s <;> unfold State.hpReceive <;> (repeat' split) <;> simp_all <;> (repeat' split) <;> simp_all

@[simp] theorem State.rangeTake_queues (s : State) (mac : Nat) (x : Stamp) (replay : Bool) (f : List Byte) : (State.rangeTake s mac x replay f).queues = s.queues := by
  unfold State.rangeTake
  simp [foldl_queues, ite_queues]

@[simp] theorem State.updJob_queues (s : State) (b : CameraBind) (k : Nat) (f : FrameJob → FrameJob) : (State.updJob s b k f).queues = s.queues := by
  unfold State.updJob
  simp

@[simp] theorem State.putLine_queues (s : State) (b : CameraBind) (c : IntakeCamera) (slot n : Nat) (bs : List Byte) : (State.putLine s b c slot n bs).queues = s.queues := by
  unfold State.putLine
  simp

@[simp] theorem State.zeroLines_queues (s : State) (b : CameraBind) (c : IntakeCamera) (slot n m : Nat) : (State.zeroLines s b c slot n m).queues = s.queues := by
  unfold State.zeroLines
  simp

@[simp] theorem State.endFrame_queues (s : State) (b : CameraBind) : (State.endFrame s b).queues = s.queues := by
  unfold State.endFrame
  simp
  (repeat' split) <;> simp

@[simp] theorem State.strictCut_queues (s : State) (b : CameraBind) (c : IntakeCamera) (j : FrameJob) (received : Nat) : (State.strictCut s b c j received).queues = s.queues := by
  unfold State.strictCut
  split <;> simp

@[simp] theorem State.beginFrame_queues (s : State) (b : CameraBind) (k : Nat) (capture : Stamp) (csiFn : Nat) : (State.beginFrame s b k capture csiFn).queues = s.queues := by
  unfold State.beginFrame
  simp

@[simp] theorem State.frameStartOf_queues (s : State) (b : CameraBind) (csiFn : Nat) : (State.frameStartOf s b csiFn).queues = s.queues := by
  unfold State.frameStartOf
  simp
  (repeat' split) <;> simp

@[simp] theorem State.noFrameStart_queues (s : State) (b : CameraBind) : (State.noFrameStart s b).queues = s.queues := by
  unfold State.noFrameStart
  simp [foldl_queues, ite_queues]

@[simp] theorem State.imageLine_queues (s : State) (b : CameraBind) (c : IntakeCamera) (j : FrameJob) (payload : List Byte) (crcOk : Bool) : (State.imageLine s b c j payload crcOk).queues = s.queues := by
  unfold State.imageLine
  simp
  (repeat' split) <;> simp

@[simp] theorem State.embLine_queues (s : State) (b : CameraBind) (c : IntakeCamera) (j : FrameJob) (payload : List Byte) (crcOk : Bool) : (State.embLine s b c j payload crcOk).queues = s.queues := by
  unfold State.embLine
  (repeat' split) <;> simp

@[simp] theorem State.lostLine_queues (s : State) (b : CameraBind) (c : IntakeCamera) (j : FrameJob) : (State.lostLine s b c j).queues = s.queues := by
  unfold State.lostLine
  split <;> simp

@[simp] theorem State.writeNote_queues (s : State) (j : FrameJob) (flags startWord : Nat) : (State.writeNote s j flags startWord).queues = s.queues := by
  unfold State.writeNote
  split <;> simp

@[simp] theorem State.putCopy_queues (s : State) (v : IspView) (j : FrameJob) (planes : Option (List Plane)) (paramSeq : Nat) : (State.putCopy s v j planes paramSeq).queues = s.queues := by
  unfold State.putCopy
  split <;> simp

@[simp] theorem State.putStats_queues (s : State) (v : IspView) (j : FrameJob) (isVoid : Bool) (f : FctxSt) (body : List Byte) : (State.putStats s v j isVoid f body).queues = s.queues := by
  unfold State.putStats
  simp

@[simp] theorem State.dropStale_queues (s : State) (v : IspView) (j : FrameJob) : (State.dropStale s v j).queues = s.queues := by
  unfold State.dropStale
  simp

@[simp] theorem State.readBank_queues (s : State) (v : IspView) (bank : Bool) : (State.readBank s v bank).1.queues = s.queues := by
  unfold State.readBank
  simp
  (repeat' split) <;> simp

@[simp] theorem State.latchArm_queues (s : State) (v : IspView) : (State.latchArm s v).1.queues = s.queues := by
  unfold State.latchArm
  simp
  (repeat' split) <;> simp

@[simp] theorem State.startJob_queues (s : State) (v : IspView) (j : FrameJob) : (State.startJob s v j).queues = s.queues := by
  unfold State.startJob
  simp [foldl_queues, ite_queues]

@[simp] theorem State.pipelineStart_queues (s : State) (p : Nat) : (State.pipelineStart s p).queues = s.queues := by
  unfold State.pipelineStart
  simp
  (repeat' split) <;> simp

@[simp] theorem State.readRaw_queues (s : State) (v : IspView) (slot : Nat) : (State.readRaw s v slot).1.queues = s.queues := by
  unfold State.readRaw
  simp
  (repeat' split) <;> simp

@[simp] theorem State.writeFctx_queues (s : State) (i w : Nat) : (State.writeFctx s i w).queues = s.queues := by
  unfold State.writeFctx
  simp

@[simp] theorem State.updDec_queues (s : State) (d : Nat) (f : DecoderSt → DecoderSt) : (State.updDec s d f).queues = s.queues := by
  unfold State.updDec
  simp

@[simp] theorem State.writeDecTail_queues (s : State) (d w : Nat) : (State.writeDecTail s d w).queues = s.queues := by
  unfold State.writeDecTail
  simp
  (repeat' split) <;> simp

@[simp] theorem State.decStop_queues (s : State) (d status : Nat) : (State.decStop s d status).queues = s.queues := by
  unfold State.decStop
  simp

@[simp] theorem State.decVoid_queues (s : State) (d status : Nat) (e : List Byte) : (State.decVoid s d status e).queues = s.queues := by
  unfold State.decVoid
  simp

@[simp] theorem State.decData_queues (s : State) (a n : Nat) (dec : Unit → Option (List (List Nat) × Bool)) : (State.decData s a n dec).1.queues = s.queues := by
  unfold State.decData
  split <;> simp

@[simp] theorem State.decRun_queues (s : State) (d : Nat) (e : List Byte) (v : IspView) : (State.decRun s d e v).queues = s.queues := by
  unfold State.decRun
  simp
  (repeat' split) <;> simp

@[simp] theorem State.decStart_queues (s : State) (d : Nat) (r : ReplayRing) : (State.decStart s d r).queues = s.queues := by
  unfold State.decStart
  simp
  (repeat' split) <;> simp

@[simp] theorem State.decFinish_queues (s : State) (d : Nat) : (State.decFinish s d).queues = s.queues := by
  unfold State.decFinish
  simp

@[simp] theorem State.putRaw_queues (s : State) (v : IspView) (slot : Nat) (p : List Nat) : (State.putRaw s v slot p).queues = s.queues := by
  unfold State.putRaw
  simp [foldl_queues, ite_queues]

@[simp] theorem State.offer_queues (s : State) (d : Nat) (o : Offer) (capOff : Nat) (v : IspView) : (State.offer s d o capOff v).queues = s.queues := by
  unfold State.offer
  simp [foldl_queues, ite_queues]

@[simp] theorem State.forwardPacket_queues (s : State) (n : Nat) (t : RangeTemplate) (time : Instant) (k : Nat) (late replay : Bool) (b : List Byte) : (State.forwardPacket s n t time k late replay b).queues = s.queues := by
  unfold State.forwardPacket
  simp

@[simp] theorem State.noMatch_queues (s : State) (mac : Nat) : (State.noMatch s mac).queues = s.queues := by
  unfold State.noMatch
  simp

@[simp] theorem State.takeRangePacket_queues (s : State) (mac n : Nat) (t : RangeTemplate) (x : Stamp) (time : Instant) (k : Nat) (replay : Bool) (b : List Byte) : (State.takeRangePacket s mac n t x time k replay b).queues = s.queues := by
  unfold State.takeRangePacket
  simp [foldl_queues, ite_queues]

@[simp] theorem State.rangePacket_queues (s : State) (mac : Nat) : (State.rangePacket s mac).queues = s.queues := by
  unfold State.rangePacket
  simp
  (repeat' split) <;> simp

@[simp] theorem State.nextReplay_queues (s : State) (mac : Nat) : (State.nextReplay s mac).queues = s.queues := by
  unfold State.nextReplay
  simp

@[simp] theorem State.replayInject_queues (s : State) (mac : Nat) (r : ReplayRing) : (State.replayInject s mac r).queues = s.queues := by
  unfold State.replayInject
  simp [foldl_queues, ite_queues]

@[simp] theorem State.closeMac_queues (k : Nat) (s : State) (mac : Nat) : (State.closeMac k s mac).queues = s.queues := by
  unfold State.closeMac
  simp [foldl_queues, ite_queues]

@[simp] theorem State.cleanUnits_queues (s : State) (p : Nat → Bool) : (State.cleanUnits s p).queues = s.queues := by
  unfold State.cleanUnits
  simp

@[simp] theorem State.cleanRow_queues (s : State) (a : Nat) : (State.cleanRow s a).queues = s.queues := by
  unfold State.cleanRow
  simp

@[simp] theorem State.cleanBank_queues (s : State) (a : Nat) : (State.cleanBank s a).queues = s.queues := by
  unfold State.cleanBank
  simp

@[simp] theorem State.scrubStep_queues (s : State) (m a : Nat) (fresh : Bool) : (State.scrubStep s m a fresh).queues = s.queues := by
  unfold State.scrubStep
  split <;> simp

@[simp] theorem State.logComponent_queues (s : State) (comp version secVersion imageId : Nat) : (State.logComponent s comp version secVersion imageId).queues = s.queues := by
  unfold State.logComponent
  simp

@[simp] theorem State.logFirmware_queues (s : State) (comp : Nat) (f : Firmware) : (State.logFirmware s comp f).queues = s.queues := by
  unfold State.logFirmware
  simp

@[simp] theorem State.logImage_queues (s : State) (i : Image) : (State.logImage s i).queues = s.queues := by
  unfold State.logImage
  simp

@[simp] theorem State.postPackage_queues (s : State) (e : RepairEntry) : (State.postPackage s e).queues = s.queues := by
  unfold State.postPackage
  split <;> simp

@[simp] theorem State.applyRepair_queues (s : State) (e : RepairEntry) : (State.applyRepair s e).queues = s.queues := by
  unfold State.applyRepair
  split <;> simp

@[simp] theorem State.markPermanent_queues (s : State) : (State.markPermanent s).queues = s.queues := by
  unfold State.markPermanent
  simp [foldl_queues, ite_queues]

@[simp] theorem State.applyRepairs_queues (s : State) : (State.applyRepairs s).queues = s.queues := by
  unfold State.applyRepairs
  simp [foldl_queues, ite_queues]

@[simp] theorem State.startBist_queues (s : State) : (State.startBist s).1.queues = s.queues := by
  unfold State.startBist
  simp [foldl_queues, ite_queues]

@[simp] theorem State.trainChannel_queues (s : State) (c : Nat) : (State.trainChannel s c).queues = s.queues := by
  unfold State.trainChannel
  simp

@[simp] theorem State.trainAll_queues (s : State) : (State.trainAll s).queues = s.queues := by
  unfold State.trainAll
  simp [foldl_queues, ite_queues]

@[simp] theorem State.restoreSettings_queues (s : State) (fmt : Nat) : (State.restoreSettings s fmt).queues = s.queues := by
  unfold State.restoreSettings
  simp only []
  (repeat' split) <;> simp only [State.raise_queues, State.updTb_queues] <;>
    rw [foldl_queues _ _ _ (fun s x => by simp), foldl_queues _ _ _ (fun s x => by simp)] <;> simp

@[simp] theorem State.imgVerdict_queues (s : State) (v : Verdict) : (State.imgVerdict s v).queues = s.queues := by
  unfold State.imgVerdict
  simp

@[simp] theorem State.imgPassed_queues (s : State) : (State.imgPassed s).queues = s.queues := by
  unfold State.imgPassed
  simp

@[simp] theorem State.liftClocks_queues (s : State) : (State.liftClocks s).queues = s.queues := by
  unfold State.liftClocks
  apply foldl_queues
  intros
  simp

@[simp] theorem State.zeroCarves_queues (s : State) : (State.zeroCarves s).queues = s.queues := by
  unfold State.zeroCarves
  simp [foldl_queues, ite_queues]

@[simp] theorem State.startControllers_queues (s : State) (f : Firmware) : (State.startControllers s f).queues = s.queues := by
  unfold State.startControllers
  simp [foldl_queues, ite_queues]

@[simp] theorem State.activateImage_queues (s : State) (i : Image) (slot fallback : Bool) (die : Firmware) : (State.activateImage s i slot fallback die).queues = s.queues := by
  unfold State.activateImage
  simp [foldl_queues, ite_queues]

@[simp] theorem State.startImage_queues (s : State) (die : Firmware) : (State.startImage s die).queues = s.queues := by
  unfold State.startImage
  simp
  (repeat' split) <;> simp

@[simp] theorem State.bootFailure_queues (s : State) (status : Nat) : (State.bootFailure s status).queues = s.queues := by
  unfold State.bootFailure
  simp

@[simp] theorem State.finishBoot_queues (s : State) : (State.finishBoot s).queues = s.queues := by
  unfold State.finishBoot
  simp
  (repeat' split) <;> simp

@[simp] theorem State.enablePower_queues (s : State) (d : Nat) : (State.enablePower s d).queues = s.queues := by
  unfold State.enablePower
  simp

@[simp] theorem State.nextDie_queues (s : State) (d : Nat) : (State.nextDie s d).queues = s.queues := by
  unfold State.nextDie
  split <;> simp

@[simp] theorem State.startTime_queues (s : State) : (State.startTime s).queues = s.queues := by
  unfold State.startTime
  simp [foldl_queues, ite_queues]

@[simp] theorem State.bootRom_queues (s : State) : (State.bootRom s).queues = s.queues := by
  unfold State.bootRom
  (repeat' split) <;> simp

@[simp] theorem State.gateQ48_queues (s : State) : (State.gateQ48 s).queues = s.queues := by
  unfold State.gateQ48
  (repeat' split) <;> simp [foldl_queues, ite_queues]

@[simp] theorem State.porRelease_queues (s : State) (testEnLow bistOk : Bool) (fitted : List (Nat × List Nat)) : (State.porRelease s testEnLow bistOk fitted).queues = s.queues := by
  unfold State.porRelease
  (repeat' split) <;> simp

@[simp] theorem State.pgoodRise_queues (s : State) (d : Nat) : (State.pgoodRise s d).queues = s.queues := by
  unfold State.pgoodRise
  (repeat' split) <;> simp

@[simp] theorem State.leaveOff_queues (s : State) (d : Nat) : (State.leaveOff s d).queues = s.queues := by
  unfold State.leaveOff
  simp

@[simp] theorem State.pgoodTimeout_queues (s : State) (d : Nat) : (State.pgoodTimeout s d).queues = s.queues := by
  unfold State.pgoodTimeout
  (repeat' split) <;> simp

@[simp] theorem State.sampleDie_queues (s : State) (d : Nat) (m : SMap SensSt) : (State.sampleDie s d m).queues = s.queues := by
  unfold State.sampleDie
  simp

@[simp] theorem State.writeIocfg_queues (s : State) (t w : Nat) : (State.writeIocfg s t w).queues = s.queues := by
  unfold State.writeIocfg
  (repeat' split) <;> simp

@[simp] theorem State.notProven_queues (s : State) (m : Nat) : (State.notProven s m).queues = s.queues := by
  unfold State.notProven
  simp

@[simp] theorem State.stagePregus_queues (s : State) : (State.stagePregus s).queues = s.queues := by
  unfold State.stagePregus
  (repeat' split) <;> simp

@[simp] theorem State.stageDie_queues (s : State) (d : Nat) (selfTestOk : Bool) : (State.stageDie s d selfTestOk).queues = s.queues := by
  unfold State.stageDie
  simp
  (repeat' split) <;> simp

@[simp] theorem State.stageImage_queues (s : State) : (State.stageImage s).queues = s.queues := by
  unfold State.stageImage
  simp
  (repeat' split) <;> simp

@[simp] theorem State.stageRegion_queues (s : State) (g : Nat) : (State.stageRegion s g).queues = s.queues := by
  unfold State.stageRegion
  simp [foldl_queues, ite_queues]

@[simp] theorem State.unstage_queues (s : State) : (State.unstage s).queues = s.queues := by
  unfold State.unstage
  simp

@[simp] theorem State.saveSettings_queues (s : State) : (State.saveSettings s).queues = s.queues := by
  unfold State.saveSettings
  simp

@[simp] theorem State.secEnd_queues (s : State) (status : Nat) : (State.secEnd s status).queues = s.queues := by
  unfold State.secEnd
  simp

@[simp] theorem State.updKey_queues (s : State) (k : Nat) (f : KeySlot → KeySlot) : (State.updKey s k f).queues = s.queues := by
  unfold State.updKey
  simp

@[simp] theorem State.provisionAct_queues (s : State) (c : Provision) : (State.provisionAct s c).1.queues = s.queues := by
  unfold State.provisionAct
  (repeat' split) <;> simp

@[simp] theorem State.provision_queues (s : State) (c : Provision) (signer : Nat) (message signature : List Byte) : (State.provision s c signer message signature).queues = s.queues := by
  unfold State.provision
  (repeat' split) <;> simp

@[simp] theorem State.setCounter_queues (s : State) (comp v : Nat) : (State.setCounter s comp v).queues = s.queues := by
  unfold State.setCounter
  simp

@[simp] theorem State.logRatchet_queues (s : State) (comp : Nat) : (State.logRatchet s comp).queues = s.queues := by
  unfold State.logRatchet
  split <;> simp

@[simp] theorem State.ratchet_queues (s : State) (comp : Nat) : (State.ratchet s comp).queues = s.queues := by
  unfold State.ratchet
  simp [foldl_queues, ite_queues]

@[simp] theorem State.attest_queues (s : State) : (State.attest s).queues = s.queues := by
  unfold State.attest
  simp [foldl_queues, ite_queues]

@[simp] theorem State.readToken_queues (s : State) : (State.readToken s).1.queues = s.queues := by
  unfold State.readToken
  simp

@[simp] theorem State.unlock_queues (s : State) : (State.unlock s).queues = s.queues := by
  unfold State.unlock
  simp [foldl_queues, ite_queues]

@[simp] theorem State.uciStatus_queues (s : State) (status : Nat) : (State.uciStatus s status).queues = s.queues := by
  unfold State.uciStatus
  simp

@[simp] theorem State.abortRead_queues (s : State) (kind status : Nat) : (State.abortRead s kind status).queues = s.queues := by
  unfold State.abortRead
  simp

@[simp] theorem State.dropWrite_queues (s : State) (status : Nat) : (State.dropWrite s status).queues = s.queues := by
  unfold State.dropWrite
  simp

@[simp] theorem State.answerBytes_queues (s : State) (bs : List Byte) : (State.answerBytes s bs).queues = s.queues := by
  unfold State.answerBytes
  simp

@[simp] theorem State.notePoison_queues (s : State) : (State.notePoison s).queues = s.queues := by
  unfold State.notePoison
  simp

@[simp] theorem State.flashOpen_queues (s : State) (k : Nat) : (State.flashOpen s k).queues = s.queues := by
  unfold State.flashOpen
  (repeat' split) <;> simp

@[simp] theorem State.flashClose_queues (s : State) : (State.flashClose s).queues = s.queues := by
  unfold State.flashClose
  split <;> simp

@[simp] theorem State.eraseSectors_queues (s : State) (x1 : List Nat) : (State.eraseSectors s x1).queues = s.queues := by
  induction x1 generalizing s with
  | nil => rfl
  | cons e l ih => unfold State.eraseSectors; (repeat' split) <;> simp_all

@[simp] theorem State.flashWrite_queues (s : State) (off : Nat) (bs : List Byte) : (State.flashWrite s off bs).queues = s.queues := by
  unfold State.flashWrite
  simp [foldl_queues, ite_queues]

@[simp] theorem State.evtRead_queues (s : State) : (State.evtRead s).queues = s.queues := by
  unfold State.evtRead
  simp

@[simp] theorem State.configReset_queues (s : State) : (State.configReset s).queues = s.queues := by
  unfold State.configReset
  simp

@[simp] theorem State.linkState_queues (s : State) (rate mods : Nat) (lost : List Nat) (dropped : Bool) (status : Nat) : (State.linkState s rate mods lost dropped status).queues = s.queues := by
  unfold State.linkState
  simp [foldl_queues, ite_queues]

@[simp] theorem State.ucieTrained_queues (s : State) (m0Up m0X8 m1Up m1X8 : Bool) (rate : Nat) : (State.ucieTrained s m0Up m0X8 m1Up m1X8 rate).queues = s.queues := by
  unfold State.ucieTrained
  split <;> simp

@[simp] theorem State.moduleDown_queues (s : State) (m : Nat) (retrained x8 : Bool) (rate : Nat) : (State.moduleDown s m retrained x8 rate).queues = s.queues := by
  unfold State.moduleDown
  simp [foldl_queues, ite_queues]

@[simp] theorem State.portTrained_queues (s : State) (p : Nat) (trained fourLanes : Bool) : (State.portTrained s p trained fourLanes).queues = s.queues := by
  unfold State.portTrained
  (repeat' split) <;> simp

@[simp] theorem State.acknowledge_queues (s : State) (p : Nat) (k : Packet) (code : Nat) : (State.acknowledge s p k code).queues = s.queues := by
  unfold State.acknowledge
  simp

@[simp] theorem State.passOn_queues (s : State) (p o : Nat) (k : Packet) : (State.passOn s p o k).queues = s.queues := by
  unfold State.passOn
  simp

@[simp] theorem State.arriveData_queues (s0 : State) (p : Nat) (k : Packet) : (State.arriveData s0 p k).queues = s0.queues := by
  unfold State.arriveData
  simp
  (repeat' split) <;> simp

@[simp] theorem State.arriveMgmt_queues (s : State) (p : Nat) (k : Packet) : (State.arriveMgmt s p k).queues = s.queues := by
  unfold State.arriveMgmt
  (repeat' split) <;> simp

@[simp] theorem State.arrivePacket_queues (s : State) (p : Nat) (k : Packet) : (State.arrivePacket s p k).queues = s.queues := by
  unfold State.arrivePacket
  split <;> simp

@[simp] theorem State.payloadFlit_queues (s : State) (p : Nat) (h : Nat) (f : List Byte) : (State.payloadFlit s p h f).queues = s.queues := by
  unfold State.payloadFlit
  simp
  (repeat' split) <;> simp

@[simp] theorem State.flitReceive_queues (s : State) (p : Nat) (f : List Byte) : (State.flitReceive s p f).queues = s.queues := by
  unfold State.flitReceive
  simp [foldl_queues, ite_queues]

@[simp] theorem State.retrains_queues (s : State) (p : Nat) (x1 : Nat) : (State.retrains s p x1).queues = s.queues := by
  induction x1 generalizing s p <;> simp_all [State.retrains]

@[simp] theorem State.keepMessage_queues (s : State) (was : Option RemoteMsg) (k : Packet) (m : RemoteMsg) : (State.keepMessage s was k m).queues = s.queues := by
  unfold State.keepMessage
  simp

@[simp] theorem State.undoMessage_queues (s : State) (m : RemoteMsg) : (State.undoMessage s m).queues = s.queues := by
  unfold State.undoMessage
  simp [foldl_queues, ite_queues]

@[simp] theorem State.writePacket_queues (s : State) (p : Nat) (k : Packet) : (State.writePacket s p k).queues = s.queues := by
  unfold State.writePacket
  simp
  (repeat' split) <;> simp

@[simp] theorem State.setChipMsg_queues (s : State) (m : Mgmt) : (State.setChipMsg s m).1.queues = s.queues := by
  unfold State.setChipMsg
  simp
  (repeat' split) <;> simp

@[simp] theorem State.setRouteMsg_queues (s : State) (m : Mgmt) : (State.setRouteMsg s m).1.queues = s.queues := by
  unfold State.setRouteMsg
  split <;> simp

@[simp] theorem State.timeMsg_queues (s : State) (p : Nat) : (State.timeMsg s p).queues = s.queues := by
  unfold State.timeMsg
  split <;> simp

@[simp] theorem State.handleMgmt_queues (s : State) (die : Nat) (b : List Byte) : (State.handleMgmt s die b).queues = s.queues := by
  unfold State.handleMgmt
  simp
  (repeat' split) <;> simp

@[simp] theorem State.takeMgmt_queues (s : State) (p type : Nat) : (State.takeMgmt s p type).queues = s.queues := by
  unfold State.takeMgmt
  (repeat' split) <;> simp

@[simp] theorem State.timeExchange_queues (s : State) (p : Nat) (offset : Int) : (State.timeExchange s p offset).queues = s.queues := by
  unfold State.timeExchange
  split <;> simp

@[simp] theorem State.refuseMsg_queues (s : State) : (State.refuseMsg s).queues = s.queues := by
  unfold State.refuseMsg
  simp

@[simp] theorem State.mbSend_queues (s : State) (w : Word) : (State.mbSend s w).queues = s.queues := by
  unfold State.mbSend
  simp [foldl_queues, ite_queues]

@[simp] theorem State.mbRead_queues (s : State) : (State.mbRead s).queues = s.queues := by
  unfold State.mbRead
  simp

@[simp] theorem State.writeRng_queues (s : State) (g : Nat) (f : RegionSt → RegionSt) : (State.writeRng s g f).queues = s.queues := by
  unfold State.writeRng
  simp

@[simp] theorem State.writeDumpBase_queues (s : State) (d i v : Nat) : (State.writeDumpBase s d i v).queues = s.queues := by
  unfold State.writeDumpBase
  (repeat' split) <;> simp

@[simp] theorem State.txnRefuse_queues (s : State) (status : Nat) : (State.txnRefuse s status).queues = s.queues := by
  unfold State.txnRefuse
  simp

@[simp] theorem State.txnPlace_queues (s : State) (id : Word) (l : List TxnEntry) : (State.txnPlace s id l).queues = s.queues := by
  unfold State.txnPlace
  simp
  (repeat' split) <;> simp

@[simp] theorem State.txnAbort_queues (s : State) : (State.txnAbort s).queues = s.queues := by
  unfold State.txnAbort
  (repeat' split) <;> simp

@[simp] theorem State.txnVote_queues (s : State) (d : Nat) : (State.txnVote s d).queues = s.queues := by
  unfold State.txnVote
  (repeat' split) <;> simp

@[simp] theorem State.txnDecide_queues (s : State) : (State.txnDecide s).queues = s.queues := by
  unfold State.txnDecide
  simp
  (repeat' split) <;> simp

@[simp] theorem State.switchPregus_queues (s : State) : (State.switchPregus s).queues = s.queues := by
  unfold State.switchPregus
  simp

@[simp] theorem State.switchDies_queues (s : State) (ds : List Nat) : (State.switchDies s ds).queues = s.queues := by
  unfold State.switchDies
  apply foldl_queues
  intros
  simp

@[simp] theorem State.touchUnit_queues (s : State) (u : RegUnit) : (State.touchUnit s u).queues = s.queues := by
  unfold State.touchUnit
  split <;> simp

@[simp] theorem State.secAct_queues (s : State) (v : Nat) : (State.secAct s v).queues = s.queues := by
  unfold State.secAct
  (repeat' split) <;> simp

@[simp] theorem State.readAnswer_queues (s : State) (r : Reg) : (State.readAnswer s r).queues = s.queues := by
  unfold State.readAnswer
  split <;> simp

@[simp] theorem State.readBar0_queues (s : State) (o : Nat) : (State.readBar0 s o).queues = s.queues := by
  unfold State.readBar0
  (repeat' split) <;> simp

@[simp] theorem State.readBar2_queues (s : State) (o : Nat) : (State.readBar2 s o).queues = s.queues := by
  unfold State.readBar2
  split <;> simp

@[simp] theorem State.registerRead_queues (s : State) (o size : Nat) : (State.registerRead s o size).queues = s.queues := by
  unfold State.registerRead
  (repeat' split) <;> simp

end Sys2Proof.Machine
end

