-- ==== Sys2Proof/Laws/MemFrame.lean ====
section
/-! SUPPORT. The operations of the model that leave memory as it is: one equation each, so that what a command does to memory
can be read off the few operations that write it. -/

namespace Sys2Proof.Machine

theorem foldl_mem {α : Type} (g : State → α → State) (l : List α) (s : State) (h : ∀ s x, (g s x).mem = s.mem) :
    (l.foldl g s).mem = s.mem := by
  induction l generalizing s with
  | nil => rfl
  | cons x l ih => simp [ih, h]

theorem foldl_run_mem {α : Type} (g : Run → α → Run) (l : List α) (r : Run) (h : ∀ r x, (g r x).st.mem = r.st.mem) :
    (l.foldl g r).st.mem = r.st.mem := by
  induction l generalizing r with
  | nil => rfl
  | cons x l ih => simp [ih, h]

theorem ite_mem (c : Prop) [Decidable c] (a b : State) : (if c then a else b).mem = if c then a.mem else b.mem := apply_ite _ _ _ _

@[simp] theorem State.msix_mem (s : State) (v : Nat) : (State.msix s v).mem = s.mem := by
  unfold State.msix
  simp

@[simp] theorem State.log_mem (s : State) (kind status unit : Nat) (detail : List Byte) : (State.log s kind status unit detail).mem = s.mem := by
  unfold State.log
  simp

@[simp] theorem State.driveSafe_mem (s : State) : (State.driveSafe s).mem = s.mem := by
  unfold State.driveSafe
  simp

@[simp] theorem State.requestSafe_mem (s : State) (sev : Nat) : (State.requestSafe s sev).mem = s.mem := by
  unfold State.requestSafe
  split <;> simp

@[simp] theorem State.noteCause_mem (s : State) : (State.noteCause s).mem = s.mem := by
  unfold State.noteCause
  simp

@[simp] theorem State.fifo_mem (s : State) (sev unit status : Nat) (stamp : Stamp) : (State.fifo s sev unit status stamp).mem = s.mem := by
  unfold State.fifo
  (repeat' split) <;> simp

@[simp] theorem State.raiseAt_mem (s : State) (sev unit status : Nat) (stamp : Stamp) (detail : List Byte) : (State.raiseAt s sev unit status stamp detail).mem = s.mem := by
  unfold State.raiseAt
  (repeat' split) <;> simp

@[simp] theorem State.raise_mem (s : State) (sev unit status : Nat) : (State.raise s sev unit status).mem = s.mem := by
  unfold State.raise
  simp

@[simp] theorem State.raiseDie_mem (s : State) (d sev unit status : Nat) : (State.raiseDie s d sev unit status).mem = s.mem := by
  unfold State.raiseDie
  simp

@[simp] theorem State.draw_mem (s : State) : (State.draw s).2.mem = s.mem := by
  unfold State.draw
  simp

@[simp] theorem State.flashPut_mem (s : State) (off : Nat) (bs : List Byte) : (State.flashPut s off bs).mem = s.mem := by
  unfold State.flashPut
  simp

@[simp] theorem State.recordRepairs_mem (s : State) (es : List RepairEntry) : (State.recordRepairs s es).mem = s.mem := by
  unfold State.recordRepairs
  simp [foldl_mem, ite_mem]

@[simp] theorem State.recordRepair_mem (s : State) (e : RepairEntry) : (State.recordRepair s e).mem = s.mem := by
  unfold State.recordRepair
  simp

@[simp] theorem State.repairDramRow_mem (s : State) (a d : Nat) : (State.repairDramRow s a d).mem = s.mem := by
  unfold State.repairDramRow
  simp [foldl_mem, ite_mem]

@[simp] theorem State.oweRowTest_mem (s : State) (u : Nat) : (State.oweRowTest s u).mem = s.mem := by
  unfold State.oweRowTest
  simp

@[simp] theorem State.noteUncorrectable_mem (s : State) (a : Nat) : (State.noteUncorrectable s a).1.mem = s.mem := by
  unfold State.noteUncorrectable
  split <;> simp

@[simp] theorem State.suspectOwner_mem (s : State) (a d : Nat) : (State.suspectOwner s a d).mem = s.mem := by
  unfold State.suspectOwner
  (repeat' split) <;> simp

@[simp] theorem State.noteAddress_mem (s : State) (a : Nat) : (State.noteAddress s a).mem = s.mem := by
  unfold State.noteAddress
  simp
  (repeat' split) <;> simp

@[simp] theorem State.noteCorrected_mem (s : State) (a : Nat) : (State.noteCorrected s a).mem = s.mem := by
  unfold State.noteCorrected
  split <;> simp

@[simp] theorem State.linkTry_mem (s : State) (u : Nat) : (State.linkTry s u).1.mem = s.mem := by
  unfold State.linkTry
  simp
  (repeat' split) <;> simp

@[simp] theorem State.fetchStored_mem (s : State) (u size : Nat) : (State.fetchStored s u size).st.mem = s.mem := by
  unfold State.fetchStored
  simp
  (repeat' split) <;> simp

@[simp] theorem State.fetchUnit_mem (s : State) (u size : Nat) : (State.fetchUnit s u size).st.mem = s.mem := by
  unfold State.fetchUnit
  simp
  (repeat' split) <;> simp

@[simp] theorem State.fetchPart_mem (s : State) (first : Bool) (u size : Nat) : (State.fetchPart s first u size).st.mem = s.mem := by
  unfold State.fetchPart
  split <;> simp

@[simp] theorem State.fetchUnits_mem (line : Option Nat) (x1 : List (Nat × Nat)) (r : Fetch) : (State.fetchUnits line x1 r).st.mem = r.st.mem := by
  induction x1 generalizing r line with
  | nil => rfl
  | cons e l ih =>
    unfold State.fetchUnits
    split
    · rfl
    · simp [ih]

@[simp] theorem State.fetch_mem (s : State) (a n : Nat) : (State.fetch s a n).st.mem = s.mem := by
  unfold State.fetch
  simp

@[simp] theorem State.fetchAll_mem (x1 : List (Nat × Nat)) (s : State) : (State.fetchAll x1 s).1.mem = s.mem := by
  induction x1 generalizing s <;> unfold State.fetchAll <;> (repeat' split) <;> simp_all <;> (repeat' split) <;> simp_all

@[simp] theorem State.readOpen_mem (s : State) (a n : Nat) : (State.readOpen s a n).1.mem = s.mem := by
  unfold State.readOpen
  split <;> simp

@[simp] theorem State.dropAt_mem (s : State) (d : Nat) : (State.dropAt s d).mem = s.mem := by
  unfold State.dropAt
  simp

@[simp] theorem State.signalLocal_mem (s : State) (outstanding : Bool) (ref add : Nat) : (State.signalLocal s outstanding ref add).mem = s.mem := by
  unfold State.signalLocal
  simp [foldl_mem, ite_mem]

@[simp] theorem State.setObject_mem (s : State) (ref value : Nat) : (State.setObject s ref value).mem = s.mem := by
  unfold State.setObject
  simp [foldl_mem, ite_mem]

@[simp] theorem State.failInFlight_mem (s : State) (q pos status : Nat) : (State.failInFlight s q pos status).mem = s.mem := by
  unfold State.failInFlight
  simp

@[simp] theorem State.ackDropped_mem (s : State) (q pos : Nat) : (State.ackDropped s q pos).mem = s.mem := by
  unfold State.ackDropped
  simp

@[simp] theorem State.ackInFlight_mem (s : State) (q pos : Nat) : (State.ackInFlight s q pos).mem = s.mem := by
  unfold State.ackInFlight
  simp

@[simp] theorem State.queueAt_mem (s : State) (p : Nat) (k : Packet) : (State.queueAt s p k).mem = s.mem := by
  unfold State.queueAt
  simp

@[simp] theorem State.dropPacket_mem (s : State) (die : Nat) : (State.dropPacket s die).mem = s.mem := by
  unfold State.dropPacket
  simp

@[simp] theorem State.lostRequest_mem (s : State) (die : Nat) : (State.lostRequest s die).mem = s.mem := by
  unfold State.lostRequest
  simp

@[simp] theorem State.sendData_mem (s : State) (die : Nat) (k : Packet) (req : Option (Nat × Nat)) : (State.sendData s die k req).1.mem = s.mem := by
  unfold State.sendData
  (repeat' split) <;> simp

@[simp] theorem State.sendRequest_mem (s : State) (die : Nat) (k : Packet) (q pos : Nat) : (State.sendRequest s die k q pos).1.mem = s.mem := by
  unfold State.sendRequest
  simp

@[simp] theorem State.toMailbox_mem (s : State) (b : List Byte) : (State.toMailbox s b).mem = s.mem := by
  unfold State.toMailbox
  split <;> simp

@[simp] theorem State.mgmtThrough_mem (s : State) (p dst vl : Nat) (b : List Byte) : (State.mgmtThrough s p dst vl b).mem = s.mem := by
  unfold State.mgmtThrough
  split <;> simp

@[simp] theorem State.stampMgmt_mem (s : State) (m : Mgmt) : (State.stampMgmt s m).1.mem = s.mem := by
  unfold State.stampMgmt
  simp

@[simp] theorem State.mgmtOnward_mem (s : State) (die vl : Nat) (m : Mgmt) : (State.mgmtOnward s die vl m).mem = s.mem := by
  unfold State.mgmtOnward
  (repeat' split) <;> simp

@[simp] theorem State.sendHello_mem (s : State) (p : Nat) : (State.sendHello s p).mem = s.mem := by
  unfold State.sendHello
  simp

@[simp] theorem State.sendLinkDown_mem (s : State) (p : Nat) : (State.sendLinkDown s p).mem = s.mem := by
  unfold State.sendLinkDown
  simp [foldl_mem, ite_mem]

@[simp] theorem State.sendMgmt_mem (s : State) (die : Nat) (m : Mgmt) : (State.sendMgmt s die m).mem = s.mem := by
  unfold State.sendMgmt
  split <;> simp

@[simp] theorem State.sendAck_mem (s : State) (die dest status : Nat) : (State.sendAck s die dest status).mem = s.mem := by
  unfold State.sendAck
  split <;> simp

@[simp] theorem State.answerBack_mem (s : State) (p : Nat) (k : Packet) (code : Nat) : (State.answerBack s p k code).mem = s.mem := by
  unfold State.answerBack
  split <;> simp

@[simp] theorem State.loseOutstanding_mem (s : State) (p : Nat) (x1 : List (Nat × Nat × Nat)) : (State.loseOutstanding s p x1).mem = s.mem := by
  induction x1 generalizing s p with
  | nil => rfl
  | cons e l ih => simp [State.loseOutstanding, ih]

@[simp] theorem State.loseTransit_mem (s : State) (p : Nat) (l : List (Nat × Packet)) : (State.loseTransit s p l).mem = s.mem := by
  unfold State.loseTransit
  simp [foldl_mem, ite_mem]

@[simp] theorem State.downPort_mem (s : State) (p : Nat) : (State.downPort s p).mem = s.mem := by
  unfold State.downPort
  simp

@[simp] theorem State.retrainPort_mem (s : State) (p : Nat) : (State.retrainPort s p).mem = s.mem := by
  unfold State.retrainPort
  simp

@[simp] theorem State.replayPort_mem (s : State) (p : Nat) : (State.replayPort s p).mem = s.mem := by
  unfold State.replayPort
  simp [foldl_mem, ite_mem]

@[simp] theorem State.cmdFetch_mem (s : State) (c : Ctx) (a n : Nat) : (State.cmdFetch s c a n).st.mem = s.mem := by
  unfold State.cmdFetch
  split <;> simp

@[simp] theorem checkHeader_mem (s : State) (c : Ctx) (t : Tensor) (applies : Bool) : (checkHeader s c t applies).1.mem = s.mem := by
  unfold checkHeader
  simp
  (repeat' split) <;> simp

@[simp] theorem fetchTensor_mem (s : State) (c : Ctx) (u : Use) (a : Nat) : (fetchTensor s c u a).1.mem = s.mem := by
  unfold fetchTensor
  (repeat' split) <;> simp

@[simp] theorem randomChecks_mem (s : State) (c : Ctx) (x : Opnds) : (randomChecks s c x).1.mem = s.mem := by
  unfold randomChecks
  simp
  (repeat' split) <;> simp

@[simp] theorem startChecks_mem (s : State) (c : Ctx) (o : Op) (x : Opnds) : (startChecks s c o x).1.mem = s.mem := by
  unfold startChecks
  (repeat' split) <;> simp [foldl_mem, ite_mem]

@[simp] theorem operandHeader_mem (s : State) (c : Ctx) (o : Op) (t : Option Tensor) (applies : Tensor → Bool) : (operandHeader s c o t applies).1.mem = s.mem := by
  unfold operandHeader
  (repeat' split) <;> simp

@[simp] theorem decodeCmd_mem (s : State) (c : Ctx) (engine p a : Nat) : (decodeCmd s c engine p a).st.mem = s.mem := by
  unfold decodeCmd
  lift_lets
  intro f d fl
  have hf : f.st.mem = s.mem := by simp [f]
  clear_value f
  split
  · exact hf
  · split
    · exact hf
    · lift_lets
      intro us r0 r1 rd
      have h0 : r0.1.mem = s.mem := by simp [r0, hf]
      have h1 : r1.1.mem = s.mem := by simp [r1, h0]
      have h2 : rd.1.mem = s.mem := by simp [rd, h1]
      clear_value r0 r1 rd
      intro v x a0 a1 ad
      have h3 : ad.1.mem = s.mem := by simp [ad, a1, a0, h2]
      clear_value a0 a1 ad x v
      intro codes
      clear_value codes
      intro st
      have h4 : st.1.mem = s.mem := by simp [st, h3]
      (repeat' split) <;> assumption

@[simp] theorem Run.readUnits_mem (x1 : List (Nat × Nat)) (r : Run) : (Run.readUnits x1 r).st.mem = r.st.mem := by
  induction x1 generalizing r <;> unfold Run.readUnits <;> (repeat' split) <;> simp_all <;> (repeat' split) <;> simp_all

@[simp] theorem Run.read_mem (c : Ctx) (a n : Nat) (r : Run) : (Run.read c a n r).st.mem = r.st.mem := by
  unfold Run.read
  (repeat' split) <;> simp

@[simp] theorem Run.readScales_mem (c : Ctx) (h : ScaleHdr) (x1 : List Nat) (r : Run) : (Run.readScales c h x1 r).st.mem = r.st.mem := by
  induction x1 generalizing r <;> unfold Run.readScales <;> (repeat' split) <;> simp_all <;> (repeat' split) <;> simp_all

@[simp] theorem State.tagMismatch_mem (s : State) (c : Ctx) (fl : InFlight) (opnd j dtag stag : Nat) : (State.tagMismatch s c fl opnd j dtag stag).mem = s.mem := by
  unfold State.tagMismatch
  simp

@[simp] theorem Run.consume_mem (c : Ctx) (fl : InFlight) (opnd : Nat) (t : Tensor) (h : ScaleHdr) (j : Nat) (r : Run) : (Run.consume c fl opnd t h j r).st.mem = r.st.mem := by
  unfold Run.consume
  simp
  (repeat' split) <;> simp

@[simp] theorem Run.elems_mem (c : Ctx) (fl : InFlight) (consumes : Bool) (opnd lo n : Nat) (r : Run) :
    (r.elems c fl consumes opnd lo n).st.mem = r.st.mem := by
  unfold Run.elems
  split
  · rfl
  · lift_lets
    intro r1 a len r2
    have h1 : r1.st.mem = r.st.mem := by
      simp only [r1]
      split
      · exact foldl_run_mem _ _ _ (fun r x => Run.consume_mem ..)
      · rfl
    have h2 : r2.st.mem = r.st.mem := by simp [r2, h1]
    split <;> exact h2

@[simp] theorem Run.step_mem (c : Ctx) (fl : InFlight) (consumes : Bool) (r : Run) (x1 : PlanStep) : (Run.step c fl consumes r x1).st.mem = r.st.mem := by
  unfold Run.step
  (repeat' split) <;> simp

@[simp] theorem Run.plan_mem (c : Ctx) (fl : InFlight) (consumes : Bool) (p : List PlanStep) (r : Run) : (Run.plan c fl consumes p r).st.mem = r.st.mem := by
  unfold Run.plan
  simp [foldl_run_mem]

@[simp] theorem freePrefix_mem (exact : Bool) (s : State) (n : Nat) : (freePrefix exact s n).2.mem = s.mem := by
  unfold freePrefix
  split <;> simp

@[simp] theorem State.setCurrent_mem (s : State) (q : Nat) (f : InFlight) : (State.setCurrent s q f).mem = s.mem := by
  unfold State.setCurrent
  simp

@[simp] theorem State.kindlingFail_mem (s : State) (tile engine : Nat) : (State.kindlingFail s tile engine).mem = s.mem := by
  unfold State.kindlingFail
  simp

@[simp] theorem State.residueCheck_mem (s : State) (tile : Nat) (bad : List Nat) : (State.residueCheck s tile bad).mem = s.mem := by
  unfold State.residueCheck
  split <;> simp

@[simp] theorem MeJob.settle_mem (j : MeJob) (s s0 : State) (f : InFlight) (tile seen : Nat) (swaps : Bool) : (MeJob.settle j s s0 f tile seen swaps).mem = s.mem := by
  unfold MeJob.settle
  (repeat' split) <;> simp

@[simp] theorem State.countSwap_mem (s : State) (q order : Nat) : (State.countSwap s q order).mem = s.mem := by
  unfold State.countSwap
  simp

@[simp] theorem State.shadowLoadSwap_mem (s : State) (tile : Nat) : (State.shadowLoadSwap s tile).mem = s.mem := by
  unfold State.shadowLoadSwap
  (repeat' split) <;> simp

@[simp] theorem State.softmaxReads_mem (s : State) (c : Ctx) (f : InFlight) (a : Tensor) : (State.softmaxReads s c f a).st.mem = s.mem := by
  unfold State.softmaxReads
  simp
  (repeat' split) <;> simp

@[simp] theorem State.sendRequests_mem (die q pos : Nat) (x1 : List Packet) (s : State) (x3 : Nat) : (State.sendRequests die q pos x1 s x3).1.mem = s.mem := by
  induction x1 generalizing s x3 <;> unfold State.sendRequests <;> (repeat' split) <;> simp_all <;> (repeat' split) <;> simp_all

@[simp] theorem sendRemote_mem (c : Ctx) (f : InFlight) (a : Tensor) (s data : State) : (sendRemote c f a s data).1.mem = s.mem := by
  unfold sendRemote
  simp

@[simp] theorem sendLocal_mem (c : Ctx) (f : InFlight) (a : Tensor) (s data : State) : (sendLocal c f a s data).1.mem = s.mem := by
  unfold sendLocal
  simp
  (repeat' split) <;> simp

@[simp] theorem runSend_mem (c : Ctx) (f : InFlight) (s : State) : (runSend c f s).1.mem = s.mem := by
  unfold runSend
  simp
  (repeat' split) <;> simp

@[simp] theorem State.defineWindow_mem (s : State) (f : InFlight) : (State.defineWindow s f).mem = s.mem := by
  unfold State.defineWindow
  simp

@[simp] theorem runPublish_mem (c : Ctx) (f : InFlight) (s : State) : (runPublish c f s).1.mem = s.mem := by
  unfold runPublish
  simp
  (repeat' split) <;> simp

@[simp] theorem State.dropUpdates_mem (s : State) (x1 : List StageUpdate) : (State.dropUpdates s x1).mem = s.mem := by
  induction x1 generalizing s with
  | nil => rfl
  | cons e l ih => simp [State.dropUpdates, ih]

@[simp] theorem State.loseStaging_mem (s : State) : (State.loseStaging s).mem = s.mem := by
  unfold State.loseStaging
  simp

@[simp] theorem runSetsync_mem (c : Ctx) (f : InFlight) (s : State) : (runSetsync c f s).1.mem = s.mem := by
  unfold runSetsync
  simp
  (repeat' split) <;> simp

@[simp] theorem State.doorbell_mem (s : State) (q tail : Nat) : (State.doorbell s q tail).mem = s.mem := by
  unfold State.doorbell
  simp
  (repeat' split) <;> simp

@[simp] theorem State.hostDoorbell_mem (s : State) (q value : Nat) : (State.hostDoorbell s q value).mem = s.mem := by
  unfold State.hostDoorbell
  split <;> simp

@[simp] theorem State.meFlags_mem (s : State) (q : Nat) (f : InFlight) : (State.meFlags s q f).mem = s.mem := by
  unfold State.meFlags
  (repeat' split) <;> simp

@[simp] theorem State.clearKindling_mem (s : State) (f : InFlight) : (State.clearKindling s f).mem = s.mem := by
  unfold State.clearKindling
  split <;> simp

@[simp] theorem State.refreshWaits_mem (s : State) (c : Nat) (x1 : List QueueAlloc) : (State.refreshWaits s c x1).mem = s.mem := by
  induction x1 generalizing s c with
  | nil => rfl
  | cons e l ih => unfold State.refreshWaits; (repeat' split) <;> simp_all

@[simp] theorem State.syncApply_mem (s : State) (c : Nat) : (State.syncApply s c).mem = s.mem := by
  unfold State.syncApply
  simp

@[simp] theorem State.applySignal_mem (s : State) (outstanding : Bool) (ref add : Nat) : (State.applySignal s outstanding ref add).mem = s.mem := by
  unfold State.applySignal
  split <;> simp

@[simp] theorem State.retireSignal_mem (s : State) (q : Nat) (f : InFlight) : (State.retireSignal s q f).1.mem = s.mem := by
  unfold State.retireSignal
  simp
  (repeat' split) <;> simp

@[simp] theorem State.setOldest_mem (s : State) (q : Nat) (f : InFlight) : (State.setOldest s q f).mem = s.mem := by
  unfold State.setOldest
  simp

@[simp] theorem State.retireEffect_mem (s : State) (f : InFlight) : (State.retireEffect s f).mem = s.mem := by
  unfold State.retireEffect
  simp
  (repeat' split) <;> simp

@[simp] theorem State.updUnit_mem (s : State) (k : UnitKind) (u : Nat) (f : UnitSt → UnitSt) : (State.updUnit s k u f).mem = s.mem := by
  unfold State.updUnit
  split <;> simp

@[simp] theorem State.setUnit_mem (s : State) (k : UnitKind) (u : Nat) (st : UnitState) : (State.setUnit s k u st).mem = s.mem := by
  unfold State.setUnit
  simp

@[simp] theorem State.refreshMissing_mem (s : State) : (State.refreshMissing s).mem = s.mem := by
  unfold State.refreshMissing
  simp [foldl_mem, ite_mem]

@[simp] theorem State.recallMessages_mem (s : State) (cmds : List (Nat × Nat)) (x1 : List Nat) : (State.recallMessages s cmds x1).mem = s.mem := by
  induction x1 generalizing s cmds with
  | nil => rfl
  | cons e l ih => simp [State.recallMessages, ih]

@[simp] theorem State.discardMessages_mem (s : State) (t : Nat) (x1 : List Message) : (State.discardMessages s t x1).mem = s.mem := by
  induction x1 generalizing s <;> unfold State.discardMessages <;> (repeat' split) <;> simp_all <;> (repeat' split) <;> simp_all

@[simp] theorem State.absorb_mem (s : State) (k : UnitKind) (u : Nat) : (State.absorb s k u).mem = s.mem := by
  unfold State.absorb
  simp [foldl_mem, ite_mem]

@[simp] theorem State.stageFail_mem (s : State) (unit status : Nat) : (State.stageFail s unit status).mem = s.mem := by
  unfold State.stageFail
  simp

@[simp] theorem State.failStage_mem (s : State) (bitNo unit status : Nat) : (State.failStage s bitNo unit status).mem = s.mem := by
  unfold State.failStage
  simp

@[simp] theorem State.endDrains_mem (s : State) (k : UnitKind) (u : Nat) : (State.endDrains s k u).mem = s.mem := by
  unfold State.endDrains
  simp [foldl_mem, ite_mem]

@[simp] theorem State.openFence_mem (s : State) (k : UnitKind) (u cause : Nat) (st : UnitState) : (State.openFence s k u cause st).mem = s.mem := by
  unfold State.openFence
  simp

@[simp] theorem State.planFence_mem (s : State) (k : UnitKind) (u : Nat) (p : FencePurpose) : (State.planFence s k u p).mem = s.mem := by
  unfold State.planFence
  simp

@[simp] theorem State.recovStatus_mem (s : State) (d status : Nat) : (State.recovStatus s d status).mem = s.mem := by
  unfold State.recovStatus
  simp

@[simp] theorem State.recovWrite_mem (s : State) (d op : Nat) (k : UnitKind) (loc : Nat) : (State.recovWrite s d op k loc).mem = s.mem := by
  unfold State.recovWrite
  simp

@[simp] theorem State.loadRepair_mem (s : State) (p : Nat) : (State.loadRepair s p).mem = s.mem := by
  unfold State.loadRepair
  simp

@[simp] theorem State.startRounds_mem (s : State) (k : UnitKind) (u : Nat) : (State.startRounds s k u).mem = s.mem := by
  unfold State.startRounds
  simp

@[simp] theorem State.bringIn_mem (s : State) (k : UnitKind) (u : Nat) : (State.bringIn s k u).mem = s.mem := by
  unfold State.bringIn
  simp

@[simp] theorem State.readyUnit_mem (s : State) (k : UnitKind) (u : Nat) : (State.readyUnit s k u).mem = s.mem := by
  unfold State.readyUnit
  split <;> simp

@[simp] theorem State.clearTile_mem (s : State) (t : Nat) : (State.clearTile s t).mem = s.mem := by
  unfold State.clearTile
  simp [foldl_mem, ite_mem]

@[simp] theorem State.abortEngine_mem (s : State) (tile engine : Nat) : (State.abortEngine s tile engine).mem = s.mem := by
  unfold State.abortEngine
  simp [foldl_mem, ite_mem]

@[simp] theorem State.engineWatchdog_mem (s : State) (q cycles : Nat) : (State.engineWatchdog s q cycles).mem = s.mem := by
  unfold State.engineWatchdog
  (repeat' split) <;> simp

@[simp] theorem State.linkStillFails_mem (s : State) (d : Nat) : (State.linkStillFails s d).mem = s.mem := by
  unfold State.linkStillFails
  split <;> simp

@[simp] theorem State.stageEnd_mem (s : State) (bits : Nat) : (State.stageEnd s bits).mem = s.mem := by
  unfold State.stageEnd
  simp

@[simp] theorem State.dumpSummary_mem (s : State) (k : UnitKind) (u status seq : Nat) : (State.dumpSummary s k u status seq).mem = s.mem := by
  unfold State.dumpSummary
  simp

@[simp] theorem State.clearCluster_mem (s : State) (c : Nat) : (State.clearCluster s c).mem = s.mem := by
  unfold State.clearCluster
  simp

@[simp] theorem State.powerForReset_mem (s : State) (k : UnitKind) (u : Nat) : (State.powerForReset s k u).mem = s.mem := by
  unfold State.powerForReset
  (repeat' split) <;> simp

@[simp] theorem State.failUnit_mem (s : State) (k : UnitKind) (u : Nat) : (State.failUnit s k u).mem = s.mem := by
  unfold State.failUnit
  simp

@[simp] theorem State.returnUnit_mem (s : State) (k : UnitKind) (u : Nat) : (State.returnUnit s k u).1.mem = s.mem := by
  unfold State.returnUnit
  simp
  (repeat' split) <;> simp

@[simp] theorem State.returnsAt_mem (s : State) (n : Nat) : (State.returnsAt s n).mem = s.mem := by
  unfold State.returnsAt
  simp [foldl_mem, ite_mem]

@[simp] theorem State.fenceRequest_mem (s : State) (k : UnitKind) (p : FencePurpose) (policyBit u : Nat) : (State.fenceRequest s k p policyBit u).1.mem = s.mem := by
  unfold State.fenceRequest
  simp
  (repeat' split) <;> simp

@[simp] theorem State.resetRequest_mem (s : State) (k : UnitKind) (u : Nat) : (State.resetRequest s k u).1.mem = s.mem := by
  unfold State.resetRequest
  simp
  (repeat' split) <;> simp

@[simp] theorem State.tagCarve_mem (s : State) (c : Carveout) : (State.tagCarve s c).mem = s.mem := by
  unfold State.tagCarve
  split <;> simp

@[simp] theorem State.killQueues_mem (s : State) (t : Nat) : (State.killQueues s t).mem = s.mem := by
  unfold State.killQueues
  simp [foldl_mem, ite_mem]

@[simp] theorem State.resumeQueue_mem (s : State) (q value : Nat) : (State.resumeQueue s q value).mem = s.mem := by
  unfold State.resumeQueue
  (repeat' split) <;> simp

@[simp] theorem State.writeRepair_mem (s : State) (agent : Agent) (t w : Nat) : (State.writeRepair s agent t w).mem = s.mem := by
  unfold State.writeRepair
  (repeat' split) <;> simp

@[simp] theorem State.rebuildViews_mem (s : State) (d : Nat) : (State.rebuildViews s d).mem = s.mem := by
  unfold State.rebuildViews
  simp [foldl_mem, ite_mem]

@[simp] theorem State.schedDone_mem (s : State) : (State.schedDone s).mem = s.mem := by
  unfold State.schedDone
  simp

@[simp] theorem State.releaseCredits_mem (s : State) (at_ : Instant) (q n : Nat) : (State.releaseCredits s at_ q n).mem = s.mem := by
  unfold State.releaseCredits
  simp [foldl_mem, ite_mem]

@[simp] theorem State.discardCredits_mem (s : State) : (State.discardCredits s).mem = s.mem := by
  unfold State.discardCredits
  simp [foldl_mem, ite_mem]

@[simp] theorem State.clearSlices_mem (s : State) : (State.clearSlices s).mem = s.mem := by
  unfold State.clearSlices
  apply foldl_mem
  intros
  simp

@[simp] theorem State.releaseAt_mem (s : State) : (State.releaseAt s).mem = s.mem := by
  unfold State.releaseAt
  split <;> simp

@[simp] theorem State.ringVector_mem (s : State) : (State.ringVector s).mem = s.mem := by
  unfold State.ringVector
  simp [foldl_mem, ite_mem]

@[simp] theorem State.lateEvent_mem (s : State) (n : Nat) : (State.lateEvent s n).mem = s.mem := by
  unfold State.lateEvent
  split <;> simp

@[simp] theorem State.oldest_mem (s : State) (missing : Option Nat) : (State.oldest s missing).1.mem = s.mem := by
  unfold State.oldest
  split <;> simp

@[simp] theorem State.updCvu_mem (s : State) (unit : Nat) (f : CvuSt → CvuSt) : (State.updCvu s unit f).mem = s.mem := by
  unfold State.updCvu
  split <;> simp

@[simp] theorem State.updCtxOf_mem (s : State) (unit c : Nat) (f : CvuCtx → CvuCtx) : (State.updCtxOf s unit c f).mem = s.mem := by
  unfold State.updCtxOf
  simp

@[simp] theorem State.cvuDrop_mem (s : State) (unit : Nat) : (State.cvuDrop s unit).mem = s.mem := by
  unfold State.cvuDrop
  split <;> simp

@[simp] theorem State.cvuAdvance_mem (s : State) (unit ctx : Nat) : (State.cvuAdvance s unit ctx).mem = s.mem := by
  unfold State.cvuAdvance
  simp

@[simp] theorem State.cvuInit_mem (s : State) (agent : Agent) (unit ctx value : Nat) : (State.cvuInit s agent unit ctx value).mem = s.mem := by
  unfold State.cvuInit
  (repeat' split) <;> simp

@[simp] theorem State.cvuFeedWrite_mem (s : State) (agent : Agent) (unit ctx size data : Nat) : (State.cvuFeedWrite s agent unit ctx size data).mem = s.mem := by
  unfold State.cvuFeedWrite
  (repeat' split) <;> simp

@[simp] theorem State.cvuClear_mem (s : State) (agent : Agent) (unit ctx v : Nat) : (State.cvuClear s agent unit ctx v).mem = s.mem := by
  unfold State.cvuClear
  split <;> simp

@[simp] theorem State.cvuResultRead_mem (s : State) (unit ctx index : Nat) : (State.cvuResultRead s unit ctx index).mem = s.mem := by
  unfold State.cvuResultRead
  (repeat' split) <;> simp

@[simp] theorem State.scanLines_mem (s : State) (own : Option Nat) (p : Poly) (x1 : Nat) (x2 : Nat) (x3 : Nat) : (State.scanLines s own p x1 x2 x3).1.mem = s.mem := by
  induction x1 generalizing s x2 x3 <;> unfold State.scanLines <;> (repeat' split) <;> simp_all <;> (repeat' split) <;> simp_all

@[simp] theorem State.scanRange_mem (s : State) (own : Option Nat) (poly a len : Nat) : (State.scanRange s own poly a len).1.mem = s.mem := by
  unfold State.scanRange
  split <;> simp

@[simp] theorem State.scanSome_mem (s : State) (unit n : Nat) : (State.scanSome s unit n).mem = s.mem := by
  unfold State.scanSome
  simp [foldl_mem, ite_mem]

@[simp] theorem State.scanTick_mem (s : State) : (State.scanTick s).mem = s.mem := by
  unfold State.scanTick
  simp [foldl_mem, ite_mem]

@[simp] theorem State.scanGo_mem (s : State) (agent : Agent) (unit : Nat) : (State.scanGo s agent unit).mem = s.mem := by
  unfold State.scanGo
  simp [foldl_mem, ite_mem]

@[simp] theorem State.readCopy_mem (s : State) (p k : Nat) : (State.readCopy s p k).1.mem = s.mem := by
  unfold State.readCopy
  simp
  (repeat' split) <;> simp

@[simp] theorem State.cameraBufs_mem (k : Nat) (x1 : List (Nat × Nat)) (s : State) : (State.cameraBufs k x1 s).1.mem = s.mem := by
  induction x1 generalizing s <;> unfold State.cameraBufs <;> (repeat' split) <;> simp_all <;> (repeat' split) <;> simp_all

@[simp] theorem State.checkerDone_mem (s : State) : (State.checkerDone s).mem = s.mem := by
  unfold State.checkerDone
  split <;> simp

@[simp] theorem State.headerArrives_mem (s : State) (m : Mirror) : (State.headerArrives s m).mem = s.mem := by
  unfold State.headerArrives
  simp
  (repeat' split) <;> simp

@[simp] theorem State.headerMissing_mem (s : State) (n : Nat) : (State.headerMissing s n).mem = s.mem := by
  unfold State.headerMissing
  split <;> simp

@[simp] theorem State.cmpOutcome_mem (s : State) (row : Nat) (u : Option (Nat × Nat)) : (State.cmpOutcome s row u).mem = s.mem := by
  unfold State.cmpOutcome
  simp [foldl_mem, ite_mem]

@[simp] theorem State.compareNext_mem (s : State) : (State.compareNext s).mem = s.mem := by
  unfold State.compareNext
  simp
  (repeat' split) <;> simp

@[simp] theorem State.requestRelease_mem (s : State) : (State.requestRelease s).mem = s.mem := by
  unfold State.requestRelease
  (repeat' split) <;> simp

@[simp] theorem State.verifySum_mem (s : State) (u : Nat) (e : ChkSum) : (State.verifySum s u e).1.mem = s.mem := by
  unfold State.verifySum
  simp

@[simp] theorem State.sumForReturn_mem (s : State) (i cvu : Nat) (e : ChkSum) (k : UnitKind) (u : Nat) : (State.sumForReturn s i cvu e k u).mem = s.mem := by
  unfold State.sumForReturn
  simp [foldl_mem, ite_mem]

@[simp] theorem State.sumFirstFrame_mem (s : State) (i cvu : Nat) (e : ChkSum) : (State.sumFirstFrame s i cvu e).mem = s.mem := by
  unfold State.sumFirstFrame
  simp [foldl_mem, ite_mem]

@[simp] theorem State.testPass_mem (s : State) (t : TestTarget) (unit : Nat) : (State.testPass s t unit).mem = s.mem := by
  unfold State.testPass
  simp

@[simp] theorem State.flashErase_mem (s : State) (a n : Nat) : (State.flashErase s a n).mem = s.mem := by
  unfold State.flashErase
  simp

@[simp] theorem State.ashProgram_mem (s : State) : (State.ashProgram s).mem = s.mem := by
  unfold State.ashProgram
  simp [foldl_mem, ite_mem]

@[simp] theorem State.ashFetched_mem (s : State) : (State.ashFetched s).mem = s.mem := by
  unfold State.ashFetched
  simp
  (repeat' split) <;> simp

@[simp] theorem State.ashRestore_mem (s : State) : (State.ashRestore s).mem = s.mem := by
  unfold State.ashRestore
  simp

@[simp] theorem State.ppsMissing_mem (s : State) : (State.ppsMissing s).mem = s.mem := by
  unfold State.ppsMissing
  split <;> simp

@[simp] theorem State.logTxn_mem (s : State) (status : Nat) (t : Txn) : (State.logTxn s status t).mem = s.mem := by
  unfold State.logTxn
  simp

@[simp] theorem State.txnRollback_mem (s : State) : (State.txnRollback s).mem = s.mem := by
  unfold State.txnRollback
  split <;> simp

@[simp] theorem State.checkHeldStart_mem (s : State) : (State.checkHeldStart s).mem = s.mem := by
  unfold State.checkHeldStart
  (repeat' split) <;> simp

@[simp] theorem State.rearmSeconds_mem (s : State) : (State.rearmSeconds s).mem = s.mem := by
  unfold State.rearmSeconds
  simp [foldl_mem, ite_mem]

@[simp] theorem State.reachReplay_mem (s : State) : (State.reachReplay s).mem = s.mem := by
  unfold State.reachReplay
  simp [foldl_mem, ite_mem]

@[simp] theorem State.firstStep_mem (s : State) (t : Instant) : (State.firstStep s t).mem = s.mem := by
  unfold State.firstStep
  simp

@[simp] theorem State.tbStatus_mem (s : State) (status : Nat) : (State.tbStatus s status).mem = s.mem := by
  unfold State.tbStatus
  simp

@[simp] theorem State.step_mem (s : State) : (State.step s).mem = s.mem := by
  unfold State.step
  (repeat' split) <;> simp

@[simp] theorem State.writeIncr_mem (s : State) (v : Nat) : (State.writeIncr s v).mem = s.mem := by
  unfold State.writeIncr
  split <;> simp

@[simp] theorem State.reepoch_mem (s : State) : (State.reepoch s).mem = s.mem := by
  unfold State.reepoch
  simp [foldl_mem, ite_mem]

@[simp] theorem State.jump_mem (s : State) (t : Instant) (d : Int) : (State.jump s t d).mem = s.mem := by
  unfold State.jump
  (repeat' split) <;> simp

@[simp] theorem State.reepochApply_mem (s : State) : (State.reepochApply s).mem = s.mem := by
  unfold State.reepochApply
  (repeat' split) <;> simp

@[simp] theorem State.snapLatch_mem (s : State) : (State.snapLatch s).mem = s.mem := by
  unfold State.snapLatch
  simp

@[simp] theorem State.answerWord_mem (s : State) (w : Nat) : (State.answerWord s w).mem = s.mem := by
  unfold State.answerWord
  simp

@[simp] theorem State.countOffset_mem (s : State) (offset : Int) : (State.countOffset s offset).mem = s.mem := by
  unfold State.countOffset
  simp [foldl_mem, ite_mem]

@[simp] theorem State.sourceBack_mem (s : State) : (State.sourceBack s).mem = s.mem := by
  unfold State.sourceBack
  simp

@[simp] theorem State.measure_mem (s : State) (offset : Int) : (State.measure s offset).mem = s.mem := by
  unfold State.measure
  (repeat' split) <;> simp

@[simp] theorem State.usePtp_mem (s : State) : (State.usePtp s).mem = s.mem := by
  unfold State.usePtp
  split <;> simp

@[simp] theorem State.ppsMeasure_mem (s : State) (t : Instant) (offset : Int) : (State.ppsMeasure s t offset).mem = s.mem := by
  unfold State.ppsMeasure
  (repeat' split) <;> simp [ite_mem]

@[simp] theorem State.ppsEdge_mem (s : State) (t : Instant) : (State.ppsEdge s t).mem = s.mem := by
  unfold State.ppsEdge
  simp

@[simp] theorem State.offsetMeasurement_mem (s : State) (offset : Int) : (State.offsetMeasurement s offset).mem = s.mem := by
  unfold State.offsetMeasurement
  (repeat' split) <;> simp

@[simp] theorem State.updFollower_mem (s : State) (d : Nat) (f : FollowerSt → FollowerSt) : (State.updFollower s d f).mem = s.mem := by
  unfold State.updFollower
  simp

@[simp] theorem State.followerBad_mem (s : State) (d sev : Nat) : (State.followerBad s d sev).mem = s.mem := by
  unfold State.followerBad
  simp

@[simp] theorem State.followerDrift_mem (s : State) (d : Nat) : (State.followerDrift s d).mem = s.mem := by
  unfold State.followerDrift
  simp

@[simp] theorem State.triggerPulse_mem (s : State) (e : TimeTrigger) : (State.triggerPulse s e).mem = s.mem := by
  unfold State.triggerPulse
  simp [foldl_mem, ite_mem]

@[simp] theorem State.judge_mem (s : State) (t : Instant) (m : TimeMonitor) : (State.judge s t m).mem = s.mem := by
  unfold State.judge
  (repeat' split) <;> simp

@[simp] theorem State.capture_mem (s : State) (c : TimeCapture) (t : Instant) : (State.capture s c t).mem = s.mem := by
  unfold State.capture
  simp [foldl_mem, ite_mem]

@[simp] theorem State.windowClose_mem (s : State) (m : TimeMonitor) : (State.windowClose s m).mem = s.mem := by
  unfold State.windowClose
  simp [foldl_mem, ite_mem]

@[simp] theorem State.sendFrame_mem (s : State) (mac : Nat) (f : List Byte) (tsCtrl : Nat) : (State.sendFrame s mac f tsCtrl).1.mem = s.mem := by
  unfold State.sendFrame
  simp

@[simp] theorem State.ptpComplete_mem (s : State) (mac : Nat) (status : Byte) (stamp : Option Stamp) : (State.ptpComplete s mac status stamp).mem = s.mem := by
  unfold State.ptpComplete
  simp

@[simp] theorem State.hpStatus_mem (s : State) (mac status : Nat) : (State.hpStatus s mac status).mem = s.mem := by
  unfold State.hpStatus
  split <;> simp

@[simp] theorem State.hpEnable_mem (s : State) (mac : Nat) : (State.hpEnable s mac).mem = s.mem := by
  unfold State.hpEnable
  simp [foldl_mem, ite_mem]

@[simp] theorem State.writeCbLo_mem (s : State) (mac : Nat) (w : Word) : (State.writeCbLo s mac w).mem = s.mem := by
  unfold State.writeCbLo
  (repeat' split) <;> simp

@[simp] theorem State.writeCbHi_mem (s : State) (mac : Nat) (w : Word) : (State.writeCbHi s mac w).mem = s.mem := by
  unfold State.writeCbHi
  simp

@[simp] theorem State.hpDesc_mem (s : State) (a : Nat) : (State.hpDesc s a).1.mem = s.mem := by
  unfold State.hpDesc
  simp

@[simp] theorem State.rxDrop_mem (s : State) (mac : Nat) : (State.rxDrop s mac).mem = s.mem := by
  unfold State.rxDrop
  simp

@[simp] theorem State.rangeTake_mem (s : State) (mac : Nat) (x : Stamp) (replay : Bool) (f : List Byte) : (State.rangeTake s mac x replay f).mem = s.mem := by
  unfold State.rangeTake
  simp [foldl_mem, ite_mem]

@[simp] theorem State.updJob_mem (s : State) (b : CameraBind) (k : Nat) (f : FrameJob → FrameJob) : (State.updJob s b k f).mem = s.mem := by
  unfold State.updJob
  simp

@[simp] theorem State.beginFrame_mem (s : State) (b : CameraBind) (k : Nat) (capture : Stamp) (csiFn : Nat) : (State.beginFrame s b k capture csiFn).mem = s.mem := by
  unfold State.beginFrame
  simp

@[simp] theorem State.noFrameStart_mem (s : State) (b : CameraBind) : (State.noFrameStart s b).mem = s.mem := by
  unfold State.noFrameStart
  simp [foldl_mem, ite_mem]

@[simp] theorem State.readBank_mem (s : State) (v : IspView) (bank : Bool) : (State.readBank s v bank).1.mem = s.mem := by
  unfold State.readBank
  simp
  (repeat' split) <;> simp

@[simp] theorem State.latchArm_mem (s : State) (v : IspView) : (State.latchArm s v).1.mem = s.mem := by
  unfold State.latchArm
  simp
  (repeat' split) <;> simp

@[simp] theorem State.readRaw_mem (s : State) (v : IspView) (slot : Nat) : (State.readRaw s v slot).1.mem = s.mem := by
  unfold State.readRaw
  simp
  (repeat' split) <;> simp

@[simp] theorem State.writeFctx_mem (s : State) (i w : Nat) : (State.writeFctx s i w).mem = s.mem := by
  unfold State.writeFctx
  simp

@[simp] theorem State.updDec_mem (s : State) (d : Nat) (f : DecoderSt → DecoderSt) : (State.updDec s d f).mem = s.mem := by
  unfold State.updDec
  simp

@[simp] theorem State.writeDecTail_mem (s : State) (d w : Nat) : (State.writeDecTail s d w).mem = s.mem := by
  unfold State.writeDecTail
  simp
  (repeat' split) <;> simp

@[simp] theorem State.decStop_mem (s : State) (d status : Nat) : (State.decStop s d status).mem = s.mem := by
  unfold State.decStop
  simp

@[simp] theorem State.decVoid_mem (s : State) (d status : Nat) (e : List Byte) : (State.decVoid s d status e).mem = s.mem := by
  unfold State.decVoid
  simp

@[simp] theorem State.decData_mem (s : State) (a n : Nat) (dec : Unit → Option (List (List Nat) × Bool)) : (State.decData s a n dec).1.mem = s.mem := by
  unfold State.decData
  split <;> simp

@[simp] theorem State.decRun_mem (s : State) (d : Nat) (e : List Byte) (v : IspView) : (State.decRun s d e v).mem = s.mem := by
  unfold State.decRun
  simp
  (repeat' split) <;> simp

@[simp] theorem State.decStart_mem (s : State) (d : Nat) (r : ReplayRing) : (State.decStart s d r).mem = s.mem := by
  unfold State.decStart
  simp
  (repeat' split) <;> simp

@[simp] theorem State.noMatch_mem (s : State) (mac : Nat) : (State.noMatch s mac).mem = s.mem := by
  unfold State.noMatch
  simp

@[simp] theorem State.nextReplay_mem (s : State) (mac : Nat) : (State.nextReplay s mac).mem = s.mem := by
  unfold State.nextReplay
  simp

@[simp] theorem State.replayInject_mem (s : State) (mac : Nat) (r : ReplayRing) : (State.replayInject s mac r).mem = s.mem := by
  unfold State.replayInject
  simp [foldl_mem, ite_mem]

@[simp] theorem State.closeMac_mem (k : Nat) (s : State) (mac : Nat) : (State.closeMac k s mac).mem = s.mem := by
  unfold State.closeMac
  simp [foldl_mem, ite_mem]

@[simp] theorem State.cleanUnits_mem (s : State) (p : Nat → Bool) : (State.cleanUnits s p).mem = s.mem := by
  unfold State.cleanUnits
  simp

@[simp] theorem State.cleanRow_mem (s : State) (a : Nat) : (State.cleanRow s a).mem = s.mem := by
  unfold State.cleanRow
  simp

@[simp] theorem State.cleanBank_mem (s : State) (a : Nat) : (State.cleanBank s a).mem = s.mem := by
  unfold State.cleanBank
  simp

@[simp] theorem State.scrubStep_mem (s : State) (m a : Nat) (fresh : Bool) : (State.scrubStep s m a fresh).mem = s.mem := by
  unfold State.scrubStep
  split <;> simp

@[simp] theorem State.logComponent_mem (s : State) (comp version secVersion imageId : Nat) : (State.logComponent s comp version secVersion imageId).mem = s.mem := by
  unfold State.logComponent
  simp

@[simp] theorem State.logFirmware_mem (s : State) (comp : Nat) (f : Firmware) : (State.logFirmware s comp f).mem = s.mem := by
  unfold State.logFirmware
  simp

@[simp] theorem State.logImage_mem (s : State) (i : Image) : (State.logImage s i).mem = s.mem := by
  unfold State.logImage
  simp

@[simp] theorem State.postPackage_mem (s : State) (e : RepairEntry) : (State.postPackage s e).mem = s.mem := by
  unfold State.postPackage
  split <;> simp

@[simp] theorem State.applyRepair_mem (s : State) (e : RepairEntry) : (State.applyRepair s e).mem = s.mem := by
  unfold State.applyRepair
  split <;> simp

@[simp] theorem State.markPermanent_mem (s : State) : (State.markPermanent s).mem = s.mem := by
  unfold State.markPermanent
  simp [foldl_mem, ite_mem]

@[simp] theorem State.applyRepairs_mem (s : State) : (State.applyRepairs s).mem = s.mem := by
  unfold State.applyRepairs
  simp [foldl_mem, ite_mem]

@[simp] theorem State.startBist_mem (s : State) : (State.startBist s).1.mem = s.mem := by
  unfold State.startBist
  simp [foldl_mem, ite_mem]

@[simp] theorem State.trainChannel_mem (s : State) (c : Nat) : (State.trainChannel s c).mem = s.mem := by
  unfold State.trainChannel
  simp

@[simp] theorem State.trainAll_mem (s : State) : (State.trainAll s).mem = s.mem := by
  unfold State.trainAll
  simp [foldl_mem, ite_mem]

@[simp] theorem State.restoreSettings_mem (s : State) (fmt : Nat) : (State.restoreSettings s fmt).mem = s.mem := by
  unfold State.restoreSettings
  simp only []
  (repeat' split) <;> simp only [State.raise_mem, State.updTb_mem] <;>
    rw [foldl_mem _ _ _ (fun s x => by simp), foldl_mem _ _ _ (fun s x => by simp)] <;> simp

@[simp] theorem State.imgVerdict_mem (s : State) (v : Verdict) : (State.imgVerdict s v).mem = s.mem := by
  unfold State.imgVerdict
  simp

@[simp] theorem State.imgPassed_mem (s : State) : (State.imgPassed s).mem = s.mem := by
  unfold State.imgPassed
  simp

@[simp] theorem State.liftClocks_mem (s : State) : (State.liftClocks s).mem = s.mem := by
  unfold State.liftClocks
  apply foldl_mem
  intros
  simp

@[simp] theorem State.startControllers_mem (s : State) (f : Firmware) : (State.startControllers s f).mem = s.mem := by
  unfold State.startControllers
  simp [foldl_mem, ite_mem]

@[simp] theorem State.bootFailure_mem (s : State) (status : Nat) : (State.bootFailure s status).mem = s.mem := by
  unfold State.bootFailure
  simp

@[simp] theorem State.enablePower_mem (s : State) (d : Nat) : (State.enablePower s d).mem = s.mem := by
  unfold State.enablePower
  simp

@[simp] theorem State.startTime_mem (s : State) : (State.startTime s).mem = s.mem := by
  unfold State.startTime
  simp [foldl_mem, ite_mem]

@[simp] theorem State.bootRom_mem (s : State) : (State.bootRom s).mem = s.mem := by
  unfold State.bootRom
  (repeat' split) <;> simp

@[simp] theorem State.gateQ48_mem (s : State) : (State.gateQ48 s).mem = s.mem := by
  unfold State.gateQ48
  (repeat' split) <;> simp [foldl_mem, ite_mem]

@[simp] theorem State.porRelease_mem (s : State) (testEnLow bistOk : Bool) (fitted : List (Nat × List Nat)) : (State.porRelease s testEnLow bistOk fitted).mem = s.mem := by
  unfold State.porRelease
  (repeat' split) <;> simp

@[simp] theorem State.leaveOff_mem (s : State) (d : Nat) : (State.leaveOff s d).mem = s.mem := by
  unfold State.leaveOff
  simp

@[simp] theorem State.portOff_mem (s : State) (d : Nat) : (State.portOff s d).mem = s.mem := by
  unfold State.portOff
  split <;> simp

@[simp] theorem State.sampleDie_mem (s : State) (d : Nat) (m : SMap SensSt) : (State.sampleDie s d m).mem = s.mem := by
  unfold State.sampleDie
  simp

@[simp] theorem State.writeIocfg_mem (s : State) (t w : Nat) : (State.writeIocfg s t w).mem = s.mem := by
  unfold State.writeIocfg
  (repeat' split) <;> simp

@[simp] theorem State.notProven_mem (s : State) (m : Nat) : (State.notProven s m).mem = s.mem := by
  unfold State.notProven
  simp

@[simp] theorem State.stagePregus_mem (s : State) : (State.stagePregus s).mem = s.mem := by
  unfold State.stagePregus
  (repeat' split) <;> simp

@[simp] theorem State.stageDie_mem (s : State) (d : Nat) (selfTestOk : Bool) : (State.stageDie s d selfTestOk).mem = s.mem := by
  unfold State.stageDie
  simp
  (repeat' split) <;> simp

@[simp] theorem State.stageImage_mem (s : State) : (State.stageImage s).mem = s.mem := by
  unfold State.stageImage
  simp
  (repeat' split) <;> simp

@[simp] theorem State.stageRegion_mem (s : State) (g : Nat) : (State.stageRegion s g).mem = s.mem := by
  unfold State.stageRegion
  simp [foldl_mem, ite_mem]

@[simp] theorem State.unstage_mem (s : State) : (State.unstage s).mem = s.mem := by
  unfold State.unstage
  simp

@[simp] theorem State.saveSettings_mem (s : State) : (State.saveSettings s).mem = s.mem := by
  unfold State.saveSettings
  simp

@[simp] theorem State.secEnd_mem (s : State) (status : Nat) : (State.secEnd s status).mem = s.mem := by
  unfold State.secEnd
  simp

@[simp] theorem State.updKey_mem (s : State) (k : Nat) (f : KeySlot → KeySlot) : (State.updKey s k f).mem = s.mem := by
  unfold State.updKey
  simp

@[simp] theorem State.provisionAct_mem (s : State) (c : Provision) : (State.provisionAct s c).1.mem = s.mem := by
  unfold State.provisionAct
  (repeat' split) <;> simp

@[simp] theorem State.provision_mem (s : State) (c : Provision) (signer : Nat) (message signature : List Byte) : (State.provision s c signer message signature).mem = s.mem := by
  unfold State.provision
  (repeat' split) <;> simp

@[simp] theorem State.setCounter_mem (s : State) (comp v : Nat) : (State.setCounter s comp v).mem = s.mem := by
  unfold State.setCounter
  simp

@[simp] theorem State.logRatchet_mem (s : State) (comp : Nat) : (State.logRatchet s comp).mem = s.mem := by
  unfold State.logRatchet
  split <;> simp

@[simp] theorem State.ratchet_mem (s : State) (comp : Nat) : (State.ratchet s comp).mem = s.mem := by
  unfold State.ratchet
  simp [foldl_mem, ite_mem]

@[simp] theorem State.readToken_mem (s : State) : (State.readToken s).1.mem = s.mem := by
  unfold State.readToken
  simp

@[simp] theorem State.unlock_mem (s : State) : (State.unlock s).mem = s.mem := by
  unfold State.unlock
  simp [foldl_mem, ite_mem]

@[simp] theorem State.uciStatus_mem (s : State) (status : Nat) : (State.uciStatus s status).mem = s.mem := by
  unfold State.uciStatus
  simp

@[simp] theorem State.abortRead_mem (s : State) (kind status : Nat) : (State.abortRead s kind status).mem = s.mem := by
  unfold State.abortRead
  simp

@[simp] theorem State.dropWrite_mem (s : State) (status : Nat) : (State.dropWrite s status).mem = s.mem := by
  unfold State.dropWrite
  simp

@[simp] theorem State.answerBytes_mem (s : State) (bs : List Byte) : (State.answerBytes s bs).mem = s.mem := by
  unfold State.answerBytes
  simp

@[simp] theorem State.notePoison_mem (s : State) : (State.notePoison s).mem = s.mem := by
  unfold State.notePoison
  simp

@[simp] theorem State.flashOpen_mem (s : State) (k : Nat) : (State.flashOpen s k).mem = s.mem := by
  unfold State.flashOpen
  (repeat' split) <;> simp

@[simp] theorem State.flashClose_mem (s : State) : (State.flashClose s).mem = s.mem := by
  unfold State.flashClose
  split <;> simp

@[simp] theorem State.eraseSectors_mem (s : State) (x1 : List Nat) : (State.eraseSectors s x1).mem = s.mem := by
  induction x1 generalizing s with
  | nil => rfl
  | cons e l ih => unfold State.eraseSectors; (repeat' split) <;> simp_all

@[simp] theorem State.flashWrite_mem (s : State) (off : Nat) (bs : List Byte) : (State.flashWrite s off bs).mem = s.mem := by
  unfold State.flashWrite
  simp [foldl_mem, ite_mem]

@[simp] theorem State.evtRead_mem (s : State) : (State.evtRead s).mem = s.mem := by
  unfold State.evtRead
  simp

@[simp] theorem State.configReset_mem (s : State) : (State.configReset s).mem = s.mem := by
  unfold State.configReset
  simp

@[simp] theorem State.linkState_mem (s : State) (rate mods : Nat) (lost : List Nat) (dropped : Bool) (status : Nat) : (State.linkState s rate mods lost dropped status).mem = s.mem := by
  unfold State.linkState
  simp [foldl_mem, ite_mem]

@[simp] theorem State.ucieTrained_mem (s : State) (m0Up m0X8 m1Up m1X8 : Bool) (rate : Nat) : (State.ucieTrained s m0Up m0X8 m1Up m1X8 rate).mem = s.mem := by
  unfold State.ucieTrained
  split <;> simp

@[simp] theorem State.moduleDown_mem (s : State) (m : Nat) (retrained x8 : Bool) (rate : Nat) : (State.moduleDown s m retrained x8 rate).mem = s.mem := by
  unfold State.moduleDown
  simp [foldl_mem, ite_mem]

@[simp] theorem State.portTrained_mem (s : State) (p : Nat) (trained fourLanes : Bool) : (State.portTrained s p trained fourLanes).mem = s.mem := by
  unfold State.portTrained
  (repeat' split) <;> simp

@[simp] theorem State.acknowledge_mem (s : State) (p : Nat) (k : Packet) (code : Nat) : (State.acknowledge s p k code).mem = s.mem := by
  unfold State.acknowledge
  simp

@[simp] theorem State.passOn_mem (s : State) (p o : Nat) (k : Packet) : (State.passOn s p o k).mem = s.mem := by
  unfold State.passOn
  simp

@[simp] theorem State.arriveData_mem (s0 : State) (p : Nat) (k : Packet) : (State.arriveData s0 p k).mem = s0.mem := by
  unfold State.arriveData
  simp
  (repeat' split) <;> simp

@[simp] theorem State.arriveMgmt_mem (s : State) (p : Nat) (k : Packet) : (State.arriveMgmt s p k).mem = s.mem := by
  unfold State.arriveMgmt
  (repeat' split) <;> simp

@[simp] theorem State.arrivePacket_mem (s : State) (p : Nat) (k : Packet) : (State.arrivePacket s p k).mem = s.mem := by
  unfold State.arrivePacket
  split <;> simp

@[simp] theorem State.payloadFlit_mem (s : State) (p : Nat) (h : Nat) (f : List Byte) : (State.payloadFlit s p h f).mem = s.mem := by
  unfold State.payloadFlit
  simp
  (repeat' split) <;> simp

@[simp] theorem State.flitReceive_mem (s : State) (p : Nat) (f : List Byte) : (State.flitReceive s p f).mem = s.mem := by
  unfold State.flitReceive
  simp [foldl_mem, ite_mem]

@[simp] theorem State.retrains_mem (s : State) (p : Nat) (x1 : Nat) : (State.retrains s p x1).mem = s.mem := by
  induction x1 generalizing s p <;> simp_all [State.retrains]

@[simp] theorem State.replayTimeout_mem (s : State) (p failed : Nat) : (State.replayTimeout s p failed).mem = s.mem := by
  unfold State.replayTimeout
  simp [foldl_mem, ite_mem]

@[simp] theorem State.keepMessage_mem (s : State) (was : Option RemoteMsg) (k : Packet) (m : RemoteMsg) : (State.keepMessage s was k m).mem = s.mem := by
  unfold State.keepMessage
  simp

@[simp] theorem State.signalPacketIn_mem (s : State) (p : Nat) (k : Packet) : (State.signalPacketIn s p k).mem = s.mem := by
  unfold State.signalPacketIn
  simp [foldl_mem, ite_mem]

@[simp] theorem State.ackPacketIn_mem (s : State) (k : Packet) : (State.ackPacketIn s k).mem = s.mem := by
  unfold State.ackPacketIn
  simp
  (repeat' split) <;> simp

@[simp] theorem State.setChipMsg_mem (s : State) (m : Mgmt) : (State.setChipMsg s m).1.mem = s.mem := by
  unfold State.setChipMsg
  simp
  (repeat' split) <;> simp

@[simp] theorem State.setRouteMsg_mem (s : State) (m : Mgmt) : (State.setRouteMsg s m).1.mem = s.mem := by
  unfold State.setRouteMsg
  split <;> simp

@[simp] theorem State.timeMsg_mem (s : State) (p : Nat) : (State.timeMsg s p).mem = s.mem := by
  unfold State.timeMsg
  split <;> simp

@[simp] theorem State.handleMgmt_mem (s : State) (die : Nat) (b : List Byte) : (State.handleMgmt s die b).mem = s.mem := by
  unfold State.handleMgmt
  simp
  (repeat' split) <;> simp

@[simp] theorem State.takeMgmt_mem (s : State) (p type : Nat) : (State.takeMgmt s p type).mem = s.mem := by
  unfold State.takeMgmt
  (repeat' split) <;> simp

@[simp] theorem State.timeExchange_mem (s : State) (p : Nat) (offset : Int) : (State.timeExchange s p offset).mem = s.mem := by
  unfold State.timeExchange
  split <;> simp

@[simp] theorem State.refuseMsg_mem (s : State) : (State.refuseMsg s).mem = s.mem := by
  unfold State.refuseMsg
  simp

@[simp] theorem State.mbSend_mem (s : State) (w : Word) : (State.mbSend s w).mem = s.mem := by
  unfold State.mbSend
  simp [foldl_mem, ite_mem]

@[simp] theorem State.mbRead_mem (s : State) : (State.mbRead s).mem = s.mem := by
  unfold State.mbRead
  simp

@[simp] theorem State.writeRng_mem (s : State) (g : Nat) (f : RegionSt → RegionSt) : (State.writeRng s g f).mem = s.mem := by
  unfold State.writeRng
  simp

@[simp] theorem State.writeDumpBase_mem (s : State) (d i v : Nat) : (State.writeDumpBase s d i v).mem = s.mem := by
  unfold State.writeDumpBase
  (repeat' split) <;> simp

@[simp] theorem State.writeRw_mem (s : State) (agent : Agent) (r : Reg) (w mask : Nat) : (State.writeRw s agent r w mask).mem = s.mem := by
  unfold State.writeRw
  simp
  (repeat' split) <;> simp

@[simp] theorem State.txnRefuse_mem (s : State) (status : Nat) : (State.txnRefuse s status).mem = s.mem := by
  unfold State.txnRefuse
  simp

@[simp] theorem State.txnPlace_mem (s : State) (id : Word) (l : List TxnEntry) : (State.txnPlace s id l).mem = s.mem := by
  unfold State.txnPlace
  simp
  (repeat' split) <;> simp

@[simp] theorem State.txnAbort_mem (s : State) : (State.txnAbort s).mem = s.mem := by
  unfold State.txnAbort
  (repeat' split) <;> simp

@[simp] theorem State.txnVote_mem (s : State) (d : Nat) : (State.txnVote s d).mem = s.mem := by
  unfold State.txnVote
  (repeat' split) <;> simp

@[simp] theorem State.txnDecide_mem (s : State) : (State.txnDecide s).mem = s.mem := by
  unfold State.txnDecide
  simp
  (repeat' split) <;> simp

@[simp] theorem State.renewQueues_mem (s : State) (a b : Image) : (State.renewQueues s a b).mem = s.mem := by
  unfold State.renewQueues
  apply foldl_mem
  intros
  simp

@[simp] theorem State.switchPregus_mem (s : State) : (State.switchPregus s).mem = s.mem := by
  unfold State.switchPregus
  simp

@[simp] theorem State.switchDies_mem (s : State) (ds : List Nat) : (State.switchDies s ds).mem = s.mem := by
  unfold State.switchDies
  apply foldl_mem
  intros
  simp

@[simp] theorem State.touchUnit_mem (s : State) (u : RegUnit) : (State.touchUnit s u).mem = s.mem := by
  unfold State.touchUnit
  split <;> simp

@[simp] theorem State.applyWrite_mem (s : State) (e : TxnEntry) : (State.applyWrite s e).mem = s.mem := by
  unfold State.applyWrite
  split <;> simp

@[simp] theorem State.applyHeld_mem (s : State) : (State.applyHeld s).mem = s.mem := by
  unfold State.applyHeld
  simp [foldl_mem, ite_mem]

@[simp] theorem State.writeBar2_mem (s : State) (o w : Nat) : (State.writeBar2 s o w).mem = s.mem := by
  unfold State.writeBar2
  split <;> simp

@[simp] theorem State.readAnswer_mem (s : State) (r : Reg) : (State.readAnswer s r).mem = s.mem := by
  unfold State.readAnswer
  split <;> simp

@[simp] theorem State.readBar0_mem (s : State) (o : Nat) : (State.readBar0 s o).mem = s.mem := by
  unfold State.readBar0
  (repeat' split) <;> simp

@[simp] theorem State.readBar2_mem (s : State) (o : Nat) : (State.readBar2 s o).mem = s.mem := by
  unfold State.readBar2
  split <;> simp

@[simp] theorem State.registerRead_mem (s : State) (o size : Nat) : (State.registerRead s o size).mem = s.mem := by
  unfold State.registerRead
  (repeat' split) <;> simp

/-! ### Operations that take an operation -/

theorem State.request_mem (s : State) (d op : Nat) (k : UnitKind) (loc : Nat) (f : State → Nat → State × Nat)
    (hf : ∀ s u, (f s u).1.mem = s.mem) : (s.request d op k loc f).mem = s.mem := by
  unfold State.request
  (repeat' split) <;> simp [hf]

@[simp] theorem State.askFence_mem (s : State) (die : Nat) (kind : UnitKind) (unit : Nat) :
    (s.askFence die kind unit).mem = s.mem := by
  unfold State.askFence
  exact State.request_mem _ _ _ _ _ _ (fun _ _ => by simp)

@[simp] theorem State.askBist_mem (s : State) (die : Nat) (kind : UnitKind) (unit : Nat) :
    (s.askBist die kind unit).mem = s.mem := by
  unfold State.askBist
  exact State.request_mem _ _ _ _ _ _ (fun _ _ => by simp)

@[simp] theorem State.askReset_mem (s : State) (die : Nat) (kind : UnitKind) (unit : Nat) :
    (s.askReset die kind unit).mem = s.mem := by
  unfold State.askReset
  exact State.request_mem _ _ _ _ _ _ (fun _ _ => by simp)

@[simp] theorem State.askReturn_mem (s : State) (die : Nat) (kind : UnitKind) (unit : Nat) :
    (s.askReturn die kind unit).mem = s.mem := by
  unfold State.askReturn
  exact State.request_mem _ _ _ _ _ _ (fun _ _ => by simp)

theorem State.runOp_mem (s : State) (q : Nat) (o : Op) (body : Ctx → InFlight → State → State × InFlight)
    (hf : ∀ c f s, (body c f s).1.mem = s.mem) : (s.runOp q o body).mem = s.mem := by
  unfold State.runOp
  simp only []
  (repeat' split) <;> simp [hf]

theorem State.updOp_mem (s : State) (op : Nat) (unit : Option Nat) (f : State → State) (hf : ∀ s, (f s).mem = s.mem) :
    (s.updOp op unit f).mem = s.mem := by
  unfold State.updOp
  simp only []
  (repeat' split) <;> simp [hf]

@[simp] theorem State.updGo_mem (s : State) : (s.updGo).mem = s.mem := by
  unfold State.updGo
  simp only []
  split <;> exact (State.updOp_mem _ _ _ _ (fun _ => by simp)).trans (by simp)

theorem State.takePacket_mem (s : State) (p kind : Nat) (f : State → Packet → State) (hf : ∀ s k, (f s k).mem = s.mem) :
    (s.takePacket p kind f).mem = s.mem := by
  unfold State.takePacket
  (repeat' split) <;> simp [hf]

/-- A package reset leaves nothing listed. -/
@[simp] theorem State.packageReset_mem (s : State) : s.packageReset.mem = [] := (rfl)

end Sys2Proof.Machine
end

