-- ==== Sys2Proof/Laws/Mem.lean ====
section
/-! SUPPORT. Memory stays in its canonical form: every operation that writes memory keeps it. -/

namespace Sys2Proof.Machine

theorem foldl_wf {α : Type} (g : State → α → State) (l : List α) (s : State)
    (hg : ∀ s x, Memory.wf s.mem = true → Memory.wf (g s x).mem = true) (h : Memory.wf s.mem = true) :
    Memory.wf (l.foldl g s).mem = true := by
  induction l generalizing s with
  | nil => exact h
  | cons x l ih => exact ih _ (hg _ _ h)

@[simp] theorem Memory.wf_nil : Memory.wf [] = true := rfl

/-- Writing consecutive bytes keeps the canonical form. -/
theorem Memory.wf_setBytes (m : SMap Byte) (a : Nat) (bs : List Byte) (h : Memory.wf m = true) :
    Memory.wf (SMap.setBytes m a bs) = true := by
  unfold SMap.setBytes
  suffices ∀ p : SMap Byte × Nat, Memory.wf p.1 = true →
      Memory.wf (bs.foldl (fun acc b => (SMap.set 0 acc.1 acc.2 b, acc.2 + 1)) p).1 = true from this (m, a) h
  induction bs with
  | nil => exact fun _ h => h
  | cons b bs ih => exact fun p hp => ih _ (SMap.wf_set 0 p.1 p.2 b hp)

/-- Clearing a range keeps the canonical form. -/
theorem Memory.wf_clearRange (m : SMap Byte) (a n : Nat) (h : Memory.wf m = true) : Memory.wf (clearRange m a n) = true :=
  SMap.wf_filter 0 m _ h

@[simp] theorem State.zeroRange_wf (s : State) (a n : Nat) (h : Memory.wf s.mem = true) :
    Memory.wf (s.zeroRange a n).mem = true := Memory.wf_clearRange _ _ _ h

@[simp] theorem State.undirty_wf (s : State) (a : Nat) (h : Memory.wf s.mem = true) : Memory.wf (s.undirty a).mem = true := by
  unfold State.undirty
  (repeat' split)
  · exact State.zeroRange_wf _ _ _ h
  · exact State.zeroRange_wf _ _ _ h
  · exact h

@[simp] theorem State.storeUnit_wf (s : State) (first : Bool) (u size a : Nat) (bs : List Byte) (h : Memory.wf s.mem = true) :
    Memory.wf (s.storeUnit first u size a bs).1.mem = true := by
  have h0 := State.undirty_wf s u h
  unfold State.storeUnit
  simp only []
  (repeat' split) <;> first
    | simpa using h0
    | exact Memory.wf_setBytes _ _ _ (by simpa using h0)
    | exact Memory.wf_setBytes _ _ _ (Memory.wf_setBytes _ _ _ (by simpa using h0))

/-- What is undone leaves memory as it stood. -/
@[simp] theorem State.undoWrites_wf (s before : State) (h : Memory.wf before.mem = true) :
    Memory.wf (s.undoWrites before).mem = true := h


@[simp] theorem State.storeUnits_wf (stop : Bool) (a : Nat) (bs : List Byte) (line : Option (Nat × Bool)) (x1 : List (Nat × Nat)) (r : State × Nat) (h : Memory.wf r.1.mem = true) :
    Memory.wf (State.storeUnits stop a bs line x1 r).1.mem = true := by
  induction x1 generalizing r line with
  | nil => exact h
  | cons e l ih =>
    unfold State.storeUnits
    (repeat' split) <;> simp [ih, h]

@[simp] theorem State.store_wf (s : State) (a : Nat) (bs : List Byte) (h : Memory.wf s.mem = true) :
    Memory.wf (State.store s a bs).1.mem = true := by
  unfold State.store
  simp [h]

@[simp] theorem State.storeHost_wf (s : State) (a : Nat) (bs : List Byte) (h : Memory.wf s.mem = true) :
    Memory.wf (State.storeHost s a bs).1.mem = true := by
  unfold State.storeHost
  simp [h]

@[simp] theorem State.put_wf (s : State) (a : Nat) (bs : List Byte) (h : Memory.wf s.mem = true) :
    Memory.wf (State.put s a bs).mem = true := by
  unfold State.put
  simp [h]

@[simp] theorem State.storeParts_wf (a : Nat) (x1 : List (Nat × List Byte)) (s : State) (h : Memory.wf s.mem = true) :
    Memory.wf (State.storeParts a x1 s).1.mem = true := by
  induction x1 generalizing s with
  | nil => exact h
  | cons e l ih =>
    unfold State.storeParts
    simp only []
    (repeat' split) <;> simp [ih, h]

@[simp] theorem State.deliver_wf (s : State) (t : Nat) (m : Message) (h : Memory.wf s.mem = true) :
    Memory.wf (State.deliver s t m).1.mem = true := by
  unfold State.deliver
  simp only []
  (repeat' split) <;> simp [h]

@[simp] theorem State.storeMerged_wf (t : Tensor) (x1 : List (Row × Nat)) (s : State) (x3 : Nat) (h : Memory.wf s.mem = true) :
    Memory.wf (State.storeMerged t x1 s x3).1.mem = true := by
  induction x1 generalizing s x3 with
  | nil => exact h
  | cons e l ih =>
    unfold State.storeMerged
    simp only []
    (repeat' split) <;> simp [ih, h]

@[simp] theorem State.storeRows_wf (t : Tensor) (rows : List Row) (s : State) (h : Memory.wf s.mem = true) :
    Memory.wf (State.storeRows t rows s).1.mem = true := by
  unfold State.storeRows
  simp [h]

@[simp] theorem State.storeGroups_wf (exact : Bool) (t : Tensor) (x1 : List (List Row)) (s : State) (x3 : Nat) (h : Memory.wf s.mem = true) :
    Memory.wf (State.storeGroups exact t x1 s x3).1.mem = true := by
  induction x1 generalizing s x3 with
  | nil => exact h
  | cons e l ih =>
    unfold State.storeGroups
    simp only []
    (repeat' split) <;> simp [ih, h]

@[simp] theorem State.storeTrailer_wf (c : Ctx) (t : Tensor) (hd : ScaleHdr) (x1 : List Nat) (s : State)
    (h : Memory.wf s.mem = true) : Memory.wf (State.storeTrailer c t hd x1 s).1.mem = true := by
  induction x1 generalizing s with
  | nil => exact h
  | cons e l ih =>
    unfold State.storeTrailer
    simp only []
    have h1 : Memory.wf (s.cmdFetch c (hd.stags + e) 1).st.mem = true := by simp [h]
    split
    · exact h1
    · split
      · exact State.store_wf _ _ _ h1
      · exact ih _ (State.store_wf _ _ _ h1)

@[simp] theorem Run.finish_wf (c : Ctx) (fl : InFlight) (rounds exact : Bool) (verdict : State → Nat) (e : Effect) (r : Run) (h : Memory.wf r.st.mem = true) :
    Memory.wf (Run.finish c fl rounds exact verdict e r).st.mem = true := by
  unfold Run.finish
  split
  · exact h
  · lift_lets
    intro p closed w status tr status1 status2
    have hp : Memory.wf p.2.mem = true := by
      simp only [p]
      split
      · exact h
      · simpa using h
    clear_value p
    have hw : Memory.wf w.1.mem = true := by
      simp only [w]
      split
      · exact hp
      · exact State.storeGroups_wf _ _ _ _ _ hp
    clear_value w
    have ht : Memory.wf tr.1.mem = true := by
      cases hh : fl.hdrD with
      | none => simpa only [tr, hh] using hw
      | some hd => simpa only [tr, hh] using State.storeTrailer_wf _ _ _ _ _ hw
    clear_value tr status1 status2 status closed
    cases fl.hdrD with
    | none => exact ht
    | some hd =>
      dsimp only
      split <;> simp [ht]

@[simp] theorem runEffect_wf (consumes rounds exact : Bool) (verdict : State → Nat) (plan : List PlanStep) (e : Effect) (c : Ctx) (f : InFlight) (s : State) (h : Memory.wf s.mem = true) :
    Memory.wf (runEffect consumes rounds exact verdict plan e c f s).1.st.mem = true := by
  unfold runEffect
  extract_lets r d w
  split <;> simp [r, d, w, h]

@[simp] theorem runMe_wf (o : Op) (verdict : State → Nat) (c : Ctx) (f : InFlight) (s : State) (h : Memory.wf s.mem = true) :
    Memory.wf (runMe o verdict c f s).1.mem = true := by
  unfold runMe
  simp only []
  (repeat' split) <;> simp [h]

@[simp] theorem runGslice_wf (c : Ctx) (f : InFlight) (s : State) (h : Memory.wf s.mem = true) :
    Memory.wf (runGslice c f s).1.mem = true := by
  unfold runGslice
  simp only []
  (repeat' split) <;> simp [h]

@[simp] theorem runVe_wf (plan : List PlanStep) (e : Effect) (c : Ctx) (f : InFlight) (s : State) (h : Memory.wf s.mem = true) :
    Memory.wf (runVe plan e c f s).1.mem = true := by
  unfold runVe
  simp [h]

@[simp] theorem runBinary_wf (c : Ctx) (f : InFlight) (s : State) (h : Memory.wf s.mem = true) :
    Memory.wf (runBinary c f s).1.mem = true := by
  unfold runBinary
  split <;> simp [h]

@[simp] theorem runUnary_wf (c : Ctx) (f : InFlight) (s : State) (h : Memory.wf s.mem = true) :
    Memory.wf (runUnary c f s).1.mem = true := by
  unfold runUnary
  split <;> simp [h]

@[simp] theorem runCvt_wf (c : Ctx) (f : InFlight) (s : State) (h : Memory.wf s.mem = true) :
    Memory.wf (runCvt c f s).1.mem = true := by
  unfold runCvt
  split <;> simp [h]

@[simp] theorem runReduce_wf (c : Ctx) (f : InFlight) (s : State) (h : Memory.wf s.mem = true) :
    Memory.wf (runReduce c f s).1.mem = true := by
  unfold runReduce
  split <;> simp [h]

@[simp] theorem runPool_wf (c : Ctx) (f : InFlight) (s : State) (h : Memory.wf s.mem = true) :
    Memory.wf (runPool c f s).1.mem = true := by
  unfold runPool
  split <;> simp [h]

@[simp] theorem runNorm_wf (c : Ctx) (f : InFlight) (s : State) (h : Memory.wf s.mem = true) :
    Memory.wf (runNorm c f s).1.mem = true := by
  unfold runNorm
  split <;> simp [h]

@[simp] theorem runScatter_wf (c : Ctx) (f : InFlight) (s : State) (h : Memory.wf s.mem = true) :
    Memory.wf (runScatter c f s).1.mem = true := by
  unfold runScatter
  split <;> simp [h]

@[simp] theorem State.storeAll_wf (c : Ctx) (x1 : List SmWrite) (s : State) (h : Memory.wf s.mem = true) :
    Memory.wf (State.storeAll c x1 s).1.mem = true := by
  induction x1 generalizing s with
  | nil => exact h
  | cons e l ih =>
    unfold State.storeAll
    simp only []
    (repeat' split) <;> simp [ih, h]

@[simp] theorem runSoftmax_wf (c : Ctx) (f : InFlight) (s : State) (h : Memory.wf s.mem = true) :
    Memory.wf (runSoftmax c f s).1.mem = true := by
  unfold runSoftmax
  simp only []
  (repeat' split) <;> simp [h]

@[simp] theorem State.copyTrailer_wf (c : Ctx) (a t : Tensor) (x1 : List Nat) (s : State) (h : Memory.wf s.mem = true) :
    Memory.wf (State.copyTrailer c a t x1 s).1.mem = true := by
  induction x1 generalizing s with
  | nil => exact h
  | cons e l ih =>
    unfold State.copyTrailer
    simp only []
    (repeat' split) <;> simp [ih, h]

@[simp] theorem runCopy_wf (c : Ctx) (f : InFlight) (s : State) (h : Memory.wf s.mem = true) :
    Memory.wf (runCopy c f s).1.mem = true := by
  unfold runCopy
  (repeat' split) <;> simp [h]

@[simp] theorem runFill_wf (c : Ctx) (f : InFlight) (s : State) (h : Memory.wf s.mem = true) :
    Memory.wf (runFill c f s).1.mem = true := by
  unfold runFill
  split <;> simp [h]

@[simp] theorem State.stageBytes_wf (s : State) (h : Memory.wf s.mem = true) :
    Memory.wf (State.stageBytes s).mem = true := by
  unfold State.stageBytes
  simp only []
  (repeat' split) <;> simp [h]

@[simp] theorem State.stagingUpdate_wf (s : State) (h : Memory.wf s.mem = true) :
    Memory.wf (State.stagingUpdate s).mem = true := by
  unfold State.stagingUpdate
  (repeat' split) <;> simp [h]

@[simp] theorem State.payZero_wf (s : State) (tile : Nat) (h : Memory.wf s.mem = true) :
    Memory.wf (State.payZero s tile).mem = true := by
  unfold State.payZero
  split <;> simp [h]

@[simp] theorem State.takeHead_wf (s : State) (a : QueueAlloc) (tile : Nat) (h : Memory.wf s.mem = true) :
    Memory.wf (State.takeHead s a tile).mem = true := by
  unfold State.takeHead
  simp [h]

@[simp] theorem State.commandStart_wf (s : State) (q tile : Nat) (h : Memory.wf s.mem = true) :
    Memory.wf (State.commandStart s q tile).mem = true := by
  unfold State.commandStart
  (repeat' split) <;> simp [h]

@[simp] theorem State.complete_wf (s : State) (a : QueueAlloc) (f : InFlight) (cycles : Nat) (h : Memory.wf s.mem = true) :
    Memory.wf (State.complete s a f cycles).mem = true := by
  unfold State.complete
  split <;> simp [h]

@[simp] theorem State.messageArrive_wf (s : State) (tile : Nat) (h : Memory.wf s.mem = true) :
    Memory.wf (State.messageArrive s tile).mem = true := by
  unfold State.messageArrive
  simp only []
  (repeat' split) <;> simp [h]

@[simp] theorem State.commandRetire_wf (s : State) (q cycles : Nat) (h : Memory.wf s.mem = true) :
    Memory.wf (State.commandRetire s q cycles).mem = true := by
  unfold State.commandRetire
  simp only []
  (repeat' split) <;> simp [h]

@[simp] theorem State.completeAll_wf (s : State) (q status : Nat) (x1 : List InFlight) (h : Memory.wf s.mem = true) :
    Memory.wf (State.completeAll s q status x1).mem = true := by
  induction x1 generalizing s with
  | nil => exact h
  | cons e l ih =>
    unfold State.completeAll
    (repeat' split) <;> simp [ih, h]

@[simp] theorem State.answerQueue_wf (s : State) (q status : Nat) (h : Memory.wf s.mem = true) :
    Memory.wf (State.answerQueue s q status).mem = true := by
  unfold State.answerQueue
  simp [h]

@[simp] theorem State.answerAllocs_wf (s : State) (tiles : List Nat) (status : Nat) (x1 : List QueueAlloc) (h : Memory.wf s.mem = true) :
    Memory.wf (State.answerAllocs s tiles status x1).mem = true := by
  induction x1 generalizing s with
  | nil => exact h
  | cons e l ih =>
    unfold State.answerAllocs
    (repeat' split) <;> simp [ih, h]

@[simp] theorem State.answerTiles_wf (s : State) (tiles : List Nat) (status : Nat) (h : Memory.wf s.mem = true) :
    Memory.wf (State.answerTiles s tiles status).mem = true := by
  unfold State.answerTiles
  lift_lets
  intro s1 s2
  have h1 : Memory.wf s1.mem = true := by simp [s1, h]
  clear_value s1
  have h2 : s2.mem = s1.mem := foldl_mem _ _ _ (fun s x => by simp)
  split <;> simp [h2, h1]

@[simp] theorem State.suspectUnit_wf (s : State) (k : UnitKind) (u cause : Nat) (h : Memory.wf s.mem = true) :
    Memory.wf (State.suspectUnit s k u cause).mem = true := by
  unfold State.suspectUnit
  (repeat' split) <;> simp [h]

@[simp] theorem State.settleAll_wf (x1 : List (UnitKind × Nat × Nat)) (s : State) (h : Memory.wf s.mem = true) :
    Memory.wf (State.settleAll x1 s).mem = true := by
  induction x1 generalizing s with
  | nil => exact h
  | cons e l ih => exact ih _ (by simp [h])

@[simp] theorem State.settle_wf (s : State) (h : Memory.wf s.mem = true) :
    Memory.wf (State.settle s).mem = true := by
  unfold State.settle
  simp [h]

@[simp] theorem State.retireSlot_wf (s : State) (p cause : Nat) (h : Memory.wf s.mem = true) :
    Memory.wf (State.retireSlot s p cause).mem = true := by
  unfold State.retireSlot
  simp only []
  (repeat' split) <;> simp [h]

@[simp] theorem State.repairSlotRow_wf (s : State) (p bank row : Nat) (h : Memory.wf s.mem = true) :
    Memory.wf (State.repairSlotRow s p bank row).mem = true := by
  unfold State.repairSlotRow
  simp only []
  (repeat' split) <;> simp [h]

@[simp] theorem State.repairArray_wf (s : State) (p : Nat) (found : BistFault) (h : Memory.wf s.mem = true) :
    Memory.wf (State.repairArray s p found).mem = true := by
  unfold State.repairArray
  simp only []
  (repeat' split) <;> simp [h]

@[simp] theorem State.applyBist_wf (s : State) (p : Nat) (found : BistFault) (h : Memory.wf s.mem = true) :
    Memory.wf (State.applyBist s p found).mem = true := by
  unfold State.applyBist
  dsimp only
  (repeat' split) <;> simp [h]

@[simp] theorem State.swapEmber_wf (s : State) (t e : Nat) (h : Memory.wf s.mem = true) :
    Memory.wf (State.swapEmber s t e).mem = true := by
  unfold State.swapEmber
  simp [h]

@[simp] theorem State.emberFails_wf (s : State) (e : Nat) (h : Memory.wf s.mem = true) :
    Memory.wf (State.emberFails s e).mem = true := by
  unfold State.emberFails
  simp [h]

@[simp] theorem State.swapTile_wf (s : State) (t : Nat) (h : Memory.wf s.mem = true) :
    Memory.wf (State.swapTile s t).mem = true := by
  unfold State.swapTile
  simp only []
  (repeat' split) <;> simp [h]

@[simp] theorem State.swapAll_wf (s : State) (h : Memory.wf s.mem = true) :
    Memory.wf (State.swapAll s).mem = true := by
  unfold State.swapAll
  simpa using foldl_wf _ _ _ (fun s x hs => State.swapTile_wf _ _ hs) h

@[simp] theorem State.hang_wf (s : State) (k : UnitKind) (u sev : Nat) (h : Memory.wf s.mem = true) :
    Memory.wf (State.hang s k u sev).mem = true := by
  unfold State.hang
  split <;> simp [h]

@[simp] theorem State.tileHang_wf (s : State) (p : Nat) (h : Memory.wf s.mem = true) :
    Memory.wf (State.tileHang s p).mem = true := by
  unfold State.tileHang
  split <;> simp [h]

@[simp] theorem State.drainEnd_wf (s : State) (d : Nat) (f : FenceReq) (h : Memory.wf s.mem = true) :
    Memory.wf (State.drainEnd s d f).mem = true := by
  unfold State.drainEnd
  split <;> simp [h]

@[simp] theorem State.writeDump_wf (s : State) (k : UnitKind) (u : Nat) (hungTiles hungClusters : List Nat) (h : Memory.wf s.mem = true) :
    Memory.wf (State.writeDump s k u hungTiles hungClusters).mem = true := by
  unfold State.writeDump
  simp only []
  (repeat' split) <;> simp [h]

@[simp] theorem State.clearDie_wf (s : State) (d : Nat) (h : Memory.wf s.mem = true) :
    Memory.wf (State.clearDie s d).mem = true := by
  unfold State.clearDie
  lift_lets
  intro out s1 s2 s3 s4 s5 s6 s7 s8
  have h2 : Memory.wf s3.mem = true := State.zeroRange_wf _ _ _ (by simp only [s1, State.updDie_mem]; exact h)
  have h4 : s4.mem = s3.mem := foldl_mem _ _ _ (fun s x => State.updChan_mem ..)
  have h5 : s5.mem = s4.mem := foldl_mem _ _ _ (fun s x => State.updPipe_mem ..)
  have h6 : s6.mem = s5.mem := foldl_mem _ _ _ (fun s x => State.updFacet_mem ..)
  have h7 : s7.mem = s6.mem := foldl_mem _ _ _ (fun s x => by split <;> simp)
  have h8 : s8.mem = s7.mem := foldl_mem _ _ _ (fun s x => State.updSlot_mem ..)
  simp only [State.loseOutstanding_mem, h8, h7, h6, h5, h4, h2]

@[simp] theorem State.clearUnit_wf (s : State) (k : UnitKind) (u : Nat) (h : Memory.wf s.mem = true) :
    Memory.wf (State.clearUnit s k u).mem = true := by
  unfold State.clearUnit
  have h1 : ∀ l : List Nat, (l.foldl State.clearTile s).mem = s.mem := fun l => foldl_mem _ _ _ (fun s x => by simp)
  have h0 : ∀ (l : List Nat) (s : State), (l.foldl State.loadRepair s).mem = s.mem := fun l s => foldl_mem _ _ _ (fun s x => by simp)
  have h2 : ∀ s : State, ((List.range 4).foldl (fun acc i => acc.clearCluster (4 * u + i)) s).mem = s.mem :=
    fun s => foldl_mem _ _ _ (fun s x => by simp)
  lift_lets
  intro s1 s2
  have h3 : s1.mem = s.mem := (h0 _ _).trans (h1 _)
  clear_value s1
  split
  · simp [h3, h]
  · simp [h3, h]
  · simp [h3, h]
  · refine State.clearDie_wf _ _ ?_
    simp [s2, h2, h3, h]

@[simp] theorem State.dumpWrite_wf (s : State) (d : Nat) (hungTiles hungClusters : List Nat) (h : Memory.wf s.mem = true) :
    Memory.wf (State.dumpWrite s d hungTiles hungClusters).mem = true := by
  unfold State.dumpWrite
  split <;> simp [h]

@[simp] theorem State.bistUnit_wf (s : State) (k : UnitKind) (u : Nat) (found : List (Nat × BistFault)) (h : Memory.wf s.mem = true) :
    Memory.wf (State.bistUnit s k u found).mem = true := by
  unfold State.bistUnit
  refine foldl_wf _ _ _ (fun s x hs => ?_) h
  dsimp only
  (repeat' split) <;> simp [hs]

@[simp] theorem State.zeroTiles_wf (s : State) (ts : List Nat) (h : Memory.wf s.mem = true) :
    Memory.wf (State.zeroTiles s ts).mem = true := by
  unfold State.zeroTiles
  exact foldl_wf _ _ _ (fun s x hs => by simp [hs]) (by simp [h])

@[simp] theorem State.resetComplete_wf (s : State) (k : UnitKind) (u : Nat) (found : List (Nat × BistFault)) (entryTestOk : Bool) (h : Memory.wf s.mem = true) :
    Memory.wf (State.resetComplete s k u found entryTestOk).mem = true := by
  unfold State.resetComplete
  simp only []
  (repeat' split) <;> simp [h]

@[simp] theorem State.agingAt_wf (s : State) (h : Memory.wf s.mem = true) :
    Memory.wf (State.agingAt s).mem = true := by
  unfold State.agingAt
  refine foldl_wf _ _ _ (fun s x hs => ?_) (by simp [h])
  (repeat' split) <;> simp [hs]

@[simp] theorem State.killTile_wf (s : State) (t : Nat) (h : Memory.wf s.mem = true) :
    Memory.wf (State.killTile s t).mem = true := by
  unfold State.killTile
  simp [h]

@[simp] theorem State.killRequest_wf (s : State) (d : Nat) (h : Memory.wf s.mem = true) :
    Memory.wf (State.killRequest s d).1.mem = true := by
  unfold State.killRequest
  lift_lets
  intro x g tiles ids s1 s2
  have h1 : Memory.wf s1.mem = true := foldl_wf _ _ _ (fun s x hs => by simp [hs]) h
  have h2 : Memory.wf s2.mem = true := foldl_wf _ _ _ (fun s x hs => by split <;> simp [hs]) h1
  clear_value s2
  (repeat' split) <;> simp [h, h2]

@[simp] theorem State.askKill_wf (s : State) (die : Nat) (h : Memory.wf s.mem = true) :
    Memory.wf (State.askKill s die).mem = true := by
  unfold State.askKill
  split
  · exact h
  · simp only [State.recovStatus_mem]
    exact State.killRequest_wf _ _ (by simp [h])

@[simp] theorem State.reconcileUnit_wf (s : State) (e : UnitKind × Nat) (h : Memory.wf s.mem = true) :
    Memory.wf (State.reconcileUnit s e).mem = true := by
  unfold State.reconcileUnit
  simp only []
  (repeat' split) <;> simp [h]

@[simp] theorem State.sliceMissing_wf (s : State) (t : Nat) (h : Memory.wf s.mem = true) :
    Memory.wf (State.sliceMissing s t).mem = true := by
  unfold State.sliceMissing
  simp [h]

@[simp] theorem State.switchSchedule_wf (s : State) (h : Memory.wf s.mem = true) :
    Memory.wf (State.switchSchedule s).mem = true := by
  unfold State.switchSchedule
  simp only []
  (repeat' split) <;> simp [h]

@[simp] theorem State.boundary_wf (s : State) (n k : Nat) (h : Memory.wf s.mem = true) :
    Memory.wf (State.boundary s n k).mem = true := by
  unfold State.boundary
  lift_lets
  intro s1 owed s2 s3 s4 s5
  have h2 : Memory.wf s2.mem = true := by simp [s2, s1, h]
  clear_value s2
  have h3 : Memory.wf s3.mem = true := by
    simp only [s3, State.updBeat_mem]
    exact State.agingAt_wf _ (foldl_wf _ _ _ (fun s x hs => by simp [hs]) h2)
  clear_value s3
  have h4 : Memory.wf s4.mem = true := State.switchSchedule_wf _ (State.swapAll_wf _ h3)
  clear_value s4
  have h5 : Memory.wf s5.mem = true := by simp [s5, h4]
  clear_value s5
  split <;> simp [h5]

@[simp] theorem State.beatBegin_wf (s : State) (n : Nat) (h : Memory.wf s.mem = true) :
    Memory.wf (State.beatBegin s n).mem = true := by
  unfold State.beatBegin
  simp only []
  (repeat' split) <;> simp [h]

@[simp] theorem State.putLost_wf (s : State) (h : Memory.wf s.mem = true) :
    Memory.wf (State.putLost s).mem = true := by
  unfold State.putLost
  (repeat' split) <;> simp [h]

@[simp] theorem State.recordLost_wf (s : State) (n : Nat) (h : Memory.wf s.mem = true) :
    Memory.wf (State.recordLost s n).mem = true := by
  unfold State.recordLost
  simp [h]

@[simp] theorem State.recordWrite_wf (s : State) (rec : List Byte) (h : Memory.wf s.mem = true) :
    Memory.wf (State.recordWrite s rec).mem = true := by
  unfold State.recordWrite
  simp [h]

@[simp] theorem State.commitBeat_wf (s : State) (n : Nat) (missing : Option Nat) (h : Memory.wf s.mem = true) :
    Memory.wf (State.commitBeat s n missing).mem = true := by
  unfold State.commitBeat
  simp
  (repeat' split) <;> simp [h]

@[simp] theorem State.recordCommit_wf (s : State) (h : Memory.wf s.mem = true) :
    Memory.wf (State.recordCommit s).mem = true := by
  unfold State.recordCommit
  simp only []
  (repeat' split) <;> simp [h]

@[simp] theorem State.scanStop_wf (s : State) (unit : Nat) (h : Memory.wf s.mem = true) :
    Memory.wf (State.scanStop s unit).mem = true := by
  unfold State.scanStop
  simp [h]

@[simp] theorem State.startChecker_wf (s : State) (k : Nat) (grid : SMap GridCell) (binned : Nat) (h : Memory.wf s.mem = true) :
    Memory.wf (State.startChecker s k grid binned).mem = true := by
  unfold State.startChecker
  split <;> simp [h]

@[simp] theorem State.checksumVerify_wf (s : State) (i : Nat) (h : Memory.wf s.mem = true) :
    Memory.wf (State.checksumVerify s i).mem = true := by
  unfold State.checksumVerify
  (repeat' split) <;> simp [h]

@[simp] theorem State.testFail_wf (s : State) (t : TestTarget) (unit : Nat) (h : Memory.wf s.mem = true) :
    Memory.wf (State.testFail s t unit).mem = true := by
  unfold State.testFail
  split <;> simp [h]

@[simp] theorem State.hpComplete_wf (s : State) (a status flags length seq addr : Nat) (stamp : List Byte) (h : Memory.wf s.mem = true) :
    Memory.wf (State.hpComplete s a status flags length seq addr stamp).mem = true := by
  unfold State.hpComplete
  split <;> simp [h]

@[simp] theorem State.txEnd_wf (s : State) (mac a status flags length addr : Nat) (stamp : List Byte) (irq : Bool) (h : Memory.wf s.mem = true) :
    Memory.wf (State.txEnd s mac a status flags length addr stamp irq).mem = true := by
  unfold State.txEnd
  split <;> simp [h]

@[simp] theorem State.hpTransmit_wf (s : State) (mac : Nat) (h : Memory.wf s.mem = true) :
    Memory.wf (State.hpTransmit s mac).mem = true := by
  unfold State.hpTransmit
  simp only []
  (repeat' split) <;> simp [h]

@[simp] theorem State.rxEnd_wf (s : State) (mac a status flags length addr : Nat) (stamp : List Byte) (irq : Bool) (h : Memory.wf s.mem = true) :
    Memory.wf (State.rxEnd s mac a status flags length addr stamp irq).mem = true := by
  unfold State.rxEnd
  split <;> simp [h]

@[simp] theorem State.hpReceive_wf (mac : Nat) (f : List Byte) (x : Stamp) (x1 : Nat) (s : State) (h : Memory.wf s.mem = true) :
    Memory.wf (State.hpReceive mac f x x1 s).mem = true := by
  induction x1 generalizing s with
  | zero => exact h
  | succ n ih =>
    unfold State.hpReceive
    simp only []
    (repeat' split) <;> simp [ih, h]

@[simp] theorem State.ethReceive_wf (s : State) (mac : Nat) (f : List Byte) (fcsOk : Bool) (h : Memory.wf s.mem = true) :
    Memory.wf (State.ethReceive s mac f fcsOk).mem = true := by
  unfold State.ethReceive
  (repeat' split) <;> simp [h]

@[simp] theorem State.putLine_wf (s : State) (b : CameraBind) (c : IntakeCamera) (slot n : Nat) (bs : List Byte) (h : Memory.wf s.mem = true) :
    Memory.wf (State.putLine s b c slot n bs).mem = true := by
  unfold State.putLine
  simp [h]

@[simp] theorem State.zeroLines_wf (s : State) (b : CameraBind) (c : IntakeCamera) (slot n m : Nat) (h : Memory.wf s.mem = true) :
    Memory.wf (State.zeroLines s b c slot n m).mem = true := by
  unfold State.zeroLines
  simp [h]

@[simp] theorem State.endFrame_wf (s : State) (b : CameraBind) (h : Memory.wf s.mem = true) :
    Memory.wf (State.endFrame s b).mem = true := by
  unfold State.endFrame
  simp only []
  (repeat' split) <;> simp [h]

@[simp] theorem State.strictCut_wf (s : State) (b : CameraBind) (c : IntakeCamera) (j : FrameJob) (received : Nat) (h : Memory.wf s.mem = true) :
    Memory.wf (State.strictCut s b c j received).mem = true := by
  unfold State.strictCut
  split <;> simp [h]

@[simp] theorem State.frameStartOf_wf (s : State) (b : CameraBind) (csiFn : Nat) (h : Memory.wf s.mem = true) :
    Memory.wf (State.frameStartOf s b csiFn).mem = true := by
  unfold State.frameStartOf
  simp only []
  (repeat' split) <;> simp [h]

@[simp] theorem State.imageLine_wf (s : State) (b : CameraBind) (c : IntakeCamera) (j : FrameJob) (payload : List Byte) (crcOk : Bool) (h : Memory.wf s.mem = true) :
    Memory.wf (State.imageLine s b c j payload crcOk).mem = true := by
  unfold State.imageLine
  simp only []
  (repeat' split) <;> simp [h]

@[simp] theorem State.embLine_wf (s : State) (b : CameraBind) (c : IntakeCamera) (j : FrameJob) (payload : List Byte) (crcOk : Bool) (h : Memory.wf s.mem = true) :
    Memory.wf (State.embLine s b c j payload crcOk).mem = true := by
  unfold State.embLine
  (repeat' split) <;> simp [h]

@[simp] theorem State.lostLine_wf (s : State) (b : CameraBind) (c : IntakeCamera) (j : FrameJob) (h : Memory.wf s.mem = true) :
    Memory.wf (State.lostLine s b c j).mem = true := by
  unfold State.lostLine
  split <;> simp [h]

@[simp] theorem State.writeNote_wf (s : State) (j : FrameJob) (flags startWord : Nat) (h : Memory.wf s.mem = true) :
    Memory.wf (State.writeNote s j flags startWord).mem = true := by
  unfold State.writeNote
  split <;> simp [h]

@[simp] theorem State.putLevels_wf (s : State) (v : IspView) (k : Nat) (planes : Option (List Plane)) (h : Memory.wf s.mem = true) :
    Memory.wf (State.putLevels s v k planes).mem = true := by
  unfold State.putLevels
  suffices ∀ (ls : List Nat) (p : State × Nat), Memory.wf p.1.mem = true → Memory.wf (ls.foldl (fun (acc : State × Nat) l =>
      let bs := match planes with
        | some ps => v.levelData ps l
        | none => zeros (v.levelBytes l)
      (acc.1.put acc.2 bs, acc.2 + v.levelBytes l)) p).1.mem = true from this _ _ h
  intro ls
  induction ls with
  | nil => exact fun _ h => h
  | cons l ls ih => exact fun p hp => ih _ (State.put_wf _ _ _ hp)

@[simp] theorem State.putCopy_wf (s : State) (v : IspView) (j : FrameJob) (planes : Option (List Plane)) (paramSeq : Nat) (h : Memory.wf s.mem = true) :
    Memory.wf (State.putCopy s v j planes paramSeq).mem = true := by
  unfold State.putCopy
  split <;> simp [h]

@[simp] theorem State.putStats_wf (s : State) (v : IspView) (j : FrameJob) (isVoid : Bool) (f : FctxSt) (body : List Byte) (h : Memory.wf s.mem = true) :
    Memory.wf (State.putStats s v j isVoid f body).mem = true := by
  unfold State.putStats
  simp [h]

@[simp] theorem State.dropStale_wf (s : State) (v : IspView) (j : FrameJob) (h : Memory.wf s.mem = true) :
    Memory.wf (State.dropStale s v j).mem = true := by
  unfold State.dropStale
  simp [h]

@[simp] theorem State.startJob_wf (s : State) (v : IspView) (j : FrameJob) (h : Memory.wf s.mem = true) :
    Memory.wf (State.startJob s v j).mem = true := by
  unfold State.startJob
  simp only []
  (repeat' split) <;> simp [h]

@[simp] theorem State.pipelineStart_wf (s : State) (p : Nat) (h : Memory.wf s.mem = true) :
    Memory.wf (State.pipelineStart s p).mem = true := by
  unfold State.pipelineStart
  simp only []
  (repeat' split) <;> simp [h]

@[simp] theorem State.deliverFrame_wf (s : State) (v : IspView) (j : FrameJob) (planes : Option (List Plane)) (stats : List Byte) (h : Memory.wf s.mem = true) :
    Memory.wf (State.deliverFrame s v j planes stats).mem = true := by
  unfold State.deliverFrame
  lift_lets
  intro f seq s1 s2 j1 j2 s3
  have h1 : Memory.wf s1.mem = true := State.putCopy_wf _ _ _ _ _ (State.putLevels_wf _ _ _ _ h)
  clear_value s1
  have h2 : Memory.wf s2.mem = true := State.putStats_wf _ _ _ _ _ _ h1
  clear_value s2
  have h3 : Memory.wf s3.mem = true := by
    simp only [s3, State.setObject_mem]
    exact State.writeNote_wf _ _ _ _ h2
  clear_value s3
  simp [h3]

@[simp] theorem State.completeFrame_wf (s : State) (v : IspView) (j : FrameJob) (h : Memory.wf s.mem = true) :
    Memory.wf (State.completeFrame s v j).mem = true := by
  unfold State.completeFrame
  simp only []
  (repeat' split) <;> simp [h]

@[simp] theorem State.decFinish_wf (s : State) (d : Nat) (h : Memory.wf s.mem = true) :
    Memory.wf (State.decFinish s d).mem = true := by
  unfold State.decFinish
  simp [h]

@[simp] theorem State.putRaw_wf (s : State) (v : IspView) (slot : Nat) (p : List Nat) (h : Memory.wf s.mem = true) :
    Memory.wf (State.putRaw s v slot p).mem = true := by
  unfold State.putRaw
  exact foldl_wf _ _ _ (fun s x hs => by simp [hs]) (by simp [h])

@[simp] theorem State.offer_wf (s : State) (d : Nat) (o : Offer) (capOff : Nat) (v : IspView) (h : Memory.wf s.mem = true) :
    Memory.wf (State.offer s d o capOff v).mem = true := by
  unfold State.offer
  simp only []
  (repeat' split) <;> simp [h]

@[simp] theorem State.forwardPacket_wf (s : State) (n : Nat) (t : RangeTemplate) (time : Instant) (k : Nat) (late replay : Bool) (b : List Byte) (h : Memory.wf s.mem = true) :
    Memory.wf (State.forwardPacket s n t time k late replay b).mem = true := by
  unfold State.forwardPacket
  simp [h]

@[simp] theorem State.takeRangePacket_wf (s : State) (mac n : Nat) (t : RangeTemplate) (x : Stamp) (time : Instant) (k : Nat) (replay : Bool) (b : List Byte) (h : Memory.wf s.mem = true) :
    Memory.wf (State.takeRangePacket s mac n t x time k replay b).mem = true := by
  unfold State.takeRangePacket
  simp only []
  (repeat' split) <;> simp [h]

@[simp] theorem State.rangePacket_wf (s : State) (mac : Nat) (h : Memory.wf s.mem = true) :
    Memory.wf (State.rangePacket s mac).mem = true := by
  unfold State.rangePacket
  simp only []
  (repeat' split) <;> simp [h]

@[simp] theorem State.gridClose_wf (s : State) (h : Memory.wf s.mem = true) :
    Memory.wf (State.gridClose s).mem = true := by
  unfold State.gridClose
  lift_lets
  intro k g n s1 s2 r s3
  have h1 : s1.mem = s.mem := foldl_mem _ _ _ (fun s x => by simp)
  have h2 : s2.mem = s1.mem := foldl_mem _ _ _ (fun s x => by simp)
  have h3 : s3.mem = s2.mem := (rfl)
  split
  · exact h
  · exact State.startChecker_wf _ _ _ _ (by rw [h3, h2, h1]; exact h)

@[simp] theorem State.repairTileRow_wf (s : State) (a t : Nat) (h : Memory.wf s.mem = true) :
    Memory.wf (State.repairTileRow s a t).mem = true := by
  unfold State.repairTileRow
  simp only []
  (repeat' split) <;> simp [h]

@[simp] theorem State.loseRegion_wf (s : State) (g : Nat) (h : Memory.wf s.mem = true) :
    Memory.wf (State.loseRegion s g).mem = true := by
  unfold State.loseRegion
  split <;> simp [h]

@[simp] theorem State.repairPeatRow_wf (s : State) (a d : Nat) (h : Memory.wf s.mem = true) :
    Memory.wf (State.repairPeatRow s a d).mem = true := by
  unfold State.repairPeatRow
  simp only []
  (repeat' split) <;> simp [h]

@[simp] theorem State.repairRow_wf (s : State) (a : Nat) (h : Memory.wf s.mem = true) :
    Memory.wf (State.repairRow s a).mem = true := by
  unfold State.repairRow
  split <;> simp [h]

@[simp] theorem State.scrubFixed_wf (s : State) (m u errors : Nat) (h : Memory.wf s.mem = true) :
    Memory.wf (State.scrubFixed s m u errors).mem = true := by
  unfold State.scrubFixed
  simp only []
  (repeat' split) <;> simp [h]

@[simp] theorem State.scrubUnit_wf (s : State) (m : Nat) (testFails : Bool) (u size : Nat) (h : Memory.wf s.mem = true) :
    Memory.wf (State.scrubUnit s m testFails u size).mem = true := by
  unfold State.scrubUnit
  (repeat' split) <;> simp [h]

@[simp] theorem State.scrubTest_wf (s : State) (a : Nat) (testFails : Bool) (h : Memory.wf s.mem = true) :
    Memory.wf (State.scrubTest s a testFails).mem = true := by
  unfold State.scrubTest
  simp only []
  (repeat' split) <;> simp [h]

@[simp] theorem State.zeroCarves_wf (s : State) (h : Memory.wf s.mem = true) :
    Memory.wf (State.zeroCarves s).mem = true := by
  unfold State.zeroCarves
  exact foldl_wf _ _ _ (fun s x hs => by simp [hs]) (by simp [h])

@[simp] theorem State.activateImage_wf (s : State) (i : Image) (slot fallback : Bool) (die : Firmware) (h : Memory.wf s.mem = true) :
    Memory.wf (State.activateImage s i slot fallback die).mem = true := by
  unfold State.activateImage
  simp only []
  (repeat' split) <;> simp [h]

@[simp] theorem State.startImage_wf (s : State) (die : Firmware) (h : Memory.wf s.mem = true) :
    Memory.wf (State.startImage s die).mem = true := by
  unfold State.startImage
  simp only []
  (repeat' split) <;> simp [h]

@[simp] theorem State.finishBoot_wf (s : State) (h : Memory.wf s.mem = true) :
    Memory.wf (State.finishBoot s).mem = true := by
  unfold State.finishBoot
  simp only []
  (repeat' split) <;> simp [h]

@[simp] theorem State.nextDie_wf (s : State) (d : Nat) (h : Memory.wf s.mem = true) :
    Memory.wf (State.nextDie s d).mem = true := by
  unfold State.nextDie
  split <;> simp [h]

@[simp] theorem State.pgoodRise_wf (s : State) (d : Nat) (h : Memory.wf s.mem = true) :
    Memory.wf (State.pgoodRise s d).mem = true := by
  unfold State.pgoodRise
  (repeat' split) <;> simp [h]

@[simp] theorem State.pgoodTimeout_wf (s : State) (d : Nat) (h : Memory.wf s.mem = true) :
    Memory.wf (State.pgoodTimeout s d).mem = true := by
  unfold State.pgoodTimeout
  (repeat' split) <;> simp [h]

@[simp] theorem State.powerLost_wf (s : State) (d : Nat) (h : Memory.wf s.mem = true) :
    Memory.wf (State.powerLost s d).mem = true := by
  unfold State.powerLost
  simp only []
  (repeat' split) <;> simp [h]

@[simp] theorem State.thermalTrip_wf (s : State) (d : Nat) (h : Memory.wf s.mem = true) :
    Memory.wf (State.thermalTrip s d).mem = true := by
  unfold State.thermalTrip
  (repeat' split) <;> simp [h]

@[simp] theorem State.attest_wf (s : State) (h : Memory.wf s.mem = true) :
    Memory.wf (State.attest s).mem = true := by
  unfold State.attest
  simp only []
  (repeat' split) <;> simp [h]

@[simp] theorem State.hostRead_wf (s : State) (a n : Nat) (h : Memory.wf s.mem = true) :
    Memory.wf (State.hostRead s a n).mem = true := by
  unfold State.hostRead
  simp only []
  (repeat' split) <;> simp [h]

@[simp] theorem State.hostWrite_wf (s : State) (a : Nat) (bs : List Byte) (h : Memory.wf s.mem = true) :
    Memory.wf (State.hostWrite s a bs).mem = true := by
  unfold State.hostWrite
  simp only []
  (repeat' split) <;> simp [h]

@[simp] theorem State.hostMemoryRead_wf (s : State) (o n : Nat) (poisoned : Bool) (h : Memory.wf s.mem = true) :
    Memory.wf (State.hostMemoryRead s o n poisoned).mem = true := by
  unfold State.hostMemoryRead
  (repeat' split) <;> simp [h]

@[simp] theorem State.hostMemoryWrite_wf (s : State) (o : Nat) (bs : List Byte) (poisoned : Bool) (h : Memory.wf s.mem = true) :
    Memory.wf (State.hostMemoryWrite s o bs poisoned).mem = true := by
  unfold State.hostMemoryWrite
  (repeat' split) <;> simp [h]

@[simp] theorem State.undoMessage_wf (s : State) (m : RemoteMsg) (h : Memory.wf s.mem = true) :
    Memory.wf (State.undoMessage s m).mem = true := by
  unfold State.undoMessage
  exact foldl_wf _ _ _ (fun s x hs => by simp [hs]) (by simp [h])

@[simp] theorem State.writePacket_wf (s : State) (p : Nat) (k : Packet) (h : Memory.wf s.mem = true) :
    Memory.wf (State.writePacket s p k).mem = true := by
  unfold State.writePacket
  simp only []
  (repeat' split) <;> simp [h]

@[simp] theorem State.readList_wf (s : State) (a n : Nat) (h : Memory.wf s.mem = true) :
    Memory.wf (State.readList s a n).1.mem = true := by
  unfold State.readList
  simp only []
  (repeat' split) <;> simp [h]

@[simp] theorem State.fetchList_wf (s : State) (h : Memory.wf s.mem = true) :
    Memory.wf (State.fetchList s).1.mem = true := by
  unfold State.fetchList
  simp only []
  (repeat' split) <;> simp [h]

@[simp] theorem State.commit_wf (s : State) (h : Memory.wf s.mem = true) :
    Memory.wf (State.commit s).mem = true := by
  unfold State.commit
  simp only []
  (repeat' split) <;> simp [h]

@[simp] theorem State.enterMode_wf (s : State) (m out off : Nat) (h : Memory.wf s.mem = true) :
    Memory.wf (State.enterMode s m out off).mem = true := by
  unfold State.enterMode
  simp only []
  (repeat' split) <;> simp [h]

@[simp] theorem State.switchImage_wf (s : State) (h : Memory.wf s.mem = true) :
    Memory.wf (State.switchImage s).mem = true := by
  unfold State.switchImage
  split
  · rename_i a b _ _
    lift_lets
    intro out s1 s2 s3 s4
    have h1 : s1.mem = s.mem := by simp [s1]
    clear_value s1
    have h2 : Memory.wf s2.mem = true := State.enterMode_wf _ _ _ _ (by simp [h1, h])
    clear_value s2
    have h3 : s3.mem = s2.mem := foldl_mem _ _ _ (fun s x => by simp)
    have h4 : s4.mem = s3.mem := by simp [s4]
    simp [h4, h3, h2]
  · exact h

@[simp] theorem State.activate_wf (s : State) (m : Nat) (h : Memory.wf s.mem = true) :
    Memory.wf (State.activate s m).mem = true := by
  unfold State.activate
  simp only []
  (repeat' split) <;> simp [h]

@[simp] theorem State.applyEntry_wf (s : State) (t : Txn) (e : TxnEntry) (h : Memory.wf s.mem = true) :
    Memory.wf (State.applyEntry s t e).mem = true := by
  unfold State.applyEntry
  dsimp only
  (repeat' split) <;> simp [h]

@[simp] theorem State.txnMissed_wf (s : State) (t : Txn) (h : Memory.wf s.mem = true) :
    Memory.wf (State.txnMissed s t).mem = true := by
  unfold State.txnMissed
  split
  · exact h
  · exact foldl_wf _ _ _ (fun s x hs => by simp [hs]) h

@[simp] theorem State.txnApply_wf (s : State) (h : Memory.wf s.mem = true) :
    Memory.wf (State.txnApply s).mem = true := by
  unfold State.txnApply
  split
  · exact h
  · rename_i t _
    split
    · exact h
    · lift_lets
      intro s0 s1
      have h0 : Memory.wf s0.mem = true := State.txnMissed_wf _ _ h
      clear_value s0
      have h1 : Memory.wf s1.mem = true := by
        refine foldl_wf _ _ _ (fun s x hs => State.applyEntry_wf _ _ _ hs) ?_
        rw [foldl_mem _ _ _ (fun s x => State.touchUnit_mem ..)]
        exact h0
      clear_value s1
      split <;> simp [h0, h1]

@[simp] theorem State.recovGo_wf (s : State) (d : Nat) (h : Memory.wf s.mem = true) :
    Memory.wf (State.recovGo s d).mem = true := by
  unfold State.recovGo
  simp only []
  (repeat' split) <;> simp [h]

@[simp] theorem State.secAct_wf (s : State) (v : Nat) (h : Memory.wf s.mem = true) :
    Memory.wf (State.secAct s v).mem = true := by
  unfold State.secAct
  (repeat' split) <;> simp [h]

@[simp] theorem State.writeAct_wf (s : State) (agent : Agent) (r : Reg) (v : Nat) (h : Memory.wf s.mem = true) :
    Memory.wf (State.writeAct s agent r v).mem = true := by
  unfold State.writeAct
  (repeat' split) <;> simp [h]

@[simp] theorem State.writeReg_wf (s : State) (agent : Agent) (r : Reg) (w : Nat) (h : Memory.wf s.mem = true) :
    Memory.wf (State.writeReg s agent r w).mem = true := by
  unfold State.writeReg
  split <;> simp [h]

@[simp] theorem State.writeBar0_wf (s : State) (agent : Agent) (o w : Nat) (h : Memory.wf s.mem = true) :
    Memory.wf (State.writeBar0 s agent o w).mem = true := by
  unfold State.writeBar0
  (repeat' split) <;> simp [h]

@[simp] theorem State.registerWrite_wf (s : State) (agent : Agent) (o w : Nat) (h : Memory.wf s.mem = true) :
    Memory.wf (State.registerWrite s agent o w).mem = true := by
  unfold State.registerWrite
  (repeat' split) <;> simp [h]

/-! ### Operations that take an operation -/

theorem State.runOp_wf (s : State) (q : Nat) (o : Op) (body : Ctx → InFlight → State → State × InFlight)
    (hb : ∀ c f s, Memory.wf s.mem = true → Memory.wf (body c f s).1.mem = true) (h : Memory.wf s.mem = true) :
    Memory.wf (s.runOp q o body).mem = true := by
  unfold State.runOp
  simp only []
  (repeat' split) <;> simp [hb, h]

theorem State.takePacket_wf (s : State) (p kind : Nat) (f : State → Packet → State)
    (hf : ∀ s k, Memory.wf s.mem = true → Memory.wf (f s k).mem = true) (h : Memory.wf s.mem = true) :
    Memory.wf (s.takePacket p kind f).mem = true := by
  unfold State.takePacket
  (repeat' split) <;> simp [hf, h]

@[simp] theorem State.porAssert_wf (s : State) (ns : Nat) (h : Memory.wf s.mem = true) :
    Memory.wf (s.porAssert ns).mem = true := by
  unfold State.porAssert
  simp only []
  (repeat' split) <;> simp [h]

end Sys2Proof.Machine
end

