-- ==== Sys2Proof/Laws/Reads.lean ====
section
/-! SUPPORT. Memory without errors (R124, R126): a read of a unit gives its bytes and changes nothing, a write of a unit writes the
bytes that fall into it, and the units of a range cover it; and what a command that runs leaves. -/

namespace Sys2Proof.Machine

theorem State.isDirty_sound {s : State} (h : s.sound) (a : Nat) : s.isDirty a = false := by
  obtain ⟨_, h2, h3, _⟩ := h
  simp [State.isDirty, h2, h3]

theorem State.undirty_sound {s : State} (h : s.sound) (a : Nat) : s.undirty a = s := by
  simp [State.undirty, State.isDirty_sound h]

theorem State.linkTry_sound {s : State} (h : s.sound) (a : Nat) : s.linkTry a = (s, 0) := by
  unfold State.linkTry
  split
  · simp [h.2.2.2]
  · rfl

theorem residualBits_nil (z : Nat) : residualBits z [] [] = [] := by simp [residualBits]

theorem State.fetchUnit_sound {s : State} (h : s.sound) (u z : Nat) :
    s.fetchUnit u z = { st := s, status := 0, data := SMap.bytes s.mem u z } := by
  have h1 := h.1
  simp [State.fetchUnit, State.linkTry_sound h, State.fetchStored, State.isDirty_sound h, h1, decodeUnit, State.unitData,
    residualBits_nil]

/-- A read of a unit of memory without errors gives its bytes and changes nothing, whether or not it makes its line's transfer. -/
theorem State.fetchPart_sound {s : State} (h : s.sound) (first : Bool) (u z : Nat) :
    s.fetchPart first u z = { st := s, status := 0, data := SMap.bytes s.mem u z } := by
  have h1 := State.fetchUnit_sound h u z
  unfold State.fetchUnit at h1
  simp only [State.linkTry_sound h, ne_eq, not_true, if_false] at h1
  unfold State.fetchPart
  split
  · exact State.fetchUnit_sound h u z
  · exact h1

@[simp] theorem SMap.length_bytes (m : SMap Byte) (a n : Nat) : (SMap.bytes m a n).length = n := by simp [SMap.bytes]

theorem State.unitSize_cases (s : State) (a : Nat) : s.unitSize a = 8 ∨ s.unitSize a = 32 := by
  unfold State.unitSize
  split
  · simp
  · split <;> (try split) <;> simp

theorem SMap.get_setBytes_aux (bs : List Byte) (m : SMap Byte) (a x : Nat) :
    SMap.get 0 (bs.foldl (fun acc b => (SMap.set 0 acc.1 acc.2 b, acc.2 + 1)) (m, a)).1 x =
      if a ≤ x ∧ x < a + bs.length then bs.getD (x - a) 0 else SMap.get 0 m x := by
  induction bs generalizing m a with
  | nil => simp
  | cons b bs ih =>
    simp only [List.foldl_cons, ih, SMap.get_set, List.length_cons]
    by_cases h : x = a
    · subst h; simp
    · by_cases h1 : a ≤ x
      · have h2 : x - a = (x - (a + 1)) + 1 := by omega
        have h3 : (a + 1 ≤ x ∧ x < a + 1 + bs.length) ↔ (a ≤ x ∧ x < a + (bs.length + 1)) := by omega
        simp only [h3, h2, h, if_false, List.getD_cons_succ]
      · have : ¬ (a + 1 ≤ x) := by omega
        simp [h, h1, this]

theorem SMap.get_setBytes (bs : List Byte) (m : SMap Byte) (a x : Nat) :
    SMap.get 0 (SMap.setBytes m a bs) x = if a ≤ x ∧ x < a + bs.length then bs.getD (x - a) 0 else SMap.get 0 m x :=
  SMap.get_setBytes_aux bs m a x

theorem getD_take_drop (bs : List Byte) (i k n : Nat) (h : i < n) : ((bs.drop k).take n).getD i 0 = bs.getD (k + i) 0 := by
  simp [List.getD, h, List.getElem?_drop]

/-- in a sound state, a write of one unit writes exactly the bytes of bs that fall into it -/
theorem State.storeUnit_sound {s : State} (h : s.sound) (first : Bool) (u z a : Nat) (bs : List Byte) :
    ∃ m : SMap Byte, s.storeUnit first u z a bs = ({ s with mem := m }, 0) ∧
      ∀ x, SMap.get 0 m x = if a ≤ x ∧ x < a + bs.length ∧ u ≤ x ∧ x < u + z then bs.getD (x - a) 0 else SMap.get 0 s.mem x := by
  have h1 := h.1
  have hpart : ∀ x, ∀ m, SMap.get 0 (SMap.setBytes m (max a u) ((bs.drop (max a u - a)).take (min (a + bs.length) (u + z) - max a u))) x =
      if a ≤ x ∧ x < a + bs.length ∧ u ≤ x ∧ x < u + z then bs.getD (x - a) 0 else SMap.get 0 m x := by
    intro x m
    rw [SMap.get_setBytes]
    simp only [List.length_take, List.length_drop]
    by_cases hc : a ≤ x ∧ x < a + bs.length ∧ u ≤ x ∧ x < u + z
    · rw [if_pos hc, if_pos (by omega), getD_take_drop _ _ _ _ (by omega)]
      congr 1; omega
    · rw [if_neg hc, if_neg (by omega)]
  unfold State.storeUnit
  simp only [State.undirty_sound h, State.linkTry_sound h, State.fetchPart_sound h, ite_self]
  split
  · refine ⟨_, by simp [h1, SMap.set, SMap.consCell]; rfl, ?_⟩
    intro x; exact hpart x _
  · refine ⟨_, by simp [h1, SMap.set, SMap.consCell]; rfl, ?_⟩
    intro x
    rw [hpart]
    split
    · rfl
    · rw [SMap.get_setBytes]
      split
      · next hx => simp only [SMap.length_bytes] at hx; simp [SMap.bytes, List.getD, show x - u < z by omega, show u + (x - u) = x by omega]
      · rfl

theorem State.sound_mem {s : State} (h : s.sound) (m : SMap Byte) : ({ s with mem := m } : State).sound := h

theorem State.storeUnits_sound {s : State} (h : s.sound) (stop : Bool) (a : Nat) (bs : List Byte) (line : Option (Nat × Bool))
    (hl : ∀ x : Nat, line ≠ some (x, true)) (l : List (Nat × Nat)) :
    ∃ m : SMap Byte, State.storeUnits stop a bs line l (s, 0) = ({ s with mem := m }, 0) ∧
      ∀ x, SMap.get 0 m x = if a ≤ x ∧ x < a + bs.length ∧ ∃ e ∈ l, e.1 ≤ x ∧ x < e.1 + e.2 then bs.getD (x - a) 0 else SMap.get 0 s.mem x := by
  induction l generalizing s line with
  | nil => exact ⟨s.mem, by simp [State.storeUnits], by simp⟩
  | cons e l ih =>
    obtain ⟨u, z⟩ := e
    obtain ⟨m, h1, h2⟩ := State.storeUnit_sound h (line != some (u / 64, false)) u z a bs
    obtain ⟨m', h3, h4⟩ := ih (State.sound_mem h m) (some (u / 64, false)) (by simp)
    refine ⟨m', ?_, ?_⟩
    · have h5 : (line == some (u / 64, true)) = false := by simpa using hl (u / 64)
      simp [State.storeUnits, h1, h3, h5]
    · intro x
      rw [h4, h2]
      by_cases hx : a ≤ x ∧ x < a + bs.length
      · by_cases hu : u ≤ x ∧ x < u + z <;> by_cases hl : ∃ e ∈ l, e.1 ≤ x ∧ x < e.1 + e.2 <;> simp [hx, hu, hl]
      · rw [if_neg (by tauto), if_neg (by tauto), if_neg (by tauto)]

/-- the units cover the range -/
theorem State.unitsFrom_covers (s : State) (fuel u e x : Nat) (hx : u ≤ x) (he : x < e) (hf : e ≤ u + 8 * fuel) :
    ∃ p ∈ s.unitsFrom fuel u e, p.1 ≤ x ∧ x < p.1 + p.2 := by
  induction fuel generalizing u with
  | zero => omega
  | succ f ih =>
    have hz := s.unitSize_cases u
    unfold State.unitsFrom
    rw [if_pos (by omega)]
    by_cases h : x < u + s.unitSize u
    · exact ⟨(u, s.unitSize u), by simp, hx, h⟩
    · obtain ⟨p, hp, hq⟩ := ih (u + s.unitSize u) (by omega) (by omega)
      exact ⟨p, by simp [hp], hq⟩

theorem State.units_covers (s : State) (a n x : Nat) (hx : a ≤ x) (he : x < a + n) :
    ∃ p ∈ s.units a n, p.1 ≤ x ∧ x < p.1 + p.2 := by
  unfold State.units
  dsimp only
  have h0 : a / s.unitSize a * s.unitSize a ≤ a := Nat.div_mul_le_self _ _
  have h1 : a < a / s.unitSize a * s.unitSize a + s.unitSize a := by
    rw [Nat.mul_comm]; exact Nat.lt_mul_div_succ a (by rcases s.unitSize_cases a with h | h <;> omega)
  refine s.unitsFrom_covers _ _ _ _ (by omega) he ?_
  rcases s.unitSize_cases a with h | h <;> rw [h] at * <;> omega

theorem SMap.bytes_append (m : SMap Byte) (a n k : Nat) : SMap.bytes m a n ++ SMap.bytes m (a + n) k = SMap.bytes m a (n + k) := by
  simp [SMap.bytes, List.range_add, Nat.add_assoc]

theorem State.fetchUnits_sound {s : State} (h : s.sound) (line : Option Nat) (fuel u e u0 : Nat) (hu : u0 ≤ u) (he : u < e)
    (hf : e ≤ u + 8 * fuel) :
    ∃ k, e ≤ u0 + k ∧ State.fetchUnits line (s.unitsFrom fuel u e) { st := s, status := 0, data := SMap.bytes s.mem u0 (u - u0) } =
      { st := s, status := 0, data := SMap.bytes s.mem u0 k } := by
  induction fuel generalizing u line with
  | zero => omega
  | succ f ih =>
    have hz := s.unitSize_cases u
    unfold State.unitsFrom
    rw [if_pos he]
    simp only [State.fetchUnits, State.fetchPart_sound h, ne_eq, not_true, if_false]
    have hb : SMap.bytes s.mem u0 (u - u0) ++ SMap.bytes s.mem u (s.unitSize u) = SMap.bytes s.mem u0 (u + s.unitSize u - u0) := by
      have := SMap.bytes_append s.mem u0 (u - u0) (s.unitSize u)
      rw [show u0 + (u - u0) = u by omega] at this
      rw [this]; congr 1; omega
    rw [hb]
    by_cases hh : u + s.unitSize u < e
    · exact ih _ _ (by omega) hh (by omega)
    · refine ⟨u + s.unitSize u - u0, by omega, ?_⟩
      have : s.unitsFrom f (u + s.unitSize u) e = [] := by
        cases f <;> simp [State.unitsFrom, hh]
      rw [this, State.fetchUnits]

/-- A read of no byte of a memory without errors succeeds with no byte. -/
theorem State.fetchUnits_nil (line : Option Nat) (f : Fetch) : State.fetchUnits line [] f = f := (rfl)

/-- The command that a queue runs: what its body leaves, with the command marked as run. -/
theorem State.runOp_running {s : State} {q : Nat} {o : Op} {f : InFlight} {body : Ctx → InFlight → State → State × InFlight}
    (h : s.running q o f) :
    s.runOp q o body = (body (s.ctxOf q f) f s).1.setCurrent q { (body (s.ctxOf q f) f s).2 with executed := true } := by
  obtain ⟨h1, h2, h3, h4, h5⟩ := h
  have h6 : (s.ctxOf q f).tile = f.tile := rfl
  simp only [State.runOp, h1, h2, h3, h4, h5, h6]
  simp

/-- A queue whose oldest command that has not run is of another opcode, or absent. -/
theorem State.runOp_idle {s : State} {q : Nat} {o : Op} {body : Ctx → InFlight → State → State × InFlight}
    (h : ∀ f : InFlight, (s.queue q).current = some f → Op.ofCode f.desc.opcode.toNat ≠ some o) : s.runOp q o body = s := by
  unfold State.runOp
  split
  · rfl
  · next f hf => simp [h f hf]

end Sys2Proof.Machine
end

