-- ==== Sys2Proof/Laws/MemLike.lean ====
section
/-! SUPPORT. Reads and writes of memory depend on memory alone: two states whose memory is alike (whatever else differs) read the same
bytes with the same status, and the same write leaves their memory alike. -/

namespace Sys2Proof.Machine

/-- Two states whose memory reads and writes alike: the same bytes, errors, tags and channels, under the same
part, image, time and repair map. -/
def State.memLike (s t : State) : Prop :=
  t.mem = s.mem ∧ t.flips = s.flips ∧ t.peatDirty = s.peatDirty ∧ t.dramDirty = s.dramDirty ∧ t.chans = s.chans ∧ t.part = s.part ∧
    t.image = s.image ∧ t.tb = s.tb ∧ t.repair = s.repair

theorem State.memLike_place {s t : State} (h : s.memLike t) (a : Nat) : t.place a = s.place a := by
  obtain ⟨_, _, _, _, hc, hp, _, _, _⟩ := h
  have hpop : ∀ d, t.dramPopulated d = s.dramPopulated d := by
    intro d; unfold State.dramPopulated State.chan; rw [hc]
  unfold State.place
  rw [hp]
  simp only [hpop]

theorem State.memLike_unitSize {s t : State} (h : s.memLike t) (a : Nat) : t.unitSize a = s.unitSize a := by
  have := State.memLike_place h a
  obtain ⟨_, _, _, _, _, _, hi, _, _⟩ := h
  unfold State.unitSize
  rw [this]
  simp only [State.img, hi]

theorem State.memLike_unitsFrom {s t : State} (h : s.memLike t) (f u e : Nat) : t.unitsFrom f u e = s.unitsFrom f u e := by
  induction f generalizing u with
  | zero => rfl
  | succ f ih => simp only [State.unitsFrom, State.memLike_unitSize h, ih]

theorem State.memLike_units {s t : State} (h : s.memLike t) (a n : Nat) : t.units a n = s.units a n := by
  simp only [State.units, State.memLike_unitSize h, State.memLike_unitsFrom h]

theorem State.memLike_undirty {s t : State} (h : s.memLike t) (a : Nat) : (s.undirty a).memLike (t.undirty a) := by
  obtain ⟨h1, h2, h3, h4, hc, hp, hi, ht, hr⟩ := h
  have hd : t.isDirty a = s.isDirty a := by simp only [State.isDirty, h3, h4]
  unfold State.undirty
  rw [hd]
  (repeat' split) <;> simp [State.memLike, State.zeroRange, *]

theorem State.memLike_linkTry {s t : State} (h : s.memLike t) (u : Nat) :
    (s.linkTry u).1.memLike (t.linkTry u).1 ∧ (t.linkTry u).2 = (s.linkTry u).2 := by
  have hpl := State.memLike_place h u
  obtain ⟨h1, h2, h3, h4, hc, hp, hi, ht, hr⟩ := h
  have hm : t.mono = s.mono := by simp only [State.mono, ht]
  have hch : ∀ c, t.chan c = s.chan c := by intro c; unfold State.chan; rw [hc]
  unfold State.linkTry
  rw [hpl]
  split
  · dsimp only
    rw [hch]
    split
    · exact ⟨⟨h1, h2, h3, h4, hc, hp, hi, ht, hr⟩, rfl⟩
    · split <;> simp [State.memLike, State.updChan, *]
  · exact ⟨⟨h1, h2, h3, h4, hc, hp, hi, ht, hr⟩, rfl⟩

/-- `t` differs from `s` in the repair map, the flash and the Ash log alone. -/
def State.RepairOnly (s t : State) : Prop := t = { s with repair := t.repair, flash := t.flash, ash := t.ash }

theorem State.RepairOnly.ash {s t : State} (h : s.RepairOnly t) (a : AshSt) : s.RepairOnly { t with ash := a } := by
  have g := congrArg (fun x : State => { x with ash := a }) h
  exact g

theorem State.RepairOnly.flash {s t : State} (h : s.RepairOnly t) (m : SMap Byte) : s.RepairOnly { t with flash := m } := by
  have g := congrArg (fun x : State => { x with flash := m }) h
  exact g

theorem State.RepairOnly.log {s : State} (d : List Byte) (l : List RepairEntry) :
    ∀ t : State, s.RepairOnly t → s.RepairOnly (l.foldl (fun acc e => acc.log 3 0 0xFF (e.bytes ++ d)) t) := by
  induction l with
  | nil => intro t h; exact h
  | cons e l ih => intro t h; rw [List.foldl_cons]; exact ih _ (h.ash _)

/-- Recording repairs changes the repair map, its flash copies and the Ash log alone. -/
theorem State.recordRepairs_only (s : State) (es : List RepairEntry) : s.RepairOnly (s.recordRepairs es) := by
  have h0 : s.RepairOnly s := (rfl : s = s)
  have h1 : ∀ m : RepairMap, s.RepairOnly { s with repair := m } := fun m => (rfl : ({ s with repair := m } : State) = _)
  unfold State.recordRepairs
  dsimp only
  split
  · exact h0
  · exact State.RepairOnly.log _ _ _ (((h1 _).flash _).flash _)

theorem State.recordRepairs_repair (s : State) (es : List RepairEntry) : (s.recordRepairs es).repair =
    if es = [] ∨ 8192 < s.repair.entries.length + es.length then s.repair
    else { s.repair with generation := s.repair.generation + 1, entries := s.repair.entries ++ es } := by
  have h : ∀ (l : List RepairEntry) (t : State) (d : List Byte),
      (l.foldl (fun acc e => acc.log 3 0 0xFF (e.bytes ++ d)) t).repair = t.repair := by
    intro l
    induction l with
    | nil => intro t d; rfl
    | cons e l ih => intro t d; simp only [List.foldl_cons, ih]; rfl
  unfold State.recordRepairs
  dsimp only
  split
  · rfl
  · rw [h]; rfl

theorem State.memLike_recordRepairs {s t : State} (h : s.memLike t) (es : List RepairEntry) :
    (s.recordRepairs es).memLike (t.recordRepairs es) := by
  obtain ⟨h1, h2, h3, h4, hc, hp, hi, ht, hr⟩ := h
  have e1 := State.recordRepairs_only s es
  have e2 := State.recordRepairs_only t es
  have g1 := State.recordRepairs_repair s es
  have g2 := State.recordRepairs_repair t es
  rw [hr, ← g1] at g2
  generalize s.recordRepairs es = s1 at *
  generalize t.recordRepairs es = t1 at *
  unfold State.RepairOnly at e1 e2
  refine ⟨?_, ?_, ?_, ?_, ?_, ?_, ?_, ?_, g2⟩ <;> rw [e1, e2] <;> assumption

theorem State.memLike_updChan {s t : State} (h : s.memLike t) (c : Nat) (g : ChanSt → ChanSt) : (s.updChan c g).memLike (t.updChan c g) := by
  obtain ⟨h1, h2, h3, h4, hc, hp, hi, ht, hr⟩ := h
  exact ⟨h1, h2, h3, h4, by simp only [State.updChan, hc], hp, hi, ht, hr⟩

theorem State.memLike_repairDramRow {s t : State} (h : s.memLike t) (a d : Nat) : (s.repairDramRow a d).memLike (t.repairDramRow a d) := by
  have hr := h.2.2.2.2.2.2.2.2
  unfold State.repairDramRow
  dsimp only
  rw [hr]
  split
  · exact h
  · exact State.memLike_recordRepairs (State.memLike_updChan h _ _) _

/-- What an event, a tile or the rest of a die's part holds does not count. -/
theorem State.memLike_of {s t s' t' : State} (h : s.memLike t) (hs : s.memLike s') (ht : t.memLike t') : s'.memLike t' := by
  obtain ⟨h1, h2, h3, h4, h5, h6, h7, h8, h9⟩ := h
  obtain ⟨a1, a2, a3, a4, a5, a6, a7, a8, a9⟩ := hs
  obtain ⟨b1, b2, b3, b4, b5, b6, b7, b8, b9⟩ := ht
  exact ⟨by rw [b1, h1, a1], by rw [b2, h2, a2], by rw [b3, h3, a3], by rw [b4, h4, a4], by rw [b5, h5, a5], by rw [b6, h6, a6],
    by rw [b7, h7, a7], by rw [b8, h8, a8], by rw [b9, h9, a9]⟩

theorem State.memLike_raiseDie_self (s : State) (d sev unit status : Nat) : s.memLike (s.raiseDie d sev unit status) := by
  rw [State.raiseDie_eq]
  exact ⟨rfl, rfl, rfl, rfl, rfl, rfl, rfl, rfl, rfl⟩

theorem State.memLike_raiseDie {s t : State} (h : s.memLike t) (d sev unit status : Nat) :
    (s.raiseDie d sev unit status).memLike (t.raiseDie d sev unit status) :=
  State.memLike_of h (State.memLike_raiseDie_self _ _ _ _ _) (State.memLike_raiseDie_self _ _ _ _ _)

theorem State.memLike_updTile {s t : State} (h : s.memLike t) (k : Nat) (g : TileSt → TileSt) : (s.updTile k g).memLike (t.updTile k g) := h

theorem State.memLike_updDie {s t : State} (h : s.memLike t) (k : Nat) (g : DieSt → DieSt) : (s.updDie k g).memLike (t.updDie k g) := h

theorem State.memLike_oweRowTest {s t : State} (h : s.memLike t) (u : Nat) : (s.oweRowTest u).memLike (t.oweRowTest u) := h

theorem State.memLike_noteUncorrectable {s t : State} (h : s.memLike t) (u : Nat) :
    (s.noteUncorrectable u).1.memLike (t.noteUncorrectable u).1 ∧ (t.noteUncorrectable u).2 = (s.noteUncorrectable u).2 := by
  have hpl := State.memLike_place h u
  unfold State.noteUncorrectable
  rw [hpl]
  split
  · exact ⟨State.memLike_oweRowTest (State.memLike_raiseDie (State.memLike_updTile h _ _) _ _ _ _) _, rfl⟩
  · exact ⟨State.memLike_oweRowTest (State.memLike_raiseDie (State.memLike_updDie h _ _) _ _ _ _) _, rfl⟩
  · exact ⟨State.memLike_repairDramRow (State.memLike_raiseDie (State.memLike_updChan h _ _) _ _ _ _) _ _, rfl⟩

theorem State.memLike_suspects {s t : State} (h : s.memLike t) (x y : List (UnitKind × Nat × Nat)) :
    ({ s with suspects := x } : State).memLike { t with suspects := y } := h

theorem State.memLike_suspectOwner {s t : State} (h : s.memLike t) (a d : Nat) : (s.suspectOwner a d).memLike (t.suspectOwner a d) := by
  have hi : t.image = s.image := h.2.2.2.2.2.2.1
  have hd := State.memLike_raiseDie h d 54 d 0x33
  unfold State.suspectOwner
  dsimp only
  simp only [State.img, hi]
  generalize s.raiseDie d 54 d 0x33 = s1 at *
  generalize t.raiseDie d 54 d 0x33 = t1 at *
  split
  · split
    · exact State.memLike_suspects hd _ _
    · exact hd
  · exact hd

theorem State.memLike_noteAddress {s t : State} (h : s.memLike t) (u : Nat) : (s.noteAddress u).memLike (t.noteAddress u) := by
  have hpl := State.memLike_place h u
  unfold State.noteAddress
  rw [hpl]
  split
  · exact State.memLike_suspects (State.memLike_raiseDie (State.memLike_updTile h _ _) _ _ _ _) _ _
  · exact State.memLike_suspectOwner (State.memLike_updDie h _ _) _ _
  · exact State.memLike_suspectOwner (State.memLike_updChan h _ _) _ _

theorem State.memLike_noteCorrected {s t : State} (h : s.memLike t) (u : Nat) : (s.noteCorrected u).memLike (t.noteCorrected u) := by
  have hpl := State.memLike_place h u
  unfold State.noteCorrected
  rw [hpl]
  split
  · exact State.memLike_updTile h _ _
  · exact h

theorem State.memLike_fetchStored {s t : State} (h : s.memLike t) (u z : Nat) :
    (s.fetchStored u z).st.memLike (t.fetchStored u z).st ∧ (t.fetchStored u z).status = (s.fetchStored u z).status ∧
      (t.fetchStored u z).data = (s.fetchStored u z).data := by
  have h2 := h
  obtain ⟨g1, g2, g3, g4, gc, gp, gi, gt, gr⟩ := h2
  have hd : t.isDirty u = s.isDirty u := by simp only [State.isDirty, g3, g4]
  have hu : ∀ p, t.unitData u z p = s.unitData u z p := by intro p; simp only [State.unitData, g1, g2]
  unfold State.fetchStored
  rw [hd, g2]
  split
  · exact ⟨h, rfl, rfl⟩
  · split
    · exact ⟨h, rfl, hu _⟩
    · exact ⟨State.memLike_noteCorrected h u, rfl, hu _⟩
    · exact ⟨State.memLike_noteAddress h u, rfl, rfl⟩
    · exact ⟨(State.memLike_noteUncorrectable h u).1, (State.memLike_noteUncorrectable h u).2, rfl⟩

theorem State.memLike_fetchPart {s t : State} (h : s.memLike t) (first : Bool) (u z : Nat) :
    (s.fetchPart first u z).st.memLike (t.fetchPart first u z).st ∧ (t.fetchPart first u z).status = (s.fetchPart first u z).status ∧
      (t.fetchPart first u z).data = (s.fetchPart first u z).data := by
  obtain ⟨hl, hs⟩ := State.memLike_linkTry h u
  unfold State.fetchPart
  split
  · unfold State.fetchUnit
    dsimp only
    rw [hs]
    split
    · exact ⟨hl, rfl, rfl⟩
    · exact State.memLike_fetchStored hl u z
  · exact State.memLike_fetchStored h u z

theorem State.memLike_storeUnit {s t : State} (h : s.memLike t) (first : Bool) (u z a : Nat) (bs : List Byte) :
    (s.storeUnit first u z a bs).1.memLike (t.storeUnit first u z a bs).1 ∧
      (t.storeUnit first u z a bs).2 = (s.storeUnit first u z a bs).2 := by
  have h0 := State.memLike_undirty h u
  have hl : (if first then (s.undirty u).linkTry u else (s.undirty u, 0)).1.memLike
        (if first then (t.undirty u).linkTry u else (t.undirty u, 0)).1 ∧
      (if first then (t.undirty u).linkTry u else (t.undirty u, 0)).2 = (if first then (s.undirty u).linkTry u else (s.undirty u, 0)).2 := by
    split
    · exact State.memLike_linkTry h0 u
    · exact ⟨h0, rfl⟩
  obtain ⟨hl, hs⟩ := hl
  obtain ⟨hf, hf1, hf2⟩ := State.memLike_fetchPart h0 first u z
  unfold State.storeUnit
  dsimp only
  generalize (if first then (s.undirty u).linkTry u else (s.undirty u, 0)) = ls at *
  generalize (if first then (t.undirty u).linkTry u else (t.undirty u, 0)) = lt at *
  split
  · rw [hs]
    split
    · exact ⟨hl, hs⟩
    · obtain ⟨g1, g2, g3, g4, gc, gp, gi, gt, gr⟩ := hl
      exact ⟨⟨by dsimp only; rw [g1], by dsimp only; rw [g2], g3, g4, gc, gp, gi, gt, gr⟩, rfl⟩
  · rw [hf1]
    split
    · exact ⟨hf, by simp⟩
    · obtain ⟨g1, g2, g3, g4, gc, gp, gi, gt, gr⟩ := hf
      exact ⟨⟨by dsimp only; rw [g1, hf2], by dsimp only; rw [g2], g3, g4, gc, gp, gi, gt, gr⟩, rfl⟩

theorem State.memLike_storeUnits {s t : State} (h : s.memLike t) (stop : Bool) (a : Nat) (bs : List Byte) (line : Option (Nat × Bool))
    (l : List (Nat × Nat)) (st : Nat) :
    (State.storeUnits stop a bs line l (s, st)).1.memLike (State.storeUnits stop a bs line l (t, st)).1 ∧
      (State.storeUnits stop a bs line l (t, st)).2 = (State.storeUnits stop a bs line l (s, st)).2 := by
  induction l generalizing s t line st with
  | nil => exact ⟨h, rfl⟩
  | cons e l ih =>
    obtain ⟨u, z⟩ := e
    simp only [State.storeUnits]
    split
    · exact ih h _ _
    · obtain ⟨g1, g2⟩ := State.memLike_storeUnit h (line != some (u / 64, false)) u z a bs
      rw [g2]
      exact ih g1 _ _

/-- Writes of two states whose memory is alike leave it alike, with the same status. -/
theorem State.memLike_store {s t : State} (h : s.memLike t) (a : Nat) (bs : List Byte) :
    (s.store a bs).1.memLike (t.store a bs).1 ∧ (t.store a bs).2 = (s.store a bs).2 := by
  unfold State.store
  rw [State.memLike_units h]
  exact State.memLike_storeUnits h _ _ _ _ _ _

theorem State.memLike_put {s t : State} (h : s.memLike t) (a : Nat) (bs : List Byte) : (s.put a bs).memLike (t.put a bs) :=
  (State.memLike_store h a bs).1

theorem State.memLike_fetchUnits {s t : State} (h : s.memLike t) (line : Option Nat) (l : List (Nat × Nat)) (n : Nat) (d : List Byte) :
    let f := State.fetchUnits line l { st := s, status := n, data := d }
    let g := State.fetchUnits line l { st := t, status := n, data := d }
    f.st.memLike g.st ∧ g.status = f.status ∧ g.data = f.data := by
  induction l generalizing s t line n d with
  | nil => exact ⟨h, rfl, rfl⟩
  | cons e l ih =>
    obtain ⟨u, z⟩ := e
    simp only [State.fetchUnits]
    split
    · exact ⟨h, rfl, rfl⟩
    · obtain ⟨g1, g2, g3⟩ := State.memLike_fetchPart h (line != some (u / 64)) u z
      rw [g2, g3]
      exact ih g1 _ _ _

/-- Reads of two states whose memory is alike give the same status and bytes. -/
theorem State.memLike_fetch {s t : State} (h : s.memLike t) (a n : Nat) :
    (s.fetch a n).st.memLike (t.fetch a n).st ∧ (t.fetch a n).status = (s.fetch a n).status ∧ (t.fetch a n).data = (s.fetch a n).data := by
  unfold State.fetch
  rw [State.memLike_units h, State.memLike_unitSize h]
  obtain ⟨g1, g2, g3⟩ := State.memLike_fetchUnits h none (s.units a n) 0 []
  exact ⟨g1, g2, by simp only [g3]⟩

end Sys2Proof.Machine
end

