-- ==== Sys2Proof/Laws/Runs.lean ====
section
/-! SUPPORT. When the reads and writes of a command succeed (R85, R131, R174, R199 to R203): in a state that is good for its plan and
its effect the reads change nothing and the command ends with status 0x00. -/

namespace Sys2Proof.Machine

/-- A run of reads that has met no failure and has left the state as it was. -/
def Run.Ok (s : State) (r : Run) : Prop := r.st = s ∧ r.status = 0

theorem Run.readUnits_ok {s : State} (h : s.sound) (l : List (Nat × Nat)) {r : Run} (hr : r.Ok s) : (Run.readUnits l r).Ok s := by
  induction l generalizing r with
  | nil => exact hr
  | cons e l ih =>
    obtain ⟨u, z⟩ := e
    obtain ⟨h1, h2⟩ := hr
    unfold Run.readUnits
    rw [if_neg (by simp [h2])]
    split
    · exact ih ⟨h1, h2⟩
    · apply ih
      rw [h1]
      simp only [State.fetchPart_sound h]
      exact ⟨rfl, rfl⟩

theorem Run.read_ok {s : State} (h : s.sound) {c : Ctx} {a n : Nat} (ho : s.opens c a n) {r : Run} (hr : r.Ok s) :
    (r.read c a n).Ok s := by
  obtain ⟨h1, h2⟩ := hr
  unfold Run.read
  split
  · exact ⟨h1, h2⟩
  · unfold State.opens at ho
    rw [h1, ho]
    exact Run.readUnits_ok h _ ⟨h1, h2⟩

theorem Run.readScales_ok {s : State} (h : s.sound) {c : Ctx} {hd : ScaleHdr} {l : List Nat} (hl : ∀ i ∈ l, s.scaleGood c hd i) {r : Run}
    (hr : r.Ok s) : (Run.readScales c hd l r).Ok s := by
  induction l generalizing r with
  | nil => exact hr
  | cons i l ih =>
    obtain ⟨ho, hs⟩ := hl i (by simp)
    obtain ⟨h1, h2⟩ := Run.read_ok h ho hr
    unfold Run.readScales
    dsimp only
    rw [if_neg (by simp [h2]), h1, if_pos hs]
    exact ih (fun j hj => hl j (by simp [hj])) ⟨h1, h2⟩

theorem Run.consume_ok {s : State} (h : s.sound) {c : Ctx} {fl : InFlight} {o j : Nat} {t : Tensor} {hd : ScaleHdr}
    (hg : s.blockGood c t hd j) {r : Run} (hr : r.Ok s) : (r.consume c fl o t hd j).Ok s := by
  obtain ⟨g1, g2, g3, g4, g5⟩ := hg
  unfold Run.consume
  split
  · exact hr
  · have hr1 := Run.read_ok h g2 (Run.read_ok h g1 hr)
    dsimp only
    generalize (r.read c (t.base + t.trailerOff + j) 1).read c (hd.stags + j) 1 = r1 at *
    obtain ⟨h1, h2⟩ := hr1
    rw [if_neg (by simp [h2]), h1, g4, if_neg (by omega)]
    obtain ⟨k1, k2⟩ := Run.readScales_ok (r := r1) (l := (t.blockScales j).filter (r1.governs o t j)) h
      (fun i hi => g5 i (List.mem_of_mem_filter hi)) ⟨h1, h2⟩
    exact ⟨k1, k2⟩

theorem Run.elems_ok {s : State} (h : s.sound) {c : Ctx} {fl : InFlight} {b : Bool} {o lo n : Nat}
    (hg : s.stepGood c fl b (.elems o lo n)) {r : Run} (hr : r.Ok s) : (r.elems c fl b o lo n).Ok s := by
  unfold Run.elems
  split
  · exact hr
  · next t hd heq =>
    obtain ⟨g1, g2, g3⟩ := hg t (by rw [heq])
    lift_lets
    intro r1 a len r2
    have hr1 : r1.Ok s := by
      simp only [r1]
      split
      · next hd hb =>
        simp only [Bool.and_eq_true, decide_eq_true_eq] at hb
        have hc := g3 hb.1.1 hb.1.2 hb.2 hd (by rw [heq])
        have : ∀ (l : List Nat) (r : Run), (∀ j ∈ l, s.blockGood c t hd j) → r.Ok s →
            (l.foldl (fun (acc : Run) j => acc.consume c fl o t hd j) r).Ok s := by
          intro l
          induction l with
          | nil => intro r _ hr; exact hr
          | cons j l ih =>
            intro r hl hr
            exact ih _ (fun j hj => hl j (by simp [hj])) (Run.consume_ok h (hl j (by simp)) hr)
        exact this _ _ hc hr
      · exact hr
    have hr2 : r2.Ok s := Run.read_ok h g1 hr1
    obtain ⟨h1, h2⟩ := hr2
    rw [if_neg]
    · exact ⟨h1, h2⟩
    · rw [h1]
      rintro ⟨-, hx, hy⟩
      have g : (chunks 16 (s.peek a len)).all xaCanonical = true := g2 hx
      simp [g] at hy

theorem Run.step_ok {s : State} (h : s.sound) {c : Ctx} {fl : InFlight} {b : Bool} {p : PlanStep} (hg : s.stepGood c fl b p) {r : Run}
    (hr : r.Ok s) : (r.step c fl b p).Ok s := by
  cases p with
  | elems o lo n =>
    unfold Run.step
    dsimp only
    rw [if_neg (by simp [hr.2])]
    exact Run.elems_ok h hg hr
  | raw a n => exact Run.read_ok h hg hr
  | scales o idx =>
    unfold Run.step
    dsimp only
    rw [if_neg (by simp [hr.2])]
    split
    · next hd heq => exact Run.readScales_ok h (hg hd heq) hr
    · exact hr
  | fresh => exact hr
  | pass k => exact hr
  | row =>
    unfold Run.step
    dsimp only
    rw [if_neg (by simp [hr.2])]
    exact hr

/-- The reads of a good plan succeed and change nothing. -/
theorem Run.plan_ok {s : State} (h : s.sound) {c : Ctx} {fl : InFlight} {b : Bool} {p : List PlanStep}
    (hg : ∀ x ∈ p, s.stepGood c fl b x) {r : Run} (hr : r.Ok s) : (Run.plan c fl b p r).Ok s := by
  unfold Run.plan
  induction p generalizing r with
  | nil => exact hr
  | cons x p ih => exact ih (fun y hy => hg y (by simp [hy])) (Run.step_ok h (hg x (by simp)) hr)

/-! ### Writes -/

/-- A write into memory without errors succeeds and changes memory alone. -/
theorem State.store_ok {s : State} (h : s.sound) (a : Nat) (bs : List Byte) : ∃ m : SMap Byte, s.store a bs = ({ s with mem := m }, 0) := by
  obtain ⟨m, h1, _⟩ := State.storeUnits_sound h true a bs none (by simp) (s.units a bs.length)
  exact ⟨m, h1⟩

theorem State.storeMerged_ok {s : State} (h : s.sound) (t : Tensor) (l : List (Row × Nat)) (n : Nat) :
    ∃ (m : SMap Byte) (k : Nat), State.storeMerged t l s n = ({ s with mem := m }, 0, k) := by
  induction l generalizing s n with
  | nil => exact ⟨s.mem, n, rfl⟩
  | cons r l ih =>
    obtain ⟨m, h1⟩ := State.store_ok h (s.rowBytes t r.1).1 (s.rowBytes t r.1).2
    obtain ⟨m', k, h2⟩ := ih (State.sound_mem h m) (n + r.2)
    refine ⟨m', k, ?_⟩
    unfold State.storeMerged
    dsimp only
    rw [h1, if_neg (by simp), h2]

theorem State.storeGroups_ok {s : State} (h : s.sound) (x : Bool) (t : Tensor) (l : List (List Row)) (n : Nat) :
    ∃ (m : SMap Byte) (k : Nat), State.storeGroups x t l s n = ({ s with mem := m }, 0, k) := by
  induction l generalizing s n with
  | nil => exact ⟨s.mem, n, rfl⟩
  | cons g l ih =>
    obtain ⟨m, k, h1⟩ := State.storeMerged_ok h t (mergeRows t g) 0
    obtain ⟨m', k', h2⟩ := ih (State.sound_mem h m) (n + k)
    refine ⟨m', k', ?_⟩
    unfold State.storeGroups
    simp only [State.storeRows, h1, if_true, h2]

theorem State.fetchUnits_ok {s : State} (h : s.sound) (line : Option Nat) (l : List (Nat × Nat)) (d : List Byte) :
    (State.fetchUnits line l { st := s, status := 0, data := d }).st = s ∧
      (State.fetchUnits line l { st := s, status := 0, data := d }).status = 0 := by
  induction l generalizing line d with
  | nil => exact ⟨rfl, rfl⟩
  | cons e l ih => simpa [State.fetchUnits, State.fetchPart_sound h] using ih _ _

/-- A read of memory without errors succeeds and changes nothing. -/
theorem State.fetch_ok {s : State} (h : s.sound) (a n : Nat) : (s.fetch a n).st = s ∧ (s.fetch a n).status = 0 :=
  State.fetchUnits_ok h none _ _

/-- Trailer bytes are written with the scale tags of blocks that may be read. -/
theorem State.storeTrailer_ok {s : State} (h : s.sound) (c : Ctx) (t : Tensor) (hd : ScaleHdr) (l : List Nat)
    (hl : ∀ j ∈ l, s.opens c (hd.stags + j) 1) : ∃ m : SMap Byte, State.storeTrailer c t hd l s = ({ s with mem := m }, 0) := by
  induction l generalizing s with
  | nil => exact ⟨s.mem, rfl⟩
  | cons j l ih =>
    have ho := hl j (by simp)
    unfold State.opens at ho
    unfold State.storeTrailer
    dsimp only
    have hf : (s.cmdFetch c (hd.stags + j) 1).status = 0 ∧ (s.cmdFetch c (hd.stags + j) 1).st = s := by
      unfold State.cmdFetch
      rw [ho]
      exact (State.fetch_ok h _ _).symm
    rw [if_neg (by simp [hf.1]), hf.2]
    obtain ⟨m, h1⟩ := State.store_ok h (t.base + t.trailerOff + j) (List.take 1 (s.cmdFetch c (hd.stags + j) 1).data ++ t.trailerEnd j)
    obtain ⟨m', h2⟩ := ih (State.sound_mem h m) (fun i hi => hl i (by simp [hi]))
    exact ⟨m', by rw [h1, if_neg (by simp), h2]⟩

/-- After reads that succeeded, the writes of a command that may write its DST succeed, and it ends with status 0x00. -/
theorem Run.finish_ok {s : State} (h : s.sound) {c : Ctx} {fl : InFlight} {rounds exact : Bool} {verdict : State → Nat} {e : Effect}
    {r : Run} (hr : r.Ok s) (hd : s.dstGood c fl e) (hv : ∀ t : State, verdict t = 0) :
    (r.finish c fl rounds exact verdict e).status = 0 := by
  obtain ⟨h1, h2⟩ := hr
  unfold Run.finish
  split
  · exact h2
  · next t ht =>
    obtain ⟨ho, hb⟩ := hd t ht
    unfold State.opens at ho
    lift_lets
    intro p closed w status tr status1 status2
    have hp : p = (e.rows.length, s) := by simp only [p]; rw [if_pos h2, h1]
    clear_value p
    subst hp
    have hc : closed = false := by simp only [closed, ho]; simp
    clear_value closed
    subst hc
    obtain ⟨m, k, hw⟩ := State.storeGroups_ok h exact t (splitRows e.groups (e.rows.take e.rows.length)) 0
    have hw' : w = ({ s with mem := m }, 0, k) := hw
    clear_value w
    subst hw'
    have hs : status = 0 := by simp only [status]; simp [h2]
    clear_value status
    subst hs
    have htr : ∃ m' : SMap Byte, tr = ({ s with mem := m' }, 0) := by
      cases hh : fl.hdrD with
      | none => exact ⟨m, by simp only [tr, hh]⟩
      | some hdr =>
        obtain ⟨m', hm⟩ := State.storeTrailer_ok (State.sound_mem h m) c t hdr (t.doneBlocks e.rows k) (fun j hj => hb hdr hh k j hj)
        exact ⟨m', by simp only [tr, hh]; exact hm⟩
    clear_value tr
    obtain ⟨m', htr⟩ := htr
    subst htr
    have h3 : status2 = 0 := by simp [status2, status1, hv]
    clear_value status2
    subst h3
    cases fl.hdrD with
    | none => rfl
    | some hdr =>
      obtain ⟨m2, h4⟩ := State.store_ok (State.sound_mem h m') hdr.statsAddr (statsBytes e t c fl)
      dsimp only
      split
      · rw [h4]
      · rfl

/-- A good command ends with status 0x00. -/
theorem State.ended_ok {s : State} {q : Nat} {f : InFlight} {consumes rounds exact : Bool} {plan : List PlanStep} {e : Effect}
    (h : s.good q f consumes plan e) : (s.ended q f consumes rounds exact plan e).status = 0 :=
  Run.finish_ok h.1 (Run.plan_ok h.1 h.2.1 ⟨rfl, rfl⟩) h.2.2 (fun _ => rfl)

end Sys2Proof.Machine
end

