-- ==== Sys2Proof/Machine/Package.lean ====
section
/-! DEFINITION. The package (19_electrical_thermal_package.md): its balls by position (R484 to R489), the rails (R490, R491, R502),
the reference and internal clocks (R494 to R496, R508), the thermal path, the power of each state and the mission profile (R503, R505,
R506, R509, R510). -/

namespace Sys2Proof.Machine

/-! ### Positions (Outline) -/

/-- The 19 letters of the ball rows. -/
def rowLetters : List String := ["A", "B", "C", "D", "E", "F", "G", "H", "J", "K", "L", "M", "N", "P", "T", "U", "V", "W", "Y"]

/-- The name of row 1 (A) to 72 (CT). -/
def rowName (row : Nat) : String :=
  (["", "A", "B", "C"].getD ((row - 1) / 19) "") ++ rowLetters.getD ((row - 1) % 19) ""

/-- The name of a ball: row, then column, as in AC17. -/
def ballName (row col : Nat) : String := rowName row ++ toString col

/-- A position of the ball field. -/
def inField (row col : Nat) : Bool := decide (1 ≤ row ∧ row ≤ 72 ∧ 1 ≤ col ∧ col ≤ 72)

/-- The keep-out under the Pregus die (R484). -/
def depopulated (row col : Nat) : Bool := decide (33 ≤ row ∧ row ≤ 40 ∧ 32 ≤ col ∧ col ≤ 40)

/-! ### Rails (R490, R491, R502) -/

/-- A supply rail, or VSS; the four of a die carry its number. -/
inductive Rail where
  | vddCmp (die : Nat)
  | vddBase (die : Nat)
  | vddPhy (die : Nat)
  | vddq (die : Nat)
  | vdd18 (die : Nat)
  | vddPrg
  | vddPrgIo
  | vddPrgAn
  | vddSafe
  | vddTnx
  | vddTnxIo
  | vddqTnx
  | vss
deriving DecidableEq, Repr

/-- A row of R490: nominal voltage and tolerance in mV, the most current in mA and the most power in mW (none: as the Tanex manual
gives it, or not given), and balls. -/
structure RailSpec where
  nominal : Nat
  tolerance : Nat
  current : Option Nat
  power : Option Nat
  balls : Nat
deriving DecidableEq, Repr

/-- R490; of VSS there is no row. VDD_TNX_IO and VDDQ_TNX take 3 W together. -/
def Rail.spec : Rail → Option RailSpec
  | .vddCmp _ => some { nominal := 750, tolerance := 25, current := some 118000, power := some 85000, balls := 240 }
  | .vddBase _ => some { nominal := 800, tolerance := 24, current := some 17500, power := some 13000, balls := 48 }
  | .vddPhy _ => some { nominal := 850, tolerance := 20, current := some 5500, power := some 4500, balls := 20 }
  | .vddq _ => some { nominal := 500, tolerance := 15, current := some 3400, power := some 1600, balls := 24 }
  | .vdd18 _ => some { nominal := 1800, tolerance := 90, current := some 500, power := some 900, balls := 6 }
  | .vddPrg => some { nominal := 800, tolerance := 24, current := some 7500, power := some 6000, balls := 24 }
  | .vddPrgIo => some { nominal := 1800, tolerance := 90, current := some 800, power := some 1400, balls := 6 }
  | .vddPrgAn => some { nominal := 850, tolerance := 20, current := some 750, power := some 600, balls := 4 }
  | .vddSafe => some { nominal := 1800, tolerance := 90, current := some 1, power := none, balls := 1 }
  | .vddTnx => some { nominal := 750, tolerance := 25, current := some 56000, power := some 42000, balls := 288 }
  | .vddTnxIo => some { nominal := 1800, tolerance := 90, current := none, power := none, balls := 24 }
  | .vddqTnx => some { nominal := 500, tolerance := 15, current := none, power := none, balls := 24 }
  | .vss => none

/-- A voltage in mV at the balls of a rail is in tolerance (R490). -/
def Rail.inTolerance (r : Rail) (mV : Int) : Bool :=
  match r.spec with
  | some x => decide ((x.nominal : Int) - x.tolerance ≤ mV ∧ mV ≤ x.nominal + x.tolerance)
  | none => true

/-- The most current in mA that the power-gated compute die of a Q48 draws from VDD_CMP_3 (R491). -/
def gatedCurrent : Nat := 1000

/-- The highest voltage in mV that does not stress a rail; the lowest is -300 mV for each (R502). -/
def Rail.stressMax : Rail → Nat
  | .vddCmp _ | .vddTnx => 900
  | .vddBase _ | .vddPrg => 950
  | .vddPhy _ | .vddPrgAn => 1000
  | .vddq _ | .vddqTnx => 650
  | .vdd18 _ | .vddPrgIo | .vddSafe | .vddTnxIo => 2100
  | .vss => 0

/-- An input of R502 that has no rail of its own: its highest voltage in mV, for a rail at `rail` mV. -/
inductive InputPin where
  | logic18
  | capture
  | thermTrip
deriving DecidableEq, Repr

def InputPin.stressMax (p : InputPin) (rail : Int) : Int :=
  match p with
  | .logic18 => rail + 300
  | .capture | .thermTrip => 3600

/-- The other limits of R502: temperatures in degrees Celsius, the lid's static load in newtons, and ESD in volts, human body and charged
device, with the exceptions for lanes and corner balls. -/
structure StressLimits where
  junctionOff : Int := 150
  storageMin : Int := -55
  storageMax : Int := 150
  lidLoad : Nat := 1100
  hbm : Nat := 2000
  hbmLanes : Nat := 1000
  cdm : Nat := 500
  cdmCorner : Nat := 750
  cdmLattice : Nat := 250
deriving DecidableEq, Repr

/-! ### Balls by function (R485 to R489) -/

/-- What a position carries. -/
inductive Ball where
  | keepOut
  | dram (channel : Nat) (signal : String)
  | csi (receiver : Nat) (signal : String)
  | lattice (port : Nat) (signal : String)
  | pregus (signal : String)
  | supply (rail : Rail)
  | tanex (n : Nat)
deriving DecidableEq, Repr

/-- A bus from its highest bit to bit 0, as the manual writes it (DEDUCED, assumption 139). -/
def busNames (name : String) (n : Nat) : List String := (List.range n).map fun i => name ++ toString (n - 1 - i)

/-- The signals of one half of a DRAM channel (R486). -/
def dramHalf (h : String) : List String :=
  busNames (h ++ "DQ") 16 ++ busNames (h ++ "DMI") 2 ++ busNames (h ++ "RDQS_T") 2 ++ busNames (h ++ "RDQS_C") 2 ++
    busNames (h ++ "WCK_T") 2 ++ busNames (h ++ "WCK_C") 2 ++ busNames (h ++ "CA") 7 ++ [h ++ "CS", h ++ "CK_T", h ++ "CK_C"]

/-- The 74 signals of a DRAM channel in the order of its block. -/
def dramSignals : List String := dramHalf "0_" ++ dramHalf "1_" ++ ["RESET_N", "ZQ"]

/-- A position of a DRAM block that carries VSS (R486): block row 1 to 7 from the package edge, block column 1 to 12. -/
def dramVss (r c : Nat) : Bool := c == 12 || (c == 6 && (r == 1 || r == 4 || r == 7))

/-- The signal of a position of a DRAM block that is not VSS: the positions in row-major order. -/
def dramIndex (r c : Nat) : Nat :=
  ((List.range (12 * (r - 1) + (c - 1))).filter fun i => !(dramVss (i / 12 + 1) (i % 12 + 1))).length

/-- The DRAM channel of a position, with its block row and column (R486). -/
def dramPlace (row col : Nat) : Option (Nat × Nat × Nat) :=
  if row ≤ 7 then some ((col - 1) / 12, row, (col - 1) % 12 + 1)
  else if 51 ≤ row ∧ row ≤ 57 then some ([9, 10, 11, 8, 7, 6].getD ((col - 1) / 12) 0, 58 - row, (col - 1) % 12 + 1)
  else none

def dramBall (p : Nat × Nat × Nat) : Ball :=
  if dramVss p.2.1 p.2.2 then .supply .vss else .dram p.1 (dramSignals.getD (dramIndex p.2.1 p.2.2) "")

/-- The rows of a receiver's block and its first column; the block row nearest the package edge comes first, which is the last row for
receivers 4 to 7 (R486; DEDUCED, assumption 139). -/
def csiPlace (row col : Nat) : Option (Nat × Nat × Nat) :=
  let left := decide (1 ≤ col ∧ col ≤ 2)
  let right := decide (71 ≤ col ∧ col ≤ 72)
  let c := if left then col else col - 70
  if !(left || right) then none
  else if 8 ≤ row ∧ row ≤ 17 then some ((if left then 0 else 2) + (row - 8) / 5, (row - 8) % 5 + 1, c)
  else if 41 ≤ row ∧ row ≤ 50 then some ((if left then 6 else 4) + (row - 41) / 5, 5 - (row - 41) % 5, c)
  else none

/-- P in the lower column of a pair, N in the higher. -/
def pairName (name : String) (c : Nat) : String := name ++ (if c = 1 then "_P" else "_N")

def csiBall (p : Nat × Nat × Nat) : Ball := .csi p.1 (pairName (["D0", "D1", "CLK", "D2", "D3"].getD (p.2.1 - 1) "") p.2.2)

/-- The C-PHY trio that a CSI-2 ball serves as A, B or C (R486); D3_N is unused. -/
def cphyRole (signal : String) : Option (Nat × Nat) :=
  let order := ["D0_P", "D0_N", "D1_P", "D1_N", "CLK_P", "CLK_N", "D2_P", "D2_N", "D3_P"]
  (order.findIdx? (· == signal)).map fun i => (i / 3, i % 3)

/-- The Lattice port of a position in rows W to AT, with block row and column (R486). -/
def latticePlace (row col : Nat) : Option (Nat × Nat × Nat) :=
  if row < 18 ∨ 34 < row then none
  else if col ≤ 2 then some (0, row - 17, col)
  else if col ≤ 4 then some (3, row - 17, col - 2)
  else if 71 ≤ col then some (1, row - 17, col - 70)
  else if 69 ≤ col then some (2, row - 17, col - 68)
  else none

def latticeBall (p : Nat × Nat × Nat) : Ball :=
  let r := p.2.1
  .lattice p.1 (pairName (if r ≤ 8 then "TX" ++ toString (r - 1) else if r ≤ 16 then "RX" ++ toString (r - 9) else "LATREF") p.2.2)

/-- A numbered group of signals. -/
def numbered (name : String) (n : Nat) : List String := (List.range n).map fun i => name ++ toString i

/-- The 39 xSPI balls (R487). -/
def xspiSignals : List String :=
  ["FLASH_", "PSRAM_0_", "PSRAM_1_"].flatMap fun p =>
    [p ++ "CS_N", p ++ "CK", p ++ "CK_N", p ++ "DS", p ++ "RESET_N"] ++ busNames (p ++ "DQ") 8

/-- The 120 balls of the Pregus signal block, row by row (R487). -/
def pregusSignals : List String :=
  numbered "TRIG_" 12 ++
    (numbered "CAP_" 4 ++ ["SAFE_A_N", "SAFE_B", "THERMTRIP_N", "PRG_POR_N", "TEST_EN_N", "XTAL_PRG_IN", "XTAL_PRG_OUT", "VDD_SAFE"]) ++
    (numbered "PWR_EN_" 4 ++ numbered "PGOOD_" 4 ++ ["TCK", "TMS", "TDI", "TDO"]) ++
    (["TRST_N", "MDC", "MDIO", "ETHREF_P", "ETHREF_N"] ++ List.replicate 7 "RESERVED") ++
    ((List.range 4).flatMap fun m => ["TX_P", "TX_N", "RX_P", "RX_N"].map fun x => "ETH_" ++ toString m ++ "_" ++ x) ++
    xspiSignals ++ List.replicate 5 "RESERVED" ++
    ((List.range 4).flatMap fun d => ["REFCLK_" ++ toString d ++ "_P", "REFCLK_" ++ toString d ++ "_N"]) ++ List.replicate 4 "RESERVED"

/-- A position of the Pregus signal block. -/
def inPregusBlock (row col : Nat) : Bool := decide (8 ≤ row ∧ row ≤ 17 ∧ 31 ≤ col ∧ col ≤ 42)

def pregusBall (row col : Nat) : Ball :=
  if row = 9 ∧ col = 42 then .supply .vddSafe else .pregus (pregusSignals.getD ((row - 8) * 12 + (col - 31)) "")

/-- The Pregus supplies of rows W, Y and AA (R488). -/
def pregusSupply (row col : Nat) : Option Rail :=
  if (row = 18 ∨ row = 19) ∧ 31 ≤ col ∧ col ≤ 42 then some .vddPrg
  else if row = 20 ∧ 31 ≤ col ∧ col ≤ 36 then some .vddPrgIo
  else if row = 20 ∧ 37 ≤ col ∧ col ≤ 40 then some .vddPrgAn
  else none

/-- A position of rows A to BY that R484 to R488 assign before the quadrants are numbered. -/
def assigned (row col : Nat) : Bool :=
  depopulated row col || (dramPlace row col).isSome || (csiPlace row col).isSome || (latticePlace row col).isSome ||
    inPregusBlock row col || (pregusSupply row col).isSome

/-- The die whose quadrant holds a position of rows A to BY (R488). -/
def quadrantOf (row col : Nat) : Nat := if row ≤ 28 then (if col ≤ 36 then 0 else 1) else if col ≤ 36 then 3 else 2

/-- The rows of a quadrant from the one nearest the package centre outward; of two rows at one distance the lower comes first (R488;
DEDUCED, assumption 139). The centre lies between rows 36 and 37. -/
def quadrantRows (die : Nat) : List Nat :=
  if die < 2 then (List.range 28).map (28 - ·)
  else ((List.range 8).flatMap fun i => [36 - i, 37 + i]) ++ (List.range 13).map (45 + ·)

/-- The columns of a quadrant from the one nearest the centre outward. -/
def quadrantCols (die : Nat) : List Nat := if die = 0 ∨ die = 3 then (List.range 36).map (36 - ·) else (List.range 36).map (37 + ·)

/-- The positions j = 0, 1, 2 ... of a quadrant, by row and column (R488). -/
def quadrantPlaces (die : Nat) : List (Nat × Nat) :=
  (quadrantRows die).flatMap fun row => ((quadrantCols die).filter fun col => !(assigned row col)).map fun col => (row, col)

/-- The rail of position j of a quadrant (R488). -/
def quadrantRail (die j : Nat) : Rail :=
  if j < 480 then (if j % 2 = 0 then .vddCmp die else .vss)
  else if j < 528 then .vddBase die
  else if j < 548 then .vddPhy die
  else if j < 572 then .vddq die
  else if j < 578 then .vdd18 die
  else .vss

/-- A position of the Tanex area, rows CA to CT (R489). -/
def tanexBall (row col : Nat) : Ball :=
  if row < 65 then .supply (if (row - 58) % 2 = 0 then .vddTnx else .vss)
  else if col ≤ 63 then .tanex ((row - 65) * 63 + (col - 1))
  else .supply (if col ≤ 66 then .vddTnxIo else if col ≤ 69 then .vddqTnx else .vss)

/-- The rail that powers a Tanex signal (R489): rows CH to CK, then rows CL to CT. -/
def tanexPower (n : Nat) : Rail := if n / 63 < 3 then .vddTnxIo else .vddqTnx

/-- What the ball at a position of the field carries (R484 to R489). -/
def ballAt (row col : Nat) : Ball :=
  if 58 ≤ row then tanexBall row col
  else if depopulated row col then .keepOut
  else match dramPlace row col with
    | some p => dramBall p
    | none => match csiPlace row col with
      | some p => csiBall p
      | none => match latticePlace row col with
        | some p => latticeBall p
        | none =>
          if inPregusBlock row col then pregusBall row col
          else match pregusSupply row col with
            | some r => .supply r
            | none =>
              let d := quadrantOf row col
              .supply (quadrantRail d ((quadrantPlaces d).idxOf (row, col)))

/-! ### Clocks (R494 to R496, R508) -/

/-- A reference input: kHz, accuracy in ppm, and the phase jitter allowed in fs RMS where the manual gives one (R494). -/
structure RefClock where
  khz : Nat
  ppm : Nat
  jitterFs : Option Nat
deriving DecidableEq, Repr

def refClk : RefClock := { khz := 100000, ppm := 100, jitterFs := some 500 }
def latRef : RefClock := { khz := 156250, ppm := 100, jitterFs := some 250 }
def ethRef : RefClock := { khz := 156250, ppm := 100, jitterFs := some 300 }
def crystal : RefClock := { khz := 25000, ppm := 50, jitterFs := none }

/-- The clocks that the part derives (R495). -/
inductive ClockName where
  | die (d : Nat)
  | dram
  | pipeline
  | follower (d : Nat)
  | checker
  | timeBase
deriving DecidableEq, Repr

/-- The reference of a clock. -/
def ClockName.source : ClockName → RefClock
  | .die _ | .dram | .pipeline | .follower _ => refClk
  | .checker | .timeBase => crystal

/-- The lowest and the highest instantaneous frequency of a clock in kHz (R495, R496): those of a die spread down by 0.5 %, unless
SSC_OFF is 1. -/
def State.clockKhz (s : State) : ClockName → Nat × Nat
  | .die d => let f := (s.die d).fNom; (if (s.die d).sscOff then f * 1000 else f * 995, f * 1000)
  | .dram => (s.dramRate * 125, s.dramRate * 125)
  | .pipeline => (800000, 800000)
  | .follower _ | .timeBase => (500000, 500000)
  | .checker => (600000, 600000)

/-- The frequency in Hz of the triangular modulation that MOD selects (PWR_CLKCTRL). -/
def modulationHz (mod : Nat) : Nat := [30000, 31500, 33000].getD mod 31500

/-- A path that f_nom may take between two values, in kHz over ns: monotone, at most 1 MHz in any interval of 1 us, and never outside
the range between the two (R508). -/
def allowedPath (old new : Nat) (path : Nat → Nat) : Prop :=
  path 0 = old ∧ (∃ t, ∀ u, t ≤ u → path u = new) ∧
    (∀ a b, a ≤ b → (old ≤ new → path a ≤ path b) ∧ (new ≤ old → path b ≤ path a)) ∧
    (∀ a b, a ≤ b → b ≤ a + 1000 → path b ≤ path a + 1000 ∧ path a ≤ path b + 1000) ∧
    ∀ t, min old new ≤ path t ∧ path t ≤ max old new

/-! ### Power and heat (R503, R505, R506) -/

/-- The states of R505. -/
inductive PowerState where
  | pregusAndTanex
  | startupBist
  | imageLoaded
  | typical
  | maximum
  | oneDieInReset
deriving DecidableEq, Repr

/-- The power in W of the accelerator dies, of the Tanex die and of the package (R505). -/
def PowerState.watts : PowerState → Nat × Nat × Nat
  | .pregusAndTanex => (6, 45, 51)
  | .startupBist => (300, 45, 345)
  | .imageLoaded => (110, 45, 155)
  | .typical => (225, 35, 260)
  | .maximum => (430, 45, 475)
  | .oneDieInReset => (325, 45, 370)

/-- The thermal resistances in mK/W: junction to lid of a compute die and of the Pregus die, lid to coolant inlet (R506). -/
def junctionToLid (pregus : Bool) : Nat := if pregus then 400 else 150
def lidToInlet : Nat := 90

/-- The highest lid temperature in thousandths of a degree, for an inlet in thousandths and the package's power in W (R506). -/
def lidMax (inlet : Int) (packageW : Nat) : Int := inlet + packageW * lidToInlet

/-- The highest junction temperature of a die of `dieW` (R506). -/
def junctionMax (pregus : Bool) (inlet : Int) (packageW dieW : Nat) : Int := lidMax inlet packageW + dieW * junctionToLid pregus

/-- The conditions under which the part operates as the manual describes it (R503): temperatures in degrees, flow in L/min, load in N. -/
def operates (junctions : List Int) (inlet : Int) (flow load : Nat) : Bool :=
  junctions.all (fun t => decide (-40 ≤ t ∧ t ≤ 125)) && decide (-40 ≤ inlet ∧ inlet ≤ 65 ∧ 4 ≤ flow ∧ flow ≤ 10 ∧ 800 ≤ load ∧ load ≤ 1000)

/-- A sensor trips at 135 degrees (R503); a reading counts quarters of a degree. -/
def sensorTrips (temp : Int) : Bool := decide (540 ≤ temp)

/-! ### Mission profile and qualification (R509, R510) -/

/-- Operating hours by junction temperature: from, to, hours (R509). -/
def missionHours : List (Int × Int × Nat) :=
  [(-40, 25, 6000), (25, 75, 24000), (75, 100, 40000), (100, 115, 25000), (115, 125, 5000)]

/-- Years, operating hours and power cycles of the profile (R509). -/
def missionProfile : Nat × Nat × Nat := (15, 100000, 54750)

/-- Qualification (R510): the AEC-Q100 grade, the junction temperature of the operating life test, and the temperature cycle. -/
structure Qualification where
  grade : Nat := 2
  lifeTj : Int := 125
  cycleMin : Int := -40
  cycleMax : Int := 125
deriving DecidableEq, Repr

end Sys2Proof.Machine
end

