-- ==== Sys2Proof/WellFormed.lean ====
section
/-! DEFINITION. Well-formed commands: every number of a unit that a command names lies within the Q64's own numbering (R1, R2, R27), and
packets and accesses have a length that the block can take. A command that is not well formed has a meaning all the same: the block
answers it as it answers an access to a unit that the part does not have. -/

namespace Sys2Proof

/-- Queues 0 to 32,767 (R2). -/
def queueOk (q : Nat) : Bool := decide (q < 32768)
/-- Logical tiles 0 to 63 (R27). -/
def tileOk (t : Nat) : Bool := decide (t < 64)
/-- Clusters 0 to 15. -/
def clusterOk (c : Nat) : Bool := decide (c < 16)
/-- Regions 0 to 7. -/
def regionOk (g : Nat) : Bool := decide (g < 8)
/-- Base dies, and the Lattice port of each, 0 to 3. -/
def dieOk (d : Nat) : Bool := decide (d < 4)
/-- Die 4 stands for the Pregus die in the thermal commands (R507). -/
def sensorDieOk (d : Nat) : Bool := decide (d < 5)
/-- MACs 0 to 3. -/
def macOk (m : Nat) : Bool := decide (m < 4)
/-- Triggers 0 to 11. -/
def trigOk (t : Nat) : Bool := decide (t < 12)
/-- Camera contexts 0 to 31. -/
def cameraOk (c : Nat) : Bool := decide (c < 32)
/-- Receivers 0 to 7 and virtual channels 0 to 15. -/
def receiverOk (r vc : Nat) : Bool := decide (r < 8 ∧ vc < 16)
/-- Pipelines 0 to 15. -/
def pipeOk (p : Nat) : Bool := decide (p < 16)
/-- Check-value units 0 to 16, with two contexts. -/
def cvuOk (u ctx : Nat) : Bool := decide (u < 17 ∧ ctx < 2)
/-- A unit of a die by its level (R404). -/
def unitOk : UnitKind → Nat → Bool
  | .slot, u => decide (u < 20)
  | .cluster, u => decide (u < 4)
  | .region, u => decide (u < 2)
  | .die, u => u == 0

/-- A command is well formed. -/
def Instr.wellFormed : Instr → Bool
  | .mm q | .conv q | .gslice q | .binary q | .unary q | .cvt q | .reduce q | .pool q | .norm q | .softmax q | .scatter q
  | .copy q | .fill q | .send q | .msgwin q | .publish q | .sync q | .setsync q | .ring q
  | .commandRetire q _ | .doorbell q _ | .engineWatchdog q _ | .longWait q | .resume q _ => queueOk q
  | .commandStart q tile => queueOk q && tileOk tile
  | .shadowLoadSwap t | .messageArrive t | .busyClr t | .tilArrRepairWrite _ t _ => tileOk t
  | .syncSignalApply c | .clusterHang c | .emberBist c _ => clusterOk c
  | .regionHang g _ | .stageRegion g => regionOk g
  | .frameStart r vc _ | .linePacket r vc _ _ _ _ | .frameEnd r vc => receiverOk r vc
  | .cameraNoFrameStart c => cameraOk c
  | .pipelineFrameStart p | .pipelineFrameComplete p => pipeOk p
  | .arm d i _ => dieOk d && decide (i < 8)
  | .rangePacketReceive m | .rangeReplayInject m | .ethReceive m _ _ | .ethHpEnable m _ _ | .ethHpDoorbell m _ | .ethHpTransmit m
  | .ptpMessageSend m _ _ => macOk m
  | .decoderTailWrite d _ | .decoderEntryStart d | .decoderEntryFinish d | .replayFrameOffer d | .timeWordReceive d | .followerTimeout d
  | .followerCrossCheck d | .dieHang d _ | .linkTimeout d _ _ | .fenceDrainEnd d | .dumpWrite d _ | .resetComplete d _ _ | .heartbeat d
  | .controllerTakeover d _ | .kill d | .txnVote d | .stageDie d _ | .pgoodRise d | .pgoodTimeout d | .pgoodFall d | .overLog d
  | .sscOffWrite d _ | .modulationMinimum d => dieOk d
  | .latticeTimeExchange p _ | .latticeTrainingDone p _ _ | .flitReceive p _ | .replayTimeout p _ | .portDown p | .write p | .writeAck p
  | .signal p | .signalAck p | .hello p | .setChip p | .setRoute p | .ack p | .resetNotice p | .returnNotice p | .linkDown p | .host p
  | .time p | .latticeLaneDegrade p => dieOk p
  | .thermalSample d _ _ _ | .thermalTrip d => sensorDieOk d
  | .tilePoll d slot _ | .agingMeasure d slot _ _ => dieOk d && decide (slot < 20)
  | .fence d k u | .reset d k u | .ret d k u | .bist d k u => dieOk d && unitOk k u
  | .triggerPulseStart t | .triggerPulseEnd t | .pwrIocfgWrite t _ => trigOk t
  | .tbCapRead n | .captureEdge n _ => decide (n < 4)
  | .windowClose c => decide (c < 16)
  | .checksumVerify e => decide (e < 256)
  | .dramMr4Poll c _ | .dramRetrain c => decide (c < 12)
  | .ratchet c => decide (c < 4)
  | .cvuCtxInit _ u c _ => cvuOk u c
  | .cvuFeed _ u c size _ => cvuOk u c && decide (size = 1 ∨ size = 2 ∨ size = 4)
  | .cvuResultRead u c i => cvuOk u c && decide (i < 2)
  | .scanStart _ u | .scanEnd u => decide (u < 17)
  | .registerWrite _ o _ => decide (o < 0x10040000 ∧ o % 4 = 0)
  | .hostRegisterRead o _ => decide (o < 0x10040000)
  | .hostMemoryWrite o bs _ => decide (o + bs.length ≤ 2 ^ 38)
  | .hostMemoryRead o n _ => decide (o + n ≤ 2 ^ 38)
  | .flashOpen k => decide (k < 8)
  | .flashWindowWrite o bs => decide (o + bs.length ≤ 2 ^ 28)
  | .ucieTrainingDone _ _ _ _ r => decide (r < 16)
  | .ucieModuleDown m _ _ r => decide (m < 2 ∧ r < 16)
  | .latRouteWrite c _ => decide (c < 16)
  | .msixUnmask v => decide (v < 2048)
  | .provisioningCommand _ k _ _ => decide (k < 8)
  | .scrubLine a _ | .scrubPassOverrun a | .clearDirtyLine a => decide (a < 2 ^ 48)
  | .prgPorNRelease _ _ ds => decide (ds.length = 12)
  | .selfTestStep _ _ _ | .selfTestStarved _ _ | .stagingUpdate | .beatStart | .scheduleRelease | .syncSet | .recordCommit
  | .mirrorHeaderReceive _ | .mirrorHeaderTimeout | .compare | .safeReadbackCheck _ _ | .release | .checkerRunComplete | .ashMirrorProgram
  | .ashFetch _ | .ashFetchComplete | .gridClose | .tbTick | .step | .reepoch | .reepochApply | .tbIncrWrite _ _ | .tbSnapRead
  | .offsetMeasurement _ | .sourceLost | .holdoverExpire | .timeWordSend | .reconcile | .commit | .abort | .txnDecide | .txnApply
  | .stagePregus | .stageImage | .unstage | .save | .attest | .unlock | .flashClose | .uciEvtRead | .mbTx _ | .mbRxRead | .hostLinkReset
  | .latSysChipWrite _ | .prgPorNAssert _ | .jtagInstruction _ => true

end Sys2Proof
end

