-- ==== Sys2Proof/Tests/Slice0.lean ====
section
/-! SUPPORT. Small tests from the manual's own words, and for every obligation a state and operands that meet its hypotheses. -/

namespace Sys2Proof.Tests

open Sys2Proof.Machine

set_option linter.unusedVariables false
set_option Elab.async false

/-! ### Helpers -/

theorem sound_of {s : State} (h1 : s.flips = []) (h2 : s.peatDirty = []) (h3 : s.dramDirty = []) (h4 : s.chans = []) : s.sound :=
  ⟨h1, h2, h3, fun c => by simp [State.chan, h4]⟩

theorem running_of {s : State} {q : Nat} {o : Op} {f : InFlight} (h1 : (s.queue q).current = some f)
    (h2 : Op.ofCode f.desc.opcode.toNat = some o) (h3 : s.writesPending q f.tile = false) (h4 : s.meTurn f.tile f = true)
    (h5 : (s.tile f.tile).kindBad.contains o.engine = false) : s.running q o f :=
  ⟨h1, h2, h3, h4, h5⟩

/-- Whether a step of a plan that consumes no scaled operand is good (`State.stepGood`). -/
def stepOk (s : State) (c : Ctx) (f : InFlight) (consumes : Bool) : PlanStep → Bool
  | .elems o lo n =>
    match (f.opnd o).1 with
    | none => true
    | some t =>
      let len := t.byteOff (lo + n - 1) + t.elemBytes - t.byteOff lo
      !(s.carveClosed (some c.region) (t.base + t.byteOff lo) len) && (!consumes || t.scale == 0) &&
        (t.fmt != .xa96 || (chunks 16 (s.peek (t.base + t.byteOff lo) len)).all xaCanonical)
  | .raw a n => !(s.carveClosed (some c.region) a n)
  | .scales o _ => (f.opnd o).2.isNone
  | _ => true

theorem stepGood_of {s : State} {c : Ctx} {f : InFlight} {consumes : Bool} {p : PlanStep} (h : stepOk s c f consumes p = true) :
    s.stepGood c f consumes p := by
  cases p with
  | elems o lo n =>
    intro t ht
    simp only [stepOk, ht, Bool.and_eq_true, Bool.not_eq_true', Bool.or_eq_true, beq_iff_eq, bne_iff_ne] at h
    refine ⟨h.1.1, fun hx => h.2.resolve_left (fun hn => hn hx), fun hc _ hs => ?_⟩
    exact absurd (h.1.2.resolve_left (by simp [hc])) hs
  | raw a n => simpa [State.stepGood, State.opens, stepOk] using h
  | scales o idx =>
    intro hd hh
    simp [stepOk, hh] at h
  | _ => trivial

/-- Whether a command may write its DST, where no header of DST is read. -/
def dstOk (s : State) (c : Ctx) (f : InFlight) : Bool :=
  f.hdrD.isNone && (match f.dst with | none => true | some t => !(s.carveClosed (some c.region) t.base t.extent))

theorem good_of {s : State} {q : Nat} {f : InFlight} {consumes : Bool} {plan : List PlanStep} {e : Effect} (h1 : s.flips = [])
    (h2 : s.peatDirty = []) (h3 : s.dramDirty = []) (h4 : s.chans = [])
    (h5 : plan.all (stepOk s (s.ctxOf q f) f consumes) = true) (h6 : dstOk s (s.ctxOf q f) f = true) : s.good q f consumes plan e := by
  refine ⟨sound_of h1 h2 h3 h4, fun p hp => stepGood_of (List.all_eq_true.mp h5 p hp), fun t ht => ?_⟩
  simp only [dstOk, ht, Bool.and_eq_true, Option.isNone_iff_eq_none, Bool.not_eq_true'] at h6
  exact ⟨h6.2, fun h hh => by simp [h6.1] at hh⟩

theorem opens_of {s : State} {c : Ctx} {a n : Nat} (h : s.carveClosed (some c.region) a n = false) : s.opens c a n := h

theorem opensAll_of {s : State} {c : Ctx} {l : List (Nat × List Byte)}
    (h : l.all (fun x => !(s.carveClosed (some c.region) x.1 x.2.length)) = true) : ∀ x ∈ l, s.opens c x.1 x.2.length := by
  intro x hx
  have := List.all_eq_true.mp h x hx
  simpa [State.opens] using this

theorem last_of {l : List Nat} (h : l.isEmpty = false) : ∃ x : Nat, l.getLast? = some x := by
  cases l with
  | nil => simp at h
  | cons a l => exact ⟨_, List.getLast?_eq_some_getLast (List.cons_ne_nil a l)⟩

/-- An allocation of a queue with a ring of eight places in its tile's memory. -/
def allocAt (q : Nat) : QueueAlloc :=
  { queue := q, engine := 2, doorbellOnly := true, ringBase := q / 512 * 0x800000, ringLog2 := 3, balGroup := 0 }

/-- An image with the allocations of these queues. -/
def imageOf (qs : List Nat) : Image := { Image.blank with queues := qs.map allocAt }

/-- A state in which queue `q` of tile `q / 512` holds the command `f`. -/
def inFlight (q : Nat) (f : InFlight) : State :=
  { State.reset with image := some (imageOf [q]), queues := [(q, { ({} : QueueSt) with inflight := [f] })] }

/-- A tensor of two elements in tile memory. -/
def tensor (a : Nat) (fmt : Fmt) : Tensor :=
  { base := a, fmt := fmt, layout := 2, rank := 1, scale := 0, d0 := 2, d1 := 1, d2 := 1, d3 := 1, scaleAddr := 0 }

/-- A command of an opcode with its operands. -/
def cmd (op : Byte) (a b t : Option Tensor) (param : Dword) : InFlight :=
  { ({} : InFlight) with desc := { ({} : Desc) with opcode := op, param := param }, src0 := a, src1 := b, dst := t }

/-- A base die with power. -/
def liveDie : DieSt := { ({} : DieSt) with pwrEn := true, pgood := true }

/-- A state in service with image `i`, started at T0 = 0, whose time base reads `ns` nanoseconds. -/
def started (i : Image) (ns : Nat) : State :=
  { State.reset with
    boot := .running, image := some i, dies := [(0, liveDie), (1, liveDie), (2, liveDie), (3, liveDie)]
    tb := { (({} : TimeBase).setNow (nsInst ns)) with t0 := some 0, stepped := true, ticks := ns / 2 } }

/-- A SYNC command of position 0 in a ring at address 0 that waits for object 0 to reach 1 (R70). -/
def waitingHead : List Byte :=
  let b := leBytes 1 0x60 ++ leBytes 1 1 ++ leBytes 2 0 ++ leBytes 4 0 ++ leBytes 4 1 ++ zeros 50
  b ++ leBytes 2 (crc16Fold 0 b)

/-- One schedule of mode 0 with one entry. -/
def scheduleOf (e : SchedEntry) : Image :=
  { Image.blank with schedules := [{ index := 0, inst := 0, modeId := 0, missing := 0xF, commitTile := 0, busyNs := 0, slackNs := 0,
                                     entries := [e] }] }

/-- A schedule entry at beat 0 for the last queue of tile 63 or the last sync object. -/
def entry (release : Bool) : SchedEntry :=
  { beat := 0, release := release, count := 1, queue := 32767, offsetNs := 0, sync := 0x7FFF, value := 1 }

/-- An image whose one mode has a SAFETY (R52, R60). -/
def safetyImage (safety : Nat) : Image :=
  { Image.blank with modes := [{ modeId := 0, determinism := 1, balance := 0, safety := safety, input := 1 }] }

/-- A frame number for any instant, once started at T0 = 0 (R281). -/
theorem frameAt_of {s : State} {t : Nat} (h1 : s.started = true) (h2 : s.t0 = 0) : s.frameAt t = some (((t : Int) - s.t0).toNat / nsInst s.frameNs) := by
  simp [State.frameAt, h1, h2]

/-- The last camera on the last receiver, virtual channel and pipeline: RAW8 frames of two by two pixels. -/
def bind31 : CameraBind :=
  { camera := 31, receiver := 7, vc := 15, dataType := 0x2A, pipe := 15, facet := 1, fsyncTrig := 0, latencyNs := 0, staleNs := 0 }
def intake31 : IntakeCamera :=
  { camera := 31, width := 2, height := 2, embLines := 0, rawCarve := 0, noteCarve := 0, frameSync := 0, rawOff := 0x1000, noteOff := 0x2000 }
def isp31 : IspCamera :=
  { camera := 31, exposures := 1, cfa := 0, outFmt := 0, chMode := 0, levels := 1, pack := 0, outCarve := 0, statCarve := 0,
    paramCarve := 0, outOff := 0x3000, statOff := 0x4000, paramOff := 0x10000, freeSync := 0xFFFFFFFF }
def view31 : IspView := { bind := bind31, intake := intake31, isp := isp31 }

/-- A range template of MAC 3. -/
def template3 : RangeTemplate :=
  { mac := 3, etherType := 0x88B5, udpPort := 0, hdrLen := 0, ptStride := 6, ptMax := 1, coord := 0, xOff := 0, yOff := 2, zOff := 4,
    unitUm := 1000, latencyNs := 0, rot := [1, 0, 0, 0, 1, 0, 0, 0, 1], trans := [0, 0, 0], zMin := 0, zMax := 0, fwdCarve := 0, fwdLog2 := 0,
    fwdOff := 0, fwdSync := 0 }

/-- An image with camera 31, template 0 of MAC 3, the rings of die 3 and of MAC 3 and a package-owned carve-out in Peat; `input` is
the INPUT of its mode (1 LIVE, 2 REPLAY). -/
def sensorImage (input : Nat) : Image :=
  { Image.blank with
    carves := [{ id := 0, dram := false, eccClass := 0, owner := 0xF0, base := peatBase, size := 0x100000 }]
    modes := [{ modeId := 0, determinism := 1, balance := 0, safety := 2, input := input }]
    cameraBinds := [bind31]
    intake := { Image.blank.intake with
      cameras := [intake31], templates := [template3], decoders := [{ unit := 3, ringCarve := 0, ringLog2 := 2, ringOff := 0 }]
      rangeReplays := [{ unit := 3, ringCarve := 0, ringLog2 := 2, ringOff := 0 }] }
    isp := { Image.blank.isp with cameras := [isp31] } }

/-- A frame of camera 31. -/
def job31 (lines : Nat) : FrameJob := { ({} : FrameJob) with camera := 31, facet := 1, lines := lines }

/-- Camera 31 receives a frame. -/
def receiving (lines : Nat) : State :=
  { started (sensorImage 1) 66666666 with cams := [(31, { ({} : CamSt) with cur := some 0, lastStart := some 0, waiting := [job31 lines] })] }

/-- A replay entry (R295): FORMAT 2, camera 31, frame 0, 34 bytes of stream at `src`, its sample line at `line`. -/
def replayEntry (a src line : Nat) : List Byte :=
  let b := [2, 0, 31, 0] ++ zeros 4 ++ zeros 8 ++ leBytes 8 src ++ leBytes 4 34 ++ zeros 12 ++ leBytes 8 line ++ zeros 14
  b ++ leBytes 2 (crc16Fold a b)

/-- A QLR stream (R300, R301) of two by two samples of 8 bits: on each line a k of 0 and two residuals of 0. -/
def qlrStream : List Byte :=
  let data : List Byte := [0, 0]
  let h := leBytes 4 0x31524C51 ++ leBytes 2 0x0100 ++ leBytes 2 2 ++ leBytes 2 2 ++ [1, 8, 0, 0, 0, 0] ++ leBytes 4 2 ++ leBytes 4 (crc 3 data) ++ zeros 4
  h ++ leBytes 4 (crc 3 h) ++ data

/-- Decoder 3 with one entry in its ring. -/
def replaying (e : List Byte) (src : List Byte) : State :=
  { started (sensorImage 2) 0 with
    mem := SMap.setBytes (SMap.setBytes [] peatBase e) (peatBase + 128) src
    dies := [(0, liveDie), (3, { liveDie with dec := { ({} : DecoderSt) with tail := 1 } })] }

/-- Decoder 3 with an entry of camera 31 whose stream is good. -/
@[irreducible] def goodReplay : State := replaying (replayEntry peatBase (peatBase + 128) (peatBase + 64)) qlrStream

theorem goodReplay_sound : goodReplay.sound := by
  unfold goodReplay
  exact sound_of rfl rfl rfl rfl

theorem goodReplay_view : goodReplay.ispView
    (entCamera (goodReplay.fetch (goodReplay.img.carveBase 0 + 0 + (goodReplay.die 3).dec.head.toNat % 2 ^ 2 * 64) 64).data) = some view31 := by
  have h : entCamera (goodReplay.fetch (goodReplay.img.carveBase 0 + 0 + (goodReplay.die 3).dec.head.toNat % 2 ^ 2 * 64) 64).data = 31 := by
    decide +kernel
  rw [h]
  unfold goodReplay
  rfl

/-- A header that passes and a stream that decodes whole, as one Boolean. -/
theorem decodes_of {x : Sum Nat (Nat × Nat × (Unit → Option (List (List Nat) × Bool)))}
    (h : (match x with
      | .inr (_, _, dec) => (match dec () with | some (_, false) => true | _ => false)
      | .inl _ => false) = true) :
    ∃ (w h : Nat) (dec : Unit → Option (List (List Nat) × Bool)) (planes : List (List Nat)), x = .inr (w, h, dec) ∧ dec () = some (planes, false) := by
  match x, h with
  | .inr (w, h, dec), hx =>
    match hd : dec () with
    | some (p, false) => exact ⟨w, h, dec, p, rfl, hd⟩
    | some (p, true) => simp [hd] at hx
    | none => simp [hd] at hx

/-- An image in which MAC 3 belongs to a host network path and a package-owned DRAM carve-out holds its rings. -/
def pathImage : Image :=
  { Image.blank with
    carves := [{ id := 0, dram := true, eccClass := 0, owner := 0xF0, base := dramBase, size := 0x100000 }]
    resources := [{ kind := 4, index := 3, feature := 8, featureInst := 0 }] }

/-- A transmit descriptor (R469) at `a`: 60 bytes at `addr`. -/
def txDesc (a addr : Nat) : List Byte :=
  let b := leBytes 8 addr ++ leBytes 2 60 ++ zeros 20
  b ++ leBytes 2 (crc16Fold a b)

/-- A port of die 3. -/
def withPort (p : PortSt) : State := { started Image.blank 0 with dies := [(3, { liveDie with port := p })] }

/-- A state in which a unit of recovery is in a state of R404. -/
def unitState (st : UnitState) : UnitSt := { ({} : UnitSt) with state := st, hostView := st, pregusView := st }

/-- Die 3 with power, as a unit. -/
def withDie3 (u : UnitSt) : State := { started Image.blank 0 with dies := [(3, { liveDie with u := u })] }

/-- A transaction that names die 3 (R432, R435). -/
def activate3 (voted : List (Nat × Bool)) (decision : Option Bool) : Txn :=
  { id := 1, entries := [{ op := 4, target := 0, value := 16, mask := 0 }], target := some (nsInst 200000), when_ := nsInst 200000, beat := none,
    voted := voted, decision := decision }

/-- A transaction list (R432) of one MODE entry. -/
def modeList : List Byte :=
  let h := leBytes 4 1 ++ leBytes 2 1 ++ zeros 54
  let e := leBytes 1 2 ++ zeros 15
  h ++ leBytes 4 (crc 4 (h ++ e)) ++ e

/-- A START (R64, R432). -/
def start : TxnEntry := { op := 3, target := 0, value := 0, mask := 0 }

/-- A management message of this TYPE (R480). -/
def message (type : Nat) (body : List Byte) : List Byte := Mgmt.bytes { ({} : Mgmt) with type := type, dst := 0x80, body := body }


/-! ### Well-formedness: a term that each check refuses -/

theorem test_illFormed_queue : Instr.wellFormed (.mm 32768) = false := by decide
theorem test_illFormed_tile : Instr.wellFormed (.messageArrive 64) = false := by decide
theorem test_illFormed_cluster : Instr.wellFormed (.clusterHang 16) = false := by decide
theorem test_illFormed_region : Instr.wellFormed (.stageRegion 8) = false := by decide
theorem test_illFormed_die : Instr.wellFormed (.kill 4) = false := by decide
theorem test_illFormed_sensorDie : Instr.wellFormed (.thermalTrip 5) = false := by decide
theorem test_illFormed_mac : Instr.wellFormed (.ethHpTransmit 4) = false := by decide
theorem test_illFormed_trigger : Instr.wellFormed (.triggerPulseEnd 12) = false := by decide
theorem test_illFormed_camera : Instr.wellFormed (.cameraNoFrameStart 32) = false := by decide
theorem test_illFormed_receiver : Instr.wellFormed (.frameEnd 8 0) = false := by decide
theorem test_illFormed_virtualChannel : Instr.wellFormed (.frameEnd 7 16) = false := by decide
theorem test_illFormed_pipeline : Instr.wellFormed (.pipelineFrameStart 16) = false := by decide
theorem test_illFormed_checkUnit : Instr.wellFormed (.cvuResultRead 17 0 0) = false := by decide
theorem test_illFormed_feedSize : Instr.wellFormed (.cvuFeed .host 0 0 3 0) = false := by decide
theorem test_illFormed_unitSlot : Instr.wellFormed (.fence 0 .slot 20) = false := by decide
theorem test_illFormed_unitDie : Instr.wellFormed (.reset 0 .die 1) = false := by decide
theorem test_illFormed_register : Instr.wellFormed (.registerWrite .host 2 0) = false := by decide
theorem test_wellFormed_commands :
    ([Instr.mm 32767, .messageArrive 63, .clusterHang 15, .stageRegion 7, .kill 3, .thermalTrip 4, .ethHpTransmit 3, .triggerPulseEnd 11,
      .cameraNoFrameStart 31, .frameEnd 7 15, .pipelineFrameStart 15, .cvuResultRead 16 1 1, .cvuFeed .host 16 1 4 0, .fence 3 .slot 19,
      .reset 3 .die 0, .registerWrite .host 4 0].all Instr.wellFormed) = true := by decide

/-! ### The manual's own numbers -/

/-- The nine ASCII bytes of CHECK (R389). -/
def checkBytes : List Byte := [0x31, 0x32, 0x33, 0x34, 0x35, 0x36, 0x37, 0x38, 0x39]

/-- The column CHECK of R389. -/
theorem test_crc_check : (List.range 6).map (fun c => crc c checkBytes) =
    [0x4B, 0x29B1, 0xCBF43926, 0xE3069283, 0x1697D06A, 0x995DC9BBDF1939FA] := by decide +kernel

/-- The CVU example after R397: with the nine bytes pending in context 0 of the Pregus unit under CRC-32P4, CVU_RESULT[0] reads 0x1697_D06A. -/
theorem test_cvuResultRead_example :
    (match exec (.cvuResultRead 16 0 0) { started Image.blank 0 with
        cvu := { ({} : CvuSt) with ctx0 := { ({} : CvuCtx) with poly := 4, reg := 0xFFFFFFFF, fifo := checkBytes } } } with
      | .next t => t.link.resp.data
      | _ => []) = [0x6A, 0xD0, 0x97, 0x16] := by decide +kernel

/-- The example of exp2 after R232: x = 0.5 in FP32, FP16 and BF16. -/
theorem test_exp2_example :
    [Fmt.fp32, .fp16, .bf16].map (fun f => (roundTo f (.fin (exp2V (1 / 2))) none).code) = [0x3FB504F3, 0x3DA8, 0x3FB5] := by decide +kernel

/-- The example of INT8 quantisation before R206: V = X × 3 / 1024. -/
theorem test_int8_example :
    ([1000, 512, -45000] : List Int).map (fun x => let r := roundTo .int8 (.fin ((x : Rat) * 3 / 1024)) none; (r.code, r.sat)) =
      [(0x03, false), (0x02, false), (0x80, true)] := by decide +kernel

/-- The example of QG4 after R206. -/
theorem test_qg4_example :
    ([20, -11, 40, -1] : List Int).map (fun x => let r := roundTo .qg4 (.fin ((x : Rat) / 32)) none; (r.code, r.sat)) =
      [(0x6, false), (0xC, false), (0x7, true), (0x8, false)] := by decide +kernel

/-- An empty queue of commands: the block idles (assumption 2). -/
theorem test_step_idle : (match step State.reset with | .next t => t.pending == [] | _ => false) = true := by decide +kernel

/-- The example of R214's borders and the one of R77: output sizes. -/
theorem test_outSize_examples :
    [outSize 1080 1 1 1 3 2, outSize 1920 0 0 1 5 8, outSize 6 0 0 4 3 1, outSize 2 0 0 1 3 1, outSize 1920 1 1 1 3 2] = [540, 240, -2, 0, 960] := by
  decide +kernel

/-- The example after R77: PARAM of a 3 × 3 convolution with stride 2 and padding 1. -/
theorem test_geom_example : ({ ({} : Desc) with param := 0x0000210842110863 } : Desc).geom =
    { kh := 3, kw := 3, sh := 2, sw := 2, dh := 1, dw := 1, pt := 1, pb := 1, pl := 1, pr := 1, padMode := 0, depthwise := false } := by
  decide +kernel

/-- The FP16 example after R179: the block of three products, and its sum with the element that pass 0 left. -/
theorem test_fp16_block_example :
    let v := fun (a w : Nat) => Val.mul (decodeCode .fp16 a) (decodeCode .fp16 w)
    let b := blockWindow [v 0x6400 0x6400, v 0x0003 0x8400, v 0x0005 0x0401]
    let p : XA := { s := -(2 ^ 60), exp := -4 }
    b = { s := 2 ^ 60 + 8, exp := -8, trunc := true } ∧ XA.add p b = { s := -15 * 2 ^ 56, exp := -4, trunc := true } ∧
      (roundTo .fp32 (XA.add p b).val none).code = 0xCB700000 := by decide +kernel

/-- The E4M3 by INT8 example after R181: the element's bytes and its roundings. -/
theorem test_native_block_example :
    let x := blockNative (List.zipWith (fun a w => Val.mul (decodeCode .e4m3 a) (decodeCode .int8 w)) [0x4C, 0x80, 0x03, 0xD5] [0x07, 0x2A, 0x81, 0xFD])
    x.bytes = [0x00, 0x00, 0x80, 0x41, 0x50, 0, 0, 0, 0, 0, 0, 0, 0, 0, 0, 0] ∧
      [Fmt.bf16, .fp16, .int8].map (fun f => (roundTo f x.val none).code) = [0x42A1, 0x5504, 0x50] := by decide +kernel

/-- The further conversions of XA96 sources after R181. -/
theorem test_conversion_examples :
    ([(Fmt.fp16, ({ s := 192 } : XA)), (.fp16, { s := 128 }), (.fp16, { s := -128 }), (.fp16, { s := 384 }), (.fp32, {}),
      (.int8, { s := 261 * 2 ^ 31 }), (.int8, { s := -257 * 2 ^ 31 }), (.e4m3, { s := 500 * 2 ^ 32 }), (.e4m3, { s := 460 * 2 ^ 32 }),
      (.e5m2, { s := 500 * 2 ^ 32 }), (.fp32, { nan := true }), (.int8, { nan := true }), (.e4m3, { ninf := true }), (.e5m2, { ninf := true }),
      (.bf16, { ninf := true })]).map (fun p => let r := roundTo p.1 p.2.val none; (r.code, r.sat)) =
    [(0x0001, false), (0x0000, false), (0x8000, false), (0x0002, false), (0, false), (0x7F, true), (0x80, false), (0x7E, true), (0x7E, false),
      (0x60, false), (0x7FC00000, false), (0x00, true), (0x7F, false), (0xFC, false), (0xFF80, false)] := by decide +kernel

/-- The example after R267: the four pass sums in NATIVE and in COMPAT order. -/
theorem test_pass_order_example :
    let p0 : XA := { s := 8 }
    let p1 : XA := { s := 2 ^ 60, exp := 4 }
    let p2 : XA := { s := -(2 ^ 60), exp := 4 }
    (((p0.add p1).add p2).add p0) = { s := 8, trunc := true } ∧ ((p0.add p1).add (p2.add p0)) = { trunc := true } ∧
      (roundTo .fp32 (((p0.add p1).add p2).add p0).val none).code = 0x31000000 := by decide +kernel

/-- The example of the quantisation record: codes, saturation and errors at the scale 3/64. -/
theorem test_quantisation_example :
    ([64 / 3, -50, 416 / 3, 3 / 2] : List Rat).map (fun v => let r := roundTo .int8 (.fin v) none; (r.code, r.sat, if r.sat then 0 else r.err)) =
      [(0x15, false, 21845), (0xCE, false, 0), (0x7F, true, 0), (0x02, false, -32768)] := by decide +kernel

/-- The example of a QLR line after R301. -/
theorem test_qlr_example :
    (match qlrLine 8 1 4 0 #[] 5 0 0 [] (bitsOf [0x17, 0xFF, 0xDC, 0x10]) with
      | .ok line _ => line.reverse
      | _ => []) = [100, 102, 101, 101] := by decide +kernel

/-- The pixel example of the image pipeline: the merge, the white balance and the output codes. -/
theorem test_pixel_example :
    let b := zeros 112 ++ leBytes 2 16 ++ leBytes 2 256 ++ zeros 4 ++ leBytes 4 12582912 ++ zeros 4 ++ leBytes 4 16777215 ++ zeros 8 ++
      leBytes 2 7168 ++ zeros 468 ++ leBytes 2 52000 ++ leBytes 2 52512
    mergeExp b 0 [15335424, 962560] = 15378432 ∧ whiteBalance b 0 15378432 = 26912256 ∧ tone b 26912256 = 52341 ∧
      outCode 0x04 52341 = 0xCC ∧ outCode 0x07 52341 = 0x3A64 := by decide +kernel

/-- The example of the beat grid: with the defaults frames 1, 2 and 3 begin at these beats, and beat 16,667 starts at 33,334,000 ns. -/
theorem test_beat_example :
    let s := started { Image.blank with safety := { Image.blank.safety with frameNs := 33333333, beatNs := 2000 } } 0
    [1, 2, 3].map s.firstBeat = [16667, 33334, 50000] ∧ s.beatStart 16667 = nsInst 33334000 := by decide +kernel

/-- The example of a DRAM address: channel 4, offset 24,640. -/
theorem test_dram_example : dramChannel 0x010800013040 = 4 ∧ dramChannelOffset 0x010800013040 = 24640 := by decide +kernel

/-- The example of the clock floor: 970 MHz gives 975 MHz, 995 MHz gives 1,000 MHz. -/
theorem test_clockFloor_example : fMinOf 970 = 975 ∧ fMinOf 995 = 1000 := by decide +kernel

/-- The example of physical tile numbers (R27, R29): tile 45 is slot 56, and 59 once the Ember serves it. -/
theorem test_tile_example :
    let s := started Image.blank 0
    s.slotOfTile 45 = 56 ∧ ({ s with repair := { s.repair with slotOf := [(11, [0, 4, 2, 3])] } } : State).slotOfTile 45 = 59 := by decide +kernel

/-! ### The package (R484 to R491, R506, R509) -/

/-- R486, R487: the signals of a DRAM channel and of the Pregus block. -/
theorem test_package_blocks : dramSignals.length = 74 ∧ pregusSignals.length = 120 ∧ xspiSignals.length = 39 := by decide +kernel

/-- R488: the positions of the quadrants of dies 0 to 3. -/
theorem test_package_quadrants :
    (quadrantPlaces 0).length = 614 ∧ (quadrantPlaces 1).length = 616 ∧ (quadrantPlaces 2).length = 716 ∧
      (quadrantPlaces 3).length = 708 := by decide +kernel

/-- Row 22 is AC, so column 17 of it is AC17; the ball letters leave out I, O, Q, R, S, X and Z. -/
theorem test_package_names : ballName 22 17 = "AC17" ∧ rowName 72 = "CT" := by decide +kernel

/-- R486: the first ball of DRAM channel 0 is the highest bit of its first half's data. -/
theorem test_package_dram : ballAt 1 1 = .dram 0 "0_DQ15" ∧ ballAt 1 12 = .supply .vss := by decide +kernel

/-- R506: an inlet of 65 degrees, 475 W in the package and 85 W in a compute die. -/
theorem test_package_junction : junctionMax false 65000 475 85 = 120500 := by decide

/-- R509: the profile's hours add up to its 100,000. -/
theorem test_package_hours : (missionHours.map (fun x => x.2.2)).foldl (· + ·) 0 = missionProfile.2.1 := by decide

/-- Witnesses of the failing ends that `Ended.answers` speaks of: a FILL that may not reach its DST, a UNARY and a CVT that may not read
their SRC0. -/
theorem witness_answers_failing :
    (∃ (s : State) (q : Nat) (f : InFlight) (t : Tensor), s.running q .fill f ∧ f.dst = some t ∧
      (s.ended q f false false false (t.elemIdx.map fun _ => .row) { rows := elementRows t (fun _ => fillCode t f.desc) }).status ≠ 0) ∧
    (∃ (s : State) (q : Nat) (f : InFlight) (a t : Tensor), s.running q .unary f ∧ f.src0 = some a ∧ f.dst = some t ∧
      (s.ended q f false true false (unaryPlan a t) (roundedEffect t f
        (fun i => unaryV (f.desc.p 7 0) (s.elem a (a.same (t.coords i)))) (fun i => s.srcSat a (a.same (t.coords i))))).status ≠ 0) ∧
    (∃ (s : State) (q : Nat) (f : InFlight) (a t : Tensor), s.running q .cvt f ∧ f.src0 = some a ∧ f.dst = some t ∧
      (s.ended q f true true true (cvtPlan f a t) (s.cvtEffect f a t)).status ≠ 0) :=
  let p := tensor peatBase .int8
  let t := tensor 0x1000 .int8
  have run {s : State} {q : Nat} {o : Op} {f : InFlight} := @running_of s q o f
  ⟨⟨inFlight 0 (cmd 0x41 none none (some p) 0), 0, cmd 0x41 none none (some p) 0, p, run (by decide +kernel) (by decide +kernel)
      (by decide +kernel) (by decide +kernel) (by decide +kernel), rfl, by decide +kernel⟩,
   ⟨inFlight 0 (cmd 0x21 (some p) none (some t) 0), 0, cmd 0x21 (some p) none (some t) 0, p, t, run (by decide +kernel) (by decide +kernel)
      (by decide +kernel) (by decide +kernel) (by decide +kernel), rfl, rfl, by decide +kernel⟩,
   ⟨inFlight 0 (cmd 0x22 (some p) none (some t) 0), 0, cmd 0x22 (some p) none (some t) 0, p, t, run (by decide +kernel) (by decide +kernel)
      (by decide +kernel) (by decide +kernel) (by decide +kernel), rfl, rfl, by decide +kernel⟩⟩
/-! ### Witnesses: a state and operands that meet the hypotheses of each clause of each obligation -/

theorem witness_StepRunsFront :
    (∃ (c : Instr) (rest : List Instr) (s : State), (s.pending = c :: rest)) ∧
    (∃ s : State, (s.pending = [])) :=
  ⟨⟨.tbTick, [.step], { State.reset with pending := [.tbTick, .step] }, rfl⟩,
   ⟨State.reset, by decide +kernel⟩⟩

theorem witness_MemoryStaysCanonical :
    ∃ s t : State, (s.memWf = true) ∧ (step s = .next t) :=
  ⟨State.reset, State.reset, by decide +kernel, rfl⟩

theorem witness_StoreReadsBack :
    ∃ (s : State) (a : Nat) (bs : List Byte), (s.sound) ∧ ∃ x : Nat, True :=
  ⟨State.reset, 0x20000000, [1], sound_of rfl rfl rfl rfl, 0x20000000, trivial⟩

theorem witness_FetchReadsMemory :
    ∃ (s : State) (a n : Nat), (s.sound) :=
  ⟨State.reset, 0x3F, 2, sound_of rfl rfl rfl rfl⟩

theorem witness_DramInterleave :
    (∃ d off : Nat, (d < 4) ∧ (off < dramWindow)) ∧
    (∃ d e a b : Nat, (d < 4) ∧ (e < 4) ∧ (a < dramWindow) ∧ (b < dramWindow) ∧ (dramChannel (dramBase + d * dramWindow + a) = dramChannel (dramBase + e * dramWindow + b)) ∧ (dramChannelOffset (dramBase + d * dramWindow + a) = dramChannelOffset (dramBase + e * dramWindow + b))) :=
  ⟨⟨3, dramWindow - 1, by decide +kernel, by decide +kernel⟩,
   ⟨3, 3, dramWindow - 1, dramWindow - 1, by decide +kernel, by decide +kernel, by decide +kernel, by decide +kernel, by decide +kernel, by decide +kernel⟩⟩

theorem witness_KindlingErrorFailsCommand :
    ∃ (o : Op) (s : State) (q : Nat) (f : InFlight), ((s.queue q).current = some f) ∧ (Op.ofCode f.desc.opcode.toNat = some o) ∧ (s.writesPending q f.tile = false) ∧ (s.meTurn f.tile f = true) ∧ ((s.tile f.tile).kindBad.contains o.engine = true) :=
  ⟨.fill, { inFlight 0 (cmd 0x41 none none (some (tensor 0x1000 .int8)) 0) with tiles := [(0, { ({} : TileSt) with kindBad := [2] })] }, 0, (cmd 0x41 none none (some (tensor 0x1000 .int8)) 0), by decide +kernel, by decide +kernel, by decide +kernel, by decide +kernel, by decide +kernel⟩

theorem witness_EngineIdlesWithoutCommand :
    (∃ (o : Op) (s : State) (q : Nat), ((∀ f : InFlight, (s.queue q).current = some f → Op.ofCode f.desc.opcode.toNat ≠ some o))) ∧
    (∃ (o : Op) (s : State) (q : Nat) (f : InFlight), ((s.queue q).current = some f) ∧ (s.writesPending q f.tile = true ∨ s.meTurn f.tile f = false)) :=
  ⟨⟨.mm, inFlight 0 (cmd 0x41 none none (some (tensor 0x1000 .int8)) 0), 0, fun f h => by
    have h2 : ((inFlight 0 (cmd 0x41 none none (some (tensor 0x1000 .int8)) 0)).queue 0).current = some (cmd 0x41 none none (some (tensor 0x1000 .int8)) 0) := by decide +kernel
    rw [h2] at h
    cases h
    decide +kernel⟩,
   ⟨.fill, { inFlight 0 (cmd 0x41 none none (some (tensor 0x1000 .int8)) 0) with beat := { ({} : BeatSt) with staging := { ({} : StagingSt) with updates := [{ sender := (0, 0), off := 0, bytes := [1], capture := 0 }] } } }, 0, (cmd 0x41 none none (some (tensor 0x1000 .int8)) 0), by decide +kernel, by decide +kernel⟩⟩

theorem witness_SyncEngineCommands :
    (∃ (s : State) (q : Nat) (f : InFlight), (s.running q .sync f)) ∧
    (∃ (s : State) (q : Nat) (f : InFlight), (s.running q .setsync f) ∧ (refChip f.desc.signalRef.toNat = s.chip) ∧ (s.clusterTakes (refCluster f.desc.signalRef.toNat) (s.draining f.tile) = true)) ∧
    (∃ (s : State) (q : Nat) (f : InFlight), (s.running q .setsync f) ∧ (refChip f.desc.signalRef.toNat ≠ s.chip)) ∧
    (∃ (s : State) (q : Nat) (f : InFlight), (s.running q .setsync f) ∧ (refChip f.desc.signalRef.toNat = s.chip) ∧ (s.clusterTakes (refCluster f.desc.signalRef.toNat) (s.draining f.tile) = false)) ∧
    (∃ (s : State) (q : Nat) (f : InFlight), (s.running q .ring f) ∧ (let n := f.desc.p 14 0; (s.alloc n = none))) ∧
    (∃ (s : State) (q : Nat) (f : InFlight), (s.running q .ring f) ∧ (let n := f.desc.p 14 0; ∃ a : QueueAlloc, (s.alloc n = some a) ∧ (s.tileOpen (tileOfQueue n) = false))) ∧
    (∃ (s : State) (q : Nat) (f : InFlight), (s.running q .ring f) ∧ (let n := f.desc.p 14 0; (let v := f.desc.p 31 16; ∃ a : QueueAlloc, (s.alloc n = some a) ∧ (s.tileOpen (tileOfQueue n) = true) ∧ (2 ^ a.ringLog2 < (v + 2 ^ 16 - (s.queue n).head.toNat) % 2 ^ 16)))) ∧
    (∃ (s : State) (q : Nat) (f : InFlight), (s.running q .ring f) ∧ (let n := f.desc.p 14 0; (let v := f.desc.p 31 16; ∃ a : QueueAlloc, (s.alloc n = some a) ∧ (s.tileOpen (tileOfQueue n) = true) ∧ ((v + 2 ^ 16 - (s.queue n).head.toNat) % 2 ^ 16 ≤ 2 ^ a.ringLog2)))) :=
  ⟨⟨inFlight 0 (cmd 0x60 none none none 0), 0, (cmd 0x60 none none none 0), running_of (by decide +kernel) (by decide +kernel) (by decide +kernel) (by decide +kernel) (by decide +kernel)⟩,
   ⟨inFlight 0 { (cmd 0x61 none none none 0) with desc := { ({} : Desc) with opcode := 0x61, signalRef := 0x7FFF } }, 0, { (cmd 0x61 none none none 0) with desc := { ({} : Desc) with opcode := 0x61, signalRef := 0x7FFF } }, running_of (by decide +kernel) (by decide +kernel) (by decide +kernel) (by decide +kernel) (by decide +kernel), by decide +kernel, by decide +kernel⟩,
   ⟨inFlight 0 { (cmd 0x61 none none none 0) with desc := { ({} : Desc) with opcode := 0x61, signalRef := 0xF7FFF } }, 0, { (cmd 0x61 none none none 0) with desc := { ({} : Desc) with opcode := 0x61, signalRef := 0xF7FFF } }, running_of (by decide +kernel) (by decide +kernel) (by decide +kernel) (by decide +kernel) (by decide +kernel), by decide +kernel⟩,
   ⟨{ inFlight 0 { (cmd 0x61 none none none 0) with desc := { ({} : Desc) with opcode := 0x61, signalRef := 0x7FFF } } with dies := [(3, { liveDie with u := unitState .suspect })] }, 0, { (cmd 0x61 none none none 0) with desc := { ({} : Desc) with opcode := 0x61, signalRef := 0x7FFF } }, running_of (by decide +kernel) (by decide +kernel) (by decide +kernel) (by decide +kernel) (by decide +kernel), by decide +kernel, by decide +kernel⟩,
   ⟨inFlight 0 (cmd 0x62 none none none 0x00080001), 0, (cmd 0x62 none none none 0x00080001), running_of (by decide +kernel) (by decide +kernel) (by decide +kernel) (by decide +kernel) (by decide +kernel), by decide +kernel⟩,
   ⟨{ inFlight 0 (cmd 0x62 none none none 0x00087FFF) with image := some (imageOf [0, 32767]), dies := [(3, { liveDie with u := unitState .suspect })] }, 0, (cmd 0x62 none none none 0x00087FFF), running_of (by decide +kernel) (by decide +kernel) (by decide +kernel) (by decide +kernel) (by decide +kernel), allocAt 32767, by decide +kernel, by decide +kernel⟩,
   ⟨{ inFlight 0 (cmd 0x62 none none none 0x00090001) with image := some (imageOf [0, 1]) }, 0, (cmd 0x62 none none none 0x00090001), running_of (by decide +kernel) (by decide +kernel) (by decide +kernel) (by decide +kernel) (by decide +kernel), allocAt 1, by decide +kernel, by decide +kernel, by decide +kernel⟩,
   ⟨inFlight 0 (cmd 0x62 none none none 0x00080000), 0, (cmd 0x62 none none none 0x00080000), running_of (by decide +kernel) (by decide +kernel) (by decide +kernel) (by decide +kernel) (by decide +kernel), allocAt 0, by decide +kernel, by decide +kernel, by decide +kernel⟩⟩

theorem witness_MsgwinDefinesWindow :
    (∃ (s : State) (q : Nat) (f : InFlight), (s.running q .msgwin f)) ∧
    (∃ (s : State) (q : Nat) (cycles : Word) (f : InFlight) (rest : List InFlight) (a : QueueAlloc), ((s.queue q).inflight = f :: rest) ∧ (s.allocOf q f = some a) ∧ (a.queue = q) ∧ (f.executed = true) ∧ (f.acksDue = 0) ∧ (f.status = 0) ∧ ((f.sigDone = true ∨ f.desc.hasSignal = false)) ∧ (Op.ofCode f.desc.opcode.toNat = some .msgwin) ∧ (s.sound) ∧ (s.suspects = [])) :=
  ⟨⟨inFlight 32767 (cmd 0x43 none none none 0), 32767, (cmd 0x43 none none none 0), running_of (by decide +kernel) (by decide +kernel) (by decide +kernel) (by decide +kernel) (by decide +kernel)⟩,
   ⟨inFlight 32767 ({ (cmd 0x43 none none none 0) with executed := true }), 32767, 7, { (cmd 0x43 none none none 0) with executed := true }, [], allocAt 32767, by decide +kernel, by decide +kernel, by decide +kernel, by decide +kernel, by decide +kernel, by decide +kernel, by decide +kernel, by decide +kernel, sound_of rfl rfl rfl rfl, by decide +kernel⟩⟩

theorem witness_FillAndCopyComplete :
    (∃ (s : State) (q : Nat) (f : InFlight) (t : Tensor), (s.running q .fill f) ∧ (f.dst = some t) ∧ (let plan : List PlanStep := t.elemIdx.map fun _ => .row; (let e : Effect := { rows := elementRows t (fun _ => fillCode t f.desc) }; (s.good q f false plan e)))) ∧
    (∃ (s : State) (q : Nat) (f : InFlight) (a t : Tensor), (s.running q .copy f) ∧ (f.src0 = some a) ∧ (f.dst = some t) ∧ (t.scale = 0) ∧ (let e : Effect := { rows := elementRows t (fun i => s.code a (a.same (t.coords i))) }; (s.good q f false (copyPlan a t) e))) ∧
    (∃ (s : State) (q : Nat) (f : InFlight) (a t : Tensor), (s.running q .copy f) ∧ (f.src0 = some a) ∧ (f.dst = some t) ∧ (t.scale ≠ 0) ∧ (let e : Effect := { rows := s.copyRows a t }; (let d := s.ended q f false false false (copyPlan a t) e; (d.status = 0)))) ∧
    (∃ (s : State) (q : Nat) (f : InFlight) (a t : Tensor), (s.running q .copy f) ∧ (f.src0 = some a) ∧ (f.dst = some t) ∧ (t.scale ≠ 0) ∧ (let e : Effect := { rows := s.copyRows a t }; (let d := s.ended q f false false false (copyPlan a t) e; (d.status ≠ 0)))) ∧
    (∃ (s : State) (q : Nat) (f : InFlight) (a t : Tensor), (s.running q .copy f) ∧ (f.src0 = some a) ∧ (f.dst = some t) ∧ (t.scale ≠ 0) ∧ (let e : Effect := { rows := s.copyRows a t }; (s.good q f false (copyPlan a t) e) ∧ ((∀ j : Nat, j < a.nblk → s.opens (s.ctxOf q f) (a.base + a.trailerOff + j) 1)))) :=
  ⟨⟨inFlight 0 (cmd 0x41 none none (some (tensor 0x1000 .int8)) 0), 0, (cmd 0x41 none none (some (tensor 0x1000 .int8)) 0), (tensor 0x1000 .int8), running_of (by decide +kernel) (by decide +kernel) (by decide +kernel) (by decide +kernel) (by decide +kernel), by decide +kernel, good_of rfl rfl rfl rfl (by decide +kernel) (by decide +kernel)⟩,
   ⟨inFlight 0 (cmd 0x40 (some (tensor 0x1000 .int8)) none (some (tensor 0x2000 .int8)) 0), 0, (cmd 0x40 (some (tensor 0x1000 .int8)) none (some (tensor 0x2000 .int8)) 0), (tensor 0x1000 .int8), (tensor 0x2000 .int8), running_of (by decide +kernel) (by decide +kernel) (by decide +kernel) (by decide +kernel) (by decide +kernel), by decide +kernel, by decide +kernel, by decide +kernel, good_of rfl rfl rfl rfl (by decide +kernel) (by decide +kernel)⟩,
   ⟨inFlight 0 (cmd 0x40 (some { tensor 0x1000 .int8 with scale := 1, scaleAddr := 0x4000 }) none (some { tensor 0x2000 .int8 with scale := 1, scaleAddr := 0x4000 }) 0), 0, (cmd 0x40 (some { tensor 0x1000 .int8 with scale := 1, scaleAddr := 0x4000 }) none (some { tensor 0x2000 .int8 with scale := 1, scaleAddr := 0x4000 }) 0), { tensor 0x1000 .int8 with scale := 1, scaleAddr := 0x4000 }, { tensor 0x2000 .int8 with scale := 1, scaleAddr := 0x4000 }, running_of (by decide +kernel) (by decide +kernel) (by decide +kernel) (by decide +kernel) (by decide +kernel), by decide +kernel, by decide +kernel, by decide +kernel, by decide +kernel⟩,
   ⟨inFlight 0 (cmd 0x40 (some { tensor peatBase .int8 with scale := 1, scaleAddr := 0x4000 }) none (some { tensor 0x2000 .int8 with scale := 1, scaleAddr := 0x4000 }) 0), 0, (cmd 0x40 (some { tensor peatBase .int8 with scale := 1, scaleAddr := 0x4000 }) none (some { tensor 0x2000 .int8 with scale := 1, scaleAddr := 0x4000 }) 0), { tensor peatBase .int8 with scale := 1, scaleAddr := 0x4000 }, { tensor 0x2000 .int8 with scale := 1, scaleAddr := 0x4000 }, running_of (by decide +kernel) (by decide +kernel) (by decide +kernel) (by decide +kernel) (by decide +kernel), by decide +kernel, by decide +kernel, by decide +kernel, by decide +kernel⟩,
   ⟨inFlight 0 (cmd 0x40 (some { tensor 0x1000 .int8 with scale := 1, scaleAddr := 0x4000 }) none (some { tensor 0x2000 .int8 with scale := 1, scaleAddr := 0x4000 }) 0), 0, (cmd 0x40 (some { tensor 0x1000 .int8 with scale := 1, scaleAddr := 0x4000 }) none (some { tensor 0x2000 .int8 with scale := 1, scaleAddr := 0x4000 }) 0), { tensor 0x1000 .int8 with scale := 1, scaleAddr := 0x4000 }, { tensor 0x2000 .int8 with scale := 1, scaleAddr := 0x4000 }, running_of (by decide +kernel) (by decide +kernel) (by decide +kernel) (by decide +kernel) (by decide +kernel), by decide +kernel, by decide +kernel, by decide +kernel, good_of rfl rfl rfl rfl (by decide +kernel) (by decide +kernel), fun j h => by
    have hn : ({ tensor 0x1000 .int8 with scale := 1, scaleAddr := 0x4000 }).nblk = 1 := by decide +kernel
    rw [hn] at h
    obtain rfl := Nat.lt_one_iff.mp h
    exact opens_of (by decide +kernel)⟩⟩

theorem witness_VectorCommandsComplete :
    (∃ (s : State) (q : Nat) (f : InFlight) (a w t : Tensor), (s.running q .binary f) ∧ (f.src0 = some a) ∧ (f.src1 = some w) ∧ (f.dst = some t) ∧ (let e := roundedEffect t f (fun i => binaryV (f.desc.p 7 0) (s.elem a (a.same (t.coords i))) (s.elem w (broadcastIdx w (t.coords i)))) (fun _ => false); (s.good q f false (binaryPlan a w t) e))) ∧
    (∃ (s : State) (q : Nat) (f : InFlight) (a t : Tensor), (s.running q .unary f) ∧ (f.src0 = some a) ∧ (f.dst = some t) ∧ (let e := roundedEffect t f (fun i => unaryV (f.desc.p 7 0) (s.elem a (a.same (t.coords i)))) (fun i => s.srcSat a (a.same (t.coords i))); (s.good q f false (unaryPlan a t) e))) ∧
    (∃ (s : State) (q : Nat) (f : InFlight) (a t : Tensor), (s.running q .pool f) ∧ (f.src0 = some a) ∧ (f.dst = some t) ∧ (let e := s.poolEffect f a t; (s.good q f false (poolPlan f a t) e))) ∧
    (∃ (s : State) (q : Nat) (f : InFlight) (a t : Tensor), (s.running q .reduce f) ∧ (f.src0 = some a) ∧ (f.dst = some t) ∧ (let e := s.reduceEffect f a t; (s.good q f false (reducePlan f a t) e))) ∧
    (∃ (s : State) (q : Nat) (f : InFlight) (a w t : Tensor), (s.running q .norm f) ∧ (f.src0 = some a) ∧ (f.src1 = some w) ∧ (f.dst = some t) ∧ (let e := s.normEffect f a w t; (s.good q f false (normPlan a w t) e))) :=
  ⟨⟨inFlight 0 (cmd 0x20 (some (tensor 0x1000 .int8)) (some (tensor 0x2000 .int8)) (some (tensor 0x3000 .int8)) 0), 0, (cmd 0x20 (some (tensor 0x1000 .int8)) (some (tensor 0x2000 .int8)) (some (tensor 0x3000 .int8)) 0), (tensor 0x1000 .int8), (tensor 0x2000 .int8), (tensor 0x3000 .int8), running_of (by decide +kernel) (by decide +kernel) (by decide +kernel) (by decide +kernel) (by decide +kernel), by decide +kernel, by decide +kernel, by decide +kernel, good_of rfl rfl rfl rfl (by decide +kernel) (by decide +kernel)⟩,
   ⟨inFlight 0 (cmd 0x21 (some (tensor 0x1000 .int8)) none (some (tensor 0x3000 .int8)) 0), 0, (cmd 0x21 (some (tensor 0x1000 .int8)) none (some (tensor 0x3000 .int8)) 0), (tensor 0x1000 .int8), (tensor 0x3000 .int8), running_of (by decide +kernel) (by decide +kernel) (by decide +kernel) (by decide +kernel) (by decide +kernel), by decide +kernel, by decide +kernel, good_of rfl rfl rfl rfl (by decide +kernel) (by decide +kernel)⟩,
   ⟨inFlight 0 (cmd 0x24 (some (tensor 0x1000 .int8)) none (some (tensor 0x3000 .int8)) 0), 0, (cmd 0x24 (some (tensor 0x1000 .int8)) none (some (tensor 0x3000 .int8)) 0), (tensor 0x1000 .int8), (tensor 0x3000 .int8), running_of (by decide +kernel) (by decide +kernel) (by decide +kernel) (by decide +kernel) (by decide +kernel), by decide +kernel, by decide +kernel, good_of rfl rfl rfl rfl (by decide +kernel) (by decide +kernel)⟩,
   ⟨inFlight 0 (cmd 0x23 (some (tensor 0x1000 .int8)) none (some (tensor 0x3000 .int8)) 0), 0, (cmd 0x23 (some (tensor 0x1000 .int8)) none (some (tensor 0x3000 .int8)) 0), (tensor 0x1000 .int8), (tensor 0x3000 .int8), running_of (by decide +kernel) (by decide +kernel) (by decide +kernel) (by decide +kernel) (by decide +kernel), by decide +kernel, by decide +kernel, good_of rfl rfl rfl rfl (by decide +kernel) (by decide +kernel)⟩,
   ⟨inFlight 0 (cmd 0x25 (some (tensor 0x1000 .int8)) (some (tensor 0x2000 .int8)) (some (tensor 0x3000 .int8)) 0), 0, (cmd 0x25 (some (tensor 0x1000 .int8)) (some (tensor 0x2000 .int8)) (some (tensor 0x3000 .int8)) 0), (tensor 0x1000 .int8), (tensor 0x2000 .int8), (tensor 0x3000 .int8), running_of (by decide +kernel) (by decide +kernel) (by decide +kernel) (by decide +kernel) (by decide +kernel), by decide +kernel, by decide +kernel, by decide +kernel, good_of rfl rfl rfl rfl (by decide +kernel) (by decide +kernel)⟩⟩

theorem witness_ConversionsComplete :
    (∃ (s : State) (q : Nat) (f : InFlight) (a t : Tensor), (s.running q .cvt f) ∧ (f.src0 = some a) ∧ (f.dst = some t) ∧ (let e := s.cvtEffect f a t; (s.good q f true (cvtPlan f a t) e))) ∧
    (∃ (s : State) (q : Nat) (f : InFlight) (a w t : Tensor), (s.running q .scatter f) ∧ (f.src0 = some a) ∧ (f.src1 = some w) ∧ (f.dst = some t) ∧ (let e := s.scatterEffect a w t; (s.good q f false (s.scatterPlan a w t) e))) ∧
    (∃ (s : State) (q : Nat) (f : InFlight) (a : Tensor), (s.running q .softmax f) ∧ (f.src0 = some a) ∧ (let r := s.softmaxReads (s.ctxOf q f) f a; (let w := State.storeAll (s.ctxOf q f) (s.softmaxWrites f a) r.st; (r.status = 0) ∧ (w.2 = 0)))) ∧
    (∃ (s : State) (q : Nat) (f : InFlight) (a : Tensor), (s.running q .softmax f) ∧ (f.src0 = some a) ∧ (let r := s.softmaxReads (s.ctxOf q f) f a; (let w := State.storeAll (s.ctxOf q f) (s.softmaxWrites f a) r.st; (r.status = 0) ∧ (w.2 ≠ 0)))) ∧
    (∃ (s : State) (q : Nat) (f : InFlight) (a : Tensor), (s.running q .softmax f) ∧ (f.src0 = some a) ∧ (let r := s.softmaxReads (s.ctxOf q f) f a; (r.status ≠ 0))) ∧
    (∃ (s : State) (q : Nat) (f : InFlight) (a : Tensor), (s.running q .softmax f) ∧ (f.src0 = some a) ∧ (s.sound) ∧ ((∀ p ∈ s.softmaxPlan f a, s.stepGood (s.ctxOf q f) f false p)) ∧ ((∀ x ∈ s.softmaxWrites f a, s.opens (s.ctxOf q f) x.1 x.2.length)) ∧ ((f.desc.p 49 48 = 1 → ∀ i : Nat, i < softmaxRows a → s.opens (s.ctxOf q f) (smAddr f.desc i) 32 ∧ (s.smOld f.desc i).next ≤ f.desc.p 56 51))) :=
  ⟨⟨inFlight 0 (cmd 0x22 (some (tensor 0x1000 .int8)) none (some (tensor 0x3000 .int8)) 0), 0, (cmd 0x22 (some (tensor 0x1000 .int8)) none (some (tensor 0x3000 .int8)) 0), (tensor 0x1000 .int8), (tensor 0x3000 .int8), running_of (by decide +kernel) (by decide +kernel) (by decide +kernel) (by decide +kernel) (by decide +kernel), by decide +kernel, by decide +kernel, good_of rfl rfl rfl rfl (by decide +kernel) (by decide +kernel)⟩,
   ⟨inFlight 0 (cmd 0x27 (some (tensor 0x1000 .int8)) (some (tensor 0x2000 .int8)) (some (tensor 0x3000 .int8)) 0), 0, (cmd 0x27 (some (tensor 0x1000 .int8)) (some (tensor 0x2000 .int8)) (some (tensor 0x3000 .int8)) 0), (tensor 0x1000 .int8), (tensor 0x2000 .int8), (tensor 0x3000 .int8), running_of (by decide +kernel) (by decide +kernel) (by decide +kernel) (by decide +kernel) (by decide +kernel), by decide +kernel, by decide +kernel, by decide +kernel, good_of rfl rfl rfl rfl (by decide +kernel) (by decide +kernel)⟩,
   ⟨inFlight 0 (cmd 0x26 (some (tensor 0x1000 .int8)) none (some (tensor 0x2000 .int8)) 0), 0, (cmd 0x26 (some (tensor 0x1000 .int8)) none (some (tensor 0x2000 .int8)) 0), (tensor 0x1000 .int8), running_of (by decide +kernel) (by decide +kernel) (by decide +kernel) (by decide +kernel) (by decide +kernel), by decide +kernel, by decide +kernel, by decide +kernel⟩,
   ⟨inFlight 0 (cmd 0x26 (some (tensor 0x1000 .int8)) none (some (tensor peatBase .int8)) 0), 0, (cmd 0x26 (some (tensor 0x1000 .int8)) none (some (tensor peatBase .int8)) 0), (tensor 0x1000 .int8), running_of (by decide +kernel) (by decide +kernel) (by decide +kernel) (by decide +kernel) (by decide +kernel), by decide +kernel, by decide +kernel, by decide +kernel⟩,
   ⟨inFlight 0 (cmd 0x26 (some (tensor peatBase .int8)) none (some (tensor 0x2000 .int8)) 0), 0, (cmd 0x26 (some (tensor peatBase .int8)) none (some (tensor 0x2000 .int8)) 0), (tensor peatBase .int8), running_of (by decide +kernel) (by decide +kernel) (by decide +kernel) (by decide +kernel) (by decide +kernel), by decide +kernel, by decide +kernel⟩,
   ⟨inFlight 0 (cmd 0x26 (some (tensor 0x1000 .int8)) none (some (tensor 0x2000 .int8)) 0), 0, (cmd 0x26 (some (tensor 0x1000 .int8)) none (some (tensor 0x2000 .int8)) 0), (tensor 0x1000 .int8), running_of (by decide +kernel) (by decide +kernel) (by decide +kernel) (by decide +kernel) (by decide +kernel), by decide +kernel, sound_of rfl rfl rfl rfl, fun p hp => stepGood_of (List.all_eq_true.mp (by decide +kernel) p hp), opensAll_of (by decide +kernel), fun h => absurd h (by decide +kernel)⟩⟩

theorem witness_MatrixCommandsComplete_1 :
    ∃ (s : State) (q : Nat) (f : InFlight) (a w t : Tensor), (s.running q .mm f) ∧ (f.src0 = some a) ∧ (f.src1 = some w) ∧ (f.dst = some t) ∧ (let j := MeJob.of .mm f.desc a w t; (let e := j.effect s f; (let d := s.ended q f true true false (j.plan f.desc) e; (d.status = 0)))) :=
  ⟨inFlight 0 (cmd 0x01 (some (tensor 0x1000 .int8)) (some (tensor 0x2000 .int8)) (some (tensor 0x3000 .int8)) 0), 0, (cmd 0x01 (some (tensor 0x1000 .int8)) (some (tensor 0x2000 .int8)) (some (tensor 0x3000 .int8)) 0), (tensor 0x1000 .int8), (tensor 0x2000 .int8), (tensor 0x3000 .int8), running_of (by decide +kernel) (by decide +kernel) (by decide +kernel) (by decide +kernel) (by decide +kernel), by decide +kernel, by decide +kernel, by decide +kernel, by decide +kernel⟩

theorem witness_MatrixCommandsComplete_2 :
    ∃ (s : State) (q : Nat) (f : InFlight) (a w t : Tensor), (s.running q .mm f) ∧ (f.src0 = some a) ∧ (f.src1 = some w) ∧ (f.dst = some t) ∧ (let j := MeJob.of .mm f.desc a w t; (let e := j.effect s f; (let d := s.ended q f true true false (j.plan f.desc) e; (d.status ≠ 0)))) :=
  ⟨inFlight 0 (cmd 0x01 (some (tensor peatBase .int8)) (some (tensor 0x2000 .int8)) (some (tensor 0x3000 .int8)) 0), 0, (cmd 0x01 (some (tensor peatBase .int8)) (some (tensor 0x2000 .int8)) (some (tensor 0x3000 .int8)) 0), (tensor peatBase .int8), (tensor 0x2000 .int8), (tensor 0x3000 .int8), running_of (by decide +kernel) (by decide +kernel) (by decide +kernel) (by decide +kernel) (by decide +kernel), by decide +kernel, by decide +kernel, by decide +kernel, by decide +kernel⟩

theorem witness_MatrixCommandsComplete_3 :
    ∃ (s : State) (q : Nat) (f : InFlight) (a w t : Tensor), (s.running q .mm f) ∧ (f.src0 = some a) ∧ (f.src1 = some w) ∧ (f.dst = some t) ∧ (let j := MeJob.of .mm f.desc a w t; (let e := j.effect s f; (s.good q f true (j.plan f.desc) e))) :=
  ⟨inFlight 0 (cmd 0x01 (some (tensor 0x1000 .int8)) (some (tensor 0x2000 .int8)) (some (tensor 0x3000 .int8)) 0), 0, (cmd 0x01 (some (tensor 0x1000 .int8)) (some (tensor 0x2000 .int8)) (some (tensor 0x3000 .int8)) 0), (tensor 0x1000 .int8), (tensor 0x2000 .int8), (tensor 0x3000 .int8), running_of (by decide +kernel) (by decide +kernel) (by decide +kernel) (by decide +kernel) (by decide +kernel), by decide +kernel, by decide +kernel, by decide +kernel, good_of rfl rfl rfl rfl (by decide +kernel) (by decide +kernel)⟩

theorem witness_MatrixCommandsComplete_4 :
    ∃ (s : State) (q : Nat) (f : InFlight) (a w t : Tensor), (s.running q .mm f) ∧ (f.src0 = some a) ∧ (f.src1 = some w) ∧ (f.dst = some t) ∧ (let j := MeJob.of .mm f.desc a w t; ∃ set : Nat × Nat, (f.swaps < j.sets.length) ∧ (j.sets.getLast? = some set)) :=
  ⟨inFlight 0 (cmd 0x01 (some (tensor 0x1000 .int8)) (some (tensor 0x2000 .int8)) (some (tensor 0x3000 .int8)) 0), 0, (cmd 0x01 (some (tensor 0x1000 .int8)) (some (tensor 0x2000 .int8)) (some (tensor 0x3000 .int8)) 0), (tensor 0x1000 .int8), (tensor 0x2000 .int8), (tensor 0x3000 .int8), running_of (by decide +kernel) (by decide +kernel) (by decide +kernel) (by decide +kernel) (by decide +kernel), by decide +kernel, by decide +kernel, by decide +kernel, (0, 0), by decide +kernel, by decide +kernel⟩

theorem witness_MatrixCommandsComplete_5 :
    ∃ (s : State) (q : Nat) (f : InFlight) (a w t : Tensor), (s.running q .mm f) ∧ (f.src0 = some a) ∧ (f.src1 = some w) ∧ (f.dst = some t) ∧ (let j := MeJob.of .mm f.desc a w t; (j.sets.length ≤ f.swaps)) :=
  ⟨inFlight 0 ({ (cmd 0x01 (some (tensor 0x1000 .int8)) (some (tensor 0x2000 .int8)) (some (tensor 0x3000 .int8)) 0) with swaps := 1 }), 0, { (cmd 0x01 (some (tensor 0x1000 .int8)) (some (tensor 0x2000 .int8)) (some (tensor 0x3000 .int8)) 0) with swaps := 1 }, (tensor 0x1000 .int8), (tensor 0x2000 .int8), (tensor 0x3000 .int8), running_of (by decide +kernel) (by decide +kernel) (by decide +kernel) (by decide +kernel) (by decide +kernel), by decide +kernel, by decide +kernel, by decide +kernel, by decide +kernel⟩

theorem witness_MatrixCommandsComplete_6 :
    ∃ (s : State) (q : Nat) (f : InFlight) (a w t : Tensor), (s.running q .mm f) ∧ (f.src0 = some a) ∧ (f.src1 = some w) ∧ (f.dst = some t) ∧ (let j := MeJob.of .mm f.desc a w t; (let e := j.effect s f; (let d := s.ended q f true true false (j.plan f.desc) e; (¬ ((s.tile f.tile).residue = true ∧ j.hasResidue = true ∧ j.badCols s f d.ready ≠ []))))) :=
  ⟨inFlight 0 (cmd 0x01 (some (tensor 0x1000 .int8)) (some (tensor 0x2000 .int8)) (some (tensor 0x3000 .int8)) 0), 0, (cmd 0x01 (some (tensor 0x1000 .int8)) (some (tensor 0x2000 .int8)) (some (tensor 0x3000 .int8)) 0), (tensor 0x1000 .int8), (tensor 0x2000 .int8), (tensor 0x3000 .int8), running_of (by decide +kernel) (by decide +kernel) (by decide +kernel) (by decide +kernel) (by decide +kernel), by decide +kernel, by decide +kernel, by decide +kernel, by decide +kernel⟩

theorem witness_MatrixCommandsComplete_7 :
    ∃ (s : State) (q : Nat) (f : InFlight) (a w t : Tensor), (s.running q .mm f) ∧ (f.src0 = some a) ∧ (f.src1 = some w) ∧ (f.dst = some t) ∧ (let j := MeJob.of .mm f.desc a w t; (let e := j.effect s f; (let d := s.ended q f true true false (j.plan f.desc) e; ∃ col : Nat, ((s.tile f.tile).residue = true) ∧ (j.hasResidue = true) ∧ ((j.badCols s f d.ready).getLast? = some col)))) :=
  by
    let s : State := { inFlight 0 (cmd 0x01 (some (tensor 0x1000 .int8)) (some (tensor 0x2000 .int8)) (some (tensor 0x3000 .int8)) 0) with tiles := [(0, { ({} : TileSt) with residue := true })], slots := [(0, { ({} : SlotSt) with colErr := [(0, 1)] })] }
    let f : InFlight := (cmd 0x01 (some (tensor 0x1000 .int8)) (some (tensor 0x2000 .int8)) (some (tensor 0x3000 .int8)) 0)
    let j := MeJob.of .mm f.desc (tensor 0x1000 .int8) (tensor 0x2000 .int8) (tensor 0x3000 .int8)
    have h : (j.badCols s f (s.ended 0 f true true false (j.plan f.desc) (j.effect s f)).ready).isEmpty = false := by decide +kernel
    obtain ⟨col, hc⟩ := last_of h
    exact ⟨s, 0, f, (tensor 0x1000 .int8), (tensor 0x2000 .int8), (tensor 0x3000 .int8), running_of (by decide +kernel) (by decide +kernel) (by decide +kernel) (by decide +kernel) (by decide +kernel),
      rfl, rfl, rfl, col, by decide +kernel, by decide +kernel, hc⟩

theorem witness_MatrixCommandsComplete_8 :
    ∃ (s : State) (q : Nat) (f : InFlight) (a w t : Tensor), (s.running q .conv f) ∧ (f.src0 = some a) ∧ (f.src1 = some w) ∧ (f.dst = some t) ∧ (let j := MeJob.of .conv f.desc a w t; (let e := j.effect s f; (let d := s.ended q f true true false (j.plan f.desc) e; (d.status = 0)))) :=
  ⟨inFlight 0 (cmd 0x02 (some (tensor 0x1000 .int8)) (some (tensor 0x2000 .int8)) (some (tensor 0x3000 .int8)) 0x2108421), 0, (cmd 0x02 (some (tensor 0x1000 .int8)) (some (tensor 0x2000 .int8)) (some (tensor 0x3000 .int8)) 0x2108421), (tensor 0x1000 .int8), (tensor 0x2000 .int8), (tensor 0x3000 .int8), running_of (by decide +kernel) (by decide +kernel) (by decide +kernel) (by decide +kernel) (by decide +kernel), by decide +kernel, by decide +kernel, by decide +kernel, by decide +kernel⟩

theorem witness_MatrixCommandsComplete_9 :
    ∃ (s : State) (q : Nat) (f : InFlight) (a w t : Tensor), (s.running q .conv f) ∧ (f.src0 = some a) ∧ (f.src1 = some w) ∧ (f.dst = some t) ∧ (let j := MeJob.of .conv f.desc a w t; (let e := j.effect s f; (let d := s.ended q f true true false (j.plan f.desc) e; (d.status ≠ 0)))) :=
  ⟨inFlight 0 (cmd 0x02 (some (tensor peatBase .int8)) (some (tensor 0x2000 .int8)) (some (tensor 0x3000 .int8)) 0x2108421), 0, (cmd 0x02 (some (tensor peatBase .int8)) (some (tensor 0x2000 .int8)) (some (tensor 0x3000 .int8)) 0x2108421), (tensor peatBase .int8), (tensor 0x2000 .int8), (tensor 0x3000 .int8), running_of (by decide +kernel) (by decide +kernel) (by decide +kernel) (by decide +kernel) (by decide +kernel), by decide +kernel, by decide +kernel, by decide +kernel, by decide +kernel⟩

theorem witness_MatrixCommandsComplete_10 :
    ∃ (s : State) (q : Nat) (f : InFlight) (a w t : Tensor), (s.running q .conv f) ∧ (f.src0 = some a) ∧ (f.src1 = some w) ∧ (f.dst = some t) ∧ (let j := MeJob.of .conv f.desc a w t; (let e := j.effect s f; (s.good q f true (j.plan f.desc) e))) :=
  ⟨inFlight 0 (cmd 0x02 (some (tensor 0x1000 .int8)) (some (tensor 0x2000 .int8)) (some (tensor 0x3000 .int8)) 0x2108421), 0, (cmd 0x02 (some (tensor 0x1000 .int8)) (some (tensor 0x2000 .int8)) (some (tensor 0x3000 .int8)) 0x2108421), (tensor 0x1000 .int8), (tensor 0x2000 .int8), (tensor 0x3000 .int8), running_of (by decide +kernel) (by decide +kernel) (by decide +kernel) (by decide +kernel) (by decide +kernel), by decide +kernel, by decide +kernel, by decide +kernel, good_of rfl rfl rfl rfl (by decide +kernel) (by decide +kernel)⟩

theorem witness_MatrixCommandsComplete_11 :
    ∃ (s : State) (q : Nat) (f : InFlight) (a w t : Tensor), (s.running q .conv f) ∧ (f.src0 = some a) ∧ (f.src1 = some w) ∧ (f.dst = some t) ∧ (let j := MeJob.of .conv f.desc a w t; ∃ set : Nat × Nat, (f.swaps < j.sets.length) ∧ (j.sets.getLast? = some set)) :=
  ⟨inFlight 0 (cmd 0x02 (some (tensor 0x1000 .int8)) (some (tensor 0x2000 .int8)) (some (tensor 0x3000 .int8)) 0x2108421), 0, (cmd 0x02 (some (tensor 0x1000 .int8)) (some (tensor 0x2000 .int8)) (some (tensor 0x3000 .int8)) 0x2108421), (tensor 0x1000 .int8), (tensor 0x2000 .int8), (tensor 0x3000 .int8), running_of (by decide +kernel) (by decide +kernel) (by decide +kernel) (by decide +kernel) (by decide +kernel), by decide +kernel, by decide +kernel, by decide +kernel, (0, 0), by decide +kernel, by decide +kernel⟩

theorem witness_MatrixCommandsComplete_12 :
    ∃ (s : State) (q : Nat) (f : InFlight) (a w t : Tensor), (s.running q .conv f) ∧ (f.src0 = some a) ∧ (f.src1 = some w) ∧ (f.dst = some t) ∧ (let j := MeJob.of .conv f.desc a w t; (j.sets.length ≤ f.swaps)) :=
  ⟨inFlight 0 ({ (cmd 0x02 (some (tensor 0x1000 .int8)) (some (tensor 0x2000 .int8)) (some (tensor 0x3000 .int8)) 0x2108421) with swaps := 1 }), 0, { (cmd 0x02 (some (tensor 0x1000 .int8)) (some (tensor 0x2000 .int8)) (some (tensor 0x3000 .int8)) 0x2108421) with swaps := 1 }, (tensor 0x1000 .int8), (tensor 0x2000 .int8), (tensor 0x3000 .int8), running_of (by decide +kernel) (by decide +kernel) (by decide +kernel) (by decide +kernel) (by decide +kernel), by decide +kernel, by decide +kernel, by decide +kernel, by decide +kernel⟩

theorem witness_MatrixCommandsComplete_13 :
    ∃ (s : State) (q : Nat) (f : InFlight) (a w t : Tensor), (s.running q .conv f) ∧ (f.src0 = some a) ∧ (f.src1 = some w) ∧ (f.dst = some t) ∧ (let j := MeJob.of .conv f.desc a w t; (let e := j.effect s f; (let d := s.ended q f true true false (j.plan f.desc) e; (¬ ((s.tile f.tile).residue = true ∧ j.hasResidue = true ∧ j.badCols s f d.ready ≠ []))))) :=
  ⟨inFlight 0 (cmd 0x02 (some (tensor 0x1000 .int8)) (some (tensor 0x2000 .int8)) (some (tensor 0x3000 .int8)) 0x2108421), 0, (cmd 0x02 (some (tensor 0x1000 .int8)) (some (tensor 0x2000 .int8)) (some (tensor 0x3000 .int8)) 0x2108421), (tensor 0x1000 .int8), (tensor 0x2000 .int8), (tensor 0x3000 .int8), running_of (by decide +kernel) (by decide +kernel) (by decide +kernel) (by decide +kernel) (by decide +kernel), by decide +kernel, by decide +kernel, by decide +kernel, by decide +kernel⟩

theorem witness_MatrixCommandsComplete_14 :
    ∃ (s : State) (q : Nat) (f : InFlight) (a w t : Tensor), (s.running q .conv f) ∧ (f.src0 = some a) ∧ (f.src1 = some w) ∧ (f.dst = some t) ∧ (let j := MeJob.of .conv f.desc a w t; (let e := j.effect s f; (let d := s.ended q f true true false (j.plan f.desc) e; ∃ col : Nat, ((s.tile f.tile).residue = true) ∧ (j.hasResidue = true) ∧ ((j.badCols s f d.ready).getLast? = some col)))) :=
  by
    let s : State := { inFlight 0 (cmd 0x02 (some (tensor 0x1000 .int8)) (some (tensor 0x2000 .int8)) (some (tensor 0x3000 .int8)) 0x2108421) with tiles := [(0, { ({} : TileSt) with residue := true })], slots := [(0, { ({} : SlotSt) with colErr := [(0, 1)] })] }
    let f : InFlight := (cmd 0x02 (some (tensor 0x1000 .int8)) (some (tensor 0x2000 .int8)) (some (tensor 0x3000 .int8)) 0x2108421)
    let j := MeJob.of .conv f.desc (tensor 0x1000 .int8) (tensor 0x2000 .int8) (tensor 0x3000 .int8)
    have h : (j.badCols s f (s.ended 0 f true true false (j.plan f.desc) (j.effect s f)).ready).isEmpty = false := by decide +kernel
    obtain ⟨col, hc⟩ := last_of h
    exact ⟨s, 0, f, (tensor 0x1000 .int8), (tensor 0x2000 .int8), (tensor 0x3000 .int8), running_of (by decide +kernel) (by decide +kernel) (by decide +kernel) (by decide +kernel) (by decide +kernel),
      rfl, rfl, rfl, col, by decide +kernel, by decide +kernel, hc⟩

theorem witness_GoldenSliceSignature :
    (∃ (s : State) (q : Nat) (f : InFlight) (a w t : Tensor), (s.running q .gslice f) ∧ (f.src0 = some a) ∧ (f.src1 = some w) ∧ (f.dst = some t) ∧ (let j := MeJob.of .gslice f.desc a w t; (let e := j.effect s f; (let d := s.endedWith q f true true false (sliceVerdict f) (j.plan f.desc) e; (d.status = 0))))) ∧
    (∃ (s : State) (q : Nat) (f : InFlight) (a w t : Tensor), (s.running q .gslice f) ∧ (f.src0 = some a) ∧ (f.src1 = some w) ∧ (f.dst = some t) ∧ (let j := MeJob.of .gslice f.desc a w t; (let e := j.effect s f; (let d := s.endedWith q f true true false (sliceVerdict f) (j.plan f.desc) e; (d.status ≠ 0) ∧ (d.status ≠ 0x50))))) ∧
    (∃ (s : State) (q : Nat) (f : InFlight) (a w t : Tensor), (s.running q .gslice f) ∧ (f.src0 = some a) ∧ (f.src1 = some w) ∧ (f.dst = some t) ∧ (let j := MeJob.of .gslice f.desc a w t; (let e := j.effect s f; (let plain := s.ended q f true false false (j.plan f.desc) e; (s.good q f true (j.plan f.desc) e) ∧ (crc 5 (plain.st.peek t.base t.storedBytes) = f.desc.param.toNat))))) ∧
    (∃ (s : State) (q : Nat) (f : InFlight) (a w t : Tensor), (s.running q .gslice f) ∧ (f.src0 = some a) ∧ (f.src1 = some w) ∧ (f.dst = some t) ∧ (let j := MeJob.of .gslice f.desc a w t; (let e := j.effect s f; (let plain := s.ended q f true false false (j.plan f.desc) e; (s.good q f true (j.plan f.desc) e) ∧ (crc 5 (plain.st.peek t.base t.storedBytes) ≠ f.desc.param.toNat))))) :=
  ⟨⟨inFlight 0 (cmd 0x03 (some (tensor 0x1000 .int8)) (some (tensor 0x2000 .int8)) (some (tensor 0x3000 .int8)) 4760390118429842055), 0, (cmd 0x03 (some (tensor 0x1000 .int8)) (some (tensor 0x2000 .int8)) (some (tensor 0x3000 .int8)) 4760390118429842055), (tensor 0x1000 .int8), (tensor 0x2000 .int8), (tensor 0x3000 .int8), running_of (by decide +kernel) (by decide +kernel) (by decide +kernel) (by decide +kernel) (by decide +kernel), by decide +kernel, by decide +kernel, by decide +kernel, by decide +kernel⟩,
   ⟨inFlight 0 (cmd 0x03 (some (tensor peatBase .int8)) (some (tensor 0x2000 .int8)) (some (tensor 0x3000 .int8)) 0), 0, (cmd 0x03 (some (tensor peatBase .int8)) (some (tensor 0x2000 .int8)) (some (tensor 0x3000 .int8)) 0), (tensor peatBase .int8), (tensor 0x2000 .int8), (tensor 0x3000 .int8), running_of (by decide +kernel) (by decide +kernel) (by decide +kernel) (by decide +kernel) (by decide +kernel), by decide +kernel, by decide +kernel, by decide +kernel, by decide +kernel, by decide +kernel⟩,
   ⟨inFlight 0 (cmd 0x03 (some (tensor 0x1000 .int8)) (some (tensor 0x2000 .int8)) (some (tensor 0x3000 .int8)) 4760390118429842055), 0, (cmd 0x03 (some (tensor 0x1000 .int8)) (some (tensor 0x2000 .int8)) (some (tensor 0x3000 .int8)) 4760390118429842055), (tensor 0x1000 .int8), (tensor 0x2000 .int8), (tensor 0x3000 .int8), running_of (by decide +kernel) (by decide +kernel) (by decide +kernel) (by decide +kernel) (by decide +kernel), by decide +kernel, by decide +kernel, by decide +kernel, good_of rfl rfl rfl rfl (by decide +kernel) (by decide +kernel), by decide +kernel⟩,
   ⟨inFlight 0 (cmd 0x03 (some (tensor 0x1000 .int8)) (some (tensor 0x2000 .int8)) (some (tensor 0x3000 .int8)) 0), 0, (cmd 0x03 (some (tensor 0x1000 .int8)) (some (tensor 0x2000 .int8)) (some (tensor 0x3000 .int8)) 0), (tensor 0x1000 .int8), (tensor 0x2000 .int8), (tensor 0x3000 .int8), running_of (by decide +kernel) (by decide +kernel) (by decide +kernel) (by decide +kernel) (by decide +kernel), by decide +kernel, by decide +kernel, by decide +kernel, good_of rfl rfl rfl rfl (by decide +kernel) (by decide +kernel), by decide +kernel⟩⟩

theorem witness_SendAndPublish_1 :
    ∃ (s : State) (q : Nat) (f : InFlight) (a : Tensor), (s.running q .send f) ∧ (f.src0 = some a) ∧ (let plan := (if a.fmt = .xa96 then a.elemIdx.map (moveRead a) else [.raw a.base a.storedBytes]) ++ (if a.scale = 0 then [] else [.raw (a.base + a.trailerOff) a.nblk]); (let r := Run.plan (s.ctxOf q f) f false plan { st := s }; ((r.status = 0 ∧ r.st.tileTakes f.tile (f.desc.p 5 0) = true) ∨ (s.sound ∧ (∀ p ∈ plan, s.stepGood (s.ctxOf q f) f false p) ∧ s.tileTakes f.tile (f.desc.p 5 0) = true)) ∧ (f.desc.p 9 6 = s.chip))) :=
  ⟨inFlight 0 (cmd 0x42 (some (tensor 0x1000 .int8)) none none 0), 0, (cmd 0x42 (some (tensor 0x1000 .int8)) none none 0), (tensor 0x1000 .int8), running_of (by decide +kernel) (by decide +kernel) (by decide +kernel) (by decide +kernel) (by decide +kernel), by decide +kernel, Or.inl (by decide +kernel), by decide +kernel⟩

theorem witness_SendAndPublish_2 :
    ∃ (s : State) (q : Nat) (f : InFlight) (a : Tensor), (s.running q .send f) ∧ (f.src0 = some a) ∧ (let plan := (if a.fmt = .xa96 then a.elemIdx.map (moveRead a) else [.raw a.base a.storedBytes]) ++ (if a.scale = 0 then [] else [.raw (a.base + a.trailerOff) a.nblk]); (let r := Run.plan (s.ctxOf q f) f false plan { st := s }; (r.status ≠ 0))) :=
  ⟨inFlight 0 (cmd 0x42 (some (tensor peatBase .int8)) none none 0), 0, (cmd 0x42 (some (tensor peatBase .int8)) none none 0), (tensor peatBase .int8), running_of (by decide +kernel) (by decide +kernel) (by decide +kernel) (by decide +kernel) (by decide +kernel), by decide +kernel, by decide +kernel⟩

theorem witness_SendAndPublish_3 :
    ∃ (s : State) (q : Nat) (f : InFlight) (a : Tensor), (s.running q .send f) ∧ (f.src0 = some a) ∧ (let plan := (if a.fmt = .xa96 then a.elemIdx.map (moveRead a) else [.raw a.base a.storedBytes]) ++ (if a.scale = 0 then [] else [.raw (a.base + a.trailerOff) a.nblk]); (let r := Run.plan (s.ctxOf q f) f false plan { st := s }; (r.status = 0) ∧ (f.desc.p 9 6 = s.chip) ∧ (r.st.tileTakes f.tile (f.desc.p 5 0) = false))) :=
  ⟨{ inFlight 0 (cmd 0x42 (some (tensor 0x1000 .int8)) none none 63) with dies := [(3, { liveDie with u := unitState .suspect })] }, 0, (cmd 0x42 (some (tensor 0x1000 .int8)) none none 63), (tensor 0x1000 .int8), running_of (by decide +kernel) (by decide +kernel) (by decide +kernel) (by decide +kernel) (by decide +kernel), by decide +kernel, by decide +kernel, by decide +kernel, by decide +kernel⟩

theorem witness_SendAndPublish_4 :
    ∃ (s : State) (q : Nat) (f : InFlight) (a : Tensor), (s.running q .send f) ∧ (f.src0 = some a) ∧ (let plan := (if a.fmt = .xa96 then a.elemIdx.map (moveRead a) else [.raw a.base a.storedBytes]) ++ (if a.scale = 0 then [] else [.raw (a.base + a.trailerOff) a.nblk]); (let r := Run.plan (s.ctxOf q f) f false plan { st := s }; (r.status = 0) ∧ (f.desc.p 9 6 ≠ s.chip))) :=
  ⟨inFlight 0 (cmd 0x42 (some (tensor 0x1000 .int8)) none none 0x40), 0, (cmd 0x42 (some (tensor 0x1000 .int8)) none none 0x40), (tensor 0x1000 .int8), running_of (by decide +kernel) (by decide +kernel) (by decide +kernel) (by decide +kernel) (by decide +kernel), by decide +kernel, by decide +kernel, by decide +kernel⟩

theorem witness_SendAndPublish_5 :
    ∃ (s : State) (q : Nat) (f : InFlight) (a : Tensor), (s.running q .publish f) ∧ (f.src0 = some a) ∧ (let r := Run.plan (s.ctxOf q f) f false [.raw a.base a.storedBytes, .raw f.desc.src1.toNat 8] { st := s }; (r.status ≠ 0)) :=
  ⟨inFlight 0 (cmd 0x44 (some (tensor peatBase .int8)) none none 0), 0, (cmd 0x44 (some (tensor peatBase .int8)) none none 0), (tensor peatBase .int8), running_of (by decide +kernel) (by decide +kernel) (by decide +kernel) (by decide +kernel) (by decide +kernel), by decide +kernel, by decide +kernel⟩

theorem witness_SendAndPublish_6 :
    ∃ (s : State) (q : Nat) (f : InFlight) (a : Tensor), (s.running q .publish f) ∧ (f.src0 = some a) ∧ (let r := Run.plan (s.ctxOf q f) f false [.raw a.base a.storedBytes, .raw f.desc.src1.toNat 8] { st := s }; (r.status = 0) ∧ (r.st.tileTakes f.tile r.st.commitTile = false)) :=
  ⟨{ inFlight 0 (cmd 0x44 (some (tensor 0x1000 .int8)) none none 0) with dies := [(0, { liveDie with u := unitState .suspect })] }, 0, (cmd 0x44 (some (tensor 0x1000 .int8)) none none 0), (tensor 0x1000 .int8), running_of (by decide +kernel) (by decide +kernel) (by decide +kernel) (by decide +kernel) (by decide +kernel), by decide +kernel, by decide +kernel, by decide +kernel⟩

theorem witness_SendAndPublish_7 :
    ∃ (s : State) (tile q pos : Nat) (m : Message) (rest : List Message), ((s.tile tile).msgs = m :: rest) ∧ (m.sender = some (q, pos)) ∧ (s.tileReachable tile = false) :=
  ⟨{ State.reset with tiles := [(63, { ({} : TileSt) with windows := [(15, { defined := true, base := 0, size := 8 })], msgs := [{ window := 15, offset := 4, extent := 4, parts := [(0, [1, 2, 3, 4])], signal := none, sender := some (0, 0) }] })], dies := [(3, { liveDie with u := unitState .suspect })] }, 63, 0, 0, { window := 15, offset := 4, extent := 4, parts := [(0, [1, 2, 3, 4])], signal := none, sender := some (0, 0) }, [], by decide +kernel, by decide +kernel, by decide +kernel⟩

theorem witness_SendAndPublish_8 :
    ∃ (s : State) (tile q pos : Nat) (m : Message) (rest : List Message), ((s.tile tile).msgs = m :: rest) ∧ (m.sender = some (q, pos)) ∧ (let w := SMap.get {} (s.tile tile).windows m.window; (let s0 := s.updTile tile (fun x => { x with msgs := rest }); (let r := State.storeParts (tile * tileSize + w.base + m.offset) m.parts s0; (tile < s.part.tiles) ∧ (s.tileReachable tile = true) ∧ (w.defined = true) ∧ (m.offset + m.extent ≤ w.size) ∧ (r.2 ≠ 0)))) :=
  ⟨{ State.reset with tiles := [(63, { ({} : TileSt) with windows := [(15, { defined := true, base := 0, size := 8 })], msgs := [{ window := 15, offset := 4, extent := 4, parts := [(0, [1, 2, 3, 4])], signal := none, sender := some (0, 0) }] })], flips := [(0x1F800000, [20, 40, 60])] }, 63, 0, 0, { window := 15, offset := 4, extent := 4, parts := [(0, [1, 2, 3, 4])], signal := none, sender := some (0, 0) }, [], by decide +kernel, by decide +kernel, by decide +kernel, by decide +kernel, by decide +kernel, by decide +kernel, by decide +kernel⟩

theorem witness_SendAndPublish_9 :
    ∃ (s : State) (q : Nat) (f : InFlight) (a : Tensor), (s.running q .publish f) ∧ (f.src0 = some a) ∧ (let r := Run.plan (s.ctxOf q f) f false [.raw a.base a.storedBytes, .raw f.desc.src1.toNat 8] { st := s }; ((r.status = 0 ∧ r.st.tileTakes f.tile r.st.commitTile = true) ∨ (s.sound ∧ s.opens (s.ctxOf q f) a.base a.storedBytes ∧ s.opens (s.ctxOf q f) f.desc.src1.toNat 8 ∧ s.tileTakes f.tile s.commitTile = true))) :=
  ⟨inFlight 0 (cmd 0x44 (some (tensor 0x1000 .int8)) none none 0), 0, (cmd 0x44 (some (tensor 0x1000 .int8)) none none 0), (tensor 0x1000 .int8), running_of (by decide +kernel) (by decide +kernel) (by decide +kernel) (by decide +kernel) (by decide +kernel), by decide +kernel, Or.inl (by decide +kernel)⟩

theorem witness_CommandStartTakesHead :
    (∃ (s : State) (q tile : Nat) (a : QueueAlloc), (s.alloc q = some a) ∧ (s.startTile a = some tile) ∧ (s.arbitrated a tile = true)) ∧
    (∃ (s : State) (q tile : Nat) (a : QueueAlloc), (s.alloc q = some a) ∧ (s.startTile a = none) ∧ (s.headReady a = true) ∧ (s.headWaits a (tileOfQueue q) = true)) :=
  ⟨⟨{ inFlight 0 {} with queues := [(0, { ({} : QueueSt) with tail := 1 })] }, 0, 0, (allocAt 0), by decide +kernel, by decide +kernel, by decide +kernel⟩,
   ⟨{ inFlight 0 {} with image := some { Image.blank with queues := [{ allocAt 0 with engine := 3 }] }, queues := [(0, { ({} : QueueSt) with tail := 1 })], mem := SMap.setBytes [] 0 waitingHead }, 0, 0, { allocAt 0 with engine := 3 }, by decide +kernel, by decide +kernel, by decide +kernel, by decide +kernel⟩⟩

theorem witness_CommandRetireCompletes :
    ∃ (s : State) (q : Nat) (cycles : Word) (f : InFlight) (rest : List InFlight) (a : QueueAlloc), ((s.queue q).inflight = f :: rest) ∧ (s.allocOf q f = some a) ∧ (a.queue = q) ∧ (f.executed = true) ∧ (f.acksDue = 0) ∧ ((f.status ≠ 0 ∨ f.sigDone = true ∨ f.desc.hasSignal = false)) ∧ (Op.ofCode f.desc.opcode.toNat ≠ some .msgwin) ∧ (Op.ofCode f.desc.opcode.toNat ≠ some .setsync) ∧ ((s.put (completionAddr a f.pos.toNat) (completionEntry (completionAddr a f.pos.toNat) f cycles.toNat (tileOfQueue q))).suspects = []) :=
  ⟨inFlight 32767 ({ (cmd 0x60 none none none 0) with executed := true }), 32767, 7, { (cmd 0x60 none none none 0) with executed := true }, [], allocAt 32767, by decide +kernel, by decide +kernel, by decide +kernel, by decide +kernel, by decide +kernel, by decide +kernel, by decide +kernel, by decide +kernel, by decide +kernel⟩

theorem witness_RetireSignals :
    (∃ (s : State) (q : Nat) (cycles : Word) (f : InFlight) (rest : List InFlight) (a : QueueAlloc), ((s.queue q).inflight = f :: rest) ∧ (s.allocOf q f = some a) ∧ (f.executed = true) ∧ (f.acksDue = 0) ∧ (f.status = 0) ∧ (f.sigDone = false) ∧ (f.desc.hasSignal = true) ∧ (Op.ofCode f.desc.opcode.toNat ≠ some .setsync) ∧ (refChip f.desc.signalRef.toNat = s.chip) ∧ (s.clusterTakes (refCluster f.desc.signalRef.toNat) (s.draining f.tile) = true)) ∧
    (∃ (s : State) (q : Nat) (cycles : Word) (f : InFlight) (rest : List InFlight) (a : QueueAlloc), ((s.queue q).inflight = f :: rest) ∧ (s.allocOf q f = some a) ∧ (f.executed = true) ∧ (f.acksDue = 0) ∧ (f.status = 0) ∧ (f.sigDone = true) ∧ (Op.ofCode f.desc.opcode.toNat = some .setsync) ∧ (refChip f.desc.signalRef.toNat = s.chip) ∧ (s.clusterTakes (refCluster f.desc.signalRef.toNat) (s.draining f.tile) = true)) ∧
    (∃ (s : State) (q : Nat) (cycles : Word) (f : InFlight) (rest : List InFlight) (a : QueueAlloc), ((s.queue q).inflight = f :: rest) ∧ (s.allocOf q f = some a) ∧ (f.executed = true) ∧ (f.acksDue = 0) ∧ (f.status = 0) ∧ (f.sigDone = false) ∧ (f.desc.hasSignal = true) ∧ (Op.ofCode f.desc.opcode.toNat ≠ some .setsync) ∧ (Op.ofCode f.desc.opcode.toNat ≠ some .msgwin) ∧ (refChip f.desc.signalRef.toNat ≠ s.chip) ∧ (let r := s.sendRequest (dieOfTile f.tile) (signalPacket f.desc.signalRef.toNat f.desc.signalAdd.toNat) q f.pos.toNat; (r.2 = 0))) ∧
    (∃ (s : State) (q : Nat) (cycles : Word) (f : InFlight) (rest : List InFlight) (a : QueueAlloc), ((s.queue q).inflight = f :: rest) ∧ (s.allocOf q f = some a) ∧ (f.executed = true) ∧ (f.acksDue = 0) ∧ (f.status = 0) ∧ (f.sigDone = false) ∧ (f.desc.hasSignal = true) ∧ (Op.ofCode f.desc.opcode.toNat ≠ some .setsync) ∧ (Op.ofCode f.desc.opcode.toNat ≠ some .msgwin) ∧ (refChip f.desc.signalRef.toNat ≠ s.chip) ∧ (let r := s.sendRequest (dieOfTile f.tile) (signalPacket f.desc.signalRef.toNat f.desc.signalAdd.toNat) q f.pos.toNat; (r.2 ≠ 0))) :=
  ⟨⟨inFlight 32767 ({ (cmd 0x60 none none none 0) with executed := true, desc := { ({} : Desc) with opcode := 0x60, flags := 2, signalRef := 0x7FFF } }), 32767, 7, { (cmd 0x60 none none none 0) with executed := true, desc := { ({} : Desc) with opcode := 0x60, flags := 2, signalRef := 0x7FFF } }, [], allocAt 32767, by decide +kernel, by decide +kernel, by decide +kernel, by decide +kernel, by decide +kernel, by decide +kernel, by decide +kernel, by decide +kernel, by decide +kernel, by decide +kernel⟩,
   ⟨inFlight 32767 ({ (cmd 0x61 none none none 0) with executed := true, sigDone := true, desc := { ({} : Desc) with opcode := 0x61, signalRef := 0x7FFF } }), 32767, 7, { (cmd 0x61 none none none 0) with executed := true, sigDone := true, desc := { ({} : Desc) with opcode := 0x61, signalRef := 0x7FFF } }, [], allocAt 32767, by decide +kernel, by decide +kernel, by decide +kernel, by decide +kernel, by decide +kernel, by decide +kernel, by decide +kernel, by decide +kernel, by decide +kernel⟩,
   ⟨{ inFlight 0 ({ (cmd 0x60 none none none 0) with executed := true, desc := { ({} : Desc) with opcode := 0x60, flags := 2, signalRef := 0x17FFF } }) with lat := { ({} : LatSt) with numbered := true, routes := [(1, 0x7770)] }, dies := [(0, { liveDie with port := { ({} : PortSt) with state := 2 } })] }, 0, 7, { (cmd 0x60 none none none 0) with executed := true, desc := { ({} : Desc) with opcode := 0x60, flags := 2, signalRef := 0x17FFF } }, [], allocAt 0, by decide +kernel, by decide +kernel, by decide +kernel, by decide +kernel, by decide +kernel, by decide +kernel, by decide +kernel, by decide +kernel, by decide +kernel, by decide +kernel, by decide +kernel⟩,
   ⟨inFlight 32767 ({ (cmd 0x60 none none none 0) with executed := true, desc := { ({} : Desc) with opcode := 0x60, flags := 2, signalRef := 0x17FFF } }), 32767, 7, { (cmd 0x60 none none none 0) with executed := true, desc := { ({} : Desc) with opcode := 0x60, flags := 2, signalRef := 0x17FFF } }, [], allocAt 32767, by decide +kernel, by decide +kernel, by decide +kernel, by decide +kernel, by decide +kernel, by decide +kernel, by decide +kernel, by decide +kernel, by decide +kernel, by decide +kernel, by decide +kernel⟩⟩

theorem witness_DoorbellRule :
    (∃ (s : State) (q : Nat) (value : Word) (a : QueueAlloc), (q < s.part.queues) ∧ (s.alloc q = some a) ∧ (s.tileOpen (tileOfQueue q) = true) ∧ (2 ^ a.ringLog2 < (value.toNat % 2 ^ 16 + 2 ^ 16 - (s.queue q).head.toNat) % 2 ^ 16)) ∧
    (∃ (s : State) (q : Nat) (value : Word) (a : QueueAlloc), (q < s.part.queues) ∧ (s.alloc q = some a) ∧ (s.tileOpen (tileOfQueue q) = true) ∧ ((value.toNat % 2 ^ 16 + 2 ^ 16 - (s.queue q).head.toNat) % 2 ^ 16 ≤ 2 ^ a.ringLog2)) :=
  ⟨⟨inFlight 32767 {}, 32767, 9, allocAt 32767, by decide +kernel, by decide +kernel, by decide +kernel, by decide +kernel⟩,
   ⟨inFlight 32767 {}, 32767, 8, allocAt 32767, by decide +kernel, by decide +kernel, by decide +kernel, by decide +kernel⟩⟩

theorem witness_MessageArrives :
    (∃ (s : State) (tile : Nat) (m : Message) (rest : List Message), ((s.tile tile).msgs = m :: rest) ∧ (tile < s.part.tiles) ∧ (s.tileReachable tile = true) ∧ (let w := SMap.get {} (s.tile tile).windows m.window; ((w.defined = false ∨ w.size < m.offset + m.extent)))) ∧
    (∃ (s : State) (tile : Nat) (m : Message) (rest : List Message), ((s.tile tile).msgs = m :: rest) ∧ (tile < s.part.tiles) ∧ (s.tileReachable tile = true) ∧ (let w := SMap.get {} (s.tile tile).windows m.window; (let s0 := s.updTile tile (fun x => { x with msgs := rest }); (let r := State.storeParts (tile * tileSize + w.base + m.offset) m.parts s0; (w.defined = true) ∧ (m.offset + m.extent ≤ w.size) ∧ (r.2 = 0) ∧ (m.signal = none) ∧ ∃ q pos : Nat, (m.sender = some (q, pos)))))) ∧
    (∃ (s : State) (tile : Nat) (m : Message) (rest : List Message), ((s.tile tile).msgs = m :: rest) ∧ (tile < s.part.tiles) ∧ (s.tileReachable tile = true) ∧ (let w := SMap.get {} (s.tile tile).windows m.window; (let s0 := s.updTile tile (fun x => { x with msgs := rest }); (let r := State.storeParts (tile * tileSize + w.base + m.offset) m.parts s0; (w.defined = true) ∧ (m.offset + m.extent ≤ w.size) ∧ (r.2 = 0) ∧ ∃ (g : Word × Word) (q pos : Nat), (m.signal = some g) ∧ (m.sender = some (q, pos)))))) :=
  ⟨⟨{ State.reset with tiles := [(63, { ({} : TileSt) with windows := [(15, { defined := true, base := 0, size := 7 })], msgs := [{ window := 15, offset := 4, extent := 4, parts := [(0, [1, 2, 3, 4])], signal := none, sender := some (0, 0) }] })] }, 63, { window := 15, offset := 4, extent := 4, parts := [(0, [1, 2, 3, 4])], signal := none, sender := some (0, 0) }, [], by decide +kernel, by decide +kernel, by decide +kernel, by decide +kernel⟩,
   ⟨{ State.reset with tiles := [(63, { ({} : TileSt) with windows := [(15, { defined := true, base := 0, size := 8 })], msgs := [{ window := 15, offset := 4, extent := 4, parts := [(0, [1, 2, 3, 4])], signal := none, sender := some (0, 0) }] })] }, 63, { window := 15, offset := 4, extent := 4, parts := [(0, [1, 2, 3, 4])], signal := none, sender := some (0, 0) }, [], by decide +kernel, by decide +kernel, by decide +kernel, by decide +kernel, by decide +kernel, by decide +kernel, by decide +kernel, 0, 0, by decide +kernel⟩,
   ⟨{ State.reset with tiles := [(63, { ({} : TileSt) with windows := [(15, { defined := true, base := 0, size := 8 })], msgs := [{ window := 15, offset := 4, extent := 4, parts := [(0, [1, 2, 3, 4])], signal := some (0, 1), sender := some (0, 0) }] })] }, 63, { window := 15, offset := 4, extent := 4, parts := [(0, [1, 2, 3, 4])], signal := some (0, 1), sender := some (0, 0) }, [], by decide +kernel, by decide +kernel, by decide +kernel, by decide +kernel, by decide +kernel, by decide +kernel, (0, 1), 0, 0, by decide +kernel, by decide +kernel⟩⟩

theorem witness_StagingTakesUpdates :
    (∃ (s : State) (u : StageUpdate) (rest : List StageUpdate), (s.beat.staging.updates = u :: rest) ∧ (s.commitDue = false)) ∧
    (∃ s : State, (s.commitDue = true ∨ s.beat.staging.updates = [])) :=
  ⟨⟨{ State.reset with beat := { ({} : BeatSt) with staging := { ({} : StagingSt) with updates := [{ sender := (0, 0), off := 0, bytes := [1], capture := 0 }] } } }, { sender := (0, 0), off := 0, bytes := [1], capture := 0 }, [], by decide +kernel, by decide +kernel⟩,
   ⟨{ started Image.blank 2000 with beat := { ({} : BeatSt) with next := 1 } }, Or.inl (by decide +kernel)⟩⟩

theorem witness_ShadowSwap :
    ∃ (s : State) (tile q : Nat) (o : Op) (f : InFlight) (j : MeJob) (set : Nat × Nat), (s.meLoading tile = some (q, f)) ∧ (Op.ofCode f.desc.opcode.toNat = some o) ∧ (f.meJob o = some j) ∧ (j.sets[f.swaps]? = some set) ∧ ((j.setReadable (s.ctxOf q f) f s set = true ∨ (s.sound ∧ ∀ p ∈ j.weightReads set.1 set.2, s.stepGood (s.ctxOf q f) f true p))) :=
  ⟨inFlight 0 (cmd 0x01 (some (tensor 0x1000 .int8)) (some (tensor 0x2000 .int8)) (some (tensor 0x3000 .int8)) 0), 0, 0, .mm, (cmd 0x01 (some (tensor 0x1000 .int8)) (some (tensor 0x2000 .int8)) (some (tensor 0x3000 .int8)) 0), MeJob.of .mm (cmd 0x01 (some (tensor 0x1000 .int8)) (some (tensor 0x2000 .int8)) (some (tensor 0x3000 .int8)) 0).desc (tensor 0x1000 .int8) (tensor 0x2000 .int8) (tensor 0x3000 .int8), (0, 0), by decide +kernel, by decide +kernel, rfl, by decide +kernel, Or.inl (by decide +kernel)⟩

theorem witness_BeatStartCounts :
    (∃ s : State, (s.beatDue = true) ∧ (s.isBoundary s.beat.next = false) ∧ (s.suspects = []) ∧ (s.ctx.heldEntries = [])) ∧
    (∃ s : State, (s.beatDue = true) ∧ (s.isBoundary s.beat.next = true) ∧ (s.ctx.heldEntries = [])) ∧
    (∃ s : State, (s.beatDue = false)) :=
  ⟨⟨{ started Image.blank 2000 with beat := { ({} : BeatSt) with next := 1 } }, by decide +kernel, by decide +kernel, by decide +kernel, by decide +kernel⟩,
   ⟨started Image.blank 0, by decide +kernel, by decide +kernel, by decide +kernel⟩,
   ⟨State.reset, by decide +kernel⟩⟩

theorem witness_BeatGrid :
    ∃ (s : State) (n k : Nat), (0 < s.beatNs) ∧ (s.beatNs ≤ s.frameNs) :=
  ⟨State.reset, 16667, 1, by decide +kernel, by decide +kernel⟩

theorem witness_CreditsDiscardedAtBoundary :
    (∃ s : State, ∃ t : Nat, ((∀ a : QueueAlloc, a ∈ s.img.queues → tileOfQueue a.queue = t → (s.queue a.queue).credit = 0))) ∧
    (∃ s : State, ∃ a : QueueAlloc, (a ∈ s.img.queues) ∧ ((∀ b : QueueAlloc, b ∈ s.img.queues → tileOfQueue b.queue = tileOfQueue a.queue → b.queue ≠ a.queue → (s.queue b.queue).credit = 0)) ∧ ((s.queue a.queue).credit ≠ 0)) :=
  ⟨⟨State.reset, 0, fun a h => absurd h (by simp [State.img, State.reset, Image.blank])⟩,
   ⟨{ inFlight 0 {} with queues := [(0, { ({} : QueueSt) with credit := 255 })] }, allocAt 0, by decide +kernel, by decide +kernel, by decide +kernel⟩⟩

theorem witness_ScheduleEntries :
    (∃ (s : State) (e : SchedEntry), (s.schedDue = some e) ∧ (e.release = true) ∧ (s.tileInService (tileOfQueue e.queue) = true)) ∧
    (∃ (s : State) (e : SchedEntry), (s.schedDue = some e) ∧ (e.release = true) ∧ (s.tileInService (tileOfQueue e.queue) = false)) ∧
    (∃ (s : State) (e : SchedEntry), (s.schedDue = some e) ∧ (e.release = false) ∧ (s.clusterOpen (refCluster e.sync) = true)) ∧
    (∃ (s : State) (e : SchedEntry), (s.schedDue = some e) ∧ (e.release = false) ∧ (s.clusterOpen (refCluster e.sync) = false)) ∧
    (∃ s : State, ((∀ e : SchedEntry, s.schedDue = some e → e.release = false))) ∧
    (∃ s : State, ((∀ e : SchedEntry, s.schedDue = some e → e.release = true))) :=
  ⟨⟨{ started (scheduleOf (entry true)) 0 with beat := { ({} : BeatSt) with next := 1 } }, entry true, by decide +kernel, by decide +kernel, by decide +kernel⟩,
   ⟨{ started (scheduleOf (entry true)) 0 with beat := { ({} : BeatSt) with next := 1 }, dies := [(3, { liveDie with u := { ({} : UnitSt) with state := .suspect } })] }, entry true, by decide +kernel, by decide +kernel, by decide +kernel⟩,
   ⟨{ started (scheduleOf (entry false)) 0 with beat := { ({} : BeatSt) with next := 1 } }, entry false, by decide +kernel, by decide +kernel, by decide +kernel⟩,
   ⟨{ started (scheduleOf (entry false)) 0 with beat := { ({} : BeatSt) with next := 1 }, dies := [(3, { liveDie with u := { ({} : UnitSt) with state := .suspect } })] }, entry false, by decide +kernel, by decide +kernel, by decide +kernel⟩,
   ⟨State.reset, fun e h => absurd h (by rw [(by decide +kernel : State.reset.schedDue = none)]; simp)⟩,
   ⟨State.reset, fun e h => absurd h (by rw [(by decide +kernel : State.reset.schedDue = none)]; simp)⟩⟩

theorem witness_RecordCommitWrites :
    (∃ (s : State) (x : Nat × Option Nat), (s.started = true) ∧ (s.beat.commitNext < s.beat.next) ∧ (s.beatStart (s.beat.commitNext + 1) ≤ s.now) ∧ (s.schedOfBeat s.beat.commitNext = x) ∧ (s.tileInService (s.commitTileOf s.beat.commitNext) = true) ∧ (regionOfTile (s.commitTileOf s.beat.commitNext) ∉ s.beat.missOrder) ∧ (s.beat.gap = 0) ∧ (s.ringFull = false)) ∧
    (∃ (s : State) (x : Nat × Option Nat), (s.started = true) ∧ (s.beat.commitNext < s.beat.next) ∧ (s.beatStart (s.beat.commitNext + 1) ≤ s.now) ∧ (s.schedOfBeat s.beat.commitNext = x) ∧ (s.tileInService (s.commitTileOf s.beat.commitNext) = true) ∧ (regionOfTile (s.commitTileOf s.beat.commitNext) ∉ s.beat.missOrder) ∧ (s.beat.gap = 0) ∧ (s.ringFull = true)) ∧
    (∃ (s : State), (s.commitDue = true) ∧ (s.tileInService (s.commitTileOf s.beat.commitNext) = true) ∧ (regionOfTile (s.commitTileOf s.beat.commitNext) ∉ s.beat.missOrder) ∧ (s.beat.gap ≠ 0)) ∧
    (∃ s : State, (s.commitDue = false)) ∧
    (∃ s : State, (s.commitDue = true) ∧ ((s.tileInService (s.commitTileOf s.beat.commitNext) = false ∨ regionOfTile (s.commitTileOf s.beat.commitNext) ∈ s.beat.missOrder))) :=
  ⟨⟨{ started Image.blank 2000 with beat := { ({} : BeatSt) with next := 1 } }, (0, none), by decide +kernel, by decide +kernel, by decide +kernel, by decide +kernel, by decide +kernel, by decide +kernel, by decide +kernel, by decide +kernel⟩,
   ⟨{ started Image.blank 2000 with beat := { ({} : BeatSt) with next := 1, wrSeq := 256 } }, (0, none), by decide +kernel, by decide +kernel, by decide +kernel, by decide +kernel, by decide +kernel, by decide +kernel, by decide +kernel, by decide +kernel⟩,
   ⟨{ started Image.blank 2000 with beat := { ({} : BeatSt) with next := 1, gap := 1 } }, by decide +kernel, by decide +kernel, by decide +kernel, by decide +kernel⟩,
   ⟨State.reset, by decide +kernel⟩,
   ⟨{ started Image.blank 2000 with beat := { ({} : BeatSt) with next := 1, missOrder := [0] } }, by decide +kernel, Or.inr (by decide +kernel)⟩⟩

theorem witness_EventRaising :
    (∃ (s : State) (sev unit status : Nat) (stamp : Stamp) (detail : List Byte), (s.link.events.length < 1024)) ∧
    (∃ (s : State) (sev unit status : Nat) (stamp : Stamp) (detail : List Byte), (1024 ≤ s.link.events.length)) ∧
    (∃ (s : State) (sev unit status : Nat) (stamp : Stamp) (detail : List Byte), (sevRequestsSafe sev = true) ∧ (s.unrequested) ∧ (s.isBench = false)) ∧
    (∃ (s : State) (sev unit status : Nat) (stamp : Stamp) (detail : List Byte), (sevRequestsSafe sev = true) ∧ (s.unrequested) ∧ (s.isBench = true)) ∧
    (∃ (s : State) (sev unit status : Nat) (stamp : Stamp) (detail : List Byte), (sevRequestsSafe sev = false)) :=
  ⟨⟨{ State.reset with link := { ({} : HostLinkSt) with events := List.replicate 1023 { word0 := 0, stamp := {} } } }, 301, 255, 0, {}, [], by decide +kernel⟩,
   ⟨{ State.reset with link := { ({} : HostLinkSt) with events := List.replicate 1024 { word0 := 0, stamp := {} } } }, 301, 255, 0, {}, [], by decide +kernel⟩,
   ⟨State.reset, 24, 255, 0, {}, [], by decide +kernel, ⟨by decide +kernel, by decide +kernel⟩, by decide +kernel⟩,
   ⟨{ State.reset with image := some (safetyImage 3) }, 3, 255, 0, {}, [], by decide +kernel, ⟨by decide +kernel, by decide +kernel⟩, by decide +kernel⟩,
   ⟨State.reset, 15, 255, 0, {}, [], by decide +kernel⟩⟩

theorem witness_MirrorChecks :
    (∃ (s : State) (m : Mirror) (rest : List Mirror) (recordOk : Bool), (s.saf.mirrors = m :: rest) ∧ (m.check = crc16Fold m.beat m.header)) ∧
    (∃ (s : State) (m : Mirror) (rest : List Mirror) (headerOk recordOk : Bool), (s.saf.mirrors = m :: rest) ∧ ((headerOk = false ∨ m.check ≠ crc16Fold m.beat m.header))) ∧
    (∃ s : State, (s.started = true) ∧ (s.mirrorDeadline s.saf.mirrorNext < s.now)) :=
  ⟨⟨{ State.reset with saf := { ({} : SafetySt) with mirrors := [{ beat := 0, header := zeros 32, check := crc16Fold 0 (zeros 32), full := [], marked := false, reepochOnly := false }] } }, { beat := 0, header := zeros 32, check := crc16Fold 0 (zeros 32), full := [], marked := false, reepochOnly := false }, [], true, by decide +kernel, by decide +kernel⟩,
   ⟨{ State.reset with saf := { ({} : SafetySt) with mirrors := [{ beat := 0, header := zeros 32, check := crc16Fold 1 (zeros 32), full := [], marked := false, reepochOnly := false }] } }, { beat := 0, header := zeros 32, check := crc16Fold 1 (zeros 32), full := [], marked := false, reepochOnly := false }, [], true, true, by decide +kernel, by decide +kernel⟩,
   ⟨started Image.blank 4001, by decide +kernel, by decide +kernel⟩⟩

theorem witness_CompareOutcome :
    ∃ (s : State), (s.cmpDue s.saf.cmpNext = true) ∧ ((∀ m : Mirror × Bool, s.mirroredFor s.saf.cmpNext = some m → m.1.reepochOnly = false)) :=
  ⟨started (safetyImage 1) 33400000, by decide +kernel, fun m h => by simp [State.mirroredFor, started, State.reset] at h⟩

theorem witness_SafeStateOutputs :
    (∃ s : State, (s.saf.req = false)) ∧
    (∃ s : State, (s.saf.req = true) ∧ (s.releaseOk = false)) ∧
    (∃ s : State, (s.saf.req = true) ∧ (s.releaseOk = true) ∧ (s.started = true)) ∧
    (∃ s : State, (s.saf.req = true) ∧ (s.releaseOk = true) ∧ (s.started = false)) :=
  ⟨⟨State.reset, by decide +kernel⟩,
   ⟨{ State.reset with saf := { ({} : SafetySt) with req := true } }, by decide +kernel, by decide +kernel⟩,
   ⟨{ started Image.blank 0 with saf := { ({} : SafetySt) with req := true }, beat := { ({} : BeatSt) with frame := 2 } }, by decide +kernel, by decide +kernel, by decide +kernel⟩,
   ⟨{ State.reset with saf := { ({} : SafetySt) with req := true }, beat := { ({} : BeatSt) with frame := 2 } }, by decide +kernel, by decide +kernel, by decide +kernel⟩⟩

theorem witness_CheckerAndChecksums :
    (∃ (s : State) (r : CheckerRun), (s.saf.run = some r)) ∧
    (∃ (s : State) (i cvu : Nat) (e : ChkSum), (s.img.checker.sums[i]? = some e) ∧ (s.sumUnit e = some cvu) ∧ (s.sumWaiter i = none) ∧ (s.started = true) ∧ (0 < s.beat.next) ∧ (s.beat.frame = 0) ∧ (i ∉ s.saf.sumsDone) ∧ (s.sumInOrder i e s.saf.sumsDone = true)) :=
  ⟨⟨{ State.reset with saf := { ({} : SafetySt) with run := some { k := 0, noInput := true, bufs := [], startedAt := 0 } } }, { k := 0, noInput := true, bufs := [], startedAt := 0 }, by decide +kernel⟩,
   ⟨{ started { Image.blank with checker := { Image.blank.checker with sums := [{ region := 7, addr := 0, len := 64, crc64 := 0 }] } } 0 with beat := { ({} : BeatSt) with next := 1 } }, 0, 14, { region := 7, addr := 0, len := 64, crc64 := 0 }, by decide +kernel, by decide +kernel, by decide +kernel, by decide +kernel, by decide +kernel, by decide +kernel, by decide +kernel, by decide +kernel⟩⟩

theorem witness_SelfTests :
    (∃ (s : State) (g : TestTarget) (unit : Nat), (s.testExists g unit = true) ∧ (s.testRuns g unit = true) ∧ (s.testUnit g unit = none)) ∧
    (∃ (s : State) (g : TestTarget) (unit : Nat) (k : UnitKind) (u : Nat), (s.testExists g unit = true) ∧ (s.testRuns g unit = true) ∧ (s.testUnit g unit = some (k, u)) ∧ (s.underRecovery k u = false) ∧ (s.recoveryHeld k u = false) ∧ (s.suspects = []) ∧ ((s.die (dieOfUnit k u)).fences = [])) ∧
    (∃ (s : State) (g : TestTarget) (unit : Nat) (pass : Bool), (s.testRuns g unit = false)) ∧
    (∃ (s : State) (g : TestTarget) (unit : Nat), (s.started = true) ∧ (s.testExists g unit = true) ∧ (max s.saf.testsFrom (SMap.get (0, 0) s.saf.tests (testKey g unit)).2 + nsInst (s.img.safety.latentMs * 1000000) < s.mono)) :=
  ⟨⟨State.reset, .checkerEngine, 0, by decide +kernel, by decide +kernel, by decide +kernel⟩,
   ⟨{ started Image.blank 0 with beat := { ({} : BeatSt) with next := 1 } }, .tileEcc, 63, .slot, 78, by decide +kernel, by decide +kernel, by decide +kernel, by decide +kernel, by decide +kernel, by decide +kernel, by decide +kernel⟩,
   ⟨State.reset, .tileEcc, 63, true, by decide +kernel⟩,
   ⟨started Image.blank 1000000002, .tileEcc, 63, by decide +kernel, by decide +kernel, by decide +kernel⟩⟩

theorem witness_AshLogCommands :
    (∃ s : State, (64 ≤ s.ash.page.length ∨ (s.ash.page ≠ [] ∧ s.ash.pageAt + nsInst (10 ^ 9) ≤ s.mono))) ∧
    (∃ s : State, (s.ash.rdBusy = true)) :=
  ⟨⟨{ State.reset with ash := { ({} : AshSt) with page := List.replicate 64 [] } }, by decide +kernel⟩,
   ⟨{ State.reset with ash := { ({} : AshSt) with rdBusy := true } }, by decide +kernel⟩⟩

theorem witness_CameraIntake :
    (∃ (s : State) (receiver vc : Nat) (fn : Half) (b : CameraBind) (k : Nat), (s.bindAt receiver vc = some b) ∧ (s.isReplay = false) ∧ (s.dieDown (receiver / 2) = false) ∧ ((s.cam b.camera).cur = none) ∧ (s.frameAt (s.toEpoch (s.captureStamp b s.draws).epoch (s.captureStamp b s.draws).at_) = some k)) ∧
    (∃ (s : State) (receiver vc : Nat) (payload : List Byte) (b : CameraBind) (j : FrameJob) (c : IntakeCamera), (s.bindAt receiver vc = some b) ∧ (s.rxJob b = some j) ∧ (s.intakeOf b.camera = some c) ∧ (s.dieDown (receiver / 2) = false) ∧ (j.lines < c.height) ∧ ((unpackRaw b.dataType payload).length = c.width)) ∧
    (∃ (s : State) (receiver vc : Nat) (b : CameraBind) (j : FrameJob) (c : IntakeCamera), (s.bindAt receiver vc = some b) ∧ (s.rxJob b = some j) ∧ (s.intakeOf b.camera = some c) ∧ (s.dieDown (receiver / 2) = false) ∧ (j.emb = c.embLines) ∧ (c.height ≤ j.lines) ∧ (j.faulty = false)) ∧
    (∃ (s : State) (receiver vc : Nat) (b : CameraBind) (j : FrameJob) (c : IntakeCamera), (s.bindAt receiver vc = some b) ∧ (s.rxJob b = some j) ∧ (s.intakeOf b.camera = some c) ∧ (s.dieDown (receiver / 2) = false) ∧ (j.emb = c.embLines) ∧ (j.lines < c.height)) ∧
    (∃ (s : State) (b : CameraBind), (s.bindOf b.camera = some b) ∧ (s.started = true) ∧ (s.isReplay = false) ∧ (let first := match (s.cam b.camera).lastStart with | some p => p + 1 | none => 0; (let j := max first (s.cam b.camera).lostTo; (s.frameStart (j + 1) + nsInst b.latencyNs ≤ s.now)))) :=
  ⟨⟨started (sensorImage 1) 66666666, 7, 15, 0, bind31, _, by decide +kernel, by decide +kernel, by decide +kernel, by decide +kernel, frameAt_of (by decide +kernel) (by decide +kernel)⟩,
   ⟨receiving 1, 7, 15, [1, 2], bind31, job31 1, intake31, by decide +kernel, by decide +kernel, by decide +kernel, by decide +kernel, by decide +kernel, by decide +kernel⟩,
   ⟨receiving 2, 7, 15, bind31, job31 2, intake31, by decide +kernel, by decide +kernel, by decide +kernel, by decide +kernel, by decide +kernel, by decide +kernel, by decide +kernel⟩,
   ⟨receiving 1, 7, 15, bind31, job31 1, intake31, by decide +kernel, by decide +kernel, by decide +kernel, by decide +kernel, by decide +kernel, by decide +kernel⟩,
   ⟨receiving 1, bind31, by decide +kernel, by decide +kernel, by decide +kernel, by decide +kernel⟩⟩

theorem witness_PipelineFrames :
    (∃ (s : State) (p : Nat) (v : IspView) (j : FrameJob), (p < 16) ∧ (s.dieDown (p / 4) = false) ∧ ((s.pipe p).cur = none) ∧ ((s.pipe p).chosen = none) ∧ (s.nextJob p = some (v, j)) ∧ (v.bind.pipe = p) ∧ (s.suspects = [])) ∧
    (∃ (s : State) (p : Nat) (v : IspView) (j : FrameJob), (p < 16) ∧ ((s.pipe p).cur = some j) ∧ (j.ended = true) ∧ (s.dieDown (p / 4) = false) ∧ (s.ispView j.camera = some v) ∧ (v.bind.pipe = p)) ∧
    (∃ (s : State) (d i : Nat) (w : Word), (d < 4) ∧ (i < 8) ∧ (s.dieOpen d = true)) :=
  ⟨⟨{ started (sensorImage 1) 0 with cams := [(31, { ({} : CamSt) with waiting := [job31 2] })] }, 15, view31, job31 2, by decide +kernel, by decide +kernel, by decide +kernel, by decide +kernel, rfl, by decide +kernel, by decide +kernel⟩,
   ⟨{ started (sensorImage 1) 0 with pipes := [(15, { ({} : PipeSt) with cur := some { job31 2 with ended := true, void := true } })] }, 15, view31, { job31 2 with ended := true, void := true }, by decide +kernel, by decide +kernel, by decide +kernel, by decide +kernel, rfl, by decide +kernel⟩,
   ⟨started (sensorImage 1) 0, 3, 7, 0xC0000000, by decide +kernel, by decide +kernel, by decide +kernel⟩⟩

theorem witness_RangeIntake :
    (∃ (s : State) (mac : Nat) (x : Stamp) (replay : Bool) (b : List Byte) (rest : List (Stamp × Bool × List Byte)), (mac < 4) ∧ ((s.mac mac).buf = (x, replay, b) :: rest) ∧ (s.matchPacket mac replay b = none)) ∧
    (∃ (s : State) (mac : Nat) (x : Stamp) (replay : Bool) (b : List Byte) (rest : List (Stamp × Bool × List Byte)), (mac < 4) ∧ ((s.mac mac).buf = (x, replay, b) :: rest) ∧ ∃ (n k : Nat) (r : RangeTemplate) (p : List Byte), (s.matchPacket mac replay b = some (n, r, p)) ∧ (s.frameAt (s.toEpoch x.epoch (x.at_ - nsInst r.latencyNs)) = some k) ∧ (k < s.range.next ∨ s.gridCloseAt k ≤ s.now ∨ x.epoch ≠ s.tb.epoch)) ∧
    (∃ (s : State) (mac : Nat) (r : ReplayRing), (mac < 4) ∧ (s.isReplay = true) ∧ (s.started = true) ∧ (s.replayRing mac = some r) ∧ (s.suspects = []) ∧ (s.sound) ∧ (let a := s.img.carveBase r.ringCarve + r.ringOff + (s.mac mac).replayPos % 2 ^ r.ringLog2 * 2048; (let d := (s.fetch a 2048).data; (leAt d 62 2 = crc16Fold a (d.take 62)) ∧ (timeWordNs (timeWordOf (s.mac mac).replayAt) ≤ timeWordNs (leAt d 0 8)) ∧ (timeWordNs (leAt d 0 8) ≤ timeWordNs (timeWordOf s.now))))) ∧
    (∃ s : State, (s.started = true) ∧ (s.gridCloseAt s.range.next ≤ s.now)) :=
  ⟨⟨{ started Image.blank 0 with range := { ({} : RangeSt) with macs := [(3, { ({} : RangeMacSt) with buf := [({}, false, [])] })] } }, 3, {}, false, [], [], by decide +kernel, by decide +kernel, by decide +kernel⟩,
   ⟨{ started (sensorImage 1) 0 with range := { ({} : RangeSt) with macs := [(3, { ({} : RangeMacSt) with buf := [({ at_ := 0, epoch := 1 }, true, [0])] })] } }, 3, { at_ := 0, epoch := 1 }, true, [0], [], by decide +kernel, by decide +kernel, 0, 0, template3, [], by decide +kernel, by decide +kernel, by decide +kernel⟩,
   ⟨{ started (sensorImage 2) 0 with mem := SMap.setBytes [] peatBase (zeros 62 ++ leBytes 2 (crc16Fold peatBase (zeros 62))) }, 3, { unit := 3, ringCarve := 0, ringLog2 := 2, ringOff := 0 }, by decide +kernel, by decide +kernel, by decide +kernel, by decide +kernel, by decide +kernel, sound_of rfl rfl rfl rfl, by decide +kernel, by decide +kernel, by decide +kernel⟩,
   ⟨started Image.blank 33333333, by decide +kernel, by decide +kernel⟩⟩

theorem witness_ReplayDecoders :
    (∃ (s : State) (d : Nat) (w : Word) (r : ReplayRing), (d < 4) ∧ (s.dieOpen d = true) ∧ (s.decRing d = some r) ∧ (let room := decide ((w.toNat % 2 ^ 15 + 2 ^ 15 - (s.die d).dec.head.toNat) % 2 ^ 15 ≤ 2 ^ r.ringLog2); (room = true))) ∧
    (∃ (s : State) (d : Nat) (w : Word) (r : ReplayRing), (d < 4) ∧ (s.dieOpen d = true) ∧ (s.decRing d = some r) ∧ (let room := decide ((w.toNat % 2 ^ 15 + 2 ^ 15 - (s.die d).dec.head.toNat) % 2 ^ 15 ≤ 2 ^ r.ringLog2); (room = false))) ∧
    (∃ (s : State) (d : Nat) (r : ReplayRing), (d < 4) ∧ ((s.die d).dec.err = false) ∧ ((s.die d).dec.busy = false) ∧ ((s.die d).dec.head ≠ (s.die d).dec.tail) ∧ (s.isReplay = true) ∧ (s.dieDown d = false) ∧ (s.decRing d = some r) ∧ (s.suspects = []) ∧ (s.sound) ∧ (let a := s.img.carveBase r.ringCarve + r.ringOff + (s.die d).dec.head.toNat % 2 ^ r.ringLog2 * 64; (let e := (s.fetch a 64).data; (s.entryOk d a e = false)))) ∧
    (∃ (s : State) (d : Nat) (r : ReplayRing), (d < 4) ∧ ((s.die d).dec.err = false) ∧ ((s.die d).dec.busy = false) ∧ ((s.die d).dec.head ≠ (s.die d).dec.tail) ∧ (s.isReplay = true) ∧ (s.dieDown d = false) ∧ (s.decRing d = some r) ∧ (s.suspects = []) ∧ (s.sound) ∧ (let a := s.img.carveBase r.ringCarve + r.ringOff + (s.die d).dec.head.toNat % 2 ^ r.ringLog2 * 64; (let e := (s.fetch a 64).data; ∃ (v : IspView) (w h : Nat) (dec : Unit → Option (List (List Nat) × Bool)) (planes : List (List Nat)), (s.entryOk d a e = true) ∧ (s.decDue d e = true) ∧ (s.bitsMatch e = true) ∧ (s.hostReach (entSrc e) (entLength e) = true) ∧ (s.hostReach (entLine e) 64 = true) ∧ (s.ispView (entCamera e) = some v) ∧ (((s.frameAt (s.dieFrameTime d)).getD 0 : Int) ≤ s.entK e d) ∧ ((leAt e 1 1 = 0 ∨ (s.region (entRegion e)).rngValid = true)) ∧ (headerChecks (entFormat e) (s.entRatio e * entLength e) v.intake.width v.intake.height (entAug e 0) (entAug e 1) (s.fetch (entSrc e) (entLength e)).data = .inr (w, h, dec)) ∧ (dec () = some (planes, false))))) ∧
    (∃ (s : State) (d : Nat), (d < 4) ∧ ((s.die d).dec.busy = true) ∧ (s.dieDown d = false)) ∧
    (∃ (s : State) (d : Nat) (o : Offer) (capOff : Nat) (rest : List (Offer × Nat)) (v : IspView), (d < 4) ∧ (s.dieDown d = false) ∧ ((s.die d).dec.offers = (o, capOff) :: rest) ∧ (s.ispView o.camera = some v) ∧ ((s.jobsOf v.bind).length < 2) ∧ ((s.t0 + nsInst (o.frame * s.frameNs + capOff)).toNat + nsInst v.bind.latencyNs ≤ s.dieFrameTime d)) :=
  ⟨⟨started (sensorImage 2) 0, 3, 4, { unit := 3, ringCarve := 0, ringLog2 := 2, ringOff := 0 }, by decide +kernel, by decide +kernel, by decide +kernel, by decide +kernel⟩,
   ⟨started (sensorImage 2) 0, 3, 5, { unit := 3, ringCarve := 0, ringLog2 := 2, ringOff := 0 }, by decide +kernel, by decide +kernel, by decide +kernel, by decide +kernel⟩,
   ⟨replaying [] [], 3, { unit := 3, ringCarve := 0, ringLog2 := 2, ringOff := 0 }, by decide +kernel, by decide +kernel, by decide +kernel, by decide +kernel, by decide +kernel, by decide +kernel, by decide +kernel, by decide +kernel, sound_of rfl rfl rfl rfl, by decide +kernel⟩,
   by
      let s : State := goodReplay
      have hs : s.sound := goodReplay_sound
      let e := (s.fetch (s.img.carveBase 0 + 0 + (s.die 3).dec.head.toNat % 2 ^ 2 * 64) 64).data
      obtain ⟨w, h, dec, planes, h1, h2⟩ := decodes_of (x := headerChecks (entFormat e) (s.entRatio e * entLength e) view31.intake.width
        view31.intake.height (entAug e 0) (entAug e 1) (s.fetch (entSrc e) (entLength e)).data) (by decide +kernel)
      exact ⟨goodReplay, 3, { unit := 3, ringCarve := 0, ringLog2 := 2, ringOff := 0 }, by decide +kernel, by decide +kernel, by decide +kernel, by decide +kernel, by decide +kernel, by decide +kernel,
        by decide +kernel, by decide +kernel, hs, view31, w, h, dec, planes, by decide +kernel, by decide +kernel, by decide +kernel,
        by decide +kernel, by decide +kernel, goodReplay_view, by decide +kernel, by decide +kernel, h1, h2⟩,
   ⟨{ started Image.blank 0 with dies := [(3, { liveDie with dec := { ({} : DecoderSt) with busy := true } })] }, 3, by decide +kernel, by decide +kernel, by decide +kernel⟩,
   ⟨{ started (sensorImage 2) 0 with dies := [(3, { liveDie with dec := { ({} : DecoderSt) with offers := [({ ({} : Offer) with camera := 31 }, 0)] } })] }, 3, { ({} : Offer) with camera := 31 }, 0, [], view31, by decide +kernel, by decide +kernel, by decide +kernel, rfl, by decide +kernel, by decide +kernel⟩⟩

theorem witness_TimeBaseCounter :
    ∃ s : State, (s.timeRuns = true) ∧ (s.tb.ns.toNat < 10 ^ 9) ∧ (s.tb.incr.toNat < 10 ^ 9 * 2 ^ 32) :=
  ⟨{ started Image.blank 999999999 with tb := { (started Image.blank 999999999).tb with incr := BitVec.allOnes 36 &&& 0x9FFFFFFFF#36 } }, by decide +kernel, by decide +kernel, by decide +kernel⟩

theorem witness_StepAndReepoch_1 :
    ∃ (s : State) (lo hi : Word), (s.timeRuns = false ∨ s.mono < s.upd.servicesFrom) :=
  ⟨State.reset, 4294967, 2, by decide +kernel⟩

theorem witness_StepAndReepoch_2 :
    ∃ (s : State) (lo hi : Word), (let v := lo.toNat + hi.toNat % 16 * 2 ^ 32; (let d := 2 ^ 33 * s.img.time.slewPpm / 10 ^ 6; (s.timeRuns = true) ∧ (s.upd.servicesFrom ≤ s.mono) ∧ (2 ^ 33 ≤ v + d ∧ v ≤ 2 ^ 33 + d))) :=
  ⟨({ State.reset with boot := .running } : State), 4294967, 2, by decide +kernel, by decide +kernel, by decide +kernel⟩

theorem witness_StepAndReepoch_3 :
    ∃ (s : State) (lo hi : Word), (let v := lo.toNat + hi.toNat % 16 * 2 ^ 32; (let d := 2 ^ 33 * s.img.time.slewPpm / 10 ^ 6; (s.timeRuns = true) ∧ (s.upd.servicesFrom ≤ s.mono) ∧ (v + d < 2 ^ 33 ∨ 2 ^ 33 + d < v))) :=
  ⟨({ State.reset with boot := .running } : State), 4294968, 2, by decide +kernel, by decide +kernel, by decide +kernel⟩

theorem witness_StepAndReepoch_4 :
    ∃ s : State, (s.timeRuns = true) ∧ (s.tb.stepped = false) ∧ (s.sourceSteps = false) ∧ (s.tb.set0.toNat % 2 ^ 30 < 10 ^ 9) ∧ (s.ctx.txn = none) :=
  ⟨{ ({ State.reset with boot := .running } : State) with tb := { (({ State.reset with boot := .running } : State)).tb with set0 := 999999999 } }, by decide +kernel, by decide +kernel, by decide +kernel, by decide +kernel, by decide +kernel⟩

theorem witness_StepAndReepoch_5 :
    ∃ s : State, (s.timeRuns = true) ∧ (s.tb.stepped = true ∨ s.sourceSteps = true) :=
  ⟨{ ({ State.reset with boot := .running } : State) with tb := { (({ State.reset with boot := .running } : State)).tb with stepped := true } }, by decide +kernel, by decide +kernel⟩

theorem witness_StepAndReepoch_6 :
    ∃ s : State, (s.timeRuns = true) ∧ (s.tb.stepped = false) ∧ (s.sourceSteps = false) ∧ (10 ^ 9 ≤ s.tb.set0.toNat % 2 ^ 30) :=
  ⟨{ ({ State.reset with boot := .running } : State) with tb := { (({ State.reset with boot := .running } : State)).tb with set0 := 1000000000 } }, by decide +kernel, by decide +kernel, by decide +kernel, by decide +kernel⟩

theorem witness_StepAndReepoch_7 :
    ∃ s : State, (s.reepochOk (toSigned 64 s.tb.reepoch.toNat) = true) :=
  ⟨{ started ({ Image.blank with time := { Image.blank.time with reepochEn := true } }) 0 with tb := { (started Image.blank 0).tb with reepoch := 1 }, beat := { ({} : BeatSt) with next := 1 } }, by decide +kernel⟩

theorem witness_StepAndReepoch_8 :
    ∃ s : State, (s.reepochOk (toSigned 64 s.tb.reepoch.toNat) = false) :=
  ⟨State.reset, by decide +kernel⟩

theorem witness_StepAndReepoch_9 :
    ∃ (s : State) (b : Instant) (d : Int) (z : Int), (s.tb.reepochAt = some (b, d)) ∧ (b ≤ s.now) ∧ (b < counterSpan) ∧ (s.tb.t0 = some z) ∧ (s.ctx.txn = none) :=
  ⟨{ ({ State.reset with boot := .running } : State) with tb := { (({ State.reset with boot := .running } : State)).tb with reepochAt := some (0, -1), t0 := some 0 } }, 0, -1, 0, by decide +kernel, by decide +kernel, by decide +kernel, by decide +kernel, by decide +kernel⟩

theorem witness_SourceAndLock_1 :
    ∃ (s : State) (offset : Int), (s.timeRuns = true) ∧ (s.sourceSteps = true) ∧ (s.tb.stepped = false) ∧ (s.ctx.txn = none) :=
  ⟨{ started ({ Image.blank with time := { Image.blank.time with source := 1 } }) 0 with tb := { (started ({ Image.blank with time := { Image.blank.time with source := 1 } }) 0).tb with stepped := false } }, 0, by decide +kernel, by decide +kernel, by decide +kernel, by decide +kernel⟩

theorem witness_SourceAndLock_2 :
    ∃ (s : State) (offset : Int), (s.timeRuns = true) ∧ (s.sourceSteps = true ∨ (s.img.time.source = 3 ∧ offset.natAbs ≤ nsInst 1000000)) ∧ (s.tb.stepped = true) ∧ (offset.natAbs ≤ nsInst s.img.time.lockNs) ∧ (s.tb.goodRun ≤ 16) :=
  ⟨{ started ({ Image.blank with time := { Image.blank.time with source := 1 } }) 0 with tb := { (started ({ Image.blank with time := { Image.blank.time with source := 1 } }) 0).tb with goodRun := 16 } }, nsInst 100, by decide +kernel, by decide +kernel, by decide +kernel, by decide +kernel, by decide +kernel⟩

theorem witness_SourceAndLock_3 :
    ∃ (s : State) (offset : Int), (s.timeRuns = true) ∧ (s.sourceSteps = true ∨ (s.img.time.source = 3 ∧ offset.natAbs ≤ nsInst 1000000)) ∧ (s.tb.stepped = true) ∧ (nsInst s.img.time.lockNs < offset.natAbs) ∧ (s.tb.badRun ≤ 4) :=
  ⟨{ started ({ Image.blank with time := { Image.blank.time with source := 1 } }) 0 with tb := { (started ({ Image.blank with time := { Image.blank.time with source := 1 } }) 0).tb with badRun := 4 } }, -(nsInst 100 + 1 : Int), by decide +kernel, by decide +kernel, by decide +kernel, by decide +kernel, by decide +kernel⟩

theorem witness_SourceAndLock_4 :
    ∃ (s : State) (offset : Int), (s.timeRuns = true) ∧ (s.img.time.source = 3) ∧ (s.tb.stepped = true) ∧ (nsInst 1000000 < offset.natAbs) :=
  ⟨{ started ({ Image.blank with time := { Image.blank.time with source := 3 } }) 0 with tb := { (started ({ Image.blank with time := { Image.blank.time with source := 3 } }) 0).tb with goodRun := 0 } }, nsInst 1000000 + 1, by decide +kernel, by decide +kernel, by decide +kernel, by decide +kernel⟩

theorem witness_SourceAndLock_5 :
    ∃ (s : State) (offset : Int), (s.timeRuns = false ∨ (s.sourceSteps = false ∧ (s.img.time.source ≠ 3 ∨ s.tb.stepped = false))) :=
  ⟨State.reset, 0, Or.inr ⟨by decide +kernel, Or.inl (by decide +kernel)⟩⟩

theorem witness_SourceAndLock_6 :
    ∃ s : State, (s.timeRuns = true) ∧ (s.img.time.source ≠ 0) ∧ (s.tb.holdover = false) ∧ (s.tb.measuredAt + nsInst (8 * sourceInterval s.img.time.source) ≤ s.mono) :=
  ⟨started ({ Image.blank with time := { Image.blank.time with source := 4 } }) 1000000, by decide +kernel, by decide +kernel, by decide +kernel, by decide +kernel⟩

theorem witness_SourceAndLock_7 :
    ∃ s : State, (s.tb.holdover = true) ∧ (s.tb.valid = true) ∧ (s.tb.holdAt + nsInst (s.img.time.holdoverMs * 1000000) < s.mono) :=
  ⟨{ State.reset with tb := { ({} : TimeBase) with holdover := true, ticks := 500000001 } }, by decide +kernel, by decide +kernel, by decide +kernel⟩

theorem witness_SourceAndLock_8 :
    ∃ s : State, (s.timeRuns = false ∨ s.img.time.source = 0 ∨ s.tb.holdover = true ∨ s.mono < s.tb.measuredAt + nsInst (8 * sourceInterval s.img.time.source)) :=
  ⟨State.reset, Or.inr (Or.inl (by decide +kernel))⟩

theorem witness_SourceAndLock_9 :
    ∃ s : State, (s.tb.holdover = false ∨ s.tb.valid = false ∨ s.mono ≤ s.tb.holdAt + nsInst (s.img.time.holdoverMs * 1000000)) :=
  ⟨State.reset, Or.inl (by decide +kernel)⟩

theorem witness_TimeReadsAndCaptures :
    (∃ (s : State) (n : Nat), (n < 4)) ∧
    (∃ (s : State) (level : Bool) (i : Image) (c : TimeCapture), (c.cap < 4) ∧ (s.timeRuns = true) ∧ (s.image = some i) ∧ (i.time.captures.find? (fun x => x.cap == c.cap) = some c) ∧ (SMap.get false s.tb.capLevel c.cap ≠ level) ∧ (s.capFiltered c.cap = true) ∧ (edgeSelected c.edge level = true)) ∧
    (∃ (s : State) (n : Nat) (level : Bool), (s.capFiltered n = false)) ∧
    (∃ (s : State) (i : Image) (m : TimeMonitor), (s.image = some i) ∧ (i.time.monitors.find? (fun x => x.cmp == m.cmp) = some m) ∧ (s.started = true) ∧ (let k := SMap.get 0 s.tb.monNext m.cmp; (s.frameStart k + nsInst (m.startNs + m.lenNs) ≤ s.now))) :=
  ⟨⟨State.reset, 3, by decide +kernel⟩,
   ⟨started ({ Image.blank with time := { Image.blank.time with captures := [{ cap := 3, filt := 7, edge := 1 }] } }) 14, true, { Image.blank with time := { Image.blank.time with captures := [{ cap := 3, filt := 7, edge := 1 }] } }, { cap := 3, filt := 7, edge := 1 }, by decide +kernel, by decide +kernel, by decide +kernel, by decide +kernel, by decide +kernel, by decide +kernel, by decide +kernel⟩,
   ⟨started ({ Image.blank with time := { Image.blank.time with captures := [{ cap := 3, filt := 7, edge := 1 }] } }) 12, 3, true, by decide +kernel⟩,
   ⟨started ({ Image.blank with time := { Image.blank.time with monitors := [{ cmp := 15, cap := 0, missEn := true, startNs := 10, lenNs := 20 }] } }) 30, { Image.blank with time := { Image.blank.time with monitors := [{ cmp := 15, cap := 0, missEn := true, startNs := 10, lenNs := 20 }] } }, { cmp := 15, cap := 0, missEn := true, startNs := 10, lenNs := 20 }, by decide +kernel, by decide +kernel, by decide +kernel, by decide +kernel⟩⟩

theorem witness_FollowersAndTriggers :
    (∃ (s : State) (d : Nat) (w : TimeWord), (d < 4) ∧ (s.dieDown d = false) ∧ ((s.die d).follower.wire = some w) ∧ (let x := w.at_ + (s.tb.ticks - w.tick) * w.incr.toNat; (nsInst 3 ≤ x) ∧ (x + nsInst 3 < counterSpan))) ∧
    (∃ (s : State) (d : Nat), (d < 4) ∧ (s.dieDown d = false) ∧ ((s.die d).follower.lost = false) ∧ ((s.die d).follower.lastWord + nsInst 16000 ≤ s.mono)) ∧
    (∃ (s : State) (d : Nat), (d < 4) ∧ (s.dieDown d = false)) ∧
    (∃ (s : State) (i : Image) (e : TimeTrigger), (s.image = some i) ∧ (s.trigger e.trig = some e) ∧ (s.trigHeld e = false) ∧ ((s.nextPulse e).2 ≤ (s.now : Int)) ∧ (SMap.get 0 s.tb.pulse e.trig = 0)) ∧
    (∃ (s : State) (n : Nat), (SMap.get 0 s.tb.pulse n = 1)) :=
  ⟨⟨{ started Image.blank 0 with dies := [(3, { liveDie with follower := { ({} : FollowerSt) with wire := some { ({} : TimeWord) with at_ := nsInst 3 } } })] }, 3, { ({} : TimeWord) with at_ := nsInst 3 }, by decide +kernel, by decide +kernel, by decide +kernel, by decide +kernel, by decide +kernel⟩,
   ⟨started Image.blank 16000, 3, by decide +kernel, by decide +kernel, by decide +kernel, by decide +kernel⟩,
   ⟨started Image.blank 0, 3, by decide +kernel, by decide +kernel⟩,
   ⟨started ({ Image.blank with time := { Image.blank.time with triggers := [{ trig := 11, cmp := 0, baseSecond := false, divider := 1, activeLow := false, phaseNs := 7, widthNs := 100 }] } }) 7, { Image.blank with time := { Image.blank.time with triggers := [{ trig := 11, cmp := 0, baseSecond := false, divider := 1, activeLow := false, phaseNs := 7, widthNs := 100 }] } }, { trig := 11, cmp := 0, baseSecond := false, divider := 1, activeLow := false, phaseNs := 7, widthNs := 100 }, by decide +kernel, by decide +kernel, by decide +kernel, by decide +kernel, by decide +kernel⟩,
   ⟨{ State.reset with tb := { (State.reset).tb with pulse := [(11, 1)] } }, 11, by decide +kernel⟩⟩

theorem witness_EthernetCommands_1 :
    ∃ (s : State) (mac : Nat) (f : List Byte), (mac < 4) ∧ (s.timeRuns = true) ∧ ((EthPkt.parse f).isPtp = true) ∧ (s.ptpHeard mac (EthPkt.parse f).payload = false) :=
  ⟨started Image.blank 0, 3, zeros 12 ++ [0x88, 0xF7], by decide +kernel, by decide +kernel, by decide +kernel, by decide +kernel⟩

theorem witness_EthernetCommands_2 :
    ∃ (s : State) (mac : Nat) (f : List Byte), (mac < 4) ∧ (s.timeRuns = true) ∧ ((EthPkt.parse f).isPtp = true) ∧ (s.ptpHeard mac (EthPkt.parse f).payload = true) :=
  ⟨started ({ Image.blank with time := { Image.blank.time with ptpMasterMacs := 8 } }) 0, 3, zeros 12 ++ [0x88, 0xF7], by decide +kernel, by decide +kernel, by decide +kernel, by decide +kernel⟩

theorem witness_EthernetCommands_3 :
    ∃ (s : State) (mac : Nat) (f : List Byte), (mac < 4) ∧ (s.timeRuns = true) ∧ (s.img.macClaimed mac = true) :=
  ⟨started pathImage 0, 3, [], by decide +kernel, by decide +kernel, by decide +kernel⟩

theorem witness_EthernetCommands_4 :
    ∃ (s : State) (mac : Nat) (f : List Byte) (w : Dword), (mac < 4) ∧ (s.timeRuns = true) ∧ (tsCtrlOk w.toNat f.length = true) ∧ (w.toNat % 4 ≠ 2) :=
  ⟨started Image.blank 0, 3, zeros 60, 1, by decide +kernel, by decide +kernel, by decide +kernel, by decide +kernel⟩

theorem witness_EthernetCommands_5 :
    ∃ (s : State) (mac : Nat) (f : List Byte) (w : Dword), (mac < 4) ∧ (s.timeRuns = true) ∧ (tsCtrlOk w.toNat f.length = true) ∧ (w.toNat % 4 = 2) :=
  ⟨started Image.blank 0, 3, zeros 60, 0x322, by decide +kernel, by decide +kernel, by decide +kernel, by decide +kernel⟩

theorem witness_EthernetCommands_6 :
    ∃ (s : State) (mac : Nat) (f : List Byte) (w : Dword), (mac < 4) ∧ (s.timeRuns = true) ∧ (tsCtrlOk w.toNat f.length = false) :=
  ⟨started Image.blank 0, 3, zeros 60, 3, by decide +kernel, by decide +kernel, by decide +kernel⟩

theorem witness_EthernetCommands_7 :
    ∃ (s : State) (mac : Nat) (lo hi : Word), (mac < 4) ∧ ((s.hpath mac).enabled = false) ∧ (bit lo.toNat 0 = true) ∧ (s.img.macClaimed mac = true) ∧ (s.sound) ∧ (let a := lo.toNat / 64 * 64 + hi.toNat % 2 ^ 16 * 2 ^ 32; (let b := (s.fetch a 64).data; (s.cbOk a = true) ∧ (s.carveClosed none a 64 = false) ∧ (2 ≤ leAt b 16 1) ∧ (leAt b 16 1 ≤ 12) ∧ (2 ≤ leAt b 17 1) ∧ (leAt b 17 1 ≤ 12))) :=
  ⟨{ started pathImage 0 with mem := SMap.setBytes [] (dramBase + 16) [2, 12] }, 3, 1, 0x100, by decide +kernel, by decide +kernel, by decide +kernel, by decide +kernel, sound_of rfl rfl rfl rfl, by decide +kernel, by decide +kernel, by decide +kernel, by decide +kernel, by decide +kernel, by decide +kernel⟩

theorem witness_EthernetCommands_8 :
    ∃ (s : State) (mac : Nat) (w : Word), (mac < 4) :=
  ⟨State.reset, 3, 0xFFFF0000, by decide +kernel⟩

theorem witness_EthernetCommands_9 :
    ∃ (s : State) (mac : Nat), (mac < 4) ∧ ((s.hpath mac).enabled = true) ∧ ((s.hpath mac).txDone ≠ (s.hpath mac).txTail) ∧ (s.sound) ∧ (s.suspects = []) ∧ (let a := (s.hpath mac).txRing + (s.hpath mac).txDone.toNat % 2 ^ (s.hpath mac).txLog2 * 32; (let b := (s.fetch a 32).data; (s.hpReach a 32 = true) ∧ (hpCrcOk a b = true) ∧ (60 ≤ leAt b 8 2) ∧ (leAt b 8 2 ≤ 9600) ∧ (leAt b 10 2 < 2) ∧ ((b.drop 12).take 4 = zeros 4) ∧ ((b.drop 24).take 6 = zeros 6) ∧ (s.hpReach (leAt b 0 8) (leAt b 8 2) = true) ∧ (tsCtrlOk (leAt b 16 8) (leAt b 8 2) = true) ∧ (leAt b 16 8 % 4 = 0))) :=
  ⟨{ started pathImage 0 with hp := [(3, { ({} : HpSt) with enabled := true, txTail := 1, txRing := dramBase, txLog2 := 2 })], mem := SMap.setBytes [] dramBase (txDesc dramBase (dramBase + 128)) }, 3, by decide +kernel, by decide +kernel, by decide +kernel, sound_of rfl rfl rfl rfl, by decide +kernel, by decide +kernel, by decide +kernel, by decide +kernel, by decide +kernel, by decide +kernel, by decide +kernel, by decide +kernel, by decide +kernel, by decide +kernel, by decide +kernel⟩

theorem witness_HangsFenceUnits_1 :
    ∃ (s : State) (q : Nat) (cycles : Word) (f : InFlight) (e : Nat), ((s.queue q).inflight.find? (fun x => !x.executed || x.acksDue != 0) = some f) ∧ (f.engine = some e) ∧ (watchdogLimit (s.tile f.tile) f < cycles.toNat) :=
  ⟨inFlight 32767 (cmd 0x60 none none none 0), 32767, 16777217, (cmd 0x60 none none none 0), 3, by decide +kernel, by decide +kernel, by decide +kernel⟩

theorem witness_HangsFenceUnits_2 :
    ∃ (s : State) (q : Nat) (cycles : Word) (f : InFlight) (e : Nat), ((s.queue q).inflight.find? (fun x => !x.executed || x.acksDue != 0) = some f) ∧ (f.engine = some e) ∧ (cycles.toNat ≤ watchdogLimit (s.tile f.tile) f) :=
  ⟨inFlight 32767 (cmd 0x60 none none none 0), 32767, 16777216, (cmd 0x60 none none none 0), 3, by decide +kernel, by decide +kernel, by decide +kernel⟩

theorem witness_HangsFenceUnits_3 :
    ∃ (s : State), (let hangs := fun (k : UnitKind) (u : Nat) => (s.unit k u).state = .inService ∧ s.underRecovery k u = false ∧ s.recoveryHeld k u = false ∧ s.suspects = [] ∧ (s.die (dieOfUnit k u)).fences = []; ∃ d n : Nat, (d < 4) ∧ (n < 20) ∧ (hangs .slot (d * 20 + n))) :=
  ⟨State.reset, 3, 19, by decide +kernel, by decide +kernel, ⟨by decide +kernel, by decide +kernel, by decide +kernel, rfl, by decide +kernel⟩⟩

theorem witness_HangsFenceUnits_4 :
    ∃ (s : State), ∃ d n : Nat, (s.suspects = []) :=
  ⟨State.reset, 3, 19, by decide +kernel⟩

theorem witness_HangsFenceUnits_5 :
    ∃ (s : State), (let hangs := fun (k : UnitKind) (u : Nat) => (s.unit k u).state = .inService ∧ s.underRecovery k u = false ∧ s.recoveryHeld k u = false ∧ s.suspects = [] ∧ (s.die (dieOfUnit k u)).fences = []; ∃ u : Nat, (u < 16) ∧ (hangs .cluster u)) :=
  ⟨State.reset, 15, by decide +kernel, ⟨by decide +kernel, by decide +kernel, by decide +kernel, rfl, by decide +kernel⟩⟩

theorem witness_HangsFenceUnits_6 :
    ∃ (s : State), (let hangs := fun (k : UnitKind) (u : Nat) => (s.unit k u).state = .inService ∧ s.underRecovery k u = false ∧ s.recoveryHeld k u = false ∧ s.suspects = [] ∧ (s.die (dieOfUnit k u)).fences = []; ∃ u : Nat, (u < 8) ∧ (hangs .region u)) :=
  ⟨State.reset, 7, by decide +kernel, ⟨by decide +kernel, by decide +kernel, by decide +kernel, rfl, by decide +kernel⟩⟩

theorem witness_HangsFenceUnits_7 :
    ∃ (s : State), (let hangs := fun (k : UnitKind) (u : Nat) => (s.unit k u).state = .inService ∧ s.underRecovery k u = false ∧ s.recoveryHeld k u = false ∧ s.suspects = [] ∧ (s.die (dieOfUnit k u)).fences = []; ∃ u : Nat, (u < 4) ∧ (hangs .die u)) :=
  ⟨State.reset, 3, by decide +kernel, ⟨by decide +kernel, by decide +kernel, by decide +kernel, rfl, by decide +kernel⟩⟩

theorem witness_HangsFenceUnits_8 :
    ∃ (s : State) (l : Nat) (ring : Bool), (l < 4) ∧ (let d := if ring then (l + 1) % 4 else l; ((s.die d).u.state = .inService)) :=
  ⟨State.reset, 3, true, by decide +kernel, by decide +kernel⟩

theorem witness_HangsFenceUnits_9 :
    ∃ (s : State) (l : Nat) (ring : Bool), (l < 4) ∧ (let d := if ring then (l + 1) % 4 else l; ((s.die d).u.state = .resetting ∨ (s.die d).u.state = .testing)) :=
  ⟨{ State.reset with dies := [(0, { liveDie with u := unitState .resetting })] }, 3, true, by decide +kernel, by decide +kernel⟩

theorem witness_HangsFenceUnits_10 :
    ∃ (s : State) (q : Nat) (a : QueueAlloc) (since : Instant), (s.alloc q = some a) ∧ (a.doorbellOnly = false) ∧ ((s.queue q).wait = true) ∧ ((s.queue q).waitSince = some since) ∧ (since + nsInst (2 * s.frameNs) < s.mono) ∧ ((s.queue q).longRaised = false) :=
  ⟨{ State.reset with image := some { Image.blank with queues := [{ allocAt 32767 with doorbellOnly := false }] }, queues := [(32767, { ({} : QueueSt) with wait := true, waitSince := some 0 })], tb := { ({} : TimeBase) with ticks := 33333334 } }, 32767, { allocAt 32767 with doorbellOnly := false }, 0, by decide +kernel, by decide +kernel, by decide +kernel, by decide +kernel, by decide +kernel, by decide +kernel⟩

theorem witness_RecoveryRequests_1 :
    ∃ (s : State) (d loc : Nat) (k : UnitKind), (d < 4) ∧ (loc < unitsPerDie k) ∧ (let u := d * unitsPerDie k + loc; (s.fenceRefusal k u 0 = 0)) :=
  ⟨started ({ Image.blank with regions := List.replicate 8 { fencePolicy := 3, updateOrder := 0, dieServer := 0 } }) 0, 3, 19, .slot, by decide +kernel, by decide +kernel, by decide +kernel⟩

theorem witness_RecoveryRequests_2 :
    ∃ (s : State) (d loc : Nat) (k : UnitKind), (d < 4) ∧ (loc < unitsPerDie k) ∧ (let u := d * unitsPerDie k + loc; (s.fenceRefusal k u 0 ≠ 0)) :=
  ⟨State.reset, 3, 0, .die, by decide +kernel, by decide +kernel, by decide +kernel⟩

theorem witness_RecoveryRequests_3 :
    ∃ (s : State) (d : Nat) (f : FenceReq), ((s.die d).fences.find? (fun x => decide (x.drainUntil ≤ s.mono)) = some f) ∧ (f.purpose = .repair) :=
  ⟨{ started Image.blank 0 with dies := [(3, { liveDie with fences := [{ kind := .die, unit := 3, drainUntil := 0, purpose := .repair }] })] }, 3, { kind := .die, unit := 3, drainUntil := 0, purpose := .repair }, by decide +kernel, by decide +kernel⟩

theorem witness_RecoveryRequests_4 :
    ∃ (s : State) (d loc : Nat) (k : UnitKind), (d < 4) ∧ (loc < unitsPerDie k) ∧ (let u := d * unitsPerDie k + loc; (((s.unit k u).state = .fenced ∨ (s.unit k u).state = .suspect)) ∧ (s.underRecovery k u = false) ∧ (s.recoveryHeld k u = false) ∧ ((k = .die → s.restartRefused u = false))) :=
  ⟨withDie3 (unitState .suspect), 3, 0, .die, by decide +kernel, by decide +kernel, by decide +kernel, by decide +kernel, by decide +kernel, by decide +kernel⟩

theorem witness_RecoveryRequests_5 :
    ∃ (s : State) (d : Nat) (hungTiles hungClusters : List Nat) (k : UnitKind) (u : Nat), (s.dumpDue d = some (k, u)) :=
  ⟨withDie3 { unitState .suspect with resetReq := true }, 3, [], [], .die, 3, by decide +kernel⟩

theorem witness_RecoveryRequests_6 :
    ∃ (s : State) (d : Nat) (k : UnitKind) (u : Nat), (d < 4) ∧ ((k, u) ∈ (UnitKind.die, d) :: enclosed .die d) ∧ ((s.unit k u).state = .resetting) ∧ ((∀ e : UnitKind × Nat, e ∈ (UnitKind.die, d) :: enclosed .die d → (s.unit e.1 e.2).state = .resetting → e = (k, u))) ∧ ((k = .die → (s.die d).pgood = true)) ∧ (s.unitPasses k u = true) ∧ (¬ (k = .slot ∧ s.unitTiles k u = [])) :=
  ⟨withDie3 (unitState .resetting), 3, .die, 3, by decide +kernel, by decide +kernel, by decide +kernel, by decide +kernel, by decide +kernel, by decide +kernel, fun h => nomatch h.1⟩

theorem witness_RecoveryRequests_7 :
    ∃ (s : State) (d : Nat) (k : UnitKind) (u : Nat), (d < 4) ∧ ((k, u) ∈ (UnitKind.die, d) :: enclosed .die d) ∧ ((s.unit k u).state = .resetting) ∧ ((∀ e : UnitKind × Nat, e ∈ (UnitKind.die, d) :: enclosed .die d → (s.unit e.1 e.2).state = .resetting → e = (k, u))) ∧ ((k = .die → (s.die d).pgood = true)) ∧ (s.unitPasses k u = true) ∧ (k = .slot) ∧ (s.unitTiles k u = []) :=
  ⟨{ started Image.blank 0 with slots := [(79, { ({} : SlotSt) with u := unitState .resetting })] }, 3, .slot, 79, by decide +kernel, by decide +kernel, by decide +kernel, by decide +kernel, by decide +kernel, by decide +kernel, by decide +kernel, by decide +kernel⟩

theorem witness_RecoveryRequests_8 :
    ∃ (s : State) (d : Nat) (k : UnitKind) (u : Nat), (d < 4) ∧ ((k, u) ∈ (UnitKind.die, d) :: enclosed .die d) ∧ ((s.unit k u).state = .resetting) ∧ ((∀ e : UnitKind × Nat, e ∈ (UnitKind.die, d) :: enclosed .die d → (s.unit e.1 e.2).state = .resetting → e = (k, u))) ∧ ((k = .die → (s.die d).pgood = true)) ∧ ∃ ok : Bool, (ok = false ∨ s.unitPasses k u = false) :=
  ⟨withDie3 (unitState .resetting), 3, .die, 3, by decide +kernel, by decide +kernel, by decide +kernel, by decide +kernel, by decide +kernel, false, by decide +kernel⟩

theorem witness_RecoveryRequests_9 :
    ∃ (s : State) (d loc : Nat) (k : UnitKind), (d < 4) ∧ (loc < unitsPerDie k) ∧ (let u := d * unitsPerDie k + loc; ((s.unit k u).state = .testing) ∧ ((s.unit k u).stage = .restore) ∧ (s.underRecovery k u = false) ∧ (s.recoveryHeld k u = false) ∧ (s.unitSums k u ≠ [])) :=
  ⟨{ started ({ Image.blank with checker := { Image.blank.checker with sums := [{ region := 7, addr := 0, len := 64, crc64 := 0 }] } }) 0 with rgnUnits := [(7, { unitState .testing with stage := .restore })] }, 3, 1, .region, by decide +kernel, by decide +kernel, by decide +kernel, by decide +kernel, by decide +kernel, by decide +kernel, by decide +kernel⟩

theorem witness_RecoveryRequests_10 :
    ∃ (s : State) (d loc : Nat) (k : UnitKind), (d < 4) ∧ (loc < unitsPerDie k) ∧ (let u := d * unitsPerDie k + loc; ((s.unit k u).state = .testing) ∧ ((s.unit k u).stage = .restore) ∧ (s.underRecovery k u = false) ∧ (s.recoveryHeld k u = false) ∧ (s.unitSums k u = [])) :=
  ⟨{ State.reset with image := some Image.blank, rgnUnits := [(7, { unitState .testing with stage := .restore })] }, 3, 1, .region, by decide +kernel, by decide +kernel, by decide +kernel, by decide +kernel, by decide +kernel, by decide +kernel, by decide +kernel⟩

theorem witness_RecoveryRequests_11 :
    ∃ (s : State) (d : Nat), (d < 4) ∧ (let g := 2 * d + fld (s.die d).kill.toNat 8 8; (let tiles := ((List.range 8).filter (fun i => bit (s.die d).kill.toNat i)).map (· + 8 * g); (g < s.part.regions) ∧ ((∀ i : Nat, i ∈ (s.die d).killIds → ∃ c : Carveout, s.img.carve i = some c ∧ c.owner = g)) ∧ ((s.rgnUnit g).state.recovering = false) ∧ (s.unitRefusal .region g = 0) ∧ ((∀ x : Nat, x ∈ tiles → s.tileInService x = true)))) :=
  ⟨{ started Image.blank 0 with dies := [(3, { liveDie with kill := 0x101 })] }, 3, by decide +kernel, by decide +kernel, fun i h => absurd h (by
      have hk : (({ started Image.blank 0 with dies := [(3, { liveDie with kill := 0x101 })] }).die 3).killIds = [] := by decide +kernel
      rw [hk]
      exact List.not_mem_nil), by decide +kernel, by decide +kernel, by decide +kernel⟩

theorem witness_ControllersAndRepairs_1 :
    ∃ (s : State), (let copiesAgree := fun (e : UnitKind × Nat) => (s.unit e.1 e.2).hostView = .inService ∧ (s.unit e.1 e.2).pregusView = .inService ∧ (e.1 = .slot → (s.slot e.2).repair = s.mapRepair e.2); (let gensAgree := fun (e : UnitKind × Nat) => (s.unit e.1 e.2).gen = (s.unit e.1 e.2).genHost ∧ (s.unit e.1 e.2).gen = (s.unit e.1 e.2).genPregus; ((∀ e : UnitKind × Nat, e ∈ allUnits → (s.unit e.1 e.2).state = .inService → copiesAgree e ∧ gensAgree e)))) :=
  ⟨State.reset, by decide +kernel⟩

theorem witness_ControllersAndRepairs_2 :
    ∃ (s : State), (let copiesAgree := fun (e : UnitKind × Nat) => (s.unit e.1 e.2).hostView = .inService ∧ (s.unit e.1 e.2).pregusView = .inService ∧ (e.1 = .slot → (s.slot e.2).repair = s.mapRepair e.2); (let gensAgree := fun (e : UnitKind × Nat) => (s.unit e.1 e.2).gen = (s.unit e.1 e.2).genHost ∧ (s.unit e.1 e.2).gen = (s.unit e.1 e.2).genPregus; ∃ e : UnitKind × Nat, (e ∈ allUnits) ∧ ((s.unit e.1 e.2).state = .inService) ∧ (¬ copiesAgree e) ∧ (s.underRecovery e.1 e.2 = false) ∧ (s.recoveryHeld e.1 e.2 = false) ∧ ((∀ e' : UnitKind × Nat, e' ∈ allUnits → e' ≠ e → (s.unit e'.1 e'.2).state = .inService → copiesAgree e' ∧ gensAgree e')))) :=
  ⟨withDie3 { ({} : UnitSt) with hostView := .suspect }, (.die, 3), by decide +kernel, by decide +kernel, by decide +kernel, by decide +kernel, by decide +kernel, by decide +kernel⟩

theorem witness_ControllersAndRepairs_3 :
    ∃ (s : State) (d : Nat), (d < 4) :=
  ⟨State.reset, 3, by decide +kernel⟩

theorem witness_ControllersAndRepairs_4 :
    ∃ (s : State) (d : Nat) (ok : Bool), (d < 4) ∧ ((s.die d).beatAt + nsInst 1000000 ≤ s.mono) ∧ ((if (s.die d).serving then (s.die d).aRetired else (s.die d).bRetired) = false) :=
  ⟨{ State.reset with tb := { ({} : TimeBase) with ticks := 500000 } }, 3, true, by decide +kernel, by decide +kernel, by decide +kernel⟩

theorem witness_ControllersAndRepairs_5 :
    ∃ (s : State) (d n fS fR : Nat), (d < 4) ∧ (n < 20) ∧ (0 < fR) ∧ ((s.slot (d * 20 + n)).u.state ≠ .off) :=
  ⟨State.reset, 3, 19, 1, 1, by decide +kernel, by decide +kernel, by decide +kernel, by decide +kernel⟩

theorem witness_ControllersAndRepairs_6 :
    ∃ (s : State) (c p : Nat) (found : BistFault), (c < 16) ∧ (s.ember c = some p) ∧ (found = .none) :=
  ⟨State.reset, 15, 79, .none, by decide +kernel, by decide +kernel, by decide +kernel⟩

theorem witness_ControllersAndRepairs_7 :
    ∃ (s : State) (c p : Nat) (found : BistFault), (c < 16) ∧ (s.ember c = some p) ∧ ∃ bank row : Nat, (found = .memRow bank row) ∧ (s.tileSpares p (bank % 32) < 8) :=
  ⟨State.reset, 15, 79, .memRow 31 2047, by decide +kernel, by decide +kernel, 31, 2047, by decide +kernel, by decide +kernel⟩

theorem witness_ControllersAndRepairs_8 :
    ∃ (s : State) (c p : Nat) (found : BistFault), (c < 16) ∧ (s.ember c = some p) ∧ ∃ bank row : Nat, (found = .memRow bank row) ∧ (8 ≤ s.tileSpares p (bank % 32)) :=
  ⟨{ State.reset with repair := { State.reset.repair with entries := List.replicate 8 { kind := 4, die := 3, unit := 79, row := 31 * 2048, spare := 0 } } }, 15, 79, .memRow 31 2047, by decide +kernel, by decide +kernel, 31, 2047, by decide +kernel, by decide +kernel⟩

theorem witness_ControllersAndRepairs_9 :
    ∃ (s : State) (c p : Nat) (found : BistFault), (c < 16) ∧ (s.ember c = some p) ∧ ∃ n : ArrRepair, (found ≠ .none) ∧ ((∀ bank row : Nat, found ≠ .memRow bank row)) ∧ ((ArrRepair.ofWord (s.slot p).repair.toNat).choose (s.slot p).colFor found = some n) :=
  ⟨State.reset, 15, 79, .row 31, by decide +kernel, by decide +kernel, { a := some 31, b := none, c := none, aBad := false, bBad := false, cBad := false }, by decide +kernel, nofun, by decide +kernel⟩

theorem witness_ControllersAndRepairs_10 :
    ∃ (s : State) (c p : Nat) (found : BistFault), (c < 16) ∧ (s.ember c = some p) ∧ (found ≠ .none) ∧ ((ArrRepair.ofWord (s.slot p).repair.toNat).choose (s.slot p).colFor found = none) :=
  ⟨State.reset, 15, 79, .unrepairable, by decide +kernel, by decide +kernel, by decide +kernel, by decide +kernel⟩

theorem witness_ControllersAndRepairs_11 :
    ∃ (s : State) (q : Nat) (w : Word), (q < s.part.queues) ∧ (s.tileOpen (tileOfQueue q) = true) ∧ (s.tileInService (tileOfQueue q) = true) ∧ (bit w.toNat 31 = true) ∧ ((s.queue q).inflight = []) :=
  ⟨State.reset, 32767, 0x80000000, by decide +kernel, by decide +kernel, by decide +kernel, by decide +kernel, by decide +kernel⟩

theorem witness_ControllersAndRepairs_12 :
    ∃ (s : State) (q : Nat) (w : Word), (q < s.part.queues) ∧ (s.tileOpen (tileOfQueue q) = true) ∧ (s.tileInService (tileOfQueue q) = true) ∧ (bit w.toNat 31 = true) ∧ ((s.queue q).inflight ≠ []) :=
  ⟨inFlight 32767 (cmd 0x60 none none none 0), 32767, 0x80000000, by decide +kernel, by decide +kernel, by decide +kernel, by decide +kernel, by decide +kernel⟩

theorem witness_ControllersAndRepairs_13 :
    ∃ (s : State) (tile : Nat), (tile < s.part.tiles) ∧ (s.tileOpen tile = true) :=
  ⟨State.reset, 63, by decide +kernel, by decide +kernel⟩

theorem witness_ControllersAndRepairs_14 :
    ∃ (s : State) (tile : Nat) (w : Word), (tile < s.part.tiles) ∧ (s.arrHeld tile = true) ∧ (arrRepairBad w.toNat = false) :=
  ⟨{ State.reset with tiles := [(63, { ({} : TileSt) with hold := true })] }, 63, 0, by decide +kernel, by decide +kernel, by decide +kernel⟩

theorem witness_ControllersAndRepairs_15 :
    ∃ (s : State) (tile : Nat) (w : Word), (tile < s.part.tiles) ∧ (s.arrHeld tile = false ∨ arrRepairBad w.toNat = true) :=
  ⟨State.reset, 63, 0, by decide +kernel, by decide +kernel⟩

theorem witness_ControllersAndRepairs_16 :
    ∃ (s : State) (tile : Nat) (w : Word), (tile < s.part.tiles) ∧ ∃ ag : Agent, (ag ≠ .dieController) ∧ ((ag = .host → s.tileOpen tile = true)) :=
  ⟨State.reset, 63, 0, by decide +kernel, .host, by decide +kernel, by decide +kernel⟩

theorem witness_MemoryMaintenance :
    (∃ (s : State) (addr m : Nat) (f : Bool), (s.scrubMem addr = some m) ∧ ((s.scrubNext m).1 = addr / 64 * 64) ∧ (s.sound) ∧ (s.suspects = []) ∧ (s.rowTests = [])) ∧
    (∃ (s : State) (addr m : Nat) (f : Bool), (s.scrubMem addr = some m) ∧ ((s.scrubNext m).1 ≠ addr / 64 * 64)) ∧
    (∃ (s : State) (addr m u z : Nat) (f : Bool) (ps : List Nat), (s.scrubMem addr = some m) ∧ ((s.scrubNext m).1 = addr / 64 * 64) ∧ (s.suspects = []) ∧ (s.rowTests = []) ∧ (s.peatDirty = []) ∧ (s.dramDirty = []) ∧ (SMap.wf [] s.flips = true) ∧ ((u, z) ∈ s.units (addr / 64 * 64) 64) ∧ (decodeUnit z (SMap.get [] s.flips u) = .corrected ps) ∧ (SMap.get 0 s.rowsHit (s.rowOf u) = 0) ∧ ((∀ e : Nat × Nat, e ∈ s.units (addr / 64 * 64) 64 → e ≠ (u, z) → decodeUnit e.2 (SMap.get [] s.flips e.1) = .clean))) ∧
    (∃ (s : State) (addr m : Nat), (s.scrubMem addr = some m) ∧ (s.image.isSome = true) ∧ (max s.scrubFrom (SMap.get 0 s.scrubStart m) + nsInst (s.passNs m) < s.mono)) ∧
    (∃ (s : State) (addr : Nat), (s.isDirty addr = true)) ∧
    (∃ (s : State) (c : Nat) (twoX : Bool), (c < 12) ∧ ((s.chan c).trained = true) ∧ ((s.chan c).pollAt + nsInst 16000000 ≤ s.mono)) ∧
    (∃ (s : State) (c : Nat), (c < 12) ∧ ((s.chan c).trained = true)) :=
  ⟨⟨{ State.reset with scrubPos := [(63, 0x1FFFFFC0)] }, 0x1FFFFFFF, 63, true, by decide +kernel, by decide +kernel, sound_of rfl rfl rfl rfl, by decide +kernel, by decide +kernel⟩,
   ⟨State.reset, 0x1FFFFFFF, 63, true, by decide +kernel, by decide +kernel⟩,
   ⟨{ State.reset with scrubPos := [(63, 0x1FFFFFC0)], flips := [(0x1FFFFFE0, [20])] }, 0x1FFFFFFF, 63, 0x1FFFFFE0, 32, true, [20], by decide +kernel, by decide +kernel, by decide +kernel, by decide +kernel, by decide +kernel, by decide +kernel, by decide +kernel, by decide +kernel, by decide +kernel, by decide +kernel, by decide +kernel⟩,
   ⟨{ started Image.blank 0 with tb := { ({} : TimeBase) with ticks := 268435457 } }, 0x1FFFFFFF, 63, by decide +kernel, by decide +kernel, by decide +kernel⟩,
   ⟨{ State.reset with peatDirty := [(peatBase / 64, true)] }, peatBase, by decide +kernel⟩,
   ⟨{ State.reset with chans := [(11, { ({} : ChanSt) with trained := true })], tb := { ({} : TimeBase) with ticks := 8000000 } }, 11, true, by decide +kernel, by decide +kernel, by decide +kernel⟩,
   ⟨{ State.reset with chans := [(11, { ({} : ChanSt) with trained := true })] }, 11, by decide +kernel, by decide +kernel⟩⟩

theorem witness_CheckValueUnits :
    (∃ (s : State) (ag : Agent) (u c : Nat) (w : Word), ((ag = .host → s.cvuOpen u = true)) ∧ (c < 2) ∧ (ctxAgent ag u c = true) ∧ (bit w.toNat 3 = true)) ∧
    (∃ (s : State) (ag : Agent) (u c size : Nat) (w : Word), ((ag = .host → s.cvuOpen u = true)) ∧ (c < 2) ∧ (ctxAgent ag u c = true) ∧ ((size = 1 ∨ size = 2 ∨ size = 4)) ∧ (((s.cvuOf u).ctx c).fifo.length + size ≤ 16)) ∧
    (∃ (s : State) (u c i : Nat), (s.cvuOpen u = true) ∧ (c < 2) ∧ (i < 2) ∧ (((s.cvuOf u).ctx c).fifo.length ≤ 16)) ∧
    (∃ (s : State) (ag : Agent) (u : Nat), ((ag = .host → s.cvuOpen u = true)) ∧ (scanAgent ag u = true) ∧ ((s.cvuOf u).busy = false) ∧ ((s.cvuOf u).scanPoly.toNat < 6) ∧ ((s.cvuOf u).scanLen ≠ 0)) ∧
    (∃ (s : State) (u n : Nat), (u ≤ 16) ∧ ((s.cvuOf u).busy = true) ∧ ((s.cvuOf u).runLen = 64 * n) ∧ ((s.cvuOf u).runLines ≤ n) ∧ ((s.cvuOf u).runStat = 0) ∧ (s.sound) ∧ (s.suspects = []) ∧ ((∀ i : Nat, (s.cvuOf u).runLines ≤ i → i < n → s.carveClosed (cvuRegion u) ((s.cvuOf u).runAddr + 64 * i) 64 = false))) :=
  ⟨⟨State.reset, .pregusFirmware, 16, 1, 0xD, by decide +kernel, by decide +kernel, by decide +kernel, by decide +kernel⟩,
   ⟨{ State.reset with cvu := { ({} : CvuSt) with ctx1 := { ({} : CvuCtx) with fifo := zeros 12 } } }, .pregusFirmware, 16, 1, 4, 1, by decide +kernel, by decide +kernel, by decide +kernel, by decide +kernel, by decide +kernel⟩,
   ⟨{ State.reset with cvu := { ({} : CvuSt) with ctx1 := { ({} : CvuCtx) with fifo := zeros 16 } } }, 16, 1, 1, by decide +kernel, by decide +kernel, by decide +kernel, by decide +kernel⟩,
   ⟨{ State.reset with cvu := { ({} : CvuSt) with scanLen := 64 } }, .host, 16, by decide +kernel, by decide +kernel, by decide +kernel, by decide +kernel, by decide +kernel⟩,
   ⟨{ started (sensorImage 1) 0 with cvu := { ({} : CvuSt) with busy := true, runAddr := peatBase, runLen := 64 } }, 16, 1, by decide +kernel, by decide +kernel, by decide +kernel, by decide +kernel, by decide +kernel, sound_of rfl rfl rfl rfl, by decide +kernel, by decide +kernel⟩⟩

theorem witness_Transactions_1 :
    ∃ (s : State) (id : Word) (l : List TxnEntry) (w : Instant), (s.timeRuns = true) ∧ (s.ctx.txn = none) ∧ (s.fetchList = (s, some (id, l))) ∧ (s.listOk l = true) ∧ (s.whenInstant = some w) ∧ ((countOp l 3 = 0 ∨ s.tb.stepped = true → instantOk s.now w = true)) ∧ (activateMask l = none) :=
  ⟨{ started (sensorImage 1) 0 with mem := SMap.setBytes [] peatBase modeList, ctx := { ({} : CtxSt) with addrHi := 0x40, when1 := 60 } }, 1, [{ op := 2, target := 0, value := 0, mask := 0 }], nsInst (60 * 10 ^ 9), by decide +kernel, by decide +kernel, by decide +kernel, by decide +kernel, by decide +kernel, by decide +kernel, by decide +kernel⟩

theorem witness_Transactions_2 :
    ∃ s : State, (s.timeRuns = true) ∧ ((s.ctx.txn ≠ none ∨ s.fetchList = (s, none) ∨ ∃ x : Word × List TxnEntry, s.fetchList = (s, some x) ∧ s.listOk x.2 = false)) :=
  ⟨{ started Image.blank 0 with ctx := { ({} : CtxSt) with txn := some (activate3 [] none) } }, by decide +kernel, Or.inl (by decide +kernel)⟩

theorem witness_Transactions_3 :
    ∃ (s : State) (x : Txn), (s.timeRuns = true) ∧ (s.ctx.txn = some x) ∧ (x.decision = none) :=
  ⟨{ started Image.blank 0 with ctx := { ({} : CtxSt) with txn := some (activate3 [] none) } }, activate3 [] none, by decide +kernel, by decide +kernel, by decide +kernel⟩

theorem witness_Transactions_4 :
    ∃ (s : State) (x : Txn), (s.timeRuns = true) ∧ (s.ctx.txn = some x) ∧ (x.decision ≠ none) :=
  ⟨{ started Image.blank 0 with ctx := { ({} : CtxSt) with txn := some (activate3 [] (some true)) } }, activate3 [] (some true), by decide +kernel, by decide +kernel, by decide +kernel⟩

theorem witness_Transactions_5 :
    ∃ (s : State) (x : Txn) (w : Instant) (d : Nat), (s.ctx.txn = some x) ∧ (x.target = some w) ∧ (s.now + nsInst 200000 ≤ w) ∧ (x.decision = none) ∧ (d ∈ x.owners s.part) ∧ ((∀ v : Nat × Bool, v ∈ x.voted → v.1 ≠ d)) ∧ (s.dieDown d = false) :=
  ⟨{ started Image.blank 0 with ctx := { ({} : CtxSt) with txn := some (activate3 [] none) } }, activate3 [] none, nsInst 200000, 3, by decide +kernel, by decide +kernel, by decide +kernel, by decide +kernel, by decide +kernel, by decide +kernel, by decide +kernel⟩

theorem witness_Transactions_6 :
    ∃ (s : State) (x : Txn) (w : Instant), (s.ctx.txn = some x) ∧ (x.target = some w) ∧ (x.decision = none) ∧ (s.now + nsInst 100000 ≤ w) ∧ (x.voted.all (fun v => v.2) = true) ∧ (x.prepared s.part = true) :=
  ⟨{ started Image.blank 0 with ctx := { ({} : CtxSt) with txn := some (activate3 [(3, true)] none) } }, activate3 [(3, true)] none, nsInst 200000, by decide +kernel, by decide +kernel, by decide +kernel, by decide +kernel, by decide +kernel, by decide +kernel⟩

theorem witness_Transactions_7 :
    ∃ (s : State) (x : Txn) (w : Instant), (s.ctx.txn = some x) ∧ (x.target = some w) ∧ (x.decision = none) ∧ (s.now + nsInst 100000 ≤ w) ∧ (x.voted.all (fun v => v.2) = false ∨ (x.prepared s.part = false ∧ w < s.now + nsInst 200000)) :=
  ⟨{ started Image.blank 0 with ctx := { ({} : CtxSt) with txn := some (activate3 [(3, false)] none) } }, activate3 [(3, false)] none, nsInst 200000, by decide +kernel, by decide +kernel, by decide +kernel, by decide +kernel, by decide +kernel⟩

theorem witness_Transactions_8 :
    ∃ (s : State) (x : Txn) (w : Instant), (s.ctx.txn = some x) ∧ (x.target = some w) ∧ (x.decision = none) ∧ (s.now + nsInst 200000 ≤ w) ∧ (x.voted.all (fun v => v.2) = true) ∧ (x.prepared s.part = false) :=
  ⟨{ started Image.blank 0 with ctx := { ({} : CtxSt) with txn := some (activate3 [] none) } }, activate3 [] none, nsInst 200000, by decide +kernel, by decide +kernel, by decide +kernel, by decide +kernel, by decide +kernel, by decide +kernel⟩

theorem witness_Transactions_9 :
    ∃ (s : State) (x : Txn) (w : Instant), (s.ctx.txn = some x) ∧ (x.target = some w) ∧ (x.decision = none) ∧ (s.now < w) ∧ (w < s.now + nsInst 100000) :=
  ⟨{ started Image.blank 100001 with ctx := { ({} : CtxSt) with txn := some (activate3 [] none) } }, activate3 [] none, nsInst 200000, by decide +kernel, by decide +kernel, by decide +kernel, by decide +kernel, by decide +kernel⟩

theorem witness_Transactions_10 :
    ∃ (s : State) (x : Txn), (s.ctx.txn = some x) ∧ (s.txnReady x = true) ∧ (x.decision = some true) ∧ (x.late = false) ∧ (s.txnBlocked x = false) :=
  ⟨{ started Image.blank 0 with ctx := { ({} : CtxSt) with txn := some { activate3 [] (some true) with entries := [start], target := some 0 } } }, { activate3 [] (some true) with entries := [start], target := some 0 }, by decide +kernel, by decide +kernel, by decide +kernel, by decide +kernel, by decide +kernel⟩

theorem witness_Transactions_11 :
    ∃ (s : State) (x : Txn), (s.ctx.txn = some x) ∧ (s.txnReady x = true) ∧ (x.decision ≠ some true) :=
  ⟨{ started Image.blank 200000 with ctx := { ({} : CtxSt) with txn := some (activate3 [] none) } }, activate3 [] none, by decide +kernel, by decide +kernel, by decide +kernel⟩

theorem witness_UpdateAndSecurity_1 :
    ∃ s : State, (s.timeRuns = true) ∧ (s.updBusy = false) ∧ (s.activatePending = false) ∧ ∃ e : Nat, (s.loadFirmware 1 (!s.upd.selPregus) = .error e) :=
  ⟨started Image.blank 0, by decide +kernel, by decide +kernel, by decide +kernel, 0x70, by decide +kernel⟩

theorem witness_UpdateAndSecurity_2 :
    ∃ s : State, (s.timeRuns = true) ∧ (s.updBusy = false) ∧ (s.activatePending = false) ∧ ∃ (d e : Nat), (d < 4) ∧ ((if (s.die d).serving then (s.die d).aRetired else (s.die d).bRetired) = false) ∧ (s.dieDown d = false) ∧ (s.loadFirmware 2 (!s.upd.selDie) = .error e) :=
  ⟨started Image.blank 0, by decide +kernel, by decide +kernel, by decide +kernel, 0, 0x70, by decide +kernel, by decide +kernel, by decide +kernel, by decide +kernel⟩

theorem witness_UpdateAndSecurity_3 :
    ∃ s : State, (s.timeRuns = true) ∧ (s.updBusy = false) ∧ (s.activatePending = false) ∧ ∃ g : Nat, (g < s.part.regions) ∧ (s.isStaged 5 = true) ∧ (s.fenceRefusal .region g 1 = 0) :=
  ⟨{ started ({ Image.blank with regions := List.replicate 8 { fencePolicy := 3, updateOrder := 0, dieServer := 0 } }) 0 with upd := { ({} : UpdSt) with staged := 0x20 } }, by decide +kernel, by decide +kernel, by decide +kernel, 7, by decide +kernel, by decide +kernel, by decide +kernel⟩

theorem witness_UpdateAndSecurity_4 :
    ∃ (s : State) (comp : Nat), (s.timeRuns = true) ∧ (s.ratchetRefused comp = false) :=
  ⟨started Image.blank 0, 2, by decide +kernel, by decide +kernel⟩

theorem witness_UpdateAndSecurity_5 :
    ∃ (s : State) (comp : Nat), (s.timeRuns = true) ∧ (s.ratchetRefused comp = true) :=
  ⟨started Image.blank 0, 3, by decide +kernel, by decide +kernel⟩

theorem witness_UpdateAndSecurity_6 :
    ∃ s : State, (s.timeRuns = true) ∧ (s.reportPlaced s.sec.reportAddr = true) :=
  ⟨{ started pathImage 0 with sec := { ({} : SecSt) with reportHi := 0x100 } }, by decide +kernel, by decide +kernel⟩

theorem witness_UpdateAndSecurity_7 :
    ∃ s : State, (s.timeRuns = true) ∧ (s.sound) ∧ (s.inCarve s.sec.reportAddr (128 + 4627) = true) ∧ (s.carveClosed none s.sec.reportAddr (128 + 4627) = false) :=
  ⟨{ started pathImage 0 with sec := { ({} : SecSt) with reportHi := 0x100 } }, by decide +kernel, sound_of rfl rfl rfl rfl, by decide +kernel, by decide +kernel⟩

theorem witness_UpdateAndSecurity_8 :
    ∃ s : State, (s.timeRuns = true) ∧ (s.inCarve s.sec.reportAddr (128 + 4627) = false ∨ s.carveClosed none s.sec.reportAddr (128 + 4627) = true) :=
  ⟨started Image.blank 0, by decide +kernel, by decide +kernel⟩

theorem witness_UpdateAndSecurity_9 :
    ∃ (s : State) (slot roles signer : Nat) (digest msg sig : List Byte), (s.timeRuns = true) ∧ ∃ c : Provision, (s.provisionSigned signer msg sig = false ∨ signer ∉ Provision.signers c) :=
  ⟨started Image.blank 0, 1, 1, 8, [], [], [], by decide +kernel, .rackEn, by decide +kernel⟩

theorem witness_HostAccesses_1 :
    ∃ (s : State) (ag : Agent) (o : Nat) (v : Word) (r : Reg), (o < 0x10000000) ∧ (regAt s.part o = some r) ∧ ((ag = .host → s.link.d3hot = false)) ∧ ((ag = .host → s.unitOpen r.unit = true)) :=
  ⟨State.reset, .host, 0x2002C, 1, .secNonce 7, by decide +kernel, by decide +kernel, by decide +kernel, by decide +kernel⟩

theorem witness_HostAccesses_2 :
    ∃ (s : State) (ag : Agent) (o : Nat) (v : Word) (r : Reg), (o < 0x10000000) ∧ (regAt s.part o = some r) ∧ ((ag = .host → s.link.d3hot = false)) ∧ (ag = .host) ∧ (s.unitOpen r.unit = false) :=
  ⟨withDie3 (unitState .suspect), .host, 0x27E0040, 1, .missed 63, by decide +kernel, by decide +kernel, by decide +kernel, by decide +kernel, by decide +kernel⟩

theorem witness_HostAccesses_3 :
    ∃ (s : State) (q : Nat) (v : Word), (s.link.d3hot = false) ∧ (q < 0x8000) :=
  ⟨State.reset, 0x7FFF, 8, by decide +kernel, by decide +kernel⟩

theorem witness_HostAccesses_4 :
    ∃ (s : State) (q : Nat) (v : Word), (s.part.queues ≤ q) :=
  ⟨State.reset, 0x8000, 0, by decide +kernel⟩

theorem witness_HostAccesses_5 :
    ∃ (s : State) (q : Nat) (v : Word), (q < s.part.queues) ∧ (s.alloc q = none) :=
  ⟨State.reset, 0x7FFF, 0, by decide +kernel, by decide +kernel⟩

theorem witness_HostAccesses_6 :
    ∃ (s : State) (q : Nat) (v : Word), (q < s.part.queues) ∧ (s.alloc q ≠ none) ∧ (s.tileOpen (tileOfQueue q) = false) :=
  ⟨{ inFlight 32767 {} with dies := [(3, { liveDie with u := unitState .suspect })] }, 32767, 9, by decide +kernel, by decide +kernel, by decide +kernel⟩

theorem witness_HostAccesses_7 :
    ∃ (s : State) (o : Nat) (v : Word), (o % 4 ≠ 0) :=
  ⟨State.reset, 3, 0, by decide +kernel⟩

theorem witness_HostAccesses_8 :
    ∃ (s : State) (i : Nat) (v : Word), (s.link.d3hot = false) ∧ (i < 8) :=
  ⟨State.reset, 7, 1, by decide +kernel, by decide +kernel⟩

theorem witness_HostAccesses_9 :
    ∃ (s : State) (o size : Nat), (size ≠ 4) :=
  ⟨State.reset, 0, 8, by decide +kernel⟩

theorem witness_HostAccesses_10 :
    ∃ (s : State) (o a : Nat) (bs : List Byte), (s.sound) ∧ (s.link.d3hot = false) ∧ (bs ≠ []) ∧ (bar4 o = .memory a) ∧ (s.covered a bs.length = true) ∧ (s.carveClosed none a bs.length = false) :=
  ⟨started (sensorImage 1) 0, 0x20000FFFFF, peatBase + 0xFFFFF, [1], sound_of rfl rfl rfl rfl, by decide +kernel, by decide +kernel, by decide +kernel, by decide +kernel, by decide +kernel⟩

theorem witness_HostAccesses_11 :
    ∃ (s : State) (o a n : Nat), (s.sound) ∧ (s.link.d3hot = false) ∧ (n ≠ 0) ∧ (bar4 o = .memory a) ∧ (s.covered a n = true) ∧ (s.carveClosed none a n = false) :=
  ⟨started (sensorImage 1) 0, 0x20000FFFFE, peatBase + 0xFFFFE, 2, sound_of rfl rfl rfl rfl, by decide +kernel, by decide +kernel, by decide +kernel, by decide +kernel, by decide +kernel⟩

theorem witness_HostLinkCommands_1 :
    ∃ (s : State) (k : Nat), (s.flashServed = true) ∧ (0 < k) ∧ (k ≤ 6) ∧ (s.slotActive k = false) :=
  ⟨started Image.blank 0, 6, by decide +kernel, by decide +kernel, by decide +kernel, by decide +kernel⟩

theorem witness_HostLinkCommands_2 :
    ∃ (s : State) (k : Nat), (s.flashServed = true) ∧ (k = 0 ∨ 6 < k ∨ s.slotActive k = true) :=
  ⟨started Image.blank 0, 7, by decide +kernel, by decide +kernel⟩

theorem witness_HostLinkCommands_3 :
    ∃ (s : State) (off : Nat) (bs : List Byte), (s.flashServed = true) ∧ (s.link.flOpened = true) ∧ (bs ≠ []) ∧ (let r := flashSlotRange s.link.flOpenSlot; (r.1 ≤ off) ∧ (off + bs.length ≤ r.1 + r.2)) :=
  ⟨{ started Image.blank 0 with link := { ({} : HostLinkSt) with flOpened := true, flOpenSlot := 6 } }, 0x2FFFFFF, [1], by decide +kernel, by decide +kernel, by decide +kernel, by decide +kernel, by decide +kernel⟩

theorem witness_HostLinkCommands_4 :
    ∃ (s : State) (off : Nat) (bs : List Byte), (s.flashServed = true) ∧ (s.link.flOpened = true) ∧ (bs ≠ []) ∧ (let r := flashSlotRange s.link.flOpenSlot; (off < r.1 ∨ r.1 + r.2 < off + bs.length)) :=
  ⟨{ started Image.blank 0 with link := { ({} : HostLinkSt) with flOpened := true, flOpenSlot := 6 } }, 0x3000000, [1], by decide +kernel, by decide +kernel, by decide +kernel, by decide +kernel⟩

theorem witness_HostLinkCommands_5 :
    ∃ (s : State) (w : Word), (let l := { s.link with mbTx := SMap.set 0 s.link.mbTx 15 w }; (mgmtOk l.mbMessage = false)) :=
  ⟨State.reset, 1, by decide +kernel⟩

theorem witness_HostLinkCommands_6 :
    ∃ (s : State) (w : Word), (let l := { s.link with mbTx := SMap.set 0 s.link.mbTx 15 w }; (let m := Mgmt.parse l.mbMessage; (mgmtOk l.mbMessage = true) ∧ (s.mbBusy = false) ∧ (m.type ≠ 16) ∧ (m.dst = 0x80) ∧ (m.hops ≠ 0) ∧ ((s.port (m.path % 4)).up = true) ∧ (s.dieDown (m.path % 4) = false))) :=
  ⟨{ withPort { ({} : PortSt) with state := 2 } with link := { ({} : HostLinkSt) with mbTx := (List.range 15).map (fun i => (i, BitVec.ofNat 32 (leAt (Mgmt.bytes { ({} : Mgmt) with type := 1, dst := 0x80, hops := 8, path := 3 }) (4 * i) 4))) } }, BitVec.ofNat 32 (leAt (Mgmt.bytes { ({} : Mgmt) with type := 1, dst := 0x80, hops := 8, path := 3 }) 60 4), by decide +kernel, by decide +kernel, by decide +kernel, by decide +kernel, by decide +kernel, by decide +kernel, by decide +kernel⟩

theorem witness_HostLinkCommands_7 :
    ∃ (s : State) (a x b y : Bool) (rate : Nat), (s.boot ≠ .held) ∧ (s.boot ≠ .testMode) ∧ (1 ≤ rate) ∧ (rate ≤ 6) :=
  ⟨started Image.blank 0, true, true, true, true, 6, by decide +kernel, by decide +kernel, by decide +kernel, by decide +kernel⟩

theorem witness_HostLinkCommands_8 :
    ∃ (s : State) (m rate : Nat) (x8 : Bool), (m < 2) ∧ (bit s.link.mods.toNat (2 * m) = true) ∧ (1 ≤ rate) ∧ (rate ≤ 6) :=
  ⟨{ started Image.blank 0 with link := { ({} : HostLinkSt) with mods := 4 } }, 1, 6, true, by decide +kernel, by decide +kernel, by decide +kernel, by decide +kernel⟩

theorem witness_HostLinkCommands_9 :
    ∃ (s : State) (v : Nat), (v < 2048) :=
  ⟨State.reset, 2047, by decide +kernel⟩

theorem witness_LatticePorts_1 :
    ∃ (s : State) (p : Nat) (four : Bool), (s.portLive p = true) ∧ ((s.port p).up = false) :=
  ⟨withPort { ({} : PortSt) with state := 0 }, 3, true, by decide +kernel, by decide +kernel⟩

theorem witness_LatticePorts_2 :
    ∃ (s : State) (p : Nat) (f : List Byte), (s.portLive p = true) ∧ ((s.port p).up = true) ∧ (f.length = 256) ∧ (leAt f 248 8 ≠ crc 5 (f.take 248)) :=
  ⟨withPort { ({} : PortSt) with state := 2 }, 3, zeros 256, by decide +kernel, by decide +kernel, by decide +kernel, by decide +kernel⟩

theorem witness_LatticePorts_3 :
    ∃ (s : State) (p : Nat) (f : List Byte), (s.portLive p = true) ∧ ((s.port p).up = true) ∧ (f.length = 256) ∧ (leAt f 248 8 = crc 5 (f.take 248)) ∧ (bit (flitHeader f) 26 = true) ∧ (bit (flitHeader f) 25 = false) :=
  ⟨withPort { ({} : PortSt) with state := 2 }, 3, flit 0 0 false false true 0 0 [], by decide +kernel, by decide +kernel, by decide +kernel, by decide +kernel, by decide +kernel, by decide +kernel⟩

theorem witness_LatticePorts_4 :
    ∃ (s : State) (p : Nat) (f : List Byte), (s.portLive p = true) ∧ ((s.port p).up = true) ∧ (f.length = 256) ∧ (leAt f 248 8 = crc 5 (f.take 248)) ∧ (bit (flitHeader f) 26 = false) ∧ (bit (flitHeader f) 25 = false) ∧ ((s.port p).txWait = []) ∧ ((s.port p).txOpen = none) ∧ ((s.port p).partialRx = []) ∧ (fld (flitHeader f) 11 0 = (s.port p).rxSeq.toNat) ∧ (s.lat.numbered = true) ∧ ((Packet.parse (slice f 8 240)).kind ∈ [1, 2, 3, 4]) ∧ ((Packet.parse (slice f 8 240)).dst = s.chip) ∧ (flitsOf (leAt (slice f 8 240) 6 2) = 1) :=
  ⟨{ withPort { ({} : PortSt) with state := 2 } with lat := { ({} : LatSt) with numbered := true } }, 3, (flit 0 0 false false false 0 0 (Packet.bytes { ({} : Packet) with kind := 1, cls := 2 })), by decide +kernel, by decide +kernel, by decide +kernel, by decide +kernel, by decide +kernel, by decide +kernel, by decide +kernel, by decide +kernel, by decide +kernel, by decide +kernel, by decide +kernel, by decide +kernel, by decide +kernel, by decide +kernel⟩

theorem witness_LatticePorts_5 :
    ∃ (s : State) (p failed : Nat), (s.portLive p = true) ∧ ((s.port p).up = true) ∧ ((s.port p).replayBuf ≠ []) ∧ ((s.port p).noProgress < 2) ∧ (s.mono < (s.port p).heardAt + nsInst 20000) :=
  ⟨withPort { ({} : PortSt) with state := 2, replayBuf := [[]], noProgress := 1 }, 3, 0, by decide +kernel, by decide +kernel, by decide +kernel, by decide +kernel, by decide +kernel⟩

theorem witness_LatticePorts_6 :
    ∃ (s : State) (p failed : Nat), (s.portLive p = true) ∧ ((s.port p).up = true) ∧ ((s.port p).replayBuf ≠ []) ∧ (2 ≤ (s.port p).noProgress ∨ (s.port p).heardAt + nsInst 20000 ≤ s.mono) ∧ (3 ≤ failed) :=
  ⟨withPort { ({} : PortSt) with state := 2, replayBuf := [[]], noProgress := 2 }, 3, 3, by decide +kernel, by decide +kernel, by decide +kernel, by decide +kernel, by decide +kernel⟩

theorem witness_LatticePorts_7 :
    ∃ (s : State) (p failed : Nat), (s.portLive p = true) ∧ ((s.port p).up = true) ∧ ((s.port p).replayBuf ≠ []) ∧ (2 ≤ (s.port p).noProgress ∨ (s.port p).heardAt + nsInst 20000 ≤ s.mono) ∧ (failed < 3) :=
  ⟨withPort { ({} : PortSt) with state := 2, replayBuf := [[]], noProgress := 2 }, 3, 2, by decide +kernel, by decide +kernel, by decide +kernel, by decide +kernel, by decide +kernel⟩

theorem witness_LatticePorts_8 :
    ∃ (s : State) (p : Nat), (p < 4) ∧ ((s.port p).up = true) :=
  ⟨withPort { ({} : PortSt) with state := 2 }, 3, by decide +kernel, by decide +kernel⟩

theorem witness_LatticePorts_9 :
    ∃ (s : State) (p : Nat), (s.portLive p = true) ∧ ((s.port p).state = 2) :=
  ⟨withPort { ({} : PortSt) with state := 2 }, 3, by decide +kernel, by decide +kernel⟩

theorem witness_LatticePorts_10 :
    ∃ (s : State) (c : Nat) (w : Word), (c < 16) :=
  ⟨State.reset, 15, 0, by decide +kernel⟩

theorem witness_LatticePorts_11 :
    ∃ (s : State) (p : Nat) (offset : Int), (s.portLive p = true) ∧ ((s.port p).up = true) :=
  ⟨withPort { ({} : PortSt) with state := 2 }, 3, -1, by decide +kernel, by decide +kernel⟩

theorem witness_LatticePackets_1 :
    ∃ (s : State) (p : Nat) (k : Packet) (rest : List Packet), (p < 4) ∧ ((s.port p).inbox = k :: rest) ∧ (k.kind = 1) ∧ (k.word4 % 64 < s.part.tiles) ∧ (s.tileReachable (k.word4 % 64) = true) ∧ (s.sound) ∧ ((s.messageOf k).any (fun m => m.dropped.isSome) = false) ∧ (let w := SMap.get {} (s.tile (k.word4 % 64)).windows (fld k.word4 9 6); (w.defined = true) ∧ (k.word12 + k.data.length ≤ w.size)) :=
  ⟨{ withPort { ({} : PortSt) with state := 2, inbox := [{ ({} : Packet) with kind := 1, word4 := 1023, word12 := 6, data := [1, 2] }] } with tiles := [(63, { ({} : TileSt) with windows := [(15, { defined := true, base := 0, size := 8 })] })] }, 3, { ({} : Packet) with kind := 1, word4 := 1023, word12 := 6, data := [1, 2] }, [], by decide +kernel, by decide +kernel, by decide +kernel, by decide +kernel, by decide +kernel, sound_of rfl rfl rfl rfl, by decide +kernel, by decide +kernel, by decide +kernel⟩

theorem witness_LatticePackets_2 :
    ∃ (s : State) (p : Nat) (k : Packet) (rest : List Packet), (p < 4) ∧ ((s.port p).inbox = k :: rest) ∧ (k.kind = 3) ∧ (refCluster k.word12 < s.part.clusters) ∧ (s.clusterOpen (refCluster k.word12) = true) ∧ ((s.messageOf k).any (fun m => m.dropped.isSome) = false) :=
  ⟨withPort { ({} : PortSt) with state := 2, inbox := [{ ({} : Packet) with kind := 3, word12 := 0x7FFF }] }, 3, { ({} : Packet) with kind := 3, word12 := 0x7FFF }, [], by decide +kernel, by decide +kernel, by decide +kernel, by decide +kernel, by decide +kernel, by decide +kernel⟩

theorem witness_LatticePackets_3 :
    ∃ (s : State) (p : Nat) (k : Packet) (rest : List Packet), (p < 4) ∧ ((s.port p).inbox = k :: rest) ∧ ∃ o q pos : Nat, (s.requestOf k.tag = some (o, q, pos)) ∧ (k.kind = 2) :=
  ⟨withPort { ({} : PortSt) with state := 2, inbox := [{ ({} : Packet) with kind := 2, tag := 7 }], outstanding := [(7, 32767, 0)] }, 3, { ({} : Packet) with kind := 2, tag := 7 }, [], by decide +kernel, by decide +kernel, 3, 32767, 0, by decide +kernel, by decide +kernel⟩

theorem witness_LatticePackets_4 :
    ∃ (s : State) (p : Nat) (k : Packet) (rest : List Packet), (p < 4) ∧ ((s.port p).inbox = k :: rest) ∧ ∃ o q pos : Nat, (s.requestOf k.tag = some (o, q, pos)) ∧ (k.kind = 4) :=
  ⟨withPort { ({} : PortSt) with state := 2, inbox := [{ ({} : Packet) with kind := 4, tag := 7 }], outstanding := [(7, 32767, 0)] }, 3, { ({} : Packet) with kind := 4, tag := 7 }, [], by decide +kernel, by decide +kernel, 3, 32767, 0, by decide +kernel, by decide +kernel⟩

theorem witness_LatticePackets_5 :
    ∃ (s : State) (p : Nat) (k : Packet) (rest : List Packet), (p < 4) ∧ ((s.port p).inbox = k :: rest) ∧ (k.kind = 5) ∧ (s.link.mbRx.length < 64) ∧ ((Mgmt.parse k.data).type = 1) :=
  ⟨withPort { ({} : PortSt) with state := 2, inbox := [{ ({} : Packet) with kind := 5, data := message 1 [] }] }, 3, { ({} : Packet) with kind := 5, data := message 1 [] }, [], by decide +kernel, by decide +kernel, by decide +kernel, by decide +kernel, by decide +kernel⟩

theorem witness_LatticePackets_6 :
    ∃ (s : State) (p : Nat) (k : Packet) (rest : List Packet), (p < 4) ∧ ((s.port p).inbox = k :: rest) ∧ (k.kind = 5) ∧ (s.link.mbRx.length < 64) ∧ ((Mgmt.parse k.data).type = 4) :=
  ⟨withPort { ({} : PortSt) with state := 2, inbox := [{ ({} : Packet) with kind := 5, data := message 4 [] }] }, 3, { ({} : Packet) with kind := 5, data := message 4 [] }, [], by decide +kernel, by decide +kernel, by decide +kernel, by decide +kernel, by decide +kernel⟩

theorem witness_LatticePackets_7 :
    ∃ (s : State) (p : Nat) (k : Packet) (rest : List Packet), (p < 4) ∧ ((s.port p).inbox = k :: rest) ∧ (k.kind = 5) ∧ (s.link.mbRx.length < 64) ∧ ((Mgmt.parse k.data).type = 5) :=
  ⟨withPort { ({} : PortSt) with state := 2, inbox := [{ ({} : Packet) with kind := 5, data := message 5 [] }] }, 3, { ({} : Packet) with kind := 5, data := message 5 [] }, [], by decide +kernel, by decide +kernel, by decide +kernel, by decide +kernel, by decide +kernel⟩

theorem witness_LatticePackets_8 :
    ∃ (s : State) (p : Nat) (k : Packet) (rest : List Packet), (p < 4) ∧ ((s.port p).inbox = k :: rest) ∧ (k.kind = 5) ∧ (s.link.mbRx.length < 64) ∧ ((Mgmt.parse k.data).type = 6) :=
  ⟨withPort { ({} : PortSt) with state := 2, inbox := [{ ({} : Packet) with kind := 5, data := message 6 [] }] }, 3, { ({} : Packet) with kind := 5, data := message 6 [] }, [], by decide +kernel, by decide +kernel, by decide +kernel, by decide +kernel, by decide +kernel⟩

theorem witness_LatticePackets_9 :
    ∃ (s : State) (p : Nat) (k : Packet) (rest : List Packet), (p < 4) ∧ ((s.port p).inbox = k :: rest) ∧ (k.kind = 5) ∧ (s.link.mbRx.length < 64) ∧ ((Mgmt.parse k.data).type = 7) :=
  ⟨withPort { ({} : PortSt) with state := 2, inbox := [{ ({} : Packet) with kind := 5, data := message 7 [] }] }, 3, { ({} : Packet) with kind := 5, data := message 7 [] }, [], by decide +kernel, by decide +kernel, by decide +kernel, by decide +kernel, by decide +kernel⟩

theorem witness_LatticePackets_10 :
    ∃ (s : State) (p : Nat) (k : Packet) (rest : List Packet), (p < 4) ∧ ((s.port p).inbox = k :: rest) ∧ (k.kind = 5) ∧ (s.link.mbRx.length < 64) ∧ ((Mgmt.parse k.data).type = 8) :=
  ⟨withPort { ({} : PortSt) with state := 2, inbox := [{ ({} : Packet) with kind := 5, data := message 8 [] }] }, 3, { ({} : Packet) with kind := 5, data := message 8 [] }, [], by decide +kernel, by decide +kernel, by decide +kernel, by decide +kernel, by decide +kernel⟩

theorem witness_LatticePackets_11 :
    ∃ (s : State) (p : Nat) (k : Packet) (rest : List Packet), (p < 4) ∧ ((s.port p).inbox = k :: rest) ∧ (k.kind = 5) ∧ ((Mgmt.parse k.data).type = 2) ∧ (s.lat.numbered = false) ∧ (let b := fun (i : Nat) => leAt (Mgmt.parse k.data).body i 1; (b 0 < 16) ∧ (b 1 < 16) ∧ (b 2 < 16) ∧ (1 ≤ b 3) ∧ (b 3 ≤ 16) ∧ (b 4 ≤ 4)) :=
  ⟨withPort { ({} : PortSt) with state := 2, inbox := [{ ({} : Packet) with kind := 5, data := message 2 [15, 15, 15, 16, 4] }] }, 3, { ({} : Packet) with kind := 5, data := message 2 [15, 15, 15, 16, 4] }, [], by decide +kernel, by decide +kernel, by decide +kernel, by decide +kernel, by decide +kernel, by decide +kernel, by decide +kernel, by decide +kernel, by decide +kernel, by decide +kernel, by decide +kernel⟩

theorem witness_LatticePackets_12 :
    ∃ (s : State) (p : Nat) (k : Packet) (rest : List Packet), (p < 4) ∧ ((s.port p).inbox = k :: rest) ∧ (k.kind = 5) ∧ ((Mgmt.parse k.data).type = 3) ∧ ((Mgmt.parse k.data).src = s.lat.fmChip.toNat) :=
  ⟨withPort { ({} : PortSt) with state := 2, inbox := [{ ({} : Packet) with kind := 5, data := message 3 [] }] }, 3, { ({} : Packet) with kind := 5, data := message 3 [] }, [], by decide +kernel, by decide +kernel, by decide +kernel, by decide +kernel, by decide +kernel⟩

theorem witness_LatticePackets_13 :
    ∃ (s : State) (p : Nat) (k : Packet) (rest : List Packet), (p < 4) ∧ ((s.port p).inbox = k :: rest) ∧ (k.kind = 5) ∧ ((Mgmt.parse k.data).type = 16) ∧ (s.followsPort p = true) ∧ (s.img.time.source = 4) :=
  ⟨{ withPort { ({} : PortSt) with state := 2, inbox := [{ ({} : Packet) with kind := 5, data := message 16 [] }] } with lat := { ({} : LatSt) with numbered := true, timeMaster := 1, routes := [(1, 3)] }, image := some { Image.blank with time := { Image.blank.time with source := 4 } } }, 3, { ({} : Packet) with kind := 5, data := message 16 [] }, [], by decide +kernel, by decide +kernel, by decide +kernel, by decide +kernel, by decide +kernel, by decide +kernel⟩

theorem witness_PowerAndPins_1 :
    ∃ (s : State) (ns : Nat), (ns ≤ 800) :=
  ⟨State.reset, 800, by decide +kernel⟩

theorem witness_PowerAndPins_2 :
    ∃ (s : State) (ns : Nat), (1200 ≤ ns) :=
  ⟨State.reset, 1200, by decide +kernel⟩

theorem witness_PowerAndPins_3 :
    ∃ (s : State) (d : Nat), (d < 4) ∧ ((s.die d).pwrEn = true) ∧ ((s.die d).pgood = false) ∧ (s.boot = .powering d) ∧ (d < 3) :=
  ⟨{ State.reset with boot := .powering 2, dies := [(2, { ({} : DieSt) with pwrEn := true })] }, 2, by decide +kernel, by decide +kernel, by decide +kernel, by decide +kernel, by decide +kernel⟩

theorem witness_PowerAndPins_4 :
    ∃ (s : State) (d : Nat), (d < 4) ∧ ((s.die d).pwrEn = true) ∧ ((s.die d).pgood = false) ∧ (s.boot.awaits d = false) ∧ ((s.die d).pwrAt + nsInst 2000000 ≤ s.mono) :=
  ⟨{ State.reset with boot := .running, dies := [(3, { ({} : DieSt) with pwrEn := true })], tb := { ({} : TimeBase) with ticks := 1000000 } }, 3, by decide +kernel, by decide +kernel, by decide +kernel, by decide +kernel, by decide +kernel⟩

theorem witness_PowerAndPins_5 :
    ∃ (s : State) (d : Nat), (d < 4) ∧ ((s.die d).pwrEn = true) ∧ ((s.die d).pgood = true) ∧ ((s.die d).u.state = .inService) :=
  ⟨started Image.blank 0, 3, by decide +kernel, by decide +kernel, by decide +kernel, by decide +kernel⟩

theorem witness_PowerAndPins_6 :
    ∃ (s : State) (d : Nat), (d < 4) ∧ ((s.die d).pwrEn = true) ∧ ((s.die d).u.state = .inService) ∧ (s.boot.awaits d = false) :=
  ⟨started Image.blank 0, 3, by decide +kernel, by decide +kernel, by decide +kernel, by decide +kernel⟩

theorem witness_PowerAndPins_7 :
    ∃ (s : State) (d : Nat) (temps volts : List Int) (valid : List Bool), (d < 4) ∧ ((s.die d).pgood = true) ∧ ((s.die d).u.state ≠ .resetting) :=
  ⟨started Image.blank 0, 3, [500], [0], [true], by decide +kernel, by decide +kernel, by decide +kernel⟩

theorem witness_PowerAndPins_8 :
    ∃ (s : State) (d : Nat), (d < 4) ∧ ((s.die d).overFlag = true) ∧ ((∀ x : Instant, (s.die d).overAt = some x → x + nsInst (10 ^ 9) ≤ s.mono)) :=
  ⟨{ started Image.blank 0 with dies := [(3, { liveDie with overFlag := true })] }, 3, by decide +kernel, by decide +kernel, fun x h => by simp [State.die, SMap.get, liveDie] at h⟩

theorem witness_PowerAndPins_9 :
    ∃ (s : State) (d : Nat) (w : Word), (d < 4) ∧ (s.dieOpen d = true) :=
  ⟨State.reset, 3, 7, by decide +kernel, by decide +kernel⟩

theorem witness_PowerAndPins_10 :
    ∃ (s : State) (d : Nat) (p : BitVec 2 × Bool), ((s.die d).clkPending = some p) :=
  ⟨{ started Image.blank 0 with dies := [(3, { liveDie with clkPending := some (2, true) })] }, 3, (2, true), by decide +kernel⟩

theorem witness_PowerAndPins_11 :
    ∃ (s : State) (n : Nat) (w : Word), (n < 12) ∧ (s.trigActive n = false) :=
  ⟨State.reset, 11, 15, by decide +kernel, by decide +kernel⟩

theorem witness_PowerAndPins_12 :
    ∃ (s : State) (n : Nat) (w : Word), (n < 12) ∧ (s.trigActive n = true) :=
  ⟨{ State.reset with tb := { ({} : TimeBase) with pulse := [(11, 1)] } }, 11, 15, by decide +kernel, by decide +kernel⟩

theorem witness_PowerAndPins_13 :
    ∃ (s : State) (op : JtagOp), (jtagAccepted s.sec.testMode op = true) :=
  ⟨State.reset, .bypass, by decide +kernel⟩

theorem witness_PowerAndPins_14 :
    ∃ (s : State) (op : JtagOp), (jtagAccepted s.sec.testMode op = false) :=
  ⟨State.reset, .extest, by decide +kernel⟩

theorem witness_EveryCommandAnswers :
    (∃ (i : Instr) (s t : State), (i.storesNothing = true) ∧ (exec i s = .next t)) ∧
    (∃ (i : Instr) (s t : State), (i.mayActivate = false) ∧ (exec i s = .next t)) :=
  ⟨⟨.ashFetch 3, started Image.blank 0, (started Image.blank 0).updAsh (fun a => { a with selHi := 3, rdBusy := true }), rfl, rfl⟩,
   ⟨.ashFetch 3, started Image.blank 0, (started Image.blank 0).updAsh (fun a => { a with selHi := 3, rdBusy := true }), rfl, rfl⟩⟩

/-! Signatures are a free function (Config.mldsaVerify, FIPS 204): the witnesses of what needs one hold where it accepts. -/

/-- A state with a key in slots 0 and 7 that its key block holds (R446). -/
def keyed (s : State) : State :=
  { s with sec := { s.sec with keys := [(0, { programmed := true, digest := sha3 (s.publicKey 0), roles := 7 }),
                                        (7, { programmed := true, digest := sha3 (s.publicKey 7), roles := 1 })] } }

theorem signed_of (hv : ∀ p m g : List Byte, Config.mldsaVerify p m g = true) (s : State) (role : Nat) (hr : bit 7 role = true) (m g : List Byte) :
    (keyed s).signedBy 0 role m g = true := by
  have hk : SMap.get {} (keyed s).sec.keys 0 = { programmed := true, digest := sha3 (s.publicKey 0), roles := 7 } := rfl
  have hp : (keyed s).publicKey 0 = s.publicKey 0 := rfl
  simp [State.signedBy, hk, hp, hv, hr]

theorem provision_of (hv : ∀ p m g : List Byte, Config.mldsaVerify p m g = true) (s : State) (m g : List Byte) :
    (keyed s).provisionSigned 0 m g = true := by
  have hk : (keyed s).keySlot 0 = { programmed := true, digest := sha3 (s.publicKey 0), roles := 7 } := rfl
  have hp : (keyed s).publicKey 0 = s.publicKey 0 := rfl
  simp [State.provisionSigned, hk, hp, hv]

/-- A firmware component (R439) with an empty body: 128 bytes that any other firmware runs with. -/
def firmwareHeader (comp : Nat) : List Byte :=
  leBytes 4 0x57465351 ++ leBytes 2 0x0100 ++ leBytes 2 128 ++ leBytes 4 128 ++ leBytes 1 comp ++ zeros 1 ++ leBytes 2 1 ++ [3, 3] ++ leBytes 2 0 ++
    leBytes 4 127 ++ leBytes 2 0x0100 ++ leBytes 2 0 ++ zeros 4 ++ leBytes 4 0 ++ leBytes 4 4627 ++ zeros 8 ++ sha3 [] ++ zeros 16

/-- A state whose flash holds a firmware component at an address. -/
def withFirmware (s : State) (a comp : Nat) : State := keyed { s with flash := ((firmwareHeader comp).foldl (fun acc b => (SMap.set 0xFF acc.1 acc.2 b, acc.2 + 1)) ([], a)).1 }

theorem load_of (hv : ∀ p m g : List Byte, Config.mldsaVerify p m g = true) (s : State) (comp : Nat) (slot : Bool)
    (h1 : (keyed s).firmwareHeaderOk comp ((keyed s).componentBytes (firmwareBase comp slot) 0x200000).1 = true)
    (h2 : sha3 (((keyed s).componentBytes (firmwareBase comp slot) 0x200000).1.drop 128) =
      slice ((keyed s).componentBytes (firmwareBase comp slot) 0x200000).1 0x30 64)
    (h3 : leAt ((keyed s).componentBytes (firmwareBase comp slot) 0x200000).1 0x20 4 = 0)
    (h4 : leAt ((keyed s).componentBytes (firmwareBase comp slot) 0x200000).1 0x14 4 = 127) (h5 : s.sec.cntPregus ≤ 127) (h6 : s.sec.cntDie ≤ 127) :
    (keyed s).loadFirmware comp slot = .ok (parseFirmware ((keyed s).componentBytes (firmwareBase comp slot) 0x200000).1) := by
  have hc1 : (keyed s).sec.cntPregus = s.sec.cntPregus := rfl
  have hc2 : (keyed s).sec.cntDie = s.sec.cntDie := rfl
  have hc : ¬ 127 < (if comp = 1 then (keyed s).sec.cntPregus else (keyed s).sec.cntDie) := by rw [hc1, hc2]; split <;> omega
  unfold State.loadFirmware State.verifyComponent
  simp only [h1, h2, h3, h4, signed_of hv s 0 (by decide)]
  simp [hc]

theorem witness_UpdateAndSecurity_signed (hv : ∀ p m g : List Byte, Config.mldsaVerify p m g = true) :
    (∃ (s : State) (f : Firmware), s.timeRuns = true ∧ s.updBusy = false ∧ s.activatePending = false ∧
      s.loadFirmware 1 (!s.upd.selPregus) = .ok f ∧ s.pregusFits f = true) ∧
    (∃ (s : State) (d : Nat) (f : Firmware), s.timeRuns = true ∧ s.updBusy = false ∧ s.activatePending = false ∧ d < 4 ∧
      (if (s.die d).serving then (s.die d).aRetired else (s.die d).bRetired) = false ∧ s.dieDown d = false ∧
      s.loadFirmware 2 (!s.upd.selDie) = .ok f ∧ s.dieFits d f = true) ∧
    (∃ (s : State) (slot roles : Nat) (digest msg sig : List Byte), s.timeRuns = true ∧ s.provisionSigned 0 msg sig = true ∧ 0 < slot ∧ slot < 8 ∧
      (s.keySlot slot).programmed = false) ∧
    (∃ (s : State) (slot signer : Nat) (msg sig : List Byte), s.timeRuns = true ∧ (signer = 0 ∨ signer = slot) ∧
      s.provisionSigned signer msg sig = true ∧ slot < 8 ∧ (s.keySlot slot).programmed = true ∧ (s.keySlot slot).revoked = false ∧
      s.lastFirmwareSlot slot = false) :=
  ⟨⟨withFirmware (started Image.blank 0) 0x300000 1, _, by decide +kernel, by decide +kernel, by decide +kernel,
    load_of hv _ 1 true (by decide +kernel) (by decide +kernel) (by decide +kernel) (by decide +kernel) (by decide) (by decide), by decide +kernel⟩,
   ⟨withFirmware (started Image.blank 0) 0x700000 2, 3, _, by decide +kernel, by decide +kernel, by decide +kernel, by decide, by decide +kernel,
    by decide +kernel, load_of hv _ 2 true (by decide +kernel) (by decide +kernel) (by decide +kernel) (by decide +kernel) (by decide) (by decide),
    by decide +kernel⟩,
   ⟨keyed (started Image.blank 0), 1, 1, [], [], [], by decide +kernel, provision_of hv _ _ _, by decide, by decide, by decide +kernel⟩,
   ⟨keyed (started Image.blank 0), 7, 0, [], [], by decide +kernel, Or.inl rfl, provision_of hv _ _ _, by decide, by decide +kernel,
    by decide +kernel, by decide +kernel⟩⟩

theorem witness_PowerAndPins_signed (hv : ∀ p m g : List Byte, Config.mldsaVerify p m g = true) :
    ∃ (s : State) (f : Firmware), s.boot = .held ∧ s.thermTrip = false ∧ s.loadFirmware 1 s.upd.selPregus = .ok f :=
  ⟨withFirmware State.reset 0x100000 1, _, by decide +kernel, by decide +kernel,
    load_of hv _ 1 false (by decide +kernel) (by decide +kernel) (by decide +kernel) (by decide +kernel) (by decide) (by decide)⟩

/-! A whole structure image, section by section from the layouts of R35 to R54, R91, R94, R279, R328, R353 and R356. -/

theorem chiRow_length (l : List (List Nat)) : (l.flatMap chiRow).length = 5 * l.length := by
  induction l with
  | nil => rfl
  | cons r t ih => simp only [List.flatMap_cons, List.length_append, ih, chiRow, List.length_map, List.length_range, List.length_cons]; omega

theorem chunks_length (g : Nat → Nat) : (chunks 5 ((List.range 25).map g)).length = 5 := rfl

theorem keccakRound_length (a : List Nat) (rc : Nat) : (keccakRound a rc).length = 25 := by
  have h : ((chunks 5 (thetaRhoPi a)).flatMap chiRow).length = 25 := by
    rw [chiRow_length, thetaRhoPi, chunks_length]
  unfold keccakRound
  split
  · next hn => rw [hn] at h; exact h
  · next hc => rw [hc] at h; exact h

theorem keccakF_length (a : List Nat) (ha : a.length = 25) : (keccakF a).length = 25 := by
  have h : ∀ (l a : List Nat), a.length = 25 → (l.foldl keccakRound a).length = 25 := by
    intro l
    induction l with
    | nil => exact fun a h => h
    | cons r t ih => exact fun a _ => ih _ (keccakRound_length _ _)
  exact h _ _ ha

theorem keccakAbsorb_length (a : List Nat) (r : List Byte) (h : a.length = 25) : (keccakAbsorb a r).length = 25 := by
  unfold keccakAbsorb
  apply keccakF_length
  rw [List.length_map, List.length_zipIdx, h]

theorem leBytes_length (n v : Nat) : (leBytes n v).length = n := by
  induction n generalizing v with
  | zero => rfl
  | succ n ih => simp [leBytes, ih]

theorem sha3_length (m : List Byte) : (sha3 m).length = 64 := by
  have h : ∀ (l : List (List Byte)) (a : List Nat), a.length = 25 → (l.foldl keccakAbsorb a).length = 25 := by
    intro l
    induction l with
    | nil => exact fun a h => h
    | cons r t ih =>
      intro a h
      rw [List.foldl_cons]
      exact ih (keccakAbsorb a r) (keccakAbsorb_length a r h)
  have h8 : ∀ l : List Nat, (l.flatMap (leBytes 8)).length = 8 * l.length := by
    intro l
    induction l with
    | nil => rfl
    | cons x t ih => simp only [List.flatMap_cons, List.length_append, leBytes_length, ih, List.length_cons]; omega
  unfold sha3
  rw [h8, List.length_take, h _ _ (by decide)]
  rfl

/-- Bytes from an address as a map of the flash. -/
def cells (a : Nat) : List Byte → SMap Byte
  | [] => []
  | b :: t => SMap.consCell 0xFF a b (cells (a + 1) t)

theorem cells_below (l : List Byte) (a k : Nat) (h : k < a) : SMap.get 0xFF (cells a l) k = 0xFF := by
  induction l generalizing a with
  | nil => rfl
  | cons b t ih => exact SMap.get_consCell_gt _ _ _ _ _ h (ih _ (by omega))

theorem cells_get (l : List Byte) (a i : Nat) : SMap.get 0xFF (cells a l) (a + i) = l.getD i 0xFF := by
  induction l generalizing a i with
  | nil => rfl
  | cons b t ih =>
    cases i with
    | zero => exact SMap.get_consCell_self _ _ _ _ (cells_below t _ _ (by omega))
    | succ i =>
      have h := SMap.get_consCell_lt 0xFF a (a + (i + 1)) b (cells (a + 1) t) (by omega)
      have h2 := ih (a + 1) i
      rw [show a + 1 + i = a + (i + 1) from by omega] at h2
      rw [cells, h, h2, List.getD_cons_succ]

theorem cells_bytes (s : State) (l : List Byte) (a n : Nat) (hf : s.flash = cells a l) (hn : n ≤ l.length) : s.flashBytes a n = l.take n := by
  unfold State.flashBytes
  rw [hf]
  apply List.ext_getElem
  · simp [hn]
  · intro i h1 h2
    simp only [List.length_map, List.length_range] at h1
    simp only [List.getElem_map, List.getElem_range, cells_get, List.getElem_take]
    rw [List.getD_eq_getElem]

/-- Sections of an image: TYPE, INSTANCE, CRC and bytes. -/
abbrev Sects := List (Nat × Nat × Nat × List Byte)

/-- The section table (R37), its first section at `o`. -/
def sectsTable : Nat → Sects → List Byte
  | _, [] => []
  | o, x :: t => leBytes 1 x.1 ++ leBytes 1 x.2.1 ++ leBytes 2 0x0100 ++ leBytes 4 o ++ leBytes 4 x.2.2.2.length ++ leBytes 4 x.2.2.1 ++
      sectsTable (o + ceilDiv x.2.2.2.length 64 * 64) t

def sectsBody : Sects → List Byte
  | [] => []
  | x :: t => x.2.2.2 ++ zeros (ceilDiv x.2.2.2.length 64 * 64 - x.2.2.2.length) ++ sectsBody t

/-- A SCHEDULE of mode 0 without entries (R45): BUSY_NS and SLACK_NS 1000, COMMIT_TILE 0, or 16 while a region of die 0 is missing. -/
def schedBytes (n : Nat) : List Byte :=
  [0, if n = 0 then 0xFF else BitVec.ofNat 8 (n - 1), if n = 1 ∨ n = 2 then 16 else 0, 0] ++ leBytes 4 0 ++ leBytes 4 1000 ++ leBytes 4 1000 ++ zeros 16

/-- An image for the Q64: two tiles of role 2, one carve-out of DRAM, one mode, no queue, camera or claim, a frame of 10 ms with
beats of 50 us, and a checker whose one layer pools the occupancy grid into buffer 31. -/
def smallSects : Sects :=
  [(1, 0, 986484275, (List.range 64).flatMap fun n => leBytes 1 n ++ (if n = 0 ∨ n = 16 then [2, 0, 0, 0, 0] else [0, 0, 0, 0xFF, 0xFF]) ++ zeros 2),
   (2, 0, 3371885149, leBytes 4 0 ++ leBytes 2 16 ++ leBytes 2 16 ++ leBytes 2 100 ++ leBytes 2 1 ++ [0, 12] ++ zeros 50),
   (3, 0, 3051808641, (List.range 8).flatMap fun n => leBytes 1 n ++ zeros 7),
   (4, 0, 1114675946, zeros 16)] ++
  ([2472285904, 357843554, 1844650735, 3124946201, 3269821844, 2893926598, 3571101771, 1563627996, 630485329].zipIdx.map fun x =>
    (5, x.2, x.1, schedBytes x.2)) ++
  [(6, 0, 3437383095, leBytes 16 1 ++ leBytes 2 1 ++ [1, 1, 0xF0] ++ zeros 3 ++ leBytes 8 0x10000000000 ++ leBytes 8 0x20000 ++ zeros 8),
   (7, 0, 1114675946, zeros 16), (8, 0, 1114675946, zeros 16),
   (9, 0, 3142686506, leBytes 4 10000000 ++ leBytes 2 50000 ++ [1, 1, 8, 0] ++ leBytes 2 100 ++ leBytes 4 1000000 ++ leBytes 2 100 ++
     leBytes 2 800 ++ zeros 44),
   (10, 0, 3018049468, leBytes 16 1 ++ [0, 1, 0, 1, 1, 0, 0, 0]),
   (11, 0, 3262494470, leBytes 16 2 ++ [0, 8] ++ leBytes 2 1 ++ zeros 12 ++ [1, 0, 12, 0] ++ zeros 12),
   (12, 0, 620726102, leBytes 16 1 ++ leBytes 2 0 ++ leBytes 2 1 ++ zeros 60),
   (13, 0, 1820328853, leBytes 16 1 ++ zeros 6 ++ leBytes 2 1 ++ leBytes 4 10 ++ leBytes 4 100 ++ zeros 16),
   (14, 0, 672107760, leBytes 16 1 ++ zeros 64),
   (15, 0, 2585704086, leBytes 16 2 ++ [0, 0, 1, 1] ++ leBytes 2 8 ++ leBytes 2 8 ++ leBytes 3 20 ++ [2] ++ leBytes 4 600000 ++ zeros 16 ++
     [1, 2, 0, 0, 31] ++ zeros 27)]

/-- The table and the sections behind the header. -/
def smallBody : List Byte := sectsTable 512 smallSects ++ zeros 16 ++ sectsBody smallSects

/-- The header (R35) with a digest of 64 bytes. -/
def smallHead (digest : List Byte) : List Byte :=
  leBytes 4 0x49545351 ++ leBytes 2 0x0100 ++ leBytes 2 128 ++ leBytes 4 2624 ++ leBytes 2 23 ++ zeros 2 ++ [1, 3, 1, 1] ++
    leBytes 4 127 ++ leBytes 8 1 ++ leBytes 4 0 ++ leBytes 4 4627 ++ zeros 8 ++ ((List.range 64).map fun i => digest.getD i 0) ++ zeros 16

@[irreducible] def smallImage : List Byte := smallHead (sha3 smallBody) ++ smallBody

/-- A state whose flash holds the image in slot B, with two gigabytes of DRAM on die 0. -/
def unkeyed : State :=
  let fw : Firmware := { ({} : Firmware) with imageFmt := 0x0100 }
  let d := { liveDie with fwA := fw, fwB := fw }
  { started Image.blank 0 with
    chans := [(0, { ({} : ChanSt) with density := 1 })], flash := cells 0x2000000 smallImage, dies := [(0, d), (1, d), (2, d), (3, d)]
    upd := { ({} : UpdSt) with pregus := fw } }
@[irreducible] def withImage : State := keyed unkeyed

theorem smallImage_length : smallImage.length = 2624 := by decide +kernel

theorem smallImage_bytes : withImage.componentBytes (imageSlotBase 1) 0x1000000 = (smallImage, withImage.flashBytes (0x2000000 + 2624) 4627) := by
  have hf : withImage.flash = cells 0x2000000 smallImage := by unfold withImage; rfl
  have h1 := cells_bytes withImage smallImage 0x2000000 128 hf (by have := smallImage_length; omega)
  have h2 := cells_bytes withImage smallImage 0x2000000 2624 hf (Nat.le_of_eq smallImage_length.symm)
  have h3 : imgBodyLen (smallImage.take 128) = 2624 := by decide +kernel
  have h4 : smallImage.take 2624 = smallImage := List.take_of_length_le (Nat.le_of_eq smallImage_length)
  unfold State.componentBytes
  simp only [show imageSlotBase 1 = 0x2000000 from by decide, h1, h3]
  rw [if_pos (by decide), h2, h4]

theorem smallImage_digest : sha3 (smallImage.drop 128) = slice smallImage 0x30 64 := by
  have hl : (smallHead (sha3 smallBody)).length = 128 := by decide +kernel
  have h1 : smallImage.drop 128 = smallBody := by
    unfold smallImage
    rw [List.drop_append_of_le_length (by rw [hl]), List.drop_of_length_le (by rw [hl]), List.nil_append]
  have h2 : ∀ d b : List Byte, slice (smallHead d ++ b) 0x30 64 = (List.range 64).map fun i => d.getD i 0 := fun d b => rfl
  have h3 : ∀ d : List Byte, d.length = 64 → ((List.range 64).map fun i => d.getD i 0) = d := by
    intro d hd
    apply List.ext_getElem
    · simp [hd]
    · intro i h1 h2
      simp [h2]
  rw [h1, smallImage, h2, h3 _ (sha3_length _)]

theorem smallImage_header : withImage.headerOk smallImage = true := by decide +kernel

/-- The check value of a list that is cut into pieces of 64 bytes, from the register after each piece. -/
theorem crc_of_parts (c : Nat) (v : Nat → Nat) (l : List Byte) (n x : Nat) (h0 : v 0 = (polyOf c).init)
    (h : ∀ k, k < n → crcRun (polyOf c) (v k) ((l.drop (64 * k)).take 64) = v (k + 1)) (hn : l.drop (64 * n) = [])
    (hx : v n ^^^ (polyOf c).xorOut = x) : crc c l = x := by
  have hr : ∀ k, k ≤ n → crcRun (polyOf c) (v 0) l = crcRun (polyOf c) (v k) (l.drop (64 * k)) := by
    intro k
    induction k with
    | zero => exact fun _ => rfl
    | succ k ih =>
      intro hk
      rw [ih (by omega), ← h k (by omega), Nat.mul_succ, ← List.drop_drop]
      unfold crcRun
      rw [← List.foldl_append, List.take_append_drop]
  have h1 := hr n (Nat.le_refl n)
  rw [hn, h0] at h1
  show crcRun (polyOf c) (polyOf c).init l ^^^ (polyOf c).xorOut = x
  rw [h1]
  exact hx

/-- The entry of TILE_MAP. -/
def tileEntry : SectEntry := { type := 1, inst := 0, version := 0x0100, offset := 512, length := 512, crc := 986484275 }

theorem tileCrc : crc 3 (sectBytes smallImage tileEntry) = 986484275 :=
  crc_of_parts 3 (fun k => [0xFFFFFFFF, 1309898935, 783760939, 1568455244, 2951078225, 1702384245, 3482557775, 709631187, 3308483020].getD k 0) _ 8 _ (by decide) (by decide +kernel) (by decide +kernel) (by decide)

theorem firstBad_cons (c : Nat × Bool) (l : List (Nat × Bool)) (h1 : c.2 = true) (h2 : firstBad l = none) : firstBad (c :: l) = none := by
  simp [firstBad, h1, h2]

theorem smallImage_table : firstBad (tableOk smallImage [] 0 496 (sectTable smallImage)) = none := by
  have h : sectTable smallImage = tileEntry :: (sectTable smallImage).drop 1 := by decide +kernel
  have h2 : (crc 3 (sectBytes smallImage tileEntry) == tileEntry.crc) = true := by rw [tileCrc]; rfl
  rw [h]
  refine firstBad_cons _ _ ?_ (by decide +kernel)
  exact (Bool.and_eq_true _ _).mpr ⟨by decide +kernel, h2⟩

theorem step3_of (b : List Byte) (n : Nat) (h1 : imgSectCount b = n) (h2 : within 1 n 64 = true) (h3 : 0x80 + 16 * n ≤ imgBodyLen b)
    (h4 : firstBad (tableOk b [] 0 (0x80 + 16 * n) (sectTable b)) = none) (h5 : tableWhole b = true) : step3 b = none := by
  unfold step3
  simp [h1, h2, h4, h5, Nat.not_lt.mpr h3]

theorem smallImage_step3 : step3 smallImage = none :=
  step3_of _ 23 (by decide +kernel) (by decide) (by decide +kernel) smallImage_table (by decide +kernel)

theorem smallImage_step4 : step4 withImage.part smallImage (parseImage smallImage) = none := by decide +kernel
theorem smallImage_step5 : withImage.step5 smallImage (parseImage smallImage) = none := by decide +kernel
theorem smallImage_step6 : step6 smallImage (parseImage smallImage) = none := by decide +kernel
theorem smallImage_step7 : step7 smallImage (parseImage smallImage) = none := by decide +kernel
theorem smallImage_step8 : step8 smallImage (parseImage smallImage) = none := by decide +kernel

theorem valid_of (hv : ∀ p m g : List Byte, Config.mldsaVerify p m g = true) (s : State) (b g : List Byte) (h1 : (keyed s).headerOk b = true)
    (hd : sha3 (b.drop 128) = slice b 0x30 64) (hk : leAt b 0x20 4 = 0) (hs : leAt b 0x14 4 = 127) (hc : (keyed s).sec.cntStruct ≤ 127)
    (h3 : step3 b = none) (h4 : step4 (keyed s).part b (parseImage b) = none) (h5 : (keyed s).step5 b (parseImage b) = none)
    (h6 : step6 b (parseImage b) = none) (h7 : step7 b (parseImage b) = none) (h8 : step8 b (parseImage b) = none) :
    (keyed s).validate b g = .ok (parseImage b) := by
  have hn : ¬ 127 < (keyed s).sec.cntStruct := by omega
  have h2 : (keyed s).verifyComponent 1 (keyed s).sec.cntStruct b g = 0 := by
    unfold State.verifyComponent
    simp [hd, hk, hs, hn, signed_of hv s 1 (by decide)]
  unfold State.validate State.validateSections
  simp [h1, h2, h3, h4, h5, h6, h7, h8]

theorem slot_of (s : State) (k : Bool) (fws : List Firmware) (b g : List Byte) (h1 : s.componentBytes (imageSlotBase k.toNat) 0x1000000 = (b, g))
    (h2 : s.validate b g = .ok (parseImage b)) (h3 : fws.any (fun f => decide (f.imageFmt < (parseImage b).header.format)) = false) :
    s.checkSlot k fws = .ok (parseImage b) := by
  unfold State.checkSlot State.validateSlot
  rw [h1]
  simp only [h2, h3]
  rfl

theorem withImage_slot (hv : ∀ p m g : List Byte, Config.mldsaVerify p m g = true) :
    withImage.checkSlot true withImage.firmwareToRun = .ok (parseImage smallImage) := by
  refine slot_of _ _ _ _ _ smallImage_bytes ?_ (by decide +kernel)
  have h : withImage = keyed unkeyed := by unfold withImage; rfl
  have h1 := smallImage_header
  have h4 := smallImage_step4
  have h5 := smallImage_step5
  have hc : withImage.sec.cntStruct ≤ 127 := by decide +kernel
  rw [h] at h1 h4 h5 hc ⊢
  exact valid_of hv _ _ _ h1 smallImage_digest (by decide +kernel) (by decide +kernel) hc smallImage_step3 h4 h5 smallImage_step6
    smallImage_step7 smallImage_step8

theorem witness_UpdateAndSecurity_image (hv : ∀ p m g : List Byte, Config.mldsaVerify p m g = true) :
    ∃ (s : State) (i : Image), s.timeRuns = true ∧ s.updBusy = false ∧ s.activatePending = false ∧
      s.checkSlot (!s.upd.selImage) s.firmwareToRun = .ok i :=
  ⟨withImage, parseImage smallImage, by decide +kernel, by decide +kernel, by decide +kernel, by
    rw [show (!withImage.upd.selImage) = true from by decide +kernel]
    exact withImage_slot hv⟩

end Sys2Proof.Tests
end

section
/-! PROOFS of the family of 00_scope.md: what the host reaches through its register and memory accesses (R5, R409, R457 to R461). -/

namespace Sys2Proof.Machine

/-! ### Register accesses -/

theorem regAt_aligned {p : Part} {o : Nat} {r : Reg} (h : regAt p o = some r) : o % 4 = 0 := by
  by_contra hm
  simp [regAt, hm] at h

/-- A write at the offset of a register reaches the register, unless it comes from the host and the register's unit is closed (R409). -/
theorem State.registerWrite_reg {s : State} {ag : Agent} {o : Nat} {r : Reg} (ho : o < 0x10000000) (hr : regAt s.part o = some r)
    (hd : ag = .host → s.link.d3hot = false) (w : Nat) :
    s.registerWrite ag o w = if ag = .host ∧ !(s.unitOpen r.unit) then s.dropAt r.unit.dieOf else s.writeReg ag r w := by
  have hf : ¬ (ag = .host ∧ (o % 4 ≠ 0 ∨ s.link.d3hot)) := by
    rintro ⟨ha, hm | hx⟩
    · exact hm (regAt_aligned hr)
    · simp [hd ha] at hx
  rw [State.registerWrite, if_neg hf, if_pos ho, State.writeBar0, hr]

theorem State.registerWrite_doorbell {s : State} (hd : s.link.d3hot = false) {q : Nat} (hq : q < 0x8000) (w : Nat) :
    s.registerWrite .host (0x10000000 + 4 * q) w = s.hostDoorbell q w := by
  have hf : ¬ (Agent.host = .host ∧ ((0x10000000 + 4 * q) % 4 ≠ 0 ∨ s.link.d3hot)) := by simp [hd]
  have hb : bar2 (0x10000000 + 4 * q - 0x10000000) = .doorbell q := by
    rw [Nat.add_sub_cancel_left, bar2, if_pos (by omega), Nat.mul_div_cancel_left q (by decide)]
  rw [State.registerWrite, if_neg hf, if_neg (by omega), if_pos ⟨rfl, by omega⟩, State.writeBar2, hb]

theorem State.registerWrite_misaligned (s : State) {o : Nat} (ho : o % 4 ≠ 0) (w : Nat) :
    s.registerWrite .host o w = s.dropWrite 0x90 := by
  rw [State.registerWrite, if_pos ⟨rfl, .inl ho⟩]

theorem State.registerRead_reg {s : State} {o : Nat} {r : Reg} (ho : o < 0x10000000) (hr : regAt s.part o = some r)
    (hd : s.link.d3hot = false) (hu : s.unitOpen r.unit = true) : s.registerRead o 4 = s.readAnswer r := by
  have hf : ¬ ((4 : Nat) ≠ 4 ∨ o % 4 ≠ 0 ∨ s.link.d3hot) := by simp [hd, regAt_aligned hr]
  rw [State.registerRead, if_neg hf, if_pos ho, State.readBar0, hr]
  simp [hu]

theorem State.registerRead_size (s : State) (o : Nat) {size : Nat} (h : size ≠ 4) : s.registerRead o size = s.abortRead 1 0x90 := by
  rw [State.registerRead, if_pos (.inl h)]

/-! ### DOORBELL -/

theorem State.hostDoorbell_absent {s : State} {q : Nat} (h : s.part.queues ≤ q) (w : Nat) :
    s.hostDoorbell q w = s.updLink (fun l => { l with errLast := 0x90 }) := by
  rw [State.hostDoorbell, if_neg (by omega)]

theorem State.hostDoorbell_noEntry {s : State} {q : Nat} (h : q < s.part.queues) (ha : s.alloc q = none) (w : Nat) :
    s.hostDoorbell q w = s := by
  rw [State.hostDoorbell, if_pos h, State.doorbell, ha]

theorem State.hostDoorbell_fenced {s : State} {q : Nat} (h : q < s.part.queues) (ha : s.alloc q ≠ none)
    (ht : s.tileOpen (tileOfQueue q) = false) (w : Nat) :
    s.hostDoorbell q w = s.dropAt (dieOfTile (tileOfQueue q)) := by
  obtain ⟨a, ha⟩ := Option.ne_none_iff_exists'.mp ha
  rw [State.hostDoorbell, if_pos h, State.doorbell, ha]
  simp [ht]

/-! ### SEC_NONCE -/

theorem regAt_secNonce (p : Part) {i : Nat} (h : i < 8) : regAt p (0x20010 + 4 * i) = some (.secNonce i) := by
  interval_cases i <;> rfl

theorem mergeWord_full (old w : Nat) : mergeWord old w 0xFFFFFFFF = (BitVec.ofNat 32 w).toNat := by
  have h : BitVec.ofNat 32 0xFFFFFFFF = BitVec.allOnes 32 := by decide
  simp only [mergeWord, h, BitVec.not_allOnes, BitVec.and_zero, BitVec.zero_or, BitVec.and_allOnes]

theorem State.writeReg_secNonce (s : State) (ag : Agent) (i : Nat) (v : Word) :
    s.writeReg ag (.secNonce i) v.toNat = s.updSec (fun x => { x with nonce := SMap.set 0 x.nonce i v }) := by
  simp [State.writeReg, State.writeRw, State.writeAct, mergeWord_full]

/-! ### Memory -/

theorem SMap.bytes_drop_take (m : SMap Byte) (u i n k : Nat) (h : i + n ≤ k) :
    ((SMap.bytes m u k).drop i).take n = SMap.bytes m (u + i) n := by
  have hk : SMap.bytes m u k = SMap.bytes m u i ++ (SMap.bytes m (u + i) n ++ SMap.bytes m (u + i + n) (k - (i + n))) := by
    rw [SMap.bytes_append, SMap.bytes_append]
    congr 1
    omega
  rw [hk, List.drop_left' (SMap.length_bytes ..), List.take_left' (SMap.length_bytes ..)]

/-- A read of memory without errors gives the stored bytes and changes nothing. -/
theorem State.fetch_sound {s : State} (h : s.sound) (a : Nat) {n : Nat} (hn : n ≠ 0) :
    s.fetch a n = { st := s, status := 0, data := SMap.bytes s.mem a n } := by
  have hz := s.unitSize_cases a
  have hdiv : a / s.unitSize a * s.unitSize a + a % s.unitSize a = a := Nat.div_add_mod' ..
  have hmod : a % s.unitSize a < s.unitSize a := Nat.mod_lt _ (by omega)
  obtain ⟨k, hk, hf⟩ :=
    State.fetchUnits_sound h none (n / 8 + 6) (a / s.unitSize a * s.unitSize a) (a + n) _ le_rfl (by omega) (by omega)
  rw [Nat.sub_self] at hf
  unfold State.fetch State.units
  dsimp only
  rw [show ([] : List Byte) = SMap.bytes s.mem (a / s.unitSize a * s.unitSize a) 0 from rfl, hf]
  simp only [SMap.bytes_drop_take s.mem _ _ n k (show a % s.unitSize a + n ≤ k by omega), hdiv]

/-- A host write into memory without errors writes its bytes and changes nothing else. -/
theorem State.storeHost_sound {s : State} (h : s.sound) (a : Nat) (bs : List Byte) :
    ∃ m : SMap Byte, s.storeHost a bs = ({ s with mem := m }, 0) ∧
      ∀ x, SMap.get 0 m x = if a ≤ x ∧ x < a + bs.length then bs.getD (x - a) 0 else SMap.get 0 s.mem x := by
  obtain ⟨m, hs, hm⟩ := State.storeUnits_sound h false a bs none (by simp) (s.units a bs.length)
  refine ⟨m, hs, fun x => ?_⟩
  rw [hm]
  by_cases hx : a ≤ x ∧ x < a + bs.length
  · rw [if_pos ⟨hx.1, hx.2, s.units_covers a bs.length x hx.1 hx.2⟩, if_pos hx]
  · rw [if_neg (fun hc => hx ⟨hc.1, hc.2.1⟩), if_neg hx]

theorem State.hostMemoryWrite_memory {s : State} {o a : Nat} {bs : List Byte} (hd : s.link.d3hot = false) (hn : bs ≠ [])
    (hb : bar4 o = .memory a) (hc : s.covered a bs.length = true) (hx : s.carveClosed none a bs.length = false)
    (hs : (s.storeHost a bs).2 = 0) : s.hostMemoryWrite o bs false = (s.storeHost a bs).1 := by
  simp [State.hostMemoryWrite, State.hostWrite, hd, hn, hb, hc, hx, hs]

theorem State.hostMemoryRead_memory {s : State} {o a n : Nat} (hd : s.link.d3hot = false) (hn : n ≠ 0)
    (hb : bar4 o = .memory a) (hc : s.covered a n = true) (hx : s.carveClosed none a n = false)
    (hs : (s.fetch a n).status = 0) : s.hostMemoryRead o n false = (s.fetch a n).st.answerBytes (s.fetch a n).data := by
  simp [State.hostMemoryRead, State.hostRead, hd, hn, hb, hc, hx, hs]

/-- Settles O55: an access is followed to the register, the doorbell or the bytes that stand at its offset; memory without errors
holds what a host write stores, and a host read gives it. -/
theorem hostAccesses : Obligations.HostAccesses := by
  unfold Obligations.HostAccesses
  refine ⟨?regWrite, ?doorbellWrite, ?doorbell, ?misaligned, ?nonce, ?size, ?memWrite, ?memRead⟩
  case regWrite =>
    intro s ag o v r ho hr hd
    have hw := State.registerWrite_reg ho hr hd v.toNat
    constructor
    · intro hu
      rw [if_neg (by rintro ⟨ha, hc⟩; simp [hu ha] at hc)] at hw
      exact congrArg Host.Outcome.next hw
    · intro ha hu
      rw [if_pos ⟨ha, by simp [hu]⟩] at hw
      exact congrArg Host.Outcome.next hw
  case doorbellWrite =>
    intro s q v hd hq
    exact congrArg Host.Outcome.next (State.registerWrite_doorbell hd hq v.toNat)
  case doorbell =>
    intro s q v
    exact ⟨fun h => congrArg Host.Outcome.next (State.hostDoorbell_absent h _),
      fun h ha => congrArg Host.Outcome.next (State.hostDoorbell_noEntry h ha _),
      fun h ha ht => congrArg Host.Outcome.next (State.hostDoorbell_fenced h ha ht _)⟩
  case misaligned =>
    intro s o v ho
    exact congrArg Host.Outcome.next (s.registerWrite_misaligned ho v.toNat)
  case nonce =>
    intro s i v hd hi
    have hw : s.registerWrite .host (0x20010 + 4 * i) v.toNat = s.updSec (fun x => { x with nonce := SMap.set 0 x.nonce i v }) := by
      rw [State.registerWrite_reg (by omega) (regAt_secNonce _ hi) (fun _ => hd), if_neg (by simp [Reg.unit, State.unitOpen]),
        State.writeReg_secNonce]
    refine ⟨_, _, congrArg Host.Outcome.next hw,
      congrArg Host.Outcome.next (State.registerRead_reg (by omega) (regAt_secNonce _ hi) hd rfl), ?_, rfl⟩
    simp [State.readAnswer, State.readReg, State.answerWord, State.updLink, State.updSec]
  case size =>
    intro s o size h
    exact ⟨_, congrArg Host.Outcome.next (s.registerRead_size o h), rfl, rfl, rfl, rfl⟩
  case memWrite =>
    intro s o a bs hs hd hn hb hc hx
    obtain ⟨m, hst, hm⟩ := State.storeHost_sound hs a bs
    refine ⟨_, congrArg Host.Outcome.next (State.hostMemoryWrite_memory hd hn hb hc hx (by rw [hst])), ?_⟩
    rw [hst]
    exact ⟨rfl, hm⟩
  case memRead =>
    intro s o a n hs hd hn hb hc hx
    have hf := State.fetch_sound hs a hn
    have hr := State.hostMemoryRead_memory hd hn hb hc hx (by rw [hf])
    rw [hf] at hr
    exact congrArg Host.Outcome.next hr

end Sys2Proof.Machine
end

section
/-! PROOFS of the family of 00_scope.md: a command of the list of those that store nothing, and a state in which it stores. -/

namespace Sys2Proof.Machine

/-- An image in replay mode: region 0 owns a carve-out in the Peat of die 0, with the ring of die 0's decoder at its base and that of
queue 0, whose tile lies in region 0, at 0x1000. -/
def replayImage : Image :=
  { Image.blank with
    modes := [{ modeId := 0, determinism := 1, balance := 0, safety := 2, input := 2 }]
    queues := [{ queue := 0, engine := 0, doorbellOnly := true, ringBase := peatBase + 0x1000, ringLog2 := 4, balGroup := 0 }]
    carves := [{ id := 0, dram := false, eccClass := 1, owner := 0, base := peatBase, size := 0x10000 }]
    intake := { Image.blank.intake with decoders := [{ unit := 0, ringCarve := 0, ringLog2 := 6, ringOff := 0 }] } }

/-- One entry waits in the decoder's ring, and its first unit has a flipped address bit (R124); a command of queue 0 is in flight. -/
def badRingEntry : State :=
  { image := some replayImage
    flips := [(peatBase, [64])]
    queues := [(0, { inflight := [{}] })]
    dies := [(0, { pgood := true, dec := { tail := 1 } })] }

/-- Where queue 0 writes the completion entry of the command in flight. -/
def badRingEntryCompletion : Nat := peatBase + 0x1400

/-- The decoder's read of its entry fails the address check, which makes region 0 suspect (R124, R140). The region is fenced as the
command ends, and the command in flight of its queue 0 is answered with status 0x80, whose completion entry is written (R409). -/
theorem decoderEntryStart_stores :
    ∃ t : State, exec (.decoderEntryStart 0) badRingEntry = .next t ∧ t.byteAt badRingEntryCompletion = 0x80 :=
  ⟨_, rfl, by decide +kernel⟩

/-- Refutes O60: the list of the commands that store nothing holds DECODER_ENTRY_START, which answers the commands of a region that its
read of the ring makes suspect, and so writes their completion entries. -/
theorem not_everyCommandAnswers : ¬ Obligations.EveryCommandAnswers := by
  rintro ⟨-, storesNothing, -⟩
  obtain ⟨t, hexec, hbyte⟩ := decoderEntryStart_stores
  have hmem : t.mem = badRingEntry.mem := storesNothing (.decoderEntryStart 0) badRingEntry t rfl hexec
  have hzero : t.byteAt badRingEntryCompletion = 0 := by rw [State.byteAt, hmem]; rfl
  simp [hzero] at hbyte

end Sys2Proof.Machine
end

section
/-! PROOFS of the family of 01_architecture.md: a record lost to a full ring whose control block holds a triple bit error. -/

namespace Sys2Proof.Machine

/-- An image whose result ring has 256 places in a package-owned DRAM carve-out of ECC class ACT, at the start of die 0's window. -/
def dramRingImage : Image :=
  { Image.blank with carves := [{ id := 0, dram := true, eccClass := 1, owner := 0xF0, base := dramBase, size := 0x20000 }] }

/-- Three flipped bits in the ECC unit that holds LOST and the four reserved bytes behind it (R100): data bits 32, 33 and 36. Code S takes
them for one error in bit 38, so the read is good and gives those four bits wrong (R124). -/
def reservedFlips : List Nat := [32, 33, 36]

/-- The record of beat 0 is due, WR_SEQ is 256 and the host has read none of the 256 records of the ring; the unit of LOST has `reservedFlips`. -/
def fullRingBadUnit : State :=
  { image := some dramRingImage
    boot := .running
    dies := (List.range 4).map fun d => (d, { pwrEn := true, pgood := true })
    chans := [(0, { density := 1, populated := true, trained := true })]
    tb := { (({} : TimeBase).setNow (nsInst 2000)) with t0 := some 0 }
    beat := { next := 1, wrSeq := 256 }
    mem := [(dramBase + 1, 1)]
    flips := [(dramBase + 8, reservedFlips)] }

/-- The first reserved byte of the ring's control block, behind LOST (R100). -/
def reservedByteAddr : Nat := dramBase + 12

/-- The write of LOST covers half of its unit, so it writes back the other half as the miscorrected read gave it (R126): bits 0, 1, 4 and
6 of the first reserved byte are set. -/
theorem recordCommit_fullRingBadUnit_reserved : fullRingBadUnit.recordCommit.byteAt reservedByteAddr = 0x53 := by
  decide +kernel

/-- Refutes O30, by its clause on a full ring: LOST shares its ECC unit with reserved bytes, and where that unit holds a triple error,
the read-modify-write that counts the lost record changes them too. -/
theorem not_recordCommitWrites : ¬ Obligations.RecordCommitWrites := by
  rintro ⟨commits, -⟩
  have hfull : fullRingBadUnit.ringFull = true := by decide +kernel
  obtain ⟨t, hexec, -, -, -, -, hframe⟩ :=
    (commits fullRingBadUnit _ (by decide +kernel) (by decide +kernel) (by decide +kernel) rfl (by decide +kernel)
      (by decide +kernel) rfl).2 hfull
  obtain rfl : fullRingBadUnit.recordCommit = t := Host.Outcome.next.inj hexec
  have hkept := hframe reservedByteAddr (by decide +kernel)
  have hzero : fullRingBadUnit.byteAt reservedByteAddr = 0 := by decide +kernel
  simp [recordCommit_fullRingBadUnit_reserved, hzero] at hkept

end Sys2Proof.Machine
end

section
/-! PROOFS of the family of 02_structure_image.md: the rate, the first step and the re-epoch of the time base (R333 to R337). -/

namespace Sys2Proof.Machine

/-! ### The counter set to an instant -/

/-- The counter holds any instant within its span. -/
theorem TimeBase.setNow_now (tb : TimeBase) {t : Nat} (h : t < counterSpan) : (tb.setNow t).now = t := by
  simp only [counterSpan, nsInst, perNs] at h
  simp only [TimeBase.setNow, TimeBase.now, perNs, BitVec.toNat_ofNat]
  change (_ : Nat) = _
  omega

/-- TB_SET with a legal NS is an instant of the counter (R334). -/
theorem TimeBase.setInstant_lt {tb : TimeBase} (h : tb.set0.toNat % 2 ^ 30 < 10 ^ 9) : tb.setInstant < counterSpan := by
  have := tb.set1.isLt
  simp only [TimeBase.setInstant, counterSpan, nsInst, perNs]
  change (_ : Nat) < _
  omega

/-! ### Rearming after a jump of the counter (R337, R349) -/

/-- `t` differs from `s` at most in what SECOND-based comparators and PPS edges wait for. -/
def State.RearmOnly (s t : State) : Prop := t = s.updTb (fun tb => { tb with trigNext := t.tb.trigNext, ppsNext := t.tb.ppsNext })

theorem State.RearmOnly.trigNext {s t : State} (h : s.RearmOnly t) (f : TimeBase → SMap Nat) :
    s.RearmOnly (t.updTb (fun tb => { tb with trigNext := f tb })) := by
  have g := congrArg (fun x : State => x.updTb (fun tb => { tb with trigNext := f t.tb })) h
  exact g

theorem State.rearmSeconds_rearmOnly (s : State) : s.RearmOnly s.rearmSeconds := by
  unfold State.rearmSeconds
  refine List.foldlRecOn (motive := s.RearmOnly) _ _ rfl ?_
  intro acc h e _
  split
  · exact h.trigNext _
  · exact h

/-- Rearming leaves the reading alone. -/
@[simp] theorem State.rearmSeconds_now (s : State) : s.rearmSeconds.tb.now = s.tb.now := by rw [s.rearmSeconds_rearmOnly]; rfl

/-- The range replay rings alone change when a reading reaches them. -/
theorem State.reachReplay_eq (s : State) : s.reachReplay = { s with range := s.reachReplay.range } := by
  unfold State.reachReplay
  refine List.foldlRecOn (motive := fun t : State => t = { s with range := t.range }) _ _ rfl ?_
  intro acc h m _
  exact congrArg (fun x : State => x.updMac m (fun y => { y with replayAt := s.now })) h

/-! ### The first step (R333, R334) -/

theorem State.checkHeldStart_none {s : State} (h : s.ctx.txn = none) : s.checkHeldStart = s := by simp [State.checkHeldStart, h]

/-- With no START held, the first step touches the time base alone. -/
theorem State.firstStep_eq {s : State} (h : s.ctx.txn = none) (t : Instant) :
    s.firstStep t = (s.updTb (fun tb => { tb.setNow t with stepped := true, last := 0 })).rearmSeconds := by
  have hr := (s.updTb (fun tb => { tb.setNow t with stepped := true, last := 0 })).rearmSeconds_rearmOnly
  refine State.checkHeldStart_none ?_
  rw [hr]
  exact h

theorem State.firstStep_now {s : State} (h : s.ctx.txn = none) {t : Nat} (ht : t < counterSpan) : (s.firstStep t).tb.now = t := by
  rw [State.firstStep_eq h, State.rearmSeconds_now]
  exact TimeBase.setNow_now s.tb ht

theorem State.firstStep_frame {s : State} (h : s.ctx.txn = none) (t : Instant) :
    (s.firstStep t).tb.stepped = true ∧ (s.firstStep t).tb.last = 0 ∧ s.firstStep t = { s with tb := (s.firstStep t).tb } := by
  rw [State.firstStep_eq h, State.rearmSeconds_rearmOnly]
  exact ⟨rfl, rfl, rfl⟩

theorem State.step_first {s : State} (hr : s.timeRuns = true) (hs : s.tb.stepped = false) (hso : s.sourceSteps = false)
    (hn : s.tb.set0.toNat % 2 ^ 30 < 10 ^ 9) : s.step = s.firstStep s.tb.setInstant := by
  simp only [State.step, hr, hs, hso]
  simpa using fun hl => absurd hn (Nat.not_lt.mpr hl)

theorem State.step_again {s : State} (hr : s.timeRuns = true) (h : s.tb.stepped = true ∨ s.sourceSteps = true) :
    s.step = s.tbStatus 0x60 := by simp [State.step, hr, h]

theorem State.step_badNs {s : State} (hr : s.timeRuns = true) (hs : s.tb.stepped = false) (hso : s.sourceSteps = false)
    (hn : 10 ^ 9 ≤ s.tb.set0.toNat % 2 ^ 30) : s.step = s.tbStatus 0x64 := by
  simp only [State.step, hr, hs, hso]
  simpa using fun hl => absurd hl (Nat.not_lt.mpr hn)

/-! ### The rate (R335, R445) -/

theorem incrOk_iff (slewPpm v : Nat) :
    incrOk slewPpm v = true ↔ 2 ^ 33 ≤ v + 2 ^ 33 * slewPpm / 10 ^ 6 ∧ v ≤ 2 ^ 33 + 2 ^ 33 * slewPpm / 10 ^ 6 := by
  simp [incrOk]

/-- The word that TB_INCR_WRITE hands to the servo. -/
theorem execTbIncrWrite_taken {s : State} (hr : s.timeRuns = true) (hm : s.upd.servicesFrom ≤ s.mono) (lo hi : Word) :
    exec (.tbIncrWrite lo hi) s =
      .next ((s.updTb (fun tb => { tb with incrHeld := lo })).writeIncr (lo.toNat + hi.toNat % 16 * 2 ^ 32)) :=
  congrArg Host.Outcome.next (if_pos (by simp [hr, hm]))

theorem execTbIncrWrite_held {s : State} (h : s.timeRuns = false ∨ s.mono < s.upd.servicesFrom) (lo hi : Word) :
    exec (.tbIncrWrite lo hi) s = .next s := by
  refine congrArg Host.Outcome.next (if_neg ?_)
  rcases h with h | h <;> simp [h]

theorem State.writeIncr_ok {s : State} {v : Nat} (h : incrOk s.img.time.slewPpm v = true) :
    s.writeIncr v = s.updTb (fun tb => { tb with incr := BitVec.ofNat 36 v, last := 0 }) := if_pos h

theorem State.writeIncr_refused {s : State} {v : Nat} (h : incrOk s.img.time.slewPpm v = false) : s.writeIncr v = s.tbStatus 0x61 :=
  if_neg (by simp [h])

/-! ### The re-epoch (R336, R337) -/

/-- What a re-epoch of `d` ns at the instant `b` makes of the reading: round the span of the counter. -/
def reepochReading (b : Instant) (d : Int) : Int := (b + d * perNs) % (counterSpan : Int)

theorem reepochReading_nonneg (b : Instant) (d : Int) : 0 ≤ reepochReading b d := Int.emod_nonneg _ (by decide)

theorem reepochReading_lt (b : Instant) (d : Int) : reepochReading b d < counterSpan := Int.emod_lt_of_pos _ (by decide)

theorem jumpBy_eq (b : Instant) (d : Int) : jumpBy b d = reepochReading b d - b := rfl

/-- The time base that a re-epoch leaves, but for the comparators that it rearms. -/
def TimeBase.jumped (tb : TimeBase) (b : Instant) (d : Int) : TimeBase :=
  { tb.setNow (reepochReading b d).toNat with
    t0 := tb.t0.map (· + jumpBy b d), epoch := tb.epoch + 1, moves := jumpBy b d :: tb.moves, reepochAt := none }

theorem TimeBase.jumped_now (tb : TimeBase) (b : Instant) (d : Int) : ((tb.jumped b d).now : Int) = reepochReading b d := by
  have hlt : (reepochReading b d).toNat < counterSpan := by
    have := reepochReading_lt b d
    have := reepochReading_nonneg b d
    omega
  have hnow : (tb.jumped b d).now = (reepochReading b d).toNat := TimeBase.setNow_now tb hlt
  rw [hnow, Int.toNat_of_nonneg (reepochReading_nonneg b d)]

/-- The state of a re-epoch before its comparators are rearmed and its event is raised. -/
def State.jumpState (s : State) (b : Instant) (d : Int) : State :=
  let mv := fun (x : Instant) => ((x : Int) + jumpBy b d).toNat
  let k := s.frameOfBeat (((b : Int) - s.t0).toNat / nsInst s.beatNs)
  { s with
    tb := s.tb.jumped b d
    beat := { s.beat with reepochBefore := max s.beat.reepochBefore (k + 2) }
    saf := { s.saf with cmpAt := s.saf.cmpAt.map mv, result := s.saf.result.map (fun r => (r.1, r.2.1, mv r.2.2.1, r.2.2.2)) } }

theorem State.jump_eq {s : State} (h : s.ctx.txn = none) (b : Instant) (d : Int) :
    s.jump b d = (s.jumpState b d).rearmSeconds.reachReplay.raise 156 0xFF 0 := by
  have hmv : ((b : Int) + jumpBy b d).toNat = (reepochReading b d).toNat := by rw [jumpBy_eq]; congr 1; omega
  unfold State.jump State.jumpState TimeBase.jumped
  simp only [h, hmv]
  rfl

/-- A re-epoch touches the time base beyond the move itself only where comparators are rearmed. -/
theorem State.jump_tb {s : State} (h : s.ctx.txn = none) (b : Instant) (d : Int) :
    ∃ (g : SMap Nat) (p : Nat), (s.jump b d).tb = { s.tb.jumped b d with trigNext := g, ppsNext := p } := by
  rw [State.jump_eq h, State.raise_tb, State.reachReplay_eq, State.rearmSeconds_rearmOnly]
  exact ⟨_, _, rfl⟩

theorem State.jump_beat {s : State} (h : s.ctx.txn = none) (b : Instant) (d : Int) :
    (s.jump b d).beat = (s.jumpState b d).beat := by
  rw [State.jump_eq h, State.raise_beat, State.reachReplay_eq, State.rearmSeconds_rearmOnly]
  rfl

theorem State.jump_dies {s : State} (h : s.ctx.txn = none) (b : Instant) (d : Int) : (s.jump b d).dies = s.dies := by
  rw [State.jump_eq h, State.raise_dies, State.reachReplay_eq, State.rearmSeconds_rearmOnly]
  rfl

theorem State.jump_raisedTo {s : State} (h : s.ctx.txn = none) (b : Instant) (d : Int) : s.raisedTo (s.jump b d) [(156, 0xFF, 0)] := by
  rw [State.jump_eq h]
  refine State.raisedTo_of_events (State.raisedTo_raise _ _ _ _) ?_ rfl
  rw [State.reachReplay_eq, State.rearmSeconds_rearmOnly]
  rfl

theorem State.reepochApply_due {s : State} {b : Instant} {d : Int} (hp : s.tb.reepochAt = some (b, d)) (hb : b ≤ s.now) :
    s.reepochApply = s.jump b d := by simp [State.reepochApply, hp, hb]

/-- Settles O43: each command of the rate and of the epoch is followed to what it sets; the first step and the re-epoch set the counter
within its span and rearm what waits for its reading. -/
theorem stepAndReepoch : Obligations.StepAndReepoch := by
  unfold Obligations.StepAndReepoch
  refine ⟨?rate, ?range500, ?step, ?reepoch, ?apply⟩
  case rate =>
    intro s lo hi v d
    refine ⟨fun h => execTbIncrWrite_held h lo hi, ?_, ?_⟩
    · intro hr hm hv
      exact (execTbIncrWrite_taken hr hm lo hi).trans (congrArg Host.Outcome.next (State.writeIncr_ok ((incrOk_iff _ _).mpr hv)))
    · intro hr hm hv
      have hbad : incrOk s.img.time.slewPpm v = false := by
        rw [Bool.eq_false_iff, ne_eq, incrOk_iff]
        omega
      exact (execTbIncrWrite_taken hr hm lo hi).trans (congrArg Host.Outcome.next (State.writeIncr_refused hbad))
  case range500 =>
    intro v
    rw [incrOk_iff]
    omega
  case step =>
    intro s hr
    refine ⟨?_, ?_, ?_⟩
    · intro hs hso hn htxn
      exact ⟨s.firstStep s.tb.setInstant, congrArg Host.Outcome.next (State.step_first hr hs hso hn),
        State.firstStep_now htxn (TimeBase.setInstant_lt hn), State.firstStep_frame htxn _⟩
    · exact fun h => congrArg Host.Outcome.next (State.step_again hr h)
    · exact fun hs hso hn => congrArg Host.Outcome.next (State.step_badNs hr hs hso hn)
  case reepoch =>
    intro s
    exact ⟨fun h => congrArg Host.Outcome.next (if_pos h), fun h => congrArg Host.Outcome.next (if_neg (by simp [h]))⟩
  case apply =>
    intro s b d z hp hb _ ht0 htxn
    obtain ⟨g, p, htb⟩ := State.jump_tb htxn b d
    have hnow : ((s.jump b d).tb.now : Int) = reepochReading b d := by rw [htb]; exact s.tb.jumped_now b d
    refine ⟨s.jump b d, congrArg Host.Outcome.next (State.reepochApply_due hp hb), hnow, ?_, ?_, ?_, ?_, ?_, ?_, ?_,
      State.jump_raisedTo htxn b d⟩
    · rw [hnow, ← jumpBy_eq, htb]
      simp [TimeBase.jumped, ht0]
    · rw [htb]; rfl
    · rw [htb]; rfl
    · rw [htb]; rfl
    · rw [State.jump_beat htxn]; exact Nat.le_max_left _ _
    · rw [State.jump_beat htxn]; exact Nat.le_max_right _ _
    · intro e
      rw [State.die, State.jump_dies htxn]
      rfl

end Sys2Proof.Machine
end

section
/-! PROOFS of the family of 02_structure_image.md: reset, power, sensors, clocks and pins (R63, R448, R453, R492 to R508). -/

namespace Sys2Proof.Machine

/-! ### What the rules of power say of a die

A die that loses its power hangs: its port goes down and a fault fence answers what runs on it. None of that but the fence's own mark
changes the recovery state and the power of any die. -/

/-- The recovery state of a die, and its power (R404, R492, R504). -/
structure DiePower where
  u : UnitSt
  pwrEn : Bool
  pgood : Bool
  tripOff : Bool
  trips : List Instant

def DieSt.power (x : DieSt) : DiePower := { u := x.u, pwrEn := x.pwrEn, pgood := x.pgood, tripOff := x.tripOff, trips := x.trips }

/-- THERMTRIP_N and the power of each die. -/
def State.power (s : State) : Bool × (Nat → DiePower) := (s.thermTrip, fun d => (s.die d).power)

theorem State.power_thermTrip {s t : State} (h : t.power = s.power) : t.thermTrip = s.thermTrip := congrArg Prod.fst h

theorem State.power_die {s t : State} (h : t.power = s.power) (d : Nat) : (t.die d).power = (s.die d).power :=
  congrFun (congrArg Prod.snd h) d

theorem foldl_power {α : Type} (g : State → α → State) (l : List α) (s : State) (h : ∀ s x, (g s x).power = s.power) :
    (l.foldl g s).power = s.power :=
  List.foldlRecOn (motive := fun t : State => t.power = s.power) l g rfl fun t ht x _ => (h t x).trans ht

theorem ite_power (c : Prop) [Decidable c] (a b : State) : (if c then a else b).power = if c then a.power else b.power := apply_ite _ _ _ _

/-! ### Updates of the state -/

@[simp] theorem State.updTile_power (s : State) (t : Nat) (f : TileSt → TileSt) : (s.updTile t f).power = s.power := (rfl)
@[simp] theorem State.updQueue_power (s : State) (q : Nat) (f : QueueSt → QueueSt) : (s.updQueue q f).power = s.power := (rfl)
@[simp] theorem State.updCluUnit_power (s : State) (c : Nat) (f : UnitSt → UnitSt) : (s.updCluUnit c f).power = s.power := (rfl)
@[simp] theorem State.updRgnUnit_power (s : State) (g : Nat) (f : UnitSt → UnitSt) : (s.updRgnUnit g f).power = s.power := (rfl)
@[simp] theorem State.updSlot_power (s : State) (p : Nat) (f : SlotSt → SlotSt) : (s.updSlot p f).power = s.power := (rfl)
@[simp] theorem State.updChan_power (s : State) (c : Nat) (f : ChanSt → ChanSt) : (s.updChan c f).power = s.power := (rfl)
@[simp] theorem State.updBeat_power (s : State) (f : BeatSt → BeatSt) : (s.updBeat f).power = s.power := (rfl)
@[simp] theorem State.updAsh_power (s : State) (f : AshSt → AshSt) : (s.updAsh f).power = s.power := (rfl)
@[simp] theorem State.updLink_power (s : State) (f : HostLinkSt → HostLinkSt) : (s.updLink f).power = s.power := (rfl)
@[simp] theorem State.updUpd_power (s : State) (f : UpdSt → UpdSt) : (s.updUpd f).power = s.power := (rfl)
@[simp] theorem State.updLat_power (s : State) (f : LatSt → LatSt) : (s.updLat f).power = s.power := (rfl)
@[simp] theorem State.raise_power (s : State) (sev unit status : Nat) : (s.raise sev unit status).power = s.power := by
  rw [State.raise_eq]; rfl
@[simp] theorem State.raiseDie_power (s : State) (d sev unit status : Nat) : (s.raiseDie d sev unit status).power = s.power := by
  rw [State.raiseDie_eq]; rfl
@[simp] theorem State.msix_power (s : State) (v : Nat) : (s.msix v).power = s.power := (rfl)
@[simp] theorem State.draw_power (s : State) : s.draw.2.power = s.power := (rfl)
@[simp] theorem State.zeroRange_power (s : State) (a n : Nat) : (s.zeroRange a n).power = s.power := (rfl)
@[simp] theorem State.oweRowTest_power (s : State) (u : Nat) : (s.oweRowTest u).power = s.power := (rfl)

theorem State.suspects_power (s : State) (l : List (UnitKind × Nat × Nat)) : ({ s with suspects := l } : State).power = s.power := rfl

theorem State.memFlips_power (s : State) (m : SMap Byte) (f : SMap (List Nat)) :
    ({ s with mem := m, flips := f } : State).power = s.power := rfl

/-- An update of a die that keeps its recovery state and its power. -/
theorem State.updDie_power (s : State) (d : Nat) (f : DieSt → DieSt) (h : ∀ x, (f x).power = x.power) :
    (s.updDie d f).power = s.power := by
  refine Prod.ext rfl (funext fun e => ?_)
  change ((s.updDie d f).die e).power = (s.die e).power
  rw [State.updDie_die]
  split
  · next he => rw [h, he]
  · rfl

@[simp] theorem State.updPort_power (s : State) (p : Nat) (f : PortSt → PortSt) : (s.updPort p f).power = s.power :=
  s.updDie_power p _ fun _ => rfl

@[simp] theorem State.dropAt_power (s : State) (d : Nat) : (s.dropAt d).power = s.power := s.updDie_power d _ fun _ => rfl

/-! ### Memory (R124, R126) -/

@[simp] theorem State.undirty_power (s : State) (a : Nat) : (s.undirty a).power = s.power := by
  unfold State.undirty; (repeat' split) <;> rfl

@[simp] theorem State.recordRepairs_power (s : State) (es : List RepairEntry) : (s.recordRepairs es).power = s.power := by
  unfold State.recordRepairs
  split
  · rfl
  · exact foldl_power _ _ _ fun _ _ => rfl

@[simp] theorem State.repairDramRow_power (s : State) (a d : Nat) : (s.repairDramRow a d).power = s.power := by
  unfold State.repairDramRow
  dsimp only
  split
  · rfl
  · simp [State.recordRepair]

@[simp] theorem State.notePeat_power (s : State) (d : Nat) (last : Byte) :
    (s.updDie d (fun x => { x with peat := { x.peat with ue := satInc x.peat.ue, last := last } })).power = s.power :=
  s.updDie_power d _ fun _ => rfl

@[simp] theorem State.noteUncorrectable_power (s : State) (a : Nat) : (s.noteUncorrectable a).1.power = s.power := by
  unfold State.noteUncorrectable
  split <;> simp

@[simp] theorem State.suspectOwner_power (s : State) (a d : Nat) : (s.suspectOwner a d).power = s.power := by
  unfold State.suspectOwner
  split
  · split
    · exact (State.suspects_power (s.raiseDie d 54 d 0x33) _).trans (by simp)
    · simp
  · simp

@[simp] theorem State.noteAddress_power (s : State) (a : Nat) : (s.noteAddress a).power = s.power := by
  unfold State.noteAddress
  split
  · exact (State.suspects_power (State.raiseDie _ _ _ _ _) _).trans (by simp)
  · simp
  · simp

@[simp] theorem State.noteCorrected_power (s : State) (a : Nat) : (s.noteCorrected a).power = s.power := by
  unfold State.noteCorrected; split <;> rfl

@[simp] theorem State.linkTry_power (s : State) (u : Nat) : (s.linkTry u).1.power = s.power := by
  unfold State.linkTry
  split
  · dsimp only; (repeat' split) <;> simp
  · rfl

@[simp] theorem State.fetchStored_power (s : State) (u size : Nat) : (s.fetchStored u size).st.power = s.power := by
  unfold State.fetchStored; (repeat' split) <;> simp

@[simp] theorem State.fetchPart_power (s : State) (first : Bool) (u size : Nat) : (s.fetchPart first u size).st.power = s.power := by
  unfold State.fetchPart State.fetchUnit
  dsimp only
  (repeat' split) <;> simp

@[simp] theorem State.storeUnit_power (s : State) (first : Bool) (u size a : Nat) (bs : List Byte) :
    (s.storeUnit first u size a bs).1.power = s.power := by
  unfold State.storeUnit
  dsimp only
  split
  · split
    · split
      · simp
      · exact (State.memFlips_power ((s.undirty u).linkTry u).1 _ _).trans (by simp)
    · exact (State.memFlips_power (s.undirty u) _ _).trans (by simp)
  · split
    · simp
    · exact (State.memFlips_power ((s.undirty u).fetchPart first u size).st _ _).trans (by simp)

theorem State.storeUnits_power (stop : Bool) (a : Nat) (bs : List Byte) (l : List (Nat × Nat)) (line : Option (Nat × Bool)) (r : State × Nat) :
    (State.storeUnits stop a bs line l r).1.power = r.1.power := by
  induction l generalizing line r with
  | nil => rfl
  | cons e l ih =>
    simp only [State.storeUnits]
    split <;> simp [ih]

@[simp] theorem State.put_power (s : State) (a : Nat) (bs : List Byte) : (s.put a bs).power = s.power :=
  State.storeUnits_power _ _ _ _ _ _

/-! ### Commands and messages that a fence answers (R409, R410) -/

@[simp] theorem State.failInFlight_power (s : State) (q pos status : Nat) : (s.failInFlight q pos status).power = s.power := (rfl)
@[simp] theorem State.ackDropped_power (s : State) (q pos : Nat) : (s.ackDropped q pos).power = s.power := (rfl)
@[simp] theorem State.ackInFlight_power (s : State) (q pos : Nat) : (s.ackInFlight q pos).power = s.power := (rfl)

@[simp] theorem State.meFlags_power (s : State) (q : Nat) (f : InFlight) : (s.meFlags q f).power = s.power := by
  unfold State.meFlags; (repeat' split) <;> rfl

@[simp] theorem State.clearKindling_power (s : State) (f : InFlight) : (s.clearKindling f).power = s.power := by
  unfold State.clearKindling; split <;> rfl

@[simp] theorem State.complete_power (s : State) (a : QueueAlloc) (f : InFlight) (cycles : Nat) : (s.complete a f cycles).power = s.power := by
  unfold State.complete
  dsimp only
  split <;> simp

theorem State.completeAll_power (q status : Nat) (l : List InFlight) (s : State) : (s.completeAll q status l).power = s.power := by
  induction l generalizing s with
  | nil => rfl
  | cons f l ih =>
    rw [State.completeAll, ih]
    split <;> simp

@[simp] theorem State.answerQueue_power (s : State) (q status : Nat) : (s.answerQueue q status).power = s.power :=
  State.completeAll_power _ _ _ _

@[simp] theorem State.answerAllocs_power (tiles : List Nat) (status : Nat) (l : List QueueAlloc) (s : State) :
    (s.answerAllocs tiles status l).power = s.power := by
  induction l generalizing s with
  | nil => rfl
  | cons a l ih =>
    rw [State.answerAllocs, ih]
    split <;> simp

@[simp] theorem State.recallMessages_power (cmds : List (Nat × Nat)) (l : List Nat) (s : State) :
    (s.recallMessages cmds l).power = s.power := by
  induction l generalizing s with
  | nil => rfl
  | cons t l ih => rw [State.recallMessages, ih, State.updTile_power]

@[simp] theorem State.discardMessages_power (t : Nat) (l : List Message) (s : State) : (s.discardMessages t l).power = s.power := by
  induction l generalizing s with
  | nil => rfl
  | cons m l ih =>
    rw [State.discardMessages, ih]
    split <;> simp

@[simp] theorem State.dropUpdates_power (l : List StageUpdate) (s : State) : (s.dropUpdates l).power = s.power := by
  induction l generalizing s with
  | nil => rfl
  | cons u l ih => rw [State.dropUpdates, ih, State.ackInFlight_power, State.dropAt_power]

@[simp] theorem State.answerTiles_power (s : State) (tiles : List Nat) (status : Nat) : (s.answerTiles tiles status).power = s.power := by
  unfold State.answerTiles
  dsimp only
  split <;> simp [foldl_power]

/-! ### The fence of a die (R404, R409, R412) -/

@[simp] theorem State.refreshMissing_power (s : State) : s.refreshMissing.power = s.power := by
  unfold State.refreshMissing
  dsimp only
  split <;> simp

/-- A change of a unit inside a die is none of the die. -/
theorem State.updUnit_power (s : State) {k : UnitKind} (hk : k ≠ .die) (u : Nat) (f : UnitSt → UnitSt) : (s.updUnit k u f).power = s.power := by
  cases k
  case die => exact absurd rfl hk
  all_goals rfl

theorem enclosed_ne_die {k : UnitKind} {u : Nat} : ∀ e ∈ enclosed k u, e.1 ≠ .die := by
  intro e he
  cases k <;> simp only [enclosed, List.mem_append, List.mem_map, List.mem_cons, List.not_mem_nil, or_false] at he
  all_goals grind

@[simp] theorem State.absorb_power (s : State) (k : UnitKind) (u : Nat) : (s.absorb k u).power = s.power := by
  unfold State.absorb
  refine List.foldlRecOn (motive := fun t : State => t.power = s.power) _ _ rfl fun t ht e he => ?_
  dsimp only
  split
  · exact ht
  · rw [State.updUnit_power _ (enclosed_ne_die e he), State.setUnit, State.updUnit_power _ (enclosed_ne_die e he), ht]

@[simp] theorem State.endDrains_power (s : State) (k : UnitKind) (u : Nat) : (s.endDrains k u).power = s.power := by
  refine (foldl_power _ _ _ fun t f => ?_).trans (s.updDie_power _ _ fun _ => rfl)
  simp [State.failStage, State.stageFail]

/-- The recovery state of a die that a fault fence takes. -/
def State.fencedDie (s : State) (d cause : Nat) : UnitSt :=
  { (s.die d).u with
    state := .suspect, hostView := .suspect, pregusView := .suspect, cause := cause, fencedAt := s.dieStamp d, fencedBeat := s.curBeat
    fencedTag := d, resetReq := true, sumsDone := [] }

theorem State.openFence_die (s : State) (d cause : Nat) :
    ((s.openFence .die d cause .suspect).die d).power = { (s.die d).power with u := s.fencedDie d cause } := by
  have h : (((s.endDrains .die d).absorb .die d).die d).power = (s.die d).power := State.power_die (by simp) d
  unfold State.openFence
  rw [State.raiseDie_die]
  simp only [State.setUnit, State.updUnit, State.updDie_die_self]
  generalize ((s.endDrains .die d).absorb .die d).die d = x at h ⊢
  simp only [DieSt.power, DiePower.mk.injEq] at h ⊢
  simp [h, State.fencedDie, dieOfUnit, unitsPerDie, State.unitTag]

theorem State.openFence_thermTrip (s : State) (d cause : Nat) : (s.openFence .die d cause .suspect).thermTrip = s.thermTrip := by
  have h : ((s.endDrains .die d).absorb .die d).thermTrip = s.thermTrip := State.power_thermTrip (by simp)
  simp only [State.openFence, State.raiseDie_thermTrip, State.setUnit, State.updUnit, State.updDie_thermTrip, h]

/-- A die in service that a fault makes suspect is fenced at once: no domain encloses it (R412), and no takeover holds it back (R423). -/
theorem State.suspectUnit_die {s : State} {d : Nat} (h : (s.die d).u.state = .inService) (cause : Nat) :
    (s.suspectUnit .die d cause).power = (s.openFence .die d cause .suspect).power := by
  have hstate : (s.unit .die d).state = .inService := h
  simp [State.suspectUnit, hstate, State.underRecovery, enclosing, State.recoveryHeld]

/-- A hang of a die in service takes its recovery state to SUSPECT with the hang's cause, and nothing of its power. -/
theorem State.hang_die {s : State} {d : Nat} (h : (s.die d).u.state = .inService) (cause : Nat) :
    ((s.hang .die d cause).die d).power = { (s.die d).power with u := (s.raiseDie d cause d 0).fencedDie d cause } ∧
      (s.hang .die d cause).thermTrip = s.thermTrip := by
  have hstate : (s.unit .die d).state = .inService := h
  have hd : dieOfUnit .die d = d := Nat.div_one d
  have hhang : s.hang .die d cause = (s.raiseDie d cause d 0).suspectUnit .die d cause := by
    rw [State.hang, if_pos (by simp [hstate, UnitState.canHang]), hd]
    rfl
  have hpower : (s.hang .die d cause).power = ((s.raiseDie d cause d 0).openFence .die d cause .suspect).power := by
    rw [hhang, State.suspectUnit_die (by rw [State.raiseDie_die]; exact h)]
  constructor
  · rw [State.power_die hpower, State.openFence_die, State.raiseDie_die]
  · rw [State.power_thermTrip hpower, State.openFence_thermTrip, State.raiseDie_thermTrip]

/-! ### A port goes down (R474, R483) -/

@[simp] theorem State.queueAt_power (s : State) (p : Nat) (k : Packet) : (s.queueAt p k).power = s.power := s.updPort_power p _

@[simp] theorem State.mgmtThrough_power (s : State) (p dst vl : Nat) (b : List Byte) : (s.mgmtThrough p dst vl b).power = s.power := by
  unfold State.mgmtThrough; split <;> simp

@[simp] theorem State.toMailbox_power (s : State) (b : List Byte) : (s.toMailbox b).power = s.power := by
  unfold State.toMailbox; split <;> simp

@[simp] theorem State.stampMgmt_power (s : State) (m : Mgmt) : (s.stampMgmt m).1.power = s.power := (rfl)

@[simp] theorem State.sendLinkDown_power (s : State) (p : Nat) : (s.sendLinkDown p).power = s.power := by
  unfold State.sendLinkDown
  dsimp only
  split
  · simp
  · simp [foldl_power]

@[simp] theorem State.lostRequest_power (s : State) (d : Nat) : (s.lostRequest d).power = s.power := s.raise_power _ _ _

@[simp] theorem State.loseOutstanding_power (p : Nat) (l : List (Nat × Nat × Nat)) (s : State) : (s.loseOutstanding p l).power = s.power := by
  induction l generalizing s with
  | nil => rfl
  | cons r l ih => rw [State.loseOutstanding, ih, State.lostRequest_power, State.failInFlight_power]

@[simp] theorem State.answerBack_power (s : State) (p : Nat) (k : Packet) (code : Nat) : (s.answerBack p k code).power = s.power := by
  unfold State.answerBack; split <;> simp

@[simp] theorem State.loseTransit_power (s : State) (p : Nat) (l : List (Nat × Packet)) : (s.loseTransit p l).power = s.power :=
  foldl_power _ _ _ fun _ _ => by simp

@[simp] theorem State.portOff_power (s : State) (d : Nat) : (s.portOff d).power = s.power := by
  unfold State.portOff State.downPort
  dsimp only
  split <;> simp

/-! ### A die without power (R492, R493, R504) -/

/-- A die in service that loses its power is SUSPECT with cause 206, without power. -/
theorem State.powerLost_die {s : State} {d : Nat} (h : (s.die d).u.state = .inService) :
    ∃ u : UnitSt, u.state = .suspect ∧ u.cause = 206 ∧
      ((s.powerLost d).die d).power = { (s.die d).power with u := u, pwrEn := false, pgood := false } ∧
      (s.powerLost d).thermTrip = s.thermTrip := by
  have hport : ((s.portOff d).die d).power = (s.die d).power := State.power_die (s.portOff_power d) d
  let s1 := (s.portOff d).updDie d (fun x => { x with pwrEn := false, pgood := false })
  have hs1 : (s1.die d).power = { (s.die d).power with pwrEn := false, pgood := false } := by
    rw [State.updDie_die_self, ← hport]
    rfl
  have hu : (s1.die d).u.state = .inService := (congrArg (fun p : DiePower => p.u.state) hs1).trans h
  have hlost : s.powerLost d = s1.hang .die d 206 := by
    have hunit : (s1.unit .die d).state = .inService := hu
    unfold State.powerLost
    simp only [s1] at hunit ⊢
    rw [hunit]
  obtain ⟨hdie, htrip⟩ := State.hang_die hu 206
  refine ⟨(s1.raiseDie d 206 d 0).fencedDie d 206, rfl, rfl, ?_, ?_⟩
  · rw [hlost, hdie, hs1]
  · rw [hlost, htrip, State.updDie_thermTrip, State.power_thermTrip (s.portOff_power d)]


/-! ### Package reset and start-up (R63, R448, R497) -/

/-- `t` differs from `s` at most in the recovery states of slots, clusters and regions. -/
def State.UnitsOnly (s t : State) : Prop := t = { s with slots := t.slots, cluUnits := t.cluUnits, rgnUnits := t.rgnUnits }

theorem State.UnitsOnly.setUnit {s t : State} (h : s.UnitsOnly t) {k : UnitKind} (hk : k ≠ .die) (u : Nat) (st : UnitState) :
    s.UnitsOnly (t.setUnit k u st) := by
  have g := congrArg (fun x : State => x.setUnit k u st) h
  cases k
  case die => exact absurd rfl hk
  all_goals exact g

theorem State.UnitsOnly.foldl_setUnit {s t : State} (h : s.UnitsOnly t) {k : UnitKind} (hk : k ≠ .die) (l : List Nat) (f : Nat → Nat)
    (st : UnitState) : s.UnitsOnly (l.foldl (fun acc i => acc.setUnit k (f i) st) t) :=
  List.foldlRecOn (motive := s.UnitsOnly) l _ h fun _ ha _ _ => ha.setUnit hk _ _

/-- What a Q48 lacks is switched off unit by unit (R30). -/
theorem State.gateQ48_unitsOnly (s : State) : s.UnitsOnly s.gateQ48 := by
  unfold State.gateQ48
  split
  · rfl
  · have hslots := State.UnitsOnly.foldl_setUnit (s := s) (t := s) rfl (k := .slot) (by decide) (List.range 20) (60 + ·) .off
    have hclusters := hslots.foldl_setUnit (k := .cluster) (by decide) (List.range 4) (12 + ·) .off
    exact (hclusters.setUnit (k := .region) (by decide) 6 .off).setUnit (k := .region) (by decide) 7 .off

theorem State.firmwareHeaderOk_congr {s t : State} (hp : t.part = s.part) (hst : t.stepping = s.stepping) (comp : Nat) (b : List Byte) :
    t.firmwareHeaderOk comp b = s.firmwareHeaderOk comp b := by
  unfold State.firmwareHeaderOk
  rw [hp, hst]

theorem State.flashBytes_congr {s t : State} (hf : t.flash = s.flash) : t.flashBytes = s.flashBytes := by
  funext a n
  simp only [State.flashBytes, hf]

theorem State.signedBy_congr {s t : State} (hf : t.flash = s.flash) (hs : t.sec = s.sec) : t.signedBy = s.signedBy := by
  funext slot role m g
  simp only [State.signedBy, State.publicKey, State.flashBytes_congr hf, hs]

theorem State.verifyComponent_congr {s t : State} (hf : t.flash = s.flash) (hs : t.sec = s.sec) (role counter : Nat) (b g : List Byte) :
    t.verifyComponent role counter b g = s.verifyComponent role counter b g := by
  unfold State.verifyComponent
  rw [State.signedBy_congr hf hs]

theorem State.componentBytes_congr {s t : State} (hf : t.flash = s.flash) : t.componentBytes = s.componentBytes := by
  funext base size
  simp only [State.componentBytes, State.flashBytes_congr hf]

/-- Which firmware a slot holds depends on the flash, the keys and counters, and the part alone (R447). -/
theorem State.loadFirmware_congr {s t : State} (hp : t.part = s.part) (hst : t.stepping = s.stepping) (hf : t.flash = s.flash)
    (hs : t.sec = s.sec) (comp : Nat) (slot : Bool) : t.loadFirmware comp slot = s.loadFirmware comp slot := by
  unfold State.loadFirmware
  dsimp only
  rw [State.componentBytes_congr hf, State.firmwareHeaderOk_congr hp hst, State.verifyComponent_congr hf hs, hs]

/-- The package as the boot ROM takes it over: with what is fitted, and without what a Q48 lacks. -/
def State.released (s : State) (ds : List (Nat × List Nat)) (bistOk : Bool) : State := ({ s with fitted := ds, bistOk := bistOk }).gateQ48

theorem State.released_eq (s : State) (ds : List (Nat × List Nat)) (bistOk : Bool) : s.released ds bistOk = { s with
    fitted := ds, bistOk := bistOk, slots := (s.released ds bistOk).slots, cluUnits := (s.released ds bistOk).cluUnits,
    rgnUnits := (s.released ds bistOk).rgnUnits } := State.gateQ48_unitsOnly _

theorem State.released_loadFirmware (s : State) (ds : List (Nat × List Nat)) (bistOk : Bool) (comp : Nat) (slot : Bool) :
    (s.released ds bistOk).loadFirmware comp slot = s.loadFirmware comp slot := by
  apply State.loadFirmware_congr <;> rw [State.released_eq]

theorem State.porRelease_test {s : State} (hb : s.boot = .held) (ht : s.thermTrip = false) (bistOk : Bool) (ds : List (Nat × List Nat)) :
    s.porRelease true bistOk ds = { (s.released ds bistOk).updSec (fun x => { x with testMode := true }) with boot := .testMode } := by
  rw [State.porRelease, if_neg (by simp [hb, ht])]
  rfl

theorem State.porRelease_boot {s : State} (hb : s.boot = .held) (ht : s.thermTrip = false) (bistOk : Bool) (ds : List (Nat × List Nat)) :
    s.porRelease false bistOk ds = (s.released ds bistOk).bootRom := by
  rw [State.porRelease, if_neg (by simp [hb, ht])]
  rfl

/-- Starting the time base changes it and the followers of the dies alone. -/
theorem State.startTime_eq (s : State) : s.startTime = { s with
    dies := s.startTime.dies, tb := { s.tb with sec := 0, ns := 0, frac := 0, incr := 0x200000000, incrHeld := 0 } } := by
  unfold State.startTime
  refine List.foldlRecOn (motive := fun t : State => t = { s with
    dies := t.dies, tb := { s.tb with sec := 0, ns := 0, frac := 0, incr := 0x200000000, incrHeld := 0 } }) _ _ rfl ?_
  intro acc h d _
  exact congrArg (fun x : State => x.updFollower d (fun f => { f with base := 0, baseTick := s.tb.ticks })) h

/-- The start-up of a package whose selected Pregus firmware verifies, up to the power of die 0. -/
def State.poweringUp (s : State) (f : Firmware) : State :=
  let s1 := (s.startTime.updUpd (fun u => { u with pregus := f, runPregus := s.upd.selPregus })).ashRestore.logFirmware 1 f
  ({ s1 with boot := .powering 0, tanexReset := false }).enablePower 0

theorem State.bootRom_ok {s : State} {f : Firmware} (h : s.loadFirmware 1 s.upd.selPregus = .ok f) : s.bootRom = s.poweringUp f := by
  simp only [State.bootRom, h]
  rfl

/-- What the boot ROM and the first steps of the firmware leave (R63 steps 1 to 3, R448). -/
theorem State.poweringUp_spec (s : State) (f : Firmware) :
    (s.poweringUp f).boot = .powering 0 ∧ ((s.poweringUp f).die 0).pwrEn = true ∧ (s.poweringUp f).upd.pregus = f ∧
      (s.poweringUp f).fitted = s.fitted ∧ (s.poweringUp f).bistOk = s.bistOk ∧ (s.poweringUp f).tanexReset = false ∧
      (s.poweringUp f).tb.now = 0 ∧ (s.poweringUp f).tb.incr = 0x200000000 := by
  have h := s.startTime_eq
  unfold State.poweringUp
  dsimp only
  generalize s.startTime = t at h ⊢
  have hfitted : t.fitted = s.fitted := by rw [h]
  have hbist : t.bistOk = s.bistOk := by rw [h]
  have hnow : t.tb.now = 0 := by rw [h]; simp [TimeBase.now]
  have hincr : t.tb.incr = 0x200000000 := by rw [h]
  simp [State.enablePower, State.logFirmware, State.logComponent, State.log, State.ashRestore, hfitted, hbist, hnow, hincr]

theorem State.porAssert_short (s : State) {ns : Nat} (h : ns ≤ 800) : s.porAssert ns = s := if_pos h

theorem State.porAssert_long (s : State) {ns : Nat} (h : 1200 ≤ ns) : s.porAssert ns = s.packageReset := by
  rw [State.porAssert, if_neg (by omega), if_pos h]

/-! ### Power good (R492, R493) -/

/-- A die whose power has been accepted: its port trains (R472). -/
def State.poweredOn (s : State) (d : Nat) : State :=
  ((s.updDie d (fun x => { x with pgood := true })).updDie d (fun x =>
    { x with follower := { x.follower with lastWord := s.mono, lost := false } })).updPort d (fun x =>
    { x with state := if x.state = 0 then 1 else x.state })

theorem State.pgoodRise_eq {s : State} {d : Nat} (hd : d < 4) (he : (s.die d).pwrEn = true) (hp : (s.die d).pgood = false) :
    s.pgoodRise d = if s.boot.awaits d then (s.poweredOn d).nextDie d else s.poweredOn d := by
  rw [State.pgoodRise, if_neg (by simp [hd, he, hp])]
  rfl

theorem State.poweredOn_pgood (s : State) (d : Nat) : ((s.poweredOn d).die d).pgood = true := by
  simp [State.poweredOn, State.updPort]

theorem State.poweredOn_port (s : State) (d : Nat) :
    ((s.poweredOn d).port d).state = if (s.port d).state = 0 then 1 else (s.port d).state := by
  rw [State.poweredOn, State.updPort_port_self, State.port, State.updDie_die_self, State.updDie_die_self]
  rfl

theorem State.poweredOn_die_ne (s : State) {d e : Nat} (h : e ≠ d) : (s.poweredOn d).die e = s.die e := by
  simp [State.poweredOn, State.updPort_die_ne _ _ _ _ h, State.updDie_die_ne _ _ _ _ h]

theorem State.nextDie_powering (s : State) {d : Nat} (h : d < 3) :
    s.nextDie d = ({ s with boot := .powering (d + 1) }).enablePower (d + 1) := if_pos h

theorem State.leaveOff_die (s : State) (d : Nat) : ((s.leaveOff d).die d).power = { (s.die d).power with u := { (s.die d).u with
    state := .suspect, hostView := .suspect, pregusView := .suspect, cause := 206, resetReq := false, fencedAt := s.stamp,
    fencedBeat := s.curBeat, fencedTag := d } } := by
  rw [State.leaveOff, State.power_die (State.refreshMissing_power _)]
  simp only [State.setUnit, State.updUnit, State.updDie_die_self]
  rfl

theorem State.pgoodTimeout_late {s : State} {d : Nat} (hd : d < 4) (he : (s.die d).pwrEn = true) (hp : (s.die d).pgood = false)
    (ha : s.boot.awaits d = false) (hl : (s.die d).pwrAt + nsInst 2000000 ≤ s.mono) :
    s.pgoodTimeout d = ((s.updDie d (fun x => { x with pwrEn := false })).raise 206 d 0).leaveOff d := by
  rw [State.pgoodTimeout, if_neg (by simpa [hd, he, hp] using hl)]
  simp [ha]

/-! ### Trips and the log of overheating (R503, R504, R508) -/

/-- A die whose sensor has tripped, before its power goes. -/
def State.tripped (s : State) (d : Nat) : State :=
  { s.updDie d (fun x => { x with tripOff := true, trips := s.mono :: x.trips }) with thermTrip := true }

theorem State.thermalTrip_running {s : State} {d : Nat} (hd : d < 4) (he : (s.die d).pwrEn = true) (ha : s.boot.awaits d = false) :
    s.thermalTrip d = ((s.tripped d).powerLost d).updDie d (fun x => { x with u := { x.u with resetReq := false } }) := by
  rw [State.thermalTrip, if_neg (by omega), if_neg (by simp [he]; omega)]
  simp only [ha]
  rfl

theorem State.tripped_die (s : State) (d : Nat) :
    (s.tripped d).die d = { s.die d with tripOff := true, trips := s.mono :: (s.die d).trips } :=
  s.updDie_die_self d (fun x => { x with tripOff := true, trips := s.mono :: x.trips })

theorem execThermalSample_die {s : State} {d : Nat} (hd : d < 4) (hp : (s.die d).pgood = true) (hu : (s.die d).u.state ≠ .resetting)
    (temps volts : List Int) (valid : List Bool) :
    exec (.thermalSample d temps volts valid) s = .next (s.sampleDie d (sensors 24 temps volts valid)) := by
  refine congrArg Host.Outcome.next ((if_neg (by omega)).trans (if_neg ?_))
  simp [hp, hu]
  omega

theorem execOverLog_due {s : State} {d : Nat} (hd : d < 4) (ho : (s.die d).overFlag = true)
    (hdue : ∀ x : Instant, (s.die d).overAt = some x → x + nsInst (10 ^ 9) ≤ s.mono) :
    exec (.overLog d) s = .next ((s.updDie d (fun y => { y with overAt := some s.mono })).updAsh (fun a =>
      a.append s.mono (s.dieStamp d) 1 0 0 d 1 [])) := by
  refine congrArg Host.Outcome.next (if_pos ⟨hd, ho, ?_⟩)
  split
  · rfl
  · next x hx => simpa using hdue x hx

/-! ### The spread of the clocks and the trigger pins (R496, R500) -/

theorem execSscOffWrite_open {s : State} {d : Nat} (hd : d < 4) (ho : s.dieOpen d = true) (w : Word) :
    exec (.sscOffWrite d w) s = .next (s.updDie d (fun x => x.writeClk s.vehicleLoaded w.toNat)) :=
  congrArg Host.Outcome.next ((if_neg (by omega)).trans (if_pos ho))

theorem DieSt.writeClk_taken {x : DieSt} {vehicle : Bool} {w : Nat} (hm : fld w 2 1 ≠ 3) (hs : bit w 0 = false ∨ vehicle = false) :
    (x.writeClk vehicle w).clkPending = some (BitVec.ofNat 2 (fld w 2 1), bit w 0) := by
  have hssc : (bit w 0 && vehicle) = false := by rcases hs with h | h <;> simp [h]
  simp [DieSt.writeClk, hm, hssc]

theorem DieSt.writeClk_refused {x : DieSt} {vehicle : Bool} {w : Nat} (h : fld w 2 1 = 3 ∨ (bit w 0 = true ∧ vehicle = true)) :
    (x.writeClk vehicle w).clkWerr = true := by
  rcases h with h | ⟨hb, hv⟩
  · simp [DieSt.writeClk, h]
  · simp [DieSt.writeClk, hb, hv]

theorem State.writeIocfg_idle {s : State} {n : Nat} (hn : n < 12) (h : s.trigActive n = false) (w : Nat) :
    s.writeIocfg n w = s.updTb (fun tb => { tb with iocfg := SMap.set 0x5 tb.iocfg n (BitVec.ofNat 32 (w % 16)) }) :=
  (if_neg (by omega)).trans (if_pos (by simp [h]))

theorem State.writeIocfg_active {s : State} {n : Nat} (hn : n < 12) (h : s.trigActive n = true) (w : Nat) :
    s.writeIocfg n w = s.updTb (fun tb => { tb with iocfgHeld := SMap.set none tb.iocfgHeld n (some (BitVec.ofNat 32 (w % 16))) }) :=
  (if_neg (by omega)).trans (if_neg (by simp [h]))

/-- Settles O59: each command of reset, power, sensors and pins is followed to the state that it leaves; a die that loses its power in
service hangs, and no part of its fence takes that mark back. -/
theorem powerAndPins : Obligations.PowerAndPins := by
  unfold Obligations.PowerAndPins
  refine ⟨?release, ?assert, ?power, ?sample, ?overLog, ?sscOff, ?modulation, ?iocfg, ?jtag⟩
  case release =>
    intro s bistOk ds hb ht
    refine ⟨⟨_, congrArg Host.Outcome.next (State.porRelease_test hb ht bistOk ds), rfl, rfl⟩, ?_⟩
    intro f hf
    have hupd : (s.released ds bistOk).upd = s.upd := by rw [State.released_eq]
    have hload : (s.released ds bistOk).loadFirmware 1 (s.released ds bistOk).upd.selPregus = .ok f := by
      rw [State.released_loadFirmware, hupd, hf]
    have hstart := (State.porRelease_boot hb ht bistOk ds).trans (State.bootRom_ok hload)
    obtain ⟨hboot, hpwr, hfw, hfit, hbist, htanex, hnow, hincr⟩ := (s.released ds bistOk).poweringUp_spec f
    refine ⟨_, congrArg Host.Outcome.next hstart, hboot, hpwr, hfw, hfit.trans ?_, hbist.trans ?_, htanex, hnow, hincr⟩
    all_goals rw [State.released_eq]
  case assert =>
    intro s ns
    refine ⟨fun h => congrArg Host.Outcome.next (s.porAssert_short h), fun h => ?_⟩
    exact ⟨_, congrArg Host.Outcome.next (s.porAssert_long h), rfl, rfl, rfl, rfl, rfl, rfl, rfl, rfl, rfl⟩
  case power =>
    intro s d hd he
    refine ⟨?_, ?_, ?_, ?_, ?_⟩
    · intro hp ha
      have hrise := (State.pgoodRise_eq hd he hp).trans (if_neg (by simp [ha]))
      exact ⟨_, congrArg Host.Outcome.next hrise, s.poweredOn_pgood d, s.poweredOn_port d, fun e h => s.poweredOn_die_ne h, rfl⟩
    · intro hp hb hlt
      have hrise := (State.pgoodRise_eq hd he hp).trans (if_pos (by simp [hb, Boot.awaits]))
      rw [State.nextDie_powering _ hlt] at hrise
      refine ⟨_, congrArg Host.Outcome.next hrise, ?_, rfl, ?_⟩
      · rw [State.enablePower, State.updDie_die_ne _ _ _ _ (by omega)]
        exact s.poweredOn_pgood d
      · rw [State.enablePower, State.updDie_die_self]
    · intro hp ha hl
      refine ⟨_, congrArg Host.Outcome.next (State.pgoodTimeout_late hd he hp ha hl), ?_⟩
      have hoff := State.leaveOff_die ((s.updDie d (fun x => { x with pwrEn := false })).raise 206 d 0) d
      refine ⟨(congrArg DiePower.pwrEn hoff).trans ?_, congrArg (fun p : DiePower => p.u.state) hoff,
        congrArg (fun p : DiePower => p.u.cause) hoff⟩
      rw [State.raise_die, State.updDie_die_self]
      rfl
    · intro hp hu
      obtain ⟨u, hsus, hcause, hdie, -⟩ := State.powerLost_die hu
      exact ⟨s.powerLost d, congrArg Host.Outcome.next (if_pos ⟨hd, he, hp⟩), congrArg DiePower.pwrEn hdie, congrArg DiePower.pgood hdie,
        (congrArg (fun p : DiePower => p.u.state) hdie).trans hsus, (congrArg (fun p : DiePower => p.u.cause) hdie).trans hcause⟩
    · intro hu ha
      obtain ⟨u, hsus, -, hdie, htrip⟩ := State.powerLost_die (s := s.tripped d) (d := d) (by rw [State.tripped_die]; exact hu)
      refine ⟨_, congrArg Host.Outcome.next (State.thermalTrip_running hd he ha), htrip, ?_⟩
      rw [State.updDie_die_self]
      rw [State.tripped_die] at hdie
      exact ⟨congrArg DiePower.tripOff hdie, congrArg DiePower.pwrEn hdie, (congrArg (fun p : DiePower => p.u.state) hdie).trans hsus, rfl,
        congrArg DiePower.trips hdie⟩
  case sample =>
    intro s d temps volts valid hd hp hu m r
    refine ⟨_, execThermalSample_die hd hp hu temps volts valid, ?_, ?_, ?_, ?_, ?_,
      fun e h => State.updDie_die_ne _ _ _ _ h, rfl⟩
    all_goals rw [State.sampleDie, State.updDie_die_self]
  case overLog =>
    intro s d hd ho hdue
    exact ⟨_, execOverLog_due hd ho hdue, by simp, rfl, rfl⟩
  case sscOff =>
    intro s d w hd ho
    refine ⟨_, execSscOffWrite_open hd ho w, ?_, ?_, ?_, ?_⟩
    all_goals rw [State.updDie_die_self]
    · rfl
    · rfl
    · exact fun hm hs => DieSt.writeClk_taken hm hs
    · exact fun h => DieSt.writeClk_refused h
  case modulation =>
    intro s d p hp
    exact congrArg Host.Outcome.next (by rw [hp])
  case iocfg =>
    intro s n w hn
    exact ⟨fun ht => congrArg Host.Outcome.next (State.writeIocfg_idle hn ht _),
      fun ht => congrArg Host.Outcome.next (State.writeIocfg_active hn ht _)⟩
  case jtag =>
    intro s op
    exact ⟨fun h => congrArg Host.Outcome.next (if_pos h), fun h => congrArg Host.Outcome.next (if_neg (by simp [h]))⟩

end Sys2Proof.Machine
end

section
/-! PROOFS of the family of 03_queues_and_beats.md: reset, commands that are not due, the sync engine, doorbells, the sync directory and
the schedule (R69, R76, R82 to R86, R91, R92). -/

namespace Sys2Proof.Machine

/-! ### Reset -/

/-- Settles O2: every part of the state after reset reads its default. -/
theorem resetValues : Obligations.ResetValues :=
  ⟨rfl, rfl, rfl, rfl, rfl, rfl, rfl, rfl, rfl, fun _ => ⟨rfl, rfl, rfl, rfl, rfl, rfl⟩⟩

/-! ### The command that an engine runs (R82, R84, R156) -/

/-- The command of the table for an opcode is one body, run as the opcode's command. -/
theorem exec_command (o : Op) (q : Nat) :
    ∃ body : Ctx → InFlight → State → State × InFlight, ∀ s : State, exec (o.command q) s = .next (s.runOp q o body) := by
  cases o <;> exact ⟨_, fun _ => rfl⟩

/-- A command that has to wait for the writes of earlier ones, or for its turn in the ME, does not run. -/
theorem State.runOp_waits {s : State} {q : Nat} {o : Op} {body : Ctx → InFlight → State → State × InFlight} {f : InFlight}
    (hf : (s.queue q).current = some f) (h : s.writesPending q f.tile = true ∨ s.meTurn f.tile f = false) : s.runOp q o body = s := by
  unfold State.runOp
  rw [hf]
  exact if_pos (Or.inr (h.imp_right fun hm => by simp [hm]))

/-- Settles O9: each opcode's command runs one body through `State.runOp`, which idles when no command of the opcode is due. -/
theorem engineIdlesWithoutCommand : Obligations.EngineIdlesWithoutCommand := by
  unfold Obligations.EngineIdlesWithoutCommand
  refine ⟨fun o s q h => ?_, fun o s q f hf h => ?_⟩
  · obtain ⟨body, hbody⟩ := exec_command o q
    rw [hbody, State.runOp_idle h]
  · obtain ⟨body, hbody⟩ := exec_command o q
    rw [hbody, State.runOp_waits hf h]

@[simp] theorem State.setCurrent_inflight (s : State) (q : Nat) (f : InFlight) :
    ((s.setCurrent q f).queue q).inflight = Machine.setCurrent f (s.queue q).inflight := by
  simp [State.setCurrent]

@[simp] theorem State.setCurrent_cluster (s : State) (q : Nat) (f : InFlight) (c : Nat) : (s.setCurrent q f).cluster c = s.cluster c := rfl

/-! ### The sync engine (R76, R86) -/

/-- A SETSYNC whose cluster takes it enters its value in the operations of the directory's next cycle. -/
theorem runSetsync_taken {s : State} {c : Ctx} {f : InFlight} (hc : refChip f.desc.signalRef.toNat = s.chip)
    (ht : s.clusterTakes (refCluster f.desc.signalRef.toNat) (s.draining c.tile) = true) :
    runSetsync c f s = (s.updCluster (refCluster f.desc.signalRef.toNat) (fun x => { x with
      sets := x.sets ++ [(1 + c.tile, refObject f.desc.signalRef.toNat, f.desc.signalAdd)] }), { f with sigDone := true }) := by
  simp [runSetsync, hc, ht]

theorem runSetsync_otherChip {s : State} {c : Ctx} {f : InFlight} (hc : refChip f.desc.signalRef.toNat ≠ s.chip) :
    runSetsync c f s = (s, { f with sigDone := true }) := if_pos hc

theorem runSetsync_closed {s : State} {c : Ctx} {f : InFlight} (hc : refChip f.desc.signalRef.toNat = s.chip)
    (ht : s.clusterTakes (refCluster f.desc.signalRef.toNat) (s.draining c.tile) = false) :
    runSetsync c f s = (s.dropAt (refCluster f.desc.signalRef.toNat / 4), { f with sigDone := true }) := by
  simp [runSetsync, hc, ht]

/-! ### Doorbells (R69, R409) -/

theorem State.doorbell_noEntry {s : State} {q : Nat} (h : s.alloc q = none) (tail : Nat) : s.doorbell q tail = s := by
  simp [State.doorbell, h]

theorem State.doorbell_fenced {s : State} {q : Nat} {a : QueueAlloc} (h : s.alloc q = some a) (ho : s.tileOpen (tileOfQueue q) = false)
    (tail : Nat) : s.doorbell q tail = s.dropAt (dieOfTile (tileOfQueue q)) := by
  simp [State.doorbell, h, ho]

/-- A doorbell for which the ring has no room sets DBERR alone. -/
theorem State.doorbell_full {s : State} {q tail : Nat} {a : QueueAlloc} (h : s.alloc q = some a) (ho : s.tileOpen (tileOfQueue q) = true)
    (hr : 2 ^ a.ringLog2 < (tail + 2 ^ 16 - (s.queue q).head.toNat) % 2 ^ 16) :
    s.doorbell q tail = s.updQueue q (fun x => { x with dberr := true }) := by
  simp only [State.doorbell, h, ho, if_pos hr]
  rfl

/-- A doorbell for which the ring has room sets TAIL alone. -/
theorem State.doorbell_room {s : State} {q tail : Nat} {a : QueueAlloc} (h : s.alloc q = some a) (ho : s.tileOpen (tileOfQueue q) = true)
    (hr : (tail + 2 ^ 16 - (s.queue q).head.toNat) % 2 ^ 16 ≤ 2 ^ a.ringLog2) :
    s.doorbell q tail = s.updQueue q (fun x => { x with tail := BitVec.ofNat 16 tail }) := by
  simp only [State.doorbell, h, ho, if_neg (Nat.not_lt.mpr hr)]
  rfl

/-- Settles O22: a doorbell of an allocated queue of an open tile, with its value mod 2^16. -/
theorem doorbellRule : Obligations.DoorbellRule := by
  unfold Obligations.DoorbellRule
  intro s q value a hq ha ho
  have hexec : exec (.doorbell q value) s = .next (s.doorbell q (value.toNat % 2 ^ 16)) := congrArg Host.Outcome.next (if_pos hq)
  have hmod : BitVec.ofNat 16 (value.toNat % 2 ^ 16) = BitVec.ofNat 16 value.toNat := BitVec.eq_of_toNat_eq (by simp)
  rw [hexec]
  refine ⟨fun hr => ?_, fun hr => ?_⟩
  · rw [State.doorbell_full ha ho hr]
  · rw [State.doorbell_room ha ho hr, hmod]

/-- Settles O10: each command of the sync engine runs its body once, and the bodies are followed case by case. -/
theorem syncEngineCommands : Obligations.SyncEngineCommands := by
  unfold Obligations.SyncEngineCommands
  refine ⟨?sync, ?taken, ?otherChip, ?closed, ?ring⟩
  case sync => exact fun s q f h => congrArg Host.Outcome.next (State.runOp_running h)
  case taken =>
    intro s q f h hc ht
    refine ⟨_, congrArg Host.Outcome.next (State.runOp_running h), ?_, ?_, ?_⟩ <;>
      rw [runSetsync_taken (c := s.ctxOf q f) hc ht]
    · simp [State.ctxOf]
    · rfl
    · exact State.setCurrent_inflight _ _ _
  case otherChip =>
    intro s q f h hc
    refine (congrArg Host.Outcome.next (State.runOp_running h)).trans ?_
    rw [runSetsync_otherChip hc]
  case closed =>
    intro s q f h hc ht
    refine (congrArg Host.Outcome.next (State.runOp_running h)).trans ?_
    rw [runSetsync_closed (c := s.ctxOf q f) hc ht]
  case ring =>
    intro s q f h
    have hexec : exec (.ring q) s = .next ((s.doorbell (f.desc.p 14 0) (f.desc.p 31 16)).setCurrent q { f with executed := true }) :=
      congrArg Host.Outcome.next (State.runOp_running h)
    dsimp only
    rw [hexec]
    refine ⟨fun hn => ?_, fun a ha => ⟨fun ho => ?_, fun ho hr => ?_, fun ho hr => ?_⟩⟩
    · rw [State.doorbell_noEntry hn]
    · rw [State.doorbell_fenced ha ho]
    · rw [State.doorbell_full ha ho hr]
    · rw [State.doorbell_room ha ho hr]

/-! ### The sync directory (R86) -/

/-- Of sets applied in order, an object keeps the last one that names it, or its count. -/
theorem SMap.get_foldl_set {β : Type} [DecidableEq β] (d : β) (l : List (Nat × Nat × β)) (m : SMap β) (k : Nat) :
    SMap.get d (l.foldl (fun m e => SMap.set d m e.2.1 e.2.2) m) k =
      ((l.filter (fun e => e.2.1 == k)).getLast?.map (·.2.2)).getD (SMap.get d m k) := by
  induction l generalizing m with
  | nil => rfl
  | cons e l ih =>
    rw [List.foldl_cons, ih, SMap.get_set]
    by_cases h : e.2.1 = k
    · simp only [h, List.filter_cons, BEq.rfl, if_pos, List.getLast?_cons, Option.map_some, Option.getD_some]
      cases (l.filter (fun e => e.2.1 == k)).getLast? <;> rfl
    · simp [h, Ne.symm h]

/-- Signals add up: an object grows by the sum of those that name it. -/
theorem SMap.get_foldl_add (l : List (Nat × Word)) (m : SMap Word) (k : Nat) :
    SMap.get 0 (l.foldl (fun m e => SMap.update 0 m e.1 (· + e.2)) m) k =
      SMap.get 0 m k + ((l.filter (fun e => e.1 == k)).map (·.2)).foldl (· + ·) 0 := by
  induction l generalizing m with
  | nil => simp
  | cons e l ih =>
    have hsum : ∀ (w : Word) (x : List Word), x.foldl (· + ·) w = w + x.foldl (· + ·) 0 := by
      intro w x
      induction x generalizing w with
      | nil => simp
      | cons y x ihx => rw [List.foldl_cons, ihx, List.foldl_cons, ihx (0 + y), zero_add, add_assoc]
    rw [List.foldl_cons, ih, SMap.get_update]
    by_cases h : e.1 = k
    · simp only [h, List.filter_cons, BEq.rfl, if_pos, List.map_cons, List.foldl_cons]
      rw [hsum (0 + e.2), zero_add, add_assoc]
    · simp [h, Ne.symm h]

/-- What one cycle of a directory makes of an object's count. -/
def ClusterSt.cycleCount (x : ClusterSt) (obj : Nat) : Word :=
  (((x.sets.mergeSort (fun a b => decide (a.1 ≤ b.1))).filter (fun e => e.2.1 == obj)).getLast?.map (·.2.2)).getD
      (SMap.get 0 x.sync obj) +
    ((x.signals.filter (fun e => e.1 == obj)).map (·.2)).foldl (· + ·) 0

theorem ClusterSt.get_applySync (x : ClusterSt) (obj : Nat) : SMap.get 0 x.applySync.sync obj = x.cycleCount obj := by
  simp only [ClusterSt.applySync, SMap.get_foldl_add, SMap.get_foldl_set, ClusterSt.cycleCount]

@[simp] theorem ClusterSt.applySync_sets (x : ClusterSt) : x.applySync.sets = [] := rfl
@[simp] theorem ClusterSt.applySync_signals (x : ClusterSt) : x.applySync.signals = [] := rfl

/-- A signal more in a cycle adds its value to its object. -/
theorem ClusterSt.cycleCount_signal (x : ClusterSt) (r : Nat) (w : Word) (obj : Nat) :
    ({ x with signals := x.signals ++ [(r, w)] } : ClusterSt).cycleCount obj = x.cycleCount obj + (if obj = r then w else 0) := by
  by_cases h : r = obj
  · simp [ClusterSt.cycleCount, h, List.filter_append, BitVec.add_assoc]
  · simp [ClusterSt.cycleCount, h, Ne.symm h, List.filter_append]

/-- Leaving waits changes queues alone. -/
theorem State.refreshWaits_eq (c : Nat) (l : List QueueAlloc) (s : State) :
    s.refreshWaits c l = { s with queues := (s.refreshWaits c l).queues } := by
  induction l generalizing s with
  | nil => rfl
  | cons a l ih =>
    rw [State.refreshWaits, ih]
    split <;> rfl

theorem State.syncApply_eq (s : State) (c : Nat) : s.syncApply c = { s with clusters := (s.syncApply c).clusters, queues := (s.syncApply c).queues } := by
  unfold State.syncApply
  rw [State.refreshWaits_eq]
  rfl

/-- The cycle of a directory acts on its own cluster alone. -/
theorem State.syncApply_cluster (s : State) (c d : Nat) :
    (s.syncApply c).cluster d = if d = c then (s.cluster c).applySync else s.cluster d := by
  unfold State.syncApply State.cluster
  rw [State.refreshWaits_clusters]
  exact SMap.get_update _ _ _ _ _

/-- Settles O21: the waits that the cycle ends are in the queues, and the cluster's part is `ClusterSt.get_applySync`. -/
theorem syncDirectoryCycle : Obligations.SyncDirectoryCycle := by
  unfold Obligations.SyncDirectoryCycle
  intro s c
  have hc : (s.syncApply c).cluster c = (s.cluster c).applySync := by simp [State.syncApply_cluster]
  refine ⟨s.syncApply c, rfl, fun obj => ?_, by simp [hc], by simp [hc], fun d hd => ?_, State.syncApply_eq s c⟩
  · unfold State.syncCount
    rw [hc]
    exact ClusterSt.get_applySync _ _
  · rw [State.syncApply_cluster, if_neg hd]

/-! ### The schedule (R91, R92) -/

@[simp] theorem State.schedDone_queue (s : State) (q : Nat) : s.schedDone.queue q = s.queue q := rfl

/-- Settles O29: each kind of entry is followed through the states of its tile or its cluster. -/
theorem scheduleEntries : Obligations.ScheduleEntries := by
  unfold Obligations.ScheduleEntries
  refine ⟨?release, ?missed, ?set, ?dropped, ?noRelease, ?noSet⟩
  case release =>
    intro s e hd hr ht
    have hexec : exec .scheduleRelease s = .next (s.releaseCredits (s.entryAt e) e.queue e.count).schedDone := by
      simp [exec, execScheduleRelease, hd, hr]
    refine ⟨_, hexec, ?_, ?_, ?_, fun p hp => ?_⟩ <;> simp only [State.releaseCredits, ht, if_pos]
    · simp
    · rfl
    · rfl
    · rw [State.schedDone_queue, State.updQueue_queue_ne s _ _ _ hp]
  case missed =>
    intro s e hd hr ht
    simp [exec, execScheduleRelease, hd, hr, State.releaseCredits, ht, State.schedDone]
  case set =>
    intro s e hd hr ho
    simp [exec, execSyncSet, hd, hr, State.setObject, ho, State.schedDone]
  case dropped =>
    intro s e hd hr ho
    simp [exec, execSyncSet, hd, hr, State.setObject, ho, State.schedDone]
  case noRelease =>
    intro s h
    unfold exec execScheduleRelease
    cases hd : s.schedDue with
    | none => rfl
    | some e => simp [h e hd]
  case noSet =>
    intro s h
    unfold exec execSyncSet
    cases hd : s.schedDue with
    | none => rfl
    | some e => simp [h e hd]

/-! ### Frames and beats (R89) -/

/-- A quotient rounded up is at most `n` exactly when the dividend is at most `n` divisors. -/
theorem ceilDiv_le_iff {a b n : Nat} (hb : 0 < b) : ceilDiv a b ≤ n ↔ a ≤ n * b := by
  unfold ceilDiv
  rw [Nat.div_le_iff_le_mul_add_pred hb, Nat.mul_comm]
  omega

/-- Settles O27: the first beat of a frame is a quotient rounded up, the frame of a beat one rounded down. -/
theorem beatGrid : Obligations.BeatGrid := by
  unfold Obligations.BeatGrid
  intro s n k hb hbf
  have hf : 0 < s.frameNs := by omega
  have hiff : ∀ i m : Nat, s.firstBeat i ≤ m ↔ i ≤ s.frameOfBeat m := fun i m => by
    rw [State.firstBeat, State.frameOfBeat, ceilDiv_le_iff hb, Nat.le_div_iff_mul_le hf]
  refine ⟨hiff k n, ?_, ?_⟩
  · have hlow : k ≤ s.frameOfBeat (s.firstBeat k) := (hiff k _).mp le_rfl
    have hhigh : ¬ k + 1 ≤ s.frameOfBeat (s.firstBeat k) := by
      intro h
      -- the frame is no shorter than a beat, so the beat before the first one of frame k would start in frame k too
      have h1 : (k + 1) * s.frameNs ≤ s.firstBeat k * s.beatNs := by
        rwa [State.frameOfBeat, Nat.le_div_iff_mul_le hf] at h
      have h2 : s.firstBeat k ≤ s.firstBeat k - 1 := by
        refine (ceilDiv_le_iff hb).mpr ?_
        rw [Nat.sub_mul, one_mul]
        have : (k + 1) * s.frameNs = k * s.frameNs + s.frameNs := by ring
        omega
      have h3 : s.firstBeat k = 0 := by omega
      rw [h3] at h1
      have : 0 < (k + 1) * s.frameNs := Nat.mul_pos (by omega) hf
      omega
    omega
  · have hle : s.firstBeat (s.frameOfBeat n) ≤ n := (hiff _ _).mpr le_rfl
    simp only [State.isBoundary, State.beatIndex, beq_iff_eq]
    omega

end Sys2Proof.Machine
end

section
/-! PROOFS of the family of 03_queues_and_beats.md: the commands of the engines whose effect is a plan of reads and writes to DST (R82 to
R85, R132, R133, R147, R154, R167, R168, R203, R512). -/

namespace Sys2Proof.Machine

/-! ### How an execution ends -/

/-- A command that ends with status 0x00 has the flags of its effect. -/
theorem InFlight.ends_ok (f : InFlight) (e : Effect) (free : Nat) : { f.ends e 0 free with executed := true } = f.ran e := by
  simp [InFlight.ends, InFlight.ran]

theorem runEffect_ok {s : State} {q : Nat} {f : InFlight} {consumes rounds exact : Bool} {verdict : State → Nat} {plan : List PlanStep}
    {e : Effect} (h : (s.endedWith q f consumes rounds exact verdict plan e).status = 0) :
    runEffect consumes rounds exact verdict plan e (s.ctxOf q f) f s =
      (s.endedWith q f consumes rounds exact verdict plan e, f.ends e 0 0) := if_pos h

theorem runEffect_fails {s : State} {q : Nat} {f : InFlight} {consumes rounds exact : Bool} {verdict : State → Nat} {plan : List PlanStep}
    {e : Effect} (h : (s.endedWith q f consumes rounds exact verdict plan e).status ≠ 0) :
    runEffect consumes rounds exact verdict plan e (s.ctxOf q f) f s =
      ({ s.endedWith q f consumes rounds exact verdict plan e with st := (s.endedWith q f consumes rounds exact verdict plan e).st.draw.2 },
       f.ends e (s.endedWith q f consumes rounds exact verdict plan e).status
         (Config.freeNat (s.endedWith q f consumes rounds exact verdict plan e).st.draw.1)) := if_neg h

/-- A running command whose body is its effect answers as its reads and writes end; a good one completes. -/
theorem State.runOp_effect {s : State} {q : Nat} {o : Op} {f : InFlight} {body : Ctx → InFlight → State → State × InFlight}
    {consumes rounds exact : Bool} {plan : List PlanStep} {e : Effect} (h : s.running q o f)
    (hbody : body (s.ctxOf q f) f s =
      ((runEffect consumes rounds exact (fun _ => 0) plan e (s.ctxOf q f) f s).1.st,
       (runEffect consumes rounds exact (fun _ => 0) plan e (s.ctxOf q f) f s).2)) :
    (s.ended q f consumes rounds exact plan e).answers q f e (.next (s.runOp q o body)) ∧
      (s.good q f consumes plan e →
        Host.Outcome.next (s.runOp q o body) = (.next ((s.ended q f consumes rounds exact plan e).st.setCurrent q (f.ran e)) :
          Host.Outcome State Fault Refusal)) := by
  have hok : (s.ended q f consumes rounds exact plan e).status = 0 →
      s.runOp q o body = (s.ended q f consumes rounds exact plan e).st.setCurrent q (f.ran e) := fun hs => by
    rw [State.runOp_running h, hbody, runEffect_ok hs]
    exact congrArg _ (f.ends_ok e 0)
  refine ⟨⟨fun hs => congrArg Host.Outcome.next (hok hs), fun hs => ?_⟩, fun hg => congrArg Host.Outcome.next (hok (State.ended_ok hg))⟩
  rw [State.runOp_running h, hbody, runEffect_fails hs]
  exact ⟨_, rfl⟩

/-! ### The vector engine -/

/-- Settles O13: each command's body is its effect (`State.runOp_effect`). -/
theorem vectorCommandsComplete : Obligations.VectorCommandsComplete := by
  unfold Obligations.VectorCommandsComplete
  refine ⟨?binary, ?unary, ?pool, ?reduce, ?norm⟩
  case binary => exact fun s q f a w t h ha hw ht => State.runOp_effect h (by simp only [runBinary, ha, hw, ht]; rfl)
  case unary => exact fun s q f a t h ha ht => State.runOp_effect h (by simp only [runUnary, ha, ht]; rfl)
  case pool => exact fun s q f a t h ha ht => State.runOp_effect h (by simp only [runPool, ha, ht]; rfl)
  case reduce => exact fun s q f a t h ha ht => State.runOp_effect h (by simp only [runReduce, ha, ht]; rfl)
  case norm => exact fun s q f a w t h ha hw ht => State.runOp_effect h (by simp only [runNorm, ha, hw, ht]; rfl)

/-! ### SOFTMAX (R246 to R254) -/

theorem Run.plan_ok_of_start {s : State} (h : s.sound) {c : Ctx} {fl : InFlight} {p : List PlanStep} (hg : ∀ x ∈ p, s.stepGood c fl false x) :
    (Run.plan c fl false p { st := s }).Ok s := Run.plan_ok h hg ⟨rfl, rfl⟩

/-- The reads of a SOFTMAX succeed in a memory without errors when each may be made and no entry of a STATS row is ahead. -/
theorem State.softmaxReads_ok {s : State} (h : s.sound) {c : Ctx} {f : InFlight} {a : Tensor}
    (hplan : ∀ p ∈ s.softmaxPlan f a, s.stepGood c f false p)
    (hstats : f.desc.p 49 48 = 1 → ∀ i : Nat, i < softmaxRows a → s.opens c (smAddr f.desc i) 32 ∧ (s.smOld f.desc i).next ≤ f.desc.p 56 51) :
    (s.softmaxReads c f a).Ok s := by
  refine Run.plan_ok h hplan ?_
  by_cases hm : f.desc.p 49 48 = 1
  · have hreads : (Run.plan c f false ((List.range (softmaxRows a)).map fun r => .raw (smAddr f.desc r) 32) { st := s }).Ok s := by
      refine Run.plan_ok_of_start h fun x hx => ?_
      obtain ⟨r, hr, rfl⟩ := List.mem_map.mp hx
      exact (hstats hm r (List.mem_range.mp hr)).1
    have hnext : ((List.range (softmaxRows a)).any fun r => decide (f.desc.p 56 51 < (s.smOld f.desc r).next)) = false := by
      simpa using fun r hr => (hstats hm r hr).2
    simp only [hm, decide_true, if_true, hnext]
    rwa [if_neg (by simp)]
  · simp only [hm, decide_false]
    exact ⟨rfl, rfl⟩

/-- The writes of a SOFTMAX succeed in a memory without errors where each may be made. -/
theorem State.storeAll_ok {s : State} (h : s.sound) (c : Ctx) (l : List SmWrite) (hl : ∀ x ∈ l, s.opens c x.1 x.2.length) :
    (State.storeAll c l s).2 = 0 := by
  induction l generalizing s with
  | nil => rfl
  | cons w l ih =>
    obtain ⟨m, hm⟩ := State.store_ok h w.1 w.2
    have ho : s.carveClosed (some c.region) w.1 w.2.length = false := hl w (by simp)
    have hrest := ih (State.sound_mem h m) (fun x hx => hl x (by simp [hx]))
    simpa [State.storeAll, ho, hm] using hrest

/-- SOFTMAX whose reads succeed performs all its writes. -/
theorem runSoftmax_read {s : State} {c : Ctx} {f : InFlight} {a : Tensor} (ha : f.src0 = some a) (hr : (s.softmaxReads c f a).status = 0) :
    runSoftmax c f s =
      let w := State.storeAll c (s.softmaxWrites f a) (s.softmaxReads c f a).st
      if w.2 = 0 then (w.1, f.ends { outs := s.softmaxOuts f a } 0 0)
      else (w.1.draw.2, f.ends { outs := s.softmaxOuts f a } w.2 (Config.freeNat w.1.draw.1)) := by
  simp only [runSoftmax, ha, hr, if_true, List.take_length, ne_eq, not_true, if_false]

/-- SOFTMAX with a read that fails has performed a first part of its writes. -/
theorem runSoftmax_unread {s : State} {c : Ctx} {f : InFlight} {a : Tensor} (ha : f.src0 = some a) (hr : (s.softmaxReads c f a).status ≠ 0) :
    ∃ n ≤ min (s.softmaxReads c f a).rows (s.softmaxWrites f a).length,
      let w := State.storeAll c ((s.softmaxWrites f a).take n) (s.softmaxReads c f a).st.draw.2
      runSoftmax c f s =
        (w.1.draw.2, f.ends { outs := s.softmaxOuts f a } (s.softmaxReads c f a).status (Config.freeNat w.1.draw.1)) := by
  refine ⟨Config.freeNat (s.softmaxReads c f a).st.draw.1 % (min (s.softmaxReads c f a).rows (s.softmaxWrites f a).length + 1),
    Nat.lt_succ_iff.mp (Nat.mod_lt _ (Nat.succ_pos _)), ?_⟩
  simp only [runSoftmax, ha, if_neg hr, if_pos hr, freePrefix]
  rfl

/-- A SOFTMAX that fails has no flag but SAT to leave open. -/
theorem InFlight.ends_softmax (f : InFlight) (outs : List Rounded) {status : Nat} (h : status ≠ 0) (free : Nat) :
    ∃ sat : Bool, { f.ends { outs := outs } status free with executed := true } =
      { f.ran { outs := outs } with status := BitVec.ofNat 8 status, sat := sat } :=
  ⟨outs.any (·.sat) && bit free 0, by simp [InFlight.ends, InFlight.ran, h, beq_eq_false_iff_ne.mpr h]⟩

/-- Settles O14: CVT and SCATTER by their effect; SOFTMAX by whether its reads and its writes succeed. -/
theorem conversionsComplete : Obligations.ConversionsComplete := by
  unfold Obligations.ConversionsComplete
  refine ⟨?cvt, ?scatter, ?softmax⟩
  case cvt => exact fun s q f a t h ha ht => State.runOp_effect h (by simp only [runCvt, ha, ht])
  case scatter => exact fun s q f a w t h ha hw ht => State.runOp_effect h (by simp only [runScatter, ha, hw, ht]; rfl)
  case softmax =>
    intro s q f a h ha
    have hexec : exec (.softmax q) s = .next ((runSoftmax (s.ctxOf q f) f s).1.setCurrent q
        { (runSoftmax (s.ctxOf q f) f s).2 with executed := true }) := congrArg Host.Outcome.next (State.runOp_running h)
    dsimp only
    rw [hexec]
    have hdone : (s.softmaxReads (s.ctxOf q f) f a).status = 0 →
        (State.storeAll (s.ctxOf q f) (s.softmaxWrites f a) (s.softmaxReads (s.ctxOf q f) f a).st).2 = 0 →
        (runSoftmax (s.ctxOf q f) f s).1.setCurrent q { (runSoftmax (s.ctxOf q f) f s).2 with executed := true } =
          (State.storeAll (s.ctxOf q f) (s.softmaxWrites f a) (s.softmaxReads (s.ctxOf q f) f a).st).1.setCurrent q
            (f.ran { outs := s.softmaxOuts f a }) := fun hr hw => by
      rw [runSoftmax_read ha hr]
      dsimp only
      rw [if_pos hw]
      exact congrArg _ (f.ends_ok _ 0)
    refine ⟨fun hr hw => congrArg Host.Outcome.next (hdone hr hw), fun hr hw => ?_, fun hr => ?_, fun hs hp hw hst => ?_⟩
    · obtain ⟨sat, hsat⟩ := f.ends_softmax (s.softmaxOuts f a) hw (Config.freeNat
        (State.storeAll (s.ctxOf q f) (s.softmaxWrites f a) (s.softmaxReads (s.ctxOf q f) f a).st).1.draw.1)
      refine ⟨sat, ?_⟩
      rw [runSoftmax_read ha hr]
      dsimp only
      rw [if_neg hw]
      exact congrArg (fun g => Host.Outcome.next (State.setCurrent _ q g)) hsat
    · obtain ⟨n, hn, hrun⟩ := runSoftmax_unread ha hr
      obtain ⟨sat, hsat⟩ := f.ends_softmax (s.softmaxOuts f a) hr (Config.freeNat (State.storeAll (s.ctxOf q f)
        ((s.softmaxWrites f a).take n) (s.softmaxReads (s.ctxOf q f) f a).st.draw.2).1.draw.1)
      refine ⟨n, sat, hn, ?_⟩
      rw [hrun]
      exact congrArg (fun g => Host.Outcome.next (State.setCurrent _ q g)) hsat
    · obtain ⟨hst0, hr0⟩ := State.softmaxReads_ok hs hp hst
      refine congrArg Host.Outcome.next (hdone hr0 ?_)
      rw [hst0]
      exact State.storeAll_ok hs _ _ hw

end Sys2Proof.Machine
end

section
/-! PROOFS of the family of 03_queues_and_beats.md: MM and CONV, and what they leave of the array's state (R147, R154, R167, R168, R189). -/

namespace Sys2Proof.Machine

/-! ### What an ME command leaves of the array (R154, R167, R168, R189) -/

@[simp] theorem State.residueCheck_nil (s : State) (tile : Nat) : s.residueCheck tile [] = s := rfl

theorem State.residueCheck_last {s : State} {bad : List Nat} {col : Nat} (h : bad.getLast? = some col) (tile : Nat) :
    s.residueCheck tile bad =
      (s.updTile tile (fun x => { x with residueErr := true, resCol := BitVec.ofNat 6 col })).raiseDie (dieOfTile tile) 16 tile 0 := by
  simp [State.residueCheck, h]

/-- The residue check leaves the counter and the registers of the array. -/
theorem State.residueCheck_array (s : State) (tile : Nat) (bad : List Nat) :
    ((s.residueCheck tile bad).tile tile).busy = (s.tile tile).busy ∧ ((s.residueCheck tile bad).tile tile).active = (s.tile tile).active ∧
      ((s.residueCheck tile bad).tile tile).shadow = (s.tile tile).shadow := by
  cases h : bad.getLast? with
  | none => simp [State.residueCheck, h]
  | some col => simp [State.residueCheck_last h]

/-- The part of `MeJob.settle` before the residue check: TIL_ARR_BUSY and the registers. -/
def MeJob.loaded (j : MeJob) (s s0 : State) (tile seen : Nat) (swaps : Bool) : State :=
  let regs := match j.sets.getLast? with
    | some set => j.setRegs s0 (s0.repairOf tile) set.1 set.2
    | none => []
  s.updTile tile (fun x => { x with
    busy := x.busy + BitVec.ofNat 32 seen
    active := if swaps then regs else x.active
    shadow := if swaps then regs else x.shadow })

theorem MeJob.settle_eq (j : MeJob) (s s0 : State) (f : InFlight) (tile seen : Nat) (swaps : Bool) :
    j.settle s s0 f tile seen swaps =
      if (s0.tile tile).residue && j.hasResidue then (j.loaded s s0 tile seen swaps).residueCheck tile (j.badCols s0 f seen)
      else j.loaded s s0 tile seen swaps := rfl

/-- The counter and the registers after a command are those before the residue check. -/
theorem MeJob.settle_array (j : MeJob) (s s0 : State) (f : InFlight) (tile seen : Nat) (swaps : Bool) :
    ((j.settle s s0 f tile seen swaps).tile tile).busy = ((j.loaded s s0 tile seen swaps).tile tile).busy ∧
      ((j.settle s s0 f tile seen swaps).tile tile).active = ((j.loaded s s0 tile seen swaps).tile tile).active ∧
      ((j.settle s s0 f tile seen swaps).tile tile).shadow = ((j.loaded s s0 tile seen swaps).tile tile).shadow := by
  rw [MeJob.settle_eq]
  split
  · exact State.residueCheck_array _ _ _
  · exact ⟨rfl, rfl, rfl⟩

theorem MeJob.settle_busy (j : MeJob) (s s0 : State) (f : InFlight) (tile seen : Nat) (swaps : Bool) :
    ((j.settle s s0 f tile seen swaps).tile tile).busy = (s.tile tile).busy + BitVec.ofNat 32 seen := by
  rw [(j.settle_array s s0 f tile seen swaps).1]
  simp [MeJob.loaded]

/-- The last weight set is swapped in where the command has still to do it. -/
theorem MeJob.settle_swaps {j : MeJob} {set : Nat × Nat} (h : j.sets.getLast? = some set) (s s0 : State) (f : InFlight) (tile seen : Nat) :
    ((j.settle s s0 f tile seen true).tile tile).active = j.setRegs s0 (s0.repairOf tile) set.1 set.2 ∧
      ((j.settle s s0 f tile seen true).tile tile).shadow = j.setRegs s0 (s0.repairOf tile) set.1 set.2 := by
  obtain ⟨-, hactive, hshadow⟩ := j.settle_array s s0 f tile seen true
  rw [hactive, hshadow]
  simp [MeJob.loaded, h]

theorem MeJob.settle_swapped (j : MeJob) (s s0 : State) (f : InFlight) (tile seen : Nat) :
    ((j.settle s s0 f tile seen false).tile tile).active = (s.tile tile).active ∧
      ((j.settle s s0 f tile seen false).tile tile).shadow = (s.tile tile).shadow := by
  obtain ⟨-, hactive, hshadow⟩ := j.settle_array s s0 f tile seen false
  rw [hactive, hshadow]
  simp [MeJob.loaded]

/-- Without a mismatch of residues no event is raised. -/
theorem MeJob.settle_quiet {j : MeJob} {s0 : State} {f : InFlight} {tile seen : Nat}
    (h : ¬ ((s0.tile tile).residue = true ∧ j.hasResidue = true ∧ j.badCols s0 f seen ≠ [])) (s : State) (swaps : Bool) :
    s.raisedTo (j.settle s s0 f tile seen swaps) [] := by
  have heq : j.settle s s0 f tile seen swaps = j.loaded s s0 tile seen swaps := by
    rw [MeJob.settle_eq]
    split
    · next hr =>
      obtain ⟨hr1, hr2⟩ := Bool.and_eq_true_iff.mp hr
      have hb : j.badCols s0 f seen = [] := by_contra fun hb => h ⟨hr1, hr2, hb⟩
      rw [hb, State.residueCheck_nil]
    · rfl
  rw [heq]
  exact State.raisedTo_nil rfl

/-- A mismatch of residues is kept with its column, and raises SEV-016. -/
theorem MeJob.settle_mismatch {j : MeJob} {s0 : State} {f : InFlight} {tile seen col : Nat} (hr : (s0.tile tile).residue = true)
    (hj : j.hasResidue = true) (hc : (j.badCols s0 f seen).getLast? = some col) (s : State) (swaps : Bool) :
    ((j.settle s s0 f tile seen swaps).tile tile).residueErr = true ∧
      ((j.settle s s0 f tile seen swaps).tile tile).resCol = BitVec.ofNat 6 col ∧
      s.raisedTo (j.settle s s0 f tile seen swaps) [(16, tile, 0)] := by
  rw [MeJob.settle_eq, if_pos (by simp [hr, hj]), State.residueCheck_last hc]
  have hlink : (j.loaded s s0 tile seen swaps).link = s.link := rfl
  refine ⟨by simp, by simp, State.raisedTo_of_events (State.raisedTo_raiseDie _ _ _ _ _) ?_ rfl⟩
  rw [State.updTile_link, hlink]

/-! ### MM and CONV (R85, R147, R159) -/

theorem runMe_ok {s : State} {q : Nat} {o : Op} {f : InFlight} {j : MeJob} (hj : f.meJob o = some j)
    (h : (s.ended q f true true false (j.plan f.desc) (j.effect s f)).status = 0) :
    runMe o (fun _ => 0) (s.ctxOf q f) f s =
      (j.settle (s.ended q f true true false (j.plan f.desc) (j.effect s f)).st s f f.tile
        (s.ended q f true true false (j.plan f.desc) (j.effect s f)).ready (decide (f.swaps < j.sets.length)),
       f.ends (j.effect s f) 0 0) := by
  simp only [runMe, hj]
  rw [runEffect_ok h]
  exact if_pos h

/-- A command that fails has let a number of outputs pass between those written and those ready, and swaps no set in. -/
theorem runMe_fails {s : State} {q : Nat} {o : Op} {f : InFlight} {j : MeJob} (hj : f.meJob o = some j)
    (h : (s.ended q f true true false (j.plan f.desc) (j.effect s f)).status ≠ 0) :
    let d := s.ended q f true true false (j.plan f.desc) (j.effect s f)
    ∃ n free : Nat, d.performed ≤ n ∧ n ≤ max d.performed d.ready ∧ runMe o (fun _ => 0) (s.ctxOf q f) f s =
      (j.settle d.st.draw.2.draw.2 s f f.tile n false, f.ends (j.effect s f) d.status free) := by
  intro d
  refine ⟨d.performed + Config.freeNat d.st.draw.2.draw.1 % (d.ready - d.performed + 1), Config.freeNat d.st.draw.1, Nat.le_add_right _ _, ?_, ?_⟩
  · have := Nat.mod_lt (Config.freeNat d.st.draw.2.draw.1) (show 0 < d.ready - d.performed + 1 by omega)
    omega
  · simp only [runMe, hj]
    rw [runEffect_fails h]
    exact if_neg h

/-- An ME command that runs without a check of its outputs ends as its job's reads and writes do, and leaves the array's state as
`MeJob.settle` says. -/
theorem meCommandCompletes {o : Op} (hexec : ∀ (s : State) (q : Nat), exec (o.command q) s = .next (s.runOp q o (runMe o (fun _ => 0))))
    {s : State} {q : Nat} {f : InFlight} {a w t : Tensor} (h : s.running q o f) (ha : f.src0 = some a) (hw : f.src1 = some w)
    (ht : f.dst = some t) :
    let j := MeJob.of o f.desc a w t
    let e := j.effect s f
    let d := s.ended q f true true false (j.plan f.desc) e
    let u := j.settle d.st s f f.tile d.ready (decide (f.swaps < j.sets.length))
    (d.status = 0 → exec (o.command q) s = .next (u.setCurrent q (f.ran e))) ∧
    (d.status ≠ 0 → ∃ n free : Nat, d.performed ≤ n ∧ n ≤ max d.performed d.ready ∧ exec (o.command q) s =
      .next ((j.settle d.st.draw.2.draw.2 s f f.tile n false).setCurrent q { f.ends e d.status free with executed := true })) ∧
    (s.good q f true (j.plan f.desc) e → exec (o.command q) s = .next (u.setCurrent q (f.ran e))) ∧
    (u.tile f.tile).busy = (d.st.tile f.tile).busy + BitVec.ofNat 32 d.ready ∧
    (∀ set : Nat × Nat, f.swaps < j.sets.length → j.sets.getLast? = some set →
      (u.tile f.tile).active = j.setRegs s (s.repairOf f.tile) set.1 set.2 ∧
      (u.tile f.tile).shadow = j.setRegs s (s.repairOf f.tile) set.1 set.2) ∧
    (j.sets.length ≤ f.swaps →
      (u.tile f.tile).active = (d.st.tile f.tile).active ∧ (u.tile f.tile).shadow = (d.st.tile f.tile).shadow) ∧
    (¬ ((s.tile f.tile).residue = true ∧ j.hasResidue = true ∧ j.badCols s f d.ready ≠ []) → d.st.raisedTo u []) ∧
    ∀ col : Nat, (s.tile f.tile).residue = true → j.hasResidue = true → (j.badCols s f d.ready).getLast? = some col →
      (u.tile f.tile).residueErr = true ∧ (u.tile f.tile).resCol = BitVec.ofNat 6 col ∧ d.st.raisedTo u [(16, f.tile, 0)] := by
  intro j e d u
  have hj : f.meJob o = some j := by simp only [InFlight.meJob, ha, hw, ht]; rfl
  have hrun := (hexec s q).trans (congrArg Host.Outcome.next (State.runOp_running h))
  have hok : d.status = 0 → exec (o.command q) s = .next (u.setCurrent q (f.ran e)) := fun hs => by
    rw [hrun, runMe_ok hj hs, f.ends_ok]
  refine ⟨hok, fun hs => ?_, fun hg => hok (State.ended_ok hg), j.settle_busy .., fun set hlt hset => ?_, fun hle => ?_,
    fun hq => MeJob.settle_quiet hq _ _, fun col hr hjr hc => MeJob.settle_mismatch hr hjr hc _ _⟩
  · obtain ⟨n, free, hlow, hhigh, hme⟩ := runMe_fails (q := q) hj hs
    refine ⟨n, free, hlow, hhigh, ?_⟩
    rw [hrun, hme]
  · simp only [u, decide_eq_true hlt]
    exact MeJob.settle_swaps hset _ _ _ _ _
  · simp only [u, decide_eq_false (Nat.not_lt.mpr hle)]
    exact j.settle_swapped ..

/-- Settles O15: both commands are `runMe`, for the job of their opcode. -/
theorem matrixCommandsComplete : Obligations.MatrixCommandsComplete := by
  unfold Obligations.MatrixCommandsComplete
  exact ⟨fun s q f a w t h ha hw ht => meCommandCompletes (o := .mm) (fun _ _ => rfl) h ha hw ht,
    fun s q f a w t h ha hw ht => meCommandCompletes (o := .conv) (fun _ _ => rfl) h ha hw ht⟩

end Sys2Proof.Machine
end

section
/-! PROOFS of the family of 03_queues_and_beats.md: FILL and COPY, and the statuses that reads and writes end with (R85, R124, R126, R132,
R133, R196, R203). -/

namespace Sys2Proof.Machine

/-! ### The statuses of reads and writes fit their field of eight bits -/

theorem State.noteUncorrectable_status (s : State) (a : Nat) : (s.noteUncorrectable a).2 < 256 := by
  unfold State.noteUncorrectable; split <;> simp

theorem State.linkTry_status (s : State) (u : Nat) : (s.linkTry u).2 < 256 := by
  unfold State.linkTry; dsimp only; (repeat' split) <;> simp

theorem State.fetchStored_status (s : State) (u z : Nat) : (s.fetchStored u z).status < 256 := by
  unfold State.fetchStored
  (repeat' split)
  · simp
  · simp
  · simp
  · simp
  · exact s.noteUncorrectable_status u

theorem State.fetchPart_status (s : State) (first : Bool) (u z : Nat) : (s.fetchPart first u z).status < 256 := by
  unfold State.fetchPart State.fetchUnit
  dsimp only
  (repeat' split)
  · exact s.linkTry_status u
  · exact State.fetchStored_status _ u z
  · exact s.fetchStored_status u z

theorem State.fetchUnits_status (line : Option Nat) (l : List (Nat × Nat)) {f : Fetch} (h : f.status < 256) :
    (State.fetchUnits line l f).status < 256 := by
  induction l generalizing line f with
  | nil => exact h
  | cons e l ih =>
    unfold State.fetchUnits
    split
    · exact h
    · exact ih _ (State.fetchPart_status _ _ _ _)

theorem State.cmdFetch_status (s : State) (c : Ctx) (a n : Nat) : (s.cmdFetch c a n).status < 256 := by
  unfold State.cmdFetch State.fetch
  split
  · simp
  · exact State.fetchUnits_status none _ (by decide : (0 : Nat) < 256)

theorem State.storeUnit_status (s : State) (first : Bool) (u z a : Nat) (bs : List Byte) : (s.storeUnit first u z a bs).2 < 256 := by
  unfold State.storeUnit
  dsimp only
  (repeat' split)
  · exact State.linkTry_status _ u
  · simp
  · simp
  · simp
  · exact State.fetchPart_status _ first u z
  · simp

theorem State.storeUnits_status (stop : Bool) (a : Nat) (bs : List Byte) (line : Option (Nat × Bool)) (l : List (Nat × Nat)) {r : State × Nat}
    (h : r.2 < 256) : (State.storeUnits stop a bs line l r).2 < 256 := by
  induction l generalizing line r with
  | nil => exact h
  | cons e l ih =>
    unfold State.storeUnits
    split
    · exact ih _ h
    · refine ih _ ?_
      dsimp only
      split
      · exact State.storeUnit_status _ _ _ _ _ _
      · exact h

theorem State.store_status (s : State) (a : Nat) (bs : List Byte) : (s.store a bs).2 < 256 :=
  State.storeUnits_status true a bs none _ (by decide : (0 : Nat) < 256)

theorem State.storeMerged_status (t : Tensor) (l : List (Row × Nat)) (s : State) (n : Nat) : (State.storeMerged t l s n).2.1 < 256 := by
  induction l generalizing s n with
  | nil => exact (by decide : (0 : Nat) < 256)
  | cons r l ih =>
    unfold State.storeMerged
    dsimp only
    split
    · exact State.store_status _ _ _
    · exact ih _ _

theorem State.storeGroups_status (exact_ : Bool) (t : Tensor) (l : List (List Row)) (s : State) (n : Nat) :
    (State.storeGroups exact_ t l s n).2.1 < 256 := by
  induction l generalizing s n with
  | nil => exact (by decide : (0 : Nat) < 256)
  | cons g l ih =>
    unfold State.storeGroups
    dsimp only
    (repeat' split)
    · exact ih _ _
    · exact State.storeMerged_status _ _ _ _
    · exact State.storeMerged_status _ _ _ _

theorem State.storeTrailer_status (c : Ctx) (t : Tensor) (h : ScaleHdr) (l : List Nat) (s : State) :
    (State.storeTrailer c t h l s).2 < 256 := by
  induction l generalizing s with
  | nil => exact (by decide : (0 : Nat) < 256)
  | cons j l ih =>
    unfold State.storeTrailer
    dsimp only
    (repeat' split)
    · exact State.cmdFetch_status _ _ _ _
    · exact State.store_status _ _ _
    · exact ih _

theorem Run.readUnits_status (l : List (Nat × Nat)) {r : Run} (h : r.status < 256) : (Run.readUnits l r).status < 256 := by
  induction l generalizing r with
  | nil => exact h
  | cons e l ih =>
    unfold Run.readUnits
    (repeat' split)
    · exact h
    · exact ih h
    · exact ih (State.fetchPart_status _ _ _ _)

theorem Run.read_status (c : Ctx) (a n : Nat) {r : Run} (h : r.status < 256) : (r.read c a n).status < 256 := by
  unfold Run.read
  (repeat' split)
  · exact h
  · exact (by decide : (0x38 : Nat) < 256)
  · exact Run.readUnits_status _ h

theorem Run.elems_status (c : Ctx) (fl : InFlight) (o lo n : Nat) {r : Run} (h : r.status < 256) :
    (r.elems c fl false o lo n).status < 256 := by
  unfold Run.elems
  split
  · exact h
  · next t _ _ =>
    have h2 : (r.read c (t.base + t.byteOff lo) (t.byteOff (lo + n - 1) + t.elemBytes - t.byteOff lo)).status < 256 :=
      Run.read_status c _ _ h
    rw [Bool.false_and, Bool.false_and]
    dsimp only
    split
    · simp
    · exact h2

/-- A plan of elements and bytes, of an opcode that reads no tags and scales of its operands, ends with a status of eight bits. -/
theorem Run.plan_status (c : Ctx) (fl : InFlight) (p : List PlanStep) (hp : ∀ o idx, PlanStep.scales o idx ∉ p) {r : Run}
    (h : r.status < 256) : (Run.plan c fl false p r).status < 256 := by
  induction p generalizing r with
  | nil => exact h
  | cons x p ih =>
    refine ih (fun o idx hm => hp o idx (List.mem_cons_of_mem _ hm)) ?_
    cases x with
    | elems o lo n =>
      simp only [Run.step]
      split
      · exact h
      · exact Run.elems_status c fl o lo n h
    | raw a n => exact Run.read_status c a n h
    | scales o idx => exact absurd List.mem_cons_self (hp o idx)
    | fresh => exact h
    | pass k => exact h
    | row => simp only [Run.step]; split <;> exact h

/-- A command without statistics and without a check of its outputs ends with a status of eight bits when its reads do. -/
theorem Run.finish_status (c : Ctx) (fl : InFlight) (exact_ : Bool) (e : Effect) {r : Run} (h : r.status < 256) :
    (r.finish c fl false exact_ (fun _ => 0) e).status < 256 := by
  unfold Run.finish
  split
  · exact h
  · next t ht =>
    lift_lets
    intro p closed w status tr status1 status2
    have hw : w.2.1 < 256 := by
      simp only [w]
      split
      · simp
      · exact State.storeGroups_status _ _ _ _ _
    have htr : tr.2 < 256 := by
      simp only [tr]
      split
      · exact State.storeTrailer_status _ _ _ _ _
      · simp
    have h0 : status < 256 := by simp only [status]; split <;> assumption
    have h1 : status1 < 256 := by simp only [status1]; split <;> assumption
    have h2 : status2 < 256 := by
      simp only [status2]
      split
      · exact h1
      · simp
    simp only [Bool.false_eq_true, false_and, and_false, if_false]
    split <;> exact h2

/-- In a memory without errors, a good command without statistics changes memory alone. -/
theorem Run.finish_mem {s : State} (h : s.sound) {c : Ctx} {fl : InFlight} {t : Tensor} (ht : fl.dst = some t) {e : Effect} {r : Run}
    (hr : r.Ok s) (hd : s.dstGood c fl e) : ∃ m : SMap Byte, (r.finish c fl false false (fun _ => 0) e).st = { s with mem := m } := by
  obtain ⟨hst, hs⟩ := hr
  obtain ⟨ho, hb⟩ := hd t ht
  have hc : s.carveClosed (some c.region) t.base t.extent = false := ho
  obtain ⟨m, k, hw⟩ := State.storeGroups_ok h false t (splitRows e.groups (e.rows.take e.rows.length)) 0
  simp only [Run.finish, ht, hs, hst, hc, if_true, Bool.and_false, Bool.false_eq_true, if_false, hw]
  cases hh : fl.hdrD with
  | none => exact ⟨m, rfl⟩
  | some hd =>
    obtain ⟨m', hm⟩ := State.storeTrailer_ok (State.sound_mem h m) c t hd (t.doneBlocks e.rows k) (fun j hj => hb hd hh k j hj)
    refine ⟨m', ?_⟩
    simp only [false_and, and_false, if_false, hm]

/-! ### FILL and COPY (R132, R133) -/

/-- The plan of a COPY names no scales: they are copied as bytes. -/
theorem copyPlan_noScales (a t : Tensor) : ∀ o idx, PlanStep.scales o idx ∉ copyPlan a t := by
  intro o idx hm
  obtain ⟨i, -, hi⟩ := List.mem_flatMap.mp hm
  unfold moveRead at hi
  split at hi <;> simp at hi

/-- The status that a COPY's reads and writes end with is that of its completion entry. -/
theorem State.ended_copy_status (s : State) (q : Nat) (f : InFlight) (a t : Tensor) (e : Effect) :
    (s.ended q f false false false (copyPlan a t) e).status < 256 :=
  Run.finish_status _ f false e (Run.plan_status _ f _ (copyPlan_noScales a t) (by decide : (0 : Nat) < 256))

/-- The trailer of a scaled tensor is copied where memory holds no error and the bytes of SRC0's trailer may be read. -/
theorem State.copyTrailer_ok {s : State} (h : s.sound) {c : Ctx} {a : Tensor} (t : Tensor)
    (ho : ∀ j : Nat, j < a.nblk → s.opens c (a.base + a.trailerOff + j) 1) (l : List Nat) : (State.copyTrailer c a t l s).2 = 0 := by
  induction l generalizing s with
  | nil => rfl
  | cons j l ih =>
    unfold State.copyTrailer
    split
    · rfl
    · next hj =>
      have hc : s.carveClosed (some c.region) (a.base + a.trailerOff + j) 1 = false := ho j (Nat.not_le.mp hj)
      have hf : s.cmdFetch c (a.base + a.trailerOff + j) 1 = s.fetch (a.base + a.trailerOff + j) 1 := by
        simp only [State.cmdFetch, hc, Bool.false_eq_true, if_false]
      obtain ⟨hst, hs⟩ := State.fetch_ok h (a.base + a.trailerOff + j) 1
      obtain ⟨m, hm⟩ := State.store_ok h (t.base + t.trailerOff + j)
        ((s.fetch (a.base + a.trailerOff + j) 1).data.take 1 ++ t.trailerEnd j)
      have hrest := ih (State.sound_mem h m) ho
      simpa only [hf, hs, hst, hm, ne_eq, not_true, if_false] using hrest

/-- What a COPY of a scaled tensor runs. -/
theorem runCopy_scaled {s : State} {c : Ctx} {f : InFlight} {a t : Tensor} (ha : f.src0 = some a) (ht : f.dst = some t) (hsc : t.scale ≠ 0) :
    runCopy c f s =
      let r := runEffect false false false (fun _ => 0) (copyPlan a t) { rows := s.copyRows a t } c f s
      let w := State.copyTrailer c a t (t.doneBlocks (s.copyRows a t) r.1.performed) r.1.st
      (w.1, if r.2.status ≠ 0 then r.2 else { r.2 with status := BitVec.ofNat 8 w.2 }) := by
  simp only [runCopy, ha, ht, if_neg hsc]

/-- A command whose effect has no outputs has no flag to leave open. -/
theorem InFlight.ends_rows (f : InFlight) (rows : List Row) (status free : Nat) :
    { f.ends { rows := rows } status free with executed := true } = { f.ran { rows := rows } with status := BitVec.ofNat 8 status } := by
  simp [InFlight.ends, InFlight.ran, Effect.sat]

/-- A command that has run has status 0x00. -/
theorem InFlight.ran_status (f : InFlight) (e : Effect) : { f.ran e with status := BitVec.ofNat 8 0 } = f.ran e := rfl

/-- Settles O12: FILL and COPY of unscaled tensors by their effect; COPY of a scaled one goes on to the trailer, whose status counts when
no read or write has failed before. -/
theorem fillAndCopyComplete : Obligations.FillAndCopyComplete := by
  unfold Obligations.FillAndCopyComplete
  refine ⟨?fill, ?copy, ?scaled⟩
  case fill => exact fun s q f t h ht => State.runOp_effect h (by simp only [runFill, ht])
  case copy => exact fun s q f a t h ha ht hsc => State.runOp_effect h (by simp only [runCopy, ha, ht, if_pos hsc]; rfl)
  case scaled =>
    intro s q f a t h ha ht hsc e d w
    have hexec : exec (.copy q) s = .next ((runCopy (s.ctxOf q f) f s).1.setCurrent q
        { (runCopy (s.ctxOf q f) f s).2 with executed := true }) := congrArg Host.Outcome.next (State.runOp_running h)
    have hok : d.status = 0 → exec (.copy q) s = .next (w.1.setCurrent q { f.ran e with status := BitVec.ofNat 8 w.2 }) := fun hs => by
      rw [hexec, runCopy_scaled ha ht hsc]
      dsimp only
      rw [runEffect_ok hs, if_neg (by simp [InFlight.ends])]
      exact congrArg (fun g : InFlight => Host.Outcome.next (State.setCurrent w.1 q { g with status := BitVec.ofNat 8 w.2 })) (f.ends_ok e 0)
    refine ⟨hok, fun hs => ?_, fun hg ho => ?_⟩
    · have hne : (BitVec.ofNat 8 d.status : BitVec 8) ≠ 0 := fun h0 => hs (by
        have hmod : d.status % 256 = 0 := congrArg BitVec.toNat h0
        rwa [Nat.mod_eq_of_lt (s.ended_copy_status q f a t e)] at hmod)
      rw [hexec, runCopy_scaled ha ht hsc]
      dsimp only
      rw [runEffect_fails hs, if_pos (by exact hne)]
      exact congrArg (fun g => Host.Outcome.next (State.setCurrent _ q g)) (f.ends_rows _ d.status _)
    · obtain ⟨m, hm⟩ := Run.finish_mem hg.1 ht (Run.plan_ok_of_start hg.1 hg.2.1) hg.2.2
      have hst : d.st = { s with mem := m } := hm
      have hw : w.2 = 0 := by
        simp only [w, hst]
        exact State.copyTrailer_ok (State.sound_mem hg.1 m) t ho _
      have h0 : d.status = 0 := State.ended_ok hg
      rw [hok h0, hw]
      exact congrArg (fun g => Host.Outcome.next (State.setCurrent w.1 q g)) (f.ran_status e)

end Sys2Proof.Machine
end

section
/-! PROOFS of the family of 03_queues_and_beats.md: commands at their start and at their retirement (R67, R70, R80, R82, R83, R85, R86,
R87, R93, R103, R477). -/

namespace Sys2Proof.Machine

/-! ### COMMAND_START (R80, R82) -/

/-- Decode leaves to a command the tile and the position that it was read for; it gives it no status of its own. -/
theorem decodeCmd_command (s : State) (c : Ctx) (engine p a : Nat) : (decodeCmd s c engine p a).fl.tile = c.tile ∧
    (decodeCmd s c engine p a).fl.pos = BitVec.ofNat 16 p ∧ (decodeCmd s c engine p a).fl.status = 0 := by
  unfold decodeCmd
  dsimp only
  (repeat' split) <;> exact ⟨rfl, rfl, rfl⟩

/-- What the decode of the head command of a queue gives on a tile. -/
def State.headDecoded (s : State) (a : QueueAlloc) (tile : Nat) : Decoded :=
  let p := (s.queue a.queue).head.toNat
  decodeCmd (s.payZero tile) { q := a.queue, tile := tile, bal := a.balGroup } a.engine p (a.ringBase + 64 * (p % 2 ^ a.ringLog2))

/-- The command that COMMAND_START puts in flight: the decoded one, or one that holds the failing status and does not run. -/
def State.headCommand (s : State) (a : QueueAlloc) (tile : Nat) : InFlight :=
  let d := s.headDecoded a tile
  if d.status = 0 then { d.fl with order := s.starts }
  else { d.fl with order := s.starts, status := BitVec.ofNat 8 d.status, executed := true }

theorem State.headCommand_tile (s : State) (a : QueueAlloc) (tile : Nat) : (s.headCommand a tile).tile = tile := by
  have h := (decodeCmd_command (s.payZero tile) { q := a.queue, tile := tile, bal := a.balGroup } a.engine (s.queue a.queue).head.toNat
    (a.ringBase + 64 * ((s.queue a.queue).head.toNat % 2 ^ a.ringLog2))).1
  unfold State.headCommand
  dsimp only
  split <;> exact h

theorem State.headCommand_pos (s : State) (a : QueueAlloc) (tile : Nat) :
    (s.headCommand a tile).pos = BitVec.ofNat 16 (s.queue a.queue).head.toNat := by
  have h := (decodeCmd_command (s.payZero tile) { q := a.queue, tile := tile, bal := a.balGroup } a.engine (s.queue a.queue).head.toNat
    (a.ringBase + 64 * ((s.queue a.queue).head.toNat % 2 ^ a.ringLog2))).2.1
  unfold State.headCommand
  dsimp only
  split <;> exact h

/-- A head command that failed its decode does not run. -/
theorem State.headCommand_executed {s : State} {a : QueueAlloc} {tile : Nat} (h : (s.headCommand a tile).status ≠ 0) :
    (s.headCommand a tile).executed = true := by
  have h0 := (decodeCmd_command (s.payZero tile) { q := a.queue, tile := tile, bal := a.balGroup } a.engine (s.queue a.queue).head.toNat
    (a.ringBase + 64 * ((s.queue a.queue).head.toNat % 2 ^ a.ringLog2))).2.2
  unfold State.headCommand at h ⊢
  dsimp only at h ⊢
  split at h
  · exact absurd h0 h
  · next hd => rw [if_neg hd]

/-- What taking its head command makes of a queue. -/
def QueueSt.taken (doorbellOnly : Bool) (fl : InFlight) (x : QueueSt) : QueueSt :=
  { x with
    head := x.head + 1
    credit := if doorbellOnly then 0 else x.credit - 1
    grants := x.grants.drop 1
    wait := false
    waitSince := none
    longRaised := false
    inflight := x.inflight ++ [fl] }

theorem State.takeHead_queue_self (s : State) (a : QueueAlloc) (tile : Nat) :
    (s.takeHead a tile).queue a.queue = (s.queue a.queue).taken a.doorbellOnly (s.headCommand a tile) := by
  have hq : (s.headDecoded a tile).st.queue a.queue = s.queue a.queue := by simp [State.headDecoded, State.queue]
  exact (State.updQueue_queue_self _ _ _).trans (congrArg (QueueSt.taken a.doorbellOnly (s.headCommand a tile)) hq)

theorem State.takeHead_queue_ne (s : State) (a : QueueAlloc) (tile : Nat) {p : Nat} (h : p ≠ a.queue) :
    (s.takeHead a tile).queue p = s.queue p := by
  have hq : (s.headDecoded a tile).st.queue p = s.queue p := by simp [State.headDecoded, State.queue]
  exact (State.updQueue_queue_ne _ _ _ _ h).trans hq

/-- Taking the head command writes no byte, unless the tile's memory still has to be zeroed (R134). -/
theorem State.takeHead_mem {s : State} (a : QueueAlloc) {tile : Nat} (h : (s.tile tile).mustZero = false) :
    (s.takeHead a tile).mem = s.mem := by
  have hz : s.payZero tile = s := by simp [State.payZero, h]
  have hm : (s.headDecoded a tile).st.mem = s.mem := by simp [State.headDecoded, hz]
  exact hm

theorem State.alloc_queue {s : State} {q : Nat} {a : QueueAlloc} (h : s.alloc q = some a) : a.queue = q := by
  simpa using List.find?_some h

/-- Settles O18, by what `State.takeHead` makes of the queue. -/
theorem commandStartTakesHead : Obligations.CommandStartTakesHead := by
  unfold Obligations.CommandStartTakesHead
  refine ⟨fun s q tile a ha ht harb => ?_, fun s q tile a ha ht hr hw => ?_⟩
  · obtain rfl := State.alloc_queue ha
    have hself := s.takeHead_queue_self a tile
    refine ⟨s.takeHead a tile, s.headCommand a tile, ?_, ?_⟩
    · show Host.Outcome.next (s.commandStart a.queue tile) = _
      simp only [State.commandStart, ha, ht, harb, and_self, if_true]
    · rw [hself]
      exact ⟨rfl, rfl, rfl, fun hb => by simp [QueueSt.taken, hb], rfl, s.headCommand_tile a tile, s.headCommand_pos a tile, State.headCommand_executed,
        fun p hp => s.takeHead_queue_ne a tile hp, State.takeHead_mem a⟩
  · show Host.Outcome.next (s.commandStart q tile) = _
    simp only [State.commandStart, ha, ht, hr, hw, reduceCtorEq, false_and, and_self, if_true, if_false]

/-! ### COMMAND_RETIRE (R67, R83, R85) -/

/-- A state in which no unit stands suspect is settled. -/
theorem State.settle_of_none {s : State} (h : s.suspects = []) : s.settle = s := by
  have hs : { s with suspects := [] } = s := congrArg (fun l => { s with suspects := l }) h.symm
  rw [State.settle, h, State.settleAll, hs]

/-- What its retirement makes of a command's queue. -/
def QueueSt.retired (f : InFlight) (x : QueueSt) : QueueSt :=
  { x with inflight := x.inflight.drop 1, lastStatus := f.status, err := x.err || (f.status != 0 && f.old.isNone) }

/-- The entry that a retirement writes, and where. -/
def State.putCompletion (s : State) (a : QueueAlloc) (f : InFlight) (cycles : Nat) : State :=
  s.put (completionAddr a f.pos.toNat) (completionEntry (completionAddr a f.pos.toNat) f cycles (tileOfQueue a.queue))

@[simp] theorem State.meFlags_suspects (s : State) (q : Nat) (f : InFlight) : (s.meFlags q f).suspects = s.suspects := by
  unfold State.meFlags; (repeat' split) <;> rfl

@[simp] theorem State.clearKindling_suspects (s : State) (f : InFlight) : (s.clearKindling f).suspects = s.suspects := by
  unfold State.clearKindling; split <;> rfl

/-- A change of one tile that leaves its windows leaves the windows of every tile. -/
theorem State.updTile_windows (s : State) (t : Nat) (g : TileSt → TileSt) (hg : ∀ x, (g x).windows = x.windows) (y : Nat) :
    ((s.updTile t g).tile y).windows = (s.tile y).windows := by
  rw [State.updTile_tile]
  split
  · next h => rw [hg, h]
  · rfl

@[simp] theorem State.meFlags_windows (s : State) (q : Nat) (f : InFlight) (y : Nat) :
    ((s.meFlags q f).tile y).windows = (s.tile y).windows := by
  unfold State.meFlags
  (repeat' split)
  · refine State.updTile_windows _ _ _ ?_ y
    intro x
    rfl
  · rfl
  · rfl

@[simp] theorem State.clearKindling_windows (s : State) (f : InFlight) (y : Nat) :
    ((s.clearKindling f).tile y).windows = (s.tile y).windows := by
  unfold State.clearKindling
  split
  · refine State.updTile_windows _ _ _ ?_ y
    intro x
    rfl
  · rfl

/-- The steps of a retirement after its entry is written. -/
def State.afterEntry (t : State) (q : Nat) (f : InFlight) (irq : Nat) : State :=
  let s3 := (((t.updQueue q (QueueSt.retired f)).meFlags q f).clearKindling f).updBeat (fun b => { b with
    satNext := b.satNext || f.sat, invalidNext := b.invalidNext || statusInvalidates f.status.toNat })
  if f.desc.hasIrq then s3.msix irq else s3

theorem State.complete_eq (s : State) (a : QueueAlloc) (f : InFlight) (cycles : Nat) :
    s.complete a f cycles = (s.putCompletion a f cycles).afterEntry a.queue f (64 + 31 * tileOfQueue a.queue + a.queue % 512 % 31) := rfl

@[simp] theorem State.afterEntry_queues (t : State) (q : Nat) (f : InFlight) (irq : Nat) :
    (t.afterEntry q f irq).queues = SMap.update {} t.queues q (QueueSt.retired f) := by
  unfold State.afterEntry
  dsimp only
  split <;> simp [State.updBeat_queues] <;> rfl

@[simp] theorem State.afterEntry_mem (t : State) (q : Nat) (f : InFlight) (irq : Nat) : (t.afterEntry q f irq).mem = t.mem := by
  unfold State.afterEntry
  dsimp only
  split <;> simp

/-- No unit becomes suspect after the entry is written. -/
@[simp] theorem State.afterEntry_suspects (t : State) (q : Nat) (f : InFlight) (irq : Nat) : (t.afterEntry q f irq).suspects = t.suspects := by
  unfold State.afterEntry
  dsimp only
  split <;> exact (State.clearKindling_suspects _ _).trans (State.meFlags_suspects _ _ _)

@[simp] theorem State.afterEntry_windows (t : State) (q : Nat) (f : InFlight) (irq y : Nat) :
    ((t.afterEntry q f irq).tile y).windows = (t.tile y).windows := by
  unfold State.afterEntry
  dsimp only
  split <;> exact (State.clearKindling_windows _ _ _).trans (State.meFlags_windows _ _ _ _)

@[simp] theorem State.putCompletion_queues (s : State) (a : QueueAlloc) (f : InFlight) (cycles : Nat) :
    (s.putCompletion a f cycles).queues = s.queues := State.put_queues _ _ _

/-- The queue of a command that has retired. -/
theorem State.complete_queue_self (s : State) (a : QueueAlloc) (f : InFlight) (cycles : Nat) :
    (s.complete a f cycles).queue a.queue = (s.queue a.queue).retired f := by
  simp only [State.complete_eq, State.queue, State.afterEntry_queues, State.putCompletion_queues, SMap.get_update_self]

theorem State.complete_queue_ne (s : State) (a : QueueAlloc) (f : InFlight) (cycles : Nat) {p : Nat} (h : p ≠ a.queue) :
    (s.complete a f cycles).queue p = s.queue p := by
  simp only [State.complete_eq, State.queue, State.afterEntry_queues, State.putCompletion_queues, SMap.get_update_ne _ _ _ _ _ h]

/-- A command that has run, awaits no acknowledgement and has no signal still to send takes its effect and retires. -/
theorem State.commandRetire_now {s : State} {q : Nat} {f : InFlight} {rest : List InFlight} {a : QueueAlloc}
    (hf : (s.queue q).inflight = f :: rest) (ha : s.allocOf q f = some a) (hx : f.executed = true) (hk : f.acksDue = 0)
    (hsig : f.status ≠ 0 ∨ f.sigDone = true ∨ f.desc.hasSignal = false) (cycles : Nat) :
    s.commandRetire q cycles = (s.retireEffect f).complete a f cycles := by
  have hno : f.status ≠ 0 ∨ f.sigDone = true ∨ (!f.desc.hasSignal) = true := by simpa using hsig
  simp only [State.commandRetire, hf, ha, hx, hk, State.retireSignal, if_pos hno, Bool.not_true, Bool.false_eq_true, ne_eq,
    not_true, or_self, if_false]

/-- A command that is neither a MSGWIN nor a SETSYNC has no effect but its completion. -/
theorem State.retireEffect_none {s : State} {f : InFlight} (hm : Op.ofCode f.desc.opcode.toNat ≠ some .msgwin)
    (hs : Op.ofCode f.desc.opcode.toNat ≠ some .setsync) : s.retireEffect f = s := by
  unfold State.retireEffect
  split
  · rfl
  · split
    · next h => exact absurd h hm
    · next h => exact absurd h hs
    · rfl

/-- Settles O19: a command that is neither a MSGWIN nor a SETSYNC has no effect but its completion. -/
theorem commandRetireCompletes : Obligations.CommandRetireCompletes := by
  unfold Obligations.CommandRetireCompletes
  intro s q cycles f rest a hf ha hq hx hk hsig hm hs hsus
  subst hq
  have heff := State.retireEffect_none (s := s) hm hs
  have hc : (s.commandRetire a.queue cycles.toNat).settle = s.complete a f cycles.toNat := by
    rw [State.commandRetire_now hf ha hx hk hsig, heff]
    exact State.settle_of_none (by rw [State.complete_eq, State.afterEntry_suspects]; exact hsus)
  refine ⟨s.complete a f cycles.toNat, congrArg Host.Outcome.next hc, ?_⟩
  rw [State.complete_queue_self]
  exact ⟨by simp [QueueSt.retired, hf], rfl, rfl, rfl, rfl, State.afterEntry_mem _ _ f _, fun p hp => s.complete_queue_ne a f _ hp⟩

/-- Settles O11: the window is defined with the retirement, and the entry is written into memory that holds no error. -/
theorem msgwinDefinesWindow : Obligations.MsgwinDefinesWindow := by
  unfold Obligations.MsgwinDefinesWindow
  refine ⟨fun s q f h => congrArg Host.Outcome.next (State.runOp_running h), ?_⟩
  intro s q cycles f rest a hf ha hq hx hk h0 hsig hm hsound hsus
  subst hq
  have heff : s.retireEffect f = s.defineWindow f := by simp [State.retireEffect, h0, hm]
  obtain ⟨m, hput⟩ := State.store_ok (s := s.defineWindow f) hsound (completionAddr a f.pos.toNat)
    (completionEntry (completionAddr a f.pos.toNat) f cycles.toNat (tileOfQueue a.queue))
  have hentry : (s.defineWindow f).putCompletion a f cycles.toNat = { s.defineWindow f with mem := m } := congrArg Prod.fst hput
  have hc : (s.commandRetire a.queue cycles.toNat).settle = (s.defineWindow f).complete a f cycles.toNat := by
    rw [State.commandRetire_now hf ha hx hk (Or.inr hsig), heff]
    exact State.settle_of_none (by rw [State.complete_eq, State.afterEntry_suspects, hentry]; exact hsus)
  refine ⟨(s.defineWindow f).complete a f cycles.toNat, congrArg Host.Outcome.next hc, ?_, ?_, fun k => ?_⟩
  · rw [State.complete_queue_self]
    have hq : ((s.defineWindow f).queue a.queue).inflight = f :: rest := hf
    simp [QueueSt.retired, hq]
  · rw [State.complete_queue_self]
    exact h0
  · rw [State.complete_eq, State.afterEntry_windows, hentry]
    have hw : ((s.defineWindow f).tile f.tile).windows = SMap.set {} (s.tile f.tile).windows (f.desc.p 3 0)
        { defined := true, base := f.desc.p 30 8, size := f.desc.p 55 32 } :=
      congrArg TileSt.windows (State.updTile_tile_self _ _ _)
    exact (congrArg (fun w => SMap.get {} w k) hw).trans (SMap.get_set _ _ _ _ _)

/-! ### Signals at retirement (R83, R86, R477) -/

/-- A signal that its cluster takes is added in a cycle of the directory, behind the signals that wait. -/
theorem State.applySignal_taken {s : State} {o : Bool} {ref : Nat} (h : s.clusterTakes (refCluster ref) o = true) (add : Nat) :
    s.applySignal o ref add = (s.updCluster (refCluster ref) (fun x => { x with
      signals := x.signals ++ [(refObject ref, BitVec.ofNat 32 add)] })).syncApply (refCluster ref) := by
  simp only [State.applySignal, State.signalLocal, h, if_true]

/-- The cluster of a signal that was taken. -/
theorem State.applySignal_cluster_taken {s : State} {o : Bool} {ref : Nat} (h : s.clusterTakes (refCluster ref) o = true) (add : Nat) :
    (s.applySignal o ref add).cluster (refCluster ref) = ({ s.cluster (refCluster ref) with
      signals := (s.cluster (refCluster ref)).signals ++ [(refObject ref, BitVec.ofNat 32 add)] } : ClusterSt).applySync := by
  rw [State.applySignal_taken h, State.syncApply_cluster, if_pos rfl, State.updCluster_cluster_self]

/-- The count of an object after a signal that was taken. -/
theorem State.applySignal_syncCount {s : State} {o : Bool} {ref : Nat} (h : s.clusterTakes (refCluster ref) o = true) (add obj : Nat) :
    (s.applySignal o ref add).syncCount (refCluster ref) obj =
      (s.cluster (refCluster ref)).cycleCount obj + (if obj = refObject ref then BitVec.ofNat 32 add else 0) := by
  unfold State.syncCount
  rw [State.applySignal_cluster_taken h, ClusterSt.get_applySync, ClusterSt.cycleCount_signal]

/-- A retirement with its fences changes no directory. -/
@[simp] theorem State.complete_settle_cluster (s : State) (a : QueueAlloc) (f : InFlight) (cycles c : Nat) :
    (s.complete a f cycles).settle.cluster c = s.cluster c := by
  simp [State.cluster]

/-- What takes effect with the retirement of a command that is no SETSYNC is in its tile. -/
theorem State.retireEffect_tiles {s : State} {f : InFlight} (h : Op.ofCode f.desc.opcode.toNat ≠ some .setsync) :
    ∃ tiles : SMap TileSt, s.retireEffect f = { s with tiles := tiles } := by
  unfold State.retireEffect
  split
  · exact ⟨s.tiles, rfl⟩
  · split
    · exact ⟨_, rfl⟩
    · next h' => exact absurd h' h
    · exact ⟨s.tiles, rfl⟩

/-- Settles O20: the signal of a command of this chip, the set of a SETSYNC, and a signal that leaves for another chip. -/
theorem retireSignals : Obligations.RetireSignals := by
  unfold Obligations.RetireSignals
  refine ⟨?signal, ?setsync, ?remote⟩
  case signal =>
    intro s q cycles f rest a hf ha hx hk h0 hsd hsig hop hchip htake c
    obtain ⟨tiles, heff⟩ := State.retireEffect_tiles (s := s) hop
    have hret : s.commandRetire q cycles.toNat =
        (({ s with tiles := tiles } : State).applySignal (s.draining f.tile) f.desc.signalRef.toNat f.desc.signalAdd.toNat).complete a
          { f with sigDone := true } cycles.toNat := by
      have hno : ¬(f.status ≠ 0 ∨ f.sigDone = true ∨ (!f.desc.hasSignal) = true) := by simp [h0, hsd, hsig]
      have hchip' : refChip f.desc.signalRef.toNat = ({ s with tiles := tiles } : State).chip := hchip
      simp only [State.commandRetire, hf, ha, hx, hk, heff, State.retireSignal, if_neg hno, if_pos hchip', Bool.not_true,
        Bool.false_eq_true, ne_eq, not_true, or_self, if_false]
      rfl
    have htake' : ({ s with tiles := tiles } : State).clusterTakes (refCluster f.desc.signalRef.toNat) (s.draining f.tile) = true := htake
    have hclu : ((s.commandRetire q cycles.toNat).settle).cluster c =
        (({ s with tiles := tiles } : State).applySignal (s.draining f.tile) f.desc.signalRef.toNat f.desc.signalAdd.toNat).cluster c := by
      rw [hret, State.complete_settle_cluster]
    refine ⟨(s.commandRetire q cycles.toNat).settle, rfl, ?_, ?_, fun obj => ?_⟩
    · rw [hclu, State.applySignal_cluster_taken htake', ClusterSt.applySync_sets]
    · rw [hclu, State.applySignal_cluster_taken htake', ClusterSt.applySync_signals]
    · have hcount := State.applySignal_syncCount htake' f.desc.signalAdd.toNat obj
      rw [BitVec.ofNat_toNat, BitVec.setWidth_eq] at hcount
      exact (congrArg (fun x : ClusterSt => SMap.get 0 x.sync obj) hclu).trans hcount
  case setsync =>
    intro s q cycles f rest a hf ha hx hk h0 hsd hop hchip htake c
    have heff : s.retireEffect f = s.syncApply c := by simp [State.retireEffect, h0, hop, hchip, htake, c]
    refine ⟨(s.commandRetire q cycles.toNat).settle, rfl, ?_⟩
    rw [State.commandRetire_now hf ha hx hk (Or.inr (Or.inl hsd)), heff, State.complete_settle_cluster, State.syncApply_cluster,
      if_pos rfl]
  case remote =>
    intro s q cycles f rest a hf ha hx hk h0 hsd hsig hop hm hchip r
    have heff := State.retireEffect_none (s := s) hm hop
    have hno : ¬(f.status ≠ 0 ∨ f.sigDone = true ∨ (!f.desc.hasSignal) = true) := by simp [h0, hsd, hsig]
    have hret : s.retireSignal q f =
        (r.1, { f with sigDone := true, status := BitVec.ofNat 8 r.2, acksDue := if r.2 = 0 then 1 else 0 }) := by
      simp only [State.retireSignal, if_neg hno, if_neg hchip]
      rfl
    have hexec : exec (.commandRetire q cycles) s = .next (if (if r.2 = 0 then 1 else 0 : Nat) ≠ 0
        then r.1.setOldest q { f with sigDone := true, status := BitVec.ofNat 8 r.2, acksDue := if r.2 = 0 then 1 else 0 }
        else r.1.complete a { f with sigDone := true, status := BitVec.ofNat 8 r.2, acksDue := if r.2 = 0 then 1 else 0 }
          cycles.toNat).settle := by
      refine congrArg (fun t : State => Host.Outcome.next t.settle) ?_
      simp only [State.commandRetire, hf, ha, hx, hk, heff, hret, Bool.not_true, Bool.false_eq_true, ne_eq, not_true, or_self, if_false]
    refine ⟨fun hr => ?_, fun hr => ?_⟩
    · rw [hexec, hr]
      exact congrArg (fun st => Host.Outcome.next (State.setOldest r.1 q { f with sigDone := true, status := st, acksDue := 1 }).settle) h0.symm
    · rw [hexec, if_neg hr]
      exact congrArg (fun k => Host.Outcome.next (State.complete r.1 a
        { f with sigDone := true, status := BitVec.ofNat 8 r.2, acksDue := k } cycles.toNat).settle) hk.symm

/-! ### MESSAGE_ARRIVE (R87, R88) -/

/-- A message that its window does not hold is dropped, and counted. -/
theorem State.deliver_dropped {s : State} {t : Nat} {m : Message} (ht : t < s.part.tiles) (hr : s.tileReachable t = true)
    (h : (SMap.get {} (s.tile t).windows m.window).defined = false ∨
      (SMap.get {} (s.tile t).windows m.window).size < m.offset + m.extent) :
    s.deliver t m = (s.updTile t (fun x => { x with msgdrop := satInc x.msgdrop }), .dropped) := by
  have hw : (!(SMap.get {} (s.tile t).windows m.window).defined) = true ∨
      (SMap.get {} (s.tile t).windows m.window).size < m.offset + m.extent := by simpa using h
  simp only [State.deliver, ht, hr, decide_true, Bool.not_true, Bool.false_eq_true, or_self, if_false, if_pos hw]

/-- A message that its window holds and whose writes succeed is applied. -/
theorem State.deliver_applied {s : State} {t : Nat} {m : Message} (ht : t < s.part.tiles) (hr : s.tileReachable t = true)
    (hd : (SMap.get {} (s.tile t).windows m.window).defined = true)
    (hs : m.offset + m.extent ≤ (SMap.get {} (s.tile t).windows m.window).size)
    (hok : (State.storeParts (t * tileSize + (SMap.get {} (s.tile t).windows m.window).base + m.offset) m.parts s).2 = 0) :
    s.deliver t m =
      ((State.storeParts (t * tileSize + (SMap.get {} (s.tile t).windows m.window).base + m.offset) m.parts s).1, .applied) := by
  have hw : ¬((!(SMap.get {} (s.tile t).windows m.window).defined) = true ∨
      (SMap.get {} (s.tile t).windows m.window).size < m.offset + m.extent) := by simpa [hd] using hs
  simp only [State.deliver, ht, hr, decide_true, Bool.not_true, Bool.false_eq_true, or_self, if_false, if_neg hw, hok, ne_eq, not_true]

/-- Settles O23, by how the front message is delivered. -/
theorem messageArrives : Obligations.MessageArrives := by
  unfold Obligations.MessageArrives
  intro s tile m rest hmsgs ht hr w s0 r
  have hr0 : s0.tileReachable tile = true := hr
  have htile : s0.tile tile = { s.tile tile with msgs := rest } := State.updTile_tile_self _ _ _
  have hwin : SMap.get {} (s0.tile tile).windows m.window = w := by rw [htile]
  refine ⟨fun h => ?_, fun hd hs hok hsig q pos hsend => ?_, fun hd hs hok g q pos hsig hsend => ?_⟩
  · have hdel := State.deliver_dropped (s := s0) (t := tile) (m := m) ht hr0 (by rwa [hwin])
    have htile1 : (s0.updTile tile (fun x => { x with msgdrop := satInc x.msgdrop })).tile tile =
        { s.tile tile with msgs := rest, msgdrop := satInc (s.tile tile).msgdrop } := by rw [State.updTile_tile_self, htile]
    cases hsend : m.sender with
    | none =>
      refine ⟨s0.updTile tile (fun x => { x with msgdrop := satInc x.msgdrop }), congrArg Host.Outcome.next ?_, ?_, ?_, rfl, fun _ => rfl,
        fun q pos h => by simp at h⟩
      · simp only [State.messageArrive, hmsgs]
        rw [hdel, hsend]
      · rw [htile1]
      · rw [htile1]
    | some q =>
      refine ⟨(s0.updTile tile (fun x => { x with msgdrop := satInc x.msgdrop })).ackDropped q.1 q.2, congrArg Host.Outcome.next ?_, ?_, ?_,
        rfl, fun h => by simp at h, fun q' pos h p => ?_⟩
      · simp only [State.messageArrive, hmsgs]
        rw [hdel, hsend]
      · rw [State.ackDropped, State.updQueue_tile, htile1]
      · rw [State.ackDropped, State.updQueue_tile, htile1]
      · obtain rfl : q = (q', pos) := by simpa using h
        rw [State.ackDropped, State.updQueue_queue]
        by_cases hp : p = q'
        · subst hp
          simp [s0]
        · simp [hp, s0]
  · have hdel := State.deliver_applied (s := s0) (t := tile) (m := m) ht hr0 (by rwa [hwin]) (by rwa [hwin]) (by rwa [hwin])
    refine congrArg Host.Outcome.next ?_
    simp only [State.messageArrive, hmsgs]
    rw [hdel, hwin, hsend]
    simp only [hsig]
    rfl
  · have hdel := State.deliver_applied (s := s0) (t := tile) (m := m) ht hr0 (by rwa [hwin]) (by rwa [hwin]) (by rwa [hwin])
    refine congrArg Host.Outcome.next ?_
    simp only [State.messageArrive, hmsgs]
    rw [hdel, hwin, hsend]
    simp only [hsig]
    rfl

end Sys2Proof.Machine
end

section
/-! PROOFS of the family of 03_queues_and_beats.md: what reads and writes of memory and events leave alone, and what SEND and PUBLISH hand
on (R83, R87, R95, R410, R477). -/

namespace Sys2Proof.Machine

/-! ### What accesses of memory leave alone

Reads, writes, the events that they raise and the repairs that they record keep the parts of the state gathered here. -/

@[ext] structure Aside where
  lat : LatSt
  tb : TimeBase
  ctx : CtxSt
  beat : BeatSt
  msgs : Nat → List Message
  unit : UnitKind → Nat → UnitSt
  arr : Nat → Word
  mapRepair : Nat → Word
  holdUntil : Nat → Nat

/-- The part of a state that accesses of memory leave alone; an event may mark the next record INVALID (R99). -/
def State.aside (s : State) : Aside where
  lat := s.lat
  tb := s.tb
  ctx := s.ctx
  beat := { s.beat with invalidNext := false }
  msgs := fun t => (s.tile t).msgs
  unit := s.unit
  arr := fun p => (s.slot p).repair
  mapRepair := s.mapRepair
  holdUntil := fun d => (s.die d).holdUntil

theorem foldl_aside {α : Type} (g : State → α → State) (l : List α) (s : State) (h : ∀ s x, (g s x).aside = s.aside) :
    (l.foldl g s).aside = s.aside :=
  List.foldlRecOn (motive := fun t : State => t.aside = s.aside) l g rfl fun t ht x _ => (h t x).trans ht

@[simp] theorem State.updQueue_aside (s : State) (q : Nat) (f : QueueSt → QueueSt) : (s.updQueue q f).aside = s.aside := (rfl)
@[simp] theorem State.updChan_aside (s : State) (c : Nat) (f : ChanSt → ChanSt) : (s.updChan c f).aside = s.aside := (rfl)
@[simp] theorem State.updAsh_aside (s : State) (f : AshSt → AshSt) : (s.updAsh f).aside = s.aside := (rfl)
@[simp] theorem State.updLink_aside (s : State) (f : HostLinkSt → HostLinkSt) : (s.updLink f).aside = s.aside := (rfl)
@[simp] theorem State.updSaf_aside (s : State) (f : SafetySt → SafetySt) : (s.updSaf f).aside = s.aside := (rfl)
@[simp] theorem State.updUpd_aside (s : State) (f : UpdSt → UpdSt) : (s.updUpd f).aside = s.aside := (rfl)
@[simp] theorem State.msix_aside (s : State) (v : Nat) : (s.msix v).aside = s.aside := (rfl)
@[simp] theorem State.draw_aside (s : State) : s.draw.2.aside = s.aside := (rfl)
@[simp] theorem State.zeroRange_aside (s : State) (a n : Nat) : (s.zeroRange a n).aside = s.aside := (rfl)
@[simp] theorem State.oweRowTest_aside (s : State) (u : Nat) : (s.oweRowTest u).aside = s.aside := (rfl)

@[simp] theorem State.flashPut_aside (s : State) (a : Nat) (b : List Byte) : (s.flashPut a b).aside = s.aside := (rfl)

theorem State.suspects_aside (s : State) (l : List (UnitKind × Nat × Nat)) : ({ s with suspects := l } : State).aside = s.aside := rfl

theorem State.memFlips_aside (s : State) (m : SMap Byte) (f : SMap (List Nat)) :
    ({ s with mem := m, flips := f } : State).aside = s.aside := rfl

@[simp] theorem State.raise_aside (s : State) (sev unit status : Nat) : (s.raise sev unit status).aside = s.aside := by
  rw [State.raise_eq, State.raise_beat]
  split <;> rfl

@[simp] theorem State.raiseDie_aside (s : State) (d sev unit status : Nat) : (s.raiseDie d sev unit status).aside = s.aside := by
  rw [State.raiseDie_eq, State.raiseDie_beat]
  split <;> rfl

/-- An update of a die that keeps its recovery state and its takeover. -/
theorem State.updDie_aside (s : State) (d : Nat) (f : DieSt → DieSt) (h : ∀ x, (f x).u = x.u ∧ (f x).holdUntil = x.holdUntil) :
    (s.updDie d f).aside = s.aside := by
  have hd : ∀ e, ((s.updDie d f).die e).u = (s.die e).u ∧ ((s.updDie d f).die e).holdUntil = (s.die e).holdUntil := by
    intro e
    rw [State.updDie_die]
    split
    · next he => rw [he]; exact h _
    · exact ⟨rfl, rfl⟩
  refine Aside.ext rfl rfl rfl rfl rfl (funext fun k => funext fun u => ?_) rfl rfl (funext fun e => (hd e).2)
  cases k with
  | die => exact (hd u).1
  | slot => rfl
  | cluster => rfl
  | region => rfl

/-- An update of a tile that keeps the messages that wait for it. -/
theorem State.updTile_aside (s : State) (t : Nat) (f : TileSt → TileSt) (h : ∀ x, (f x).msgs = x.msgs) : (s.updTile t f).aside = s.aside := by
  refine Aside.ext rfl rfl rfl rfl (funext fun y => ?_) rfl rfl rfl rfl
  change ((s.updTile t f).tile y).msgs = (s.tile y).msgs
  rw [State.updTile_tile]
  split
  · next hy => rw [hy, h]
  · rfl

@[simp] theorem State.dropAt_aside (s : State) (d : Nat) : (s.dropAt d).aside = s.aside := s.updDie_aside d _ fun _ => ⟨rfl, rfl⟩

/-! ### Accesses of memory (R124, R126, R135) -/

@[simp] theorem State.undirty_aside (s : State) (a : Nat) : (s.undirty a).aside = s.aside := by
  unfold State.undirty; (repeat' split) <;> rfl

/-- Repairs of another kind than those of an array leave what the map says of an array. -/
theorem State.recordRepairs_aside (s : State) (es : List RepairEntry) (h : ∀ e ∈ es, e.kind ≠ 2 ∧ e.kind ≠ 3) :
    (s.recordRepairs es).aside = s.aside := by
  unfold State.recordRepairs
  split
  · rfl
  · dsimp only
    rw [foldl_aside]
    case h => exact fun acc e => acc.updAsh_aside _
    rw [State.flashPut_aside, State.flashPut_aside]
    refine Aside.ext rfl rfl rfl rfl rfl rfl rfl (funext fun p => ?_) rfl
    have hnone : es.filter (fun e => (e.kind == 2 || e.kind == 3) && e.unit == p) = [] := by
      simp only [List.filter_eq_nil_iff, Bool.and_eq_true, Bool.or_eq_true, beq_iff_eq, not_and]
      intro e he hk
      obtain ⟨h2, h3⟩ := h e he
      exact absurd hk (by simp [h2, h3])
    change State.mapRepair _ p = State.mapRepair s p
    unfold State.mapRepair
    dsimp only
    rw [List.filter_append, hnone, List.append_nil]

@[simp] theorem State.repairDramRow_aside (s : State) (a d : Nat) : (s.repairDramRow a d).aside = s.aside := by
  unfold State.repairDramRow
  dsimp only
  split
  · rfl
  · exact (State.recordRepairs_aside _ _ (by simp)).trans (s.updChan_aside _ _)

@[simp] theorem State.noteUncorrectable_aside (s : State) (a : Nat) : (s.noteUncorrectable a).1.aside = s.aside := by
  unfold State.noteUncorrectable
  split
  · simp only [State.oweRowTest_aside, State.raiseDie_aside]
    exact s.updTile_aside _ _ fun _ => rfl
  · simp only [State.oweRowTest_aside, State.raiseDie_aside]
    exact s.updDie_aside _ _ fun _ => ⟨rfl, rfl⟩
  · simp

@[simp] theorem State.suspectOwner_aside (s : State) (a d : Nat) : (s.suspectOwner a d).aside = s.aside := by
  unfold State.suspectOwner
  split
  · split
    · exact (State.suspects_aside (s.raiseDie d 54 d 0x33) _).trans (by simp)
    · simp
  · simp

@[simp] theorem State.noteAddress_aside (s : State) (a : Nat) : (s.noteAddress a).aside = s.aside := by
  unfold State.noteAddress
  split
  · refine (State.suspects_aside (State.raiseDie _ _ _ _ _) _).trans ((State.raiseDie_aside _ _ _ _ _).trans ?_)
    exact s.updTile_aside _ _ fun _ => rfl
  · rw [State.suspectOwner_aside]
    exact s.updDie_aside _ _ fun _ => ⟨rfl, rfl⟩
  · simp

@[simp] theorem State.noteCorrected_aside (s : State) (a : Nat) : (s.noteCorrected a).aside = s.aside := by
  unfold State.noteCorrected
  split
  · exact s.updTile_aside _ _ fun _ => rfl
  · rfl

@[simp] theorem State.linkTry_aside (s : State) (u : Nat) : (s.linkTry u).1.aside = s.aside := by
  unfold State.linkTry
  split
  · dsimp only; (repeat' split) <;> simp
  · rfl

@[simp] theorem State.fetchStored_aside (s : State) (u size : Nat) : (s.fetchStored u size).st.aside = s.aside := by
  unfold State.fetchStored; (repeat' split) <;> simp

@[simp] theorem State.fetchPart_aside (s : State) (first : Bool) (u size : Nat) : (s.fetchPart first u size).st.aside = s.aside := by
  unfold State.fetchPart State.fetchUnit
  dsimp only
  (repeat' split) <;> simp

@[simp] theorem State.storeUnit_aside (s : State) (first : Bool) (u size a : Nat) (bs : List Byte) :
    (s.storeUnit first u size a bs).1.aside = s.aside := by
  unfold State.storeUnit
  dsimp only
  split
  · split
    · split
      · simp
      · exact (State.memFlips_aside ((s.undirty u).linkTry u).1 _ _).trans (by simp)
    · exact (State.memFlips_aside (s.undirty u) _ _).trans (by simp)
  · split
    · simp
    · exact (State.memFlips_aside ((s.undirty u).fetchPart first u size).st _ _).trans (by simp)

theorem State.storeUnits_aside (stop : Bool) (a : Nat) (bs : List Byte) (l : List (Nat × Nat)) (line : Option (Nat × Bool)) (r : State × Nat) :
    (State.storeUnits stop a bs line l r).1.aside = r.1.aside := by
  induction l generalizing line r with
  | nil => rfl
  | cons e l ih =>
    simp only [State.storeUnits]
    split <;> simp [ih]

@[simp] theorem State.put_aside (s : State) (a : Nat) (bs : List Byte) : (s.put a bs).aside = s.aside :=
  State.storeUnits_aside _ _ _ _ _ _

/-! ### The reads of a command -/

@[simp] theorem Run.readUnits_aside (l : List (Nat × Nat)) (r : Run) : (Run.readUnits l r).st.aside = r.st.aside := by
  induction l generalizing r with
  | nil => rfl
  | cons e l ih =>
    unfold Run.readUnits
    (repeat' split)
    · rfl
    · exact ih r
    · exact (ih _).trans (State.fetchPart_aside _ _ _ _)

@[simp] theorem Run.read_aside (c : Ctx) (a n : Nat) (r : Run) : (r.read c a n).st.aside = r.st.aside := by
  unfold Run.read
  (repeat' split)
  · rfl
  · rfl
  · exact Run.readUnits_aside _ _

@[simp] theorem Run.elems_aside (c : Ctx) (fl : InFlight) (o lo n : Nat) (r : Run) : (r.elems c fl false o lo n).st.aside = r.st.aside := by
  unfold Run.elems
  split
  · rfl
  · rw [Bool.false_and, Bool.false_and]
    dsimp only
    split <;> exact Run.read_aside _ _ _ _

/-- The reads of a plan of elements and bytes. -/
theorem Run.plan_aside (c : Ctx) (fl : InFlight) (p : List PlanStep) (hp : ∀ o idx, PlanStep.scales o idx ∉ p) (r : Run) :
    (Run.plan c fl false p r).st.aside = r.st.aside := by
  induction p generalizing r with
  | nil => rfl
  | cons x p ih =>
    refine (ih (fun o idx hm => hp o idx (List.mem_cons_of_mem _ hm)) _).trans ?_
    cases x with
    | elems o lo n =>
      simp only [Run.step]
      split
      · rfl
      · exact Run.elems_aside c fl o lo n r
    | raw a n => exact Run.read_aside c a n r
    | scales o idx => exact absurd List.mem_cons_self (hp o idx)
    | fresh => rfl
    | pass k => rfl
    | row => simp only [Run.step]; split <;> rfl

/-! ### SEND and PUBLISH (R87, R95, R410, R477) -/

/-- The reads of a SEND: the elements or the stored bytes, and the trailer of a scaled tensor. -/
def sendPlan (a : Tensor) : List PlanStep :=
  (if a.fmt = .xa96 then a.elemIdx.map (moveRead a) else [.raw a.base a.storedBytes]) ++
    (if a.scale = 0 then [] else [.raw (a.base + a.trailerOff) a.nblk])

/-- The reads of a PUBLISH: the field and its capture time. -/
def publishPlan (a : Tensor) (f : InFlight) : List PlanStep := [.raw a.base a.storedBytes, .raw f.desc.src1.toNat 8]

theorem moveRead_noScales (a : Tensor) (i o : Nat) (idx : List Nat) : PlanStep.scales o idx ≠ moveRead a i := by
  unfold moveRead
  split <;> simp

theorem sendPlan_noScales (a : Tensor) : ∀ o idx, PlanStep.scales o idx ∉ sendPlan a := by
  intro o idx hm
  rcases List.mem_append.mp hm with h | h
  · split at h
    · obtain ⟨i, -, hi⟩ := List.mem_map.mp h
      exact moveRead_noScales a i o idx hi.symm
    · simp at h
  · split at h <;> simp at h

theorem publishPlan_noScales (a : Tensor) (f : InFlight) : ∀ o idx, PlanStep.scales o idx ∉ publishPlan a f := by
  simp [publishPlan]

/-- What a SEND does once its reads have ended. -/
theorem runSend_eq {s : State} {c : Ctx} {f : InFlight} {a : Tensor} (ha : f.src0 = some a) :
    runSend c f s =
      let r := Run.plan c f false (sendPlan a) { st := s }
      if r.status ≠ 0 then (r.st, { f with status := BitVec.ofNat 8 r.status })
      else if f.desc.p 9 6 = s.chip then sendLocal c f a r.st s
      else sendRemote c f a r.st s := by
  unfold runSend
  rw [ha]
  rfl

/-- What a PUBLISH does once its reads have ended. -/
theorem runPublish_eq {s : State} {c : Ctx} {f : InFlight} {a : Tensor} (ha : f.src0 = some a) :
    runPublish c f s =
      let r := Run.plan c f false (publishPlan a f) { st := s }
      if r.status ≠ 0 then (r.st, { f with status := BitVec.ofNat 8 r.status })
      else if !(r.st.tileTakes c.tile r.st.commitTile) then (r.st.dropAt (dieOfTile r.st.commitTile), f)
      else
        (r.st.updBeat (fun b => { b with staging := { b.staging with
          updates := b.staging.updates ++ [{ sender := (c.q, f.pos.toNat), off := f.desc.p 7 0, bytes := s.peek a.base a.storedBytes
                                             capture := BitVec.ofNat 64 (leNat (s.peek f.desc.src1.toNat 8)) }] } }),
         { f with acksDue := 1 }) := by
  unfold runPublish
  rw [ha]
  rfl

/-- Reads that may be performed in a memory without errors leave the state, whatever is asked of it then. -/
theorem Run.plan_ready {s : State} {c : Ctx} {f : InFlight} {p : List PlanStep} {P : State → Prop}
    (h : ((Run.plan c f false p { st := s }).status = 0 ∧ P (Run.plan c f false p { st := s }).st) ∨
      (s.sound ∧ (∀ x ∈ p, s.stepGood c f false x) ∧ P s)) :
    (Run.plan c f false p { st := s }).status = 0 ∧ P (Run.plan c f false p { st := s }).st := by
  rcases h with h | ⟨hs, hg, hp⟩
  · exact h
  · obtain ⟨hst, h0⟩ := Run.plan_ok_of_start hs hg
    exact ⟨h0, by rw [hst]; exact hp⟩

/-- The message of a SEND to a tile of this chip. -/
def sendMessage (c : Ctx) (f : InFlight) (a : Tensor) (chip : Nat) (data : State) : Message :=
  { route := dieRoute (dieOfTile c.tile) (dieOfTile (f.desc.p 5 0)), window := f.desc.p 13 10, offset := f.desc.p 47 16, extent := a.extent
    parts := data.sendParts a
    signal := if f.desc.hasSignal && refChip f.desc.signalRef.toNat == chip then some (f.desc.signalRef, f.desc.signalAdd) else none
    sender := some (c.q, f.pos.toNat) }

theorem sendLocal_taken {s : State} {c : Ctx} {f : InFlight} (h : s.tileTakes c.tile (f.desc.p 5 0) = true) (a : Tensor) (data : State) :
    sendLocal c f a s data = (s.updTile (f.desc.p 5 0) (fun x => { x with msgs := x.msgs ++ [sendMessage c f a s.chip data] }),
      { f with acksDue := 1, sigDone := f.desc.hasSignal && refChip f.desc.signalRef.toNat == s.chip }) := if_pos h

theorem sendLocal_refused {s : State} {c : Ctx} {f : InFlight} (h : s.tileTakes c.tile (f.desc.p 5 0) = false) (a : Tensor) (data : State) :
    sendLocal c f a s data = (s.dropAt (dieOfTile (f.desc.p 5 0)), { f with sigDone := true }) := if_neg (by simp [h])

/-- A message to a tile that cannot be reached is discarded, and counted. -/
theorem State.deliver_discarded {s : State} {t : Nat} (h : s.tileReachable t = false) (m : Message) :
    s.deliver t m = (s.dropAt (dieOfTile t), .discarded) := if_pos (Or.inr (by simp [h]))

/-- A message that its window holds and one of whose writes fails. -/
theorem State.deliver_failed {s : State} {t : Nat} {m : Message} (ht : t < s.part.tiles) (hr : s.tileReachable t = true)
    (hd : (SMap.get {} (s.tile t).windows m.window).defined = true)
    (hs : m.offset + m.extent ≤ (SMap.get {} (s.tile t).windows m.window).size)
    (hno : (State.storeParts (t * tileSize + (SMap.get {} (s.tile t).windows m.window).base + m.offset) m.parts s).2 ≠ 0) :
    s.deliver t m =
      ((State.storeParts (t * tileSize + (SMap.get {} (s.tile t).windows m.window).base + m.offset) m.parts s).1,
        .failed (State.storeParts (t * tileSize + (SMap.get {} (s.tile t).windows m.window).base + m.offset) m.parts s).2) := by
  have hw : ¬((!(SMap.get {} (s.tile t).windows m.window).defined) = true ∨
      (SMap.get {} (s.tile t).windows m.window).size < m.offset + m.extent) := by simpa [hd] using hs
  simp only [State.deliver, ht, hr, decide_true, Bool.not_true, Bool.false_eq_true, or_self, if_false, if_neg hw, if_pos hno]

/-- Settles O17: what SEND and PUBLISH do once their reads have ended, which leave the messages, the updates and the queues alone; and
how a message ends at a tile that it cannot reach or write. -/
theorem sendAndPublish : Obligations.SendAndPublish := by
  unfold Obligations.SendAndPublish
  refine ⟨?localSend, ?sendEnds, ?publishEnds, ?arrival, ?publish⟩
  case localSend =>
    intro s q f a h ha plan r hready hchip
    have hr : Run.plan (s.ctxOf q f) f false (sendPlan a) { st := s } = r := rfl
    obtain ⟨h0, htake⟩ : r.status = 0 ∧ r.st.tileTakes f.tile (f.desc.p 5 0) = true :=
      Run.plan_ready (P := fun t => t.tileTakes f.tile (f.desc.p 5 0) = true) hready
    have haside : r.st.aside = s.aside := hr ▸ Run.plan_aside _ _ _ (sendPlan_noScales a) _
    have hqueues : r.st.queues = s.queues := hr ▸ Run.plan_queues _ _ _ _ _
    have hlat : r.st.chip = s.chip := congrArg (fun x : Aside => x.lat.chip.toNat) haside
    have hmsgs : ∀ y, (r.st.tile y).msgs = (s.tile y).msgs := fun y => congrArg (fun x : Aside => x.msgs y) haside
    have hrun : runSend (s.ctxOf q f) f s = sendLocal (s.ctxOf q f) f a r.st s := by
      rw [runSend_eq ha]
      dsimp only
      rw [hr, if_neg (not_not.mpr h0), if_pos hchip]
    rw [sendLocal_taken (c := s.ctxOf q f) htake, hlat] at hrun
    refine ⟨_, sendMessage (s.ctxOf q f) f a s.chip s, congrArg Host.Outcome.next (State.runOp_running h), ?_, rfl, rfl, rfl, rfl, rfl, rfl, ?_⟩
    · rw [hrun, ← hmsgs]
      exact congrArg TileSt.msgs (State.updTile_tile_self r.st (f.desc.p 5 0)
        (fun x => { x with msgs := x.msgs ++ [sendMessage (s.ctxOf q f) f a s.chip s] }))
    · rw [hrun, State.setCurrent_inflight]
      exact congrArg (fun m => Machine.setCurrent _ (SMap.get {} m q).inflight) hqueues
  case sendEnds =>
    intro s q f a h ha plan r sig pk ks x
    have hr : Run.plan (s.ctxOf q f) f false (sendPlan a) { st := s } = r := rfl
    have hexec : exec (.send q) s = .next ((runSend (s.ctxOf q f) f s).1.setCurrent q
        { (runSend (s.ctxOf q f) f s).2 with executed := true }) := congrArg Host.Outcome.next (State.runOp_running h)
    refine ⟨fun hs => ?_, fun hs hc ht => ?_, fun hs hc => ?_⟩
    · rw [hexec, runSend_eq ha]
      dsimp only
      rw [hr, if_pos hs]
    · rw [hexec, runSend_eq ha]
      dsimp only
      rw [hr, if_neg (not_not.mpr hs), if_pos hc, sendLocal_refused (c := s.ctxOf q f) ht]
    · rw [hexec, runSend_eq ha]
      dsimp only
      rw [hr, if_neg (not_not.mpr hs), if_neg hc]
      rfl
  case publishEnds =>
    intro s q f a h ha r
    have hr : Run.plan (s.ctxOf q f) f false (publishPlan a f) { st := s } = r := rfl
    have hexec : exec (.publish q) s = .next ((runPublish (s.ctxOf q f) f s).1.setCurrent q
        { (runPublish (s.ctxOf q f) f s).2 with executed := true }) := congrArg Host.Outcome.next (State.runOp_running h)
    refine ⟨fun hs => ?_, fun hs ht => ?_⟩
    · rw [hexec, runPublish_eq ha]
      dsimp only
      rw [hr, if_pos hs]
    · have ht' : (!(r.st.tileTakes (s.ctxOf q f).tile r.st.commitTile)) = true := by
        rw [Bool.not_eq_true']
        exact ht
      rw [hexec, runPublish_eq ha]
      dsimp only
      rw [hr, if_neg (not_not.mpr hs), if_pos ht']
  case arrival =>
    intro s tile q pos m rest hmsgs hsend w s0 r
    have hwin : SMap.get {} (s0.tile tile).windows m.window = w := by rw [State.updTile_tile_self]
    refine ⟨fun hu => ?_, fun ht hu hd hs hno => ?_⟩
    · have hdel := State.deliver_discarded (s := s0) (t := tile) hu m
      refine congrArg Host.Outcome.next ?_
      simp only [State.messageArrive, hmsgs]
      rw [hdel, hsend]
    · have hdel := State.deliver_failed (s := s0) (t := tile) (m := m) ht hu (by rwa [hwin]) (by rwa [hwin]) (by rwa [hwin])
      refine congrArg Host.Outcome.next ?_
      simp only [State.messageArrive, hmsgs]
      rw [hdel, hwin, hsend]
  case publish =>
    intro s q f a h ha r hready
    have hr : Run.plan (s.ctxOf q f) f false (publishPlan a f) { st := s } = r := rfl
    have hgood : ∀ {Q : Prop}, s.sound ∧ s.opens (s.ctxOf q f) a.base a.storedBytes ∧ s.opens (s.ctxOf q f) f.desc.src1.toNat 8 ∧ Q →
        s.sound ∧ (∀ x ∈ publishPlan a f, s.stepGood (s.ctxOf q f) f false x) ∧ Q := fun ⟨hs, h1, h2, hq⟩ =>
      ⟨hs, by simp only [publishPlan, List.mem_cons, List.not_mem_nil, or_false, forall_eq_or_imp, forall_eq]; exact ⟨h1, h2⟩, hq⟩
    obtain ⟨h0, htake⟩ : r.status = 0 ∧ r.st.tileTakes f.tile r.st.commitTile = true :=
      Run.plan_ready (P := fun t => t.tileTakes f.tile t.commitTile = true) (hready.imp_right hgood)
    have haside : r.st.aside = s.aside := hr ▸ Run.plan_aside _ _ _ (publishPlan_noScales a f) _
    have hqueues : r.st.queues = s.queues := hr ▸ Run.plan_queues _ _ _ _ _
    have hstage : r.st.beat.staging = s.beat.staging := congrArg (fun x : Aside => x.beat.staging) haside
    have ht' : ¬((!(r.st.tileTakes (s.ctxOf q f).tile r.st.commitTile)) = true) := by
      rw [Bool.not_eq_true', Bool.not_eq_false]
      exact htake
    have hrun := runPublish_eq (c := s.ctxOf q f) (s := s) ha
    dsimp only at hrun
    rw [hr, if_neg (not_not.mpr h0), if_neg ht'] at hrun
    refine ⟨_, { sender := (q, f.pos.toNat), off := f.desc.p 7 0, bytes := s.peek a.base a.storedBytes
                 capture := BitVec.ofNat 64 (leNat (s.peek f.desc.src1.toNat 8)) },
      congrArg Host.Outcome.next (State.runOp_running h), ?_, rfl, rfl, rfl, rfl, ?_⟩
    · rw [hrun]
      exact congrArg (fun x : StagingSt => x.updates ++ _) hstage
    · rw [hrun, State.setCurrent_inflight]
      exact congrArg (fun m => Machine.setCurrent _ (SMap.get {} m q).inflight) hqueues

end Sys2Proof.Machine
end

section
/-! PROOFS of the family of 03_queues_and_beats.md: what the answers to the commands and messages of a fenced unit leave alone, and the
start of a beat (R18, R89, R347, R404, R409, R410). -/

namespace Sys2Proof.Machine

/-! ### What the answers of a fence leave alone

Commands that are answered, messages that are recalled and the note of the regions that are missing keep the parts gathered here. -/

@[ext] structure Standing where
  tb : TimeBase
  ctx : CtxSt
  next : Nat
  frame : Nat
  schedPos : Nat
  missing : Option Nat
  unit : UnitKind → Nat → UnitSt
  arr : Nat → Word
  mapRepair : Nat → Word
  holdUntil : Nat → Nat

def Aside.standing (x : Aside) : Standing where
  tb := x.tb
  ctx := x.ctx
  next := x.beat.next
  frame := x.beat.frame
  schedPos := x.beat.schedPos
  missing := x.beat.missing
  unit := x.unit
  arr := x.arr
  mapRepair := x.mapRepair
  holdUntil := x.holdUntil

/-- The part of a state that the answers of a fence leave alone. -/
def State.standing (s : State) : Standing := s.aside.standing

/-- What leaves the larger part alone leaves the smaller one alone. -/
theorem State.standing_of_aside {s t : State} (h : t.aside = s.aside) : t.standing = s.standing := congrArg Aside.standing h

theorem foldl_standing {α : Type} (g : State → α → State) (l : List α) (s : State) (h : ∀ s x, (g s x).standing = s.standing) :
    (l.foldl g s).standing = s.standing :=
  List.foldlRecOn (motive := fun t : State => t.standing = s.standing) l g rfl fun t ht x _ => (h t x).trans ht

@[simp] theorem State.updTile_standing (s : State) (t : Nat) (f : TileSt → TileSt) : (s.updTile t f).standing = s.standing := (rfl)
@[simp] theorem State.updQueue_standing (s : State) (q : Nat) (f : QueueSt → QueueSt) : (s.updQueue q f).standing = s.standing := (rfl)
@[simp] theorem State.updUpd_standing (s : State) (f : UpdSt → UpdSt) : (s.updUpd f).standing = s.standing := (rfl)
@[simp] theorem State.updSaf_standing (s : State) (f : SafetySt → SafetySt) : (s.updSaf f).standing = s.standing := (rfl)
@[simp] theorem State.updAsh_standing (s : State) (f : AshSt → AshSt) : (s.updAsh f).standing = s.standing := (rfl)
@[simp] theorem State.msix_standing (s : State) (v : Nat) : (s.msix v).standing = s.standing := (rfl)
@[simp] theorem State.draw_standing (s : State) : s.draw.2.standing = s.standing := (rfl)
@[simp] theorem State.zeroRange_standing (s : State) (a n : Nat) : (s.zeroRange a n).standing = s.standing := (rfl)
@[simp] theorem State.raise_standing (s : State) (sev unit status : Nat) : (s.raise sev unit status).standing = s.standing :=
  State.standing_of_aside (s.raise_aside sev unit status)
@[simp] theorem State.raiseDie_standing (s : State) (d sev unit status : Nat) : (s.raiseDie d sev unit status).standing = s.standing :=
  State.standing_of_aside (s.raiseDie_aside d sev unit status)
@[simp] theorem State.put_standing (s : State) (a : Nat) (bs : List Byte) : (s.put a bs).standing = s.standing :=
  State.standing_of_aside (s.put_aside a bs)
@[simp] theorem State.dropAt_standing (s : State) (d : Nat) : (s.dropAt d).standing = s.standing :=
  State.standing_of_aside (s.dropAt_aside d)

/-- An update of the beat that keeps its number, its frame and its place in the schedule. -/
theorem State.updBeat_standing (s : State) (f : BeatSt → BeatSt) (h : ∀ b, (f b).next = b.next ∧ (f b).frame = b.frame ∧
    (f b).schedPos = b.schedPos ∧ (f b).missing = b.missing) : (s.updBeat f).standing = s.standing := by
  obtain ⟨h1, h2, h3, h4⟩ := h s.beat
  exact Standing.ext rfl rfl h1 h2 h3 h4 rfl rfl rfl rfl

/-! ### Commands and messages that a fence answers (R409, R410) -/

@[simp] theorem State.failInFlight_standing (s : State) (q pos status : Nat) : (s.failInFlight q pos status).standing = s.standing := (rfl)
@[simp] theorem State.ackDropped_standing (s : State) (q pos : Nat) : (s.ackDropped q pos).standing = s.standing := (rfl)
@[simp] theorem State.ackInFlight_standing (s : State) (q pos : Nat) : (s.ackInFlight q pos).standing = s.standing := (rfl)

@[simp] theorem State.meFlags_standing (s : State) (q : Nat) (f : InFlight) : (s.meFlags q f).standing = s.standing := by
  unfold State.meFlags; (repeat' split) <;> rfl

@[simp] theorem State.clearKindling_standing (s : State) (f : InFlight) : (s.clearKindling f).standing = s.standing := by
  unfold State.clearKindling; split <;> rfl

@[simp] theorem State.afterEntry_standing (t : State) (q : Nat) (f : InFlight) (irq : Nat) : (t.afterEntry q f irq).standing = t.standing := by
  have h : ((((t.updQueue q (QueueSt.retired f)).meFlags q f).clearKindling f).updBeat (fun b => { b with
      satNext := b.satNext || f.sat, invalidNext := b.invalidNext || statusInvalidates f.status.toNat })).standing = t.standing :=
    (State.updBeat_standing _ _ fun _ => ⟨rfl, rfl, rfl, rfl⟩).trans (by simp)
  unfold State.afterEntry
  dsimp only
  split
  · rw [State.msix_standing, h]
  · exact h

@[simp] theorem State.complete_standing (s : State) (a : QueueAlloc) (f : InFlight) (cycles : Nat) :
    (s.complete a f cycles).standing = s.standing := by
  rw [State.complete_eq, State.afterEntry_standing]
  exact State.put_standing _ _ _

@[simp] theorem State.completeAll_standing (q status : Nat) (l : List InFlight) (s : State) :
    (s.completeAll q status l).standing = s.standing := by
  induction l generalizing s with
  | nil => rfl
  | cons f l ih =>
    rw [State.completeAll, ih]
    split <;> simp

@[simp] theorem State.answerQueue_standing (s : State) (q status : Nat) : (s.answerQueue q status).standing = s.standing :=
  State.completeAll_standing _ _ _ _

@[simp] theorem State.answerAllocs_standing (tiles : List Nat) (status : Nat) (l : List QueueAlloc) (s : State) :
    (s.answerAllocs tiles status l).standing = s.standing := by
  induction l generalizing s with
  | nil => rfl
  | cons a l ih =>
    rw [State.answerAllocs, ih]
    split <;> simp

@[simp] theorem State.recallMessages_standing (cmds : List (Nat × Nat)) (l : List Nat) (s : State) :
    (s.recallMessages cmds l).standing = s.standing := by
  induction l generalizing s with
  | nil => exact s.updBeat_standing _ fun _ => ⟨rfl, rfl, rfl, rfl⟩
  | cons t l ih => rw [State.recallMessages, ih, State.updTile_standing]

@[simp] theorem State.discardMessages_standing (t : Nat) (l : List Message) (s : State) : (s.discardMessages t l).standing = s.standing := by
  induction l generalizing s with
  | nil => rfl
  | cons m l ih =>
    rw [State.discardMessages, ih]
    split <;> simp

@[simp] theorem State.dropUpdates_standing (l : List StageUpdate) (s : State) : (s.dropUpdates l).standing = s.standing := by
  induction l generalizing s with
  | nil => rfl
  | cons u l ih => rw [State.dropUpdates, ih, State.ackInFlight_standing, State.dropAt_standing]

@[simp] theorem State.answerTiles_standing (s : State) (tiles : List Nat) (status : Nat) :
    (s.answerTiles tiles status).standing = s.standing := by
  unfold State.answerTiles
  dsimp only
  have hfold : ∀ t : State, (tiles.foldl (fun acc t => acc.discardMessages t (acc.tile t).msgs) t).standing = t.standing := fun t =>
    foldl_standing _ _ _ fun _ _ => State.discardMessages_standing _ _ _
  split
  · refine (State.updBeat_standing _ _ fun _ => ⟨rfl, rfl, rfl, rfl⟩).trans ?_
    simp [hfold]
  · simp [hfold]

@[simp] theorem State.refreshMissing_standing (s : State) : s.refreshMissing.standing = s.standing := by
  unfold State.refreshMissing
  dsimp only
  split
  · rw [State.raise_standing]
    exact s.updBeat_standing _ fun _ => ⟨rfl, rfl, rfl, rfl⟩
  · exact s.updBeat_standing _ fun _ => ⟨rfl, rfl, rfl, rfl⟩

@[simp] theorem State.endDrains_standing (s : State) (k : UnitKind) (u : Nat) : (s.endDrains k u).standing = s.standing := by
  refine (foldl_standing _ _ _ fun t f => ?_).trans (State.standing_of_aside (s.updDie_aside _ _ fun _ => ⟨rfl, rfl⟩))
  simp [State.failStage, State.stageFail]

/-! ### What fences, returns and swaps leave alone -/

/-- Where the beats stand: what no change of a unit touches. -/
@[ext] structure Course where
  ctx : CtxSt
  next : Nat
  frame : Nat
  schedPos : Nat
  missing : Option Nat

def State.course (s : State) : Course where
  ctx := s.ctx
  next := s.beat.next
  frame := s.beat.frame
  schedPos := s.beat.schedPos
  missing := s.beat.missing

theorem State.course_of_standing {s t : State} (h : t.standing = s.standing) : t.course = s.course :=
  Course.ext (congrArg Standing.ctx h) (congrArg Standing.next h) (congrArg Standing.frame h) (congrArg Standing.schedPos h)
    (congrArg Standing.missing h)

theorem foldl_course {α : Type} (g : State → α → State) (l : List α) (s : State) (h : ∀ s x, (g s x).course = s.course) :
    (l.foldl g s).course = s.course :=
  List.foldlRecOn (motive := fun t : State => t.course = s.course) l g rfl fun t ht x _ => (h t x).trans ht

@[simp] theorem State.updUnit_course (s : State) (k : UnitKind) (u : Nat) (f : UnitSt → UnitSt) : (s.updUnit k u f).course = s.course := by
  cases k <;> rfl

@[simp] theorem State.setUnit_course (s : State) (k : UnitKind) (u : Nat) (st : UnitState) : (s.setUnit k u st).course = s.course :=
  s.updUnit_course k u _

@[simp] theorem State.updTile_course (s : State) (t : Nat) (f : TileSt → TileSt) : (s.updTile t f).course = s.course := (rfl)
@[simp] theorem State.updQueue_course (s : State) (q : Nat) (f : QueueSt → QueueSt) : (s.updQueue q f).course = s.course := (rfl)
@[simp] theorem State.updRgnUnit_course (s : State) (g : Nat) (f : UnitSt → UnitSt) : (s.updRgnUnit g f).course = s.course := (rfl)
@[simp] theorem State.updSaf_course (s : State) (f : SafetySt → SafetySt) : (s.updSaf f).course = s.course := (rfl)
@[simp] theorem State.zeroRange_course (s : State) (a n : Nat) : (s.zeroRange a n).course = s.course := (rfl)
@[simp] theorem State.updAsh_course (s : State) (f : AshSt → AshSt) : (s.updAsh f).course = s.course := (rfl)
@[simp] theorem State.flashPut_course (s : State) (a : Nat) (b : List Byte) : (s.flashPut a b).course = s.course := (rfl)
@[simp] theorem State.refreshMissing_course (s : State) : s.refreshMissing.course = s.course :=
  State.course_of_standing s.refreshMissing_standing
@[simp] theorem State.answerTiles_course (s : State) (tiles : List Nat) (status : Nat) : (s.answerTiles tiles status).course = s.course :=
  State.course_of_standing (s.answerTiles_standing tiles status)
@[simp] theorem State.endDrains_course (s : State) (k : UnitKind) (u : Nat) : (s.endDrains k u).course = s.course :=
  State.course_of_standing (s.endDrains_standing k u)
@[simp] theorem State.raiseDie_course (s : State) (d sev unit status : Nat) : (s.raiseDie d sev unit status).course = s.course :=
  State.course_of_standing (s.raiseDie_standing d sev unit status)
@[simp] theorem State.recordRepair_course (s : State) (e : RepairEntry) : (s.recordRepair e).course = s.course := by
  unfold State.recordRepair State.recordRepairs
  split
  · rfl
  · dsimp only
    rw [foldl_course]
    case h => exact fun acc e => acc.updAsh_course _
    rw [State.flashPut_course, State.flashPut_course]
    rfl

@[simp] theorem State.absorb_course (s : State) (k : UnitKind) (u : Nat) : (s.absorb k u).course = s.course := by
  refine foldl_course _ _ _ fun t e => ?_
  dsimp only
  split <;> simp

@[simp] theorem State.openFence_course (s : State) (k : UnitKind) (u cause : Nat) (st : UnitState) :
    (s.openFence k u cause st).course = s.course := by
  simp [State.openFence]

@[simp] theorem State.suspectUnit_course (s : State) (k : UnitKind) (u cause : Nat) : (s.suspectUnit k u cause).course = s.course := by
  have hheld : ({ s with suspects := s.suspects ++ [(k, u, cause)] } : State).course = s.course := rfl
  unfold State.suspectUnit
  (repeat' split) <;> simp [hheld]

@[simp] theorem State.settleAll_course (l : List (UnitKind × Nat × Nat)) (s : State) : (State.settleAll l s).course = s.course := by
  induction l generalizing s with
  | nil => rfl
  | cons e l ih => rw [State.settleAll, ih, State.suspectUnit_course]

@[simp] theorem State.settle_course (s : State) : s.settle.course = s.course :=
  State.settleAll_course s.suspects { s with suspects := [] }

@[simp] theorem State.bringIn_course (s : State) (k : UnitKind) (u : Nat) : (s.bringIn k u).course = s.course := by
  simp [State.bringIn, State.startRounds]

@[simp] theorem State.readyUnit_course (s : State) (k : UnitKind) (u : Nat) : (s.readyUnit k u).course = s.course := by
  unfold State.readyUnit
  split <;> simp

@[simp] theorem State.retireSlot_course (s : State) (p cause : Nat) : (s.retireSlot p cause).course = s.course := by
  unfold State.retireSlot
  dsimp only
  split <;> simp

/-! ### The work of a frame boundary (R92, R372, R412, R417, R419, R426) -/

@[simp] theorem State.discardCredits_course (s : State) : s.discardCredits.course = s.course := by
  refine foldl_course _ _ _ fun t a => ?_
  dsimp only
  split <;> simp

@[simp] theorem State.clearSlices_course (s : State) : s.clearSlices.course = s.course := foldl_course _ _ _ fun _ _ => rfl

@[simp] theorem State.returnsAt_course (s : State) (n : Nat) : (s.returnsAt n).course = s.course := by
  refine foldl_course _ _ _ fun t e => ?_
  dsimp only
  split <;> simp

@[simp] theorem State.sliceMissing_course (s : State) (t : Nat) : (s.sliceMissing t).course = s.course := by simp [State.sliceMissing]

@[simp] theorem State.agingAt_course (s : State) : s.agingAt.course = s.course := by
  refine foldl_course _ _ _ fun t p => ?_
  split <;> simp

@[simp] theorem State.clearTile_course (s : State) (t : Nat) : (s.clearTile t).course = s.course := by
  unfold State.clearTile
  refine (foldl_course _ _ _ fun u a => ?_).trans (s.updTile_course t _)
  split <;> rfl

@[simp] theorem State.swapEmber_course (s : State) (t e : Nat) : (s.swapEmber t e).course = s.course := by
  simp only [State.swapEmber, State.raiseDie_course, State.updRgnUnit_course, State.setUnit_course, State.clearTile_course,
    State.zeroRange_course, State.recordRepair_course]
  rfl

@[simp] theorem State.swapTile_course (s : State) (t : Nat) : (s.swapTile t).course = s.course := by
  unfold State.swapTile
  dsimp only
  (repeat' split) <;> simp [State.emberFails]

@[simp] theorem State.swapAll_course (s : State) : s.swapAll.course = s.course := by
  unfold State.swapAll
  rw [State.refreshMissing_course]
  exact foldl_course _ _ _ fun t i => t.swapTile_course i

/-! ### BEAT_START (R89, R347) -/

/-- Updates that are discarded with the staging record leave the beat. -/
theorem State.dropUpdates_beat (l : List StageUpdate) (s : State) : (s.dropUpdates l).beat = s.beat := by
  induction l generalizing s with
  | nil => rfl
  | cons u l ih => rw [State.dropUpdates, ih]; rfl

theorem State.course_of_aside {s t : State} (h : t.aside = s.aside) : t.course = s.course :=
  State.course_of_standing (State.standing_of_aside h)

theorem State.missOrder_of_aside {s t : State} (h : t.aside = s.aside) : t.beat.missOrder = s.beat.missOrder :=
  congrArg (fun x : Aside => x.beat.missOrder) h

@[simp] theorem State.stageBytes_aside (s : State) : s.stageBytes.aside = s.aside := by
  unfold State.stageBytes
  split
  · rfl
  · exact (State.put_aside _ _ _).trans s.draw_aside

@[simp] theorem State.releaseAt_aside (s : State) : s.releaseAt.aside = s.aside := by
  unfold State.releaseAt
  split
  · simp [State.driveSafe]
  · rfl

/-- A staging record that is lost leaves the rest of the beat. -/
theorem State.loseStaging_beat (s : State) : s.loseStaging.beat = { s.beat with staging := {} } :=
  congrArg (fun b : BeatSt => { b with staging := {} }) (s.dropUpdates_beat _)

@[simp] theorem State.loseStaging_course (s : State) : s.loseStaging.course = s.course :=
  State.course_of_standing ((State.updBeat_standing _ _ fun _ => ⟨rfl, rfl, rfl, rfl⟩).trans (s.dropUpdates_standing _))

/-- The switch of schedules begins the schedule of the region that went missing first, at its first entry. -/
theorem State.switchSchedule_spec (s : State) :
    s.switchSchedule.course = { s.course with schedPos := 0, missing := s.beat.missOrder.head? } ∧
      s.switchSchedule.beat.missOrder = s.beat.missOrder := by
  unfold State.switchSchedule
  dsimp only
  split
  · split
    · exact ⟨State.course_of_aside (State.stageBytes_aside _), (State.missOrder_of_aside (State.stageBytes_aside _)).trans rfl⟩
    · refine ⟨(State.course_of_aside (State.stageBytes_aside _)).trans (State.loseStaging_course _), ?_⟩
      rw [State.missOrder_of_aside (State.stageBytes_aside _), State.loseStaging_beat]
      rfl
  · exact ⟨rfl, rfl⟩

/-- The first part of a frame boundary: the credits and slices of the frame that ends, the returns, and what is lost. -/
def State.frameLosses (s : State) (n k : Nat) : State :=
  let s1 := s.discardCredits
  let owed := if k = 0 then [] else s1.slicesOwed
  let s2 := s1.clearSlices.returnsAt n
  ((owed.foldl State.sliceMissing s2).agingAt).updBeat (fun b => { b with
    invalidBefore := max s2.beat.invalidBefore (min k b.invalidBefore) })

/-- A frame boundary: the first part, the swaps, the schedule, and the release of the safe-state request. -/
theorem State.boundary_eq (s : State) (n k : Nat) :
    s.boundary n k =
      let s5 := (s.frameLosses n k).swapAll.switchSchedule.releaseAt.updAsh (fun a => a.flush s.mono)
      if s5.compares then s5 else s5.updSaf (fun f => { f with cmpNext := k }) := rfl

theorem State.updBeat_invalidBefore_course (s : State) (g : BeatSt → Nat) :
    (s.updBeat (fun b => { b with invalidBefore := g b })).course = s.course := rfl

theorem State.frameLosses_course (s : State) (n k : Nat) : (s.frameLosses n k).course = s.course := by
  unfold State.frameLosses
  dsimp only
  rw [State.updBeat_invalidBefore_course, State.agingAt_course, foldl_course]
  case h => exact fun t i => t.sliceMissing_course i
  simp

/-- A frame boundary begins the schedule of the region that is missing longest, at its first entry, and leaves the beat where it is. -/
theorem State.boundary_course (s : State) (n k : Nat) :
    (s.boundary n k).course = { s.course with schedPos := 0, missing := (s.boundary n k).beat.missOrder.head? } := by
  have hend : ∀ t : State, t.aside = (s.frameLosses n k).swapAll.switchSchedule.aside →
      t.course = { s.course with schedPos := 0, missing := t.beat.missOrder.head? } := by
    intro t ht
    obtain ⟨hcourse, horder⟩ := (s.frameLosses n k).swapAll.switchSchedule_spec
    rw [State.course_of_aside ht, hcourse, State.missOrder_of_aside ht, horder, State.swapAll_course, State.frameLosses_course]
  refine hend _ ?_
  rw [State.boundary_eq]
  dsimp only
  split <;> simp

/-- Without a committed entry that is held back, nothing applies at the start of a beat. -/
theorem State.applyHeld_none {s : State} (h : s.ctx.heldEntries = []) : s.applyHeld = s := by
  unfold State.applyHeld
  rw [h]
  rfl

theorem exec_beatStart_due {s : State} (h : s.beatDue = true) : exec .beatStart s = .next (s.beatBegin s.beat.next).applyHeld :=
  congrArg Host.Outcome.next (if_pos h)

/-- Settles O26: the boundary's work leaves the beat where the start of the beat has put it, and begins the schedule. -/
theorem beatStartCounts : Obligations.BeatStartCounts := by
  unfold Obligations.BeatStartCounts
  refine ⟨?within, ?boundary, ?notDue⟩
  case within =>
    intro s hd hb hs hh
    have hbegin : s.beatBegin s.beat.next = s.updBeat (fun b => { b with next := b.next + 1, frame := b.next * s.beatNs / s.frameNs }) := by
      simp only [State.beatBegin, hb, State.settle_of_none hs, Bool.false_eq_true, if_false]
      rfl
    rw [exec_beatStart_due hd, hbegin]
    exact congrArg Host.Outcome.next (State.applyHeld_none hh)
  case boundary =>
    intro s hd hb hh
    let s1 := s.settle.updBeat (fun x => { x with next := s.beat.next + 1, frame := s.frameOfBeat s.beat.next })
    have hbegin : s.beatBegin s.beat.next = s1.boundary s.beat.next (s.frameOfBeat s.beat.next) := by
      simp only [State.beatBegin, hb, if_true, s1]
    have hcourse := s1.boundary_course s.beat.next (s.frameOfBeat s.beat.next)
    generalize s1.boundary s.beat.next (s.frameOfBeat s.beat.next) = t at hbegin hcourse
    have hctx : t.ctx = s.ctx := (congrArg Course.ctx hcourse).trans (congrArg Course.ctx s.settle_course)
    refine ⟨t, ?_, congrArg Course.next hcourse, congrArg Course.frame hcourse, congrArg Course.schedPos hcourse,
      congrArg Course.missing hcourse⟩
    rw [exec_beatStart_due hd, hbegin, State.applyHeld_none (by rw [hctx, hh])]
  case notDue =>
    intro s hd
    exact congrArg Host.Outcome.next (if_neg (by simp [hd]))

end Sys2Proof.Machine
end

section
/-! PROOFS of the family of 03_queues_and_beats.md: a staging record that does not begin with an ECC unit, beside a multiple bit error. -/

namespace Sys2Proof.Machine

/-- An image whose staging record begins eight bytes into an ECC unit of its commit tile, tile 0. -/
def skewedStagingImage : Image := { Image.blank with payload := { Image.blank.payload with stageOff := 8 } }

/-- Six flipped data bits in the first eight bytes of an ECC unit of tile memory. They are a code word of code D: the decode finds
nothing, so a read gives them wrong (R123, R124). -/
def undetectedFlips : List Nat := [18, 19, 23, 26, 42, 51]

/-- One update waits for the staging record of `skewedStagingImage`; the unit in which the record begins has `undetectedFlips`, and the
bytes as intended are all zero. -/
def skewedStaging : State :=
  { image := some skewedStagingImage
    flips := [(0, undetectedFlips)]
    beat := { staging := { updates := [{ sender := (0, 0), off := 0, bytes := [], capture := 0 }] } } }

/-- The state in which the record is written: the update has been taken, and the bytes of the record are drawn. -/
def skewedStagingTaken : State :=
  ((skewedStaging.updBeat (fun b => { b with staging := { updates := [], capture := SMap.set 0 [] 0 0 } })).ackInFlight 0 0).draw.2

theorem decodeUnit_undetected : decodeUnit 32 undetectedFlips = .clean := by decide +kernel

/-- What a read of the unit gives. -/
def undetectedData : List Byte := [0x23, 1, 0, 1, 2] ++ zeros 27

theorem fetchPart_skewedStaging :
    skewedStagingTaken.fetchPart true 0 32 = { st := skewedStagingTaken, status := 0, data := undetectedData } := by
  have hlink : skewedStagingTaken.linkTry 0 = (skewedStagingTaken, 0) := rfl
  have hclean : skewedStagingTaken.isDirty 0 = false := rfl
  have hflips : SMap.get [] skewedStagingTaken.flips 0 = undetectedFlips := rfl
  have hdata : skewedStagingTaken.unitData 0 32 [] = undetectedData := by decide +kernel
  have hread : skewedStagingTaken.fetchPart true 0 32 = skewedStagingTaken.fetchStored 0 32 := by
    simp only [State.fetchPart, State.fetchUnit, hlink, if_true, ne_eq, not_true, if_false]
  rw [hread]
  unfold State.fetchStored
  rw [hclean, hflips, decodeUnit_undetected, if_neg Bool.false_ne_true]
  dsimp only
  rw [hdata]

/-- The write of the record covers three quarters of its first unit, so it writes back the rest as the read gave it (R126). -/
theorem storeUnit_skewedStaging (bs : List Byte) (h : bs.length = 256) :
    skewedStagingTaken.storeUnit true 0 32 8 bs = ({ skewedStagingTaken with
      mem := SMap.setBytes (SMap.setBytes [] 0 undetectedData) 8 (bs.take 24), flips := [] }, 0) := by
  have hundirty : skewedStagingTaken.undirty 0 = skewedStagingTaken := rfl
  unfold State.storeUnit
  rw [hundirty]
  dsimp only
  rw [fetchPart_skewedStaging, h]
  rfl

/-- A write whose first unit is written goes on to the others. -/
theorem State.storeUnits_first {s t : State} {u z a : Nat} {bs : List Byte} (h : s.storeUnit true u z a bs = (t, 0)) (l : List (Nat × Nat)) :
    State.storeUnits true a bs none ((u, z) :: l) (s, 0) = State.storeUnits true a bs (some (u / 64, false)) l (t, 0) := by
  have hfirst : ((none : Option (Nat × Bool)) != some (u / 64, false)) = true := rfl
  simp [State.storeUnits, hfirst, h]

/-- The byte before the record changes with the write of the record: the units after the first hold no error. -/
theorem put_skewedStaging (bs : List Byte) (h : bs.length = 256) : (skewedStagingTaken.put 8 bs).byteAt 0 = 0x23 := by
  have hunits : ∃ l, skewedStagingTaken.units 8 256 = (0, 32) :: l := ⟨_, rfl⟩
  obtain ⟨l, hl⟩ := hunits
  have hsound : ({ skewedStagingTaken with
      mem := SMap.setBytes (SMap.setBytes [] 0 undetectedData) 8 (bs.take 24), flips := [] } : State).sound :=
    ⟨rfl, rfl, rfl, fun _ => rfl⟩
  obtain ⟨m, hm, hget⟩ := State.storeUnits_sound hsound true 8 bs (some (0, false)) (by simp) l
  have hput : skewedStagingTaken.put 8 bs = { skewedStagingTaken with mem := m, flips := [] } := by
    unfold State.put State.store
    rw [h, hl, State.storeUnits_first (storeUnit_skewedStaging bs h)]
    exact congrArg Prod.fst hm
  rw [hput]
  refine (hget 0).trans ?_
  rw [if_neg (by omega)]
  change SMap.get 0 (SMap.setBytes (SMap.setBytes [] 0 undetectedData) 8 (bs.take 24)) 0 = 0x23
  rw [SMap.get_setBytes, if_neg (by omega), SMap.get_setBytes]
  decide

/-- Refutes O24, by its clause on the rest of memory: in an image whose staging record does not begin with an ECC unit, the record shares
its first unit with other bytes, and where that unit holds an undetected error, the read-modify-write of the record changes them too. (No
image that passes the load checks lays its staging record so; the statement is about every state.) -/
theorem not_stagingTakesUpdates : ¬ Obligations.StagingTakesUpdates := by
  rintro ⟨takes, -⟩
  obtain ⟨t, hexec, -, -, -, -, hframe⟩ := takes skewedStaging _ [] rfl rfl
  have ht : t = skewedStagingTaken.put 8 ((List.range 256).map (Config.freeByte 0)) := (Host.Outcome.next.inj hexec).symm
  have hkept : t.byteAt 0 = 0 := hframe 0 (by decide)
  rw [ht, put_skewedStaging _ (by simp)] at hkept
  exact absurd hkept (by decide)

end Sys2Proof.Machine
end

section
/-! PROOFS of the family of 03_queues_and_beats.md: the packets of the Lattice (R86, R87, R476 to R481, R483). -/

namespace Sys2Proof.Machine

/-! ### What sending leaves alone -/

/-- What has arrived at the ports, and what the chip knows of the Lattice besides the numbers of its own packets. -/
structure Inbound where
  inbox : Nat → List Packet
  lat : LatSt

def State.inbound (s : State) : Inbound where
  inbox := fun d => (s.port d).inbox
  lat := { s.lat with mgmtSeq := 0, tag := 0 }

/-- An update of a port that keeps what has arrived there. -/
theorem State.updPort_inbound (s : State) (p : Nat) (f : PortSt → PortSt) (h : ∀ x, (f x).inbox = x.inbox) :
    (s.updPort p f).inbound = s.inbound := by
  refine congrArg (Inbound.mk · _) (funext fun d => ?_)
  by_cases hd : d = p
  · rw [hd, State.updPort_port_self, h]
  · rw [State.updPort_port_ne _ _ _ _ hd]

@[simp] theorem State.raise_inbound (s : State) (sev unit status : Nat) : (s.raise sev unit status).inbound = s.inbound := by
  rw [State.raise_eq]
  rfl

@[simp] theorem PortSt.sendOpen_inbox (vc : Nat) (l : List (List Byte)) (p : PortSt) : (PortSt.sendOpen vc l p).inbox = p.inbox := by
  induction l generalizing p with
  | nil => rfl
  | cons b l ih =>
    unfold PortSt.sendOpen
    split
    · exact (ih _).trans rfl
    · rfl

@[simp] theorem PortSt.pumpPackets_inbox (n : Nat) (p : PortSt) : (p.pumpPackets n).inbox = p.inbox := by
  induction n generalizing p with
  | zero => rfl
  | succ n ih =>
    unfold PortSt.pumpPackets
    split
    · dsimp only
      split
      · exact PortSt.sendOpen_inbox _ _ _
      · rw [ih, PortSt.sendOpen_inbox]
    · split
      · rw [ih]
      · rfl

@[simp] theorem PortSt.queuePacket_inbox (p : PortSt) (k : Packet) : (p.queuePacket k).inbox = p.inbox :=
  PortSt.pumpPackets_inbox _ _

@[simp] theorem State.queueAt_inbound (s : State) (p : Nat) (k : Packet) : (s.queueAt p k).inbound = s.inbound :=
  s.updPort_inbound p _ fun _ => PortSt.queuePacket_inbox _ k

@[simp] theorem State.dropPacket_inbound (s : State) (die : Nat) : (s.dropPacket die).inbound = s.inbound :=
  (State.raise_inbound _ _ _ _).trans (s.updPort_inbound die _ fun _ => rfl)

@[simp] theorem State.sendData_inbound (s : State) (die : Nat) (k : Packet) (req : Option (Nat × Nat)) :
    (s.sendData die k req).1.inbound = s.inbound := by
  unfold State.sendData
  split
  · exact s.dropPacket_inbound die
  · split
    · exact s.dropPacket_inbound die
    · exact s.dropPacket_inbound die
    · split
      · exact s.raise_inbound _ _ _
      · refine (State.updPort_inbound _ _ _ fun x => ?_).trans (s.queueAt_inbound _ _)
        cases req <;> rfl

@[simp] theorem State.acknowledge_inbound (s : State) (p : Nat) (k : Packet) (code : Nat) : (s.acknowledge p k code).inbound = s.inbound :=
  s.sendData_inbound _ _ _

@[simp] theorem State.toMailbox_inbound (s : State) (b : List Byte) : (s.toMailbox b).inbound = s.inbound := by
  unfold State.toMailbox
  split
  · rfl
  · exact s.raise_inbound _ _ _

@[simp] theorem State.mgmtThrough_inbound (s : State) (p dst vl : Nat) (b : List Byte) : (s.mgmtThrough p dst vl b).inbound = s.inbound := by
  unfold State.mgmtThrough
  split
  · exact s.queueAt_inbound _ _
  · rfl

@[simp] theorem State.stampMgmt_inbound (s : State) (m : Mgmt) : (s.stampMgmt m).1.inbound = s.inbound := rfl

@[simp] theorem State.sendMgmt_inbound (s : State) (die : Nat) (m : Mgmt) : (s.sendMgmt die m).inbound = s.inbound := by
  unfold State.sendMgmt State.mgmtOnward
  (repeat' split) <;> simp

@[simp] theorem State.sendAck_inbound (s : State) (die dest status : Nat) : (s.sendAck die dest status).inbound = s.inbound := by
  unfold State.sendAck
  dsimp only
  split <;> simp

/-- A packet that has been taken from a port's inbox. -/
def State.taken (s : State) (p : Nat) (rest : List Packet) : State := s.updPort p (fun x => { x with inbox := rest })

@[simp] theorem State.taken_inbox (s : State) (p : Nat) (rest : List Packet) : ((s.taken p rest).port p).inbox = rest := by
  rw [State.taken, State.updPort_port_self]

theorem State.inbox_of_inbound {s t : State} (h : t.inbound = s.inbound) (p : Nat) : (t.port p).inbox = (s.port p).inbox :=
  congrArg (fun x : Inbound => x.inbox p) h

/-- Taking a packet changes no unit. -/
theorem State.taken_unit (s : State) (p : Nat) (rest : List Packet) (d : Nat) : ((s.taken p rest).die d).u = (s.die d).u := by
  have h : (s.taken p rest).aside = s.aside := by
    refine s.updDie_aside p _ ?_
    exact fun _ => ⟨rfl, rfl⟩
  exact congrFun (congrFun (congrArg Aside.unit h) .die) d

@[simp] theorem State.taken_clusterStates (s : State) (p : Nat) (rest : List Packet) (c : Nat) :
    (s.taken p rest).clusterStates c = s.clusterStates c := by
  unfold State.clusterStates
  rw [State.taken_unit]
  rfl

@[simp] theorem State.taken_tileReachable (s : State) (p : Nat) (rest : List Packet) (t : Nat) :
    (s.taken p rest).tileReachable t = s.tileReachable t := by
  unfold State.tileReachable State.tileStates
  rw [State.taken_clusterStates]
  rfl

@[simp] theorem State.taken_clusterOpen (s : State) (p : Nat) (rest : List Packet) (c : Nat) :
    (s.taken p rest).clusterOpen c = s.clusterOpen c := by
  unfold State.clusterOpen
  rw [State.taken_clusterStates]

/-- What is outstanding at the ports is not what has arrived there. -/
theorem State.taken_outstanding (s : State) (p : Nat) (rest : List Packet) (o : Nat) :
    ((s.taken p rest).port o).outstanding = (s.port o).outstanding := by
  by_cases h : o = p
  · rw [h, State.taken, State.updPort_port_self]
  · rw [State.taken, State.updPort_port_ne _ _ _ _ h]

theorem State.taken_requestOf (s : State) (p : Nat) (rest : List Packet) (tag : Nat) :
    (s.taken p rest).requestOf tag = s.requestOf tag := by
  unfold State.requestOf
  simp only [State.taken_outstanding]

theorem State.takePacket_front {s : State} {p : Nat} {k : Packet} {rest : List Packet} (hp : p < 4) (h : (s.port p).inbox = k :: rest)
    {kind : Nat} (hk : k.kind = kind) (f : State → Packet → State) : s.takePacket p kind f = f (s.taken p rest) k := by
  rw [State.takePacket, if_neg (by omega), h]
  exact if_pos hk

theorem State.takeMgmt_front {s : State} {p : Nat} {k : Packet} {rest : List Packet} (hp : p < 4) (h : (s.port p).inbox = k :: rest)
    (hk : k.kind = 5) {type : Nat} (ht : (Mgmt.parse k.data).type = type) :
    s.takeMgmt p type = (s.taken p rest).handleMgmt p k.data := by
  rw [State.takeMgmt, if_neg (by omega), h]
  exact if_pos ⟨hk, ht⟩

/-! ### Data packets (R86, R87, R476, R477, R483) -/

/-- A write into memory without errors writes its bytes and changes nothing else. -/
theorem State.store_sound {s : State} (h : s.sound) (a : Nat) (bs : List Byte) :
    ∃ m : SMap Byte, s.store a bs = ({ s with mem := m }, 0) ∧
      ∀ x, SMap.get 0 m x = if a ≤ x ∧ x < a + bs.length then bs.getD (x - a) 0 else SMap.get 0 s.mem x := by
  obtain ⟨m, hs, hm⟩ := State.storeUnits_sound h true a bs none (by simp) (s.units a bs.length)
  refine ⟨m, hs, fun x => ?_⟩
  rw [hm]
  by_cases hx : a ≤ x ∧ x < a + bs.length
  · rw [if_pos ⟨hx.1, hx.2, s.units_covers a bs.length x hx.1 hx.2⟩, if_pos hx]
  · rw [if_neg (fun hc => hx ⟨hc.1, hc.2.1⟩), if_neg hx]

/-- What a WRITE brings to its tile: its data, without a signal of its own. -/
def Packet.message (k : Packet) : Message :=
  { window := fld k.word4 9 6, offset := k.word12, extent := k.data.length, parts := [(0, k.data)], signal := none, sender := none }

/-- A WRITE of a message that was not dropped, whose target takes it. -/
theorem State.writePacket_applied {s : State} {p : Nat} {k : Packet} (hm : (s.messageOf k).any (fun m => m.dropped.isSome) = false)
    {t : State} (hd : s.deliver (k.word4 % 64) k.message = (t, .applied)) :
    ∃ l : List RemoteMsg, s.writePacket p k = (t.updLat (fun x => { x with msgs := l })).acknowledge p k 0 := by
  have hnone : ((s.messageOf k).getD { src := k.src, tag := k.tag, word4 := k.word4, offset := k.word12 }).dropped = none := by
    cases hw : s.messageOf k with
    | none => rfl
    | some m => simpa [hw] using hm
  unfold State.writePacket
  dsimp only
  rw [hnone]
  dsimp only
  rw [← Packet.message, hd]
  exact ⟨_, rfl⟩

/-- A SIGNAL of a message that was not dropped, for a cluster of the part. -/
theorem State.signalPacketIn_taken {s : State} {p : Nat} {k : Packet} (hm : (s.messageOf k).any (fun m => m.dropped.isSome) = false)
    (hc : refCluster k.word12 < s.part.clusters) :
    ∃ (l : List RemoteMsg) (code : Nat), s.signalPacketIn p k =
      ((s.updLat (fun x => { x with msgs := l })).applySignal false k.word12 (leAt k.data 0 4)).acknowledge p k code := by
  unfold State.signalPacketIn
  dsimp only
  rw [if_neg (by simp [hm, hc])]
  exact ⟨_, _, rfl⟩

/-- A signal that its cluster takes leaves the ports. -/
theorem State.applySignal_port {s : State} {o : Bool} {ref : Nat} (h : s.clusterTakes (refCluster ref) o = true) (add p : Nat) :
    (s.applySignal o ref add).port p = s.port p := by
  rw [State.applySignal_taken h, State.syncApply_eq]
  rfl

/-- What the acknowledgement of a request makes of the command that sent it (R477, R483). -/
def InFlight.acked (code kind : Nat) (f : InFlight) : InFlight :=
  if ackFails code = true then { f with status := BitVec.ofNat 8 code, executed := true, acksDue := 0, sigDone := true }
  else { f with acksDue := f.acksDue - 1, sigDone := f.sigDone || (code == 1 && kind == 2) }

/-- The acknowledgement of a request: what becomes of its command. -/
theorem State.ackPacketIn_eq {s : State} {k : Packet} {o q pos : Nat} (h : s.requestOf k.tag = some (o, q, pos)) :
    s.ackPacketIn k = (s.updPort o (fun x => { x with outstanding := x.outstanding.filter (fun r => r.1 != k.tag) })).updQueue q
      (fun x => { x with inflight := x.inflight.map (fun f => if f.pos.toNat = pos then f.acked (k.word12 % 256) k.kind else f) }) := by
  unfold State.ackPacketIn
  rw [h]
  dsimp only
  split
  · next hf => simp only [State.failInFlight, InFlight.acked, hf, if_true]
  · next hf =>
    split
    · next hd =>
      have hyes : (k.word12 % 256 == 1 && k.kind == 2) = true := by simpa using hd
      simp only [State.ackDropped, InFlight.acked, if_neg hf, hyes, Bool.or_true]
    · next hd =>
      have hno : (k.word12 % 256 == 1 && k.kind == 2) = false := by simpa using hd
      simp only [State.ackInFlight, InFlight.acked, if_neg hf, hno, Bool.or_false]

theorem State.ackPacketIn_request {s : State} {k : Packet} {o q pos : Nat} (h : s.requestOf k.tag = some (o, q, pos)) :
    (∀ r : Nat × Nat × Nat, r ∈ ((s.ackPacketIn k).port o).outstanding → r.1 ≠ k.tag) ∧
      ((s.ackPacketIn k).queue q).inflight = (s.queue q).inflight.map (fun f =>
        if f.pos.toNat = pos then f.acked (k.word12 % 256) k.kind else f) := by
  rw [State.ackPacketIn_eq h]
  refine ⟨fun r hr => ?_, by rw [State.updQueue_queue_self, State.updPort_queue]⟩
  have hport : ((s.updPort o (fun x => { x with outstanding := x.outstanding.filter (fun r => r.1 != k.tag) })).port o).outstanding =
      (s.port o).outstanding.filter (fun r => r.1 != k.tag) := by rw [State.updPort_port_self]
  have hmem : r ∈ (s.port o).outstanding.filter (fun r => r.1 != k.tag) := hport ▸ hr
  simpa using (List.mem_filter.mp hmem).2

/-! ### Management messages (R479 to R481) -/

/-- A message of a type that no hardware acts on goes to the host's mailbox. -/
theorem State.handleMgmt_host {s : State} {b : List Byte} (h2 : (Mgmt.parse b).type ≠ 2) (h3 : (Mgmt.parse b).type ≠ 3)
    (h16 : (Mgmt.parse b).type ≠ 16) (die : Nat) : s.handleMgmt die b = s.toMailbox b := by
  unfold State.handleMgmt
  dsimp only
  split
  · next h => exact absurd h h2
  · next h => exact absurd h h3
  · next h => exact absurd h h16
  · rfl

theorem State.handleMgmt_setChipMsg {s : State} {b : List Byte} (h : (Mgmt.parse b).type = 2) (die : Nat) :
    s.handleMgmt die b = (s.setChipMsg (Mgmt.parse b)).1.sendAck die (Mgmt.parse b).src (s.setChipMsg (Mgmt.parse b)).2 := by
  simp only [State.handleMgmt, h]

theorem State.handleMgmt_setRouteMsg {s : State} {b : List Byte} (h : (Mgmt.parse b).type = 3) (die : Nat) :
    s.handleMgmt die b = (s.setRouteMsg (Mgmt.parse b)).1.sendAck die (Mgmt.parse b).src (s.setRouteMsg (Mgmt.parse b)).2 := by
  simp only [State.handleMgmt, h]

theorem State.handleMgmt_timeMsg {s : State} {b : List Byte} (h : (Mgmt.parse b).type = 16) (die : Nat) :
    s.handleMgmt die b = s.timeMsg die := by
  simp only [State.handleMgmt, h]

@[simp] theorem HostLinkSt.msix_mbRx (l : HostLinkSt) (v : Nat) : (l.msix v).mbRx = l.mbRx := by
  unfold HostLinkSt.msix
  (repeat' split) <;> rfl

/-- A mailbox with room takes a message behind those that wait. -/
theorem State.toMailbox_mbRx {s : State} (h : s.link.mbRx.length < 64) (b : List Byte) :
    (s.toMailbox b).link.mbRx = s.link.mbRx ++ [b] := by
  unfold State.toMailbox
  rw [if_pos h]
  exact HostLinkSt.msix_mbRx _ 6

/-- What a port's mailbox message leaves, whatever its type. -/
theorem State.takeMgmt_mailbox {s : State} {p : Nat} {k : Packet} {rest : List Packet} (hp : p < 4) (h : (s.port p).inbox = k :: rest)
    (hk : k.kind = 5) (hroom : s.link.mbRx.length < 64) {type : Nat} (ht : (Mgmt.parse k.data).type = type)
    (h2 : type ≠ 2) (h3 : type ≠ 3) (h16 : type ≠ 16) :
    ((s.takeMgmt p type).port p).inbox = rest ∧ (s.takeMgmt p type).link.mbRx = s.link.mbRx ++ [k.data] ∧
      (s.takeMgmt p type).mem = s.mem := by
  rw [State.takeMgmt_front hp h hk ht, State.handleMgmt_host (ht ▸ h2) (ht ▸ h3) (ht ▸ h16)]
  refine ⟨?_, State.toMailbox_mbRx (s := s.taken p rest) hroom _, State.toMailbox_mem _ _⟩
  rw [State.inbox_of_inbound (State.toMailbox_inbound _ _), State.taken_inbox]

/-- The routes that a SET_ROUTE sets are those of its mask. -/
theorem SMap.get_foldl_masked (g : Nat → BitVec 16) (on : Nat → Bool) (l : List Nat) (hl : l.Nodup) (m : SMap (BitVec 16)) (c : Nat) :
    SMap.get 0x7777 (l.foldl (fun r i => if on i then SMap.set 0x7777 r i (g i) else r) m) c =
      if c ∈ l ∧ on c = true then g c else SMap.get 0x7777 m c := by
  induction l generalizing m with
  | nil => simp
  | cons i l ih =>
    obtain ⟨hi, hl⟩ := List.nodup_cons.mp hl
    rw [List.foldl_cons, ih hl]
    by_cases hc : c = i
    · subst hc
      by_cases hon : on c = true
      · simp [hi, hon]
      · simp [hi, hon]
    · by_cases hon : on i = true
      · simp [hc, hon, SMap.get_set]
      · simp [hc, hon]

/-- A SET_CHIP with numbers in range numbers a chip that has no number. -/
theorem State.setChipMsg_first {s : State} {m : Mgmt} (hn : s.lat.numbered = false) (h0 : leAt m.body 0 1 < 16) (h1 : leAt m.body 1 1 < 16)
    (h2 : leAt m.body 2 1 < 16) (h3 : 1 ≤ leAt m.body 3 1) (h3' : leAt m.body 3 1 ≤ 16) (h4 : leAt m.body 4 1 ≤ 4) :
    s.setChipMsg m = (s.updLat (fun l => { l with
      chip := BitVec.ofNat 4 (leAt m.body 0 1), numbered := true, fmChip := BitVec.ofNat 4 (leAt m.body 1 1)
      timeMaster := BitVec.ofNat 4 (leAt m.body 2 1), countM1 := BitVec.ofNat 4 (leAt m.body 3 1 - 1)
      topo := BitVec.ofNat 3 (leAt m.body 4 1) }), 0) := by
  unfold State.setChipMsg
  dsimp only
  rw [if_neg (by rw [hn]; simp only [Bool.false_eq_true, false_and, false_or]; omega)]
  simp only [State.updLat, hn, Bool.false_eq_true, if_false]

theorem State.setRouteMsg_fm {s : State} {m : Mgmt} (h : m.src = s.lat.fmChip.toNat) :
    s.setRouteMsg m = (s.updLat (fun l => { l with routes := (List.range 16).foldl (fun r c =>
      if bit (leAt m.body 0 2) c then SMap.set 0x7777 r c (BitVec.ofNat 16 (leAt m.body (2 + 2 * c) 2)) else r) l.routes }), 0) :=
  if_neg (by simp [h])

/-- Settles O58, packet by packet: each is taken from its inbox and acts; what is sent in answer leaves alone what the statement is about. -/
theorem latticePackets : Obligations.LatticePackets := by
  unfold Obligations.LatticePackets
  intro s p k rest hp hin
  refine ⟨?write, ?signal, ?acks, ?mailbox, ?setChip, ?setRoute, ?time⟩
  case write =>
    intro hk ht hr hs hm w hdef hsize
    obtain ⟨m, hstore, hget⟩ := State.store_sound (s := s.taken p rest) hs
      (k.word4 % 64 * tileSize + w.base + k.word12) k.data
    have hparts : State.storeParts (k.word4 % 64 * tileSize + w.base + k.word12) [(0, k.data)] (s.taken p rest) =
        ({ s.taken p rest with mem := m }, 0) := by
      simp only [State.storeParts, Nat.add_zero, hstore, ne_eq, not_true, if_false]
    have hdel := State.deliver_applied (s := s.taken p rest) (t := k.word4 % 64) (m := k.message) ht (by simp [hr]) hdef hsize
      (congrArg Prod.snd hparts)
    obtain ⟨l, hwrite⟩ := State.writePacket_applied (s := s.taken p rest) (p := p) hm (hdel.trans (congrArg (fun r : State × Nat => (r.1, Arrival.applied)) hparts))
    refine ⟨_, congrArg Host.Outcome.next ((State.takePacket_front hp hin hk _).trans hwrite), ?_, fun x => ?_⟩
    · rw [State.inbox_of_inbound (State.acknowledge_inbound _ _ _ _)]
      exact s.taken_inbox p rest
    · rw [State.byteAt, State.acknowledge_mem]
      exact hget x
  case signal =>
    intro hk hc ho hm
    obtain ⟨l, code, hsig⟩ := State.signalPacketIn_taken (s := s.taken p rest) (p := p) hm hc
    have htake : ((s.taken p rest).updLat (fun x => { x with msgs := l })).clusterTakes (refCluster k.word12) false = true :=
      (s.taken_clusterOpen p rest _).trans ho
    refine ⟨_, congrArg Host.Outcome.next ((State.takePacket_front hp hin hk _).trans hsig), ?_, ?_, ?_⟩
    · rw [State.inbox_of_inbound (State.acknowledge_inbound _ _ _ _), State.applySignal_port htake]
      exact s.taken_inbox p rest
    · rw [State.acknowledge_mem, State.applySignal_mem]
      rfl
    · unfold State.cluster
      rw [State.acknowledge_clusters]
      exact State.applySignal_cluster_taken htake _
  case acks =>
    intro o q pos hreq code acked
    have hreq' : (s.taken p rest).requestOf k.tag = some (o, q, pos) := (s.taken_requestOf p rest _).trans hreq
    have hacked : acked ((s.taken p rest).ackPacketIn k) := State.ackPacketIn_request hreq'
    exact ⟨fun hk => ⟨_, congrArg Host.Outcome.next (State.takePacket_front hp hin hk _), hacked⟩,
      fun hk => ⟨_, congrArg Host.Outcome.next (State.takePacket_front hp hin hk _), hacked⟩⟩
  case mailbox =>
    intro hk hroom arrives
    have harr : ∀ type : Nat, (Mgmt.parse k.data).type = type → type ≠ 2 → type ≠ 3 → type ≠ 16 → arrives (s.takeMgmt p type) :=
      fun type ht h2 h3 h16 => State.takeMgmt_mailbox hp hin hk hroom ht h2 h3 h16
    refine ⟨fun ht => ⟨_, rfl, harr 1 ht ?_ ?_ ?_⟩, fun ht => ⟨_, rfl, harr 4 ht ?_ ?_ ?_⟩, fun ht => ⟨_, rfl, harr 5 ht ?_ ?_ ?_⟩,
      fun ht => ⟨_, rfl, harr 6 ht ?_ ?_ ?_⟩, fun ht => ⟨_, rfl, harr 7 ht ?_ ?_ ?_⟩, fun ht => ⟨_, rfl, harr 8 ht ?_ ?_ ?_⟩⟩
    all_goals decide
  case setChip =>
    intro hk ht hn b h0 h1 h2 h3 h3' h4
    have hmsg := State.setChipMsg_first (s := s.taken p rest) (m := Mgmt.parse k.data) hn h0 h1 h2 h3 h3' h4
    have hrun : s.takeMgmt p 2 = ((s.taken p rest).setChipMsg (Mgmt.parse k.data)).1.sendAck p (Mgmt.parse k.data).src
        ((s.taken p rest).setChipMsg (Mgmt.parse k.data)).2 := by
      rw [State.takeMgmt_front hp hin hk ht, State.handleMgmt_setChipMsg ht]
    rw [hmsg] at hrun
    have hin' := State.sendAck_inbound ((s.taken p rest).setChipMsg (Mgmt.parse k.data)).1 p (Mgmt.parse k.data).src 0
    rw [hmsg] at hin'
    refine ⟨_, congrArg Host.Outcome.next hrun, ?_, congrArg (fun x : Inbound => x.lat.numbered) hin',
      congrArg (fun x : Inbound => x.lat.chip) hin', congrArg (fun x : Inbound => x.lat.fmChip) hin',
      congrArg (fun x : Inbound => x.lat.timeMaster) hin', congrArg (fun x : Inbound => x.lat.countM1) hin',
      congrArg (fun x : Inbound => x.lat.topo) hin', congrArg (fun x : Inbound => x.lat.routes) hin'⟩
    exact (State.inbox_of_inbound hin' p).trans (s.taken_inbox p rest)
  case setRoute =>
    intro hk ht hfm
    have hmsg := State.setRouteMsg_fm (s := s.taken p rest) (m := Mgmt.parse k.data) hfm
    have hrun : s.takeMgmt p 3 = ((s.taken p rest).setRouteMsg (Mgmt.parse k.data)).1.sendAck p (Mgmt.parse k.data).src
        ((s.taken p rest).setRouteMsg (Mgmt.parse k.data)).2 := by
      rw [State.takeMgmt_front hp hin hk ht, State.handleMgmt_setRouteMsg ht]
    rw [hmsg] at hrun
    have hin' := State.sendAck_inbound ((s.taken p rest).setRouteMsg (Mgmt.parse k.data)).1 p (Mgmt.parse k.data).src 0
    rw [hmsg] at hin'
    refine ⟨_, congrArg Host.Outcome.next hrun, (State.inbox_of_inbound hin' p).trans (s.taken_inbox p rest), fun c hc => ?_⟩
    refine (congrArg (fun x : Inbound => SMap.get 0x7777 x.lat.routes c) hin').trans ?_
    refine (SMap.get_foldl_masked _ _ _ List.nodup_range _ c).trans ?_
    simp only [List.mem_range, hc, true_and]
    rfl
  case time =>
    intro hk ht hf hsrc
    have hport : ((s.taken p rest).port p).timeOffset = (s.port p).timeOffset := by rw [State.taken, State.updPort_port_self]
    have hf' : (s.taken p rest).followsPort p = true ∧ (s.taken p rest).img.time.source = 4 := ⟨hf, hsrc⟩
    refine congrArg Host.Outcome.next ?_
    rw [State.takeMgmt_front hp hin hk ht, State.handleMgmt_timeMsg ht, State.timeMsg, if_pos hf', hport]
    rfl

end Sys2Proof.Machine
end

section
/-! PROOFS of the family of 03_queues_and_beats.md: reconciliation, processors, aging and repair (R85, R164 to R168, R421 to R426). -/

namespace Sys2Proof.Machine

/-! ### Units and their updates -/

/-- An update of a unit is of that unit alone. -/
theorem State.updUnit_unit (s : State) (k : UnitKind) (u : Nat) (f : UnitSt → UnitSt) (k' : UnitKind) (u' : Nat) :
    (s.updUnit k u f).unit k' u' = if (k', u') = (k, u) then f (s.unit k u) else s.unit k' u' := by
  cases k <;> cases k' <;> simp [State.updUnit, State.unit, State.updSlot_slot, State.updDie_die, State.updCluUnit_cluUnit,
    State.updRgnUnit_rgnUnit] <;> split <;> simp_all

@[simp] theorem State.updUnit_unit_self (s : State) (k : UnitKind) (u : Nat) (f : UnitSt → UnitSt) :
    (s.updUnit k u f).unit k u = f (s.unit k u) := by rw [State.updUnit_unit, if_pos rfl]

theorem State.updUnit_unit_ne (s : State) {k k' : UnitKind} {u u' : Nat} (f : UnitSt → UnitSt) (h : (k', u') ≠ (k, u)) :
    (s.updUnit k u f).unit k' u' = s.unit k' u' := by rw [State.updUnit_unit, if_neg h]

/-- What a change of a unit leaves alone: the time, the words of the arrays with the repair map, and the takeovers. -/
structure Fittings where
  tb : TimeBase
  arr : Nat → Word
  mapRepair : Nat → Word
  holdUntil : Nat → Nat

def Standing.fittings (x : Standing) : Fittings where
  tb := x.tb
  arr := x.arr
  mapRepair := x.mapRepair
  holdUntil := x.holdUntil

def State.fittings (s : State) : Fittings := s.standing.fittings

theorem State.fittings_of_standing {s t : State} (h : t.standing = s.standing) : t.fittings = s.fittings := congrArg Standing.fittings h

theorem State.unit_of_standing {s t : State} (h : t.standing = s.standing) (k : UnitKind) (u : Nat) : t.unit k u = s.unit k u :=
  congrFun (congrFun (congrArg Standing.unit h) k) u

@[simp] theorem State.updUnit_fittings (s : State) (k : UnitKind) (u : Nat) (f : UnitSt → UnitSt) :
    (s.updUnit k u f).fittings = s.fittings := by
  cases k
  case slot =>
    refine congrArg (Fittings.mk s.tb · s.mapRepair _) (funext fun p => ?_)
    change ((s.updSlot u _).slot p).repair = (s.slot p).repair
    rw [State.updSlot_slot]
    split
    · next h => rw [h]
    · rfl
  case die =>
    refine congrArg (Fittings.mk s.tb _ s.mapRepair ·) (funext fun d => ?_)
    change ((s.updDie u _).die d).holdUntil = (s.die d).holdUntil
    rw [State.updDie_die]
    split
    · next h => rw [h]
    · rfl
  all_goals rfl

@[simp] theorem State.setUnit_fittings (s : State) (k : UnitKind) (u : Nat) (st : UnitState) : (s.setUnit k u st).fittings = s.fittings :=
  s.updUnit_fittings k u _

@[simp] theorem State.raiseAt_aside (s : State) (sev unit status : Nat) (stamp : Stamp) (detail : List Byte) :
    (s.raiseAt sev unit status stamp detail).aside = s.aside := by
  rw [State.raiseAt_eq, State.raiseAt_beat]
  split <;> rfl

/-! ### The fence of a unit (R409, R412) -/

/-- The end of the recoveries inside a unit touches the units inside it alone. -/
theorem State.absorb_unit (s : State) {k k' : UnitKind} {u u' : Nat} (h : (k', u') ∉ enclosed k u) :
    (s.absorb k u).unit k' u' = s.unit k' u' := by
  unfold State.absorb
  refine List.foldlRecOn (motive := fun t : State => t.unit k' u' = s.unit k' u') _ _ rfl fun t ht e he => ?_
  have hne : (k', u') ≠ (e.1, e.2) := fun hk => h (by rw [hk]; exact he)
  dsimp only
  split
  · exact ht
  · rw [State.updUnit_unit_ne _ _ hne, State.setUnit, State.updUnit_unit_ne _ _ hne, ht]

@[simp] theorem State.absorb_fittings (s : State) (k : UnitKind) (u : Nat) : (s.absorb k u).fittings = s.fittings := by
  unfold State.absorb
  refine List.foldlRecOn (motive := fun t : State => t.fittings = s.fittings) _ _ rfl fun t ht e he => ?_
  dsimp only
  split
  · exact ht
  · rw [State.updUnit_fittings, State.setUnit_fittings, ht]

theorem State.openFence_unit_self (s : State) (k : UnitKind) (u cause : Nat) (st : UnitState) :
    ((s.openFence k u cause st).unit k u).state = st ∧ ((s.openFence k u cause st).unit k u).cause = cause := by
  unfold State.openFence
  dsimp only
  rw [State.unit_of_standing (State.raiseDie_standing _ _ _ _ _), State.updUnit_unit_self, State.setUnit, State.updUnit_unit_self]
  exact ⟨rfl, rfl⟩

/-- A fence touches its unit and the units inside it alone. -/
theorem State.openFence_unit (s : State) {k k' : UnitKind} {u u' : Nat} (h : (k', u') ∉ enclosed k u) (hne : (k', u') ≠ (k, u)) (cause : Nat)
    (st : UnitState) : (s.openFence k u cause st).unit k' u' = s.unit k' u' := by
  unfold State.openFence
  dsimp only
  rw [State.unit_of_standing (State.raiseDie_standing _ _ _ _ _), State.updUnit_unit_ne _ _ hne, State.setUnit,
    State.updUnit_unit_ne _ _ hne, State.absorb_unit _ h, State.unit_of_standing (State.endDrains_standing _ _ _)]

@[simp] theorem State.openFence_fittings (s : State) (k : UnitKind) (u cause : Nat) (st : UnitState) :
    (s.openFence k u cause st).fittings = s.fittings := by
  unfold State.openFence
  dsimp only
  rw [State.fittings_of_standing (State.raiseDie_standing _ _ _ _ _), State.updUnit_fittings, State.setUnit_fittings,
    State.absorb_fittings, State.fittings_of_standing (State.endDrains_standing _ _ _)]

/-- A unit in service whose recovery nothing takes over or holds back is fenced at once. -/
theorem State.suspectUnit_now {s : State} {k : UnitKind} {u : Nat} (hs : (s.unit k u).state = .inService) (hr : s.underRecovery k u = false)
    (hh : s.recoveryHeld k u = false) (cause : Nat) :
    (s.suspectUnit k u cause).standing = (s.openFence k u cause .suspect).standing := by
  simp [State.suspectUnit, hs, hr, hh]

/-! ### RECONCILE (R412, R421) -/

/-- A unit without its count of rounds of RECONCILE. -/
def UnitSt.roundless (x : UnitSt) : UnitSt := { x with genRounds := 0 }

/-- Two states whose units differ at most in the count of rounds of RECONCILE, and whose fittings are the same. -/
def State.RoundsOnly (s t : State) : Prop :=
  (∀ k u, (t.unit k u).roundless = (s.unit k u).roundless) ∧ t.fittings = s.fittings

theorem State.RoundsOnly.refl (s : State) : s.RoundsOnly s := ⟨fun _ _ => rfl, rfl⟩

theorem State.RoundsOnly.state {s t : State} (h : s.RoundsOnly t) (k : UnitKind) (u : Nat) : (t.unit k u).state = (s.unit k u).state :=
  (congrArg UnitSt.state (h.1 k u) :)

/-- The copies that the host and the Pregus die hold of a unit, and of a slot's repair, agree with it. -/
def State.copiesAgree (s : State) (e : UnitKind × Nat) : Prop :=
  (s.unit e.1 e.2).hostView = .inService ∧ (s.unit e.1 e.2).pregusView = .inService ∧ (e.1 = .slot → (s.slot e.2).repair = s.mapRepair e.2)

def State.gensAgree (s : State) (e : UnitKind × Nat) : Prop :=
  (s.unit e.1 e.2).gen = (s.unit e.1 e.2).genHost ∧ (s.unit e.1 e.2).gen = (s.unit e.1 e.2).genPregus

/-- What RECONCILE asks of a unit that is in service. -/
def State.reconciled (s : State) (e : UnitKind × Nat) : Prop := (s.unit e.1 e.2).state = .inService → s.copiesAgree e ∧ s.gensAgree e

/-- Whether the copies of a unit agree depends on the unit and the fittings. -/
theorem State.copiesAgree_congr {s t : State} {e : UnitKind × Nat}
    (h : (t.unit e.1 e.2).roundless = (s.unit e.1 e.2).roundless) (hf : t.fittings = s.fittings) :
    t.copiesAgree e ↔ s.copiesAgree e := by
  have h1 : (t.unit e.1 e.2).hostView = (s.unit e.1 e.2).hostView := (congrArg UnitSt.hostView h :)
  have h2 : (t.unit e.1 e.2).pregusView = (s.unit e.1 e.2).pregusView := (congrArg UnitSt.pregusView h :)
  have h3 : (t.slot e.2).repair = (s.slot e.2).repair := congrArg (fun x : Fittings => x.arr e.2) hf
  have h4 : t.mapRepair e.2 = s.mapRepair e.2 := congrArg (fun x : Fittings => x.mapRepair e.2) hf
  rw [State.copiesAgree, State.copiesAgree, h1, h2, h3, h4]

theorem State.reconciled_congr {s t : State} {e : UnitKind × Nat}
    (h : (t.unit e.1 e.2).roundless = (s.unit e.1 e.2).roundless) (hf : t.fittings = s.fittings)
    (hs : s.reconciled e) : t.reconciled e := by
  intro hin
  have hst : (t.unit e.1 e.2).state = (s.unit e.1 e.2).state := (congrArg UnitSt.state h :)
  obtain ⟨hc, hg⟩ := hs (hst ▸ hin)
  have h1 : (t.unit e.1 e.2).gen = (s.unit e.1 e.2).gen := (congrArg UnitSt.gen h :)
  have h2 : (t.unit e.1 e.2).genHost = (s.unit e.1 e.2).genHost := (congrArg UnitSt.genHost h :)
  have h3 : (t.unit e.1 e.2).genPregus = (s.unit e.1 e.2).genPregus := (congrArg UnitSt.genPregus h :)
  exact ⟨(State.copiesAgree_congr h hf).mpr hc, by rw [State.gensAgree, h1, h2, h3]; exact hg⟩

/-- The disagreement that RECONCILE acts on at once. -/
theorem State.disagrees_iff {s : State} {e : UnitKind × Nat} (hin : (s.unit e.1 e.2).state = .inService) :
    ((s.unit e.1 e.2).hostView ≠ (s.unit e.1 e.2).state ∨ (s.unit e.1 e.2).pregusView ≠ (s.unit e.1 e.2).state ∨
      (e.1 = .slot ∧ (s.slot e.2).repair ≠ s.mapRepair e.2)) ↔ ¬ s.copiesAgree e := by
  rw [hin, State.copiesAgree]
  tauto

/-- A unit whose copies agree, or that is out of service, has at most its count of rounds reset. -/
theorem State.reconcileUnit_agrees {s : State} {e : UnitKind × Nat} (h : s.reconciled e) :
    s.reconcileUnit e = s ∨ s.reconcileUnit e = s.updUnit e.1 e.2 (fun y => { y with genRounds := 0 }) := by
  unfold State.reconcileUnit
  dsimp only
  split
  · exact .inl rfl
  · next hin =>
    have hin := not_not.mp hin
    obtain ⟨hc, hg, hg'⟩ := h hin
    rw [if_neg (fun hd => (State.disagrees_iff hin).mp hd hc), if_pos ⟨hg, hg'⟩]
    exact .inr rfl

/-- A unit whose copies disagree is made suspect. -/
theorem State.reconcileUnit_disagrees {s : State} {e : UnitKind × Nat} (hin : (s.unit e.1 e.2).state = .inService) (h : ¬ s.copiesAgree e) :
    s.reconcileUnit e = (s.raiseAt 208 (s.unitTag e.1 e.2) 0x86 s.stamp []).suspectUnit e.1 e.2 208 := by
  unfold State.reconcileUnit
  dsimp only
  rw [if_neg (not_not.mpr hin), if_pos ((State.disagrees_iff hin).mpr h)]

theorem State.RoundsOnly.reset {s t : State} (h : s.RoundsOnly t) (e : UnitKind × Nat) :
    s.RoundsOnly (t.updUnit e.1 e.2 (fun y => { y with genRounds := 0 })) := by
  refine ⟨fun k u => ?_, (t.updUnit_fittings _ _ _).trans h.2⟩
  rw [State.updUnit_unit]
  split
  · next he =>
    obtain ⟨rfl, rfl⟩ := Prod.ext_iff.mp he
    exact h.1 e.1 e.2
  · exact h.1 k u

/-- Rounds over units whose copies agree change counts of rounds alone. -/
theorem State.RoundsOnly.reconcile {s t : State} (h : s.RoundsOnly t) {l : List (UnitKind × Nat)} (hl : ∀ e ∈ l, s.reconciled e) :
    s.RoundsOnly (l.foldl State.reconcileUnit t) := by
  induction l generalizing t with
  | nil => exact h
  | cons e l ih =>
    refine ih ?_ fun x hx => hl x (List.mem_cons_of_mem _ hx)
    rcases State.reconcileUnit_agrees (State.reconciled_congr (h.1 e.1 e.2) h.2 (hl e List.mem_cons_self)) with he | he
    · rw [he]
      exact h
    · rw [he]
      exact h.reset e

/-- `t` differs from `s` at most in the recovery states of its units. -/
def State.UnitFields (s t : State) : Prop := t = { s with slots := t.slots, cluUnits := t.cluUnits, rgnUnits := t.rgnUnits, dies := t.dies }

theorem State.UnitFields.updUnit {s t : State} (h : s.UnitFields t) (k : UnitKind) (u : Nat) (f : UnitSt → UnitSt) :
    s.UnitFields (t.updUnit k u f) := by
  have g := congrArg (fun x : State => x.updUnit k u f) h
  cases k <;> exact g

/-- Rounds over units whose copies agree change recovery states alone. -/
theorem State.UnitFields.reconcile {s t : State} (hf : s.UnitFields t) (h : s.RoundsOnly t) {l : List (UnitKind × Nat)}
    (hl : ∀ e ∈ l, s.reconciled e) : s.UnitFields (l.foldl State.reconcileUnit t) := by
  induction l generalizing t with
  | nil => exact hf
  | cons e l ih =>
    have hrest : ∀ x ∈ l, s.reconciled x := fun x hx => hl x (List.mem_cons_of_mem _ hx)
    rw [List.foldl_cons]
    rcases State.reconcileUnit_agrees (State.reconciled_congr (h.1 e.1 e.2) h.2 (hl e List.mem_cons_self)) with he | he
    · rw [he]
      exact ih hf h hrest
    · rw [he]
      exact ih (hf.updUnit _ _ _) (h.reset e) hrest

/-- In the order of RECONCILE every unit is named once, and after the units inside it. -/
theorem allUnits_ordered : allUnits.Pairwise (fun a b => b ≠ a ∧ b ∉ enclosed a.1 a.2) := by
  decide +kernel

/-- A unit that RECONCILE has made suspect, while the units after it are as they were. -/
def State.Suspected (s t : State) (e : UnitKind × Nat) (l : List (UnitKind × Nat)) : Prop :=
  (t.unit e.1 e.2).state = .suspect ∧ (t.unit e.1 e.2).cause = 208 ∧
    (∀ x ∈ l, (t.unit x.1 x.2).roundless = (s.unit x.1 x.2).roundless) ∧ t.fittings = s.fittings

/-- The fence of a unit whose copies disagree. -/
theorem State.RoundsOnly.suspected {s t : State} (h : s.RoundsOnly t) {e : UnitKind × Nat} (hin : (s.unit e.1 e.2).state = .inService)
    (hno : ¬ s.copiesAgree e) (hr : s.underRecovery e.1 e.2 = false) (hh : s.recoveryHeld e.1 e.2 = false) {l : List (UnitKind × Nat)}
    (hl : ∀ x ∈ l, x ≠ e ∧ x ∉ enclosed e.1 e.2) : s.Suspected (t.reconcileUnit e) e l := by
  have hin' : (t.unit e.1 e.2).state = .inService := (h.state _ _).trans hin
  rw [State.reconcileUnit_disagrees hin' (fun hc => hno ((State.copiesAgree_congr (h.1 _ _) h.2).mp hc))]
  have hraise : ∀ stamp detail, (t.raiseAt 208 (t.unitTag e.1 e.2) 0x86 stamp detail).standing = t.standing := fun _ _ =>
    State.standing_of_aside (State.raiseAt_aside _ _ _ _ _ _)
  generalize hw : t.raiseAt 208 (t.unitTag e.1 e.2) 0x86 t.stamp [] = w
  have hwt : w.standing = t.standing := hw ▸ hraise _ _
  have hunit : ∀ k u, w.unit k u = t.unit k u := State.unit_of_standing hwt
  have hfit : w.fittings = s.fittings := (State.fittings_of_standing hwt).trans h.2
  have hr' : w.underRecovery e.1 e.2 = false := by
    unfold State.underRecovery
    simp only [hunit, h.state]
    exact hr
  have hh' : w.recoveryHeld e.1 e.2 = false := by
    have htb : w.tb = s.tb := congrArg Fittings.tb hfit
    have hmono : w.mono = s.mono := by rw [State.mono, State.mono, htb]
    have hhold : (w.die (dieOfUnit e.1 e.2)).holdUntil = (s.die (dieOfUnit e.1 e.2)).holdUntil :=
      congrArg (fun x : Fittings => x.holdUntil (dieOfUnit e.1 e.2)) hfit
    rw [State.recoveryHeld, hmono, hhold]
    exact hh
  have hin'' : (w.unit e.1 e.2).state = .inService := by rw [hunit, hin']
  have hstand := State.suspectUnit_now hin'' hr' hh' 208
  obtain ⟨hst, hcause⟩ := w.openFence_unit_self e.1 e.2 208 .suspect
  refine ⟨?_, ?_, fun x hx => ?_, ?_⟩
  · rw [State.unit_of_standing hstand, hst]
  · rw [State.unit_of_standing hstand, hcause]
  · obtain ⟨hne, hnot⟩ := hl x hx
    rw [State.unit_of_standing hstand, State.openFence_unit _ hnot hne, hunit, h.1]
  · rw [State.fittings_of_standing hstand, State.openFence_fittings, hfit]

/-- The units after a suspect one, whose copies agree, leave it suspect. -/
theorem State.Suspected.reconcile {s t : State} {e : UnitKind × Nat} {l : List (UnitKind × Nat)} (h : s.Suspected t e l)
    (hl : ∀ x ∈ l, x ≠ e ∧ s.reconciled x) : ((l.foldl State.reconcileUnit t).unit e.1 e.2).state = .suspect ∧
      ((l.foldl State.reconcileUnit t).unit e.1 e.2).cause = 208 := by
  induction l generalizing t with
  | nil => exact ⟨h.1, h.2.1⟩
  | cons x l ih =>
    obtain ⟨hst, hcause, hunits, hfit⟩ := h
    obtain ⟨hne, hx⟩ := hl x List.mem_cons_self
    refine ih ?_ fun y hy => hl y (List.mem_cons_of_mem _ hy)
    rcases State.reconcileUnit_agrees (State.reconciled_congr (hunits x List.mem_cons_self) hfit hx) with hr | hr
    · rw [hr]
      exact ⟨hst, hcause, fun y hy => hunits y (List.mem_cons_of_mem _ hy), hfit⟩
    · rw [hr]
      have hsame := t.updUnit_unit_ne (fun y => { y with genRounds := 0 }) hne.symm
      refine ⟨by rw [hsame, hst], by rw [hsame, hcause], fun y hy => ?_, (t.updUnit_fittings _ _ _).trans hfit⟩
      rw [State.updUnit_unit]
      split
      · next hyx =>
        obtain ⟨hk, hu⟩ := Prod.ext_iff.mp hyx
        rw [hk, hu]
        exact hunits x List.mem_cons_self
      · exact hunits y (List.mem_cons_of_mem _ hy)

end Sys2Proof.Machine
end

section
/-! PROOFS of the family of 03_queues_and_beats.md: processors, aging, repairs and the queue's RESUME (R85, R164 to R168, R423 to R426). -/

namespace Sys2Proof.Machine

/-! ### Repairs (R137, R139, R164 to R166, R425) -/

/-- Log entries are in the Ash log alone. -/
theorem State.foldl_log_eq {α : Type} (f : α → List Byte) (l : List α) (s : State) :
    ∃ a : AshSt, l.foldl (fun acc e => acc.log 3 0 0xFF (f e)) s = { s with ash := a } := by
  induction l generalizing s with
  | nil => exact ⟨s.ash, rfl⟩
  | cons e l ih =>
    obtain ⟨a, ha⟩ := ih (s.log 3 0 0xFF (f e))
    exact ⟨a, ha⟩

/-- The two flash copies are in the flash alone. -/
theorem State.flashPut_eq (s : State) (x y : Nat) (b : List Byte) : ∃ fl : SMap Byte, (s.flashPut x b).flashPut y b = { s with flash := fl } :=
  ⟨_, rfl⟩

/-- Repairs are recorded in the map, its flash copies and the log; GENERATION does not fall. -/
theorem State.recordRepairs_eq (s : State) (es : List RepairEntry) : ∃ (m : RepairMap) (fl : SMap Byte) (a : AshSt),
    s.recordRepairs es = { s with repair := m, flash := fl, ash := a } ∧ s.repair.generation ≤ m.generation := by
  unfold State.recordRepairs
  split
  · exact ⟨s.repair, s.flash, s.ash, rfl, le_rfl⟩
  · dsimp only
    obtain ⟨fl, hfl⟩ := State.flashPut_eq { s with repair := { s.repair with
      generation := s.repair.generation + 1, entries := s.repair.entries ++ es } } 0x20000 0x40000
      ({ s.repair with generation := s.repair.generation + 1, entries := s.repair.entries ++ es } : RepairMap).bytes
    rw [hfl]
    obtain ⟨a, ha⟩ := State.foldl_log_eq (fun e : RepairEntry => e.bytes ++ leBytes 8 (s.repair.generation + 1)) es
      { s with repair := { s.repair with generation := s.repair.generation + 1, entries := s.repair.entries ++ es }, flash := fl }
    exact ⟨_, fl, a, ha, Nat.le_succ _⟩

@[simp] theorem State.recordRepairs_slot (s : State) (es : List RepairEntry) (p : Nat) : (s.recordRepairs es).slot p = s.slot p := by
  obtain ⟨m, fl, a, h, -⟩ := s.recordRepairs_eq es
  rw [h]
  rfl

@[simp] theorem State.recordRepairs_events (s : State) (es : List RepairEntry) : (s.recordRepairs es).link.events = s.link.events := by
  obtain ⟨m, fl, a, h, -⟩ := s.recordRepairs_eq es
  rw [h]

theorem State.recordRepairs_generation (s : State) (es : List RepairEntry) : s.repair.generation ≤ (s.recordRepairs es).repair.generation := by
  obtain ⟨m, fl, a, h, hg⟩ := s.recordRepairs_eq es
  rw [h]
  exact hg

/-- The logical tile that an event names does not depend on earlier events. -/
@[simp] theorem State.raiseDie_unitTag (s : State) (d sev unit status : Nat) (k : UnitKind) (u : Nat) :
    (s.raiseDie d sev unit status).unitTag k u = s.unitTag k u := by
  rw [State.raiseDie_eq]
  rfl

@[simp] theorem State.updSlot_unitTag (s : State) (p : Nat) (f : SlotSt → SlotSt) (k : UnitKind) (u : Nat) :
    (s.updSlot p f).unitTag k u = s.unitTag k u := rfl

/-- The Ember of a cluster is in service. -/
theorem State.ember_inService {s : State} {c p : Nat} (h : s.ember c = some p) : (s.slot p).u.state = .inService := by
  have := List.find?_some h
  simp only [Bool.and_eq_true, beq_iff_eq] at this
  exact this.2

theorem State.updRgnUnit_unit_slot (s : State) (g : Nat) (f : UnitSt → UnitSt) (p : Nat) :
    (s.updRgnUnit g f).unit .slot p = s.unit .slot p := rfl

/-- A slot that is retired, whatever becomes of its region. -/
theorem State.retireSlot_slot (s : State) (p cause : Nat) :
    ((s.retireSlot p cause).slot p).u.state = .retired ∧ ((s.retireSlot p cause).slot p).u.cause = cause := by
  have hunit : ∀ t : State, (t.slot p).u = t.unit .slot p := fun _ => rfl
  rw [hunit]
  unfold State.retireSlot
  dsimp only
  rw [State.unit_of_standing (State.refreshMissing_standing _)]
  split
  · rw [State.unit_of_standing (State.raiseDie_standing _ _ _ _ _), State.updRgnUnit_unit_slot, State.updUnit_unit_self, State.setUnit,
      State.updUnit_unit_self]
    exact ⟨rfl, rfl⟩
  · rw [State.unit_of_standing (State.raiseDie_standing _ _ _ _ _), State.updUnit_unit_self, State.setUnit, State.updUnit_unit_self]
    exact ⟨rfl, rfl⟩

/-- A row of the tile memory while the bank has a spare row: it is recorded, with SEV-060. -/
theorem State.repairSlotRow_spare {s : State} {p bank : Nat} (h : s.tileSpares p bank < 8) (row : Nat) :
    ((s.repairSlotRow p bank row).slot p).u = (s.slot p).u ∧ s.raisedTo (s.repairSlotRow p bank row) [(60, s.unitTag .slot p, 0)] := by
  unfold State.repairSlotRow
  dsimp only
  rw [if_pos h]
  refine ⟨by rw [State.raiseDie_slot, State.recordRepair, State.recordRepairs_slot], ?_⟩
  exact State.raisedTo_of_events (State.raisedTo_raiseDie _ _ _ _ _) (s.recordRepairs_events _) rfl

/-- A row of the tile memory of a slot in service without a spare row: the slot is retired. -/
theorem State.repairSlotRow_retired {s : State} {p bank : Nat} (h : 8 ≤ s.tileSpares p bank) (hin : (s.slot p).u.state = .inService)
    (row : Nat) : ((s.repairSlotRow p bank row).slot p).u.state = .retired ∧ ((s.repairSlotRow p bank row).slot p).u.cause = 61 := by
  unfold State.repairSlotRow
  dsimp only
  rw [if_neg (by omega), if_neg (by simp [hin, UnitState.gone])]
  exact State.retireSlot_slot _ _ _

/-- A fault of the array that a spare can serve: the slot takes the repair, and stays as it is. -/
theorem State.repairArray_some {s : State} {p : Nat} {found : BistFault} {n : ArrRepair}
    (h : (ArrRepair.ofWord (s.slot p).repair.toNat).choose (s.slot p).colFor found = some n) :
    ((s.repairArray p found).slot p).repair = BitVec.ofNat 32 n.toWord ∧ ((s.repairArray p found).slot p).u = (s.slot p).u ∧
      s.repair.generation ≤ (s.repairArray p found).repair.generation := by
  unfold State.repairArray
  dsimp only
  rw [h]
  dsimp only
  generalize hs1 : State.updSlot s p _ = s1
  have hslot : (s1.slot p).repair = BitVec.ofNat 32 n.toWord ∧ (s1.slot p).u = (s.slot p).u := by
    rw [← hs1, State.updSlot_slot_self]
    exact ⟨rfl, rfl⟩
  have hgen : s.repair.generation ≤ (s1.recordRepairs (repairEntries p (ArrRepair.ofWord (s.slot p).repair.toNat) n)).repair.generation :=
    le_trans (by rw [← hs1]; rfl) (s1.recordRepairs_generation _)
  split
  · rw [State.raiseDie_slot, State.raiseDie_repair, State.recordRepairs_slot]
    exact ⟨hslot.1, hslot.2, hgen⟩
  · rw [State.recordRepairs_slot]
    exact ⟨hslot.1, hslot.2, hgen⟩

/-- A fault of the array that no spare can serve retires the slot. -/
theorem State.repairArray_none {s : State} {p : Nat} {found : BistFault}
    (h : (ArrRepair.ofWord (s.slot p).repair.toNat).choose (s.slot p).colFor found = none) :
    s.repairArray p found = s.retireSlot p 217 := by
  unfold State.repairArray
  dsimp only
  rw [h]

/-- A fault of the array of a slot in service goes to its repair, after SEV-217. -/
theorem State.applyBist_array {s : State} {p : Nat} {found : BistFault} (hin : (s.slot p).u.state = .inService) (h0 : found ≠ .none)
    (hm : ∀ bank row : Nat, found ≠ .memRow bank row) :
    s.applyBist p found = (s.raiseDie (p / 20) 217 (s.unitTag .slot p) 0).repairArray p found := by
  have hgone : ¬ ((s.slot p).u.state.gone = true) := by simp [hin, UnitState.gone]
  unfold State.applyBist
  dsimp only
  split
  · exact absurd rfl h0
  · next bank row => exact absurd rfl (hm bank row)
  · exact if_neg hgone

/-! ### Processors and aging (R423, R426) -/

/-- The rebuilt view is in the units, and in none of a die's own. -/
theorem State.rebuildViews_eq (s : State) (d : Nat) :
    (s.rebuildViews d).dies = s.dies ∧ (s.rebuildViews d).link = s.link ∧ (s.rebuildViews d).tb = s.tb := by
  unfold State.rebuildViews
  refine List.foldlRecOn (motive := fun t : State => t.dies = s.dies ∧ t.link = s.link ∧ t.tb = s.tb) _ _ ⟨rfl, rfl, rfl⟩ fun t ht e he => ?_
  have hk := enclosed_ne_die e he
  obtain ⟨k, u⟩ := e
  cases k with
  | die => exact absurd rfl hk
  | slot => exact ht
  | cluster => exact ht
  | region => exact ht

@[simp] theorem State.rebuildViews_link (s : State) (d : Nat) : (s.rebuildViews d).link = s.link := (s.rebuildViews_eq d).2.1

@[simp] theorem State.rebuildViews_die (s : State) (d y : Nat) : (s.rebuildViews d).die y = s.die y := by
  rw [State.die, (s.rebuildViews_eq d).1, State.die]

theorem State.ite_raiseDie_slot {c : Prop} [Decidable c] (s : State) (d sev unit status p : Nat) :
    (if c then s.raiseDie d sev unit status else s).slot p = s.slot p := by
  split
  · exact State.raiseDie_slot _ _ _ _ _ _
  · rfl

theorem State.ite_raiseDie_unitTag {c : Prop} [Decidable c] (s : State) (d sev unit status : Nat) (k : UnitKind) (u : Nat) :
    (if c then s.raiseDie d sev unit status else s).unitTag k u = s.unitTag k u := by
  split
  · exact State.raiseDie_unitTag _ _ _ _ _ _ _
  · rfl

/-- An event that is raised once, when its mark is not set yet. -/
theorem State.raisedTo_ite {s : State} {c c' : Prop} [Decidable c] [Decidable c'] (h : c ↔ c') (d sev unit status : Nat) :
    s.raisedTo (if c then s.raiseDie d sev unit status else s) (if c' then [(sev, unit, status)] else []) := by
  by_cases hc : c
  · rw [if_pos hc, if_pos (h.mp hc)]
    exact State.raisedTo_raiseDie _ _ _ _ _
  · rw [if_neg hc, if_neg (mt h.mpr hc)]
    exact State.raisedTo_nil rfl

/-- Two events of one unit, each raised once. -/
theorem State.raisedTo_ite_twice {s s1 : State} {c c' e e' : Prop} [Decidable c] [Decidable c'] [Decidable e] [Decidable e']
    {k : UnitKind} {u : Nat} (hlink : s1.link = s.link) (htag : s1.unitTag k u = s.unitTag k u) (hc : c ↔ c') (he : e ↔ e')
    (d sev sev' : Nat) :
    let s2 := if c then s1.raiseDie d sev (s1.unitTag k u) 0 else s1
    s.raisedTo (if e then s2.raiseDie d sev' (s2.unitTag k u) 0 else s2)
      ((if c' then [(sev, s.unitTag k u, 0)] else []) ++ if e' then [(sev', s.unitTag k u, 0)] else []) := by
  dsimp only
  rw [State.ite_raiseDie_unitTag, htag]
  exact State.raisedTo_trans (State.raisedTo_of_events (State.raisedTo_ite hc d sev _ 0) (congrArg (·.events) hlink) rfl)
    (State.raisedTo_ite he d sev' _ 0)

/-! ### RESUME (R85) -/

/-- RESUME of a queue of a tile in service with nothing in flight: ERR is cleared and DISCARD acts. -/
theorem State.resumeQueue_idle {s : State} {q w : Nat} (hq : q < s.part.queues) (ho : s.tileOpen (tileOfQueue q) = true)
    (hin : s.tileInService (tileOfQueue q) = true) (hgo : bit w 31 = true) (hidle : (s.queue q).inflight = []) :
    s.resumeQueue q w = (s.updQueue q (fun x => { x with discard := bit w 30, resumeErr := x.resumeErr && !(bit w 29) })).updQueue q
      (fun x => { x with err := false, head := if x.discard then x.tail else x.head }) := by
  unfold State.resumeQueue
  rw [if_neg (by omega), if_neg (by simp [ho])]
  dsimp only
  rw [if_neg (by simp [hgo]), if_neg (by simp [hidle, hin])]

/-- RESUME of a queue with commands in flight: RESUME_ERR is set. -/
theorem State.resumeQueue_busy {s : State} {q w : Nat} (hq : q < s.part.queues) (ho : s.tileOpen (tileOfQueue q) = true)
    (hgo : bit w 31 = true) (hbusy : (s.queue q).inflight ≠ []) :
    s.resumeQueue q w = (s.updQueue q (fun x => { x with discard := bit w 30, resumeErr := x.resumeErr && !(bit w 29) })).updQueue q
      (fun x => { x with resumeErr := true }) := by
  unfold State.resumeQueue
  rw [if_neg (by omega), if_neg (by simp [ho])]
  dsimp only
  rw [if_neg (by simp [hgo]), if_pos (Or.inl hbusy)]

/-- Settles O50: reconciliation changes counts of rounds until it fences; processors, aging, tests, queues and repair words follow their
commands to the state that they leave. -/
theorem controllersAndRepairs : Obligations.ControllersAndRepairs := by
  unfold Obligations.ControllersAndRepairs
  refine ⟨?reconcile, ?heartbeat, ?takeover, ?aging, ?bist, ?resume, ?busyClr, ?repairWrite⟩
  case reconcile =>
    intro s copiesAgree gensAgree
    refine ⟨fun h => ?_, fun e he hin hno hr hh hothers => ?_⟩
    · have hall : ∀ e ∈ allUnits, s.reconciled e := h
      exact ⟨_, rfl, fun k u => ((State.RoundsOnly.refl s).reconcile hall).state k u,
        State.UnitFields.reconcile (show s.UnitFields s from rfl) (State.RoundsOnly.refl s) hall⟩
    · obtain ⟨before, after, hsplit⟩ := List.append_of_mem he
      have hord := allUnits_ordered
      rw [hsplit, List.pairwise_append, List.pairwise_cons] at hord
      obtain ⟨-, ⟨hafter, -⟩, hbefore⟩ := hord
      have hrec : ∀ x ∈ allUnits, x ≠ e → s.reconciled x := hothers
      have hrounds : s.RoundsOnly (before.foldl State.reconcileUnit s) := (State.RoundsOnly.refl s).reconcile fun x hx =>
        hrec x (hsplit ▸ List.mem_append_left _ hx) (hbefore x hx e List.mem_cons_self).1.symm
      have hsus := (hrounds.suspected hin hno hr hh hafter).reconcile fun x hx =>
        ⟨(hafter x hx).1, hrec x (hsplit ▸ List.mem_append_right _ (List.mem_cons_of_mem _ hx)) (hafter x hx).1⟩
      refine ⟨_, rfl, ?_⟩
      rw [hsplit, List.foldl_append, List.foldl_cons]
      exact hsus
  case heartbeat => exact fun s d hd => congrArg Host.Outcome.next (if_pos hd)
  case takeover =>
    intro s d ok hd hlate hstandby
    have hdue : ¬ (4 ≤ d ∨ s.mono < (s.die d).beatAt + nsInst 1000000 ∨
        (if (s.die d).serving then (s.die d).aRetired else (s.die d).bRetired) = true) := by
      rw [hstandby]
      exact not_or.mpr ⟨Nat.not_le.mpr hd, not_or.mpr ⟨Nat.not_lt.mpr hlate, Bool.false_ne_true⟩⟩
    refine ⟨_, congrArg Host.Outcome.next (if_neg hdue), ?_⟩
    simp only [State.raiseDie_die, State.updDie_die_self, State.rebuildViews_die, State.updUpd_die]
    refine ⟨trivial, trivial, trivial, trivial, ?_, ?_⟩
    · refine State.raisedTo_of_events (State.raisedTo_raiseDie _ _ _ _ _) ?_ rfl
      rw [State.updDie_link, State.rebuildViews_link, State.updUpd_link]
    · cases (s.die d).serving <;> simp
  case aging =>
    intro s d n fS fR hd hn hR hoff ppm x
    have hdue : ¬ (4 ≤ d ∨ 20 ≤ n ∨ (s.slot (d * 20 + n)).u.state = .off ∨ fR = 0) := by
      rintro (h | h | h | h)
      · omega
      · omega
      · exact hoff h
      · omega
    refine ⟨_, congrArg Host.Outcome.next (if_neg hdue), ?_, ?_⟩
    · exact (State.ite_raiseDie_slot _ _ _ _ _ _).trans ((State.ite_raiseDie_slot _ _ _ _ _ _).trans (State.updSlot_slot_self _ _ _))
    · have hmark : ∀ limit : Nat, ∀ mark : Bool, (limit ≤ ppm ∧ (!mark) = true ↔ limit ≤ ppm ∧ mark = false) := fun limit mark => by simp
      exact State.raisedTo_ite_twice (State.updSlot_link _ _ _) (State.updSlot_unitTag _ _ _ _ _) (hmark 20000 x.warn) (hmark 40000 x.retire)
        d 215 216
  case bist =>
    intro s c p found hc he
    have hin := State.ember_inService he
    have hexec : ∀ f : BistFault, exec (.emberBist c f) s = .next (s.applyBist p f) := fun f => by
      refine congrArg Host.Outcome.next ?_
      rw [he]
      exact if_pos hc
    have hin1 : ((s.raiseDie (p / 20) 217 (s.unitTag .slot p) 0).slot p).u.state = .inService := by rw [State.raiseDie_slot, hin]
    refine ⟨?_, ?_, ?_, ?_⟩
    · rintro rfl
      exact hexec .none
    · rintro bank row rfl
      have hspares : (s.raiseDie (p / 20) 217 (s.unitTag .slot p) 0).tileSpares p (bank % 32) = s.tileSpares p (bank % 32) := by
        rw [State.tileSpares, State.raiseDie_repair, State.tileSpares]
      refine ⟨fun hspare => ?_, fun hfull => ?_⟩
      · obtain ⟨hu, hev⟩ := State.repairSlotRow_spare (hspares.symm ▸ hspare) (row % 2048)
        rw [State.raiseDie_unitTag] at hev
        refine ⟨_, hexec _, hu.trans (by rw [State.raiseDie_slot]), ?_⟩
        exact State.raisedTo_trans (State.raisedTo_raiseDie _ _ _ _ _) hev
      · exact ⟨_, hexec _, State.repairSlotRow_retired (hspares.symm ▸ hfull) hin1 _⟩
    · intro n h0 hm hchoose
      obtain ⟨hrep, hu, hgen⟩ := State.repairArray_some (s := s.raiseDie (p / 20) 217 (s.unitTag .slot p) 0) (p := p) (by
        rw [State.raiseDie_slot]; exact hchoose)
      rw [State.raiseDie_slot] at hu
      rw [State.raiseDie_repair] at hgen
      exact ⟨_, (hexec found).trans (congrArg Host.Outcome.next (State.applyBist_array hin h0 hm)), hrep, hu, hgen⟩
    · intro h0 hchoose
      have hm : ∀ bank row : Nat, found ≠ .memRow bank row := by
        rintro bank row rfl
        simp [ArrRepair.choose] at hchoose
      refine ⟨_, (hexec found).trans (congrArg Host.Outcome.next ((State.applyBist_array hin h0 hm).trans
        (State.repairArray_none (by rw [State.raiseDie_slot]; exact hchoose)))), State.retireSlot_slot _ _ _⟩
  case resume =>
    intro s q w hq ho hin hgo
    refine ⟨fun hidle => ⟨_, congrArg Host.Outcome.next (State.resumeQueue_idle hq ho hin hgo hidle), ?_, ?_, rfl, fun p hp => ?_⟩,
      fun hbusy => ⟨_, congrArg Host.Outcome.next (State.resumeQueue_busy hq ho hgo hbusy), ?_, ?_, ?_⟩⟩
    · simp
    · simp
    · rw [State.updQueue_queue_ne _ _ _ _ hp, State.updQueue_queue_ne _ _ _ _ hp]
    · simp
    · simp
    · simp
  case busyClr =>
    intro s tile ht ho
    exact congrArg Host.Outcome.next ((if_neg (by omega)).trans (if_pos ho))
  case repairWrite =>
    intro s tile w ht
    have hexec : ∀ ag : Agent, (ag = .host → s.tileOpen tile = true) →
        exec (.tilArrRepairWrite ag tile w) s = .next (s.writeRepair ag tile w.toNat) := fun ag hag =>
      congrArg Host.Outcome.next ((if_neg (by omega)).trans (if_neg fun h => by simp [hag h.1] at h))
    have hdie := hexec .dieController nofun
    refine ⟨fun hheld hgood => hdie.trans (congrArg Host.Outcome.next (if_neg (by simp [hheld, hgood]))),
      fun hbad => hdie.trans (congrArg Host.Outcome.next (if_pos (by simpa using hbad))), fun ag hne hag => ?_⟩
    rw [hexec ag hag]
    cases ag with
    | dieController => exact absurd rfl hne
    | _ => rfl

end Sys2Proof.Machine
end

section
/-! PROOFS of the family of 04_memory.md: every command keeps memory in its one canonical form (R105, R126, R130, R135, R136). -/

namespace Sys2Proof.Machine

/-- Whatever a command does, it answers a state, and memory stays in its canonical form: a command is an engine's operation, an operation
over a list, one that runs another, or a choice between operations, and each operation of the model keeps the form. -/
theorem exec_keeps_memWf (i : Instr) (s : State) (h : Memory.wf s.mem = true) :
    ∃ t : State, exec i s = .next t ∧ Memory.wf t.mem = true := by
  cases i <;> refine ⟨_, rfl, ?_⟩
  case mm | conv | gslice | binary | unary | cvt | reduce | pool | norm | softmax | scatter | copy | fill | send | msgwin | publish | sync
      | setsync | ring =>
    exact State.runOp_wf _ _ _ _ (fun _ _ _ hs => by simp [hs]) h
  case stagePregus | stageDie | stageImage | stageRegion | unstage | save =>
    rw [State.updOp_mem _ _ _ _ (fun _ => by simp)]
    exact h
  case write | writeAck | signal | signalAck =>
    exact State.takePacket_wf _ _ _ _ (fun _ _ hs => by simp [hs]) h
  case timeWordSend | reconcile =>
    exact foldl_wf _ _ _ (fun _ _ hs => by simp [hs]) h
  case followerCrossCheck =>
    simp [ite_mem, h]
  case scrubLine addr testFails =>
    cases hm : s.scrubMem addr with
    | none => exact h
    | some m =>
      dsimp only
      split
      · exact h
      · exact State.settle_wf _ (State.scrubTest_wf _ _ _ (foldl_wf _ _ _ (fun _ _ hs => State.scrubUnit_wf _ _ _ _ _ hs) (by simp [h])))
  all_goals
    (repeat' split) <;> simp [ite_mem, h]

/-- Settles O4: the command at the front of the queue runs on the state with the rest of the queue, whose memory is the same. -/
theorem memoryStaysCanonical : Obligations.MemoryStaysCanonical := by
  unfold Obligations.MemoryStaysCanonical
  intro s t h hstep
  unfold step at hstep
  split at hstep
  · cases hstep
    exact h
  · next c rest _ =>
    obtain ⟨t', hexec, hwf⟩ := exec_keeps_memWf c { s with pending := rest } h
    rw [hexec] at hstep
    cases hstep
    exact hwf

/-- Settles O3: after reset no byte is listed. -/
theorem resetMemoryCanonical : Obligations.ResetMemoryCanonical := Memory.wf_nil

end Sys2Proof.Machine
end

section
/-! PROOFS of the family of 04_memory.md: reads and writes of memory without errors (R105, R124, R126) and where a DRAM address lies
(R106). -/

namespace Sys2Proof.Machine

/-- Settles O5: in memory without errors a write writes its bytes and no other field. -/
theorem storeReadsBack : Obligations.StoreReadsBack := by
  unfold Obligations.StoreReadsBack
  intro s a bs hs
  obtain ⟨m, hstore, hget⟩ := State.store_sound hs a bs
  rw [hstore]
  exact ⟨rfl, rfl, hget⟩

/-- Settles O6: a read of no byte gives none, and a read of more gives the bytes of memory. -/
theorem fetchReadsMemory : Obligations.FetchReadsMemory := by
  unfold Obligations.FetchReadsMemory
  intro s a n hs
  obtain ⟨hst, hstatus⟩ := State.fetch_ok hs a n
  refine ⟨hstatus, hst, ?_⟩
  by_cases hn : n = 0
  · subst hn
    rfl
  · rw [State.fetch_sound hs a hn]
    rfl

/-- The die window and the offset in it, of an address of DRAM (R105). -/
theorem dramWindow_parts (d : Nat) {off : Nat} (h : off < dramWindow) :
    (dramBase + d * dramWindow + off - dramBase) / dramWindow = d ∧ (dramBase + d * dramWindow + off - dramBase) % dramWindow = off := by
  have hw : 0 < dramWindow := by decide
  rw [show dramBase + d * dramWindow + off - dramBase = off + dramWindow * d by rw [Nat.mul_comm]; omega, Nat.add_mul_div_left _ _ hw,
    Nat.add_mul_mod_self_left, Nat.div_eq_of_lt h, Nat.mod_eq_of_lt h]
  exact ⟨Nat.zero_add d, rfl⟩

theorem dramChannel_window (d : Nat) {off : Nat} (h : off < dramWindow) :
    dramChannel (dramBase + d * dramWindow + off) = d * 3 + off / 4096 % 3 := by
  obtain ⟨hd, ho⟩ := dramWindow_parts d h
  rw [dramChannel, hd, ho, dramLocalChannel]

theorem dramChannelOffset_window (d : Nat) {off : Nat} (h : off < dramWindow) :
    dramChannelOffset (dramBase + d * dramWindow + off) = off / 4096 / 3 * 4096 + off % 4096 := by
  obtain ⟨_, ho⟩ := dramWindow_parts d h
  rw [dramChannelOffset, ho]

/-- Settles O7: the window of an address and the offset in it give its channel and channel offset, and division with remainder by 3 and
by 4,096 takes them back from these. -/
theorem dramInterleave : Obligations.DramInterleave := by
  unfold Obligations.DramInterleave
  constructor
  · intro d off _ hoff
    exact ⟨rfl, dramChannel_window d hoff, dramChannelOffset_window d hoff⟩
  · intro d e a b _ _ ha hb hchan hoff
    rw [dramChannel_window d ha, dramChannel_window e hb] at hchan
    rw [dramChannelOffset_window d ha, dramChannelOffset_window e hb] at hoff
    omega

end Sys2Proof.Machine
end

section
/-! PROOFS of the family of 04_memory.md: a parity error in an engine's Kindling (R85, R109). -/

namespace Sys2Proof.Machine

/-- An opcode's command that is due and whose engine's Kindling holds a parity error fails, and its body does not run. -/
theorem State.runOp_kindBad {s : State} {q : Nat} {o : Op} {body : Ctx → InFlight → State → State × InFlight} {f : InFlight}
    (hf : (s.queue q).current = some f) (ho : Op.ofCode f.desc.opcode.toNat = some o) (hw : s.writesPending q f.tile = false)
    (hm : s.meTurn f.tile f = true) (hk : (s.tile f.tile).kindBad.contains o.engine = true) :
    s.runOp q o body = (s.kindlingFail f.tile o.engine).setCurrent q { f with executed := true, status := 0x34 } := by
  unfold State.runOp
  rw [hf]
  exact (if_neg (by simp [ho, hw, hm])).trans (if_pos hk)

@[simp] theorem State.kindlingFail_queue (s : State) (tile engine q : Nat) : (s.kindlingFail tile engine).queue q = s.queue q := by
  simp [State.kindlingFail]

theorem State.kindlingFail_tile (s : State) (tile engine : Nat) :
    (s.kindlingFail tile engine).tile tile =
      { s.tile tile with kindBad := (s.tile tile).kindBad.erase engine, ueCount := satInc (s.tile tile).ueCount, memLast := 0x34 } := by
  simp [State.kindlingFail]

theorem State.raisedTo_kindlingFail (s : State) (tile engine : Nat) :
    s.raisedTo (s.kindlingFail tile engine) [(55, tile, 0x34)] := by
  unfold State.kindlingFail
  refine State.raisedTo_of_events (State.raisedTo_raiseDie _ _ _ _ _) ?_ rfl
  rw [State.updTile_link]

/-- Settles O8: every opcode's command fails alike, and its failure writes its queue, the tile's counters and the event alone. -/
theorem kindlingErrorFailsCommand : Obligations.KindlingErrorFailsCommand := by
  unfold Obligations.KindlingErrorFailsCommand
  intro o s q f hf ho hw hm hk
  obtain ⟨body, hexec⟩ := exec_command o q
  have htile := s.kindlingFail_tile f.tile o.engine
  refine ⟨_, (hexec s).trans (congrArg Host.Outcome.next (State.runOp_kindBad hf ho hw hm hk)), by simp, by simp, ?_, ?_, ?_, fun p hp => ?_⟩
  · rw [State.setCurrent, State.updQueue_tile, htile]
  · rw [State.setCurrent, State.updQueue_tile, htile]
  · refine State.raisedTo_of_events (State.raisedTo_kindlingFail s f.tile o.engine) rfl ?_
    rw [State.setCurrent, State.updQueue_link]
  · rw [State.setCurrent, State.updQueue_queue_ne _ _ _ _ hp, State.kindlingFail_queue]

end Sys2Proof.Machine
end

section
/-! PROOFS of the family of 04_memory.md: scrubbing, the dirty-line clearer and the upkeep of DRAM (R121, R124, R127, R135 to R137, R141). -/

namespace Sys2Proof.Machine

/-! ### Scrubbing (R127, R137) -/

theorem execScrubLine_turn {s : State} {addr m : Nat} (hm : s.scrubMem addr = some m) (hn : (s.scrubNext m).1 = addr / 64 * 64) (fails : Bool) :
    exec (.scrubLine addr fails) s = .next ((((s.units (addr / 64 * 64) 64).foldl (fun acc e => acc.scrubUnit m fails e.1 e.2)
      (s.scrubStep m (addr / 64 * 64) (s.scrubNext m).2)).scrubTest (addr / 64 * 64) fails).settle) := by
  change execScrubLine addr fails s = _
  unfold execScrubLine
  simp only [hm, hn, ne_eq, not_true, if_false]

theorem execScrubLine_notTurn {s : State} {addr m : Nat} (hm : s.scrubMem addr = some m) (hn : (s.scrubNext m).1 ≠ addr / 64 * 64) (fails : Bool) :
    exec (.scrubLine addr fails) s = .next s := by
  change execScrubLine addr fails s = _
  unfold execScrubLine
  simp only [hm, hn, ne_eq, not_false_eq_true, if_true]

/-- The scrubber's step to its next line changes its place in the pass alone. -/
theorem State.scrubStep_eq (s : State) (m a : Nat) (fresh : Bool) : s.scrubStep m a fresh =
    { s with scrubPos := (s.scrubStep m a fresh).scrubPos, scrubPass := (s.scrubStep m a fresh).scrubPass,
             scrubStart := (s.scrubStep m a fresh).scrubStart } := by
  unfold State.scrubStep
  cases fresh <;> rfl

theorem State.scrubTest_none {s : State} (h : s.rowTests = []) (a : Nat) (fails : Bool) : s.scrubTest a fails = s := by
  simp [State.scrubTest, h]

/-- A unit that is not tagged dirty and that decodes clean is left as it is. -/
theorem State.scrubUnit_clean {s : State} {u z : Nat} (hd : s.isDirty u = false) (hc : decodeUnit z (SMap.get [] s.flips u) = .clean)
    (m : Nat) (fails : Bool) : s.scrubUnit m fails u z = s := by
  simp [State.scrubUnit, hd, hc]

theorem State.scrubUnit_corrected {s : State} {u z : Nat} {ps : List Nat} (hd : s.isDirty u = false)
    (hc : decodeUnit z (SMap.get [] s.flips u) = .corrected ps) (m : Nat) (fails : Bool) :
    s.scrubUnit m fails u z = s.scrubFixed m u ps.length := by
  simp [State.scrubUnit, hd, hc]

theorem State.scrubUnits_clean {s : State} (hd : ∀ u, s.isDirty u = false) (m : Nat) (fails : Bool) (l : List (Nat × Nat))
    (hc : ∀ e ∈ l, decodeUnit e.2 (SMap.get [] s.flips e.1) = .clean) :
    l.foldl (fun acc e => acc.scrubUnit m fails e.1 e.2) s = s :=
  List.foldlRecOn (motive := fun t : State => t = s) l _ rfl fun t ht e he => by
    rw [ht, State.scrubUnit_clean (hd _) (hc e he)]

/-- A correction is counted in its tile and changes nothing else. -/
theorem State.noteCorrected_eq (s : State) (a : Nat) : s.noteCorrected a = { s with tiles := (s.noteCorrected a).tiles } := by
  unfold State.noteCorrected
  split <;> rfl

/-- A correction in a row in which the passes before corrected none: the unit is clean, memory keeps its bytes, and no row is repaired. -/
theorem State.scrubFixed_newRow {s : State} {u : Nat} (h : SMap.get 0 s.rowsHit (s.rowOf u) = 0) (m n : Nat) :
    ∃ t : State, s.scrubFixed m u n = t ∧ t.flips = SMap.set [] s.flips u [] ∧ t.mem = s.mem ∧ t.peatDirty = s.peatDirty ∧
      t.dramDirty = s.dramDirty ∧ t.suspects = s.suspects ∧ t.rowTests = s.rowTests := by
  refine ⟨_, rfl, ?_⟩
  unfold State.scrubFixed
  simp only [h, ne_eq, not_true, and_false, if_false]
  rw [State.noteCorrected_eq]
  generalize (s.noteCorrected u).tiles = tiles
  (repeat' split) <;> simp

/-- Units of a line of which one holds an error that its code corrects, and the others none: that unit alone is scrubbed. -/
theorem State.scrubUnits_corrected {s : State} (hd : ∀ u, s.isDirty u = false) {u z : Nat} {ps : List Nat}
    (hu : decodeUnit z (SMap.get [] s.flips u) = .corrected ps) (hrow : SMap.get 0 s.rowsHit (s.rowOf u) = 0) (m : Nat) (fails : Bool)
    (l : List (Nat × Nat)) (hl : (u, z) ∈ l) (hc : ∀ e ∈ l, e ≠ (u, z) → decodeUnit e.2 (SMap.get [] s.flips e.1) = .clean) :
    l.foldl (fun acc e => acc.scrubUnit m fails e.1 e.2) s = s.scrubFixed m u ps.length := by
  induction l with
  | nil => cases hl
  | cons e l ih =>
    rw [List.foldl_cons]
    by_cases he : e = (u, z)
    · subst he
      obtain ⟨t, ht, hflips, -, hpeat, hdram, -, -⟩ := State.scrubFixed_newRow hrow m ps.length
      rw [State.scrubUnit_corrected (hd u) hu, ht]
      refine State.scrubUnits_clean (fun v => ?_) m fails l fun e' he' => ?_
      · have hv := hd v
        rw [State.isDirty] at hv ⊢
        rwa [hpeat, hdram]
      · rw [hflips]
        by_cases hv : e'.1 = u
        · rw [hv, SMap.get_set_self]
          exact if_pos rfl
        · rw [SMap.get_set_ne _ _ _ _ _ hv]
          exact hc e' (List.mem_cons_of_mem _ he') fun h => hv (congrArg Prod.fst h)
    · rw [State.scrubUnit_clean (hd _) (hc e List.mem_cons_self he)]
      exact ih (List.mem_of_ne_of_mem (Ne.symm he) hl) fun e' he' => hc e' (List.mem_cons_of_mem _ he')

/-! ### The dirty-line clearer (R135, R136) -/

/-- A key without an entry reads as the default. -/
theorem SMap.get_of_absent {α : Type} (d : α) {m : SMap α} {k : Nat} (h : ∀ v, (k, v) ∉ m) : SMap.get d m k = d := by
  induction m with
  | nil => rfl
  | cons e t ih =>
    have hk : k ≠ e.1 := by
      rintro rfl
      exact h e.2 List.mem_cons_self
    rw [SMap.get, ih fun v hv => h v (List.mem_cons_of_mem _ hv), if_neg hk, ite_self]

/-- A range that is zeroed reads as zeros. -/
theorem State.byteAt_zeroRange (s : State) {a n x : Nat} (h : a ≤ x ∧ x < a + n) : (s.zeroRange a n).byteAt x = 0 :=
  SMap.get_of_absent 0 fun _ hv => by simpa [h] using List.of_mem_filter hv

theorem State.undirty_peat {s : State} {a : Nat} (h : s.isDirty a = true) (ha : a < dramBase) :
    s.undirty a = { s.zeroRange (a / 64 * 64) 64 with peatDirty := SMap.set false s.peatDirty (a / 64) false } :=
  (if_pos h).trans (if_pos ha)

theorem State.undirty_dram {s : State} {a : Nat} (h : s.isDirty a = true) (ha : ¬ a < dramBase) :
    s.undirty a = { s.zeroRange (a / 4096 * 4096) 4096 with dramDirty := SMap.set false s.dramDirty (a / 4096) false } :=
  (if_pos h).trans (if_neg ha)

/-! ### DRAM upkeep (R121) -/

theorem execDramMr4Poll_due {s : State} {c : Nat} (hc : c < 12) (ht : (s.chan c).trained = true) (hp : (s.chan c).pollAt + nsInst 16000000 ≤ s.mono)
    (twoX : Bool) : exec (.dramMr4Poll c twoX) s = .next
      (if twoX ∧ !(s.chan c).refresh2x then
        (s.updChan c (fun x => { x with refresh2x := twoX, pollAt := s.mono })).raiseDie (c / 3) 62 (c / 3) 0
      else s.updChan c (fun x => { x with refresh2x := twoX, pollAt := s.mono })) := by
  refine congrArg Host.Outcome.next (if_neg ?_)
  rw [ht]
  simp only [Bool.not_true, Bool.false_eq_true, false_or, not_or]
  exact ⟨Nat.not_le.mpr hc, Nat.not_lt.mpr hp⟩

/-- Settles O51: each command is followed on the state that its clause describes. -/
theorem memoryMaintenance : Obligations.MemoryMaintenance := by
  unfold Obligations.MemoryMaintenance
  refine ⟨?sound, ?corrected, ?overrun, ?clear, ?poll, ?retrain⟩
  case sound =>
    intro s addr m f hm
    refine ⟨fun hn hs hsus htests => ?_, fun hn => execScrubLine_notTurn hm hn f⟩
    have hstep := s.scrubStep_eq m (addr / 64 * 64) (s.scrubNext m).2
    have hsound : (s.scrubStep m (addr / 64 * 64) (s.scrubNext m).2).sound := by rw [hstep]; exact hs
    rw [execScrubLine_turn hm hn, State.scrubUnits_clean (State.isDirty_sound hsound) m f _ (fun e _ => by rw [hsound.1]; exact if_pos rfl),
      State.scrubTest_none (by rw [hstep]; exact htests), State.settle_of_none (by rw [hstep]; exact hsus)]
  case corrected =>
    intro s addr m u z f ps hm hn hsus htests hpeat hdram _ hmem hu hrow hclean
    have hstep := s.scrubStep_eq m (addr / 64 * 64) (s.scrubNext m).2
    have hdirty : ∀ v, (s.scrubStep m (addr / 64 * 64) (s.scrubNext m).2).isDirty v = false := fun v => by
      rw [hstep, State.isDirty, hpeat, hdram]
      exact ite_self _
    rw [execScrubLine_turn hm hn]
    generalize s.scrubStep m (addr / 64 * 64) (s.scrubNext m).2 = s1 at hstep hdirty ⊢
    have hflips1 : s1.flips = s.flips := by rw [hstep]
    have hrow1 : SMap.get 0 s1.rowsHit (s1.rowOf u) = 0 := by rw [hstep]; exact hrow
    obtain ⟨t, ht, hflips, hbytes, -, -, hsus1, htests1⟩ := State.scrubFixed_newRow hrow1 m ps.length
    rw [State.scrubUnits_corrected hdirty (by rw [hflips1]; exact hu) hrow1 m f _ hmem (by rw [hflips1]; exact hclean), ht,
      State.scrubTest_none (by rw [htests1, hstep]; exact htests), State.settle_of_none (by rw [hsus1, hstep]; exact hsus)]
    exact ⟨t, rfl, by rw [hflips, SMap.get_set_self], by rw [hbytes, hstep]⟩
  case overrun =>
    intro s addr m hm himage hlate
    have hexec : exec (.scrubPassOverrun addr) s =
        .next (({ s with scrubStart := SMap.set 0 s.scrubStart m s.mono } : State).raiseDie (memDie m) 59 (memTag m) 0) := by
      change execScrubPassOverrun addr s = _
      unfold execScrubPassOverrun
      simp only [hm, himage, hlate, true_and, if_true]
    refine ⟨_, hexec, ?_, ?_, State.raiseDie_mem _ _ _ _ _⟩
    · rw [State.raiseDie_scrubStart, SMap.get_set_self]
    · refine State.raisedTo_of_events (State.raisedTo_raiseDie _ _ _ _ _) ?_ rfl
      rfl
  case clear =>
    intro s addr hdirty
    refine ⟨_, rfl, ?_⟩
    by_cases ha : addr < dramBase
    · rw [State.undirty_peat hdirty ha, if_pos ha]
      refine ⟨(if_pos ha).trans (SMap.get_set_self _ _ _ _), fun x h1 h2 => ?_, rfl⟩
      exact s.byteAt_zeroRange ⟨h1, h2⟩
    · rw [State.undirty_dram hdirty ha, if_neg ha]
      refine ⟨(if_neg ha).trans (SMap.get_set_self _ _ _ _), fun x h1 h2 => ?_, rfl⟩
      exact s.byteAt_zeroRange ⟨h1, h2⟩
  case poll =>
    intro s c twoX hc ht hp
    refine ⟨_, execDramMr4Poll_due hc ht hp twoX, ?_⟩
    by_cases hrise : twoX = true ∧ (s.chan c).refresh2x = false
    · rw [if_pos (by simpa using hrise), if_pos hrise, State.raiseDie_chan, State.updChan_chan_self]
      refine ⟨rfl, State.raisedTo_of_events (State.raisedTo_raiseDie _ _ _ _ _) ?_ rfl⟩
      rfl
    · rw [if_neg (by simpa using hrise), if_neg hrise, State.updChan_chan_self]
      exact ⟨rfl, State.raisedTo_nil rfl⟩
  case retrain =>
    intro s c hc ht
    refine congrArg Host.Outcome.next (if_neg ?_)
    rw [ht]
    simpa using hc

end Sys2Proof.Machine
end

section
/-! PROOFS of the family of 04_memory.md: what accesses of memory, and the answers to the commands and messages of a fenced unit, do at
most to the event FIFO, the tiles and the queues (R124, R126, R404, R409, R410, R464). -/

namespace Sys2Proof.Machine

/-- From `s` to `t` entries were at most added to the event FIFO, the memories that a kill leaves to be zeroed and the slots that serve the
tiles stay, no queue moved its HEAD or TAIL, and none took a command. -/
structure State.AnswersOnly (s t : State) : Prop where
  events : s.link.events <+: t.link.events
  mustZero : ∀ y, (t.tile y).mustZero = (s.tile y).mustZero
  slotOf : t.repair.slotOf = s.repair.slotOf
  head : ∀ q, (t.queue q).head = (s.queue q).head
  tail : ∀ q, (t.queue q).tail = (s.queue q).tail
  idle : ∀ q, (s.queue q).inflight = [] → (t.queue q).inflight = []

theorem State.AnswersOnly.refl (s : State) : s.AnswersOnly s :=
  ⟨List.prefix_rfl, fun _ => rfl, rfl, fun _ => rfl, fun _ => rfl, fun _ h => h⟩

theorem State.AnswersOnly.trans {s t v : State} (h : s.AnswersOnly t) (g : t.AnswersOnly v) : s.AnswersOnly v :=
  ⟨h.events.trans g.events, fun y => (g.mustZero y).trans (h.mustZero y), g.slotOf.trans h.slotOf, fun q => (g.head q).trans (h.head q),
    fun q => (g.tail q).trans (h.tail q), fun q hq => g.idle q (h.idle q hq)⟩

/-- The events of the later state are those of the earlier one and more. -/
theorem State.AnswersOnly.eventWords {s t : State} (h : s.AnswersOnly t) : ∃ more : List Word, t.eventWords = s.eventWords ++ more := by
  obtain ⟨more, hmore⟩ := h.events
  exact ⟨more.map (·.word0), by rw [State.eventWords, ← hmore, List.map_append]; rfl⟩

/-! ### Updates of one part -/

section
variable {s t : State} (h : s.AnswersOnly t)
include h

/-- A state in which none of these parts changed. -/
theorem State.AnswersOnly.same {v : State} (hl : v.link.events = t.link.events) (ht : v.tiles = t.tiles)
    (hr : v.repair.slotOf = t.repair.slotOf) (hq : v.queues = t.queues) : s.AnswersOnly v := by
  have htile : ∀ y, v.tile y = t.tile y := fun y => by rw [State.tile, State.tile, ht]
  have hqueue : ∀ q, v.queue q = t.queue q := fun q => by rw [State.queue, State.queue, hq]
  exact h.trans ⟨hl ▸ List.prefix_rfl, fun y => by rw [htile], hr, fun q => by rw [hqueue], fun q => by rw [hqueue],
    fun q hi => by rwa [hqueue]⟩

theorem State.AnswersOnly.raiseAt (sev unit status : Nat) (stamp : Stamp) (detail : List Byte) :
    s.AnswersOnly (t.raiseAt sev unit status stamp detail) := by
  refine h.trans ⟨?_, fun y => ?_, ?_, fun q => ?_, fun q => ?_, fun q hi => ?_⟩
  · rw [State.raiseAt_events]
    split
    · exact List.prefix_append _ _
    · exact List.prefix_rfl
  · rw [State.raiseAt_tile]
  · rw [State.raiseAt_repair]
  · rw [State.raiseAt_queue]
  · rw [State.raiseAt_queue]
  · rw [State.raiseAt_queue, hi]

theorem State.AnswersOnly.raise (sev unit status : Nat) : s.AnswersOnly (t.raise sev unit status) := h.raiseAt _ _ _ _ _

theorem State.AnswersOnly.raiseDie (d sev unit status : Nat) : s.AnswersOnly (t.raiseDie d sev unit status) := h.raiseAt _ _ _ _ _

theorem State.AnswersOnly.updTile (y : Nat) (f : TileSt → TileSt) (hf : ∀ x, (f x).mustZero = x.mustZero) :
    s.AnswersOnly (t.updTile y f) := by
  refine h.trans ⟨List.prefix_rfl, fun z => ?_, rfl, fun _ => rfl, fun _ => rfl, fun _ hi => hi⟩
  rw [State.updTile_tile]
  split
  · next hz => rw [hf, hz]
  · rfl

theorem State.AnswersOnly.updQueue (q : Nat) (f : QueueSt → QueueSt)
    (hf : ∀ x, (f x).head = x.head ∧ (f x).tail = x.tail ∧ (x.inflight = [] → (f x).inflight = [])) : s.AnswersOnly (t.updQueue q f) := by
  obtain ⟨hhead, htail, hidle⟩ := hf (t.queue q)
  refine h.trans ⟨List.prefix_rfl, fun _ => rfl, rfl, fun p => ?_, fun p => ?_, fun p hi => ?_⟩ <;> rw [State.updQueue_queue] <;> split
  · next hp => rw [hp, hhead]
  · rfl
  · next hp => rw [hp, htail]
  · rfl
  · next hp => exact hidle (hp ▸ hi)
  · exact hi

/-- An update of the commands in flight, one by one. -/
theorem State.AnswersOnly.mapInflight (q : Nat) (g : InFlight → InFlight) :
    s.AnswersOnly (t.updQueue q (fun x => { x with inflight := x.inflight.map g })) :=
  h.updQueue q _ fun x => ⟨rfl, rfl, fun hi => by rw [hi]; rfl⟩

theorem State.AnswersOnly.msix (v : Nat) : s.AnswersOnly (t.msix v) := h.same (HostLinkSt.msix_events _ _) rfl rfl rfl

theorem State.AnswersOnly.updDie (d : Nat) (f : DieSt → DieSt) : s.AnswersOnly (t.updDie d f) := h.same rfl rfl rfl rfl

theorem State.AnswersOnly.updChan (c : Nat) (f : ChanSt → ChanSt) : s.AnswersOnly (t.updChan c f) := h.same rfl rfl rfl rfl

theorem State.AnswersOnly.updBeat (f : BeatSt → BeatSt) : s.AnswersOnly (t.updBeat f) := h.same rfl rfl rfl rfl

theorem State.AnswersOnly.updUpd (f : UpdSt → UpdSt) : s.AnswersOnly (t.updUpd f) := h.same rfl rfl rfl rfl

theorem State.AnswersOnly.oweRowTest (u : Nat) : s.AnswersOnly (t.oweRowTest u) := h.same rfl rfl rfl rfl

theorem State.AnswersOnly.suspects (l : List (UnitKind × Nat × Nat)) : s.AnswersOnly { t with suspects := l } := h.same rfl rfl rfl rfl

theorem State.AnswersOnly.memFlips (m : SMap Byte) (f : SMap (List Nat)) : s.AnswersOnly { t with mem := m, flips := f } :=
  h.same rfl rfl rfl rfl

theorem State.AnswersOnly.updUnit (k : UnitKind) (u : Nat) (f : UnitSt → UnitSt) : s.AnswersOnly (t.updUnit k u f) := by
  cases k <;> exact h.same rfl rfl rfl rfl

theorem State.AnswersOnly.foldl {α : Type} (g : State → α → State) (l : List α) (hg : ∀ (v : State) (x : α), v.AnswersOnly (g v x)) :
    s.AnswersOnly (l.foldl g t) :=
  h.trans (List.foldlRecOn (motive := fun v : State => t.AnswersOnly v) l g (.refl t) fun v hv x _ => hv.trans (hg v x))

end

/-! ### Accesses of memory -/

theorem State.undirty_answersOnly (s : State) (a : Nat) : s.AnswersOnly (s.undirty a) := by
  unfold State.undirty
  (repeat' split) <;> exact .same (.refl s) rfl rfl rfl rfl

theorem State.recordRepairs_slotOf (s : State) (es : List RepairEntry) : (s.recordRepairs es).repair.slotOf = s.repair.slotOf := by
  have hlog : ∀ (f : RepairEntry → List Byte) (t : State), (es.foldl (fun acc e => acc.log 3 0 0xFF (f e)) t).repair = t.repair := fun f t => by
    obtain ⟨a, ha⟩ := State.foldl_log_eq f es t
    rw [ha]
  unfold State.recordRepairs
  split
  · rfl
  · dsimp only
    rw [hlog]
    rfl

theorem State.recordRepairs_answersOnly (s : State) (es : List RepairEntry) : s.AnswersOnly (s.recordRepairs es) := by
  have hslot := s.recordRepairs_slotOf es
  obtain ⟨m, fl, a, heq, -⟩ := s.recordRepairs_eq es
  rw [heq] at hslot ⊢
  exact .same (.refl s) rfl rfl hslot rfl

theorem State.repairDramRow_answersOnly (s : State) (a d : Nat) : s.AnswersOnly (s.repairDramRow a d) := by
  unfold State.repairDramRow
  dsimp only
  split
  · exact .refl s
  · exact ((State.AnswersOnly.refl s).updChan _ _).trans (State.recordRepairs_answersOnly _ _)

theorem State.noteUncorrectable_answersOnly (s : State) (a : Nat) : s.AnswersOnly (s.noteUncorrectable a).1 := by
  have h := State.AnswersOnly.refl s
  unfold State.noteUncorrectable
  split
  · refine ((h.updTile _ _ ?_).raiseDie _ _ _ _).oweRowTest _
    exact fun _ => rfl
  · exact ((h.updDie _ _).raiseDie _ _ _ _).oweRowTest _
  · exact ((h.updChan _ _).raiseDie _ _ _ _).trans (State.repairDramRow_answersOnly _ _ _)

theorem State.suspectOwner_answersOnly (s : State) (a d : Nat) : s.AnswersOnly (s.suspectOwner a d) := by
  have h := (State.AnswersOnly.refl s).raiseDie d 54 d 0x33
  unfold State.suspectOwner
  dsimp only
  split
  · split
    · exact h.suspects _
    · exact h
  · exact h

theorem State.noteAddress_answersOnly (s : State) (a : Nat) : s.AnswersOnly (s.noteAddress a) := by
  have h := State.AnswersOnly.refl s
  unfold State.noteAddress
  split
  · refine ((h.updTile _ _ ?_).raiseDie _ _ _ _).suspects _
    exact fun _ => rfl
  · exact (h.updDie _ _).trans (State.suspectOwner_answersOnly _ _ _)
  · exact (h.updChan _ _).trans (State.suspectOwner_answersOnly _ _ _)

theorem State.noteCorrected_answersOnly (s : State) (a : Nat) : s.AnswersOnly (s.noteCorrected a) := by
  unfold State.noteCorrected
  split
  · refine (State.AnswersOnly.refl s).updTile _ _ ?_
    exact fun _ => rfl
  · exact .refl s

theorem State.linkTry_answersOnly (s : State) (u : Nat) : s.AnswersOnly (s.linkTry u).1 := by
  have h := State.AnswersOnly.refl s
  unfold State.linkTry
  split
  · dsimp only
    split
    · exact h
    · split
      · exact h.updChan _ _
      · dsimp only
        exact (h.updChan _ _).raiseDie _ _ _ _
  · exact h

theorem State.fetchStored_answersOnly (s : State) (u size : Nat) : s.AnswersOnly (s.fetchStored u size).st := by
  unfold State.fetchStored
  (repeat' split)
  · exact .refl s
  · exact .refl s
  · exact s.noteCorrected_answersOnly u
  · exact s.noteAddress_answersOnly u
  · exact s.noteUncorrectable_answersOnly u

theorem State.fetchPart_answersOnly (s : State) (first : Bool) (u size : Nat) : s.AnswersOnly (s.fetchPart first u size).st := by
  unfold State.fetchPart State.fetchUnit
  dsimp only
  (repeat' split)
  · exact s.linkTry_answersOnly u
  · exact (s.linkTry_answersOnly u).trans (State.fetchStored_answersOnly _ _ _)
  · exact s.fetchStored_answersOnly u size

theorem State.storeUnit_answersOnly (s : State) (first : Bool) (u size a : Nat) (bs : List Byte) :
    s.AnswersOnly (s.storeUnit first u size a bs).1 := by
  have h := s.undirty_answersOnly u
  unfold State.storeUnit
  dsimp only
  split
  · split
    · split
      · exact h.trans (State.linkTry_answersOnly _ _)
      · exact (h.trans (State.linkTry_answersOnly _ _)).memFlips _ _
    · exact h.memFlips _ _
  · split
    · exact h.trans (State.fetchPart_answersOnly _ _ _ _)
    · exact (h.trans (State.fetchPart_answersOnly _ _ _ _)).memFlips _ _

theorem State.storeUnits_answersOnly (stop : Bool) (a : Nat) (bs : List Byte) (l : List (Nat × Nat)) (line : Option (Nat × Bool)) (s : State)
    (st : Nat) : s.AnswersOnly (State.storeUnits stop a bs line l (s, st)).1 := by
  induction l generalizing line s st with
  | nil => exact .refl _
  | cons e l ih =>
    rw [State.storeUnits]
    split
    · exact ih _ _ _
    · exact (s.storeUnit_answersOnly _ _ _ _ _).trans (ih _ _ _)

theorem State.put_answersOnly (s : State) (a : Nat) (bs : List Byte) : s.AnswersOnly (s.put a bs) := by
  unfold State.put State.store
  exact State.storeUnits_answersOnly _ _ _ _ _ _ _

/-! ### Commands and messages that a fence answers -/

theorem State.meFlags_answersOnly (s : State) (q : Nat) (f : InFlight) : s.AnswersOnly (s.meFlags q f) := by
  unfold State.meFlags
  (repeat' split)
  · refine (State.AnswersOnly.refl s).updTile _ _ ?_
    exact fun _ => rfl
  · exact .refl s
  · exact .refl s

theorem State.clearKindling_answersOnly (s : State) (f : InFlight) : s.AnswersOnly (s.clearKindling f) := by
  unfold State.clearKindling
  split
  · refine (State.AnswersOnly.refl s).updTile _ _ ?_
    exact fun _ => rfl
  · exact .refl s

theorem State.complete_answersOnly (s : State) (a : QueueAlloc) (f : InFlight) (cycles : Nat) : s.AnswersOnly (s.complete a f cycles) := by
  have h : s.AnswersOnly (((s.putCompletion a f cycles).updQueue a.queue (QueueSt.retired f)).meFlags a.queue f |>.clearKindling f) :=
    (((s.put_answersOnly _ _).updQueue a.queue (QueueSt.retired f) fun x => ⟨rfl, rfl, fun hi => by rw [QueueSt.retired, hi]; rfl⟩).trans
      (State.meFlags_answersOnly _ _ _)).trans (State.clearKindling_answersOnly _ _)
  rw [State.complete_eq, State.afterEntry]
  split
  · exact (h.updBeat _).msix _
  · exact h.updBeat _

theorem State.completeAll_answersOnly (q status : Nat) (l : List InFlight) (s : State) : s.AnswersOnly (s.completeAll q status l) := by
  induction l generalizing s with
  | nil => exact .refl s
  | cons f l ih =>
    have hdraw : s.AnswersOnly s.draw.2 := .same (.refl s) rfl rfl rfl rfl
    rw [State.completeAll]
    refine .trans ?_ (ih _)
    split
    · exact hdraw.trans (State.complete_answersOnly _ _ _ _)
    · exact hdraw

theorem State.answerAllocs_answersOnly (tiles : List Nat) (status : Nat) (l : List QueueAlloc) (s : State) :
    s.AnswersOnly (s.answerAllocs tiles status l) := by
  induction l generalizing s with
  | nil => exact .refl s
  | cons a l ih =>
    rw [State.answerAllocs]
    refine .trans ?_ (ih _)
    split
    · exact State.completeAll_answersOnly _ _ _ _
    · exact (State.AnswersOnly.refl s).mapInflight _ _

theorem State.recallMessages_answersOnly (cmds : List (Nat × Nat)) (l : List Nat) (s : State) : s.AnswersOnly (s.recallMessages cmds l) := by
  induction l generalizing s with
  | nil => exact (State.AnswersOnly.refl s).updBeat _
  | cons t l ih =>
    rw [State.recallMessages]
    refine ((State.AnswersOnly.refl s).updTile t _ ?_).trans (ih _)
    exact fun _ => rfl

theorem State.discardMessages_answersOnly (t : Nat) (l : List Message) (s : State) : s.AnswersOnly (s.discardMessages t l) := by
  induction l generalizing s with
  | nil =>
    refine (State.AnswersOnly.refl s).updTile t _ ?_
    exact fun _ => rfl
  | cons m l ih =>
    have hdrop : s.AnswersOnly (s.dropAt (dieOfTile t)) := (State.AnswersOnly.refl s).updDie _ _
    rw [State.discardMessages]
    refine .trans ?_ (ih _)
    split
    · exact hdrop.mapInflight _ _
    · exact hdrop

theorem State.dropUpdates_answersOnly (l : List StageUpdate) (s : State) : s.AnswersOnly (s.dropUpdates l) := by
  induction l generalizing s with
  | nil => exact .refl s
  | cons u l ih => exact (((State.AnswersOnly.refl s).updDie _ _).mapInflight _ _).trans (ih _)

theorem State.answerTiles_answersOnly (s : State) (tiles : List Nat) (status : Nat) : s.AnswersOnly (s.answerTiles tiles status) := by
  have h := ((State.answerAllocs_answersOnly tiles status s.liveAllocs s).trans
    (State.recallMessages_answersOnly (s.fencedCmds tiles) (List.range s.part.tiles) _)).foldl
      (fun acc t => acc.discardMessages t (acc.tile t).msgs) tiles fun v t => State.discardMessages_answersOnly t _ v
  unfold State.answerTiles
  dsimp only
  split
  · exact (h.trans (State.dropUpdates_answersOnly _ _)).updBeat _
  · exact h

theorem State.refreshMissing_answersOnly (s : State) : s.AnswersOnly s.refreshMissing := by
  unfold State.refreshMissing
  dsimp only
  split
  · exact ((State.AnswersOnly.refl s).updBeat _).raise _ _ _
  · exact (State.AnswersOnly.refl s).updBeat _

/-! ### The fence of a unit -/

theorem State.absorb_answersOnly (s : State) (k : UnitKind) (u : Nat) : s.AnswersOnly (s.absorb k u) := by
  refine (State.AnswersOnly.refl s).foldl _ _ fun v e => ?_
  dsimp only
  split
  · exact .refl v
  · exact ((State.AnswersOnly.refl v).updUnit _ _ _).updUnit _ _ _

theorem State.endDrains_answersOnly (s : State) (k : UnitKind) (u : Nat) : s.AnswersOnly (s.endDrains k u) :=
  ((State.AnswersOnly.refl s).updDie _ _).foldl _ _ fun v _ => ((((State.AnswersOnly.refl v).updUpd _).updUpd _).raise _ _ _).msix _

theorem State.openFence_answersOnly (s : State) (k : UnitKind) (u cause : Nat) (st : UnitState) : s.AnswersOnly (s.openFence k u cause st) :=
  ((((s.endDrains_answersOnly k u).trans (State.absorb_answersOnly _ _ _)).updUnit _ _ _).updUnit _ _ _).raiseDie _ _ _ _

end Sys2Proof.Machine
end

section
/-! PROOFS of the family of 04_memory.md: hangs and the fences that they cause (R141, R404 to R409, R412). -/

namespace Sys2Proof.Machine

/-! ### The fence of a unit (R409, R412) -/

/-- What lies around a unit does not change while the units stand. -/
theorem State.underRecovery_of_standing {s t : State} (h : t.standing = s.standing) (k : UnitKind) (u : Nat) :
    t.underRecovery k u = s.underRecovery k u := by
  simp only [State.underRecovery, State.unit_of_standing h]

theorem State.mono_of_standing {s t : State} (h : t.standing = s.standing) : t.mono = s.mono := by
  rw [State.mono, State.mono, show t.tb = s.tb from congrArg Standing.tb h]

theorem State.recoveryHeld_of_standing {s t : State} (h : t.standing = s.standing) (k : UnitKind) (u : Nat) :
    t.recoveryHeld k u = s.recoveryHeld k u := by
  have hhold : (t.die (dieOfUnit k u)).holdUntil = (s.die (dieOfUnit k u)).holdUntil :=
    congrArg (fun x : Standing => x.holdUntil (dieOfUnit k u)) h
  rw [State.recoveryHeld, State.recoveryHeld, State.mono_of_standing h, hhold]

@[simp] theorem State.updUnit_link (s : State) (k : UnitKind) (u : Nat) (f : UnitSt → UnitSt) : (s.updUnit k u f).link = s.link := by
  cases k <;> rfl

@[simp] theorem State.setUnit_link (s : State) (k : UnitKind) (u : Nat) (st : UnitState) : (s.setUnit k u st).link = s.link :=
  s.updUnit_link k u _

@[simp] theorem State.absorb_link (s : State) (k : UnitKind) (u : Nat) : (s.absorb k u).link = s.link := by
  refine List.foldlRecOn (motive := fun t : State => t.link = s.link) _ _ rfl fun t ht e _ => ?_
  dsimp only
  split
  · exact ht
  · rw [State.updUnit_link, State.setUnit_link, ht]

/-- Where no planned fence drains, none is given up. -/
theorem State.endDrains_link {s : State} {k : UnitKind} {u : Nat} (h : (s.die (dieOfUnit k u)).fences = []) :
    (s.endDrains k u).link = s.link := by
  unfold State.endDrains
  dsimp only
  rw [h]
  rfl

/-- The recovery state that a fence gives its unit; its two copies change with it. -/
theorem State.openFence_unit_fields (s : State) (k : UnitKind) (u cause : Nat) (st : UnitState) :
    let x := (s.openFence k u cause st).unit k u
    x.state = st ∧ x.cause = cause ∧ x.resetReq = (st == .suspect) ∧ x.hostView = st ∧ x.pregusView = st := by
  unfold State.openFence
  dsimp only
  rw [State.unit_of_standing (State.raiseDie_standing _ _ _ _ _), State.updUnit_unit_self, State.setUnit, State.updUnit_unit_self]
  exact ⟨rfl, rfl, rfl, rfl, rfl⟩

/-- A fence where no planned fence drains raises SEV-209 alone. -/
theorem State.raisedTo_openFence {s : State} {k : UnitKind} {u : Nat} (h : (s.die (dieOfUnit k u)).fences = []) (cause : Nat)
    (st : UnitState) : s.raisedTo (s.openFence k u cause st) [(209, s.unitTag k u, 0)] := by
  unfold State.openFence
  refine State.raisedTo_of_events (State.raisedTo_raiseDie _ _ _ _ _) ?_ rfl
  rw [State.updUnit_link, State.setUnit_link, State.absorb_link, State.endDrains_link h]

/-- A unit in service whose recovery nothing takes over or holds back: its fence, and the answers to its commands and messages. -/
theorem State.suspectUnit_fences {s : State} {k : UnitKind} {u : Nat} (hs : (s.unit k u).state = .inService)
    (hr : s.underRecovery k u = false) (hh : s.recoveryHeld k u = false) (cause : Nat) :
    s.suspectUnit k u cause = ((s.openFence k u cause .suspect).answerTiles
      ((s.openFence k u cause .suspect).unitTiles k u) 0x80).refreshMissing := by
  simp [State.suspectUnit, hs, hr, hh]

/-- The recovery state of a unit that is fenced at once. -/
theorem State.suspectUnit_unit_fields {s : State} {k : UnitKind} {u : Nat} (hs : (s.unit k u).state = .inService)
    (hr : s.underRecovery k u = false) (hh : s.recoveryHeld k u = false) (cause : Nat) :
    let x := (s.suspectUnit k u cause).unit k u
    x.state = .suspect ∧ x.cause = cause ∧ x.resetReq = true ∧ x.hostView = .suspect ∧ x.pregusView = .suspect := by
  dsimp only
  rw [State.unit_of_standing (State.suspectUnit_now hs hr hh cause)]
  exact s.openFence_unit_fields k u cause .suspect

/-! ### Hangs (R405, R408) -/

/-- From `s` to `t` the event `sev` has made the unit suspect, to be dumped and reset, with SEV-209 after the event. -/
def State.Hung (s t : State) (k : UnitKind) (u sev : Nat) : Prop :=
  (t.unit k u).state = .suspect ∧ (t.unit k u).cause = sev ∧ (t.unit k u).resetReq = true ∧ (t.unit k u).hostView = .suspect ∧
    (t.unit k u).pregusView = .suspect ∧
    (s.link.events.length + 2 ≤ 1024 → ∃ more : List Word,
      t.eventWords = s.eventWords ++ [evtWord0 sev (s.unitTag k u) 0, evtWord0 209 (s.unitTag k u) 0] ++ more)

/-- The hang of a unit in service whose recovery nothing takes over or holds back, on a die where no planned fence drains. -/
theorem State.hang_hung {s : State} {k : UnitKind} {u : Nat} (hs : (s.unit k u).state = .inService) (hr : s.underRecovery k u = false)
    (hh : s.recoveryHeld k u = false) (hf : (s.die (dieOfUnit k u)).fences = []) (sev : Nat) : s.Hung (s.hang k u sev) k u sev := by
  have hhang : s.hang k u sev = (s.raiseDie (dieOfUnit k u) sev (s.unitTag k u) 0).suspectUnit k u sev :=
    if_pos (by rw [hs]; rfl)
  have hraised := s.raisedTo_raiseDie (dieOfUnit k u) sev (s.unitTag k u) 0
  have hstand := s.raiseDie_standing (dieOfUnit k u) sev (s.unitTag k u) 0
  have htag := s.raiseDie_unitTag (dieOfUnit k u) sev (s.unitTag k u) 0 k u
  have hfences : ((s.raiseDie (dieOfUnit k u) sev (s.unitTag k u) 0).die (dieOfUnit k u)).fences = [] := by rw [State.raiseDie_die, hf]
  rw [hhang]
  generalize s.raiseDie (dieOfUnit k u) sev (s.unitTag k u) 0 = v at *
  have hsv : (v.unit k u).state = .inService := by rw [State.unit_of_standing hstand, hs]
  have hrv := (State.underRecovery_of_standing hstand k u).trans hr
  have hhv := (State.recoveryHeld_of_standing hstand k u).trans hh
  obtain ⟨hst, hcause, hreset, hhost, hpregus⟩ := State.suspectUnit_unit_fields hsv hrv hhv sev
  refine ⟨hst, hcause, hreset, hhost, hpregus, fun hroom => ?_⟩
  have hopen := State.raisedTo_trans hraised (State.raisedTo_openFence hfences sev .suspect) hroom
  rw [htag] at hopen
  obtain ⟨more, hmore⟩ := ((State.answerTiles_answersOnly (v.openFence k u sev .suspect)
    ((v.openFence k u sev .suspect).unitTiles k u) 0x80).trans (State.refreshMissing_answersOnly _)).eventWords
  rw [State.suspectUnit_fences hsv hrv hhv, hmore, hopen]
  exact ⟨more, rfl⟩

/-- A link that still fails in the reset of its die (R408). -/
theorem State.linkStillFails_recovering {s : State} {d : Nat} (h : (s.die d).u.state = .resetting ∨ (s.die d).u.state = .testing) :
    s.linkStillFails d = ((s.setUnit .die d .suspect).updUnit .die d (fun x => { x with cause := 207, resetReq := false })).raiseDie d 207 d 0 := by
  unfold State.linkStillFails
  rcases h with h | h <;> rw [h]

/-! ### The watchdog of an engine (R405, R406) -/

/-- A command as the abort of an engine leaves it. -/
def InFlight.aborted (tile engine : Nat) (f : InFlight) : InFlight :=
  if f.heldIn tile engine then { f with status := 0x85, executed := true, acksDue := 0, sigDone := true } else f

/-- A command that was aborted is held no more. -/
theorem InFlight.aborted_aborted (tile engine : Nat) (f : InFlight) : (f.aborted tile engine).aborted tile engine = f.aborted tile engine := by
  by_cases h : f.heldIn tile engine = true
  · have h' : (f.aborted tile engine).heldIn tile engine = false := by
      rw [InFlight.aborted, if_pos h]
      simp [InFlight.heldIn]
    exact if_neg (by simp [h'])
  · have h' : f.aborted tile engine = f := if_neg h
    rw [h', h']

/-- A queue that is named more than once in a list is changed as if it were named once, when the change does nothing a second time. -/
theorem State.foldl_mapInflight (g : InFlight → InFlight) (hg : ∀ f, g (g f) = g f) (l : List QueueAlloc) (s : State) (q : Nat) :
    ((l.foldl (fun acc a => acc.updQueue a.queue (fun x => { x with inflight := x.inflight.map g })) s).queue q).inflight =
      if q ∈ l.map (·.queue) then (s.queue q).inflight.map g else (s.queue q).inflight := by
  induction l generalizing s with
  | nil => rfl
  | cons a l ih =>
    have hgg : ∀ fs : List InFlight, (fs.map g).map g = fs.map g := fun fs => by
      rw [List.map_map]
      exact List.map_congr_left fun f _ => hg f
    rw [List.foldl_cons, ih, State.updQueue_queue]
    by_cases ha : q = a.queue
    · subst ha
      simp [hgg]
    · simp [ha]

/-- A recall takes messages from tiles and changes nothing else of them. -/
theorem State.recallMessages_tile (cmds : List (Nat × Nat)) (l : List Nat) (s : State) (y : Nat) :
    (s.recallMessages cmds l).tile y = { s.tile y with msgs := ((s.recallMessages cmds l).tile y).msgs } := by
  induction l generalizing s with
  | nil => rfl
  | cons t l ih =>
    rw [State.recallMessages, ih, State.updTile_tile]
    split
    · next h => rw [h]
    · rfl

@[simp] theorem State.recallMessages_link (cmds : List (Nat × Nat)) (l : List Nat) (s : State) : (s.recallMessages cmds l).link = s.link := by
  induction l generalizing s with
  | nil => rfl
  | cons t l ih => rw [State.recallMessages, ih, State.updTile_link]

/-- The state in which an engine's commands have ended and what they had under way is recalled, before the abort is counted. -/
def State.abortCommands (s : State) (tile engine : Nat) : State :=
  (s.liveAllocs.foldl (fun acc a => acc.updQueue a.queue (fun x => { x with inflight := x.inflight.map (InFlight.aborted tile engine) }))
    s).recallMessages (s.queues.flatMap fun e => (e.2.inflight.filter (·.heldIn tile engine)).map fun f => (e.1, f.pos.toNat))
    (List.range s.part.tiles)

theorem State.abortEngine_eq (s : State) (tile engine : Nat) : s.abortEngine tile engine =
    ((s.abortCommands tile engine).updTile tile (fun x => { x with
      aborts := satInc x.aborts, kindBad := x.kindBad.filter (· != engine), shadow := if engine = 0 then [] else x.shadow })).raiseDie
      (dieOfTile tile) 201 tile 0x85 := rfl

theorem State.abortCommands_inflight {s : State} {a : QueueAlloc} (h : a ∈ s.liveAllocs) (tile engine : Nat) :
    ((s.abortCommands tile engine).queue a.queue).inflight = (s.queue a.queue).inflight.map (InFlight.aborted tile engine) := by
  rw [State.abortCommands, State.queue, State.recallMessages_queues]
  refine (State.foldl_mapInflight _ (InFlight.aborted_aborted tile engine) s.liveAllocs s a.queue).trans (if_pos ?_)
  exact List.mem_map_of_mem h

theorem State.abortCommands_aborts (s : State) (tile engine y : Nat) : ((s.abortCommands tile engine).tile y).aborts = (s.tile y).aborts := by
  rw [State.abortCommands, State.recallMessages_tile]
  exact List.foldlRecOn (motive := fun t : State => (t.tile y).aborts = (s.tile y).aborts) _ _ rfl fun t ht _ _ => ht

theorem State.abortCommands_link (s : State) (tile engine : Nat) : (s.abortCommands tile engine).link = s.link := by
  rw [State.abortCommands, State.recallMessages_link]
  exact List.foldlRecOn (motive := fun t : State => t.link = s.link) _ _ rfl fun t ht _ _ => ht

/-- What the abort of an engine does: its commands end with 0x85, its Kindling is discarded, and SEV-201 is raised. -/
theorem State.abortEngine_spec (s : State) (tile engine : Nat) :
    let t := s.abortEngine tile engine
    (t.tile tile).aborts = satInc (s.tile tile).aborts ∧ engine ∉ (t.tile tile).kindBad ∧ (engine = 0 → (t.tile tile).shadow = []) ∧
      s.raisedTo t [(201, tile, 0x85)] ∧ t.mem = s.mem ∧
      ∀ a ∈ s.liveAllocs, (t.queue a.queue).inflight = (s.queue a.queue).inflight.map (InFlight.aborted tile engine) := by
  refine ⟨?_, ?_, fun h => ?_, ?_, State.abortEngine_mem _ _ _, fun a ha => ?_⟩ <;> rw [State.abortEngine_eq]
  · rw [State.raiseDie_tile, State.updTile_tile_self, State.abortCommands_aborts]
  · rw [State.raiseDie_tile, State.updTile_tile_self]
    simp
  · rw [State.raiseDie_tile, State.updTile_tile_self, h]
    rfl
  · refine State.raisedTo_of_events (State.raisedTo_raiseDie _ _ _ _ _) ?_ rfl
    rw [State.updTile_link, State.abortCommands_link]
  · rw [State.raiseDie_queue, State.updTile_queue, State.abortCommands_inflight ha]

theorem State.engineWatchdog_held {s : State} {q : Nat} {f : InFlight} {e : Nat}
    (hf : (s.queue q).inflight.find? (fun x => !x.executed || x.acksDue != 0) = some f) (he : f.engine = some e) (cycles : Nat) :
    s.engineWatchdog q cycles = if watchdogLimit (s.tile f.tile) f < cycles then s.abortEngine f.tile e else s := by
  simp only [State.engineWatchdog, hf, he]

/-! ### The wait of a head command (R407) -/

theorem execLongWait_due {s : State} {q : Nat} {a : QueueAlloc} {since : Instant} (ha : s.alloc q = some a) (hd : a.doorbellOnly = false)
    (hw : (s.queue q).wait = true) (hs : (s.queue q).waitSince = some since) (hlate : since + nsInst (2 * s.frameNs) < s.mono)
    (hl : (s.queue q).longRaised = false) : exec (.longWait q) s =
      .next ((s.updQueue q (fun y => { y with longRaised := true })).raise 220 (tileOfQueue q) 0) := by
  change execLongWait q s = _
  unfold execLongWait
  simp only [ha, hs, hw, hd, hl, hlate]
  rfl

/-- Settles O48: each event is followed to the fence, the abort or the event that it causes. -/
theorem hangsFenceUnits : Obligations.HangsFenceUnits := by
  unfold Obligations.HangsFenceUnits
  refine ⟨?watchdog, ?hangs, ?link, ?longWait⟩
  case watchdog =>
    intro s q cycles f e hf he
    have hexec : exec (.engineWatchdog q cycles) s = .next (s.engineWatchdog q cycles.toNat) := rfl
    rw [hexec, State.engineWatchdog_held hf he]
    constructor
    · intro hlate
      rw [if_pos hlate]
      exact ⟨_, rfl, s.abortEngine_spec f.tile e⟩
    · intro hearly
      rw [if_neg (Nat.not_lt.mpr hearly)]
  case hangs =>
    intro s hangs hung
    refine ⟨?poll, fun d n hs => ?_, ?cluster, ?region, ?die⟩
    case poll =>
      rintro d n hd hn ⟨hs, hr, hh, hsus, hf⟩
      have hexec : exec (.tilePoll d n false) s = .next ((s.hang .slot (d * 20 + n) 202).updBeat (fun b => { b with
          invalidBefore := if s.started then max b.invalidBefore (b.frame + 1) else b.invalidBefore })) := by
        refine congrArg Host.Outcome.next ((if_neg (by simp [hd, hn])).trans ?_)
        rw [State.settle_of_none hsus]
        refine if_pos ?_
        rw [show (s.slot (d * 20 + n)).u.state = .inService from hs]
        rfl
      exact ⟨_, hexec, State.hang_hung hs hr hh hf 202⟩
    case cluster =>
      rintro u hu ⟨hs, hr, hh, -, hf⟩
      exact ⟨_, congrArg Host.Outcome.next (if_pos hu), State.hang_hung hs hr hh hf 203⟩
    case region =>
      rintro u hu ⟨hs, hr, hh, -, hf⟩
      have hhung := State.hang_hung hs hr hh hf 204
      exact ⟨_, _, congrArg Host.Outcome.next (if_pos hu), hhung, congrArg Host.Outcome.next (if_pos hu), hhung⟩
    case die =>
      rintro u hu ⟨hs, hr, hh, -, hf⟩
      have hhung := State.hang_hung hs hr hh hf 206
      exact ⟨_, _, _, congrArg Host.Outcome.next (if_pos hu), hhung, congrArg Host.Outcome.next (if_pos hu), hhung,
        congrArg Host.Outcome.next (if_pos hu), hhung⟩
    · refine congrArg Host.Outcome.next ((if_pos (Or.inl rfl)).trans (State.settle_of_none hs))
  case link =>
    intro s l ring hl d
    have hexec : ∀ fails : Bool, exec (.linkTimeout l ring fails) s = .next (if fails then s.linkStillFails d else s.suspectUnit .die d 207) :=
      fun fails => congrArg Host.Outcome.next (if_neg (Nat.not_le.mpr hl))
    refine ⟨fun hs => ?_, fun hs => ?_⟩
    · obtain ⟨hst, hcause, hreset, -, -⟩ := State.suspectUnit_unit_fields (s := s) (k := .die) (u := d) hs rfl rfl 207
      exact ⟨_, hexec false, hst, hcause, hreset⟩
    · have hraised : s.raisedTo (s.linkStillFails d) [(207, d, 0)] := by
        rw [State.linkStillFails_recovering hs]
        refine State.raisedTo_of_events (State.raisedTo_raiseDie _ _ _ _ _) ?_ rfl
        rw [State.updUnit_link, State.setUnit_link]
      have hunit : (s.linkStillFails d).unit .die d = { s.unit .die d with
          state := .suspect, hostView := .suspect, pregusView := .suspect, cause := 207, resetReq := false } := by
        rw [State.linkStillFails_recovering hs, State.unit_of_standing (State.raiseDie_standing _ _ _ _ _), State.updUnit_unit_self,
          State.setUnit, State.updUnit_unit_self]
      exact ⟨_, hexec true, congrArg UnitSt.state hunit, congrArg UnitSt.cause hunit, congrArg UnitSt.resetReq hunit, hraised⟩
  case longWait =>
    intro s q a since ha hd hw hs hlate hl
    refine ⟨_, execLongWait_due ha hd hw hs hlate hl, ?_, ?_, fun p hp => ?_⟩
    · rw [State.raise_queue, State.updQueue_queue_self]
    · refine State.raisedTo_of_events (State.raisedTo_raise _ _ _ _) ?_ rfl
      rw [State.updQueue_link]
    · rw [State.raise_queue, State.updQueue_queue_ne _ _ _ _ hp]

end Sys2Proof.Machine
end

section
/-! PROOFS of the family of 04_memory.md: the requests of DIE_RECOV_CTRL and the steps from a fence to the return (R404, R409, R411,
R414, R416, R417, R424, R428). -/

namespace Sys2Proof.Machine

/-! ### The register side of a request (R404) -/

theorem dieOfUnit_mul_add {k : UnitKind} {loc : Nat} (h : loc < unitsPerDie k) (d : Nat) : dieOfUnit k (d * unitsPerDie k + loc) = d := by
  rw [dieOfUnit, Nat.mul_comm, Nat.mul_add_div (by omega), Nat.div_eq_of_lt h, Nat.add_zero]

@[simp] theorem State.recovWrite_standing (s : State) (d op : Nat) (k : UnitKind) (loc : Nat) :
    (s.recovWrite d op k loc).standing = s.standing :=
  State.standing_of_aside (s.updDie_aside _ _ fun _ => ⟨rfl, rfl⟩)

@[simp] theorem State.recovStatus_standing (s : State) (d status : Nat) : (s.recovStatus d status).standing = s.standing :=
  State.standing_of_aside (s.updDie_aside _ _ fun _ => ⟨rfl, rfl⟩)

theorem State.recovStatus_recovLast (s : State) (d status : Nat) : ((s.recovStatus d status).die d).recovLast = BitVec.ofNat 8 status := by
  rw [State.recovStatus, State.updDie_die_self]

/-- An update of a die that keeps a part of it keeps that part of every die. -/
theorem State.updDie_die_part {α : Type} (part : DieSt → α) (s : State) (d : Nat) (f : DieSt → DieSt) (d' : Nat)
    (h : ∀ x, part (f x) = part x) : part ((s.updDie d f).die d') = part (s.die d') := by
  rw [State.updDie_die]
  split
  · next hd => rw [h, hd]
  · rfl

theorem State.recovWrite_fences (s : State) (d op : Nat) (k : UnitKind) (loc d' : Nat) :
    ((s.recovWrite d op k loc).die d').fences = (s.die d').fences := s.updDie_die_part DieSt.fences _ _ _ fun _ => rfl

theorem State.recovStatus_fences (s : State) (d status d' : Nat) : ((s.recovStatus d status).die d').fences = (s.die d').fences :=
  s.updDie_die_part DieSt.fences _ _ _ fun _ => rfl

theorem State.updUnit_fences (s : State) (k : UnitKind) (u : Nat) (f : UnitSt → UnitSt) (d : Nat) :
    ((s.updUnit k u f).die d).fences = (s.die d).fences := by
  cases k
  case die => exact s.updDie_die_part DieSt.fences _ _ _ fun _ => rfl
  all_goals rfl

/-- A request for a unit that the level has: the register is written, the request acts, and its status answers. -/
theorem State.request_eq {d loc : Nat} {k : UnitKind} (hd : d < 4) (hloc : loc < unitsPerDie k) (s : State) (op : Nat)
    (f : State → Nat → State × Nat) : s.request d op k loc f =
      (f (s.recovWrite d op k loc) (d * unitsPerDie k + loc)).1.recovStatus d (f (s.recovWrite d op k loc) (d * unitsPerDie k + loc)).2 := by
  rw [State.request, if_neg (Nat.not_le.mpr hd)]
  exact if_neg (Nat.not_le.mpr hloc)

/-! ### Refusals (R411, R412, R423) -/

theorem State.unitRefusal_of_standing {s t : State} (h : t.standing = s.standing) (k : UnitKind) (u : Nat) :
    t.unitRefusal k u = s.unitRefusal k u := by
  simp only [State.unitRefusal, State.unit_of_standing h, State.underRecovery_of_standing h, State.recoveryHeld_of_standing h]

/-- A unit that is not absent, and whose recovery nothing takes over or holds back, takes requests. -/
theorem State.unitRefusal_eq_zero {s : State} {k : UnitKind} {u : Nat} (hs : (s.unit k u).state ≠ .off) (hr : s.underRecovery k u = false)
    (hh : s.recoveryHeld k u = false) : s.unitRefusal k u = 0 := by
  simp [State.unitRefusal, hs, hr, hh]

theorem State.recovWrite_fenceRefusal (s : State) (d op : Nat) (k : UnitKind) (loc : Nat) (k' : UnitKind) (u b : Nat) :
    (s.recovWrite d op k loc).fenceRefusal k' u b = s.fenceRefusal k' u b := by
  have h := s.recovWrite_standing d op k loc
  unfold State.fenceRefusal
  rw [State.unitRefusal_of_standing h, State.unit_of_standing h]
  rfl

/-! ### Planned fences (R409) -/

theorem State.refreshMissing_die (s : State) (d : Nat) : s.refreshMissing.die d = s.die d := by
  unfold State.refreshMissing
  dsimp only
  split
  · rw [State.raise_die, State.updBeat_die]
  · rw [State.updBeat_die]

theorem drainNs_eq (k : UnitKind) : drainNs k = if k = .die then 1000000 else 100000 := by cases k <;> rfl

theorem State.planFence_unit_state (s : State) (k : UnitKind) (u : Nat) (p : FencePurpose) :
    ((s.planFence k u p).unit k u).state = .fencing := by
  have hstand : (s.planFence k u p).standing = (s.openFence k u 0 .fencing).standing :=
    (State.refreshMissing_standing _).trans (State.standing_of_aside (State.updDie_aside _ _ _ fun _ => ⟨rfl, rfl⟩))
  rw [State.unit_of_standing hstand]
  exact (s.openFence_unit_fields k u 0 .fencing).1

theorem State.planFence_fences (s : State) (k : UnitKind) (u : Nat) (p : FencePurpose) :
    { kind := k, unit := u, drainUntil := s.mono + nsInst (drainNs k), purpose := p } ∈ ((s.planFence k u p).die (dieOfUnit k u)).fences := by
  unfold State.planFence
  dsimp only
  rw [State.refreshMissing_die, State.updDie_die_self]
  exact List.mem_append_right _ (List.mem_singleton_self _)

/-- FENCE and BIST of a unit that may be fenced, and of one that may not. -/
theorem State.request_fence {d loc : Nat} {k : UnitKind} (hd : d < 4) (hloc : loc < unitsPerDie k) (s : State) (op : Nat) (p : FencePurpose) :
    let u := d * unitsPerDie k + loc
    let t := s.request d op k loc fun s u => s.fenceRequest k p 0 u
    (s.fenceRefusal k u 0 = 0 → (t.unit k u).state = .fencing ∧ (t.die d).recovLast = 0 ∧
      { kind := k, unit := u, drainUntil := s.mono + nsInst (if k = .die then 1000000 else 100000), purpose := p } ∈ (t.die d).fences) ∧
    (s.fenceRefusal k u 0 ≠ 0 → t.unit k u = s.unit k u ∧ (t.die d).recovLast = BitVec.ofNat 8 (s.fenceRefusal k u 0) ∧
      (t.die d).fences = (s.die d).fences) := by
  dsimp only
  have hstand := s.recovWrite_standing d op k loc
  rw [State.request_eq hd hloc, State.fenceRequest, State.recovWrite_fenceRefusal]
  refine ⟨fun h0 => ?_, fun h0 => ?_⟩
  · rw [if_neg (not_not.mpr h0), State.unit_of_standing (State.recovStatus_standing _ _ _), State.recovStatus_fences]
    refine ⟨State.planFence_unit_state _ _ _ _, State.recovStatus_recovLast _ _ _, ?_⟩
    have h := State.planFence_fences (s.recovWrite d op k loc) k (d * unitsPerDie k + loc) p
    rwa [dieOfUnit_mul_add hloc, State.mono_of_standing hstand, drainNs_eq] at h
  · rw [if_pos h0, State.unit_of_standing (State.recovStatus_standing _ _ _), State.unit_of_standing hstand, State.recovStatus_fences,
      State.recovWrite_fences]
    exact ⟨rfl, State.recovStatus_recovLast _ _ _, rfl⟩

/-- The end of the drain of a fence for repair. -/
theorem State.drainEnd_repair (s : State) (d : Nat) {f : FenceReq} (h : f.purpose = .repair) :
    ((s.drainEnd d f).unit f.kind f.unit).state = .fenced ∧ f ∉ ((s.drainEnd d f).die d).fences := by
  unfold State.drainEnd
  rw [h]
  dsimp only
  refine ⟨by rw [State.setUnit, State.updUnit_unit_self], ?_⟩
  rw [State.setUnit, State.updUnit_fences, State.updDie_die_self]
  simp

/-! ### RESET (R412, R414, R504) -/

theorem State.recovWrite_restartRefused (s : State) (d op : Nat) (k : UnitKind) (loc d' : Nat) :
    (s.recovWrite d op k loc).restartRefused d' = s.restartRefused d' := by
  have hoff : ((s.recovWrite d op k loc).die d').tripOff = (s.die d').tripOff :=
    s.updDie_die_part DieSt.tripOff _ _ _ fun _ => rfl
  have htrips : ((s.recovWrite d op k loc).die d').trips = (s.die d').trips := s.updDie_die_part DieSt.trips _ _ _ fun _ => rfl
  rw [State.restartRefused, hoff, htrips]
  rfl

/-- A unit that is fenced or suspect takes the request for its dump and reset. -/
theorem State.resetRequest_takes {s : State} {k : UnitKind} {u : Nat} (hs : (s.unit k u).state = .fenced ∨ (s.unit k u).state = .suspect)
    (h0 : s.unitRefusal k u = 0) (hd : ¬(k = .die ∧ s.restartRefused u = true)) :
    s.resetRequest k u = (s.updUnit k u (fun x => { x with resetReq := true }), 0) := by
  have hst : ¬((s.unit k u).state ≠ .fenced ∧ (s.unit k u).state ≠ .suspect) := by tauto
  unfold State.resetRequest
  dsimp only
  rw [if_neg (not_not.mpr h0), if_neg hst, if_neg hd]

/-! ### RETURN (R417) -/

/-- Before the start a unit that is ready is in service at once. -/
theorem State.readyUnit_not_started {s : State} (h : s.started = false) (k : UnitKind) (u : Nat) :
    ((s.readyUnit k u).unit k u).state = .inService := by
  rw [State.readyUnit, h]
  simp only [Bool.not_false, if_true, State.bringIn]
  rw [State.unit_of_standing (State.refreshMissing_standing _), State.unit_of_standing (State.raiseDie_standing _ _ _ _ _),
    State.updUnit_unit_self, State.setUnit, State.updUnit_unit_self]

/-- After the start a unit that is ready waits for the first frame boundary at least two beats from now. -/
theorem State.readyUnit_started {s : State} (h : s.started = true) (k : UnitKind) (u : Nat) :
    (s.readyUnit k u).unit k u =
      { s.unit k u with stage := .ready, readyBeat := ceilDiv (s.now - s.t0).toNat (nsInst s.beatNs) + 2 } := by
  rw [State.readyUnit, h]
  simp only [Bool.not_true, Bool.false_eq_true, if_false]
  rw [State.updUnit_unit_self]

theorem State.recovWrite_unitSums (s : State) (d op : Nat) (k : UnitKind) (loc : Nat) (k' : UnitKind) (u : Nat) :
    (s.recovWrite d op k loc).unitSums k' u = s.unitSums k' u := by cases k' <;> rfl

/-- A unit whose restore runs takes the RETURN. -/
theorem State.returnUnit_takes {s : State} {k : UnitKind} {u : Nat} (hs : (s.unit k u).state = .testing)
    (hstage : (s.unit k u).stage = .restore) (h0 : s.unitRefusal k u = 0) :
    s.returnUnit k u = if s.unitSums k u = [] then (s.readyUnit k u, 0)
      else (s.updUnit k u (fun y => { y with stage := .checks, sumsDone := [] }), 0) := by
  unfold State.returnUnit
  dsimp only
  rw [if_neg (not_not.mpr h0), if_neg (by simp [hs, hstage])]

/-! ### DUMP_WRITE: what a reset clears (R414, R416) -/

theorem State.units_of_standing {s t : State} (h : t.standing = s.standing) : t.unit = s.unit := congrArg Standing.unit h

theorem foldl_unit {α : Type} (g : State → α → State) (l : List α) (s : State) (h : ∀ s x, (g s x).unit = s.unit) :
    (l.foldl g s).unit = s.unit :=
  List.foldlRecOn (motive := fun t : State => t.unit = s.unit) l g rfl fun t ht x _ => (h t x).trans ht

/-- The recovery states of a state that is built of the same slots, clusters, regions and dies. -/
theorem State.unit_congr {s t : State} (hs : ∀ p, (t.slot p).u = (s.slot p).u) (hc : t.cluUnits = s.cluUnits) (hr : t.rgnUnits = s.rgnUnits)
    (hd : ∀ d, (t.die d).u = (s.die d).u) : t.unit = s.unit := by
  funext k u
  cases k
  case slot => exact hs u
  case cluster => exact congrArg (SMap.get {} · u) hc
  case region => exact congrArg (SMap.get {} · u) hr
  case die => exact hd u

/-- An update of a slot that keeps its recovery state. -/
theorem State.updSlot_unit (s : State) (p : Nat) (f : SlotSt → SlotSt) (h : ∀ x, (f x).u = x.u) : (s.updSlot p f).unit = s.unit := by
  refine State.unit_congr (fun y => ?_) rfl rfl fun _ => rfl
  rw [State.updSlot_slot]
  split
  · next hy => rw [h, hy]
  · rfl

/-- An update of a die that keeps its recovery state. -/
theorem State.updDie_unit (s : State) (d : Nat) (f : DieSt → DieSt) (h : ∀ x, (f x).u = x.u) : (s.updDie d f).unit = s.unit :=
  State.unit_congr (fun _ => rfl) rfl rfl fun _ => s.updDie_die_part DieSt.u _ _ _ h

theorem State.clearTile_unit (s : State) (t : Nat) : (s.clearTile t).unit = s.unit := by
  refine (foldl_unit _ _ _ fun v a => ?_).trans rfl
  split <;> rfl

theorem State.loadRepair_unit (s : State) (p : Nat) : (s.loadRepair p).unit = s.unit := s.updSlot_unit _ _ fun _ => rfl

theorem State.clearCluster_unit (s : State) (c : Nat) : (s.clearCluster c).unit = s.unit := (rfl)
theorem State.updRegion_unit (s : State) (g : Nat) (f : RegionSt → RegionSt) : (s.updRegion g f).unit = s.unit := (rfl)
theorem State.updChan_unit (s : State) (c : Nat) (f : ChanSt → ChanSt) : (s.updChan c f).unit = s.unit := (rfl)
theorem State.updPipe_unit (s : State) (p : Nat) (f : PipeSt → PipeSt) : (s.updPipe p f).unit = s.unit := (rfl)
theorem State.updFacet_unit (s : State) (i : Nat) (f : FctxSt → FctxSt) : (s.updFacet i f).unit = s.unit := (rfl)
theorem State.updCam_unit (s : State) (c : Nat) (f : CamSt → CamSt) : (s.updCam c f).unit = s.unit := (rfl)
theorem State.failInFlight_unit (s : State) (q pos status : Nat) : (s.failInFlight q pos status).unit = s.unit := (rfl)

theorem State.loseOutstanding_unit (p : Nat) (l : List (Nat × Nat × Nat)) (s : State) : (s.loseOutstanding p l).unit = s.unit := by
  induction l generalizing s with
  | nil => rfl
  | cons r l ih =>
    rw [State.loseOutstanding, ih, State.lostRequest, State.units_of_standing (State.raise_standing _ _ _ _), State.failInFlight_unit]

/-- The parts of a die that its own reset clears hold none of its recovery state. -/
theorem State.clearDie_unit (s : State) (d : Nat) : (s.clearDie d).unit = s.unit := by
  have hfields : ∀ (v : State) (dirty : SMap Bool), ({ v with peatDirty := dirty } : State).unit = v.unit := fun _ _ => rfl
  have hzero : ∀ (v : State) (a n : Nat), (v.zeroRange a n).unit = v.unit := fun _ _ _ => rfl
  unfold State.clearDie
  dsimp only
  rw [State.loseOutstanding_unit, foldl_unit (h := ?slots), foldl_unit (h := ?cams), foldl_unit (h := ?facets), foldl_unit (h := ?pipes),
    foldl_unit (h := ?chans), hfields, hzero, State.updDie_unit (h := ?die)]
  case slots => exact fun v _ => v.updSlot_unit _ _ fun _ => rfl
  case cams =>
    intro v b
    split
    · exact v.updCam_unit _ _
    · rfl
  case facets => exact fun v _ => v.updFacet_unit _ _
  case pipes => exact fun v _ => v.updPipe_unit _ _
  case chans => exact fun v _ => v.updChan_unit _ _
  case die => exact fun _ => rfl

/-- A reset clears its unit, and neither the recovery state of this unit nor that of another. -/
theorem State.clearUnit_unit (s : State) (k : UnitKind) (u : Nat) : (s.clearUnit k u).unit = s.unit := by
  have htiles : ∀ ts ps : List Nat, (ps.foldl State.loadRepair (ts.foldl State.clearTile s)).unit = s.unit := fun ts ps => by
    rw [foldl_unit _ _ _ State.loadRepair_unit, foldl_unit _ _ _ State.clearTile_unit]
  cases k <;> unfold State.clearUnit <;> dsimp only
  case slot => exact htiles _ _
  case cluster => rw [State.clearCluster_unit, htiles]
  case region => rw [State.updRegion_unit, State.clearCluster_unit, State.clearCluster_unit, htiles]
  case die =>
    rw [State.clearDie_unit, State.updRegion_unit, State.updRegion_unit, foldl_unit _ _ _ fun v i => v.clearCluster_unit _, htiles]

theorem State.powerForReset_unit (s : State) (k : UnitKind) (u : Nat) : (s.powerForReset k u).unit = s.unit := by
  unfold State.powerForReset
  split
  · split
    · rfl
    · exact s.updDie_unit _ _ fun _ => rfl
  · rfl

/-- The unit whose dump is due is resetting after the dump, and its tests are next. -/
theorem State.dumpWrite_unit {s : State} {d : Nat} {k : UnitKind} {u : Nat} (h : s.dumpDue d = some (k, u)) (ts cs : List Nat) :
    let x := (s.dumpWrite d ts cs).unit k u
    x.state = .resetting ∧ x.resetReq = false ∧ x.stage = .tests := by
  unfold State.dumpWrite
  rw [h]
  dsimp only
  rw [State.powerForReset_unit, State.clearUnit_unit, State.updUnit_unit_self, State.setUnit, State.updUnit_unit_self]
  exact ⟨rfl, rfl, rfl⟩

/-! ### RESET_COMPLETE (R134, R375, R417) -/

/-- The zero-fill of a unit's tiles leaves no byte of them listed. -/
theorem State.zeroTiles_absent {t x : Nat} (hx : x < tileSize) (ts : List Nat) (s : State)
    (h : t ∈ ts ∨ ∀ v, (t * tileSize + x, v) ∉ s.mem) (v : Byte) : (t * tileSize + x, v) ∉ (s.zeroTiles ts).mem := by
  induction ts generalizing s with
  | nil => exact h.resolve_left List.not_mem_nil v
  | cons y ts ih =>
    refine ih _ ?_
    by_cases hy : t = y
    · refine .inr fun w hw => ?_
      have hkept := List.of_mem_filter (p := fun e : Nat × Byte => !decide (y * tileSize ≤ e.1 ∧ e.1 < y * tileSize + tileSize)) hw
      simp [hy, hx] at hkept
    · rcases h with h | h
      · exact .inl (List.mem_of_ne_of_mem hy h)
      · exact .inr fun w hw => h w (List.mem_of_mem_filter hw)

theorem State.zeroTiles_byteAt (s : State) {ts : List Nat} {t x : Nat} (ht : t ∈ ts) (hx : x < tileSize) :
    (s.zeroTiles ts).byteAt (t * tileSize + x) = 0 :=
  SMap.get_of_absent 0 (State.zeroTiles_absent hx ts s (.inl ht))

@[simp] theorem State.zeroTiles_standing (s : State) (ts : List Nat) : (s.zeroTiles ts).standing = s.standing :=
  foldl_standing _ _ _ fun _ _ => rfl

/-- The one element of a list that satisfies a predicate is the one that is found. -/
theorem find?_eq_some_of_unique {α : Type} {l : List α} {p : α → Bool} {x : α} (hx : x ∈ l) (hp : p x = true)
    (huniq : ∀ y ∈ l, p y = true → y = x) : l.find? p = some x := by
  cases hfind : l.find? p with
  | none => exact absurd hp (List.find?_eq_none.mp hfind x hx)
  | some y => rw [huniq y (List.mem_of_find?_eq_some hfind) (List.find?_some hfind)]

/-- The units of a die in the order in which RESET_COMPLETE looks for the one that is resetting. -/
def resetOrder (d : Nat) : List (UnitKind × Nat) :=
  (UnitKind.die, d) :: ([(UnitKind.region, 2 * d), (UnitKind.region, 2 * d + 1)] ++
    ((List.range 4).map fun i => (UnitKind.cluster, 4 * d + i)) ++ ((List.range 20).map fun i => (UnitKind.slot, 20 * d + i)))

theorem mem_resetOrder {d : Nat} {e : UnitKind × Nat} : e ∈ resetOrder d ↔ e ∈ (UnitKind.die, d) :: enclosed .die d := by
  simp only [resetOrder, enclosed, List.mem_cons, List.mem_append, List.not_mem_nil, or_false, Nat.mul_comm]
  tauto

/-- RESET_COMPLETE where one unit of the die alone is resetting, and the die, where it is the unit, has power. -/
theorem execResetComplete_unit {s : State} {d : Nat} {k : UnitKind} {u : Nat} (hmem : (k, u) ∈ (UnitKind.die, d) :: enclosed .die d)
    (hs : (s.unit k u).state = .resetting)
    (huniq : ∀ e ∈ (UnitKind.die, d) :: enclosed .die d, (s.unit e.1 e.2).state = .resetting → e = (k, u))
    (hpower : k = .die → (s.die d).pgood = true) (found : List (Nat × BistFault)) (ok : Bool) :
    exec (.resetComplete d found ok) s = .next (s.resetComplete k u found ok) := by
  have hfind : (resetOrder d).find? (fun e => (s.unit e.1 e.2).state == .resetting) = some (k, u) :=
    find?_eq_some_of_unique (mem_resetOrder.mpr hmem) (by simp [hs]) fun e he h => huniq e (mem_resetOrder.mp he) (by simpa using h)
  change execResetComplete d found ok s = _
  unfold execResetComplete
  rw [resetOrder] at hfind
  dsimp only
  rw [hfind]
  exact congrArg Host.Outcome.next (if_neg fun ⟨hk, hp⟩ => by simp [hpower hk] at hp)

theorem dieOfUnit_of_mem {d : Nat} {k : UnitKind} {u : Nat} (h : (k, u) ∈ (UnitKind.die, d) :: enclosed .die d) : dieOfUnit k u = d := by
  simp only [enclosed, List.mem_cons, List.mem_append, List.mem_map, List.mem_range, Prod.mk.injEq, List.not_mem_nil, or_false] at h
  rcases h with ⟨rfl, rfl⟩ | (⟨i, hi, rfl, rfl⟩ | ⟨i, hi, rfl, rfl⟩) | ⟨rfl, rfl⟩ | ⟨rfl, rfl⟩ <;> simp only [dieOfUnit, unitsPerDie] <;> omega

/-- A unit whose tests begin: the state in which RESET_COMPLETE runs the BIST. -/
def State.testsBegin (s : State) (k : UnitKind) (u : Nat) : State :=
  (s.setUnit k u .testing).updUnit k u (fun x => { x with stage := .tests })

theorem State.testsBegin_unit_self (s : State) (k : UnitKind) (u : Nat) : (s.testsBegin k u).unit k u =
    { s.unit k u with state := .testing, hostView := .testing, pregusView := .testing, stage := .tests } := by
  rw [State.testsBegin, State.updUnit_unit_self, State.setUnit, State.updUnit_unit_self]

theorem State.testsBegin_unit_ne (s : State) {k k' : UnitKind} {u u' : Nat} (h : (k', u') ≠ (k, u)) :
    (s.testsBegin k u).unit k' u' = s.unit k' u' := by
  rw [State.testsBegin, State.updUnit_unit_ne _ _ h, State.setUnit, State.updUnit_unit_ne _ _ h]

theorem State.testsBegin_unitTiles (s : State) (k : UnitKind) (u : Nat) (k' : UnitKind) (u' : Nat) :
    (s.testsBegin k u).unitTiles k' u' = s.unitTiles k' u' := by
  cases k <;> cases k' <;> rfl

/-- A change of recovery states keeps what a slot's entry test looks at. -/
theorem State.updUnit_slot_part {α : Type} (part : SlotSt → α) (s : State) (k : UnitKind) (u : Nat) (f : UnitSt → UnitSt) (p : Nat)
    (h : ∀ x y, part { x with u := y } = part x) : part ((s.updUnit k u f).slot p) = part (s.slot p) := by
  cases k
  case slot =>
    rw [State.updUnit, State.updSlot_slot]
    split
    · next hp => rw [h, hp]
    · rfl
  all_goals rfl

theorem State.testsBegin_entryTestPasses (s : State) (k : UnitKind) (u p : Nat) :
    (s.testsBegin k u).entryTestPasses p = s.entryTestPasses p := by
  have hpart : ∀ {α : Type} (part : SlotSt → α), (∀ x y, part { x with u := y } = part x) →
      part ((s.testsBegin k u).slot p) = part (s.slot p) := fun part h => by
    rw [State.testsBegin, State.updUnit_slot_part part _ _ _ _ _ h, State.setUnit, State.updUnit_slot_part part _ _ _ _ _ h]
  rw [State.entryTestPasses, State.entryTestPasses, hpart SlotSt.repair fun _ _ => rfl, hpart SlotSt.colErr fun _ _ => rfl]

/-- The beginning of the tests changes no outcome of the entry tests. -/
theorem State.testsBegin_unitPasses {s : State} {k : UnitKind} {u : Nat} (h : (s.unit k u).state = .resetting) :
    (s.testsBegin k u).unitPasses k u = s.unitPasses k u := by
  have hgone : ∀ p, ((s.testsBegin k u).slot p).u.state.gone = (s.slot p).u.state.gone := fun p => by
    change ((s.testsBegin k u).unit .slot p).state.gone = (s.unit .slot p).state.gone
    by_cases hp : (UnitKind.slot, p) = (k, u)
    · obtain ⟨rfl, rfl⟩ := Prod.ext_iff.mp hp
      rw [State.testsBegin_unit_self, h]
      rfl
    · rw [State.testsBegin_unit_ne _ hp]
  simp only [State.unitPasses, hgone, State.testsBegin_entryTestPasses]

/-- RESET_COMPLETE without a located fault. -/
theorem State.resetComplete_eq {s : State} {k : UnitKind} {u : Nat} (h : (s.unit k u).state = .resetting) (ok : Bool) :
    s.resetComplete k u [] ok =
      if ok = false ∨ s.unitPasses k u = false then
        ((s.testsBegin k u).raiseDie (dieOfUnit k u) 16 ((s.testsBegin k u).unitTag k u) 0).failUnit k u
      else if k = .slot ∧ s.unitTiles k u = [] then ((s.testsBegin k u).zeroTiles (s.unitTiles k u)).readyUnit .slot u
      else ((s.testsBegin k u).zeroTiles (s.unitTiles k u)).updUnit k u (fun x => { x with stage := .restore }) := by
  have hgone : ¬((s.testsBegin k u).unit k u).state.gone = true := by
    rw [State.testsBegin_unit_self]
    exact Bool.false_ne_true
  have hbist : (s.testsBegin k u).bistUnit k u [] = s.testsBegin k u := rfl
  unfold State.resetComplete
  rw [← State.testsBegin]
  dsimp only
  rw [hbist, if_neg hgone, State.testsBegin_unitPasses h, State.testsBegin_unitTiles]
  simp only [Bool.not_eq_true']

theorem State.failUnit_unit_state (s : State) (k : UnitKind) (u : Nat) : ((s.failUnit k u).unit k u).state = .suspect := by
  unfold State.failUnit
  rw [State.unit_of_standing (State.raiseDie_standing _ _ _ _ _), State.unit_of_standing (State.recovStatus_standing _ _ _),
    State.updUnit_unit_self, State.setUnit, State.updUnit_unit_self]

theorem State.failUnit_recovLast (s : State) (k : UnitKind) (u : Nat) : ((s.failUnit k u).die (dieOfUnit k u)).recovLast = 0x83 := by
  unfold State.failUnit
  rw [State.raiseDie_die]
  exact State.recovStatus_recovLast _ _ _

/-! ### KILL (R134, R428) -/

/-- A queue of a killed tile: its HEAD is its TAIL, and no command is in flight. -/
def QueueSt.killed (x : QueueSt) : QueueSt :=
  { x with head := x.tail, inflight := [], wait := false, waitSince := none, longRaised := false }

theorem State.foldl_killed_queue (y : Nat) (l : List QueueAlloc) (s : State) (q : Nat) :
    (l.foldl (fun acc a => if tileOfQueue a.queue = y then acc.updQueue a.queue QueueSt.killed else acc) s).queue q =
      if q ∈ l.map (·.queue) ∧ tileOfQueue q = y then (s.queue q).killed else s.queue q := by
  induction l generalizing s with
  | nil => simp
  | cons a l ih =>
    rw [List.foldl_cons, ih]
    by_cases ha : tileOfQueue a.queue = y
    · rw [if_pos ha, State.updQueue_queue]
      by_cases hq : q = a.queue
      · subst hq
        simp [ha, QueueSt.killed]
      · simp [hq]
    · rw [if_neg ha]
      by_cases hq : q = a.queue
      · subst hq
        simp [ha]
      · simp [hq]

/-- A kill empties the queues of its tile that have a QUEUE_ALLOC entry, and no other. -/
theorem State.killQueues_queue (s : State) (y q : Nat) : (s.killQueues y).queue q =
    if q ∈ s.img.queues.map (·.queue) ∧ tileOfQueue q = y then (s.queue q).killed else s.queue q :=
  State.foldl_killed_queue y s.img.queues s q

theorem State.killQueues_standing (s : State) (y : Nat) : (s.killQueues y).standing = s.standing :=
  foldl_standing _ _ _ fun _ _ => by split <;> simp

theorem State.killQueues_tiles_repair (s : State) (y : Nat) : (s.killQueues y).tiles = s.tiles ∧ (s.killQueues y).repair = s.repair :=
  List.foldlRecOn (motive := fun t : State => t.tiles = s.tiles ∧ t.repair = s.repair) _ _ ⟨rfl, rfl⟩ fun t ht _ _ => by split <;> exact ht

/-- From `s` to `t` the tiles of a list have been killed: their slots are suspect, their memories are to be zeroed, and their queues are
empty. What later tiles go by stays. -/
structure State.Killed (s t : State) (ts : List Nat) : Prop where
  slot : ∀ x ∈ ts, (t.slot (s.slotOfTile x)).u.state = .suspect ∧ (t.slot (s.slotOfTile x)).u.cause = 219
  mustZero : ∀ x ∈ ts, (t.tile x).mustZero = true
  emptied : ∀ a ∈ s.img.queues, tileOfQueue a.queue ∈ ts →
    (t.queue a.queue).head = (s.queue a.queue).tail ∧ (t.queue a.queue).inflight = []
  tail : ∀ q, (t.queue q).tail = (s.queue q).tail
  slotOf : t.repair.slotOf = s.repair.slotOf
  image : t.image = s.image

/-- What only answers commands and notes events takes no kill back. -/
theorem State.Killed.answersOnly {s t v : State} {ts : List Nat} (h : s.Killed t ts) (ha : t.AnswersOnly v) (hs : v.standing = t.standing)
    (hi : v.image = t.image) : s.Killed v ts where
  slot x hx := by
    have hunit : (v.slot (s.slotOfTile x)).u = (t.slot (s.slotOfTile x)).u := State.unit_of_standing hs .slot _
    rw [hunit]
    exact h.slot x hx
  mustZero x hx := (ha.mustZero x).trans (h.mustZero x hx)
  emptied a ha' hx := by
    obtain ⟨hhead, hidle⟩ := h.emptied a ha' hx
    exact ⟨(ha.head _).trans hhead, ha.idle _ hidle⟩
  tail q := (ha.tail q).trans (h.tail q)
  slotOf := ha.slotOf.trans h.slotOf
  image := hi.trans h.image

/-- The queues of one more tile. -/
theorem State.Killed.killQueues_emptied {s t : State} {ts : List Nat} (h : s.Killed t ts) (y : Nat) {a : QueueAlloc}
    (ha : a ∈ s.img.queues) (hx : tileOfQueue a.queue ∈ y :: ts) :
    ((t.killQueues y).queue a.queue).head = (s.queue a.queue).tail ∧ ((t.killQueues y).queue a.queue).inflight = [] := by
  have himg : t.img = s.img := by rw [State.img, State.img, h.image]
  have hmem : a.queue ∈ t.img.queues.map (·.queue) := himg ▸ List.mem_map_of_mem ha
  rw [State.killQueues_queue]
  by_cases hy : tileOfQueue a.queue = y
  · rw [if_pos ⟨hmem, hy⟩]
    exact ⟨h.tail _, rfl⟩
  · rw [if_neg fun hc => hy hc.2]
    exact h.emptied a ha (List.mem_of_ne_of_mem hy hx)

theorem State.killQueues_tail (s : State) (y q : Nat) : ((s.killQueues y).queue q).tail = (s.queue q).tail := by
  rw [State.killQueues_queue]
  split <;> rfl

/-- The kill of a tile: its queues are emptied, its slot is fenced, what else runs on it is answered, and its memory is to be zeroed. -/
theorem State.killTile_steps (s : State) (y : Nat) : ∃ w : State, s.killTile y = w.updTile y (fun x => { x with mustZero := true }) ∧
    (s.killQueues y).AnswersOnly w ∧ w.unit = ((s.killQueues y).openFence .slot (s.slotOfTile y) 219 .suspect).unit :=
  ⟨((s.killQueues y).openFence .slot (s.slotOfTile y) 219 .suspect).answerTiles [y] 0x80, rfl,
    (State.openFence_answersOnly _ _ _ _ _).trans (State.answerTiles_answersOnly _ _ _),
    State.units_of_standing (State.answerTiles_standing _ _ _)⟩

/-- One more tile is killed. -/
theorem State.Killed.killTile {s t : State} {ts : List Nat} (h : s.Killed t ts) (y : Nat) : s.Killed (t.killTile y) (y :: ts) := by
  have hslot : t.slotOfTile y = s.slotOfTile y := by rw [State.slotOfTile, State.slotOfTile, h.slotOf]
  have himage := t.killTile_image y
  obtain ⟨htiles, hrepair⟩ := t.killQueues_tiles_repair y
  obtain ⟨w, hw, hfence, hunit⟩ := t.killTile_steps y
  rw [hslot] at hunit
  rw [hw] at himage ⊢
  refine ⟨fun x hx => ?_, fun x hx => ?_, fun a ha hx => ?_, fun q => ?_, ?_, himage.trans h.image⟩
  · change (w.unit .slot (s.slotOfTile x)).state = .suspect ∧ (w.unit .slot (s.slotOfTile x)).cause = 219
    rw [hunit]
    by_cases hp : s.slotOfTile x = s.slotOfTile y
    · rw [hp]
      exact State.openFence_unit_self _ _ _ _ _
    · have hxy : x ≠ y := fun hxy => hp (by rw [hxy])
      have hout : (UnitKind.slot, s.slotOfTile x) ∉ enclosed .slot (s.slotOfTile y) := List.not_mem_nil
      have hne : (UnitKind.slot, s.slotOfTile x) ≠ (.slot, s.slotOfTile y) := fun he => hp (Prod.ext_iff.mp he).2
      rw [State.openFence_unit _ hout hne, State.unit_of_standing (t.killQueues_standing y)]
      exact h.slot x (List.mem_of_ne_of_mem hxy hx)
  · rw [State.updTile_tile]
    split
    · rfl
    · next hxy =>
      rw [hfence.mustZero, State.tile, htiles]
      exact h.mustZero x (List.mem_of_ne_of_mem hxy hx)
  · obtain ⟨hhead, hidle⟩ := h.killQueues_emptied y ha hx
    exact ⟨(hfence.head _).trans hhead, hfence.idle _ hidle⟩
  · exact (hfence.tail q).trans ((t.killQueues_tail y q).trans (h.tail q))
  · exact hfence.slotOf.trans (hrepair ▸ h.slotOf)

theorem State.Killed.killTiles {s t : State} {ts : List Nat} (h : s.Killed t ts) (l : List Nat) :
    s.Killed (l.foldl State.killTile t) (l.reverse ++ ts) := by
  induction l generalizing t ts with
  | nil => exact h
  | cons y l ih =>
    rw [List.foldl_cons, List.reverse_cons, List.append_assoc, List.singleton_append]
    exact ih (h.killTile y)

theorem State.AnswersOnly.dirtyTags (s : State) (peat dram : SMap Bool) :
    s.AnswersOnly { s with peatDirty := peat, dramDirty := dram } := .same (.refl s) rfl rfl rfl rfl

/-- A carve-out that is tagged dirty changes the dirty tags alone. -/
theorem State.tagCarve_tags (s : State) (c : Carveout) : ∃ peat dram : SMap Bool, s.tagCarve c = { s with peatDirty := peat, dramDirty := dram } := by
  unfold State.tagCarve
  split
  · exact ⟨s.peatDirty, _, rfl⟩
  · exact ⟨_, s.dramDirty, rfl⟩

/-- Tags the carve-outs that are found for a list of IDs dirty. -/
def State.tagCarves (s : State) (find : Nat → Option Carveout) (ids : List Nat) : State :=
  ids.foldl (fun acc i => match find i with | some c => acc.tagCarve c | none => acc) s

/-- Tagging carve-outs dirty takes no kill back. -/
theorem State.Killed.tagCarves {s t : State} {ts : List Nat} (h : s.Killed t ts) (find : Nat → Option Carveout) (ids : List Nat) :
    s.Killed (t.tagCarves find ids) ts := by
  refine List.foldlRecOn (motive := fun v : State => s.Killed v ts) _ _ h fun v hv i _ => ?_
  split
  · next c _ =>
    obtain ⟨peat, dram, htags⟩ := v.tagCarve_tags c
    rw [htags]
    exact hv.answersOnly (.dirtyTags v peat dram) rfl rfl
  · exact hv

theorem State.Killed.mono {s t : State} {ts ts' : List Nat} (h : s.Killed t ts) (hts : ∀ x ∈ ts', x ∈ ts) : s.Killed t ts' where
  slot x hx := h.slot x (hts x hx)
  mustZero x hx := h.mustZero x (hts x hx)
  emptied a ha hx := h.emptied a ha (hts _ hx)
  tail := h.tail
  slotOf := h.slotOf
  image := h.image

theorem State.tileInService_of_standing {s t : State} (h : t.standing = s.standing) (hr : t.repair = s.repair) (x : Nat) :
    t.tileInService x = s.tileInService x := by
  have hslot : t.slotOfTile x = s.slotOfTile x := by rw [State.slotOfTile, State.slotOfTile, hr]
  have hd : ∀ d, (t.die d).u = (s.die d).u := State.unit_of_standing h .die
  have hg : ∀ g, t.rgnUnit g = s.rgnUnit g := State.unit_of_standing h .region
  have hc : ∀ c, t.cluUnit c = s.cluUnit c := State.unit_of_standing h .cluster
  have hp : ∀ p, (t.slot p).u = (s.slot p).u := State.unit_of_standing h .slot
  simp only [State.tileInService, State.tileStates, State.clusterStates, hslot, hd, hg, hc, hp]

/-- The region that DIE_KILL names, and its tiles. -/
def State.killRegion (s : State) (d : Nat) : Nat := 2 * d + fld (s.die d).kill.toNat 8 8

def State.killList (s : State) (d : Nat) : List Nat :=
  ((List.range 8).filter (fun i => bit (s.die d).kill.toNat i)).map (· + 8 * s.killRegion d)

/-- The state after a kill that is not refused. -/
def State.afterKill (s : State) (d : Nat) : State :=
  (((s.killList d).foldl State.killTile s).tagCarves s.img.carve (s.die d).killIds).refreshMissing.raiseDie d 219 (s.killRegion d) 0

/-- A kill whose tiles and carve-outs are of one region in service is not refused. -/
theorem State.killRequest_takes {s : State} {d : Nat} (hg : s.killRegion d < s.part.regions)
    (hids : ∀ i ∈ (s.die d).killIds, ∃ c : Carveout, s.img.carve i = some c ∧ c.owner = s.killRegion d)
    (hr : (s.rgnUnit (s.killRegion d)).state.recovering = false) (h0 : s.unitRefusal .region (s.killRegion d) = 0)
    (hts : ∀ x ∈ s.killList d, s.tileInService x = true) : s.killRequest d = (s.afterKill d, 0) := by
  have hgone : (s.die d).killIds.any (fun i => match s.img.carve i with | some c => c.owner != s.killRegion d | none => true) = false := by
    rw [List.any_eq_false]
    intro i hi
    obtain ⟨c, hc, ho⟩ := hids i hi
    simp [hc, ho]
  have htiles : (s.killList d).any (fun t => !(s.tileInService t)) = false := by
    rw [List.any_eq_false]
    intro x hx
    simp [hts x hx]
  have hlegal : ¬(s.part.regions ≤ s.killRegion d ∨
      (s.die d).killIds.any (fun i => match s.img.carve i with | some c => c.owner != s.killRegion d | none => true) = true) := by
    rw [hgone]
    simp [hg]
  have hready : ¬((s.rgnUnit (s.killRegion d)).state.recovering = true ∨ s.unitRefusal .region (s.killRegion d) ≠ 0 ∨
      (s.killList d).any (fun t => !(s.tileInService t)) = true) := by
    rw [hr, h0, htiles]
    simp
  exact (if_neg hlegal).trans (if_neg hready)

/-- What a kill leaves of its tiles. -/
theorem State.Killed.afterKill {s t : State} (h0 : s.Killed t []) (d : Nat) : s.Killed (t.afterKill d) (t.killList d) := by
  have h := (h0.killTiles (t.killList d)).tagCarves t.img.carve (t.die d).killIds
  unfold State.afterKill
  generalize State.tagCarves _ _ _ = v at h ⊢
  refine (h.answersOnly ((State.refreshMissing_answersOnly v).raiseDie d 219 (t.killRegion d) 0) (by simp) (by simp)).mono fun x hx => ?_
  rwa [List.append_nil, List.mem_reverse]

/-- KILL writes OP of DIE_RECOV_CTRL, and the kill that it asks for sees no other change. -/
theorem State.askKill_takes {s : State} {d : Nat} (hd : d < 4) (hg : s.killRegion d < s.part.regions)
    (hids : ∀ i ∈ (s.die d).killIds, ∃ c : Carveout, s.img.carve i = some c ∧ c.owner = s.killRegion d)
    (hr : (s.rgnUnit (s.killRegion d)).state.recovering = false) (h0 : s.unitRefusal .region (s.killRegion d) = 0)
    (hts : ∀ x ∈ s.killList d, s.tileInService x = true) :
    ((s.askKill d).die d).recovLast = 0 ∧ s.Killed (s.askKill d) (s.killList d) := by
  let v := s.updDie d (fun x => { x with recovCtrl := BitVec.ofNat 32 (3 * 2 ^ 28 + x.recovCtrl.toNat % 2 ^ 28) })
  have hv : v = s.updDie d (fun x => { x with recovCtrl := BitVec.ofNat 32 (3 * 2 ^ 28 + x.recovCtrl.toNat % 2 ^ 28) }) := rfl
  have hkill : (v.die d).kill = (s.die d).kill := s.updDie_die_part DieSt.kill _ _ _ fun _ => rfl
  have hcarve : (v.die d).killIds = (s.die d).killIds := s.updDie_die_part DieSt.killIds _ _ _ fun _ => rfl
  have hstand : v.standing = s.standing := State.standing_of_aside (s.updDie_aside _ _ fun _ => ⟨rfl, rfl⟩)
  have hregion : v.killRegion d = s.killRegion d := by rw [State.killRegion, hkill, State.killRegion]
  have hlist : v.killList d = s.killList d := by rw [State.killList, hregion, hkill, State.killList]
  have htakes : v.killRequest d = (v.afterKill d, 0) := by
    refine State.killRequest_takes ?_ ?_ ?_ ?_ ?_
    · rw [hregion]; exact hg
    · rw [hregion, hcarve]; exact hids
    · rw [hregion]; exact hr
    · rw [hregion, State.unitRefusal_of_standing hstand, h0]
    · rw [hlist]; exact fun x hx => (State.tileInService_of_standing hstand rfl x).trans (hts x hx)
  have hask : s.askKill d = (v.afterKill d).recovStatus d 0 := by
    rw [State.askKill, if_neg (Nat.not_le.mpr hd)]
    dsimp only
    rw [← hv, htakes]
  have hstart : s.Killed v [] := ⟨by simp, by simp, by simp, fun _ => rfl, rfl, rfl⟩
  have hkilled := hstart.afterKill d
  rw [hlist] at hkilled
  rw [hask]
  refine ⟨State.recovStatus_recovLast _ _ _, ?_⟩
  exact hkilled.answersOnly (.updDie (.refl _) d _) (State.recovStatus_standing _ d 0) (State.recovStatus_image _ d 0)

/-- Settles O49: each request is followed through DIE_RECOV_CTRL, and each step from the fence to the return through the unit that it
takes on. -/
theorem recoveryRequests : Obligations.RecoveryRequests := by
  unfold Obligations.RecoveryRequests
  refine ⟨?fence, ?drainEnd, ?reset, ?dump, ?resetComplete, ?ret, ?kill⟩
  case fence =>
    intro s d loc k hd hloc u drains refused
    obtain ⟨hfence, hno⟩ := State.request_fence hd hloc s 0 .repair
    obtain ⟨hbist, hno'⟩ := State.request_fence hd hloc s 4 .bist
    exact ⟨fun h => ⟨_, _, rfl, hfence h, rfl, hbist h⟩, fun h => ⟨_, _, rfl, hno h, rfl, hno' h⟩⟩
  case drainEnd =>
    intro s d f hf hp
    have hexec : exec (.fenceDrainEnd d) s = .next (s.drainEnd d f) := by
      change execFenceDrainEnd d s = _
      rw [execFenceDrainEnd, hf]
    exact ⟨_, hexec, s.drainEnd_repair d hp⟩
  case reset =>
    intro s d loc k hd hloc u hs hr hh hdie
    have hstand := s.recovWrite_standing d 1 k loc
    have hunit := State.unit_of_standing hstand k u
    have h0 : (s.recovWrite d 1 k loc).unitRefusal k u = 0 := by
      rw [State.unitRefusal_of_standing hstand]
      exact State.unitRefusal_eq_zero (by rcases hs with hs | hs <;> simp [hs]) hr hh
    have htakes := State.resetRequest_takes (hunit ▸ hs) h0 (by
      rw [State.recovWrite_restartRefused]
      exact fun ⟨hk, ht⟩ => by simp [hdie hk] at ht)
    refine ⟨_, congrArg Host.Outcome.next (State.request_eq hd hloc s 1 _), ?_⟩
    rw [htakes]
    refine ⟨?_, State.recovStatus_recovLast _ _ _⟩
    rw [State.unit_of_standing (State.recovStatus_standing _ _ _), State.updUnit_unit_self, hunit]
  case dump =>
    intro s d hungTiles hungClusters k u hdue
    exact ⟨_, rfl, s.dumpWrite_unit hdue hungTiles hungClusters⟩
  case resetComplete =>
    intro s d k u hd hmem hs huniq hpower
    have hexec := fun ok => execResetComplete_unit hmem hs huniq hpower [] ok
    refine ⟨fun hpass hslot => ?_, fun hpass hk hts => ?_, fun ok hfail => ⟨_, hexec ok, ?_⟩⟩
    · have hnext := hexec true
      rw [State.resetComplete_eq hs, if_neg (by simp [hpass]), if_neg hslot] at hnext
      refine ⟨_, hnext, ?_⟩
      rw [State.updUnit_unit_self, State.unit_of_standing (State.zeroTiles_standing _ _), State.testsBegin_unit_self]
      refine ⟨rfl, rfl, fun tile x htile hx => ?_⟩
      rw [State.byteAt, State.updUnit_mem]
      exact State.zeroTiles_byteAt _ htile hx
    · have hnext := hexec true
      rw [State.resetComplete_eq hs, if_neg (by simp [hpass]), if_pos ⟨hk, hts⟩, hts] at hnext
      subst hk
      refine ⟨_, hnext, fun h => State.readyUnit_not_started (s := (s.testsBegin .slot u).zeroTiles []) h _ _, fun h => ?_⟩
      have hready := State.readyUnit_started (s := (s.testsBegin .slot u).zeroTiles []) h .slot u
      rw [hready, State.unit_of_standing (State.zeroTiles_standing _ _), State.testsBegin_unit_self]
      exact ⟨rfl, rfl, rfl⟩
    · rw [State.resetComplete_eq hs, if_pos hfail]
      refine ⟨State.failUnit_unit_state _ _ _, ?_⟩
      have hlast := State.failUnit_recovLast ((s.testsBegin k u).raiseDie (dieOfUnit k u) 16 ((s.testsBegin k u).unitTag k u) 0) k u
      rwa [dieOfUnit_of_mem hmem] at hlast ⊢
  case ret =>
    intro s d loc k hd hloc u hs hstage hr hh
    have hstand := s.recovWrite_standing d 2 k loc
    have hunit := State.unit_of_standing hstand k u
    have h0 : (s.recovWrite d 2 k loc).unitRefusal k u = 0 := by
      rw [State.unitRefusal_of_standing hstand]
      exact State.unitRefusal_eq_zero (by simp [hs]) hr hh
    have htakes := State.returnUnit_takes (hunit ▸ hs) (hunit ▸ hstage) h0
    rw [State.recovWrite_unitSums] at htakes
    have hexec : exec (.ret d k loc) s = .next _ := congrArg Host.Outcome.next (State.request_eq hd hloc s 2 _)
    rw [htakes] at hexec
    refine ⟨fun hsums => ?_, fun hsums => ?_⟩
    · rw [if_neg hsums] at hexec
      refine ⟨_, hexec, ?_⟩
      rw [State.unit_of_standing (State.recovStatus_standing _ _ _), State.updUnit_unit_self]
      exact ⟨rfl, hunit ▸ hs, State.recovStatus_recovLast _ _ _⟩
    · rw [if_pos hsums] at hexec
      refine ⟨_, hexec, State.recovStatus_recovLast _ _ _, ?_⟩
      rw [State.unit_of_standing (State.recovStatus_standing _ _ _)]
      refine ⟨fun h => State.readyUnit_not_started (s := s.recovWrite d 2 k loc) h _ _, fun h => ?_⟩
      have hready := State.readyUnit_started (s := s.recovWrite d 2 k loc) h k u
      dsimp only
      rw [hready]
      exact ⟨hunit ▸ hs, rfl⟩
  case kill =>
    intro s d hd g tiles hg hids hr h0 hts
    obtain ⟨hlast, hkilled⟩ := State.askKill_takes hd hg hids hr h0 hts
    refine ⟨_, rfl, hlast, fun x hx => ?_, hkilled.emptied⟩
    obtain ⟨hst, hcause⟩ := hkilled.slot x hx
    exact ⟨hst, hcause, hkilled.mustZero x hx⟩

end Sys2Proof.Machine
end

section
/-! PROOFS of the family of 05_matrix_array.md: the next weight set of the array's command passes into the weight registers (R153 to R156,
R159 to R162). -/

namespace Sys2Proof.Machine

/-- A weight set is readable in memory without errors when its elements, tags and scales may be reached and are good. -/
theorem MeJob.setReadable_of_stepGood {s : State} (h : s.sound) {j : MeJob} {c : Ctx} {f : InFlight} {set : Nat × Nat}
    (hg : ∀ p ∈ j.weightReads set.1 set.2, s.stepGood c f true p) : j.setReadable c f s set = true := by
  have hreads : (Run.plan c f true (j.weightReads set.1 set.2) { st := s, used := planElems (j.weightReads set.1 set.2) }).Ok s :=
    Run.plan_ok h hg ⟨rfl, rfl⟩
  exact beq_iff_eq.mpr hreads.2

/-- The swap of a readable set: the registers of the set stand in both registers of the array, and the command counts the swap. -/
theorem State.shadowLoadSwap_of_setReadable {s : State} {tile q : Nat} {o : Op} {f : InFlight} {j : MeJob} {set : Nat × Nat}
    (hload : s.meLoading tile = some (q, f)) (hop : Op.ofCode f.desc.opcode.toNat = some o) (hjob : f.meJob o = some j)
    (hset : j.sets[f.swaps]? = some set) (hr : j.setReadable (s.ctxOf q f) f s set = true) :
    s.shadowLoadSwap tile = (s.updTile tile (fun x => { x with
      shadow := j.setRegs s (s.repairOf tile) set.1 set.2, active := j.setRegs s (s.repairOf tile) set.1 set.2 })).countSwap q f.order := by
  have hbind : (Op.ofCode f.desc.opcode.toNat).bind f.meJob = some j := by rw [hop, Option.bind_some, hjob]
  simp only [State.shadowLoadSwap, hload, hbind, hset, if_pos hr]

/-- Settles O25: a set is readable where its reads are good, and a readable set is swapped in. -/
theorem shadowSwap : Obligations.ShadowSwap := by
  intro s tile q o f j set hload hop hjob hset hr
  have hreadable : j.setReadable (s.ctxOf q f) f s set = true := by
    rcases hr with hread | ⟨hsound, hgood⟩
    · exact hread
    · exact MeJob.setReadable_of_stepGood hsound hgood
  exact congrArg Host.Outcome.next (State.shadowLoadSwap_of_setReadable hload hop hjob hset hreadable)

end Sys2Proof.Machine
end

section
/-! PROOFS of the family of 11_sensor_intake.md: what accesses of memory, events and fences leave of the cameras, the pipelines, the Range
Intake and the replay decoders. -/

namespace Sys2Proof.Machine

/-! ### The sensor intake of a state -/

/-- What the sensor side of the block holds: the cameras' and the pipelines' frames, the Range Intake and the replay decoders. -/
@[ext] structure Sensors where
  cams : SMap CamSt
  pipes : SMap PipeSt
  range : RangeSt
  dec : Nat → DecoderSt

/-- The sensor side of a state, which accesses of memory, events and fences leave alone. -/
def State.sensors (s : State) : Sensors where
  cams := s.cams
  pipes := s.pipes
  range := s.range
  dec := fun d => (s.die d).dec

section
variable {s t : State} (h : t.sensors = s.sensors)
include h

theorem State.cam_of_sensors (c : Nat) : t.cam c = s.cam c := congrArg (fun x : Sensors => SMap.get ({} : CamSt) x.cams c) h
theorem State.pipe_of_sensors (p : Nat) : t.pipe p = s.pipe p := congrArg (fun x : Sensors => SMap.get ({} : PipeSt) x.pipes p) h
theorem State.range_of_sensors : t.range = s.range := congrArg Sensors.range h
theorem State.dec_of_sensors (d : Nat) : (t.die d).dec = (s.die d).dec := congrArg (fun x : Sensors => x.dec d) h

end

theorem foldl_sensors {α : Type} (g : State → α → State) (l : List α) (s : State) (h : ∀ s x, (g s x).sensors = s.sensors) :
    (l.foldl g s).sensors = s.sensors :=
  List.foldlRecOn (motive := fun t : State => t.sensors = s.sensors) l g rfl fun t ht x _ => (h t x).trans ht

@[simp] theorem State.updTile_sensors (s : State) (t : Nat) (f : TileSt → TileSt) : (s.updTile t f).sensors = s.sensors := (rfl)
@[simp] theorem State.updQueue_sensors (s : State) (q : Nat) (f : QueueSt → QueueSt) : (s.updQueue q f).sensors = s.sensors := (rfl)
@[simp] theorem State.updCluster_sensors (s : State) (c : Nat) (f : ClusterSt → ClusterSt) : (s.updCluster c f).sensors = s.sensors := (rfl)
@[simp] theorem State.updFacet_sensors (s : State) (i : Nat) (f : FctxSt → FctxSt) : (s.updFacet i f).sensors = s.sensors := (rfl)
@[simp] theorem State.updChan_sensors (s : State) (c : Nat) (f : ChanSt → ChanSt) : (s.updChan c f).sensors = s.sensors := (rfl)
@[simp] theorem State.updBeat_sensors (s : State) (f : BeatSt → BeatSt) : (s.updBeat f).sensors = s.sensors := (rfl)
@[simp] theorem State.updSaf_sensors (s : State) (f : SafetySt → SafetySt) : (s.updSaf f).sensors = s.sensors := (rfl)
@[simp] theorem State.updAsh_sensors (s : State) (f : AshSt → AshSt) : (s.updAsh f).sensors = s.sensors := (rfl)
@[simp] theorem State.updUpd_sensors (s : State) (f : UpdSt → UpdSt) : (s.updUpd f).sensors = s.sensors := (rfl)
@[simp] theorem State.msix_sensors (s : State) (v : Nat) : (s.msix v).sensors = s.sensors := (rfl)
@[simp] theorem State.draw_sensors (s : State) : s.draw.2.sensors = s.sensors := (rfl)
@[simp] theorem State.oweRowTest_sensors (s : State) (u : Nat) : (s.oweRowTest u).sensors = s.sensors := (rfl)
@[simp] theorem State.raise_sensors (s : State) (sev unit status : Nat) : (s.raise sev unit status).sensors = s.sensors := by
  rw [State.raise_eq]; rfl
@[simp] theorem State.raiseDie_sensors (s : State) (d sev unit status : Nat) : (s.raiseDie d sev unit status).sensors = s.sensors := by
  rw [State.raiseDie_eq]; rfl

theorem State.suspects_sensors (s : State) (l : List (UnitKind × Nat × Nat)) : ({ s with suspects := l } : State).sensors = s.sensors := rfl

theorem State.memFlips_sensors (s : State) (m : SMap Byte) (f : SMap (List Nat)) :
    ({ s with mem := m, flips := f } : State).sensors = s.sensors := rfl

/-- An update of a die that keeps its decoder. -/
theorem State.updDie_sensors (s : State) (d : Nat) (f : DieSt → DieSt) (h : ∀ x, (f x).dec = x.dec) : (s.updDie d f).sensors = s.sensors := by
  refine Sensors.ext rfl rfl rfl (funext fun e => ?_)
  change ((s.updDie d f).die e).dec = (s.die e).dec
  rw [State.updDie_die]
  split
  · next he => rw [h, he]
  · rfl

@[simp] theorem State.dropAt_sensors (s : State) (d : Nat) : (s.dropAt d).sensors = s.sensors := s.updDie_sensors d _ fun _ => rfl

/-! ### Accesses of memory (R124, R126, R135) -/

@[simp] theorem State.undirty_sensors (s : State) (a : Nat) : (s.undirty a).sensors = s.sensors := by
  unfold State.undirty; (repeat' split) <;> rfl

@[simp] theorem State.recordRepairs_sensors (s : State) (es : List RepairEntry) : (s.recordRepairs es).sensors = s.sensors := by
  obtain ⟨m, f, a, heq, -⟩ := s.recordRepairs_eq es
  rw [heq]
  rfl

@[simp] theorem State.repairDramRow_sensors (s : State) (a d : Nat) : (s.repairDramRow a d).sensors = s.sensors := by
  unfold State.repairDramRow
  dsimp only
  split
  · rfl
  · exact State.recordRepairs_sensors _ _

@[simp] theorem State.noteUncorrectable_sensors (s : State) (a : Nat) : (s.noteUncorrectable a).1.sensors = s.sensors := by
  unfold State.noteUncorrectable
  split
  · simp
  · simp only [State.oweRowTest_sensors, State.raiseDie_sensors]
    exact s.updDie_sensors _ _ fun _ => rfl
  · simp

@[simp] theorem State.suspectOwner_sensors (s : State) (a d : Nat) : (s.suspectOwner a d).sensors = s.sensors := by
  have hraise := s.raiseDie_sensors d 54 d 0x33
  unfold State.suspectOwner
  split
  · split
    · exact (State.suspects_sensors (s.raiseDie d 54 d 0x33) _).trans hraise
    · exact hraise
  · exact hraise

@[simp] theorem State.noteAddress_sensors (s : State) (a : Nat) : (s.noteAddress a).sensors = s.sensors := by
  unfold State.noteAddress
  split
  · exact (State.suspects_sensors (State.raiseDie _ _ _ _ _) _).trans (by simp)
  · rw [State.suspectOwner_sensors]
    exact s.updDie_sensors _ _ fun _ => rfl
  · simp

@[simp] theorem State.noteCorrected_sensors (s : State) (a : Nat) : (s.noteCorrected a).sensors = s.sensors := by
  unfold State.noteCorrected; split <;> rfl

@[simp] theorem State.linkTry_sensors (s : State) (u : Nat) : (s.linkTry u).1.sensors = s.sensors := by
  unfold State.linkTry
  split
  · dsimp only; (repeat' split) <;> simp
  · rfl

@[simp] theorem State.fetchStored_sensors (s : State) (u size : Nat) : (s.fetchStored u size).st.sensors = s.sensors := by
  unfold State.fetchStored; (repeat' split) <;> simp

@[simp] theorem State.fetchPart_sensors (s : State) (first : Bool) (u size : Nat) : (s.fetchPart first u size).st.sensors = s.sensors := by
  unfold State.fetchPart State.fetchUnit
  dsimp only
  (repeat' split) <;> simp

theorem State.fetchUnits_sensors (line : Option Nat) (l : List (Nat × Nat)) (f : Fetch) :
    (State.fetchUnits line l f).st.sensors = f.st.sensors := by
  induction l generalizing line f with
  | nil => rfl
  | cons e l ih =>
    rw [State.fetchUnits]
    split
    · rfl
    · exact (ih _ _).trans (State.fetchPart_sensors _ _ _ _)

@[simp] theorem State.fetch_sensors (s : State) (a n : Nat) : (s.fetch a n).st.sensors = s.sensors := State.fetchUnits_sensors _ _ _

@[simp] theorem State.storeUnit_sensors (s : State) (first : Bool) (u size a : Nat) (bs : List Byte) :
    (s.storeUnit first u size a bs).1.sensors = s.sensors := by
  unfold State.storeUnit
  dsimp only
  split
  · split
    · split
      · simp
      · exact (State.memFlips_sensors ((s.undirty u).linkTry u).1 _ _).trans (by simp)
    · exact (State.memFlips_sensors (s.undirty u) _ _).trans (by simp)
  · split
    · simp
    · exact (State.memFlips_sensors ((s.undirty u).fetchPart first u size).st _ _).trans (by simp)

theorem State.storeUnits_sensors (stop : Bool) (a : Nat) (bs : List Byte) (l : List (Nat × Nat)) (line : Option (Nat × Bool)) (r : State × Nat) :
    (State.storeUnits stop a bs line l r).1.sensors = r.1.sensors := by
  induction l generalizing line r with
  | nil => rfl
  | cons e l ih =>
    rw [State.storeUnits]
    split <;> simp [ih]

@[simp] theorem State.put_sensors (s : State) (a : Nat) (bs : List Byte) : (s.put a bs).sensors = s.sensors :=
  State.storeUnits_sensors _ _ _ _ _ _

@[simp] theorem State.put_cam (s : State) (a : Nat) (bs : List Byte) (c : Nat) : (s.put a bs).cam c = s.cam c :=
  State.cam_of_sensors (s.put_sensors a bs) c

@[simp] theorem State.put_range (s : State) (a : Nat) (bs : List Byte) : (s.put a bs).range = s.range :=
  State.range_of_sensors (s.put_sensors a bs)

@[simp] theorem State.put_dec (s : State) (a : Nat) (bs : List Byte) (d : Nat) : ((s.put a bs).die d).dec = (s.die d).dec :=
  State.dec_of_sensors (s.put_sensors a bs) d

/-- A write into memory without errors raises no event. -/
theorem State.put_link {s : State} (h : s.sound) (a : Nat) (bs : List Byte) : (s.put a bs).link = s.link := by
  obtain ⟨m, hm⟩ := State.store_ok h a bs
  rw [State.put, hm]

/-- An event after changes that leave the host link alone is the only one. -/
theorem State.raisedTo_raiseDie_of_link {s t : State} (h : t.link = s.link) (d sev unit status : Nat) :
    s.raisedTo (t.raiseDie d sev unit status) [(sev, unit, status)] :=
  State.raisedTo_trans (State.raisedTo_nil h) (t.raisedTo_raiseDie d sev unit status)

theorem State.raisedTo_raise_of_link {s t : State} (h : t.link = s.link) (sev unit status : Nat) :
    s.raisedTo (t.raise sev unit status) [(sev, unit, status)] :=
  State.raisedTo_trans (State.raisedTo_nil h) (t.raisedTo_raise sev unit status)

/-! ### Commands and messages that a fence answers (R409, R410) -/

@[simp] theorem State.failInFlight_sensors (s : State) (q pos status : Nat) : (s.failInFlight q pos status).sensors = s.sensors := (rfl)
@[simp] theorem State.ackDropped_sensors (s : State) (q pos : Nat) : (s.ackDropped q pos).sensors = s.sensors := (rfl)
@[simp] theorem State.ackInFlight_sensors (s : State) (q pos : Nat) : (s.ackInFlight q pos).sensors = s.sensors := (rfl)

@[simp] theorem State.meFlags_sensors (s : State) (q : Nat) (f : InFlight) : (s.meFlags q f).sensors = s.sensors := by
  unfold State.meFlags; (repeat' split) <;> rfl

@[simp] theorem State.clearKindling_sensors (s : State) (f : InFlight) : (s.clearKindling f).sensors = s.sensors := by
  unfold State.clearKindling; split <;> rfl

@[simp] theorem State.complete_sensors (s : State) (a : QueueAlloc) (f : InFlight) (cycles : Nat) :
    (s.complete a f cycles).sensors = s.sensors := by
  unfold State.complete
  dsimp only
  split <;> simp

@[simp] theorem State.completeAll_sensors (q status : Nat) (l : List InFlight) (s : State) :
    (s.completeAll q status l).sensors = s.sensors := by
  induction l generalizing s with
  | nil => rfl
  | cons f l ih =>
    rw [State.completeAll, ih]
    split <;> simp

@[simp] theorem State.answerQueue_sensors (s : State) (q status : Nat) : (s.answerQueue q status).sensors = s.sensors :=
  State.completeAll_sensors _ _ _ _

@[simp] theorem State.answerAllocs_sensors (tiles : List Nat) (status : Nat) (l : List QueueAlloc) (s : State) :
    (s.answerAllocs tiles status l).sensors = s.sensors := by
  induction l generalizing s with
  | nil => rfl
  | cons a l ih =>
    rw [State.answerAllocs, ih]
    split <;> simp

@[simp] theorem State.recallMessages_sensors (cmds : List (Nat × Nat)) (l : List Nat) (s : State) :
    (s.recallMessages cmds l).sensors = s.sensors := by
  induction l generalizing s with
  | nil => rfl
  | cons t l ih => rw [State.recallMessages, ih, State.updTile_sensors]

@[simp] theorem State.discardMessages_sensors (t : Nat) (l : List Message) (s : State) : (s.discardMessages t l).sensors = s.sensors := by
  induction l generalizing s with
  | nil => rfl
  | cons m l ih =>
    rw [State.discardMessages, ih]
    split <;> simp

@[simp] theorem State.dropUpdates_sensors (l : List StageUpdate) (s : State) : (s.dropUpdates l).sensors = s.sensors := by
  induction l generalizing s with
  | nil => rfl
  | cons u l ih => rw [State.dropUpdates, ih, State.ackInFlight_sensors, State.dropAt_sensors]

@[simp] theorem State.answerTiles_sensors (s : State) (tiles : List Nat) (status : Nat) : (s.answerTiles tiles status).sensors = s.sensors := by
  unfold State.answerTiles
  dsimp only
  split <;> simp [foldl_sensors]

/-! ### The fence of a unit that a fault made suspect (R404, R409, R412) -/

@[simp] theorem State.refreshMissing_sensors (s : State) : s.refreshMissing.sensors = s.sensors := by
  unfold State.refreshMissing
  dsimp only
  split <;> simp

@[simp] theorem State.updUnit_sensors (s : State) (k : UnitKind) (u : Nat) (f : UnitSt → UnitSt) : (s.updUnit k u f).sensors = s.sensors := by
  cases k
  case die => exact s.updDie_sensors u _ fun _ => rfl
  all_goals rfl

@[simp] theorem State.absorb_sensors (s : State) (k : UnitKind) (u : Nat) : (s.absorb k u).sensors = s.sensors := by
  refine foldl_sensors _ _ _ fun t e => ?_
  dsimp only
  split
  · rfl
  · rw [State.updUnit_sensors, State.setUnit, State.updUnit_sensors]

@[simp] theorem State.endDrains_sensors (s : State) (k : UnitKind) (u : Nat) : (s.endDrains k u).sensors = s.sensors := by
  refine (foldl_sensors _ _ _ fun t f => ?_).trans (s.updDie_sensors _ _ fun _ => rfl)
  simp [State.failStage, State.stageFail]

@[simp] theorem State.openFence_sensors (s : State) (k : UnitKind) (u cause : Nat) (st : UnitState) :
    (s.openFence k u cause st).sensors = s.sensors := by
  simp [State.openFence, State.setUnit]

@[simp] theorem State.suspectUnit_sensors (s : State) (k : UnitKind) (u cause : Nat) : (s.suspectUnit k u cause).sensors = s.sensors := by
  have hheld := s.suspects_sensors (s.suspects ++ [(k, u, cause)])
  unfold State.suspectUnit
  (repeat' split) <;> simp [hheld]

theorem State.settleAll_sensors (l : List (UnitKind × Nat × Nat)) (s : State) : (State.settleAll l s).sensors = s.sensors := by
  induction l generalizing s with
  | nil => rfl
  | cons e l ih => rw [State.settleAll, ih, State.suspectUnit_sensors]

/-- The fences of suspect units leave the sensor side alone. -/
@[simp] theorem State.settle_sensors (s : State) : s.settle.sensors = s.sensors :=
  (State.settleAll_sensors _ _).trans (s.suspects_sensors [])

@[simp] theorem State.setObject_sensors (s : State) (ref value : Nat) : (s.setObject ref value).sensors = s.sensors := by
  unfold State.setObject
  dsimp only
  split <;> simp

end Sys2Proof.Machine
end

section
/-! PROOFS of the family of 11_sensor_intake.md: the frames of a camera from Frame Start to Frame End (R277, R278, R281, R282, R285, R287). -/

namespace Sys2Proof.Machine

/-! ### Frame Start (R281, R282) -/

/-- The camera receives no frame any more. -/
def State.noFrame (s : State) (b : CameraBind) : State := s.updCam b.camera (fun x => { x with cur := none })

/-- No frame in progress: the end of a frame before a Frame Start finds none. -/
theorem State.endFrame_idle {s : State} {b : CameraBind} (h : (s.cam b.camera).cur = none) : s.endFrame b = s.noFrame b := by
  have hrx : s.rxJob b = none := by rw [State.rxJob, h]; rfl
  rw [State.endFrame, hrx]
  rfl

theorem State.draw_cam (s : State) (c : Nat) : s.draw.2.cam c = s.cam c := rfl

/-- The state once a Frame Start of device frame `k` has been heard and the frame before it has ended. -/
def State.startHeard (s : State) (b : CameraBind) (k : Nat) : State :=
  (s.noFrame b).draw.2.updCam b.camera (fun x => { x with lastStart := some (max k (x.lastStart.getD 0)), outage := false })

theorem State.startHeard_cam_self (s : State) (b : CameraBind) (k : Nat) :
    (s.startHeard b k).cam b.camera =
      { s.cam b.camera with cur := none, lastStart := some (max k ((s.cam b.camera).lastStart.getD 0)), outage := false } := by
  rw [State.startHeard, State.updCam_cam_self, State.draw_cam, State.noFrame, State.updCam_cam_self]

theorem State.startHeard_cam_ne (s : State) (b : CameraBind) (k : Nat) {c : Nat} (h : c ≠ b.camera) :
    (s.startHeard b k).cam c = s.cam c := by
  rw [State.startHeard, State.updCam_cam_ne _ _ _ _ h, State.draw_cam, State.noFrame, State.updCam_cam_ne _ _ _ _ h]

theorem State.startHeard_jobsOf (s : State) (b : CameraBind) (k : Nat) : (s.startHeard b k).jobsOf b = s.jobsOf b := by
  rw [State.jobsOf, State.startHeard_cam_self]
  rfl

/-- `t` differs from `s` in the cameras alone, and one value has been drawn. -/
def State.CamsOnly (s t : State) : Prop := t = { s with cams := t.cams, draws := s.draws + 1 }

theorem State.CamsOnly.updCam {s t : State} (h : s.CamsOnly t) (c : Nat) (f : CamSt → CamSt) : s.CamsOnly (t.updCam c f) := by
  have g := congrArg (fun x : State => { x with cams := (t.updCam c f).cams }) h
  exact g

theorem State.startHeard_camsOnly (s : State) (b : CameraBind) (k : Nat) : s.CamsOnly (s.startHeard b k) := by
  have h : s.CamsOnly (s.noFrame b).draw.2 := (rfl : (s.noFrame b).draw.2 = _)
  exact h.updCam _ _

/-- A frame no newer than the latest that was not dropped. -/
def CamSt.heardBefore (c : CamSt) (k : Nat) : Bool := match c.lastFrame with | some p => decide (k ≤ p) | none => false

theorem CamSt.heardBefore_iff (c : CamSt) (k : Nat) : c.heardBefore k = true ↔ ∃ p : Nat, c.lastFrame = some p ∧ k ≤ p := by
  unfold CamSt.heardBefore
  split
  · next p hp => simp [hp]
  · next hp => simp [hp]

/-- A Frame Start with no frame in progress and a device frame, by whether the frame opens. -/
theorem State.frameStartOf_idle {s : State} {b : CameraBind} {k : Nat} (hcur : (s.cam b.camera).cur = none)
    (hk : s.frameAt (s.toEpoch (s.captureStamp b s.draws).epoch (s.captureStamp b s.draws).at_) = some k) (csiFn : Nat) :
    s.frameStartOf b csiFn =
      if (s.cam b.camera).heardBefore k = true ∨ 2 ≤ (s.jobsOf b).length then
        (s.startHeard b k).updCam b.camera (fun x => { x with skip := satInc x.skip })
      else (s.startHeard b k).beginFrame b k (s.captureStamp b s.draws) csiFn := by
  have hended := State.endFrame_idle hcur
  have hframe : (s.endFrame b).frameAt ((s.endFrame b).toEpoch ((s.endFrame b).captureStamp b (s.endFrame b).draw.1).epoch
      ((s.endFrame b).captureStamp b (s.endFrame b).draw.1).at_) = some k := by rw [hended]; exact hk
  have hlast : ((s.startHeard b k).cam b.camera).heardBefore k = (s.cam b.camera).heardBefore k := by
    rw [State.startHeard_cam_self]
    rfl
  rw [← s.startHeard_jobsOf b k, ← hlast]
  unfold State.frameStartOf
  dsimp only
  rw [hframe]
  dsimp only
  rw [hended]
  rfl

theorem State.beginFrame_cam_self (s : State) (b : CameraBind) (k : Nat) (capture : Stamp) (csiFn : Nat) :
    (s.beginFrame b k capture csiFn).cam b.camera = { s.cam b.camera with
      cur := some k, lastFrame := some k, waiting := (s.cam b.camera).waiting ++ [{
        camera := b.camera, facet := b.facet, k := k, capture := capture, csiFn := csiFn
        slot := if ((s.jobsOf b).map (·.slot)).contains 0 then 1 else 0 }] } :=
  s.updCam_cam_self _ _

theorem State.beginFrame_cam_ne (s : State) (b : CameraBind) (k : Nat) (capture : Stamp) (csiFn : Nat) {c : Nat} (h : c ≠ b.camera) :
    (s.beginFrame b k capture csiFn).cam c = s.cam c :=
  s.updCam_cam_ne _ _ _ h

/-! ### Lines (R277, R278) -/

/-- A line of the full width is stored as it is. -/
theorem lineBytes_full (bits : Nat) (px : List Nat) : lineBytes bits px.length px = px.flatMap (leBytes (rawBytes bits)) := by
  simp [lineBytes]

/-- A good line of the full width is stored at its place and counts. -/
theorem State.imageLine_good {s : State} {b : CameraBind} {c : IntakeCamera} {j : FrameJob} {payload : List Byte} (hl : j.lines < c.height)
    (hw : (unpackRaw b.dataType payload).length = c.width) :
    s.imageLine b c j payload true = (s.put (s.rawSlot b c j.slot + (c.embLines + j.lines) * lineSize b c)
      ((unpackRaw b.dataType payload).flatMap (leBytes (rawBytes (rawBits b.dataType))))).updJob b j.k
        (fun x => { x with lines := x.lines + 1 }) := by
  have hfault : lineFault c j c.width true = none := by simp [lineFault, hl]
  rw [← lineBytes_full, hw]
  simp [State.imageLine, hw, hfault, State.putLine]

/-! ### Frame End (R285) -/

/-- A note flag that has been set is set. -/
theorem FrameJob.bit_mark_self (j : FrameJob) (f : Nat) : bit (j.mark f).flags f = true := by
  by_cases h : bit j.flags f = true
  · rw [FrameJob.mark, if_pos h, h]
  · rw [FrameJob.mark, if_neg h]
    have hset : (j.flags + 2 ^ f) / 2 ^ f = j.flags / 2 ^ f + 1 := Nat.add_div_right _ (by positivity)
    simp only [bit, beq_iff_eq] at h
    simp only [bit, hset, beq_iff_eq]
    omega

/-- The Frame End of a frame whose lines have all come and that carries no flag of R285. -/
theorem State.endFrame_whole {s : State} {b : CameraBind} {j : FrameJob} {c : IntakeCamera} (hrx : s.rxJob b = some j)
    (hc : s.intakeOf b.camera = some c) (hemb : j.emb = c.embLines) (hl : c.height ≤ j.lines) (hf : j.faulty = false) :
    s.endFrame b = (s.updJob b j.k (fun _ => { j with ended := true })).updCam b.camera (fun x => { x with cur := none }) := by
  have hlines : ¬j.lines < c.height := Nat.not_lt.mpr hl
  simp [State.endFrame, hrx, hc, hemb, hlines, hf]

/-- A frame of which image lines are missing, with its flag and its count of bad lines. -/
def FrameJob.short (j : FrameJob) (height : Nat) : FrameJob :=
  { j.mark noteShortFrame with badLines := j.badLines + (height - j.lines) }

theorem FrameJob.short_faulty (j : FrameJob) (height : Nat) : (j.short height).faulty = true :=
  List.any_eq_true.mpr ⟨noteShortFrame, by decide, j.bit_mark_self noteShortFrame⟩

/-- The state once the missing lines of a short frame are zero and the frame has ended, before it counts. -/
def State.endedShort (s : State) (b : CameraBind) (j : FrameJob) (c : IntakeCamera) : State :=
  ((s.put (s.rawSlot b c j.slot + (c.embLines + j.lines) * lineSize b c) (zeros ((c.height - j.lines) * lineSize b c))).updJob b j.k
    (fun _ => { j.short c.height with ended := true })).updCam b.camera (fun x => { x with cur := none })

/-- The Frame End of a frame with image lines missing. -/
theorem State.endFrame_short {s : State} {b : CameraBind} {j : FrameJob} {c : IntakeCamera} (hrx : s.rxJob b = some j)
    (hc : s.intakeOf b.camera = some c) (hemb : j.emb = c.embLines) (hl : j.lines < c.height) :
    s.endFrame b = ((s.endedShort b j c).updCam b.camera (fun x => { x with fault := satInc x.fault })).raiseDie
      (b.receiver / 2) 104 b.camera 0 := by
  have hfaulty := j.short_faulty c.height
  have hcount : c.embLines + c.height - (c.embLines + j.lines) = c.height - j.lines := Nat.add_sub_add_left _ _ _
  unfold FrameJob.short at hfaulty
  simp [State.endFrame, hrx, hc, hemb, hl, hfaulty, State.zeroLines, hcount, State.endedShort, FrameJob.short]

theorem State.endedShort_cam (s : State) (b : CameraBind) (j : FrameJob) (c : IntakeCamera) :
    ((s.endedShort b j c).cam b.camera).cur = none ∧ ((s.endedShort b j c).cam b.camera).fault = (s.cam b.camera).fault := by
  simp [State.endedShort, State.updJob]

theorem State.endedShort_link {s : State} (h : s.sound) (b : CameraBind) (j : FrameJob) (c : IntakeCamera) :
    (s.endedShort b j c).link = s.link := by
  rw [State.endedShort, State.updCam_link, State.updJob, State.updPipe_link, State.updCam_link, State.put_link h]

theorem State.endedShort_mem (s : State) (b : CameraBind) (j : FrameJob) (c : IntakeCamera) : (s.endedShort b j c).mem =
    (s.put (s.rawSlot b c j.slot + (c.embLines + j.lines) * lineSize b c) (zeros ((c.height - j.lines) * lineSize b c))).mem := by
  rw [State.endedShort, State.updCam_mem, State.updJob, State.updPipe_mem, State.updCam_mem]

/-! ### No Frame Start (R287) -/

/-- The device frame after that of the latest Frame Start. -/
def CamSt.firstUnheard (c : CamSt) : Nat := match c.lastStart with | some p => p + 1 | none => 0

/-- What an examination of the device frame that has just ended does, by how many frames in a row lack a Frame Start. -/
theorem State.noFrameStart_due {s : State} {b : CameraBind} {first j : Nat}
    (hfirst : first = (s.cam b.camera).firstUnheard) (hj : j = max first (s.cam b.camera).lostTo)
    (hs : s.started = true) (hr : s.isReplay = false) (hdue : s.frameStart (j + 1) + nsInst b.latencyNs ≤ s.now) :
    s.noFrameStart b =
      if j + 1 - first = 2 then
        ((s.updCam b.camera (fun x => { x with lostTo := j + 1 })).updCam b.camera (fun x => { x with outage := true })).raiseDie
          (b.receiver / 2) 107 b.camera 0
      else if 2 < j + 1 - first then
        (s.updCam b.camera (fun x => { x with lostTo := j + 1 })).updCam b.camera (fun x => { x with lost := satInc x.lost })
      else s.updCam b.camera (fun x => { x with lostTo := j + 1 }) := by
  subst hj hfirst
  refine if_neg ?_
  rintro (h | h | h)
  · simp [hs] at h
  · simp [hr] at h
  · exact absurd hdue (Nat.not_le.mpr h)

/-- Settles O38: a Frame Start by whether its frame opens, a line by its one good form, a Frame End by whether lines are missing, and an
outage by its length. -/
theorem cameraIntake : Obligations.CameraIntake := by
  unfold Obligations.CameraIntake
  refine ⟨?start, ?line, ?frameEnd, ?noStart⟩
  case start =>
    intro s receiver vc fn b k hb hr hd hcur hk
    have hexec : exec (.frameStart receiver vc fn) s = .next (s.frameStartOf b fn.toNat) := by
      change execFrameStart receiver vc fn s = _
      simp [execFrameStart, hb, hr, hd]
    have heq := State.frameStartOf_idle hcur hk fn.toNat
    refine ⟨_, hexec, ?_⟩
    by_cases hskip : (s.cam b.camera).heardBefore k = true ∨ 2 ≤ (s.jobsOf b).length
    · rw [heq, if_pos hskip]
      refine ⟨(s.startHeard_camsOnly b k).updCam _ _, ?_, fun c hc => ?_, fun hnew hfree => ?_, fun _ => ?_⟩
      · rw [State.updCam_cam_self, State.startHeard_cam_self]
      · rw [State.updCam_cam_ne _ _ _ _ hc, State.startHeard_cam_ne _ _ _ hc]
      · rw [CamSt.heardBefore_iff] at hskip
        rcases hskip with ⟨p, hp, hle⟩ | hfull
        · exact absurd (hnew p hp) (Nat.not_lt.mpr hle)
        · exact absurd hfree (Nat.not_lt.mpr hfull)
      · rw [State.updCam_cam_self, State.startHeard_cam_self]
        exact ⟨rfl, rfl, rfl⟩
    · rw [heq, if_neg hskip]
      refine ⟨(s.startHeard_camsOnly b k).updCam _ _, ?_, fun c hc => ?_, fun _ _ => ?_, fun h => absurd ?_ hskip⟩
      · rw [State.beginFrame_cam_self, State.startHeard_cam_self]
      · rw [State.beginFrame_cam_ne _ _ _ _ _ hc, State.startHeard_cam_ne _ _ _ hc]
      · rw [State.beginFrame_cam_self, State.startHeard_cam_self, State.startHeard_jobsOf]
        exact ⟨rfl, rfl, rfl, rfl⟩
      · rwa [CamSt.heardBefore_iff]
  case line =>
    intro s receiver vc payload b j c hb hrx hc hd hl hw
    change execLinePacket receiver vc b.dataType payload true true s = _
    simp [execLinePacket, hb, hrx, hc, hd, State.imageLine_good hl hw]
  case frameEnd =>
    intro s receiver vc b j c hb hrx hc hd hemb
    have hexec : exec (.frameEnd receiver vc) s = .next (s.endFrame b) := by
      change execFrameEnd receiver vc s = _
      simp [execFrameEnd, hb, hd]
    refine ⟨fun hl hf => by rw [hexec, State.endFrame_whole hrx hc hemb hl hf], fun hl => ⟨_, hexec, ?_⟩⟩
    obtain ⟨hcur, hfault⟩ := s.endedShort_cam b j c
    rw [State.endFrame_short hrx hc hemb hl]
    refine ⟨?_, ?_, fun hsound => ?_, ?_⟩
    · simp [hcur]
    · simp [hfault]
    · exact State.raisedTo_raiseDie_of_link ((State.updCam_link _ _ _).trans (State.endedShort_link hsound b j c)) _ _ _ _
    · rw [State.raiseDie_mem, State.updCam_mem, State.endedShort_mem]
  case noStart =>
    intro s b hb hs hr first j hdue
    have hexec : exec (.cameraNoFrameStart b.camera) s = .next (s.noFrameStart b) := by
      change execCameraNoFrameStart b.camera s = _
      simp [execCameraNoFrameStart, hb]
    have heq := State.noFrameStart_due (first := first) (j := j) rfl rfl hs hr hdue
    have hle : first ≤ j := Nat.le_max_left ..
    refine ⟨_, hexec, ?_⟩
    rw [heq]
    rcases Nat.lt_trichotomy j (first + 1) with hone | htwo | hmore
    · rw [if_neg (by omega), if_neg (by omega)]
      exact ⟨by simp, fun h => by omega, fun h => by omega, fun _ => ⟨by simp, State.raisedTo_nil rfl⟩⟩
    · rw [if_pos (by omega)]
      refine ⟨by simp, fun _ => ⟨by simp, by simp, ?_⟩, fun h => by omega, fun h => by omega⟩
      exact State.raisedTo_raiseDie_of_link ((State.updCam_link _ _ _).trans (State.updCam_link _ _ _)) _ _ _ _
    · rw [if_neg (by omega), if_pos (by omega)]
      exact ⟨by simp, fun h => by omega, fun _ => ⟨by simp, State.raisedTo_nil rfl⟩, fun h => by omega⟩

end Sys2Proof.Machine
end

section
/-! PROOFS of the family of 11_sensor_intake.md: the start and the completion of a pipeline's frame (R283, R318, R321, R322, R326). -/

namespace Sys2Proof.Machine

/-! ### The start of a frame (R283, R318) -/

/-- A part of a camera that an update keeps. -/
theorem State.updCam_cam_part {α : Type} (part : CamSt → α) (s : State) (c : Nat) (f : CamSt → CamSt) (y : Nat)
    (h : ∀ x, part (f x) = part x) : part ((s.updCam c f).cam y) = part (s.cam y) := by
  rw [State.updCam_cam]
  split
  · next hy => rw [h, hy]
  · rfl

/-- A part of a pipeline that an update keeps. -/
theorem State.updPipe_pipe_part {α : Type} (part : PipeSt → α) (s : State) (p : Nat) (f : PipeSt → PipeSt) (y : Nat)
    (h : ∀ x, part (f x) = part x) : part ((s.updPipe p f).pipe y) = part (s.pipe y) := by
  rw [State.updPipe_pipe]
  split
  · next hy => rw [h, hy]
  · rfl

/-- The state once a waiting frame has been taken from its camera. -/
def State.unqueue (s : State) (j : FrameJob) : State := s.updCam j.camera (fun c => { c with waiting := c.waiting.erase j })

theorem State.unqueue_waiting (s : State) (j : FrameJob) : ((s.unqueue j).cam j.camera).waiting = (s.cam j.camera).waiting.erase j := by
  rw [State.unqueue, State.updCam_cam_self]

/-- An idle pipeline takes its next frame, by whether the frame's consumers have finished. -/
theorem State.pipelineStart_next {s : State} {p : Nat} {v : IspView} {j : FrameJob} (hd : s.dieDown (p / 4) = false)
    (hcur : (s.pipe p).cur = none) (hchosen : (s.pipe p).chosen = none) (hnext : s.nextJob p = some (v, j)) :
    s.pipelineStart p =
      if s.freeOk v j.k then (s.unqueue j).startJob v j
      else (s.unqueue j).updPipe p (fun y => { y with chosen := some j, waitFree := true }) := by
  simp only [State.pipelineStart, hcur, hchosen, hnext, hd, Option.isSome_none, Bool.false_eq_true, or_self, if_false]
  rfl

theorem State.writeNote_waiting (s : State) (j : FrameJob) (flags startWord c : Nat) :
    ((s.writeNote j flags startWord).cam c).waiting = (s.cam c).waiting := by
  unfold State.writeNote
  split
  · rfl
  · refine (State.updCam_cam_part CamSt.waiting _ _ _ c ?_).trans (congrArg CamSt.waiting (State.put_cam _ _ _ _))
    exact fun _ => rfl

theorem State.dropStale_waiting (s : State) (v : IspView) (j : FrameJob) (c : Nat) :
    ((s.dropStale v j).cam c).waiting = (s.cam c).waiting := by
  rw [State.dropStale, State.raiseDie_cam]
  refine (State.updCam_cam_part CamSt.waiting _ _ _ c ?_).trans (State.writeNote_waiting _ _ _ _ _)
  exact fun _ => rfl

@[simp] theorem State.readBank_sensors (s : State) (v : IspView) (bank : Bool) : (s.readBank v bank).1.sensors = s.sensors := by
  unfold State.readBank
  dsimp only
  (repeat' split) <;> simp

@[simp] theorem State.latchArm_sensors (s : State) (v : IspView) : (s.latchArm v).1.sensors = s.sensors := by
  unfold State.latchArm
  dsimp only
  (repeat' split) <;> simp

theorem State.latchArm_idle {s : State} {v : IspView} (h : (s.facet (facetIndex v.bind)).arm = false) : s.latchArm v = (s, false) := by
  simp [State.latchArm, h]

/-- The start of a chosen frame, or its drop, takes no waiting frame. -/
theorem State.startJob_waiting (s : State) (v : IspView) (j : FrameJob) (c : Nat) :
    ((s.startJob v j).cam c).waiting = (s.cam c).waiting := by
  unfold State.startJob
  dsimp only
  split
  · rw [State.dropStale_waiting, State.updPipe_cam]
  · rw [State.updPipe_cam, State.cam_of_sensors (State.latchArm_sensors _ _), State.updPipe_cam]

/-- A fresh frame of a Facet that is not armed starts at the die's reading. -/
theorem State.startJob_fresh {s : State} {v : IspView} {j : FrameJob} (harm : (s.facet (facetIndex v.bind)).arm = false)
    (hepoch : j.capture.epoch = s.tb.epoch)
    (hfresh : s.dieFrameTime (v.bind.pipe / 4) ≤ j.capture.at_ + nsInst v.bind.staleNs) :
    s.startJob v j = (s.updPipe v.bind.pipe (fun x => { x with chosen := none, waitFree := false })).updPipe v.bind.pipe (fun x =>
      { x with cur := some { j with start := s.dieFrameTime (v.bind.pipe / 4), startMono := s.mono, paramErr := false } }) := by
  have hnot : ¬(j.capture.at_ + nsInst v.bind.staleNs < s.dieFrameTime (v.bind.pipe / 4) ∨ j.capture.epoch ≠ s.tb.epoch) := by
    rintro (h | h)
    · exact absurd hfresh (Nat.not_le.mpr h)
    · exact h hepoch
  have hidle : (s.updPipe v.bind.pipe (fun x => { x with chosen := none, waitFree := false })).latchArm v =
      (s.updPipe v.bind.pipe (fun x => { x with chosen := none, waitFree := false }), false) := State.latchArm_idle harm
  unfold State.startJob
  dsimp only
  rw [if_neg hnot, hidle]

/-! ### The completion of a frame (R321, R322) -/

/-- The counts of a delivery: the frames that the pipelines have completed, and the accepted frames of the cameras. -/
def State.delivered (s : State) : (Nat → BitVec 24) × (Nat → Word) := (fun p => (s.pipe p).frames, fun c => (s.cam c).ok)

theorem State.delivered_of_sensors {s t : State} (h : t.sensors = s.sensors) : t.delivered = s.delivered :=
  Prod.ext (funext fun p => congrArg PipeSt.frames (State.pipe_of_sensors h p)) (funext fun c => congrArg CamSt.ok (State.cam_of_sensors h c))

theorem State.updCam_delivered (s : State) (c : Nat) (f : CamSt → CamSt) (h : ∀ x, (f x).ok = x.ok) : (s.updCam c f).delivered = s.delivered :=
  Prod.ext rfl (funext fun y => s.updCam_cam_part CamSt.ok c f y h)

theorem State.updPipe_delivered (s : State) (p : Nat) (f : PipeSt → PipeSt) (h : ∀ x, (f x).frames = x.frames) :
    (s.updPipe p f).delivered = s.delivered :=
  Prod.ext (funext fun y => s.updPipe_pipe_part PipeSt.frames p f y h) rfl

@[simp] theorem State.putLevels_sensors (s : State) (v : IspView) (k : Nat) (planes : Option (List Plane)) :
    (s.putLevels v k planes).sensors = s.sensors := by
  unfold State.putLevels
  exact List.foldlRecOn (motive := fun x : State × Nat => x.1.sensors = s.sensors) _ _ rfl fun x hx l _ =>
    (State.put_sensors _ _ _).trans hx

theorem State.putCopy_delivered (s : State) (v : IspView) (j : FrameJob) (planes : Option (List Plane)) (paramSeq : Nat) :
    (s.putCopy v j planes paramSeq).delivered = s.delivered := by
  unfold State.putCopy
  split
  · refine (State.updPipe_delivered _ _ _ ?_).trans (State.delivered_of_sensors (State.put_sensors _ _ _))
    exact fun _ => rfl
  · rfl

theorem State.putStats_delivered (s : State) (v : IspView) (j : FrameJob) (isVoid : Bool) (f : FctxSt) (body : List Byte) :
    (s.putStats v j isVoid f body).delivered = s.delivered := by
  refine (State.updCam_delivered _ _ _ ?_).trans (State.delivered_of_sensors (State.put_sensors _ _ _))
  exact fun _ => rfl

theorem State.writeNote_delivered (s : State) (j : FrameJob) (flags startWord : Nat) :
    (s.writeNote j flags startWord).delivered = s.delivered := by
  unfold State.writeNote
  split
  · rfl
  · refine (State.updCam_delivered _ _ _ ?_).trans (State.delivered_of_sensors (State.put_sensors _ _ _))
    exact fun _ => rfl

/-- The state after the writes of a delivery (R322), before its counts. -/
def State.deliverWrites (s : State) (v : IspView) (j : FrameJob) (planes : Option (List Plane)) (stats : List Byte) : State :=
  let f := s.facet (facetIndex v.bind)
  let seq := leAt f.bank 0 4
  let j2 := if planes.isNone then (j.mark noteAccepted).mark noteVoid else j.mark noteAccepted
  ((((s.putLevels v j.k planes).putCopy v j planes seq).putStats v j planes.isNone f stats).writeNote j2 j2.flags
    (timeWordOf j.start)).setObject v.intake.frameSync ((j.k + 1) % 2 ^ 32)

theorem State.deliverFrame_eq (s : State) (v : IspView) (j : FrameJob) (planes : Option (List Plane)) (stats : List Byte) :
    s.deliverFrame v j planes stats =
      ((s.deliverWrites v j planes stats).updCam j.camera (fun c => { c with ok := c.ok + 1 })).updPipe v.bind.pipe (fun p => { p with
        cur := none, frames := p.frames + 1, lastFrame := BitVec.ofNat 16 j.k
        durUs := BitVec.ofNat 16 (min 0xFFFF ((s.mono - j.startMono) / nsInst 1000)) }) := rfl

theorem State.deliverWrites_delivered (s : State) (v : IspView) (j : FrameJob) (planes : Option (List Plane)) (stats : List Byte) :
    (s.deliverWrites v j planes stats).delivered = s.delivered := by
  unfold State.deliverWrites
  dsimp only
  rw [State.delivered_of_sensors (State.setObject_sensors _ _ _), State.writeNote_delivered, State.putStats_delivered,
    State.putCopy_delivered, State.delivered_of_sensors (State.putLevels_sensors _ _ _ _)]

@[simp] theorem State.readRaw_sensors (s : State) (v : IspView) (slot : Nat) : (s.readRaw v slot).1.sensors = s.sensors := by
  unfold State.readRaw
  dsimp only
  split <;> exact State.fetch_sensors _ _ _

/-- However a frame completes, it is delivered: void, from its planes, or from the pixels of its raw slot. -/
theorem State.completeFrame_delivers (s : State) (v : IspView) (j : FrameJob) : ∃ (u : State) (planes : Option (List Plane)) (stats : List Byte),
    u.sensors = s.sensors ∧ (s.completeFrame v j).sensors = (u.deliverFrame v j planes stats).sensors := by
  unfold State.completeFrame
  dsimp only
  split
  · exact ⟨s, _, _, rfl, rfl⟩
  · split
    · exact ⟨s, _, _, rfl, rfl⟩
    · have hraw := s.readRaw_sensors v j.slot
      split
      · exact ⟨(s.readRaw v j.slot).1, _, _, hraw, State.updBeat_sensors _ _⟩
      · exact ⟨(s.readRaw v j.slot).1, _, _, hraw, rfl⟩

/-- A completed frame frees its pipeline and counts there and at its camera. -/
theorem State.completeFrame_counts (s : State) (v : IspView) (j : FrameJob) {t : State} (ht : t.sensors = (s.completeFrame v j).sensors) :
    (t.pipe v.bind.pipe).cur = none ∧ (t.pipe v.bind.pipe).frames = (s.pipe v.bind.pipe).frames + 1 ∧
      (t.pipe v.bind.pipe).lastFrame = BitVec.ofNat 16 j.k ∧ (t.cam j.camera).ok = (s.cam j.camera).ok + 1 := by
  obtain ⟨u, planes, stats, hu, heq⟩ := s.completeFrame_delivers v j
  have hcounts := (u.deliverWrites_delivered v j planes stats).trans (State.delivered_of_sensors hu)
  have hframes := congrFun (congrArg Prod.fst hcounts) v.bind.pipe
  have hok := congrFun (congrArg Prod.snd hcounts) j.camera
  simp only [State.delivered] at hframes hok
  rw [State.pipe_of_sensors (ht.trans heq), State.cam_of_sensors (ht.trans heq), State.deliverFrame_eq, State.updPipe_pipe_self,
    State.updPipe_cam, State.updCam_cam_self, State.updCam_pipe, hframes, hok]
  exact ⟨rfl, rfl, rfl, rfl⟩

/-- Settles O39: the next frame waits or starts, a completed one is counted, and a write of ISP_FCTX is its Facet's update. -/
theorem pipelineFrames : Obligations.PipelineFrames := by
  unfold Obligations.PipelineFrames
  refine ⟨?start, ?complete, ?arm⟩
  case start =>
    intro s p v j hp hd hcur hchosen hnext hv hsus
    have hexec : exec (.pipelineFrameStart p) s = .next (s.pipelineStart p).settle := by
      change execPipelineFrameStart p s = _
      rw [execPipelineFrameStart, if_pos hp]
    refine ⟨_, hexec, ?_⟩
    rw [State.pipelineStart_next hd hcur hchosen hnext]
    cases hfree : s.freeOk v j.k
    case false =>
      have hsettle := State.settle_of_none
        (s := (s.unqueue j).updPipe p (fun y => { y with chosen := some j, waitFree := true })) hsus
      rw [if_neg Bool.false_ne_true, hsettle]
      refine ⟨?_, fun _ => ?_, fun h => absurd h Bool.false_ne_true⟩
      · rw [State.updPipe_cam, State.unqueue_waiting]
      · rw [State.updPipe_pipe_self]
        exact ⟨rfl, rfl, hcur⟩
    case true =>
      rw [if_pos rfl, State.cam_of_sensors (State.settle_sensors _), State.pipe_of_sensors (State.settle_sensors _)]
      refine ⟨?_, fun h => absurd h.symm Bool.false_ne_true, fun _ harm hepoch hfresh => ?_⟩
      · rw [State.startJob_waiting, State.unqueue_waiting]
      · subst hv
        have hstart := State.startJob_fresh (s := s.unqueue j) harm hepoch hfresh
        rw [hstart, State.updPipe_pipe_self, State.updPipe_pipe_self]
        exact ⟨rfl, rfl, rfl⟩
  case complete =>
    intro s p v j hp hcur hended hd hview hv
    have hexec : exec (.pipelineFrameComplete p) s = .next (s.completeFrame v j).settle := by
      change execPipelineFrameComplete p s = _
      simp [execPipelineFrameComplete, hcur, hp, hended, hd, hview]
    subst hv
    exact ⟨_, hexec, s.completeFrame_counts v j (State.settle_sensors _)⟩
  case arm =>
    intro s d i w hd hi hopen
    change execArm d i w s = _
    rw [execArm, if_neg (by omega), if_pos hopen]
    rfl

end Sys2Proof.Machine
end

section
/-! PROOFS of the family of 11_sensor_intake.md: the Range Intake's packets, its replay ring and the close of its grids (R290, R292 to R294,
R303). -/

namespace Sys2Proof.Machine

/-! ### Packets (R290, R292 to R294) -/

theorem State.mac_of_sensors {s t : State} (h : t.sensors = s.sensors) (m : Nat) : t.mac m = s.mac m := by
  rw [State.mac, State.range_of_sensors h]
  rfl

/-- The state once the oldest packet has left the MAC's buffers. -/
def State.takeBuf (s : State) (mac : Nat) (rest : List (Stamp × Bool × List Byte)) : State := s.updMac mac (fun m => { m with buf := rest })

theorem State.takeBuf_mac_self (s : State) (mac : Nat) (rest : List (Stamp × Bool × List Byte)) :
    (s.takeBuf mac rest).mac mac = { s.mac mac with buf := rest } := s.updMac_mac_self _ _

theorem State.updMac_grids (s : State) (m : Nat) (f : RangeMacSt → RangeMacSt) : (s.updMac m f).range.grids = s.range.grids := rfl

theorem State.updMac_tmplSeq (s : State) (m : Nat) (f : RangeMacSt → RangeMacSt) : (s.updMac m f).range.tmplSeq = s.range.tmplSeq := rfl

section
variable {s : State} {mac : Nat} {x : Stamp} {replay : Bool} {b : List Byte} {rest : List (Stamp × Bool × List Byte)}

/-- A packet of no template. -/
theorem State.rangePacket_noMatch (hbuf : (s.mac mac).buf = (x, replay, b) :: rest) (hm : s.matchPacket mac replay b = none) :
    s.rangePacket mac = (s.takeBuf mac rest).noMatch mac := by
  have hmatch : (s.takeBuf mac rest).matchPacket mac replay b = none := hm
  rw [State.rangePacket, hbuf]
  dsimp only
  rw [← State.takeBuf, hmatch]

/-- A packet of a template and of frame `k`. -/
theorem State.rangePacket_match (hbuf : (s.mac mac).buf = (x, replay, b) :: rest) {n k : Nat} {r : RangeTemplate} {p : List Byte}
    (hm : s.matchPacket mac replay b = some (n, r, p)) (hk : s.frameAt (s.toEpoch x.epoch (x.at_ - nsInst r.latencyNs)) = some k) :
    s.rangePacket mac = (s.takeBuf mac rest).takeRangePacket mac n r x (x.at_ - nsInst r.latencyNs) k replay p := by
  have hmatch : (s.takeBuf mac rest).matchPacket mac replay b = some (n, r, p) := hm
  have hframe : (s.takeBuf mac rest).frameAt ((s.takeBuf mac rest).toEpoch x.epoch (x.at_ - nsInst r.latencyNs)) = some k := hk
  rw [State.rangePacket, hbuf]
  dsimp only
  rw [← State.takeBuf, hmatch]
  dsimp only
  rw [hframe]

end

/-- One packet more has been forwarded for a template. -/
def State.countForwarded (s : State) (n : Nat) : State :=
  { s with range := { s.range with tmplSeq := SMap.update 0 s.range.tmplSeq n (· + 1) } }

/-- The place of the next slot that a template forwards to. -/
def State.fwdPlace (s : State) (n : Nat) (r : RangeTemplate) : Nat :=
  s.img.carveBase r.fwdCarve + r.fwdOff + (SMap.get 0 s.range.tmplSeq n).toNat % 2 ^ r.fwdLog2 * 2048

section
variable (s : State) (n : Nat) (r : RangeTemplate) (time : Instant) (k : Nat) (late replay : Bool) (b : List Byte)

/-- The slot that forwards a packet. -/
def State.fwdBytes : List Byte :=
  fwdSlot (s.fwdPlace n r) time k (SMap.get 0 s.range.tmplSeq n).toNat n r.mac (pointCount r b.length) late replay b

theorem State.forwardPacket_eq : s.forwardPacket n r time k late replay b =
    (s.put (s.fwdPlace n r) (s.fwdBytes n r time k late replay b)).countForwarded n := by
  unfold State.forwardPacket State.countForwarded State.fwdBytes State.fwdPlace
  rfl

theorem State.forwardPacket_range : (s.forwardPacket n r time k late replay b).range =
    { s.range with tmplSeq := SMap.update 0 s.range.tmplSeq n (· + 1) } := by
  rw [State.forwardPacket_eq, State.countForwarded, State.put_range]

theorem State.forwardPacket_grids : (s.forwardPacket n r time k late replay b).range.grids = s.range.grids := by
  rw [State.forwardPacket_range]

theorem State.forwardPacket_tmplSeq_self :
    SMap.get 0 (s.forwardPacket n r time k late replay b).range.tmplSeq n = SMap.get 0 s.range.tmplSeq n + 1 := by
  rw [State.forwardPacket_range]
  exact SMap.get_update_self 0 s.range.tmplSeq n (· + 1)

theorem State.forwardPacket_mac (m : Nat) : (s.forwardPacket n r time k late replay b).mac m = s.mac m := by
  rw [State.mac, State.forwardPacket_range]
  rfl

theorem State.forwardPacket_mem : (s.forwardPacket n r time k late replay b).mem =
    (s.put (s.fwdPlace n r) (s.fwdBytes n r time k late replay b)).mem := by
  rw [State.forwardPacket_eq, State.countForwarded]

variable {s} in
theorem State.forwardPacket_link (h : s.sound) : (s.forwardPacket n r time k late replay b).link = s.link := by
  rw [State.forwardPacket_eq, State.countForwarded, State.put_link h]

end

/-- The state once a packet has been binned into the grid of frame `k`. -/
def State.bin (s : State) (r : RangeTemplate) (k : Nat) (b : List Byte) : State :=
  { s with range := { s.range with
    grids := SMap.update [] s.range.grids k (binPacket s.img.split r b), binned := SMap.update 0 s.range.binned k (· + 1) } }

theorem State.bin_mac (s : State) (r : RangeTemplate) (k : Nat) (b : List Byte) (m : Nat) : (s.bin r k b).mac m = s.mac m := rfl

theorem State.bin_grids (s : State) (r : RangeTemplate) (k : Nat) (b : List Byte) :
    (s.bin r k b).range.grids = SMap.update [] s.range.grids k (binPacket s.img.split r b) := rfl

theorem State.memLike_takeBuf (s : State) (mac : Nat) (rest : List (Stamp × Bool × List Byte)) : s.memLike (s.takeBuf mac rest) :=
  ⟨rfl, rfl, rfl, rfl, rfl, rfl, rfl, rfl, rfl⟩

theorem State.memLike_bin {s t : State} (h : s.memLike t) (r : RangeTemplate) (k : Nat) (b : List Byte) : s.memLike (t.bin r k b) := h

section
variable {s : State} {x : Stamp} {k : Nat}

/-- A late packet is forwarded and counts. -/
theorem State.takeRangePacket_late (h : k < s.range.next ∨ s.gridCloseAt k ≤ s.now ∨ x.epoch ≠ s.tb.epoch) (mac n : Nat) (r : RangeTemplate)
    (time : Instant) (replay : Bool) (b : List Byte) :
    s.takeRangePacket mac n r x time k replay b =
      ((s.forwardPacket n r time k true replay b).updMac mac (fun m => { m with late := satInc m.late })).raise 109 mac 0 := by
  refine if_pos ?_
  simpa [or_assoc] using h

/-- A packet of a frame whose grid is open is binned, forwarded, and noted as come. -/
theorem State.takeRangePacket_open (hnext : s.range.next ≤ k) (hopen : s.now < s.gridCloseAt k) (hepoch : x.epoch = s.tb.epoch)
    (mac n : Nat) (r : RangeTemplate) (time : Instant) (replay : Bool) (b : List Byte) :
    s.takeRangePacket mac n r x time k replay b =
      ((s.bin r k b).forwardPacket n r time k false replay b).updMac mac (fun m => { m with
        matched := if m.matched.contains k then m.matched else m.matched ++ [k] }) := by
  refine if_neg ?_
  simpa [hepoch] using ⟨hnext, hopen⟩

end

/-! ### Range replay (R303) -/

theorem State.rangeTake_suspects (s : State) (mac : Nat) (x : Stamp) (replay : Bool) (f : List Byte) :
    (s.rangeTake mac x replay f).suspects = s.suspects := by
  unfold State.rangeTake
  dsimp only
  split
  · rfl
  · rw [State.raise_suspects, State.updMac_suspects]

/-- The next slot of the ring, undamaged and in time, enters the MAC's buffers at its STAMP. -/
theorem State.replayInject_due {s : State} {mac : Nat} {r : ReplayRing} (hsound : s.sound) {a : Nat} {d : List Byte}
    (ha : a = s.img.carveBase r.ringCarve + r.ringOff + (s.mac mac).replayPos % 2 ^ r.ringLog2 * 2048) (hdata : d = (s.fetch a 2048).data)
    (hcrc : leAt d 62 2 = crc16Fold a (d.take 62)) (hat : timeWordNs (timeWordOf (s.mac mac).replayAt) ≤ timeWordNs (leAt d 0 8))
    (hnow : timeWordNs (leAt d 0 8) ≤ timeWordNs (timeWordOf s.now)) :
    s.replayInject mac r = (s.rangeTake mac (s.stampAt (instOfTimeWord (leAt d 0 8))) true
      (slice d 18 1 ++ slice d 64 (leAt d 16 2))).nextReplay mac := by
  obtain ⟨hst, hstatus⟩ := State.fetch_ok hsound a 2048
  have hgood : ¬((s.fetch a 2048).status ≠ 0 ∨ leAt d 62 2 ≠ crc16Fold a (d.take 62)) := by simp [hstatus, hcrc]
  unfold State.replayInject
  dsimp only
  rw [← ha, ← hdata, if_neg hgood, if_neg (Nat.not_lt.mpr hat), if_neg (Nat.not_lt.mpr hnow), hst]

/-! ### The close of a grid (R293, R360) -/

/-- What a MAC keeps of frame `k` when its grid closes. -/
def RangeMacSt.closed (m : RangeMacSt) (k : Nat) : RangeMacSt := { m with seen := m.matched.contains k, matched := m.matched.filter (· != k) }

theorem State.closeMac_mac (k : Nat) (s : State) (m y : Nat) :
    (State.closeMac k s m).mac y = if y = m then (s.mac m).closed k else s.mac y := by
  have hupd : (s.updMac m (fun x => { x with seen := (s.mac m).matched.contains k, matched := x.matched.filter (· != k) })).mac y =
      if y = m then (s.mac m).closed k else s.mac y := State.updMac_mac _ _ _ _
  unfold State.closeMac
  dsimp only
  split
  · exact hupd
  · rw [State.raise_mac, hupd]

theorem State.closeMac_compares (k : Nat) (s : State) (m : Nat) : (State.closeMac k s m).compares = s.compares := by
  unfold State.closeMac
  dsimp only
  split
  · rfl
  · rw [State.raise_compares]
    rfl

/-- SEV-113 for a MAC of which no packet of the frame came. -/
theorem State.raisedTo_closeMac (k : Nat) (s : State) (m : Nat) :
    s.raisedTo (State.closeMac k s m) (if !((s.mac m).matched.contains k) then [(113, m, 0)] else []) := by
  unfold State.closeMac
  cases hgot : (s.mac m).matched.contains k
  · exact State.raisedTo_raise_of_link (State.updMac_link _ _ _) _ _ _
  · exact State.raisedTo_nil (State.updMac_link _ _ _)

theorem State.closeMacs_mac (k : Nat) {l : List Nat} (hl : l.Nodup) (s : State) (y : Nat) :
    (l.foldl (State.closeMac k) s).mac y = if y ∈ l then (s.mac y).closed k else s.mac y := by
  induction l generalizing s with
  | nil => rfl
  | cons m l ih =>
    obtain ⟨hm, hl⟩ := List.nodup_cons.mp hl
    rw [List.foldl_cons, ih hl, State.closeMac_mac]
    by_cases hy : y = m
    · rw [if_neg (hy ▸ hm), if_pos hy, if_pos (by simp [hy]), hy]
    · simp [hy]

theorem State.closeMacs_compares (k : Nat) (l : List Nat) (s : State) : (l.foldl (State.closeMac k) s).compares = s.compares :=
  List.foldlRecOn (motive := fun t : State => t.compares = s.compares) l _ rfl fun t ht m _ => (State.closeMac_compares k t m).trans ht

/-- SEV-113 for each of some MACs of which no packet of the frame came. -/
theorem State.raisedTo_closeMacs (k : Nat) {l : List Nat} (hl : l.Nodup) (s : State) :
    s.raisedTo (l.foldl (State.closeMac k) s)
      ((l.filter (fun m => !((s.mac m).matched.contains k))).map (fun m => (113, m, 0))) := by
  induction l generalizing s with
  | nil => exact State.raisedTo_nil rfl
  | cons m l ih =>
    obtain ⟨hm, hl⟩ := List.nodup_cons.mp hl
    have hrest : l.filter (fun y => !(((State.closeMac k s m).mac y).matched.contains k)) =
        l.filter (fun y => !((s.mac y).matched.contains k)) :=
      List.filter_congr fun y hy => by rw [State.closeMac_mac, if_neg (ne_of_mem_of_not_mem hy hm)]
    have hboth := State.raisedTo_trans (State.raisedTo_closeMac k s m) (ih hl (State.closeMac k s m))
    rw [hrest] at hboth
    rw [List.foldl_cons, List.filter_cons]
    split
    · next h => rwa [if_pos h] at hboth
    · next h => rwa [if_neg h] at hboth

theorem State.setObject_link (s : State) (ref value : Nat) : (s.setObject ref value).link = s.link := by
  unfold State.setObject
  dsimp only
  split <;> rfl

theorem State.setObject_compares (s : State) (ref value : Nat) : (s.setObject ref value).compares = s.compares := by
  unfold State.setObject
  dsimp only
  split <;> rfl

/-- The sets of the templates' objects at the close of frame `k`'s grid. -/
def State.setForwarded (s : State) (k : Nat) : State :=
  s.img.intake.templates.foldl (fun acc t => acc.setObject t.fwdSync ((k + 1) % 2 ^ 32)) s

theorem State.setForwarded_sensors (s : State) (k : Nat) : (s.setForwarded k).sensors = s.sensors :=
  foldl_sensors _ _ _ fun t _ => t.setObject_sensors _ _

theorem State.setForwarded_link (s : State) (k : Nat) : (s.setForwarded k).link = s.link :=
  List.foldlRecOn (motive := fun t : State => t.link = s.link) _ _ rfl fun t ht _ _ => (t.setObject_link _ _).trans ht

theorem State.setForwarded_compares (s : State) (k : Nat) : (s.setForwarded k).compares = s.compares :=
  List.foldlRecOn (motive := fun t : State => t.compares = s.compares) _ _ rfl fun t ht _ _ => (t.setObject_compares _ _).trans ht

@[simp] theorem State.readCopy_sensors (s : State) (p k : Nat) : (s.readCopy p k).1.sensors = s.sensors := by
  unfold State.readCopy
  dsimp only
  split <;> exact State.fetch_sensors _ _ _

theorem State.cameraBufs_sensors (k : Nat) (l : List (Nat × Nat)) (s : State) : (State.cameraBufs k l s).1.sensors = s.sensors := by
  induction l generalizing s with
  | nil => rfl
  | cons e l ih =>
    obtain ⟨n, p⟩ := e
    rw [State.cameraBufs]
    dsimp only
    split <;> simp [ih]

theorem State.startChecker_sensors (s : State) (k : Nat) (grid : SMap GridCell) (binned : Nat) :
    (s.startChecker k grid binned).sensors = s.sensors := by
  unfold State.startChecker
  split
  · rfl
  · exact (State.settle_sensors _).trans ((State.updSaf_sensors _ _).trans (State.cameraBufs_sensors _ _ _))

/-- The state once the MACs have closed frame `k` and the templates' objects are set. -/
def State.closedMacs (s : State) (k : Nat) : State := (s.img.rangeMacList.foldl (State.closeMac k) s).setForwarded k

theorem State.rangeMacList_nodup (s : State) : s.img.rangeMacList.Nodup := List.nodup_range.filter _

theorem State.closedMacs_mac (s : State) (k : Nat) {m : Nat} (h : m ∈ s.img.rangeMacList) : (s.closedMacs k).mac m = (s.mac m).closed k := by
  rw [State.closedMacs, State.mac_of_sensors (State.setForwarded_sensors _ _), State.closeMacs_mac k s.rangeMacList_nodup, if_pos h]

theorem State.closedMacs_compares (s : State) (k : Nat) : (s.closedMacs k).compares = s.compares :=
  (State.setForwarded_compares _ _).trans (State.closeMacs_compares _ _ _)

/-- The state once the grid of frame `k` has closed, before the checker's run. -/
def State.closedGrid (s : State) (k : Nat) : State :=
  { s.closedMacs k with range := { (s.closedMacs k).range with
    next := k + 1, grids := SMap.set [] (s.closedMacs k).range.grids k [], binned := SMap.set 0 (s.closedMacs k).range.binned k 0 } }

theorem State.closedGrid_compares (s : State) (k : Nat) : (s.closedGrid k).compares = s.compares := s.closedMacs_compares k

theorem State.closedGrid_mac (s : State) (k m : Nat) : (s.closedGrid k).mac m = (s.closedMacs k).mac m := rfl

theorem State.raisedTo_closedGrid (s : State) (k : Nat) : s.raisedTo (s.closedGrid k)
    ((s.img.rangeMacList.filter (fun m => !((s.mac m).matched.contains k))).map (fun m => (113, m, 0))) := by
  refine State.raisedTo_of_events (State.raisedTo_closeMacs k s.rangeMacList_nodup s) rfl ?_
  exact congrArg HostLinkSt.events (State.setForwarded_link _ _)

/-- The checker does not run in a mode that does not compare. -/
theorem State.startChecker_off {s : State} (hno : s.compares = false) (k : Nat) (grid : SMap GridCell) (binned : Nat) :
    s.startChecker k grid binned = s := by
  rw [State.startChecker, hno]
  rfl

/-- The grid of the next frame closes once its time has come. -/
theorem State.gridClose_due {s : State} (hs : s.started = true) (hdue : s.gridCloseAt s.range.next ≤ s.now) :
    s.gridClose = (s.closedGrid s.range.next).startChecker s.range.next (SMap.get [] s.range.grids s.range.next)
      (SMap.get 0 s.range.binned s.range.next) := by
  refine if_neg ?_
  rw [hs]
  simpa using hdue

/-- Settles O40: a packet by its match and its time, the ring's next slot, and the close of a grid MAC by MAC. -/
theorem rangeIntake : Obligations.RangeIntake := by
  unfold Obligations.RangeIntake
  refine ⟨?packet, ?inject, ?close⟩
  case packet =>
    intro s mac x replay b rest hmac hbuf
    have hexec : exec (.rangePacketReceive mac) s = .next (s.rangePacket mac) := by
      change execRangePacketReceive mac s = _
      rw [execRangePacketReceive, if_pos hmac]
    refine ⟨fun hm => ⟨_, hexec, ?_⟩, fun n k r p hm hk => ?_⟩
    · rw [State.rangePacket_noMatch hbuf hm, State.noMatch]
      have hlink : ((s.takeBuf mac rest).updMac mac (fun m => { m with noMatch := satInc m.noMatch })).link = s.link := rfl
      refine ⟨?_, ?_, State.raisedTo_raise_of_link hlink _ _ _, ?_, ?_⟩
      · rw [State.raise_mac, State.updMac_mac_self, State.takeBuf, State.updMac_mac_self]
      · rw [State.raise_mac, State.updMac_mac_self, State.takeBuf, State.updMac_mac_self]
      · rw [State.raise_range]
        rfl
      · rw [State.raise_mem]
        rfl
    · intro a slot
      rw [State.rangePacket_match hbuf hm hk] at hexec
      refine ⟨fun hnext hopen hepoch => ⟨_, hexec, ?_⟩, fun hlate => ⟨_, hexec, ?_⟩⟩
      · rw [State.takeRangePacket_open (s := s.takeBuf mac rest) hnext hopen hepoch]
        have hmem := s.memLike_takeBuf mac rest
        rw [State.updMac_mac_self, State.updMac_grids, State.updMac_tmplSeq, State.updMac_mem, State.forwardPacket_mac,
          State.forwardPacket_grids, State.forwardPacket_tmplSeq_self, State.forwardPacket_mem, State.bin_mac, State.takeBuf_mac_self,
          State.bin_grids]
        refine ⟨rfl, ?_, SMap.get_update_self _ _ _ _, fun k' hk' => SMap.get_update_ne _ _ _ _ _ hk', rfl,
          (State.memLike_put (State.memLike_bin hmem r k p) _ _).1⟩
        dsimp only
        split
        · next h => exact List.contains_iff_mem.mp h
        · simp
      · rw [State.takeRangePacket_late (s := s.takeBuf mac rest) hlate]
        have hmem := s.memLike_takeBuf mac rest
        have hlink : s.sound → ((s.takeBuf mac rest).forwardPacket n r (x.at_ - nsInst r.latencyNs) k true replay p).link = s.link :=
          fun hsound => State.forwardPacket_link (s := s.takeBuf mac rest) _ _ _ _ _ _ _ hsound
        rw [State.raise_mac, State.raise_range, State.raise_mem, State.updMac_mac_self, State.updMac_grids, State.updMac_tmplSeq,
          State.updMac_mem, State.forwardPacket_mac, State.forwardPacket_grids, State.forwardPacket_tmplSeq_self, State.forwardPacket_mem,
          State.takeBuf_mac_self]
        exact ⟨rfl, rfl, rfl, fun hsound => State.raisedTo_raise_of_link ((State.updMac_link _ _ _).trans (hlink hsound)) _ _ _,
          rfl, (State.memLike_put hmem _ _).1⟩
  case inject =>
    intro s mac r hmac hr hs hring hsus hsound a d hcrc hat hnow
    change execRangeReplayInject mac s = _
    rw [execRangeReplayInject, if_neg (by simp [hr, hs, hmac]), hring]
    dsimp only
    rw [State.replayInject_due hsound rfl rfl hcrc hat hnow, State.settle_of_none]
    rw [State.nextReplay, State.updMac_suspects, State.rangeTake_suspects, hsus]
  case close =>
    intro s hs hdue
    refine ⟨s.gridClose, rfl, ?_⟩
    have hcheck := State.startChecker_sensors (s.closedGrid s.range.next) s.range.next (SMap.get [] s.range.grids s.range.next)
      (SMap.get 0 s.range.binned s.range.next)
    rw [State.gridClose_due hs hdue]
    refine ⟨?_, ?_, fun m hm => ?_, fun hno => ?_⟩
    · rw [State.range_of_sensors hcheck]
      rfl
    · rw [State.range_of_sensors hcheck]
      exact SMap.get_set_self _ _ _ _
    · rw [State.mac_of_sensors hcheck, State.closedGrid_mac, State.closedMacs_mac _ _ hm]
      exact ⟨rfl, by simp [RangeMacSt.closed]⟩
    · rw [State.startChecker_off ((State.closedGrid_compares _ _).trans hno)]
      exact s.raisedTo_closedGrid _

end Sys2Proof.Machine
end

section
/-! PROOFS of the family of 11_sensor_intake.md: the replay decoders' entries and the offer of their frames (R295 to R298, R302). -/

namespace Sys2Proof.Machine

/-! ### A decoder -/

theorem State.updDec_dec_self (s : State) (d : Nat) (f : DecoderSt → DecoderSt) : ((s.updDec d f).die d).dec = f (s.die d).dec := by
  rw [State.updDec, State.updDie_die_self]

theorem State.updDec_diesOnly (s : State) (d : Nat) (f : DecoderSt → DecoderSt) :
    s.updDec d f = { s with dies := (s.updDec d f).dies } := rfl

/-! ### The start of an entry (R295 to R299) -/

/-- The place of the entry at HEAD of a ring. -/
def State.entryPlace (s : State) (d : Nat) (r : ReplayRing) : Nat :=
  s.img.carveBase r.ringCarve + r.ringOff + (s.die d).dec.head.toNat % 2 ^ r.ringLog2 * 64

section
variable {s : State} (hsound : s.sound)
include hsound

/-- In memory without errors, an entry that fails the checks of step 1 stops the decoder. -/
theorem State.decStart_stops {d : Nat} {r : ReplayRing}
    (h : s.entryOk d (s.entryPlace d r) (s.fetch (s.entryPlace d r) 64).data = false) : s.decStart d r = s.decStop d 0x44 := by
  obtain ⟨hst, -⟩ := State.fetch_ok hsound (s.entryPlace d r) 64
  unfold State.decStart
  dsimp only
  rw [← State.entryPlace, h, hst]
  exact if_pos (Or.inr rfl)

/-- In memory without errors, an entry that passes the checks and is due goes on to its stream. -/
theorem State.decStart_runs {d : Nat} {r : ReplayRing} {e : List Byte} {v : IspView} (he : e = (s.fetch (s.entryPlace d r) 64).data)
    (hok : s.entryOk d (s.entryPlace d r) e = true) (hdue : s.decDue d e = true) (hbits : s.bitsMatch e = true)
    (hsrc : s.hostReach (entSrc e) (entLength e) = true) (hline : s.hostReach (entLine e) 64 = true)
    (hview : s.ispView (entCamera e) = some v) : s.decStart d r = s.decRun d e v := by
  obtain ⟨hst, hstatus⟩ := State.fetch_ok hsound (s.entryPlace d r) 64
  unfold State.decStart
  dsimp only
  have hgood : ¬((s.fetch (s.entryPlace d r) 64).status ≠ 0 ∨ (!(s.entryOk d (s.entryPlace d r) e)) = true) := by simp [hstatus, hok]
  have hreach : ¬((!(s.hostReach (entSrc e) (entLength e))) = true ∨ (!(s.hostReach (entLine e) 64)) = true) := by simp [hsrc, hline]
  rw [← State.entryPlace, ← he, if_neg hgood, if_neg (by simp [hdue]), if_neg (by simp [hbits]), if_neg hreach, hview, hst]

/-- In memory without errors the coded data is decoded, whatever of it the header's lines hold. -/
theorem State.decData_sound (a n : Nat) (dec : Unit → Option (List (List Nat) × Bool)) : s.decData a n dec = (s, dec ()) := by
  obtain ⟨hst, hstatus⟩ := State.fetch_ok hsound a n
  unfold State.decData
  split
  · rfl
  · dsimp only
    rw [hst, if_pos hstatus]

end

/-- An entry that asks for no augmentation leaves the planes of the stream. -/
theorem augment_none {e : List Byte} (h : leAt e 1 1 = 0) (a : AugIn) (d : DecodedFrame) (wo ho : Nat) : augment a e d wo ho = d.planes := by
  have haug : ∀ i, entAug e i = false := fun i => by simp [entAug, h, bit]
  simp [augment, haug]

/-- The decoder once an entry's stream has been decoded whole. -/
def State.decoded (s : State) (d : Nat) (e : List Byte) (v : IspView) (planes : List (List Nat)) : State :=
  s.updDec d (fun x => { x with
    busy := true, entry := e, status := 0, trunc := false, jpeg := entFormat e == 1, width := v.intake.width, height := v.intake.height
    planes := planes })

/-- In memory without errors, an entry in time whose stream passes the header checks and decodes whole leaves its planes. -/
theorem State.decRun_decodes {s : State} (hsound : s.sound) {d : Nat} {e : List Byte} {v : IspView} {w h : Nat}
    {dec : Unit → Option (List (List Nat) × Bool)} {planes : List (List Nat)}
    (hk : ((s.frameAt (s.dieFrameTime d)).getD 0 : Int) ≤ s.entK e d) (haug : leAt e 1 1 = 0 ∨ (s.region (entRegion e)).rngValid = true)
    (hhead : headerChecks (entFormat e) (s.entRatio e * entLength e) v.intake.width v.intake.height (entAug e 0) (entAug e 1)
      (s.fetch (entSrc e) (entLength e)).data = .inr (w, h, dec)) (hdec : dec () = some (planes, false)) :
    ∃ planes' : List (List Nat), s.decRun d e v = s.decoded d e v planes' ∧ (leAt e 1 1 = 0 → planes' = planes) := by
  have hrandom : ¬(decide (leAt e 1 1 ≠ 0) = true ∧ (!(s.region (entRegion e)).rngValid) = true) := by
    rcases haug with h | h <;> simp [h]
  obtain ⟨hst, hstatus⟩ := State.fetch_ok hsound (entSrc e) (headerBytes (entFormat e) (s.fetch (entSrc e) (entLength e)).data)
  refine ⟨?planes, ?run, ?plain⟩
  case run =>
    unfold State.decRun
    dsimp only
    rw [if_neg (not_lt.mpr hk), if_neg hrandom, hst, if_neg (not_not.mpr hstatus), hhead]
    dsimp only
    rw [State.decData_sound hsound, hdec]
    rfl
  case plain =>
    intro h0
    exact augment_none h0 _ _ _ _

/-- An entry is looked at while the decoder is idle and its ring holds one. -/
theorem execDecoderEntryStart_idle {s : State} {d : Nat} {r : ReplayRing} (hd : d < 4) (herr : (s.die d).dec.err = false)
    (hbusy : (s.die d).dec.busy = false) (hne : (s.die d).dec.head ≠ (s.die d).dec.tail) (hr : s.isReplay = true)
    (hdown : s.dieDown d = false) (hring : s.decRing d = some r) : exec (.decoderEntryStart d) s = .next (s.decStart d r).settle := by
  have hidle : ¬(4 ≤ d ∨ (s.die d).dec.err = true ∨ (s.die d).dec.busy = true ∨ (s.die d).dec.head = (s.die d).dec.tail ∨
      (!s.isReplay) = true ∨ s.dieDown d = true) := by
    simp [hd, herr, hbusy, hne, hr, hdown]
  change execDecoderEntryStart d s = _
  rw [execDecoderEntryStart, if_neg hidle, hring]

/-! ### The offer (R296, R298) -/

/-- What a flag of a note does not touch. -/
theorem FrameJob.mark_part {α : Type} (part : FrameJob → α) (j : FrameJob) (f : Nat) (h : ∀ n, part { j with flags := n } = part j) :
    part (j.mark f) = part j := by
  unfold FrameJob.mark
  split
  · rfl
  · exact h _

theorem FrameJob.mark_flags (j : FrameJob) (f : Nat) : (j.mark f).flags = if bit j.flags f then j.flags else j.flags + 2 ^ f := by
  unfold FrameJob.mark
  split <;> rfl

/-- The frame that an offer hands over, in a raw slot, before its flags. -/
def State.offerBase (s : State) (d : Nat) (o : Offer) (capOff : Nat) (v : IspView) : FrameJob where
  camera := o.camera
  facet := v.bind.facet
  k := o.frame
  capture := { s.dieStamp d with at_ := (s.t0 + nsInst (o.frame * s.frameNs + capOff)).toNat, epoch := s.tb.epoch }
  slot := if ((s.jobsOf v.bind).map (·.slot)).contains 0 then 1 else 0
  lines := if o.void then 0 else v.intake.height
  sample := o.sample
  replay := true
  void := o.void
  jpeg := o.jpeg && !o.void
  planes := if o.jpeg then o.planes else []
  ended := true

/-- The frame that an offer hands over. -/
def State.offerJob (s : State) (d : Nat) (o : Offer) (capOff : Nat) (v : IspView) : FrameJob :=
  if o.truncated then ((s.offerBase d o capOff v).mark noteReplay).mark noteTrunc else (s.offerBase d o capOff v).mark noteReplay

theorem State.offerJob_part {α : Type} (part : FrameJob → α) (s : State) (d : Nat) (o : Offer) (capOff : Nat) (v : IspView)
    (h : ∀ (j : FrameJob) (n : Nat), part { j with flags := n } = part j) : part (s.offerJob d o capOff v) = part (s.offerBase d o capOff v) := by
  unfold State.offerJob
  split
  · rw [FrameJob.mark_part part _ _ (h _), FrameJob.mark_part part _ _ (h _)]
  · rw [FrameJob.mark_part part _ _ (h _)]

/-- An offered frame is marked REPLAY. -/
theorem State.offerJob_replay (s : State) (d : Nat) (o : Offer) (capOff : Nat) (v : IspView) :
    bit (s.offerJob d o capOff v).flags noteReplay = true := by
  have hclear : (s.offerBase d o capOff v).flags = 0 := rfl
  unfold State.offerJob
  split
  · rw [FrameJob.mark_flags, FrameJob.mark_flags, hclear]
    decide
  · exact FrameJob.bit_mark_self _ _

theorem State.putRaw_sensors (s : State) (v : IspView) (slot : Nat) (p : List Nat) : (s.putRaw v slot p).sensors = s.sensors :=
  (foldl_sensors _ _ _ fun _ _ => State.put_sensors _ _ _).trans (State.put_sensors _ _ _)

/-- An offer whose time has come, with a free raw slot, hands its frame to its camera. -/
theorem State.offer_due {s : State} {d : Nat} {o : Offer} {capOff : Nat} {v : IspView} (hfree : (s.jobsOf v.bind).length < 2)
    (hdue : (s.t0 + nsInst (o.frame * s.frameNs + capOff)).toNat + nsInst v.bind.latencyNs ≤ s.dieFrameTime d) :
    ∃ u : State, u.sensors = s.sensors ∧ s.offer d o capOff v =
      (u.updDec d (fun x => { x with offers := x.offers.drop 1 })).updCam o.camera (fun c => { c with
        waiting := c.waiting ++ [s.offerJob d o capOff v] }) := by
  have hgo : ¬(s.dieFrameTime d < (s.t0 + nsInst (o.frame * s.frameNs + capOff)).toNat + nsInst v.bind.latencyNs ∨
      2 ≤ (s.jobsOf v.bind).length) := by
    rintro (h | h)
    · exact absurd hdue (Nat.not_le.mpr h)
    · exact absurd hfree (Nat.not_lt.mpr h)
  refine ⟨if o.void ∨ o.jpeg then s else s.putRaw v (s.offerBase d o capOff v).slot (o.planes.headD []), ?_, ?_⟩
  · split
    · rfl
    · exact State.putRaw_sensors _ _ _ _
  · unfold State.offer
    dsimp only
    rw [if_neg hgo]
    rfl

/-- Settles O41: a tail by the room of its ring, an entry by the checks that it passes, its end, and the offer of its frame. -/
theorem replayDecoders : Obligations.ReplayDecoders := by
  unfold Obligations.ReplayDecoders
  refine ⟨?tail, ?start, ?finish, ?offer⟩
  case tail =>
    intro s d w r hd hopen hring room
    have hexec : exec (.decoderTailWrite d w) s = .next (s.writeDecTail d w.toNat) := by
      change execDecoderTailWrite d w s = _
      rw [execDecoderTailWrite, if_neg (Nat.not_le.mpr hd), if_pos hopen]
    rw [hexec, State.writeDecTail, hring]
    dsimp only
    refine ⟨fun h => ?_, fun h => ?_⟩
    · rw [if_neg (Nat.not_lt.mpr (of_decide_eq_true h))]
    · rw [if_pos (Nat.not_le.mp (of_decide_eq_false h))]
  case start =>
    intro s d r hd herr hbusy hne hr hdown hring hsus hsound a e
    have hexec := execDecoderEntryStart_idle hd herr hbusy hne hr hdown hring
    refine ⟨fun hbad => ?_, fun v w h dec planes hok hdue hbits hsrc hline hview hk haug hhead hdec => ?_⟩
    · have hsettle : (s.decStop d 0x44).settle = s.decStop d 0x44 := by
        apply State.settle_of_none
        rw [State.decStop, State.raiseDie_suspects]
        exact hsus
      rw [State.decStart_stops hsound hbad, hsettle, State.decStop] at hexec
      refine ⟨_, hexec, ?_⟩
      rw [State.raiseDie_die, State.updDec_dec_self]
      refine ⟨rfl, rfl, rfl, State.raisedTo_raiseDie_of_link ?_ _ _ _ _⟩
      rfl
    · obtain ⟨planes', hrun, hplain⟩ := State.decRun_decodes hsound hk haug hhead hdec
      have hsettle : (s.decoded d e v planes').settle = s.decoded d e v planes' := State.settle_of_none hsus
      rw [State.decStart_runs (e := e) hsound rfl hok hdue hbits hsrc hline hview, hrun, hsettle, State.decoded] at hexec
      refine ⟨_, hexec, ?_⟩
      rw [State.updDec_dec_self]
      exact ⟨rfl, rfl, rfl, rfl, hplain, s.updDec_diesOnly _ _⟩
  case finish =>
    intro s d hd hbusy hdown x k
    have hexec : exec (.decoderEntryFinish d) s = .next (s.decFinish d) := by
      change execDecoderEntryFinish d s = _
      rw [execDecoderEntryFinish, if_pos ⟨hd, hbusy, by rw [hdown]; rfl⟩]
    refine ⟨_, hexec, ?_⟩
    rw [State.decFinish, State.updDec_dec_self, State.put_dec, State.updDec_mem]
    exact ⟨rfl, rfl, ⟨_, rfl, rfl, rfl, rfl, rfl⟩, rfl⟩
  case offer =>
    intro s d o capOff rest v hd hdown hoffers hview hfree hdue
    have hexec : exec (.replayFrameOffer d) s = .next (s.offer d o capOff v) := by
      change execReplayFrameOffer d s = _
      rw [execReplayFrameOffer, hoffers]
      dsimp only
      rw [if_neg (by simp [hd, hdown]), hview]
    obtain ⟨u, hu, heq⟩ := State.offer_due hfree hdue
    refine ⟨_, s.offerJob d o capOff v, hexec, ?_⟩
    rw [heq, State.updCam_cam_self, State.updCam_die, State.updDec_dec_self, State.dec_of_sensors hu, hoffers]
    refine ⟨rfl, ?_, s.offerJob_part FrameJob.k d o capOff v fun _ _ => rfl, s.offerJob_part FrameJob.replay d o capOff v fun _ _ => rfl,
      s.offerJob_part FrameJob.ended d o capOff v fun _ _ => rfl, s.offerJob_part FrameJob.void d o capOff v fun _ _ => rfl,
      s.offerJob_part (fun j => j.capture.at_) d o capOff v fun _ _ => rfl, s.offerJob_replay d o capOff v⟩
    rw [State.updDec, State.updDie_cam, State.cam_of_sensors hu]

end Sys2Proof.Machine
end

section
/-! PROOFS of the family of 13_time_base.md: the counter and its ticks (R330, R338, R349, R398). -/

namespace Sys2Proof.Machine

/-- A map of the values that keeps the default maps what every key reads. -/
theorem SMap.get_map_values {α : Type} {d : α} {f : α → α} (hd : f d = d) (m : SMap α) (k : Nat) :
    SMap.get d (m.map fun e => (e.1, f e.2)) k = f (SMap.get d m k) := by
  induction m with
  | nil => exact hd.symm
  | cons e t ih =>
    obtain ⟨k', v⟩ := e
    simp only [List.map_cons, SMap.get, ih]
    rw [apply_ite f, apply_ite f, hd]

/-! ### A tick (R330) -/

/-- The counter advances by INCR, round its span. -/
theorem TimeBase.tick_now {tb : TimeBase} (hns : tb.ns.toNat < 10 ^ 9) :
    tb.tick.now = (tb.now + tb.incr.toNat) % (2 ^ 48 * 10 ^ 9 * 2 ^ 32) := by
  have hone : (1 : BitVec 48).toNat = 1 := rfl
  simp only [TimeBase.tick, TimeBase.now, perNs, BitVec.toNat_ofNat]
  change (_ : Nat) = _
  by_cases hw : 10 ^ 9 * 2 ^ 32 ≤ tb.ns.toNat * 2 ^ 32 + tb.frac.toNat + tb.incr.toNat
  · simp only [hw, decide_true, if_true, BitVec.toNat_add, hone]
    omega
  · simp only [hw, decide_false, Bool.false_eq_true, if_false]
    omega

/-- NS counts below 10^9 again. -/
theorem TimeBase.tick_ns_lt {tb : TimeBase} (hns : tb.ns.toNat < 10 ^ 9) : tb.tick.ns.toNat < 10 ^ 9 := by
  simp only [TimeBase.tick, BitVec.toNat_ofNat, decide_eq_true_eq]
  split <;> omega

/-- A tick moves the reading, the count of ticks and the pulses alone. -/
theorem TimeBase.tick_eq (tb : TimeBase) : tb.tick = { tb with
    sec := tb.tick.sec, ns := tb.tick.ns, frac := tb.tick.frac, ticks := tb.tick.ticks, pulse := tb.tick.pulse } := rfl

/-! ### A missing edge of a PPS source (R338) -/

/-- A lost measurement moves on to the next second, and touches the time base no further. -/
theorem State.ppsMissing_tb (s : State) : ∃ p : Nat, s.ppsMissing.tb = { s.tb with ppsNext := p } := by
  unfold State.ppsMissing
  split
  · exact ⟨_, State.raise_tb _ _ _ _⟩
  · exact ⟨_, rfl⟩

theorem TimeBase.now_ppsNext (tb : TimeBase) (p : Nat) : ({ tb with ppsNext := p } : TimeBase).now = tb.now := rfl

theorem State.ppsMissing_of_source {s : State} (h : s.img.time.source ≠ 3) : s.ppsMissing = s := if_neg fun hc => h hc.1

/-! ### The scans that read on with the clock (R398 to R400) -/

theorem State.fetchUnits_aside (l : List (Nat × Nat)) (line : Option Nat) (f : Fetch) :
    (State.fetchUnits line l f).st.aside = f.st.aside := by
  induction l generalizing line f with
  | nil => rfl
  | cons e l ih =>
    unfold State.fetchUnits
    split
    · rfl
    · exact (ih _ _).trans (State.fetchPart_aside _ _ _ _)

@[simp] theorem State.fetch_aside (s : State) (a n : Nat) : (s.fetch a n).st.aside = s.aside :=
  State.fetchUnits_aside _ _ _

@[simp] theorem State.scanLines_aside (own : Option Nat) (p : Poly) (n : Nat) (s : State) (a reg : Nat) :
    (s.scanLines own p n a reg).1.aside = s.aside := by
  induction n generalizing s a reg with
  | zero => rfl
  | succ n ih =>
    unfold State.scanLines
    split
    · rfl
    · dsimp only
      split
      · exact s.fetch_aside a 64
      · exact (ih _ _ _).trans (s.fetch_aside a 64)

@[simp] theorem State.updCvu_aside (s : State) (unit : Nat) (f : CvuSt → CvuSt) : (s.updCvu unit f).aside = s.aside := by
  unfold State.updCvu
  split <;> rfl

@[simp] theorem State.scanSome_aside (s : State) (unit n : Nat) : (s.scanSome unit n).aside = s.aside := by
  unfold State.scanSome
  dsimp only
  rw [apply_ite State.aside, State.updCvu_aside, State.scanLines_aside, ite_self]

@[simp] theorem State.scanTick_aside (s : State) : s.scanTick.aside = s.aside := by
  refine foldl_aside _ _ _ fun t u => ?_
  split
  · exact t.draw.2.scanSome_aside u _
  · rfl

theorem State.updTb_cvuOf (s : State) (f : TimeBase → TimeBase) (u : Nat) : (s.updTb f).cvuOf u = s.cvuOf u := rfl

theorem State.scanTick_of_idle {s : State} (h : ∀ u : Nat, u < 17 → (s.cvuOf u).busy = false) : s.scanTick = s := by
  refine List.foldlRecOn (motive := fun t : State => t = s) _ _ rfl fun t ht u hu => ?_
  rw [ht, h u (List.mem_range.mp hu)]
  rfl

theorem State.tb_of_aside {s t : State} (h : t.aside = s.aside) : t.tb = s.tb := congrArg Aside.tb h

/-- Settles O42: a tick sets the counter, and what follows it touches the time base only where a PPS edge is missed. -/
theorem timeBaseCounter : Obligations.TimeBaseCounter := by
  unfold Obligations.TimeBaseCounter
  intro s hr hns _
  obtain ⟨p, hpps⟩ := (s.updTb TimeBase.tick).ppsMissing_tb
  have htb : (s.updTb TimeBase.tick).ppsMissing.scanTick.tb = { s.tb.tick with ppsNext := p } :=
    (State.tb_of_aside (State.scanTick_aside _)).trans hpps
  refine ⟨_, congrArg Host.Outcome.next (if_pos hr), ?_⟩
  rw [htb, TimeBase.now_ppsNext]
  refine ⟨TimeBase.tick_now hns, TimeBase.tick_ns_lt hns, rfl, ?_, ?_⟩
  · exact SMap.get_map_values (f := fun v => if 2 ≤ v then v - 1 else v) rfl s.tb.pulse
  · intro hsrc hidle
    have hmiss : (s.updTb TimeBase.tick).ppsMissing = s.updTb TimeBase.tick :=
      State.ppsMissing_of_source (by rwa [State.updTb_img])
    rw [hmiss, State.scanTick_of_idle fun u hu => (State.updTb_cvuOf s _ u).symm ▸ hidle u hu]
    exact congrArg (fun tb => { s with tb := tb }) s.tb.tick_eq

end Sys2Proof.Machine
end

section
/-! PROOFS of the family of 13_time_base.md: measurements of the source, lock and holdover (R334, R338, R339). -/

namespace Sys2Proof.Machine

/-! ### Offsets that count (R339) -/

/-- An offset within LOCK_NS. -/
theorem State.countOffset_good {s : State} {offset : Int} (h : offset.natAbs ≤ nsInst s.img.time.lockNs) :
    s.countOffset offset = s.updTb (fun tb => { tb with
      goodRun := min 16 (s.tb.goodRun + 1), badRun := 0, locked := tb.locked || min 16 (s.tb.goodRun + 1) == 16
      bigRaised := tb.bigRaised && !(min 16 (s.tb.goodRun + 1) == 16) }) := if_pos (decide_eq_true h)

/-- What an offset above LOCK_NS makes of the time base. -/
theorem State.countOffset_bad_tb {s : State} {offset : Int} (h : nsInst s.img.time.lockNs < offset.natAbs) :
    ∃ big : Bool, (s.countOffset offset).tb = { s.tb with
      goodRun := 0, badRun := min 4 (s.tb.badRun + 1), locked := s.tb.locked && min 4 (s.tb.badRun + 1) != 4, bigRaised := big } := by
  have hbad : ¬ decide (offset.natAbs ≤ nsInst s.img.time.lockNs) = true := by simpa using h
  unfold State.countOffset
  dsimp only
  rw [if_neg hbad]
  rw [apply_ite State.tb, State.updTb_tb, State.raise_tb]
  split
  · exact ⟨true, by split <;> simp only [State.raise_tb, State.updTb_tb]⟩
  · exact ⟨s.tb.bigRaised, by split <;> simp only [State.raise_tb, State.updTb_tb]⟩

/-! ### Measurements (R334, R338, R339) -/

theorem State.sourceBack_tb (s : State) : s.sourceBack.tb = { s.tb with
    holdover := false, valid := s.tb.valid || s.tb.locked, measuredAt := s.mono } := rfl

theorem State.usePtp_eq (s : State) : s.usePtp = { s with hp := s.usePtp.hp } := by
  unfold State.usePtp
  split <;> rfl

/-- The reading that the first step takes lies within the span of the counter. -/
theorem emod_counterSpan_lt (x : Int) : (x % (counterSpan : Int)).toNat < counterSpan := by
  have h0 : 0 ≤ x % (counterSpan : Int) := Int.emod_nonneg _ (by decide)
  have h1 : x % (counterSpan : Int) < counterSpan := Int.emod_lt_of_pos _ (by decide)
  omega

theorem emod_counterSpan_toNat (x : Int) : ((x % (counterSpan : Int)).toNat : Int) = x % (counterSpan : Int) :=
  Int.toNat_of_nonneg (Int.emod_nonneg _ (by decide))

theorem State.offsetMeasurement_ptp {s : State} (hr : s.timeRuns = true) (hs : s.sourceSteps = true) (offset : Int) :
    s.offsetMeasurement offset = s.usePtp.measure offset := by
  simp [State.offsetMeasurement, hr, hs]

theorem State.sourceSteps_pps {s : State} (h : s.img.time.source = 3) : s.sourceSteps = false := by
  simp [State.sourceSteps, h]

theorem State.offsetMeasurement_pps {s : State} (hr : s.timeRuns = true) (hs : s.img.time.source = 3) (offset : Int) :
    s.offsetMeasurement offset = s.ppsMeasure s.now offset := by
  simp [State.offsetMeasurement, hr, hs, State.sourceSteps_pps hs]

/-- Before the first step, a source that steps by itself takes it. -/
theorem State.measure_first {s : State} (hs : s.sourceSteps = true) (h : s.tb.stepped = false) (offset : Int) :
    s.measure offset = ((s.firstStep (((s.now : Int) - offset) % (counterSpan : Int)).toNat).countOffset 0).sourceBack := by
  simp [State.measure, hs, h]

theorem State.measure_stepped {s : State} (h : s.tb.stepped = true) (offset : Int) :
    s.measure offset = (s.countOffset offset).sourceBack := by
  simp [State.measure, h]

/-- An offset that counts as good, and the source there again, leave the reading and STEPPED alone. -/
theorem State.countOffset_good_back {s : State} {offset : Int} (h : offset.natAbs ≤ nsInst s.img.time.lockNs) :
    ∃ tb : TimeBase, (s.countOffset offset).sourceBack = { s with tb := tb } ∧ tb.now = s.tb.now ∧ tb.stepped = s.tb.stepped := by
  rw [State.countOffset_good h]
  exact ⟨_, rfl, rfl, rfl⟩

/-- The first measurement of a source that steps by itself is the first step, to the source's reading. -/
theorem State.offsetMeasurement_first {s : State} (hr : s.timeRuns = true) (hs : s.sourceSteps = true) (hst : s.tb.stepped = false)
    (htxn : s.ctx.txn = none) (offset : Int) :
    (s.offsetMeasurement offset).tb.stepped = true ∧
      ((s.offsetMeasurement offset).tb.now : Int) = ((s.tb.now : Int) - offset) % (counterSpan : Int) ∧
      s.offsetMeasurement offset = { s with tb := (s.offsetMeasurement offset).tb, hp := (s.offsetMeasurement offset).hp } := by
  have hptp := (State.offsetMeasurement_ptp hr hs offset).trans (congrArg (State.measure · offset) s.usePtp_eq)
  generalize s.usePtp.hp = hp at hptp
  rw [State.measure_first (s := { s with hp := hp }) hs hst] at hptp
  have hlt := emod_counterSpan_lt ((s.tb.now : Int) - offset)
  have hcast := emod_counterSpan_toNat ((s.tb.now : Int) - offset)
  obtain ⟨hstepped, -, hframe⟩ :=
    State.firstStep_frame (s := { s with hp := hp }) htxn (((s.tb.now : Int) - offset) % (counterSpan : Int)).toNat
  have hset := State.firstStep_now (s := { s with hp := hp }) htxn hlt
  obtain ⟨tb, hgood, hnow, hkeep⟩ := State.countOffset_good_back (offset := 0)
    (s := ({ s with hp := hp } : State).firstStep (((s.tb.now : Int) - offset) % (counterSpan : Int)).toNat) (Nat.zero_le _)
  rw [hptp.trans hgood]
  refine ⟨hkeep.trans hstepped, ?_, ?_⟩
  · rw [← hcast, ← hset, ← hnow]
  · rw [hframe]

/-- The state in which an edge of a PPS source near `t` is judged (R338): that second is no longer awaited. -/
def State.ppsHeard (s : State) (t : Instant) : State :=
  s.updTb (fun tb => { tb with ppsNext := max tb.ppsNext (nearestSecond t + 1) })

theorem State.ppsHeard_link (s : State) (t : Instant) : (s.ppsHeard t).link = s.link := State.updTb_link _ _

theorem State.ppsHeard_tb (s : State) (t : Instant) : (s.ppsHeard t).tb = { s.tb with ppsNext := (s.ppsHeard t).tb.ppsNext } := by
  rw [State.ppsHeard, State.updTb_tb]

theorem State.ppsMeasure_unstepped {s : State} (h : s.tb.stepped = false) (t : Instant) (offset : Int) : s.ppsMeasure t offset = s := by
  simp [State.ppsMeasure, h]

theorem State.ppsMeasure_far {s : State} (h : s.tb.stepped = true) {offset : Int} (hfar : nsInst 1000000 < offset.natAbs) (t : Instant) :
    s.ppsMeasure t offset = (s.ppsHeard t).raise 160 0xFF 0 := by
  simp only [State.ppsMeasure, h, hfar]
  rfl

theorem State.ppsMeasure_near {s : State} (h : s.tb.stepped = true) {offset : Int} (hnear : offset.natAbs ≤ nsInst 1000000) (t : Instant) :
    s.ppsMeasure t offset = ((s.ppsHeard t).countOffset offset).sourceBack := by
  have hfar : ¬ nsInst 1000000 < offset.natAbs := Nat.not_lt.mpr hnear
  simp only [State.ppsMeasure, h, hfar]
  exact State.measure_stepped (s := s.ppsHeard t) h offset

/-- After the first step a measurement of a source counts its offset, and the source is there again; of a PPS source, one within 1 ms. -/
theorem State.offsetMeasurement_stepped {s : State} {offset : Int} (hr : s.timeRuns = true)
    (hs : s.sourceSteps = true ∨ (s.img.time.source = 3 ∧ offset.natAbs ≤ nsInst 1000000)) (h : s.tb.stepped = true) :
    ∃ (hp : SMap HpSt) (p : Nat), s.offsetMeasurement offset =
      (({ s with hp := hp, tb := { s.tb with ppsNext := p } } : State).countOffset offset).sourceBack := by
  rcases hs with hs | ⟨hs, hnear⟩
  · refine ⟨s.usePtp.hp, s.tb.ppsNext, ?_⟩
    rw [State.offsetMeasurement_ptp hr hs, s.usePtp_eq]
    exact State.measure_stepped (s := { s with hp := s.usePtp.hp }) h offset
  · refine ⟨s.hp, max s.tb.ppsNext (nearestSecond s.now + 1), ?_⟩
    rw [State.offsetMeasurement_pps hr hs, State.ppsMeasure_near h hnear]
    rfl

/-- No source, a PPS source before the first step, or a time base that does not run: no measurement. -/
theorem State.offsetMeasurement_none {s : State}
    (h : s.timeRuns = false ∨ (s.sourceSteps = false ∧ (s.img.time.source ≠ 3 ∨ s.tb.stepped = false))) (offset : Int) :
    s.offsetMeasurement offset = s := by
  unfold State.offsetMeasurement
  rcases h with hr | ⟨hs, hsrc | hst⟩
  · simp [hr]
  · simp [hs, hsrc]
  · simp [hs, State.ppsMeasure_unstepped hst]

/-- Settles O44: a measurement is the first step, one that counts, one that is lost, or none; loss and holdover have their spans. -/
theorem sourceAndLock : Obligations.SourceAndLock := by
  unfold Obligations.SourceAndLock
  refine ⟨?first, ?counted, ?lost, ?none, ?sourceLost, ?expire, ?sourceStays, ?holds⟩
  case first => exact fun s offset hr hs hst htxn => ⟨_, rfl, State.offsetMeasurement_first hr hs hst htxn offset⟩
  case counted =>
    intro s offset hr hs hst
    obtain ⟨hp, p, heq⟩ := State.offsetMeasurement_stepped hr hs hst
    refine ⟨fun hgood hrun => ?_, fun hbad hrun => ?_⟩
    · have hcount := State.countOffset_good (s := { s with hp := hp, tb := { s.tb with ppsNext := p } }) hgood
      rw [hcount] at heq
      refine ⟨_, congrArg Host.Outcome.next heq, rfl, rfl, ?_, rfl, rfl, rfl, rfl⟩
      have hlast : (min 16 (s.tb.goodRun + 1) == 16) = decide (15 ≤ s.tb.goodRun) := by
        rw [Bool.eq_iff_iff]
        simp only [beq_iff_eq, decide_eq_true_eq]
        omega
      exact congrArg (s.tb.locked || ·) hlast
    · obtain ⟨big, hcount⟩ := State.countOffset_bad_tb (s := { s with hp := hp, tb := { s.tb with ppsNext := p } }) hbad
      refine ⟨_, congrArg Host.Outcome.next heq, ?_⟩
      rw [State.sourceBack_tb, hcount]
      refine ⟨rfl, rfl, ?_, rfl, rfl⟩
      have hlast : (min 4 (s.tb.badRun + 1) != 4) = decide (s.tb.badRun + 1 < 4) := by
        rw [Bool.eq_iff_iff]
        simp only [bne_iff_ne, decide_eq_true_eq]
        omega
      exact congrArg (s.tb.locked && ·) hlast
  case lost =>
    intro s offset hr hs hst hfar
    refine ⟨_, congrArg Host.Outcome.next ((State.offsetMeasurement_pps hr hs offset).trans (State.ppsMeasure_far hst hfar _)), ?_, ?_⟩
    · exact State.raisedTo_raise_of_link (s.ppsHeard_link _) _ _ _
    · rw [State.raise_tb]
      exact s.ppsHeard_tb _
  case none => exact fun s offset h => congrArg Host.Outcome.next (State.offsetMeasurement_none h offset)
  case sourceLost =>
    intro s hr hs hh hlate
    refine ⟨_, congrArg Host.Outcome.next (if_pos ⟨hr, hs, by simp [hh], hlate⟩), ?_, State.raise_tb _ _ _ _⟩
    exact State.raisedTo_raise_of_link (State.updTb_link _ _) _ _ _
  case expire =>
    intro s hh hv hlate
    refine ⟨_, congrArg Host.Outcome.next (if_pos ⟨hh, hv, hlate⟩), ?_, State.raise_tb _ _ _ _⟩
    exact State.raisedTo_raise_of_link (State.updTb_link _ _) _ _ _
  case sourceStays =>
    intro s h
    refine congrArg Host.Outcome.next (if_neg ?_)
    rintro ⟨hr, hs, hh, hlate⟩
    rcases h with h | h | h | h
    · simp [h] at hr
    · exact hs h
    · simp [h] at hh
    · exact absurd hlate (Nat.not_le.mpr h)
  case holds =>
    intro s h
    refine congrArg Host.Outcome.next (if_neg ?_)
    rintro ⟨hh, hv, hlate⟩
    rcases h with h | h | h
    · simp [h] at hh
    · simp [h] at hv
    · exact absurd hlate (Nat.not_lt.mpr h)

end Sys2Proof.Machine
end

section
/-! PROOFS of the family of 13_time_base.md: snapshots, captures and window monitors (R331, R351, R352). -/

namespace Sys2Proof.Machine

/-! ### What a time base holds of the capture inputs (R351) -/

/-- What monitors and measurements leave alone of a time base. -/
structure CapInputs where
  caps : SMap (List Stamp)
  capOvf : Bool
  capLevel : SMap Bool

/-- The FIFOs of a time base, CAP_OVF and the levels of its inputs. -/
def TimeBase.inputs (tb : TimeBase) : CapInputs := { caps := tb.caps, capOvf := tb.capOvf, capLevel := tb.capLevel }

section
variable {s : State} {x : CapInputs} (h : s.tb.inputs = x)
include h

theorem State.caps_of_inputs (n : Nat) : s.caps n = SMap.get [] x.caps n := congrArg (fun y : CapInputs => SMap.get [] y.caps n) h

theorem State.capOvf_of_inputs : s.tb.capOvf = x.capOvf := congrArg CapInputs.capOvf h

theorem State.capLevel_of_inputs (n : Nat) : SMap.get false s.tb.capLevel n = SMap.get false x.capLevel n :=
  congrArg (fun y : CapInputs => SMap.get false y.capLevel n) h

end

@[simp] theorem State.judge_inputs (s : State) (t : Instant) (m : TimeMonitor) : (s.judge t m).tb.inputs = s.tb.inputs := by
  unfold State.judge
  split
  · rfl
  · split
    · rfl
    · rw [State.raise_tb]

theorem State.judges_inputs (t : Instant) (l : List TimeMonitor) (s : State) :
    (l.foldl (fun acc m => acc.judge t m) s).tb.inputs = s.tb.inputs :=
  List.foldlRecOn (motive := fun u : State => u.tb.inputs = s.tb.inputs) l _ rfl fun u hu m _ => (u.judge_inputs t m).trans hu

theorem State.countOffset_inputs (s : State) (offset : Int) : (s.countOffset offset).tb.inputs = s.tb.inputs := by
  by_cases h : offset.natAbs ≤ nsInst s.img.time.lockNs
  · rw [State.countOffset_good h]
    rfl
  · obtain ⟨big, hbad⟩ := State.countOffset_bad_tb (Nat.not_le.mp h)
    rw [hbad]
    rfl

theorem State.ppsMeasure_inputs (s : State) (t : Instant) (offset : Int) : (s.ppsMeasure t offset).tb.inputs = s.tb.inputs := by
  by_cases hst : s.tb.stepped = true
  · by_cases hfar : nsInst 1000000 < offset.natAbs
    · rw [State.ppsMeasure_far hst hfar, State.raise_tb]
      rfl
    · rw [State.ppsMeasure_near hst (Nat.not_lt.mp hfar)]
      exact (s.ppsHeard t).countOffset_inputs offset
  · rw [State.ppsMeasure_unstepped (Bool.eq_false_iff.mpr hst)]

/-! ### A stamp enters its FIFO (R351) -/

/-- The input after an edge that EDGE selects: its stamp, or the loss of it. -/
def State.stamped (s : State) (c : TimeCapture) (t : Instant) : State :=
  if (s.caps c.cap).length < 64 then s.updTb (fun tb => { tb with caps := SMap.update [] tb.caps c.cap (· ++ [s.stampAt t]) })
  else (s.updTb (fun tb => { tb with capOvf := true })).raise 158 0xFF 0

theorem State.stamped_room {s : State} {c : TimeCapture} (h : (s.caps c.cap).length < 64) (t : Instant) :
    (s.stamped c t).tb.inputs = { s.tb.inputs with caps := SMap.update [] s.tb.caps c.cap (· ++ [s.stampAt t]) } := by
  rw [State.stamped, if_pos h]
  rfl

theorem State.stamped_full {s : State} {c : TimeCapture} (h : 64 ≤ (s.caps c.cap).length) (t : Instant) :
    s.stamped c t = (s.updTb (fun tb => { tb with capOvf := true })).raise 158 0xFF 0 := if_neg (Nat.not_lt.mpr h)

theorem State.stamped_full_inputs {s : State} {c : TimeCapture} (h : 64 ≤ (s.caps c.cap).length) (t : Instant) :
    (s.stamped c t).tb.inputs = { s.tb.inputs with capOvf := true } := by
  rw [State.stamped_full h, State.raise_tb]
  rfl

theorem State.stamped_level (s : State) (c : TimeCapture) (t : Instant) : (s.stamped c t).tb.inputs.capLevel = s.tb.capLevel := by
  rcases Nat.lt_or_ge (s.caps c.cap).length 64 with h | h
  · rw [State.stamped_room h]
    rfl
  · rw [State.stamped_full_inputs h]
    rfl

theorem State.capture_inputs (s : State) (c : TimeCapture) (t : Instant) : (s.capture c t).tb.inputs = (s.stamped c t).tb.inputs :=
  State.judges_inputs _ _ _

theorem State.capture_noMonitors {s : State} (h : s.img.time.monitors = []) (c : TimeCapture) (t : Instant) :
    s.capture c t = s.stamped c t := by
  unfold State.capture
  rw [h]
  rfl

/-! ### An edge (R338, R351) -/

/-- A new level of an input is accepted. -/
def TimeBase.takeLevel (tb : TimeBase) (cap : Nat) (level : Bool) : TimeBase :=
  { tb with capLevel := SMap.set false tb.capLevel cap level, capTick := SMap.set 0 tb.capTick cap (tb.ticks + 1) }

/-- The state in which an edge with a new level is stamped. -/
def State.levelTaken (s : State) (cap : Nat) (level : Bool) : State := (s.updTb (·.takeLevel cap level)).draw.2

theorem State.levelTaken_link (s : State) (cap : Nat) (level : Bool) : (s.levelTaken cap level).link = s.link :=
  State.updTb_link s (·.takeLevel cap level)

theorem State.captureEntry_of {s : State} {i : Image} {c : TimeCapture} (hi : s.image = some i)
    (hc : i.time.captures.find? (fun x => x.cap == c.cap) = some c) : s.captureEntry c.cap = some c := by
  rw [State.captureEntry, hi]
  exact hc

/-- An edge that EDGE selects is captured; one of a PPS source is also a measurement. -/
theorem execCaptureEdge_selected {s : State} {i : Image} {c : TimeCapture} {level : Bool} (hcap : c.cap < 4) (hr : s.timeRuns = true)
    (hi : s.image = some i) (hc : i.time.captures.find? (fun x => x.cap == c.cap) = some c)
    (hlevel : SMap.get false s.tb.capLevel c.cap ≠ level) (hfilt : s.capFiltered c.cap = true) (hedge : edgeSelected c.edge level = true) :
    exec (.captureEdge c.cap level) s = .next (
      let t := s.capInstant c s.draws
      let u := (s.levelTaken c.cap level).capture c t
      if s.isPps c.cap level then u.ppsEdge t else u) := by
  have hgo : ¬(4 ≤ c.cap ∨ (!s.timeRuns) = true ∨ SMap.get false s.tb.capLevel c.cap = level ∨ (!s.capFiltered c.cap) = true) := by
    simp [hr, hlevel, hfilt, hcap]
  change execCaptureEdge c.cap level s = _
  unfold execCaptureEdge
  rw [if_neg hgo]
  dsimp only
  rw [State.captureEntry_of hi hc]
  dsimp only
  rw [if_pos hedge]
  rfl

/-! ### Window monitors (R352) -/

theorem execWindowClose_monitor {s : State} {i : Image} {m : TimeMonitor} (hi : s.image = some i)
    (hm : i.time.monitors.find? (fun x => x.cmp == m.cmp) = some m) : exec (.windowClose m.cmp) s = .next (s.windowClose m) := by
  change execWindowClose m.cmp s = _
  have hb : s.image.bind (fun i => i.time.monitors.find? (fun x => x.cmp == m.cmp)) = some m := by rw [hi]; exact hm
  rw [execWindowClose, hb]

/-- The state in which a monitor has gone on to its next window. -/
def State.windowPassed (s : State) (m : TimeMonitor) : State :=
  s.updTb (fun tb => { tb with
    monNext := SMap.set 0 tb.monNext m.cmp (SMap.get 0 s.tb.monNext m.cmp + 1)
    monSeen := SMap.update [] tb.monSeen m.cmp (List.filter (· != SMap.get 0 s.tb.monNext m.cmp)) })

theorem State.windowClose_due {s : State} {m : TimeMonitor} (hs : s.started = true)
    (hdue : s.frameStart (SMap.get 0 s.tb.monNext m.cmp) + nsInst (m.startNs + m.lenNs) ≤ s.now) :
    s.windowClose m = if m.missEn = true ∧ SMap.get 0 s.tb.monNext m.cmp ∉ SMap.get [] s.tb.monSeen m.cmp then
      (s.windowPassed m).raise 159 0xFF 0 else s.windowPassed m := by
  unfold State.windowClose
  dsimp only
  rw [if_neg (by simp [hs, hdue])]
  simp only [Bool.not_eq_true', List.contains_eq_mem, decide_eq_false_iff_not]
  rfl

/-- Settles O45: the reads answer what they hold, an edge enters its FIFO or is lost, and a window closes seen or missed. -/
theorem timeReadsAndCaptures : Obligations.TimeReadsAndCaptures := by
  unfold Obligations.TimeReadsAndCaptures
  refine ⟨?snap, ?read, ?edge, ?early, ?window⟩
  case snap => exact fun s => ⟨_, rfl, rfl, rfl, rfl, rfl, rfl, rfl, rfl⟩
  case read => exact fun s n hn => congrArg Host.Outcome.next (if_pos hn)
  case edge =>
    intro s level i c hcap hr hi hc hlevel hfilt hedge
    let t : Instant := s.capInstant c s.draws
    let u : State := s.levelTaken c.cap level
    refine ⟨_, execCaptureEdge_selected hcap hr hi hc hlevel hfilt hedge, ?_⟩
    have hin : (if s.isPps c.cap level then (u.capture c t).ppsEdge t else u.capture c t).tb.inputs = (u.stamped c t).tb.inputs := by
      rw [← u.capture_inputs]
      split
      · exact State.ppsMeasure_inputs _ _ _
      · rfl
    refine ⟨?_, fun hroom => ?_, fun hfull => ?_⟩
    · refine (State.capLevel_of_inputs hin _).trans ?_
      rw [State.stamped_level]
      exact SMap.get_set_self _ _ _ _
    · rw [State.stamped_room (s := u) hroom] at hin
      exact ⟨(State.caps_of_inputs hin _).trans (SMap.get_update_self [] u.tb.caps c.cap (· ++ [u.stampAt t])),
        State.capOvf_of_inputs hin⟩
    · rw [State.stamped_full_inputs (s := u) hfull] at hin
      refine ⟨State.caps_of_inputs hin _, State.capOvf_of_inputs hin, fun hno hpps => ?_⟩
      have hmon : u.img.time.monitors = [] := by
        change (s.image.getD Image.blank).time.monitors = []
        rw [hi]
        exact hno
      dsimp only
      rw [hpps, if_neg Bool.false_ne_true, State.capture_noMonitors hmon, State.stamped_full (s := u) hfull]
      exact State.raisedTo_raise_of_link ((State.updTb_link u _).trans (State.levelTaken_link s _ _)) _ _ _
  case early =>
    intro s n level hfilt
    exact congrArg Host.Outcome.next (if_pos (Or.inr (Or.inr (Or.inr (by rw [hfilt]; rfl)))))
  case window =>
    intro s i m hi hm hs k hdue
    refine ⟨_, execWindowClose_monitor hi hm, ?_⟩
    rw [State.windowClose_due hs hdue]
    split
    · refine ⟨?_, State.raisedTo_raise_of_link (State.updTb_link _ _) _ _ _⟩
      rw [State.raise_tb]
      exact SMap.get_set_self _ _ _ _
    · exact ⟨SMap.get_set_self _ _ _ _, State.raisedTo_nil rfl⟩

end Sys2Proof.Machine
end

section
/-! PROOFS of the family of 13_time_base.md: time words, the dies' followers and the trigger outputs (R346, R348, R349, R368, R500). -/

namespace Sys2Proof.Machine

/-! ### Followers (R346) -/

theorem State.updFollower_follower_self (s : State) (d : Nat) (f : FollowerSt → FollowerSt) :
    ((s.updFollower d f).die d).follower = f (s.die d).follower := by
  rw [State.updFollower, State.updDie_die_self]

theorem State.updFollower_die_ne (s : State) (d : Nat) (f : FollowerSt → FollowerSt) {e : Nat} (h : e ≠ d) :
    (s.updFollower d f).die e = s.die e := State.updDie_die_ne _ _ _ _ h

theorem State.updFollower_link (s : State) (d : Nat) (f : FollowerSt → FollowerSt) : (s.updFollower d f).link = s.link :=
  State.updDie_link _ _ _

/-- The reading of a follower follows from its own counter and the ticks. -/
def FollowerSt.nowAt (f : FollowerSt) (ticks : Nat) : Instant := (f.base + (ticks - f.baseTick) * f.incr.toNat) % counterSpan

theorem State.dieNow_eq (s : State) (d : Nat) : s.dieNow d = (s.die d).follower.nowAt s.tb.ticks := rfl

/-- Followers changed in turn, each of its die. -/
theorem State.foldl_updFollower (f : FollowerSt → FollowerSt) (l : List Nat) (hl : l.Nodup) (s : State) (d : Nat) :
    ((l.foldl (fun acc e => acc.updFollower e f) s).die d).follower = if d ∈ l then f (s.die d).follower else (s.die d).follower := by
  induction l generalizing s with
  | nil => rfl
  | cons e l ih =>
    obtain ⟨hel, hl⟩ := List.nodup_cons.mp hl
    rw [List.foldl_cons, ih hl]
    by_cases hd : d = e
    · rw [if_neg (hd ▸ hel), if_pos (by simp [hd]), hd, State.updFollower_follower_self]
    · rw [State.updFollower_die_ne _ _ _ hd]
      simp [hd]

theorem State.foldl_updFollower_diesOnly (f : FollowerSt → FollowerSt) (l : List Nat) (s : State) :
    l.foldl (fun acc e => acc.updFollower e f) s = { s with dies := (l.foldl (fun acc e => acc.updFollower e f) s).dies } := by
  refine List.foldlRecOn (motive := fun t : State => t = { s with dies := t.dies }) l _ rfl fun t ht e _ => ?_
  exact congrArg (fun x : State => x.updFollower e f) ht

/-! ### Time words (R346, R348) -/

/-- A difference drawn lies within its bound. -/
theorem freeWithin_natAbs (draw n : Nat) : (freeWithin draw n).natAbs ≤ n := by
  have h : Config.freeNat draw % (2 * n + 1) < 2 * n + 1 := Nat.mod_lt _ (by omega)
  unfold freeWithin
  omega

/-- A word's reading carried on to the present (R346). -/
def State.carried (s : State) (w : TimeWord) : Nat := w.at_ + (s.tb.ticks - w.tick) * w.incr.toNat

/-- Away from the ends of the counter's span, the reading of a word is off by its error alone, at most `n`, the 3 ns of R346 as a number. -/
theorem State.wordReading_eq {s : State} {w : TimeWord} {n : Nat} (hn : n = nsInst 3) (hlo : n ≤ s.carried w)
    (hhi : s.carried w + n < counterSpan) (draw : Nat) :
    (s.wordReading w draw : Int) = s.carried w + freeWithin draw n ∧ s.wordReading w draw < counterSpan := by
  have herr := freeWithin_natAbs draw n
  have hword : s.wordReading w draw = (((s.carried w : Int) + freeWithin draw n) % (counterSpan : Int)).toNat := by
    rw [hn]
    rfl
  have hpos : 0 ≤ (s.carried w : Int) + freeWithin draw n := by omega
  have hlt : (s.carried w : Int) + freeWithin draw n < (counterSpan : Int) := by omega
  rw [hword, Int.emod_eq_of_lt hpos hlt]
  exact ⟨Int.toNat_of_nonneg hpos, (Int.toNat_lt hpos).mpr hlt⟩

theorem State.wordReading_near {s : State} {w : TimeWord} (hlo : nsInst 3 ≤ s.carried w)
    (hhi : s.carried w + nsInst 3 < counterSpan) (draw : Nat) :
    ((s.wordReading w draw : Int) - s.carried w).natAbs ≤ nsInst 3 := by
  obtain ⟨heq, -⟩ := State.wordReading_eq rfl hlo hhi draw
  rw [heq, add_sub_cancel_left]
  exact freeWithin_natAbs _ _

/-- What a time word makes of a follower. -/
def State.wordTaken (s : State) (w : TimeWord) (f : FollowerSt) : FollowerSt :=
  { f with
    base := s.wordReading w s.draws, baseTick := s.tb.ticks, incr := w.incr, epoch := w.epoch, lost := false
    valid := f.valid || decide (((s.wordReading w s.draws : Int) - s.now).natAbs ≤ nsInst 3)
    lastWord := s.mono, wire := none, reqSeen := w.req }

theorem execTimeWordReceive_word {s : State} {d : Nat} {w : TimeWord} (hd : d < 4) (hdown : s.dieDown d = false)
    (hw : (s.die d).follower.wire = some w) :
    exec (.timeWordReceive d) s = .next (({ s with draws := s.draws + 1 } : State).updFollower d (s.wordTaken w)) := by
  change execTimeWordReceive d s = _
  rw [execTimeWordReceive, hw]
  dsimp only
  rw [if_neg (by simp [hd, hdown])]
  rfl

/-- A follower reads what it was set to in the same tick. -/
theorem State.wordTaken_nowAt (s : State) (w : TimeWord) (f : FollowerSt) :
    (s.wordTaken w f).nowAt s.tb.ticks = s.wordReading w s.draws % counterSpan := by
  simp only [State.wordTaken, FollowerSt.nowAt, Nat.sub_self, Nat.zero_mul, Nat.add_zero]

/-! ### Followers that are lost or off (R348, R368) -/

theorem execFollowerTimeout_due {s : State} {d : Nat} (hd : d < 4) (hdown : s.dieDown d = false) (hlost : (s.die d).follower.lost = false)
    (hlate : (s.die d).follower.lastWord + nsInst 16000 ≤ s.mono) :
    exec (.followerTimeout d) s = .next (
      let t := (s.updFollower d (fun f => { f with lost := true })).followerBad d 154
      if d = 1 then t.raiseDie 1 23 1 0 else t) := by
  refine congrArg Host.Outcome.next (if_neg ?_)
  simp [hd, hdown, hlost, hlate]

theorem execFollowerCrossCheck_eq {s : State} {d : Nat} (hd : d < 4) (hdown : s.dieDown d = false) :
    exec (.followerCrossCheck d) s = .next (
      if nsInst 4 < (((s.followerDrift d).dieNow d : Int) - s.now).natAbs then (s.followerDrift d).followerBad d 155
      else s.followerDrift d) := by
  refine congrArg Host.Outcome.next (if_neg ?_)
  simp [hd, hdown]

theorem State.followerBad_die (s : State) (d sev e : Nat) :
    (s.followerBad d sev).die e = (s.updFollower d (fun f => { f with valid := false })).die e := State.raiseDie_die _ _ _ _ _ _

theorem State.followerBad_follower (s : State) (d sev : Nat) :
    ((s.followerBad d sev).die d).follower = { (s.die d).follower with valid := false } := by
  rw [State.followerBad_die, State.updFollower_follower_self]

theorem State.followerBad_dieNow (s : State) (d sev : Nat) : (s.followerBad d sev).dieNow d = s.dieNow d := by
  rw [State.dieNow_eq, State.followerBad_follower, State.followerBad, State.raiseDie_tb]
  rfl

theorem State.raisedTo_followerBad {s t : State} (h : t.link = s.link) (d sev : Nat) : s.raisedTo (t.followerBad d sev) [(sev, d, 0)] :=
  State.raisedTo_raiseDie_of_link ((State.updFollower_link _ _ _).trans h) _ _ _ _

theorem State.followerDrift_valid (s : State) (d : Nat) : ((s.followerDrift d).die d).follower.valid = (s.die d).follower.valid := by
  rw [State.followerDrift, State.updFollower_follower_self]
  rfl

theorem State.followerDrift_link (s : State) (d : Nat) : (s.followerDrift d).link = s.link := State.updFollower_link s.draw.2 _ _

/-- The timeout of die 1's follower requests safe state. -/
theorem State.followerBad_requests {s : State} (h : s.unrequested) (d : Nat) :
    ((s.followerBad d 154).raiseDie 1 23 1 0).saf.req = true := by
  obtain ⟨hreq, hboot⟩ := h
  have hsaf : (s.followerBad d 154).saf = s.saf := State.raiseAt_saf _ _ _ _ _ _ rfl
  have hb : (s.followerBad d 154).boot = s.boot := State.raiseDie_boot _ _ _ _ _
  rw [State.raiseDie, State.raiseAt_req _ _ _ _ _ _ rfl (by rw [hsaf]; exact hreq) (by rw [hb]; exact hboot)]

/-! ### Trigger pulses (R349, R500) -/

theorem execTriggerPulseStart_trigger {s : State} {i : Image} {e : TimeTrigger} (hi : s.image = some i) (he : s.trigger e.trig = some e) :
    exec (.triggerPulseStart e.trig) s = .next (s.triggerPulse e) := by
  change execTriggerPulseStart e.trig s = _
  have hb : s.image.bind (fun _ => s.trigger e.trig) = some e := by rw [hi]; exact he
  rw [execTriggerPulseStart, hb]

theorem State.updTb_congr {s : State} {f g : TimeBase → TimeBase} (h : f s.tb = g s.tb) : s.updTb f = s.updTb g :=
  congrArg (fun tb => { s with tb := tb }) h

/-- A pulse that falls due on an output that nothing holds, and that is not active. -/
theorem State.triggerPulse_due {s : State} {e : TimeTrigger} (hheld : s.trigHeld e = false) (hdue : (s.nextPulse e).2 ≤ (s.now : Int))
    (hidle : SMap.get 0 s.tb.pulse e.trig = 0) :
    s.triggerPulse e = s.updTb (fun tb => { tb with
      trigNext := SMap.set 0 tb.trigNext e.trig ((s.nextPulse e).1 + 1), pulse := SMap.set 0 tb.pulse e.trig (e.widthNs / 2 + 1) }) := by
  obtain ⟨-, hbase⟩ := Bool.or_eq_false_iff.mp hheld
  unfold State.triggerPulse
  dsimp only
  rw [if_neg (by rw [hbase]; simpa using hdue)]
  refine State.updTb_congr ?_
  rw [if_neg (by simp [hheld, hidle])]

/-- Settles O46: a word sets a follower, a lost or wrong one is noticed, and a pulse starts when due and ends after its ticks. -/
theorem followersAndTriggers : Obligations.FollowersAndTriggers := by
  unfold Obligations.FollowersAndTriggers
  refine ⟨?send, ?receive, ?timeout, ?check, ?start, ?finish⟩
  case send =>
    intro s
    refine ⟨_, rfl, fun d hd => ?_, State.foldl_updFollower_diesOnly _ _ _⟩
    rw [State.foldl_updFollower _ _ List.nodup_range, if_pos (List.mem_range.mpr hd)]
  case receive =>
    intro s d w hd hdown hw x hlo hhi
    refine ⟨_, execTimeWordReceive_word hd hdown hw, ?_⟩
    have hnear := State.wordReading_near (s := s) (w := w) hlo hhi s.draws
    have hnow : (({ s with draws := s.draws + 1 } : State).updFollower d (s.wordTaken w)).dieNow d = s.wordReading w s.draws := by
      obtain ⟨-, hlt⟩ := State.wordReading_eq (s := s) (w := w) rfl hlo hhi s.draws
      rw [State.dieNow_eq, State.updFollower_follower_self]
      exact (s.wordTaken_nowAt w _).trans (Nat.mod_eq_of_lt hlt)
    rw [hnow, State.updFollower_follower_self]
    refine ⟨rfl, rfl, rfl, rfl, rfl, rfl, hnear, fun hx => ?_, fun e he => State.updFollower_die_ne _ _ _ he, rfl⟩
    have hvalid : decide (((s.wordReading w s.draws : Int) - s.now).natAbs ≤ nsInst 3) = true := by
      rw [← hx]
      exact decide_eq_true hnear
    change (_ || decide (((s.wordReading w s.draws : Int) - s.now).natAbs ≤ nsInst 3)) = true
    rw [hvalid, Bool.or_true]
  case timeout =>
    intro s d hd hdown hlost hlate
    refine ⟨_, execFollowerTimeout_due hd hdown hlost hlate, ?_⟩
    have hfollower : (((s.updFollower d (fun f => { f with lost := true })).followerBad d 154).die d).follower =
        { (s.die d).follower with lost := true, valid := false } := by
      rw [State.followerBad_follower, State.updFollower_follower_self]
    have hraised := State.raisedTo_followerBad (s.updFollower_link d (fun f => { f with lost := true })) d 154
    by_cases h1 : d = 1
    · subst h1
      dsimp only
      rw [if_pos rfl, if_pos rfl, State.raiseDie_die]
      refine ⟨hfollower, State.raisedTo_trans hraised (State.raisedTo_raiseDie _ _ _ _ _), fun _ h => ?_⟩
      exact State.followerBad_requests (s := s.updFollower 1 (fun f => { f with lost := true })) h 1
    · dsimp only
      rw [if_neg h1, if_neg h1]
      exact ⟨hfollower, hraised, fun h => absurd h h1⟩
  case check =>
    intro s d hd hdown off
    refine ⟨_, execFollowerCrossCheck_eq hd hdown, ?_⟩
    by_cases h : nsInst 4 < off
    · rw [if_pos h, if_pos h, State.followerBad_dieNow, State.followerBad_follower, decide_eq_false (Nat.not_le.mpr h), Bool.and_false]
      exact ⟨rfl, rfl, State.raisedTo_followerBad (s.followerDrift_link d) d 155⟩
    · rw [if_neg h, if_neg h, decide_eq_true (Nat.not_lt.mp h), Bool.and_true]
      exact ⟨rfl, s.followerDrift_valid d, State.raisedTo_nil (s.followerDrift_link d)⟩
  case start =>
    intro s i e hi he hheld hdue hidle
    refine ⟨_, (execTriggerPulseStart_trigger hi he).trans (congrArg Host.Outcome.next (State.triggerPulse_due hheld hdue hidle)), ?_⟩
    exact ⟨SMap.get_set_self _ _ _ _, SMap.get_set_self _ _ _ _, rfl⟩
  case finish =>
    intro s n hn
    refine ⟨_, congrArg Host.Outcome.next (if_pos hn), SMap.get_set_self _ _ _ _, ?_, SMap.get_set_self _ _ _ _⟩
    cases hheld : SMap.get none s.tb.iocfgHeld n with
    | none => simp only [State.updTb_tb, hheld, Option.getD_none]
    | some v => simp only [State.updTb_tb, hheld, SMap.get_set_self, Option.getD_some]

end Sys2Proof.Machine
end

section
/-! PROOFS of the family of 13_time_base.md: frames, PTP messages and stamps of the Ethernet MACs, and the host network path
(R341, R342, R344, R345, R469, R470). -/

namespace Sys2Proof.Machine

/-! ### A value written twice -/

theorem SMap.set_consCell {α : Type} [DecidableEq α] {d : α} {k : Nat} {m : SMap α}
    (h : m.dropWhile (fun e => decide (e.1 ≤ k)) = m) (v w : α) :
    SMap.set d (SMap.consCell d k v m) k w = SMap.consCell d k w m := by
  by_cases hv : v = d
  · rw [SMap.consCell, if_pos hv]
    cases m with
    | nil => rfl
    | cons e t =>
      have hk : ¬ decide (e.1 ≤ k) = true := by simpa using List.dropWhile_eq_self_iff.mp h (Nat.succ_pos _)
      rw [SMap.set, if_pos (by simpa using hk)]
  · rw [SMap.consCell, if_neg hv, SMap.set, if_neg (Nat.lt_irrefl k), if_pos rfl, h]

/-- The latter of two writes at a key stands. -/
theorem SMap.set_set {α : Type} [DecidableEq α] (d : α) (m : SMap α) (k : Nat) (v w : α) :
    SMap.set d (SMap.set d m k v) k w = SMap.set d m k w := by
  induction m with
  | nil => exact SMap.set_consCell rfl v w
  | cons e t ih =>
    obtain ⟨k', x⟩ := e
    rcases Nat.lt_trichotomy k k' with hlt | heq | hgt
    · have hdrop : ((k', x) :: t).dropWhile (fun e => decide (e.1 ≤ k)) = (k', x) :: t := by simp [hlt]
      simp only [SMap.set, if_pos hlt]
      exact SMap.set_consCell hdrop v w
    · simp only [SMap.set, heq, if_neg (Nat.lt_irrefl k'), if_true]
      exact SMap.set_consCell (List.dropWhile_idempotent _ _) v w
    · simp only [SMap.set, if_neg (Nat.lt_asymm hgt), if_neg (Nat.ne_of_gt hgt), ih]

theorem State.updHpath_updHpath (s : State) (mac : Nat) (f g : HpSt → HpSt) :
    (s.updHpath mac f).updHpath mac g = s.updHpath mac (fun h => g (f h)) := by
  have hset : SMap.update {} (SMap.update {} s.hp mac f) mac g = SMap.update {} s.hp mac (fun h => g (f h)) := by
    rw [SMap.update, SMap.get_update_self]
    exact SMap.set_set _ _ _ _ _
  exact congrArg (fun m => { s with hp := m }) hset

/-! ### Reception (R341, R342) -/

theorem execEthReceive_running {s : State} {mac : Nat} (hm : mac < 4) (hr : s.timeRuns = true) (f : List Byte) (fcsOk : Bool) :
    exec (.ethReceive mac f fcsOk) s = .next (s.ethReceive mac f fcsOk) :=
  congrArg Host.Outcome.next (if_neg (by simp [hm, hr]))

theorem State.ethReceive_ptp {s : State} {mac : Nat} {f : List Byte} (h : (EthPkt.parse f).isPtp = true) :
    s.ethReceive mac f true = if s.ptpHeard mac (EthPkt.parse f).payload then
      ({ s with draws := s.draws + 1 } : State).updHpath mac (fun x => { x with ptp := x.ptp ++ [(s.rxStamp mac s.draws, f)] })
      else { s with draws := s.draws + 1 } := by
  simp only [State.ethReceive, h]
  rfl

theorem State.ethReceive_badFcs {s : State} {mac : Nat} (h : s.img.macClaimed mac = true) (f : List Byte) :
    s.ethReceive mac f false = ({ s with draws := s.draws + 1 } : State).rxDrop mac := by
  simp only [State.ethReceive, h]
  rfl

/-! ### Transmission of the time firmware (R342, R344, R345) -/

/-- The frame as it leaves without its FCS: with the stamp inserted under MODE 2 (R345). -/
def State.frameOut (s : State) (mac : Nat) (f : List Byte) (tsCtrl : Nat) : List Byte :=
  if tsCtrl % 4 = 2 then insertStamp f (fld tsCtrl 15 4) (fld tsCtrl 27 16) (s.txStamp mac s.draws).at_ else f

theorem State.frameOut_plain {tsCtrl : Nat} (h : tsCtrl % 4 ≠ 2) {s : State} {mac : Nat} {f : List Byte} : s.frameOut mac f tsCtrl = f :=
  if_neg h

theorem State.frameOut_stamped {tsCtrl : Nat} (h : tsCtrl % 4 = 2) {s : State} {mac : Nat} {f : List Byte} :
    s.frameOut mac f tsCtrl = insertStamp f (fld tsCtrl 15 4) (fld tsCtrl 27 16) (s.txStamp mac s.draws).at_ := if_pos h

theorem State.sendFrame_eq (s : State) (mac : Nat) (f : List Byte) (tsCtrl : Nat) : s.sendFrame mac f tsCtrl =
    (({ s with draws := s.draws + 1 } : State).updHpath mac (fun h => { h with
      sent := h.sent ++ [s.frameOut mac f tsCtrl ++ fcsOf (s.frameOut mac f tsCtrl)] }), s.txStamp mac s.draws) := rfl

theorem execPtpMessageSend_good {s : State} {mac : Nat} {f : List Byte} {w : Dword} (hm : mac < 4) (hr : s.timeRuns = true)
    (hok : tsCtrlOk w.toNat f.length = true) :
    exec (.ptpMessageSend mac f w) s = .next (({ s with draws := s.draws + 1 } : State).updHpath mac (fun h => { h with
      sent := h.sent ++ [s.frameOut mac f w.toNat ++ fcsOf (s.frameOut mac f w.toNat)]
      ptpDone := h.ptpDone ++ [(0, if w.toNat % 4 = 0 then none else some (s.txStamp mac s.draws))] })) := by
  change execPtpMessageSend mac f w s = _
  rw [execPtpMessageSend, if_neg (by simp [hm, hr]), if_pos hok, State.sendFrame_eq]
  dsimp only
  rw [State.ptpComplete, State.updHpath_updHpath]

theorem execPtpMessageSend_bad {s : State} {mac : Nat} {f : List Byte} {w : Dword} (hm : mac < 4) (hr : s.timeRuns = true)
    (hbad : tsCtrlOk w.toNat f.length = false) :
    exec (.ptpMessageSend mac f w) s = .next (s.updHpath mac (fun h => { h with
      last := 0x62, ptpDone := h.ptpDone ++ [(0x62, none)] })) := by
  change execPtpMessageSend mac f w s = _
  rw [execPtpMessageSend, if_neg (by simp [hm, hr]), if_neg (by simp [hbad]), State.ptpComplete, State.updHpath_updHpath]

/-! ### The control block (R469) -/

/-- A path with the words of ETH_HP_CB written. -/
def HpSt.setCb (h : HpSt) (lo hi : Word) : HpSt :=
  { h with cbHi := BitVec.ofNat 32 (hi.toNat % 2 ^ 16), cbLo := BitVec.ofNat 32 (lo.toNat / 64 * 64 + lo.toNat % 2) }

theorem HpSt.setCb_cb (h : HpSt) (lo hi : Word) : (h.setCb lo hi).cb = lo.toNat / 64 * 64 + hi.toNat % 2 ^ 16 * 2 ^ 32 := by
  simp only [HpSt.setCb, HpSt.cb, BitVec.toNat_ofNat]
  omega

theorem execEthHpEnable_off {s : State} {mac : Nat} {lo : Word} (hm : mac < 4) (hoff : (s.hpath mac).enabled = false)
    (hlo : bit lo.toNat 0 = true) (hi : Word) :
    exec (.ethHpEnable mac lo hi) s = .next ((s.updHpath mac (·.setCb lo hi)).hpEnable mac) := by
  have hstill : ((s.writeCbHi mac hi).hpath mac).enabled = false := by
    rw [State.writeCbHi, State.updHpath_hpath_self]
    exact hoff
  change execEthHpEnable mac lo hi s = _
  rw [execEthHpEnable, if_neg (Nat.not_le.mpr hm), State.writeCbLo, if_neg (by simp [hlo]), hstill,
    if_neg Bool.false_ne_true, State.writeCbHi, State.updHpath_updHpath]
  rfl

/-- In memory without errors a good control block gives the path its rings, with no descriptor done. -/
theorem State.hpEnable_good {s : State} {mac : Nat} (hsound : s.sound) (hclaim : s.img.macClaimed mac = true) {a : Nat}
    (ha : (s.hpath mac).cb = a) (hcb : s.cbOk a = true) (hopen : s.carveClosed none a 64 = false) {b : List Byte}
    (hb : (s.fetch a 64).data = b) (htx : 2 ≤ leAt b 16 1 ∧ leAt b 16 1 ≤ 12) (hrx : 2 ≤ leAt b 17 1 ∧ leAt b 17 1 ≤ 12) :
    s.hpEnable mac = s.updHpath mac (fun h => { h with
      enabled := true, txRing := leAt b 0 8, rxRing := leAt b 8 8, txLog2 := leAt b 16 1, rxLog2 := leAt b 17 1
      txTail := 0, rxTail := 0, txDone := 0, rxDone := 0, txSeq := 0, rxSeq := 0 }) := by
  obtain ⟨hst, hstatus⟩ := State.fetch_ok hsound a 64
  unfold State.hpEnable
  dsimp only
  rw [ha, if_neg (by simp [hclaim, hcb, hopen]), hst, hstatus, hb, if_neg (by omega)]

theorem State.memLike_updHpath (s : State) (mac : Nat) (f : HpSt → HpSt) : s.memLike (s.updHpath mac f) :=
  ⟨rfl, rfl, rfl, rfl, rfl, rfl, rfl, rfl, rfl⟩

/-- Writing a path changes nothing of what its control block is read from. -/
theorem State.updHpath_hpEnable {s : State} {mac : Nat} {f : HpSt → HpSt} (hsound : s.sound) (hclaim : s.img.macClaimed mac = true)
    {a : Nat} (ha : ((s.updHpath mac f).hpath mac).cb = a) (hcb : s.cbOk a = true) (hopen : s.carveClosed none a 64 = false)
    (htx : 2 ≤ leAt (s.fetch a 64).data 16 1 ∧ leAt (s.fetch a 64).data 16 1 ≤ 12)
    (hrx : 2 ≤ leAt (s.fetch a 64).data 17 1 ∧ leAt (s.fetch a 64).data 17 1 ≤ 12) :
    (s.updHpath mac f).hpEnable mac = s.updHpath mac (fun h => let b := (s.fetch a 64).data; { f h with
      enabled := true, txRing := leAt b 0 8, rxRing := leAt b 8 8, txLog2 := leAt b 16 1, rxLog2 := leAt b 17 1
      txTail := 0, rxTail := 0, txDone := 0, rxDone := 0, txSeq := 0, rxSeq := 0 }) := by
  have hdata : ((s.updHpath mac f).fetch a 64).data = (s.fetch a 64).data :=
    (State.memLike_fetch (s.memLike_updHpath mac f) a 64).2.2
  exact (State.hpEnable_good (s := s.updHpath mac f) hsound hclaim ha hcb hopen hdata htx hrx).trans (State.updHpath_updHpath _ _ _ _)

/-! ### A transmit descriptor (R344, R469, R470) -/

/-- A write of the block into memory without errors. -/
theorem State.put_sound {s : State} (h : s.sound) (a : Nat) (bs : List Byte) :
    ∃ m : SMap Byte, s.put a bs = { s with mem := m } ∧
      ∀ x : Nat, ¬ (a ≤ x ∧ x < a + bs.length) → SMap.get 0 m x = s.byteAt x := by
  obtain ⟨m, hput, hm⟩ := State.store_sound h a bs
  exact ⟨m, congrArg Prod.fst hput, fun x hx => (hm x).trans (if_neg hx)⟩

theorem length_leBytes (n v : Nat) : (leBytes n v).length = n := by
  induction n generalizing v with
  | zero => rfl
  | succ n ih => rw [leBytes, List.length_cons, ih]

theorem length_slice (bs : List Byte) (off n : Nat) : (slice bs off n).length = n := by
  unfold slice
  dsimp only
  rw [List.length_append, List.length_replicate]
  have := List.length_take_le n (bs.drop off)
  omega

/-- A completion takes the 32 bytes of its descriptor. -/
theorem State.hpComplete_sound {s : State} (h : s.sound) {a : Nat} (ha : s.inCarve a 32 = true) (status flags length seq addr : Nat)
    (stamp : List Byte) : ∃ m : SMap Byte, s.hpComplete a status flags length seq addr stamp = { s with mem := m } ∧
      ∀ x : Nat, ¬ (a ≤ x ∧ x < a + 32) → SMap.get 0 m x = s.byteAt x := by
  unfold State.hpComplete
  dsimp only
  rw [if_pos ha]
  obtain ⟨m, hput, hm⟩ := State.put_sound h a _
  refine ⟨m, hput, fun x hx => hm x ?_⟩
  simpa only [List.length_append, length_leBytes, length_slice, zeros, List.length_replicate] using hx

theorem State.memLink_hpath (s : State) (m : SMap Byte) (l : HostLinkSt) (mac : Nat) :
    ({ s with mem := m, link := l } : State).hpath mac = s.hpath mac := rfl

/-- The end of a descriptor that completes with status 0x00 changes its bytes, the count of descriptors done and the path alone; the
interrupt changes the link. -/
theorem State.txEnd_sound {s : State} (h : s.sound) {mac a : Nat} (ha : s.inCarve a 32 = true) (flags length addr : Nat)
    (stamp : List Byte) (irq : Bool) : ∃ (m : SMap Byte) (l : HostLinkSt),
      s.txEnd mac a 0 flags length addr stamp irq = { s.updHpath mac (fun x => { x with
        txDone := x.txDone + 1, txSeq := x.txSeq + 1 }) with mem := m, link := l } ∧
      ∀ x : Nat, ¬ (a ≤ x ∧ x < a + 32) → ¬ ((s.hpath mac).cb + 32 ≤ x ∧ x < (s.hpath mac).cb + 34) →
        SMap.get 0 m x = s.byteAt x := by
  obtain ⟨m, hdesc, hm⟩ := State.hpComplete_sound h ha 0 flags length (s.hpath mac).txSeq.toNat addr stamp
  have hsound : (({ s with mem := m } : State).updHpath mac (fun x => { x with txDone := x.txDone + 1, txSeq := x.txSeq + 1 })).sound := h
  obtain ⟨m', hput, hm'⟩ := State.put_sound hsound ((s.hpath mac).cb + 32) (leBytes 2 ((s.hpath mac).txDone + 1).toNat)
  have hstays : ∀ x : Nat, ¬ (a ≤ x ∧ x < a + 32) → ¬ ((s.hpath mac).cb + 32 ≤ x ∧ x < (s.hpath mac).cb + 34) →
      SMap.get 0 m' x = s.byteAt x :=
    fun x hx hcb => (hm' x (by rwa [length_leBytes])).trans (hm x hx)
  unfold State.txEnd
  dsimp only
  rw [hdesc, hput, State.hpStatus, if_pos rfl]
  split
  · exact ⟨m', _, rfl, hstays⟩
  · exact ⟨m', s.link, rfl, hstays⟩

/-- In memory without errors a descriptor in the reach of the path is read. -/
theorem State.hpDesc_sound {s : State} (h : s.sound) {a : Nat} (hreach : s.hpReach a 32 = true) :
    s.hpDesc a = (s, some (s.fetch a 32).data) := by
  obtain ⟨hst, hstatus⟩ := State.fetch_ok h a 32
  obtain ⟨hin, hopen⟩ := Bool.and_eq_true_iff.mp hreach
  rw [State.hpDesc, State.readOpen, if_neg (by simpa [hin] using hopen)]
  dsimp only
  rw [hst, hstatus, if_pos rfl]

/-- In memory without errors a good descriptor under MODE 0 sends the frame of its buffer. -/
theorem State.hpTransmit_good {s : State} {mac a : Nat} {b : List Byte} (hsound : s.sound)
    (ha : (s.hpath mac).txRing + (s.hpath mac).txDone.toNat % 2 ^ (s.hpath mac).txLog2 * 32 = a) (hreach : s.hpReach a 32 = true)
    (hb : (s.fetch a 32).data = b) (hcrc : hpCrcOk a b = true) (hlen : 60 ≤ leAt b 8 2 ∧ leAt b 8 2 ≤ 9600) (hflags : leAt b 10 2 < 2)
    (hres : (b.drop 12).take 4 = zeros 4) (hres' : (b.drop 24).take 6 = zeros 6) (hbuf : s.hpReach (leAt b 0 8) (leAt b 8 2) = true)
    (hts : tsCtrlOk (leAt b 16 8) (leAt b 8 2) = true) (hmode : leAt b 16 8 % 4 = 0) :
    s.hpTransmit mac = (s.sendFrame mac (s.fetch (leAt b 0 8) (leAt b 8 2)).data (leAt b 16 8)).1.txEnd mac a 0 0 (leAt b 8 2)
      (leAt b 0 8) [] (bit (leAt b 10 2) 0) := by
  obtain ⟨hst, hstatus⟩ := State.fetch_ok hsound (leAt b 0 8) (leAt b 8 2)
  have hgood : ¬(leAt b 8 2 < 60 ∨ 9600 < leAt b 8 2 ∨ 2 ≤ leAt b 10 2 ∨ (b.drop 12).take 4 ≠ zeros 4 ∨
      (b.drop 24).take 6 ≠ zeros 6 ∨ (!s.hpReach (leAt b 0 8) (leAt b 8 2)) = true) := by
    simp only [hres, hres', hbuf]
    simp
    omega
  unfold State.hpTransmit
  dsimp only
  rw [ha, State.hpDesc_sound hsound hreach, hb]
  dsimp only
  rw [if_neg (by simp [hcrc]), if_neg hgood, if_neg (by simp [hts]), hst, hstatus]
  have hbit : atBit false 2 = 0 := rfl
  simp only [hmode, ne_eq, not_true_eq_false, decide_false, if_false, hbit]

theorem execEthHpTransmit_ready {s : State} {mac : Nat} (hm : mac < 4) (hon : (s.hpath mac).enabled = true)
    (hnext : (s.hpath mac).txDone ≠ (s.hpath mac).txTail) : exec (.ethHpTransmit mac) s = .next (s.hpTransmit mac).settle :=
  congrArg Host.Outcome.next (if_neg (by simp [hm, hon, hnext]))

/-- Settles O47: a frame goes to the time firmware, is dropped or counted; one that is sent leaves with its FCS and is completed. -/
theorem ethernetCommands : Obligations.EthernetCommands := by
  unfold Obligations.EthernetCommands
  refine ⟨?receive, ?send, ?enable, ?doorbell, ?transmit⟩
  case receive =>
    intro s mac f hm hr
    have hexec := execEthReceive_running hm hr f
    refine ⟨fun hp hh => ?_, fun hp hh => ?_, fun hc => ?_⟩
    · exact (hexec true).trans (congrArg Host.Outcome.next ((State.ethReceive_ptp hp).trans (if_neg (by simp [hh]))))
    · refine ⟨_, (hexec true).trans (congrArg Host.Outcome.next ((State.ethReceive_ptp hp).trans (if_pos hh))), ?_, rfl⟩
      exact congrArg HpSt.ptp (State.updHpath_hpath_self _ _ _)
    · refine ⟨_, (hexec false).trans (congrArg Host.Outcome.next (State.ethReceive_badFcs hc f)), ?_, rfl⟩
      exact congrArg HpSt.rxDrop (State.updHpath_hpath_self _ _ _)
  case send =>
    intro s mac f w hm hr
    refine ⟨fun hok hmode => ?_, fun hok hmode => ?_, fun hbad => execPtpMessageSend_bad hm hr hbad⟩
    · refine ⟨_, execPtpMessageSend_good hm hr hok, ?_⟩
      rw [State.updHpath_hpath_self, State.frameOut_plain hmode]
      exact ⟨rfl, rfl, rfl⟩
    · refine ⟨_, execPtpMessageSend_good hm hr hok, ?_⟩
      rw [State.updHpath_hpath_self, State.frameOut_stamped hmode, if_neg (by omega)]
      exact ⟨rfl, rfl, rfl⟩
  case enable =>
    intro s mac lo hi hm hoff hlo hclaim hsound a b hcb hopen htx htx' hrx hrx'
    have ha : ((s.updHpath mac (·.setCb lo hi)).hpath mac).cb = a := by
      rw [State.updHpath_hpath_self]
      exact HpSt.setCb_cb _ _ _
    refine ⟨_, (execEthHpEnable_off hm hoff hlo hi).trans (congrArg Host.Outcome.next
      (State.updHpath_hpEnable hsound hclaim ha hcb hopen ⟨htx, htx'⟩ ⟨hrx, hrx'⟩)), ?_⟩
    rw [State.updHpath_hpath_self]
    exact ⟨rfl, HpSt.setCb_cb (s.hpath mac) lo hi, rfl, rfl, rfl, rfl, rfl, rfl, rfl⟩
  case doorbell => exact fun s mac w hm => congrArg Host.Outcome.next (if_neg (Nat.not_le.mpr hm))
  case transmit =>
    intro s mac hm hon hnext hsound hsus a b hreach hcrc hlen hlen' hflags hres hres' hbuf hts hmode
    have hsend := State.hpTransmit_good (mac := mac) hsound rfl hreach rfl hcrc ⟨hlen, hlen'⟩ hflags hres hres' hbuf hts hmode
    have hplain : leAt b 16 8 % 4 ≠ 2 := by omega
    rw [State.sendFrame_eq, State.frameOut_plain hplain] at hsend
    obtain ⟨hin, -⟩ := Bool.and_eq_true_iff.mp hreach
    obtain ⟨m, l, hend, hbytes⟩ := State.txEnd_sound (s := ({ s with draws := s.draws + 1 } : State).updHpath mac (fun h => { h with
      sent := h.sent ++ [(s.fetch (leAt b 0 8) (leAt b 8 2)).data ++ fcsOf (s.fetch (leAt b 0 8) (leAt b 8 2)).data] }))
      hsound (mac := mac) hin 0 (leAt b 8 2) (leAt b 0 8) [] (bit (leAt b 10 2) 0)
    rw [hend, State.updHpath_updHpath] at hsend
    rw [State.updHpath_hpath_self] at hbytes
    refine ⟨_, (execEthHpTransmit_ready hm hon hnext).trans (congrArg Host.Outcome.next
      ((congrArg State.settle hsend).trans (State.settle_of_none hsus))), ?_⟩
    rw [State.memLink_hpath, State.updHpath_hpath_self]
    exact ⟨rfl, rfl, rfl, rfl, rfl, hbytes⟩

end Sys2Proof.Machine
end

section
/-! PROOFS of the family of 14_safety.md: raising an event (R367 to R369, R388, R463, R464). -/

namespace Sys2Proof.Machine

/-- An entry in the FIFO counts no loss; one without room does, and sets OVF (R464). -/
theorem State.fifo_lost (s : State) (sev unit status : Nat) (stamp : Stamp) :
    (s.fifo sev unit status stamp).link.lost = (if s.link.events.length < 1024 then s.link.lost else satInc s.link.lost) ∧
      (s.fifo sev unit status stamp).link.ovf = (if s.link.events.length < 1024 then s.link.ovf else true) := by
  unfold State.fifo
  split
  · simp [State.msix]
  · dsimp only
    split <;> exact ⟨rfl, rfl⟩

@[simp] theorem State.requestSafe_lost (s : State) (sev : Nat) :
    (s.requestSafe sev).link.lost = s.link.lost ∧ (s.requestSafe sev).link.ovf = s.link.ovf := by
  unfold State.requestSafe
  split
  · exact ⟨rfl, rfl⟩
  · simp [State.msix, State.driveSafe]

/-- An event counts its loss as its entry in the FIFO does. -/
theorem State.raiseAt_lost (s : State) (sev unit status : Nat) (stamp : Stamp) (detail : List Byte) :
    (s.raiseAt sev unit status stamp detail).link.lost = (if s.link.events.length < 1024 then s.link.lost else satInc s.link.lost) ∧
      (s.raiseAt sev unit status stamp detail).link.ovf = (if s.link.events.length < 1024 then s.link.ovf else true) := by
  rw [← (s.fifo_lost sev unit status stamp).1, ← (s.fifo_lost sev unit status stamp).2]
  unfold State.raiseAt
  dsimp only
  split <;> split <;> simp [State.noteCause]

/-- Settles O31: the FIFO by its room, the request by the mark S of the event. -/
theorem eventRaising : Obligations.EventRaising := by
  unfold Obligations.EventRaising
  intro s sev unit status stamp detail
  obtain ⟨hlost, hovf⟩ := s.raiseAt_lost sev unit status stamp detail
  have hevents := s.raiseAt_events sev unit status stamp detail
  refine ⟨fun hroom => ?_, fun hfull => ?_, fun hsafe hfree => ?_, s.raiseAt_saf sev unit status stamp detail, ?_,
    s.raiseAt_eq sev unit status stamp detail⟩
  · rw [hevents, hlost, if_pos hroom, if_pos hroom]
    exact ⟨rfl, rfl⟩
  · rw [hevents, hlost, hovf, if_neg (by omega), if_neg (by omega), if_neg (by omega)]
    exact ⟨rfl, rfl, rfl⟩
  · obtain ⟨hreq, hboot⟩ := hfree
    rw [State.drivesSafe, State.drivesInactive, s.raiseAt_req sev unit status stamp detail hsafe hreq hboot]
    exact ⟨rfl, rfl, fun hb => by simp [hb], fun hb => by simp [hb]⟩
  · rw [State.raiseAt_beat]
    simp [sevMarksNext]

end Sys2Proof.Machine
end

section
/-! PROOFS of the family of 14_safety.md: events of the safety controller (R367, R388), and the checks of the record mirror (R374,
R392). -/

namespace Sys2Proof.Machine

/-! ### What the safety controller reports -/

/-- The safety state without the parts in which a request stands, which an event may change (R367, R370). -/
def SafetySt.checks (f : SafetySt) : SafetySt :=
  { f with req := false, reqAt := 0, firstSev := 0, last := 0, safeA := false, safeB := true, releasePend := false, causeFrame := 0 }

@[simp] theorem State.requestSafe_checks (s : State) (sev : Nat) : (s.requestSafe sev).saf.checks = s.saf.checks := by
  unfold State.requestSafe
  split
  · rfl
  · simp only [State.msix_eq, State.driveSafe, State.updSaf_saf]
    rfl

@[simp] theorem State.noteCause_checks (s : State) : s.noteCause.saf.checks = s.saf.checks := rfl

@[simp] theorem State.raise_checks (s : State) (sev unit status : Nat) : (s.raise sev unit status).saf.checks = s.saf.checks := by
  have hfifo : (s.fifo sev unit status s.stamp).saf = s.saf := by rw [State.fifo_eq]
  unfold State.raise State.raiseAt
  dsimp only
  split <;> split <;> simp [hfifo]

/-- From `s` to `t` the safety controller has raised these events, none of which marks a record, and has done nothing else. -/
structure State.Reports (s t : State) (es : List (Nat × Nat × Nat)) : Prop where
  frame : t = { s with saf := t.saf, ash := t.ash, link := t.link }
  checks : t.saf.checks = s.saf.checks
  raised : s.raisedTo t es

theorem State.Reports.refl (s : State) : s.Reports s [] := ⟨rfl, rfl, State.raisedTo_nil rfl⟩

theorem State.Reports.trans {s t u : State} {e f : List (Nat × Nat × Nat)} (h : s.Reports t e) (g : t.Reports u f) : s.Reports u (e ++ f) := by
  refine ⟨g.frame.trans ?_, g.checks.trans h.checks, State.raisedTo_trans h.raised g.raised⟩
  exact congrArg (fun x : State => { x with saf := u.saf, ash := u.ash, link := u.link }) h.frame

theorem State.Reports.raise {sev : Nat} (h : sevMarksNext sev = false) (s : State) (unit status : Nat) :
    s.Reports (s.raise sev unit status) [(sev, unit, status)] := by
  refine ⟨?_, s.raise_checks sev unit status, s.raisedTo_raise sev unit status⟩
  have hbeat : (s.raise sev unit status).beat = s.beat := by rw [State.raise_beat, h]; rfl
  conv_lhs => rw [State.raise_eq, hbeat]

theorem State.Reports.raiseIf {sev : Nat} (h : sevMarksNext sev = false) (s : State) (unit status : Nat) (c : Prop) [Decidable c] :
    s.Reports (if c then s.raise sev unit status else s) (if c then [(sev, unit, status)] else []) := by
  split
  · exact .raise h s unit status
  · exact .refl s

theorem State.Reports.raiseUnless {sev : Nat} (h : sevMarksNext sev = false) (s : State) (unit status : Nat) (c : Prop) [Decidable c] :
    s.Reports (if c then s else s.raise sev unit status) (if c then [] else [(sev, unit, status)]) := by
  split
  · exact .refl s
  · exact .raise h s unit status

/-- Reports between two updates of the safety state. -/
theorem State.Reports.within {s u : State} {f : SafetySt → SafetySt} {es : List (Nat × Nat × Nat)} (h : (s.updSaf f).Reports u es)
    (g : SafetySt → SafetySt) :
    u.updSaf g = { s with saf := (u.updSaf g).saf, ash := (u.updSaf g).ash, link := (u.updSaf g).link } ∧ s.raisedTo (u.updSaf g) es :=
  ⟨congrArg (State.updSaf · g) h.frame, State.raisedTo_of_events h.raised rfl rfl⟩

/-! ### The record mirror (R374, R392) -/

/-- The events of a header whose CRC-16 holds, in their order (R374). -/
def State.headerEvents (s : State) (m : Mirror) : List (Nat × Nat × Nat) :=
  (if s.saf.mirrorNext ≤ m.beat ∧ s.mirrorDeadline m.beat < s.now then [(13, 0xFF, 0)] else []) ++
    (s.saf.prevBeat.elim [] fun p => if leAt m.header 0 8 ≠ p + 1 then [(14, 0xFF, 0)] else []) ++
    (if headerLateOk s.img.safety.maxAgeNs m.header then [] else [(12, 0xFF, 0)])

theorem State.headerArrives_reports (s : State) (m : Mirror) : ∃ u : State, s.Reports u (s.headerEvents m) ∧
    s.headerArrives m = u.updSaf (fun f => { f with mirrorNext := max f.mirrorNext (m.beat + 1), prevBeat := some (leAt m.header 0 8) }) := by
  refine ⟨_, .trans (.trans (.raiseIf rfl s 0xFF 0 _) ?_) (.raiseUnless rfl _ 0xFF 0 _), rfl⟩
  cases s.saf.prevBeat with
  | none => exact .refl _
  | some p => exact .raiseIf rfl _ 0xFF 0 _

theorem State.headerMissing_reports (s : State) (n : Nat) : ∃ u : State,
    s.Reports u (if s.saf.mirrorNext ≤ n then [(13, 0xFF, 0)] else []) ∧
    s.headerMissing n = u.updSaf (fun f => { f with mirrorNext := max f.mirrorNext (n + 1) }) := by
  refine ⟨_, .raiseIf rfl s 0xFF 0 _, ?_⟩
  unfold State.headerMissing
  split
  · next h =>
    have hnext : (s.raise 13 0xFF 0).saf.mirrorNext = s.saf.mirrorNext :=
      (congrArg SafetySt.mirrorNext (s.raise_checks 13 0xFF 0) :)
    have hmax : max s.saf.mirrorNext (n + 1) = n + 1 := by omega
    simp only [State.updSaf, hnext, hmax]
  · next h =>
    have hmax : max s.saf.mirrorNext (n + 1) = s.saf.mirrorNext := by omega
    simp only [State.updSaf, hmax]

/-- A header on its way is taken, judged by its CRC-16, and its record is kept when it came whole. -/
theorem execMirrorHeaderReceive_front {s : State} {m : Mirror} {rest : List Mirror} (h : s.saf.mirrors = m :: rest) {headerOk ok : Bool}
    (hok : (headerOk && m.check == crc16Fold m.beat m.header) = ok) (recordOk : Bool) {u : State} {g : SafetySt → SafetySt}
    (hjudge : (if ok then (s.updSaf (fun f => { f with mirrors := rest })).headerArrives m
      else (s.updSaf (fun f => { f with mirrors := rest })).headerMissing m.beat) = u.updSaf g) :
    exec (.mirrorHeaderReceive ⟨headerOk, recordOk⟩) s = .next (u.updSaf (fun f =>
      if m.full = [] then g f
      else { g f with mirrored := some (m, recordOk && leAt m.full 252 4 == crc 4 (m.full.take 252)) })) := by
  change execMirrorHeaderReceive ⟨headerOk, recordOk⟩ s = _
  simp only [execMirrorHeaderReceive, h, hok, hjudge]
  split <;> rfl

/-- Settles O32: a header by its CRC-16, which decides whether it is judged or missing; the awaited one by its deadline. -/
theorem mirrorChecks : Obligations.MirrorChecks := by
  unfold Obligations.MirrorChecks
  refine ⟨fun s m rest recordOk hm hc => ?good, fun s m rest headerOk recordOk hm hbad => ?bad, fun s hst hdue => ?timeout⟩
  case good =>
    obtain ⟨u, hu, harrives⟩ := (s.updSaf (fun f => { f with mirrors := rest })).headerArrives_reports m
    have hnext : u.saf.mirrorNext = s.saf.mirrorNext := (congrArg SafetySt.mirrorNext hu.checks :)
    have hmirrors : u.saf.mirrors = rest := (congrArg SafetySt.mirrors hu.checks :)
    obtain ⟨hframe, hraised⟩ := hu.within _
    refine ⟨_, execMirrorHeaderReceive_front (headerOk := true) (ok := true) hm (by simp [hc]) recordOk harrives, ?_, ?_, ?_, ?_, ?_, hframe⟩
    · rw [State.updSaf_saf]
      split <;> exact hmirrors
    · rw [State.updSaf_saf]
      split <;> rfl
    · rw [State.updSaf_saf, ← hnext]
      split <;> rfl
    · rw [show (s.updSaf (fun f => { f with mirrors := rest })).headerEvents m = s.headerEvents m from rfl, State.headerEvents] at hraised
      cases hp : s.saf.prevBeat <;> (rw [hp] at hraised; exact hraised)
    · intro hfull
      rw [State.updSaf_saf, if_neg hfull]
  case bad =>
    obtain ⟨u, hu, hmissing⟩ := (s.updSaf (fun f => { f with mirrors := rest })).headerMissing_reports m.beat
    have hnext : u.saf.mirrorNext = s.saf.mirrorNext := (congrArg SafetySt.mirrorNext hu.checks :)
    have hmirrors : u.saf.mirrors = rest := (congrArg SafetySt.mirrors hu.checks :)
    have hprev : u.saf.prevBeat = s.saf.prevBeat := (congrArg SafetySt.prevBeat hu.checks :)
    have hok : (headerOk && m.check == crc16Fold m.beat m.header) = false := by
      rcases hbad with h | h <;> simp [h]
    obtain ⟨hframe, hraised⟩ := hu.within _
    refine ⟨_, execMirrorHeaderReceive_front (ok := false) hm hok recordOk hmissing, ?_, ?_, ?_, hraised, hframe⟩
    · rw [State.updSaf_saf]
      split <;> exact hmirrors
    · rw [State.updSaf_saf]
      split <;> exact hprev
    · rw [State.updSaf_saf, ← hnext]
      split <;> rfl
  case timeout =>
    obtain ⟨u, hu, hmissing⟩ := s.headerMissing_reports s.saf.mirrorNext
    have hnext : u.saf.mirrorNext = s.saf.mirrorNext := (congrArg SafetySt.mirrorNext hu.checks :)
    obtain ⟨hframe, hraised⟩ := State.Reports.within (s := s) (f := id) hu _
    rw [if_pos le_rfl] at hraised
    refine ⟨_, congrArg Host.Outcome.next ((if_pos ⟨hst, hdue⟩).trans hmissing), ?_, hraised, hframe⟩
    rw [State.updSaf_saf]
    change max u.saf.mirrorNext (s.saf.mirrorNext + 1) = _
    omega

end Sys2Proof.Machine
end

section
/-! PROOFS of the family of 14_safety.md: the comparison, the safe-state outputs and their release (R361 to R370). -/

namespace Sys2Proof.Machine

/-! ### The comparison (R363, R366) -/

theorem sevMarksNext_rowSev (row : Nat) : sevMarksNext (rowSev row) = false := by
  unfold rowSev
  split <;> rfl

/-- The state in which the outcome of a comparison stands before its events (R363): SAF_LASTCMP, SAF_COUNTS and the history. -/
def State.cmpNoted (s : State) (row : Nat) (u : Option (Nat × Nat)) : State :=
  let d := s.draw
  let uv := u.getD (Config.freeNat d.1 % 4096, Config.freeNat d.1 / 4096 % 4096)
  let bad := decide (row ≤ 5)
  d.2.updSaf (fun f => { f with
    hist := (bad :: f.hist).take 256, cmps := (bad :: f.cmps).take 256, cmp := rowCmp row, counted := bad, row := row
    uC := min 0xFFF uv.1, uM := min 0xFFF uv.2
    chkOnly := if bad then satInc f.chkOnly else f.chkOnly
    mainOnly := if row = 6 then satInc f.mainOnly else f.mainOnly
    cmpAt := some s.now })

/-- The events of an outcome, given the outcomes newest first (R363, R366). -/
def cmpEvents (x : SafetySec) (row : Nat) (hist : List Bool) : List (Nat × Nat × Nat) :=
  (if rowSev row = 0 then [] else [(rowSev row, 0xFF, 0)]) ++ (if disagreeRule x hist then [(3, 0xFF, 0)] else [])

theorem State.cmpOutcome_reports (s : State) (row : Nat) (u : Option (Nat × Nat)) :
    (s.cmpNoted row u).Reports (s.cmpOutcome row u) (cmpEvents s.img.safety row (s.cmpNoted row u).saf.hist) :=
  .trans (.raiseUnless (sevMarksNext_rowSev row) _ 0xFF 0 _) (.raiseIf rfl _ 0xFF 0 _)

/-- A comparison that is due and not exempt is decided by its row (R363, R364). -/
theorem State.compareNext_due {s : State} (hdue : s.cmpDue s.saf.cmpNext = true)
    (hexempt : ∀ m : Mirror × Bool, s.mirroredFor s.saf.cmpNext = some m → m.1.reepochOnly = false) :
    s.compareNext = (s.updSaf (fun f => { f with cmpNext := s.saf.cmpNext + 1 })).cmpOutcome (s.cmpRow s.saf.cmpNext).1
      (s.cmpRow s.saf.cmpNext).2 := by
  unfold State.compareNext
  simp only [hdue, Bool.not_true, Bool.false_eq_true, if_false]
  cases hm : s.mirroredFor s.saf.cmpNext with
  | none => rfl
  | some m => simp [hexempt m hm]

/-- Settles O33: the outcome is noted, and then its events are raised. -/
theorem compareOutcome : Obligations.CompareOutcome := by
  unfold Obligations.CompareOutcome
  intro s hdue hexempt row hist
  have hreports := (s.updSaf (fun f => { f with cmpNext := s.saf.cmpNext + 1 })).cmpOutcome_reports row (s.cmpRow s.saf.cmpNext).2
  rw [← State.compareNext_due hdue hexempt] at hreports
  have hchecks := hreports.checks
  have hraised : s.raisedTo s.compareNext (cmpEvents s.img.safety row hist) := State.raisedTo_of_events hreports.raised rfl rfl
  refine ⟨s.compareNext, rfl, (congrArg SafetySt.row hchecks :), (congrArg SafetySt.cmp hchecks :), (congrArg SafetySt.counted hchecks :),
    (congrArg SafetySt.cmpNext hchecks :), (congrArg SafetySt.hist hchecks :), (congrArg SafetySt.cmpAt hchecks :), ?_,
    (congrArg SafetySt.mainOnly hchecks :), hraised, (congrArg State.mem hreports.frame :)⟩
  exact (congrArg SafetySt.chkOnly hchecks :).trans (if_congr decide_eq_true_iff rfl rfl)

end Sys2Proof.Machine
end

section
namespace Sys2Proof.Machine

/-! ### Safe-state outputs (R368 to R370) -/

/-- The condition of SEV-022, as SAFE_READBACK_CHECK forms it from the levels read (R368). -/
abbrev State.readbackFails (s : State) (a b : Bool) : Prop :=
  s.saf.req ∧
    ((a != s.safeWanted.1 && (s.saf.safeARb == s.safeWanted.1 || decide (s.saf.reqAt + nsInst 10000 ≤ s.mono))) ||
      (b != s.safeWanted.2 && (s.saf.safeBRb == s.safeWanted.2 || decide (s.saf.reqAt + nsInst 10000 ≤ s.mono))))

theorem State.readbackFails_iff (s : State) (a b : Bool) : s.readbackFails a b ↔
    s.saf.req = true ∧
      ((a ≠ s.isBench ∧ (s.saf.safeARb = s.isBench ∨ s.saf.reqAt + nsInst 10000 ≤ s.mono)) ∨
       (b ≠ !s.isBench ∧ (s.saf.safeBRb = !s.isBench ∨ s.saf.reqAt + nsInst 10000 ≤ s.mono))) := by
  simp only [State.readbackFails, State.safeWanted, Bool.or_eq_true, Bool.and_eq_true, bne_iff_ne, beq_iff_eq, decide_eq_true_eq]

/-- The release of a request that is pending: the outputs are inactive, the outcomes are forgotten, and SEV-025 is raised (R370). -/
theorem State.releaseAt_pending {s : State} (h : s.saf.releasePend = true) :
    s.releaseAt.saf = { s.saf with req := false, releasePend := false, firstSev := 0, hist := [], last := 0, safeA := true, safeB := false } ∧
      s.raisedTo s.releaseAt [(25, 0xFF, 0)] := by
  rw [State.releaseAt, if_pos h]
  refine ⟨State.raiseAt_saf _ _ _ _ _ _ rfl, State.raisedTo_of_events (State.raisedTo_raise _ _ _ _) ?_ rfl⟩
  rw [State.msix_eq, HostLinkSt.msix_events]
  rfl

/-- Settles O34: the readback by its condition, RELEASE by the request and what is left of its causes. -/
theorem safeStateOutputs : Obligations.SafeStateOutputs := by
  unfold Obligations.SafeStateOutputs
  refine ⟨fun s a b => ?readback, fun s hr => ?none, fun s hr hok => ?refused, fun s hr hok hst => ?accepted, fun s hr hok hst => ?atOnce⟩
  case readback =>
    have hreports := State.Reports.raiseIf (sev := 22) rfl (s.updSaf (fun f => { f with safeARb := a, safeBRb := b })) 0xFF 0
      (s.readbackFails a b)
    obtain ⟨hframe, hraised⟩ := hreports.within id
    refine ⟨_, rfl, (congrArg SafetySt.safeARb hreports.checks :), (congrArg SafetySt.safeBRb hreports.checks :), ?_, hframe⟩
    rw [if_congr (s.readbackFails_iff a b).symm rfl rfl]
    exact hraised
  case none => exact congrArg Host.Outcome.next (if_pos (by simp [hr]))
  case refused =>
    refine congrArg Host.Outcome.next ?_
    rw [State.requestRelease, if_neg (by simp [hr]), if_neg (by simp [hok])]
  case accepted =>
    refine congrArg Host.Outcome.next ?_
    rw [State.requestRelease, if_neg (by simp [hr]), if_pos hok]
    exact if_pos hst
  case atOnce =>
    have hrelease : s.requestRelease = (s.updSaf (fun f => { f with last := 0, releasePend := true })).releaseAt := by
      rw [State.requestRelease, if_neg (by simp [hr]), if_pos hok]
      exact if_neg (by simp [hst])
    obtain ⟨hsaf, hraised⟩ := State.releaseAt_pending (s := s.updSaf (fun f => { f with last := 0, releasePend := true })) rfl
    refine ⟨_, congrArg Host.Outcome.next hrelease, ?_, ?_, ?_, ?_, ?_, State.raisedTo_of_events hraised rfl rfl⟩
    · rw [hsaf]
    · rw [hsaf]
    · rw [hsaf]
    · rw [hsaf]
    · rw [State.drivesInactive, hsaf]
      rfl

end Sys2Proof.Machine
end

section
/-! PROOFS of the family of 14_control.md: what reads of memory leave of the safety state, the checker's run and the checksum entries
(R357, R360, R376, R388, R401). -/

namespace Sys2Proof.Machine

/-! ### Accesses of memory (R124, R126, R141, R388) -/

/-- The safety state, the course of start-up and the beat, by which events act; accesses of memory leave them alone. -/
def State.control (s : State) : SafetySt × Boot × BeatSt := (s.saf, s.boot, s.beat)

/-- An event that neither requests safe state nor marks a record. -/
def sevIsPlain (sev : Nat) : Bool := !(sevRequestsSafe sev) && !(sevMarksNext sev)

theorem State.raiseDie_control (s : State) (d unit status : Nat) {sev : Nat} (h : sevIsPlain sev = true) :
    (s.raiseDie d sev unit status).control = s.control := by
  obtain ⟨hsafe, hmark⟩ := Bool.and_eq_true_iff.mp h
  have hbeat : (s.raiseDie d sev unit status).beat = s.beat := by
    rw [State.raiseDie_beat, if_neg (by simpa using hmark)]
  exact Prod.ext (State.raiseAt_saf _ _ _ _ _ _ (by simpa using hsafe)) (Prod.ext (State.raiseDie_boot _ _ _ _ _) hbeat)

@[simp] theorem State.updTile_control (s : State) (t : Nat) (f : TileSt → TileSt) : (s.updTile t f).control = s.control := (rfl)
@[simp] theorem State.updDie_control (s : State) (d : Nat) (f : DieSt → DieSt) : (s.updDie d f).control = s.control := (rfl)
@[simp] theorem State.updChan_control (s : State) (c : Nat) (f : ChanSt → ChanSt) : (s.updChan c f).control = s.control := (rfl)
@[simp] theorem State.oweRowTest_control (s : State) (u : Nat) : (s.oweRowTest u).control = s.control := (rfl)

@[simp] theorem State.undirty_control (s : State) (a : Nat) : (s.undirty a).control = s.control := by
  unfold State.undirty
  (repeat' split) <;> rfl

theorem State.memFlips_control (s : State) (m : SMap Byte) (f : SMap (List Nat)) :
    ({ s with mem := m, flips := f } : State).control = s.control := rfl

theorem State.suspects_control (s : State) (l : List (UnitKind × Nat × Nat)) : ({ s with suspects := l } : State).control = s.control := rfl

@[simp] theorem State.repairDramRow_control (s : State) (a d : Nat) : (s.repairDramRow a d).control = s.control := by
  unfold State.repairDramRow
  dsimp only
  split
  · rfl
  · obtain ⟨m, f, l, heq, -⟩ := State.recordRepairs_eq (s.updChan (dramChannel a) (fun x => { x with pprPending := true })) _
    rw [State.recordRepair, heq]
    rfl

@[simp] theorem State.noteUncorrectable_control (s : State) (a : Nat) : (s.noteUncorrectable a).1.control = s.control := by
  unfold State.noteUncorrectable
  split
  · simp only [State.oweRowTest_control, State.updTile_control, State.raiseDie_control _ _ _ _ (show sevIsPlain 51 = true from rfl)]
  · simp only [State.oweRowTest_control, State.updDie_control, State.raiseDie_control _ _ _ _ (show sevIsPlain 52 = true from rfl)]
  · simp only [State.repairDramRow_control, State.updChan_control, State.raiseDie_control _ _ _ _ (show sevIsPlain 53 = true from rfl)]

@[simp] theorem State.suspectOwner_control (s : State) (a d : Nat) : (s.suspectOwner a d).control = s.control := by
  have h := s.raiseDie_control d d 0x33 (sev := 54) rfl
  unfold State.suspectOwner
  dsimp only
  (repeat' split)
  · rw [State.suspects_control, h]
  · exact h
  · exact h

@[simp] theorem State.noteAddress_control (s : State) (a : Nat) : (s.noteAddress a).control = s.control := by
  unfold State.noteAddress
  split
  · dsimp only
    rw [State.suspects_control, State.raiseDie_control _ _ _ _ rfl, State.updTile_control]
  · rw [State.suspectOwner_control, State.updDie_control]
  · rw [State.suspectOwner_control, State.updChan_control]

@[simp] theorem State.noteCorrected_control (s : State) (a : Nat) : (s.noteCorrected a).control = s.control := by
  unfold State.noteCorrected
  split <;> rfl

@[simp] theorem State.linkTry_control (s : State) (u : Nat) : (s.linkTry u).1.control = s.control := by
  unfold State.linkTry
  split
  · dsimp only
    (repeat' split)
    · rfl
    · rfl
    · rw [State.raiseDie_control _ _ _ _ rfl, State.updChan_control]
  · rfl

@[simp] theorem State.fetchStored_control (s : State) (u size : Nat) : (s.fetchStored u size).st.control = s.control := by
  unfold State.fetchStored
  (repeat' split) <;> simp

@[simp] theorem State.fetchPart_control (s : State) (first : Bool) (u size : Nat) : (s.fetchPart first u size).st.control = s.control := by
  unfold State.fetchPart State.fetchUnit
  dsimp only
  (repeat' split) <;> simp

theorem State.fetchUnits_control (line : Option Nat) (l : List (Nat × Nat)) (f : Fetch) :
    (State.fetchUnits line l f).st.control = f.st.control := by
  induction l generalizing line f with
  | nil => rfl
  | cons e l ih =>
    rw [State.fetchUnits]
    split
    · rfl
    · exact (ih _ _).trans (State.fetchPart_control _ _ _ _)

theorem State.fetch_control (s : State) (a n : Nat) : (s.fetch a n).st.control = s.control := State.fetchUnits_control _ _ _

@[simp] theorem State.storeUnit_control (s : State) (first : Bool) (u size a : Nat) (bs : List Byte) :
    (s.storeUnit first u size a bs).1.control = s.control := by
  have hundirty := s.undirty_control u
  unfold State.storeUnit
  dsimp only
  split
  · split
    · split
      · rw [State.linkTry_control, hundirty]
      · rw [State.memFlips_control, State.linkTry_control, hundirty]
    · exact (State.memFlips_control (s.undirty u) _ _).trans hundirty
  · split
    · rw [State.fetchPart_control, hundirty]
    · rw [State.memFlips_control, State.fetchPart_control, hundirty]

theorem State.storeUnits_control (stop : Bool) (a : Nat) (bs : List Byte) (l : List (Nat × Nat)) (line : Option (Nat × Bool)) (r : State × Nat) :
    (State.storeUnits stop a bs line l r).1.control = r.1.control := by
  induction l generalizing line r with
  | nil => rfl
  | cons e l ih =>
    rw [State.storeUnits]
    split <;> simp [ih]

@[simp] theorem State.put_control (s : State) (a : Nat) (bs : List Byte) : (s.put a bs).control = s.control :=
  State.storeUnits_control _ _ _ _ _ _

/-! ### Scans (R398 to R401) -/

theorem State.scanLines_control (own : Option Nat) (p : Poly) (n : Nat) (s : State) (a reg : Nat) :
    (s.scanLines own p n a reg).1.control = s.control := by
  induction n generalizing s a reg with
  | zero => rfl
  | succ n ih =>
    unfold State.scanLines
    split
    · rfl
    · dsimp only
      split
      · exact s.fetch_control a 64
      · exact (ih _ _ _).trans (s.fetch_control a 64)

theorem State.scanRange_control (s : State) (own : Option Nat) (poly a len : Nat) : (s.scanRange own poly a len).1.control = s.control := by
  unfold State.scanRange
  split
  · rfl
  · exact State.scanLines_control _ _ _ _ _ _

/-! ### Checksum entries (R376, R401) -/

theorem State.verifySum_control (s : State) (u : Nat) (e : ChkSum) : (s.verifySum u e).1.control = s.control := by
  refine Eq.trans ?_ (s.scanRange_control (cvuRegion u) 5 e.addr e.len)
  unfold State.verifySum State.updCvu
  dsimp only
  split <;> rfl

/-- The state in which an entry of the first frame is verified and marked, before a mismatch is reported (R376). -/
def State.sumMarked (s : State) (i cvu : Nat) (e : ChkSum) : State :=
  (s.verifySum cvu e).1.updSaf (fun f => { f with sumsDone := i :: f.sumsDone })

theorem State.sumMarked_saf (s : State) (i cvu : Nat) (e : ChkSum) :
    (s.sumMarked i cvu e).saf = { s.saf with sumsDone := i :: s.saf.sumsDone } := by
  have h : (s.verifySum cvu e).1.saf = s.saf := congrArg Prod.fst (s.verifySum_control cvu e)
  rw [State.sumMarked, State.updSaf_saf, h]

theorem State.sumMarked_boot (s : State) (i cvu : Nat) (e : ChkSum) : (s.sumMarked i cvu e).boot = s.boot :=
  congrArg (·.2.1) (s.verifySum_control cvu e)

theorem State.sumFirstFrame_agrees {s : State} {cvu : Nat} {e : ChkSum} (h : (s.verifySum cvu e).2 = true) (i : Nat) :
    s.sumFirstFrame i cvu e = s.sumMarked i cvu e := if_pos h

theorem State.sumFirstFrame_differs {s : State} {cvu : Nat} {e : ChkSum} (h : (s.verifySum cvu e).2 = false) (i : Nat) :
    s.sumFirstFrame i cvu e = (((s.sumMarked i cvu e).raise 18 (sumTag e) 0x53).noteCause).requestSafe 18 :=
  if_neg (by simp [h])

theorem State.sumFirstFrame_sumsDone (s : State) (i cvu : Nat) (e : ChkSum) :
    (s.sumFirstFrame i cvu e).saf.sumsDone = i :: s.saf.sumsDone := by
  have hmarked := congrArg SafetySt.sumsDone (s.sumMarked_saf i cvu e)
  cases hv : (s.verifySum cvu e).2 with
  | true => rw [State.sumFirstFrame_agrees hv, hmarked]
  | false =>
    have hchecks : (s.sumFirstFrame i cvu e).saf.checks = (s.sumMarked i cvu e).saf.checks := by
      rw [State.sumFirstFrame_differs hv, State.requestSafe_checks, State.noteCause_checks, State.raise_checks]
    exact (congrArg SafetySt.sumsDone hchecks :).trans hmarked

theorem State.requestSafe_req {s : State} (h : s.boot ≠ .failed) (sev : Nat) : (s.requestSafe sev).saf.req = true := by
  unfold State.requestSafe
  split
  · next hc => simpa [h] using hc
  · rw [State.msix_eq, State.driveSafe]
    rfl

@[simp] theorem State.noteCause_boot (s : State) : s.noteCause.boot = s.boot := (rfl)
@[simp] theorem State.noteCause_link (s : State) : s.noteCause.link = s.link := (rfl)

/-- A mismatch that is reported after `s`: SEV-018 with status 0x53, and the request for safe state (R376, R388). -/
theorem State.reportMismatch (s : State) (unit : Nat) (h : s.boot ≠ .failed) :
    let u := ((s.raise 18 unit 0x53).noteCause).requestSafe 18
    u.saf.req = true ∧ s.raisedTo u [(18, unit, 0x53)] := by
  refine ⟨State.requestSafe_req (by rwa [State.noteCause_boot, State.raise_boot]) 18,
    State.raisedTo_of_events (s.raisedTo_raise 18 unit 0x53) rfl ?_⟩
  rw [State.requestSafe_events, State.noteCause_link]

theorem State.checksumVerify_firstFrame {s : State} {i cvu : Nat} {e : ChkSum} (he : s.img.checker.sums[i]? = some e)
    (hu : s.sumUnit e = some cvu) (hw : s.sumWaiter i = none) (hst : s.started = true) (hn : 0 < s.beat.next) (hf : s.beat.frame = 0)
    (hi : i ∉ s.saf.sumsDone) (ho : s.sumInOrder i e s.saf.sumsDone = true) : s.checksumVerify i = (s.sumFirstFrame i cvu e).settle := by
  unfold State.checksumVerify
  simp only [he, hu, hw]
  exact if_pos ⟨hst, hn, hf, by simp [hi], ho⟩

/-- Settles O35: the run's end is one update; an entry of the first frame is verified, marked, and reported when it does not agree. -/
theorem checkerAndChecksums : Obligations.CheckerAndChecksums := by
  unfold Obligations.CheckerAndChecksums
  refine ⟨fun s r hr => ?run, fun s i cvu e he hu hw hst hn hf hi ho => ?sum⟩
  case run =>
    refine congrArg Host.Outcome.next ?_
    rw [State.checkerDone, hr]
  case sum =>
    refine ⟨_, s.sumFirstFrame i cvu e, congrArg Host.Outcome.next (State.checksumVerify_firstFrame he hu hw hst hn hf hi ho), rfl,
      s.sumFirstFrame_sumsDone i cvu e, s.sumFirstFrame_mem i cvu e, fun hv => State.sumFirstFrame_agrees hv i, fun hv hfree => ?_⟩
    obtain ⟨hreq, hraised⟩ := (s.sumMarked i cvu e).reportMismatch (sumTag e) (by rw [State.sumMarked_boot]; exact hfree.2)
    rw [State.sumFirstFrame_differs hv]
    exact ⟨hreq, State.raisedTo_trans (State.raisedTo_nil rfl) hraised⟩

end Sys2Proof.Machine
end

section
/-! PROOFS of the family of 14_safety.md: the Ash log's flash mirror and its fetch (R384, R385, R387). -/

namespace Sys2Proof.Machine

/-- Bytes written one after the other read back, whatever a byte reads as that was never written. -/
theorem SMap.get_foldl_setBytes {d : Byte} (bs : List Byte) (m : SMap Byte) (a x : Nat) :
    SMap.get d (bs.foldl (fun acc b => (SMap.set d acc.1 acc.2 b, acc.2 + 1)) (m, a)).1 x =
      if a ≤ x ∧ x < a + bs.length then bs.getD (x - a) 0 else SMap.get d m x := by
  induction bs generalizing m a with
  | nil => simp
  | cons b bs ih =>
    rw [List.foldl_cons, ih, List.length_cons]
    by_cases hx : x = a
    · subst hx
      rw [if_neg (by omega), if_pos (by omega), SMap.get_set_self, Nat.sub_self]
      rfl
    · by_cases hin : a + 1 ≤ x ∧ x < a + 1 + bs.length
      · rw [if_pos hin, if_pos (by omega), show x - a = (x - (a + 1)) + 1 by omega]
        rfl
      · rw [if_neg hin, if_neg (by omega), SMap.get_set_ne _ _ _ _ _ hx]

/-- Programmed bytes read back (R384). -/
theorem State.flashPut_byte (s : State) (a : Nat) (bs : List Byte) {i : Nat} (h : i < bs.length) :
    SMap.get 0xFF (s.flashPut a bs).flash (a + i) = bs.getD i 0 := by
  rw [State.flashPut, SMap.get_foldl_setBytes, if_pos (by omega), Nat.add_sub_cancel_left]

/-- A page is programmed into flash that may have been erased before. -/
theorem State.ashProgram_eq (s : State) : ∃ fl : SMap Byte, s.ashProgram =
    (({ s with flash := fl }).flashPut (ashMirror + s.ash.mirrorPage * 4096) ((s.ash.page.take 64).flatMap id)).updAsh (fun a => { a with
      page := a.page.drop 64, pageAt := s.mono, mirrorPage := (s.ash.mirrorPage + 1) % ashPages }) := by
  unfold State.ashProgram
  dsimp only
  split
  · exact ⟨_, rfl⟩
  · exact ⟨s.flash, rfl⟩

theorem State.ashFetched_ring {s : State} (hb : s.ash.rdBusy = true)
    (h : let seq := s.ash.selLo.toNat + 2 ^ 32 * s.ash.selHi.toNat
      seq < s.ash.head.toNat ∧ s.ash.head.toNat ≤ seq + 131072 ∧ leAt (SMap.get [] s.ash.ring (seq % 131072)) 0 8 = seq ∧
        SMap.get [] s.ash.ring (seq % 131072) ≠ []) :
    s.ashFetched = s.updAsh (fun a => { a with
      rdBusy := false, rdGone := false, rdFlash := false
      data := SMap.get [] a.ring ((s.ash.selLo.toNat + 2 ^ 32 * s.ash.selHi.toNat) % 131072) }) := by
  unfold State.ashFetched
  dsimp only
  rw [if_neg (by simp [hb]), if_pos h]

/-- A fetch changes the log's registers alone, and ends. -/
theorem State.ashFetched_eq {s : State} (hb : s.ash.rdBusy = true) :
    s.ashFetched.ash.rdBusy = false ∧ s.ashFetched = { s with ash := s.ashFetched.ash } := by
  unfold State.ashFetched
  dsimp only
  rw [if_neg (by simp [hb])]
  split
  · exact ⟨rfl, rfl⟩
  · split <;> exact ⟨rfl, rfl⟩

/-- Settles O37: a page is programmed byte by byte, and a fetch ends in the ring, the mirror or with nothing. -/
theorem ashLogCommands : Obligations.AshLogCommands := by
  unfold Obligations.AshLogCommands
  refine ⟨fun s h => ?program, fun s hi => rfl, fun s hb => ?fetched⟩
  case program =>
    obtain ⟨fl, heq⟩ := s.ashProgram_eq
    exact ⟨_, congrArg Host.Outcome.next ((if_pos h).trans heq), rfl, rfl, fun i hi => State.flashPut_byte _ _ _ hi, rfl⟩
  case fetched =>
    obtain ⟨hidle, hframe⟩ := State.ashFetched_eq hb
    refine ⟨s.ashFetched, rfl, hidle, hframe, fun hhead hring hseq hne => ?_⟩
    rw [State.ashFetched_ring hb ⟨hhead, hring, hseq, hne⟩]
    exact ⟨rfl, rfl, rfl⟩

end Sys2Proof.Machine
end

section
/-! PROOFS of the family of 14_safety.md: the rotating self-tests (R377 to R379, R388, R404). -/

namespace Sys2Proof.Machine

/-! ### The mark of the next record, through a fence (R99, R404, R409, R410) -/

/-- From `s` to `t` a record that is marked INVALID stays marked. -/
def State.KeepsMark (s t : State) : Prop := s.beat.invalidNext = true → t.beat.invalidNext = true

theorem State.KeepsMark.refl (s : State) : s.KeepsMark s := fun h => h

theorem State.KeepsMark.trans {s t u : State} (h : s.KeepsMark t) (g : t.KeepsMark u) : s.KeepsMark u := fun hs => g (h hs)

section
variable {s t : State} (h : s.KeepsMark t)
include h

/-- A state in which the mark has not changed. -/
theorem State.KeepsMark.same {v : State} (hv : v.beat.invalidNext = t.beat.invalidNext) : s.KeepsMark v := fun hs => hv.trans (h hs)

theorem State.KeepsMark.raiseAt (sev unit status : Nat) (stamp : Stamp) (detail : List Byte) :
    s.KeepsMark (t.raiseAt sev unit status stamp detail) := by
  intro hs
  rw [State.raiseAt_beat]
  split
  · rfl
  · exact h hs

theorem State.KeepsMark.raise (sev unit status : Nat) : s.KeepsMark (t.raise sev unit status) := h.raiseAt _ _ _ _ _

theorem State.KeepsMark.raiseDie (d sev unit status : Nat) : s.KeepsMark (t.raiseDie d sev unit status) := h.raiseAt _ _ _ _ _

theorem State.KeepsMark.updUpd (f : UpdSt → UpdSt) : s.KeepsMark (t.updUpd f) := h.same rfl

theorem State.KeepsMark.msix (v : Nat) : s.KeepsMark (t.msix v) := h.same rfl

theorem State.KeepsMark.updUnit (k : UnitKind) (u : Nat) (f : UnitSt → UnitSt) : s.KeepsMark (t.updUnit k u f) := by
  cases k <;> exact h.same rfl

theorem State.KeepsMark.ite {v : State} (p : Prop) [Decidable p] (g : s.KeepsMark v) : s.KeepsMark (if p then t else v) := by
  split <;> assumption

theorem State.KeepsMark.foldl {α : Type} (g : State → α → State) (l : List α) (hg : ∀ (v : State) (x : α), v.KeepsMark (g v x)) :
    s.KeepsMark (l.foldl g t) :=
  List.foldlRecOn (motive := fun v : State => s.KeepsMark v) l g h fun v hv x _ => hv.trans (hg v x)

end

theorem State.meFlags_clearKindling_beat (s : State) (q : Nat) (f : InFlight) : ((s.meFlags q f).clearKindling f).beat = s.beat := by
  unfold State.clearKindling State.meFlags
  (repeat' split) <;> rfl

theorem State.afterEntry_keepsMark (s : State) (q : Nat) (f : InFlight) (irq : Nat) : s.KeepsMark (s.afterEntry q f irq) := by
  have hmark : s.KeepsMark ((((s.updQueue q (QueueSt.retired f)).meFlags q f).clearKindling f).updBeat (fun b => { b with
      satNext := b.satNext || f.sat, invalidNext := b.invalidNext || statusInvalidates f.status.toNat })) := fun h => by
    rw [State.updBeat_beat, State.meFlags_clearKindling_beat, State.updQueue_beat, h, Bool.true_or]
  unfold State.afterEntry
  dsimp only
  split
  · exact hmark.msix _
  · exact hmark

theorem State.complete_keepsMark (s : State) (a : QueueAlloc) (f : InFlight) (cycles : Nat) : s.KeepsMark (s.complete a f cycles) := by
  rw [State.complete_eq]
  exact .trans ((State.KeepsMark.refl s).same (congrArg (·.2.2.invalidNext) (s.put_control _ _))) (State.afterEntry_keepsMark _ _ _ _)

theorem State.completeAll_keepsMark (q status : Nat) (l : List InFlight) (s : State) : s.KeepsMark (s.completeAll q status l) := by
  induction l generalizing s with
  | nil => exact .refl s
  | cons f l ih =>
    rw [State.completeAll]
    refine .trans ?_ (ih _)
    split
    · exact State.complete_keepsMark s.draw.2 _ _ _
    · exact .refl s.draw.2

theorem State.answerAllocs_keepsMark (tiles : List Nat) (status : Nat) (l : List QueueAlloc) (s : State) :
    s.KeepsMark (s.answerAllocs tiles status l) := by
  induction l generalizing s with
  | nil => exact .refl s
  | cons a l ih =>
    rw [State.answerAllocs]
    refine .trans ?_ (ih _)
    split
    · exact State.completeAll_keepsMark _ _ _ _
    · exact (State.KeepsMark.refl s).same rfl

theorem State.recallMessages_keepsMark (cmds : List (Nat × Nat)) (l : List Nat) (s : State) : s.KeepsMark (s.recallMessages cmds l) := by
  induction l generalizing s with
  | nil => exact (State.KeepsMark.refl s).same rfl
  | cons t l ih =>
    rw [State.recallMessages]
    refine .trans ?_ (ih _)
    exact (State.KeepsMark.refl s).same rfl

theorem State.discardMessages_keepsMark (t : Nat) (l : List Message) (s : State) : s.KeepsMark (s.discardMessages t l) := by
  induction l generalizing s with
  | nil => exact (State.KeepsMark.refl s).same rfl
  | cons m l ih =>
    rw [State.discardMessages]
    refine .trans ?_ (ih _)
    split <;> exact (State.KeepsMark.refl s).same rfl

theorem State.answerTiles_keepsMark (s : State) (tiles : List Nat) (status : Nat) : s.KeepsMark (s.answerTiles tiles status) := by
  have h := ((State.answerAllocs_keepsMark tiles status s.liveAllocs s).trans
    (State.recallMessages_keepsMark (s.fencedCmds tiles) (List.range s.part.tiles) _)).foldl
      (fun acc t => acc.discardMessages t (acc.tile t).msgs) tiles fun v t => State.discardMessages_keepsMark t _ v
  unfold State.answerTiles
  dsimp only
  split
  · exact h.same (congrArg BeatSt.invalidNext (State.dropUpdates_beat _ _) :)
  · exact h

theorem State.refreshMissing_keepsMark (s : State) : s.KeepsMark s.refreshMissing := by
  unfold State.refreshMissing
  dsimp only
  split
  · refine .raise (.same (.refl s) ?_) _ _ _
    rfl
  · exact (State.KeepsMark.refl s).same rfl

theorem State.endDrains_keepsMark (s : State) (k : UnitKind) (u : Nat) : s.KeepsMark (s.endDrains k u) := by
  unfold State.endDrains
  refine State.KeepsMark.foldl ?_ _ _ fun v f => ((((State.KeepsMark.refl v).updUpd _).updUpd _).raise _ _ _).msix _
  exact (State.KeepsMark.refl s).same rfl

theorem State.absorb_keepsMark (s : State) (k : UnitKind) (u : Nat) : s.KeepsMark (s.absorb k u) := by
  refine (State.KeepsMark.refl s).foldl _ _ fun v e => ?_
  dsimp only
  split
  · exact .refl v
  · exact ((State.KeepsMark.refl v).updUnit _ _ _).updUnit _ _ _

theorem State.openFence_keepsMark (s : State) (k : UnitKind) (u cause : Nat) (st : UnitState) : s.KeepsMark (s.openFence k u cause st) :=
  ((((s.endDrains_keepsMark k u).trans (State.absorb_keepsMark _ k u)).updUnit _ _ _).updUnit _ _ _).raiseDie _ _ _ _

/-- A unit that a fault makes suspect leaves the mark of the fault. -/
theorem State.suspectUnit_keepsMark (s : State) (k : UnitKind) (u cause : Nat) : s.KeepsMark (s.suspectUnit k u cause) := by
  have hheld : s.KeepsMark { s with suspects := s.suspects ++ [(k, u, cause)] } := (State.KeepsMark.refl s).same rfl
  have hfence := ((s.openFence_keepsMark k u cause .suspect).trans (State.answerTiles_keepsMark _
    ((s.openFence k u cause .suspect).unitTiles k u) 0x80)).trans (State.refreshMissing_keepsMark _)
  have hfault := (State.KeepsMark.refl s).ite (s.underRecovery k u = true) (hheld.ite (s.recoveryHeld k u = true) hfence)
  unfold State.suspectUnit
  split
  case h_5 => exact .refl s
  all_goals exact hfault

/-! ### Self-tests (R377 to R379) -/

/-- The unit of a target that exists in service is in service. -/
theorem State.testUnit_inService {s : State} {g : TestTarget} {unit u : Nat} {k : UnitKind} (he : s.testExists g unit = true)
    (hu : s.testUnit g unit = some (k, u)) : (s.unit k u).state = .inService := by
  have htile : s.tileInService unit = true → (s.slot (s.slotOfTile unit)).u.state = .inService := fun h => by
    simpa using List.all_eq_true.mp h (s.slot (s.slotOfTile unit)).u (by simp [State.tileStates])
  have hcluster : (s.clusterStates unit).all (fun u => u.state == .inService) = true → (s.cluUnit unit).state = .inService := fun h => by
    simpa using List.all_eq_true.mp h (s.cluUnit unit) (by simp [State.clusterStates])
  cases g
  case tileEcc | kindling | residue =>
    obtain ⟨rfl, rfl⟩ := Prod.mk.inj (Option.some.inj hu)
    exact htile (Bool.and_eq_true_iff.mp he).2
  case ageMonitor =>
    obtain ⟨rfl, rfl⟩ := Prod.mk.inj (Option.some.inj hu)
    exact htile (Bool.and_eq_true_iff.mp (Bool.and_eq_true_iff.mp he).1).2
  case checkValue | syncDir =>
    obtain ⟨rfl, rfl⟩ := Prod.mk.inj (Option.some.inj hu)
    exact hcluster (Bool.and_eq_true_iff.mp he).2
  case dieEcc =>
    obtain ⟨rfl, rfl⟩ := Prod.mk.inj (Option.some.inj hu)
    exact beq_iff_eq.mp (Bool.and_eq_true_iff.mp he).2
  case comparator | mirrorChecker | checkerEngine => exact absurd hu (Option.some_ne_none _).symm

theorem execSelfTestStep_runs {s : State} {g : TestTarget} {unit : Nat} (he : s.testExists g unit = true) (hr : s.testRuns g unit = true)
    (pass : Bool) : exec (.selfTestStep g unit pass) s = .next (if pass then s.testPass g unit else s.testFail g unit) :=
  congrArg Host.Outcome.next (if_neg (by simp [he, hr]))

theorem State.raise_requests {s : State} {sev : Nat} (h : sevRequestsSafe sev = true) (hfree : s.unrequested) (unit status : Nat) :
    (s.raise sev unit status).saf.req = true := by
  rw [State.raise, State.raiseAt_req _ _ _ _ _ _ h hfree.1 hfree.2]

theorem State.testFail_pregus {s : State} {g : TestTarget} {unit : Nat} (hu : s.testUnit g unit = none) :
    s.testFail g unit = (s.updSaf (fun f => { f with failedTests := g :: f.failedTests.filter (· != g) })).raise 20 0xFF 0 := by
  rw [State.testFail, hu]

/-- A failed step of a unit in service acts as a hang of the unit does, with SEV-019 (R379, R408). -/
theorem State.testFail_unit {s : State} {g : TestTarget} {unit u : Nat} {k : UnitKind} (hs : (s.unit k u).state = .inService)
    (hu : s.testUnit g unit = some (k, u)) : s.testFail g unit = s.hang k u 19 := by
  rw [State.testFail, hu, State.hang, if_pos (by rw [hs]; rfl)]

/-- Settles O36: a step that runs passes or fails, the failure by the target's unit; a round that takes too long is reported. -/
theorem selfTests : Obligations.SelfTests := by
  unfold Obligations.SelfTests
  refine ⟨fun s g unit he hr => ?pass, fun s g unit he hr hu => ?pregus, fun s g unit k u he hr hu hrec hheld hsus hf => ?compute,
    fun s g unit pass hr => ?deferred, fun s g unit hst he hlate => ?starved⟩
  case pass =>
    refine ⟨_, execSelfTestStep_runs he hr true, rfl, ?_⟩
    simp only [if_true, State.testPass, State.updSaf_saf]
    split
    · exact ⟨SMap.get_set_self _ _ _ _, by simp⟩
    · exact ⟨SMap.get_set_self _ _ _ _, rfl⟩
  case pregus =>
    have hreports := State.Reports.raise (sev := 20) rfl (s.updSaf (fun f => { f with failedTests := g :: f.failedTests.filter (· != g) })) 0xFF 0
    obtain ⟨hframe, hraised⟩ := hreports.within id
    have hfailed := congrArg (g ∈ ·.failedTests) hreports.checks
    refine ⟨_, (execSelfTestStep_runs he hr false).trans (congrArg Host.Outcome.next (State.testFail_pregus hu)), ?_, hraised, ?_, hframe⟩
    · exact hfailed.mpr List.mem_cons_self
    · intro hfree
      refine State.raise_requests rfl ?_ 0xFF 0
      exact hfree
  case compute =>
    have hin := State.testUnit_inService he hu
    obtain ⟨hstate, hcause, hreset, -, -, hwords⟩ := State.hang_hung hin hrec hheld hf 19
    refine ⟨s.hang k u 19, (execSelfTestStep_runs he hr false).trans (congrArg Host.Outcome.next (State.testFail_unit hin hu)),
      hstate, hcause, hreset, ?_, hwords⟩
    rw [State.hang, if_pos (by rw [hin]; rfl)]
    refine State.suspectUnit_keepsMark _ k u 19 ?_
    rw [State.raiseDie_beat]
    rfl
  case deferred => exact congrArg Host.Outcome.next (if_pos (by simp [hr]))
  case starved =>
    refine ⟨_, congrArg Host.Outcome.next (if_pos ⟨hst, he, hlate⟩), SMap.get_set_self _ _ _ _, ?_⟩
    exact State.raisedTo_of_events (s.raisedTo_raise 21 _ 0) rfl rfl

end Sys2Proof.Machine
end

section
/-! PROOFS of the family of 14_safety.md: the golden slice (R371, R388), and how a command ends whose writes are checked. -/

namespace Sys2Proof.Machine

/-! ### The statuses of reads and writes fit their field of eight bits, tags, scales, checks and statistics included -/

theorem Run.readScales_status (c : Ctx) (h : ScaleHdr) (l : List Nat) {r : Run} (hr : r.status < 256) :
    (Run.readScales c h l r).status < 256 := by
  induction l generalizing r with
  | nil => exact hr
  | cons i l ih =>
    have hread := Run.read_status c (h.scales + 4 * i) 4 hr
    unfold Run.readScales
    dsimp only
    (repeat' split)
    · exact hread
    · exact ih hread
    · exact (by decide : (0x24 : Nat) < 256)

theorem Run.consume_status (c : Ctx) (fl : InFlight) (o : Nat) (t : Tensor) (h : ScaleHdr) (j : Nat) {r : Run} (hr : r.status < 256) :
    (r.consume c fl o t h j).status < 256 := by
  have hread := Run.read_status c (h.stags + j) 1 (Run.read_status c (t.base + t.trailerOff + j) 1 hr)
  unfold Run.consume
  dsimp only
  (repeat' split)
  · exact hr
  · exact hread
  · exact (by decide : (0x2C : Nat) < 256)
  · exact Run.readScales_status c h _ hread

theorem Run.elems_status_lt (c : Ctx) (fl : InFlight) (consumes : Bool) (o lo n : Nat) {r : Run} (hr : r.status < 256) :
    (r.elems c fl consumes o lo n).status < 256 := by
  have hconsume : ∀ (t : Tensor) (h : ScaleHdr) (l : List Nat), (l.foldl (fun (acc : Run) j => acc.consume c fl o t h j) r).status < 256 :=
    fun t h l => List.foldlRecOn (motive := fun x : Run => x.status < 256) l _ hr fun _ hx j _ => Run.consume_status c fl o t h j hx
  unfold Run.elems
  split
  · exact hr
  · lift_lets
    intro r1 a len r2
    have h1 : r1.status < 256 := by
      simp only [r1]
      split
      · exact hconsume _ _ _
      · exact hr
    have h2 : r2.status < 256 := Run.read_status c a len h1
    split
    · exact (by decide : (0x20 : Nat) < 256)
    · exact h2

/-- A plan of reads ends with a status of eight bits. -/
theorem Run.plan_status_lt (c : Ctx) (fl : InFlight) (consumes : Bool) (p : List PlanStep) {r : Run} (hr : r.status < 256) :
    (Run.plan c fl consumes p r).status < 256 := by
  refine List.foldlRecOn (motive := fun x : Run => x.status < 256) p _ hr fun x hx step _ => ?_
  cases step with
  | elems o lo n =>
    simp only [Run.step]
    split
    · exact hx
    · exact Run.elems_status_lt c fl consumes o lo n hx
  | raw a n => exact Run.read_status c a n hx
  | scales o idx =>
    simp only [Run.step]
    (repeat' split)
    · exact hx
    · exact Run.readScales_status c _ _ hx
    · exact hx
  | fresh => exact hx
  | pass k => exact hx
  | row => simp only [Run.step]; split <;> exact hx

/-! ### Writes, and what comes after them (R83, R203, R207, R371) -/

/-- The writes of a command to its DST and their trailers, after its reads: the state, the status and the number of writes performed. -/
def Run.written (c : Ctx) (fl : InFlight) (exact_ : Bool) (e : Effect) (t : Tensor) (r : Run) : State × Nat × Nat :=
  let p := if r.status = 0 then (e.rows.length, r.st) else freePrefix exact_ r.st (min r.rows e.rows.length)
  let closed := decide (0 < p.1) && p.2.carveClosed (some c.region) t.base t.extent
  let w := if closed then (p.2, 0x38, 0) else State.storeGroups exact_ t (splitRows e.groups (e.rows.take p.1)) p.2 0
  let status := if r.status ≠ 0 then r.status else w.2.1
  let tr := match fl.hdrD with
    | some h => State.storeTrailer c t h (t.doneBlocks e.rows w.2.2) w.1
    | none => (w.1, 0)
  (tr.1, if status ≠ 0 then status else tr.2, w.2.2)

/-- The status of a command after its check: that of its reads and writes, else what the check gives. -/
def checkedStatus (verdict : State → Nat) (x : State × Nat × Nat) : Nat := if x.2.1 ≠ 0 then x.2.1 else verdict x.1

theorem checkedStatus_lt {verdict : State → Nat} (hv : ∀ s, verdict s < 256) {x : State × Nat × Nat} (hx : x.2.1 < 256) :
    checkedStatus verdict x < 256 := by
  unfold checkedStatus
  split
  · exact hx
  · exact hv _

/-- What follows the writes and their check: the statistics of a command that has not failed. -/
def Ended.after (c : Ctx) (fl : InFlight) (rounds : Bool) (e : Effect) (t : Tensor) (rows : Nat) (x : State × Nat × Nat) (status : Nat) : Ended :=
  match fl.hdrD with
  | some h =>
    if status = 0 ∧ rounds ∧ h.stats ∧ t.fmt ≠ .xa96 then
      let st := x.1.store h.statsAddr (statsBytes e t c fl)
      { st := st.1, status := st.2, performed := x.2.2, ready := rows }
    else { st := x.1, status := status, performed := x.2.2, ready := rows }
  | none => { st := x.1, status := status, performed := x.2.2, ready := rows }

theorem Run.finish_eq {fl : InFlight} {t : Tensor} (ht : fl.dst = some t) (c : Ctx) (rounds exact_ : Bool) (verdict : State → Nat) (e : Effect)
    (r : Run) : r.finish c fl rounds exact_ verdict e =
      Ended.after c fl rounds e t r.rows (r.written c fl exact_ e t) (checkedStatus verdict (r.written c fl exact_ e t)) := by
  unfold Run.finish
  rw [ht]
  rfl

theorem Run.written_status (c : Ctx) (fl : InFlight) (exact_ : Bool) (e : Effect) (t : Tensor) {r : Run} (h : r.status < 256) :
    (r.written c fl exact_ e t).2.1 < 256 := by
  unfold Run.written
  lift_lets
  intro p closed w status tr
  have hw : w.2.1 < 256 := by
    simp only [w]
    split
    · simp
    · exact State.storeGroups_status _ _ _ _ _
  have htr : tr.2 < 256 := by
    simp only [tr]
    split
    · exact State.storeTrailer_status _ _ _ _ _
    · simp
  have h0 : status < 256 := by simp only [status]; split <;> assumption
  dsimp only
  split <;> assumption

theorem Ended.after_status (c : Ctx) (fl : InFlight) (rounds : Bool) (e : Effect) (t : Tensor) (rows : Nat) (x : State × Nat × Nat)
    {status : Nat} (hs : status < 256) : (Ended.after c fl rounds e t rows x status).status < 256 := by
  unfold Ended.after
  split
  · next hd _ =>
    have hstats := x.1.store_status hd.statsAddr (statsBytes e t c fl)
    generalize statsBytes e t c fl = bs at hstats ⊢
    split
    · exact hstats
    · exact hs
  · exact hs

/-- A command that is checked ends with a status of eight bits when its check gives one. -/
theorem State.endedWith_status {f : InFlight} {t : Tensor} (ht : f.dst = some t) (s : State) (q : Nat) (consumes rounds exact_ : Bool)
    {verdict : State → Nat} (hv : ∀ s, verdict s < 256) (plan : List PlanStep) (e : Effect) :
    (s.endedWith q f consumes rounds exact_ verdict plan e).status < 256 := by
  have hplan := Run.plan_status_lt (s.ctxOf q f) f consumes plan (r := { st := s, used := if consumes then planElems plan else [] })
    (show (0 : Nat) < 256 by decide)
  rw [State.endedWith, Run.finish_eq ht]
  exact Ended.after_status _ f rounds e t _ _ (checkedStatus_lt hv (Run.written_status _ f exact_ e t hplan))

/-- In a memory without errors the writes of a good command change memory alone, and succeed. -/
theorem Run.written_ok {s : State} (h : s.sound) {c : Ctx} {fl : InFlight} {t : Tensor} (ht : fl.dst = some t) {e : Effect} {r : Run}
    (hr : r.Ok s) (hd : s.dstGood c fl e) : ∃ (m : SMap Byte) (k : Nat), r.written c fl false e t = ({ s with mem := m }, 0, k) := by
  obtain ⟨hst, hs⟩ := hr
  obtain ⟨ho, hb⟩ := hd t ht
  have hc : s.carveClosed (some c.region) t.base t.extent = false := ho
  obtain ⟨m, k, hw⟩ := State.storeGroups_ok h false t (splitRows e.groups (e.rows.take e.rows.length)) 0
  simp only [Run.written, hs, hst, hc, if_true, Bool.and_false, Bool.false_eq_true, if_false, hw]
  cases hh : fl.hdrD with
  | none => exact ⟨m, k, rfl⟩
  | some hd =>
    obtain ⟨m', hm⟩ := State.storeTrailer_ok (State.sound_mem h m) c t hd (t.doneBlocks e.rows k) (fun j hj => hb hd hh k j hj)
    exact ⟨m', k, by simp [hm]⟩

/-- Statistics are written into memory without errors. -/
theorem Ended.after_agrees {s : State} (h : s.sound) (c : Ctx) (fl : InFlight) (rounds : Bool) (e : Effect) (t : Tensor) (rows k : Nat) :
    (Ended.after c fl rounds e t rows (s, 0, k) 0).status = 0 := by
  unfold Ended.after
  split
  · next hd _ =>
    obtain ⟨m, hstats⟩ := State.store_ok h hd.statsAddr (statsBytes e t c fl)
    generalize statsBytes e t c fl = bs at hstats ⊢
    split
    · exact (congrArg Prod.snd hstats : (s.store hd.statsAddr bs).2 = 0)
    · rfl
  · rfl

/-- After a failure no statistics are written. -/
theorem Ended.after_fails {status : Nat} (hs : status ≠ 0) (c : Ctx) (fl : InFlight) (rounds : Bool) (e : Effect) (t : Tensor) (rows : Nat)
    (x : State × Nat × Nat) :
    Ended.after c fl rounds e t rows x status = { st := x.1, status := status, performed := x.2.2, ready := rows } := by
  unfold Ended.after
  split
  · exact if_neg fun hc => hs hc.1
  · rfl

/-- A command that rounds nothing writes no statistics. -/
theorem Ended.after_plain (c : Ctx) (fl : InFlight) (e : Effect) (t : Tensor) (rows : Nat) (x : State × Nat × Nat) (status : Nat) :
    (Ended.after c fl false e t rows x status).st = x.1 := by
  unfold Ended.after
  split
  · exact congrArg Ended.st (if_neg (by simp))
  · rfl

/-- A good command whose writes are checked: its writes change memory alone, as those of one without a check; the check of what they
leave gives the status. -/
theorem State.endedWith_good {s : State} {q : Nat} {f : InFlight} {t : Tensor} {consumes : Bool} {plan : List PlanStep} {e : Effect}
    (ht : f.dst = some t) (h : s.good q f consumes plan e) : ∃ m : SMap Byte,
      (s.ended q f consumes false false plan e).st = { s with mem := m } ∧
      ∀ (rounds : Bool) (verdict : State → Nat),
        (verdict { s with mem := m } = 0 → (s.endedWith q f consumes rounds false verdict plan e).status = 0) ∧
        (verdict { s with mem := m } ≠ 0 → (s.endedWith q f consumes rounds false verdict plan e).st = { s with mem := m } ∧
          (s.endedWith q f consumes rounds false verdict plan e).status = verdict { s with mem := m }) := by
  obtain ⟨hsound, hplan, hdst⟩ := h
  obtain ⟨m, k, hw⟩ := Run.written_ok hsound ht (Run.plan_ok (r := { st := s, used := if consumes then planElems plan else [] }) hsound hplan
    ⟨rfl, rfl⟩) hdst
  refine ⟨m, ?_, fun rounds verdict => ⟨fun hv => ?_, fun hv => ?_⟩⟩
  · rw [State.ended, State.endedWith, Run.finish_eq ht, hw, Ended.after_plain]
  · rw [State.endedWith, Run.finish_eq ht, hw, show checkedStatus verdict ({ s with mem := m }, 0, k) = 0 from hv]
    exact Ended.after_agrees (State.sound_mem hsound m) _ _ _ _ _ _ _
  · rw [State.endedWith, Run.finish_eq ht, hw, show checkedStatus verdict ({ s with mem := m }, 0, k) = verdict { s with mem := m } from rfl,
      Ended.after_fails hv]
    exact ⟨rfl, rfl⟩

/-! ### The golden slice (R371, R388) -/

theorem sliceVerdict_of_dst {f : InFlight} {t : Tensor} (ht : f.dst = some t) (s : State) :
    sliceVerdict f s = if crc 5 (s.peek t.base t.storedBytes) = f.desc.param.toNat then 0 else 0x50 := by
  simp only [sliceVerdict, ht]

theorem sliceVerdict_lt (f : InFlight) (s : State) : sliceVerdict f s < 256 := by
  unfold sliceVerdict
  (repeat' split) <;> decide

/-- What a golden slice leaves whose CRC-64 differs: SEV-009 of its tile, which is a suspect from then on. -/
def State.sliceDiffers (s : State) (tile : Nat) : State :=
  { s.raiseDie (dieOfTile tile) 9 tile 0x50 with
    suspects := (s.raiseDie (dieOfTile tile) 9 tile 0x50).suspects ++
      [(.slot, (s.raiseDie (dieOfTile tile) 9 tile 0x50).slotOfTile tile, 9)] }

theorem State.sliceDiffers_suspects (s : State) (tile : Nat) : (UnitKind.slot, s.slotOfTile tile, 9) ∈ (s.sliceDiffers tile).suspects := by
  simp [State.sliceDiffers, State.slotOfTile]

theorem State.sliceDiffers_mem (s : State) (tile : Nat) : (s.sliceDiffers tile).mem = s.mem := s.raiseDie_mem _ _ _ _

theorem State.sliceDiffers_queue (s : State) (tile q : Nat) : (s.sliceDiffers tile).queue q = s.queue q := s.raiseDie_queue _ _ _ _ q

theorem State.sliceDiffers_raised (s : State) (tile : Nat) : s.raisedTo (s.sliceDiffers tile) [(9, tile, 0x50)] :=
  State.raisedTo_of_events (s.raisedTo_raiseDie (dieOfTile tile) 9 tile 0x50) rfl rfl

/-- The residue check moves no tile to another slot. -/
theorem MeJob.settle_repair (j : MeJob) (s s0 : State) (f : InFlight) (tile seen : Nat) (swaps : Bool) :
    (j.settle s s0 f tile seen swaps).repair = s.repair := by
  rw [MeJob.settle_eq]
  split
  · generalize j.badCols s0 f seen = bad
    cases hb : bad.getLast? with
    | none => rw [State.residueCheck, hb]; rfl
    | some col => rw [State.residueCheck_last hb, State.raiseDie_repair]; rfl
  · rfl

theorem State.slotOfTile_of_repair {s t : State} (h : s.repair = t.repair) (tile : Nat) : s.slotOfTile tile = t.slotOfTile tile := by
  rw [State.slotOfTile, h, State.slotOfTile]

/-- Without a residue check the array raises nothing. -/
theorem MeJob.settle_unchecked {j : MeJob} {s0 : State} {tile : Nat} (h : ((s0.tile tile).residue && j.hasResidue) = false) (s : State)
    (f : InFlight) (seen : Nat) (swaps : Bool) : s.raisedTo (j.settle s s0 f tile seen swaps) [] :=
  MeJob.settle_quiet (fun hc => by simp [hc.1, hc.2.1] at h) s swaps

/-- A checked ME command that ends with status 0x00 leaves what one without a check leaves. -/
theorem runMe_agrees {s : State} {q : Nat} {o : Op} {f : InFlight} {j : MeJob} {verdict : State → Nat} (hj : f.meJob o = some j)
    (h : (s.endedWith q f true true false verdict (j.plan f.desc) (j.effect s f)).status = 0) :
    runMe o verdict (s.ctxOf q f) f s =
      (j.settle (s.endedWith q f true true false verdict (j.plan f.desc) (j.effect s f)).st s f f.tile
        (s.endedWith q f true true false verdict (j.plan f.desc) (j.effect s f)).ready (decide (f.swaps < j.sets.length)),
       f.ends (j.effect s f) 0 0) := by
  simp only [runMe, hj]
  rw [runEffect_ok h]
  exact if_pos h

/-- A checked ME command that does not ends as one that fails. -/
theorem runMe_differs {s : State} {q : Nat} {o : Op} {f : InFlight} {j : MeJob} {verdict : State → Nat} (hj : f.meJob o = some j)
    (h : (s.endedWith q f true true false verdict (j.plan f.desc) (j.effect s f)).status ≠ 0) :
    let d := s.endedWith q f true true false verdict (j.plan f.desc) (j.effect s f)
    ∃ n free : Nat, d.performed ≤ n ∧ n ≤ max d.performed d.ready ∧ runMe o verdict (s.ctxOf q f) f s =
      (j.settle d.st.draw.2.draw.2 s f f.tile n false, f.ends (j.effect s f) d.status free) := by
  intro d
  refine ⟨d.performed + Config.freeNat d.st.draw.2.draw.1 % (d.ready - d.performed + 1), Config.freeNat d.st.draw.1, Nat.le_add_right _ _, ?_, ?_⟩
  · have := Nat.mod_lt (Config.freeNat d.st.draw.2.draw.1) (show 0 < d.ready - d.performed + 1 by omega)
    omega
  · simp only [runMe, hj]
    rw [runEffect_fails h]
    exact if_neg h

theorem runGslice_ends {c : Ctx} {f : InFlight} {s u : State} {g : InFlight} (h : runMe .gslice (sliceVerdict f) c f s = (u, g))
    (hg : g.status ≠ 0x50) : runGslice c f s = (u, g) := by
  unfold runGslice
  rw [h]
  exact if_pos hg

theorem runGslice_differs {c : Ctx} {f : InFlight} {s u : State} {g : InFlight} (h : runMe .gslice (sliceVerdict f) c f s = (u, g))
    (hg : g.status = 0x50) : runGslice c f s = (u.sliceDiffers c.tile, g) := by
  unfold runGslice
  rw [h]
  exact if_neg (not_not_intro hg)

theorem InFlight.ends_status (f : InFlight) (e : Effect) (status free : Nat) : (f.ends e status free).status = BitVec.ofNat 8 status := rfl

/-- What a golden slice of another CRC-64 leaves of the state in which its writes ended. -/
theorem State.sliceDiffers_settled (j : MeJob) (s s0 : State) (f : InFlight) (n q : Nat) (g : InFlight) :
    let v := ((j.settle s.draw.2.draw.2 s0 f f.tile n false).sliceDiffers f.tile).setCurrent q g
    (UnitKind.slot, s.slotOfTile f.tile, 9) ∈ v.suspects ∧ v.mem = s.mem ∧
      (((s0.tile f.tile).residue && j.hasResidue) = false → s.raisedTo v [(9, f.tile, 0x50)]) ∧
      (v.queue q).inflight = Machine.setCurrent g (s.queue q).inflight := by
  intro v
  have hrepair : (j.settle s.draw.2.draw.2 s0 f f.tile n false).repair = s.repair := j.settle_repair _ _ _ _ _ _
  have hmem : (j.settle s.draw.2.draw.2 s0 f f.tile n false).mem = s.mem := j.settle_mem _ _ _ _ _ _
  have hqueue : (j.settle s.draw.2.draw.2 s0 f f.tile n false).queue q = s.queue q := by
    rw [State.queue, MeJob.settle_queues]; rfl
  have hquiet : ((s0.tile f.tile).residue && j.hasResidue) = false → s.raisedTo (j.settle s.draw.2.draw.2 s0 f f.tile n false) [] := fun h =>
    State.raisedTo_of_events (MeJob.settle_unchecked h s.draw.2.draw.2 f n false) rfl rfl
  simp only [v]
  generalize j.settle s.draw.2.draw.2 s0 f f.tile n false = u at hrepair hmem hqueue hquiet
  refine ⟨?_, (u.sliceDiffers_mem f.tile).trans hmem, fun h => ?_, ?_⟩
  · have hmember := u.sliceDiffers_suspects f.tile
    rw [State.slotOfTile_of_repair hrepair] at hmember
    exact hmember
  · exact State.raisedTo_of_events (State.raisedTo_trans (hquiet h) (u.sliceDiffers_raised f.tile)) rfl rfl
  · rw [State.setCurrent_inflight, State.sliceDiffers_queue, hqueue]

/-- Settles O16: a golden slice is a checked ME command, whose good writes stand before their check. -/
theorem goldenSliceSignature : Obligations.GoldenSliceSignature := by
  unfold Obligations.GoldenSliceSignature
  intro s q f a w t h ha hw ht j e d u plain
  have hj : f.meJob .gslice = some j := by simp only [InFlight.meJob, ha, hw, ht]; rfl
  have hrun : exec (.gslice q) s = .next ((runGslice (s.ctxOf q f) f s).1.setCurrent q
      { (runGslice (s.ctxOf q f) f s).2 with executed := true }) := congrArg Host.Outcome.next (State.runOp_running h)
  have hok : d.status = 0 → exec (.gslice q) s = .next (u.setCurrent q (f.ran e)) := fun hs => by
    have hends : (f.ends e 0 0).status ≠ 0x50 := by rw [InFlight.ends_status]; decide
    rw [hrun, runGslice_ends (runMe_agrees hj hs) hends, f.ends_ok]
  refine ⟨hok, fun hs h50 => ?_, fun hg hcrc => hok ?_, fun hg hcrc => ?_⟩
  · obtain ⟨n, free, hlow, hhigh, hme⟩ := runMe_differs (q := q) hj hs
    have hlt : d.status < 256 := State.endedWith_status ht s q true true false (sliceVerdict_lt f) _ _
    have hends : (f.ends e d.status free).status ≠ 0x50 := by
      rw [InFlight.ends_status]
      generalize d.status = x at hlt h50
      bv_omega
    refine ⟨n, free, hlow, hhigh, ?_⟩
    rw [hrun, runGslice_ends hme hends]
  · obtain ⟨m, hplain, hd⟩ := State.endedWith_good ht hg
    refine (hd true (sliceVerdict f)).1 ?_
    rw [sliceVerdict_of_dst ht, ← hplain]
    exact if_pos hcrc
  · obtain ⟨m, hplain, hd⟩ := State.endedWith_good ht hg
    have hverdict : sliceVerdict f { s with mem := m } = 0x50 := by
      rw [sliceVerdict_of_dst ht, ← hplain]
      exact if_neg hcrc
    obtain ⟨hst, hstatus⟩ := (hd true (sliceVerdict f)).2 (by rw [hverdict]; decide)
    rw [hverdict] at hstatus
    obtain ⟨n, free, -, -, hme⟩ := runMe_differs (q := q) (verdict := sliceVerdict f) hj (fun h0 => by rw [hstatus] at h0; cases h0)
    rw [hst, hstatus] at hme
    have hslice := runGslice_differs hme (f.ends_status e 0x50 free)
    obtain ⟨hsuspects, hmem, hraised, hqueue⟩ := State.sliceDiffers_settled j { s with mem := m } s f n q
      { f.ends e 0x50 free with executed := true }
    rw [hslice] at hrun
    refine ⟨_, hrun, hsuspects, hmem.trans (congrArg State.mem hplain).symm, hraised, _, hqueue, rfl, rfl⟩

end Sys2Proof.Machine
end

section
/-! PROOFS of the family of 15_check_values.md: the check-value units (R390, R394 to R401). -/

namespace Sys2Proof.Machine

/-! ### The CRC register fits its 64 bits (R390) -/

/-- The numbers of a polynomial fit a register of 64 bits. -/
def Poly.Fits (p : Poly) : Prop := p.width ≤ 64 ∧ p.poly < 2 ^ 64 ∧ p.rpoly < 2 ^ 64

theorem polyOf_fits (code : Nat) : (polyOf code).Fits := by
  unfold polyOf Poly.Fits
  split <;> decide

theorem crcBitRefl_lt {p : Poly} (hp : p.Fits) {reg : Nat} (h : reg < 2 ^ 64) : crcBitRefl p reg < 2 ^ 64 := by
  obtain ⟨_, _, hpoly⟩ := hp
  have hhalf : reg / 2 < 2 ^ 64 := (Nat.div_le_self _ _).trans_lt h
  unfold crcBitRefl
  split
  · exact Nat.xor_lt_two_pow hhalf hpoly
  · exact hhalf

theorem crcBitPlain_lt {p : Poly} (hp : p.Fits) (reg : Nat) : crcBitPlain p reg < 2 ^ 64 := by
  obtain ⟨hwidth, hpoly, _⟩ := hp
  have hshift : reg * 2 % 2 ^ p.width < 2 ^ 64 :=
    (Nat.mod_lt _ (Nat.two_pow_pos _)).trans_le (Nat.pow_le_pow_right (by decide) hwidth)
  unfold crcBitPlain
  dsimp only
  split
  · exact Nat.xor_lt_two_pow hshift hpoly
  · exact hshift

theorem repeat_lt {f : Nat → Nat} {m : Nat} (hf : ∀ x, x < m → f x < m) (n : Nat) {x : Nat} (hx : x < m) : Nat.repeat f n x < m := by
  induction n with
  | zero => exact hx
  | succ n ih => exact hf _ ih

/-- A byte enters the register at its top without leaving the 64 bits. -/
theorem byte_shifted_lt {p : Poly} (hp : p.Fits) (b : Byte) : b.toNat * 2 ^ (p.width - 8) < 2 ^ 64 := by
  have hpow : 2 ^ (p.width - 8) ≤ 2 ^ 56 := Nat.pow_le_pow_right (by decide) (by have := hp.1; omega)
  calc b.toNat * 2 ^ (p.width - 8) ≤ b.toNat * 2 ^ 56 := Nat.mul_le_mul_left _ hpow
    _ < 2 ^ 64 := by have := b.isLt; omega

theorem crcByte_lt {p : Poly} (hp : p.Fits) {reg : Nat} (h : reg < 2 ^ 64) (b : Byte) : crcByte p reg b < 2 ^ 64 := by
  unfold crcByte
  split
  · exact repeat_lt (fun _ => crcBitRefl_lt hp) 8 (Nat.xor_lt_two_pow h (b.isLt.trans (by decide)))
  · exact repeat_lt (fun x _ => crcBitPlain_lt hp x) 8 (Nat.xor_lt_two_pow h (byte_shifted_lt hp b))

theorem crcRun_lt {p : Poly} (hp : p.Fits) {reg : Nat} (h : reg < 2 ^ 64) (bs : List Byte) : crcRun p reg bs < 2 ^ 64 := by
  induction bs generalizing reg with
  | nil => exact h
  | cons b bs ih => exact ih (crcByte_lt hp h b)

theorem crcRun_append (p : Poly) (reg : Nat) (as bs : List Byte) : crcRun p reg (as ++ bs) = crcRun p (crcRun p reg as) bs :=
  List.foldl_append

/-! ### The feed contexts (R395, R396) -/

/-- The register of a context after every pending byte: what neither time nor a read of the result changes. -/
def CvuCtx.value (x : CvuCtx) : Nat := crcRun (polyOf x.poly.toNat) x.reg.toNat x.fifo

/-- The register loses nothing of what it has run over. -/
theorem CvuCtx.drain_reg (x : CvuCtx) (n : Nat) :
    (x.drain n).reg.toNat = crcRun (polyOf x.poly.toNat) x.reg.toNat (x.fifo.take n) :=
  Nat.mod_eq_of_lt (crcRun_lt (polyOf_fits _) x.reg.isLt _)

theorem CvuCtx.drain_value (x : CvuCtx) (n : Nat) : (x.drain n).value = x.value := by
  rw [CvuCtx.value, CvuCtx.drain_reg]
  change crcRun (polyOf x.poly.toNat) _ (x.fifo.drop n) = _
  rw [← crcRun_append, List.take_append_drop, CvuCtx.value]

/-- A result is the value of the context, for no byte stays pending that a context holds. -/
theorem CvuCtx.result_eq {x : CvuCtx} (h : x.fifo.length ≤ 16) :
    x.result = (x.value ^^^ (polyOf x.poly.toNat).xorOut) % 2 ^ (polyOf x.poly.toNat).width := by
  have hreg : (x.drain 16).reg.toNat = x.value := by rw [x.drain_reg, List.take_of_length_le h, CvuCtx.value]
  rw [CvuCtx.result, hreg]
  rfl

theorem CvuCtx.drain_fifo_length_le (x : CvuCtx) (n : Nat) : (x.drain n).fifo.length ≤ x.fifo.length := by
  simp [CvuCtx.drain]

/-- Bytes that fit are appended and change nothing else. -/
theorem CvuCtx.feed_fits {x : CvuCtx} {bs : List Byte} (h : x.fifo.length + bs.length ≤ 16) : x.feed bs = { x with fifo := x.fifo ++ bs } :=
  if_pos h

/-- INIT with a legal POLY. -/
theorem CvuCtx.init_legal {x : CvuCtx} {v : Nat} (hbit : bit v 3 = true) (h : v % 8 < 6) :
    x.init v = { x with fifo := [], poly := BitVec.ofNat 3 v, reg := BitVec.ofNat 64 (polyOf (v % 8)).init } := by
  rw [CvuCtx.init, hbit, if_neg (by decide), if_neg (by omega)]

/-- INIT with a POLY that no polynomial has. -/
theorem CvuCtx.init_illegal {x : CvuCtx} {v : Nat} (hbit : bit v 3 = true) (h : 6 ≤ v % 8) : x.init v = { x with werr := true } := by
  rw [CvuCtx.init, hbit, if_neg (by decide), if_pos h]

/-! ### A unit and its contexts in the state -/

@[simp] theorem State.updCvu_cvuOf (s : State) (u : Nat) (f : CvuSt → CvuSt) : (s.updCvu u f).cvuOf u = f (s.cvuOf u) := by
  by_cases hu : u = 16
  · simp [State.updCvu, State.cvuOf, hu]
  · simp [State.updCvu, State.cvuOf, hu]

@[simp] theorem State.updCvu_suspects (s : State) (u : Nat) (f : CvuSt → CvuSt) : (s.updCvu u f).suspects = s.suspects := by
  unfold State.updCvu
  split <;> rfl

/-- An update of a unit touches the units alone. -/
theorem State.updCvu_eq (s : State) (u : Nat) (f : CvuSt → CvuSt) :
    s.updCvu u f = { s with cvu := (s.updCvu u f).cvu, clusters := (s.updCvu u f).clusters } := by
  unfold State.updCvu
  split <;> rfl

@[simp] theorem State.updCtxOf_ctx (s : State) (u c : Nat) (f : CvuCtx → CvuCtx) :
    ((s.updCtxOf u c f).cvuOf u).ctx c = f ((s.cvuOf u).ctx c) := by
  rw [State.updCtxOf, State.updCvu_cvuOf]
  by_cases hc : c = 0
  · simp [CvuSt.ctx, hc]
  · simp [CvuSt.ctx, hc]

/-- Time processes some of the pending bytes (R395). -/
theorem State.cvuAdvance_ctx (s : State) (u c : Nat) : ∃ n : Nat, ((s.cvuAdvance u c).cvuOf u).ctx c = ((s.cvuOf u).ctx c).drain n :=
  ⟨_, s.draw.2.updCtxOf_ctx u c _⟩

/-- No access of an agent is dropped but the host's to a unit that is not open (R409). -/
theorem State.cvu_takes {s : State} {ag : Agent} {u : Nat} (h : ag = .host → s.cvuOpen u = true) :
    ¬ (ag = .host ∧ (!s.cvuOpen u) = true) := fun ⟨hag, hclosed⟩ => by simp [h hag] at hclosed

theorem State.cvuInit_taken {s : State} {ag : Agent} {u c : Nat} (hopen : ag = .host → s.cvuOpen u = true) (hc : c < 2)
    (hag : ctxAgent ag u c = true) (v : Nat) : s.cvuInit ag u c v = s.updCtxOf u c (fun x => x.init v) := by
  rw [State.cvuInit, if_neg (State.cvu_takes hopen), if_pos ⟨hc, hag⟩]

theorem State.cvuFeedWrite_taken {s : State} {ag : Agent} {u c size : Nat} (hopen : ag = .host → s.cvuOpen u = true) (hc : c < 2)
    (hag : ctxAgent ag u c = true) (hsize : size = 1 ∨ size = 2 ∨ size = 4) (d : Nat) :
    s.cvuFeedWrite ag u c size d = (s.cvuAdvance u c).updCtxOf u c (fun x => x.feed (leBytes size d)) := by
  rw [State.cvuFeedWrite, if_neg (State.cvu_takes hopen), if_pos ⟨hc, hag, hsize⟩]

/-- A feed that fits appends its bytes to what time has left pending. -/
theorem State.cvuFeedWrite_ctx {s : State} {ag : Agent} {u c size : Nat} (hopen : ag = .host → s.cvuOpen u = true) (hc : c < 2)
    (hag : ctxAgent ag u c = true) (hsize : size = 1 ∨ size = 2 ∨ size = 4) (hfit : ((s.cvuOf u).ctx c).fifo.length + size ≤ 16) (d : Nat) :
    ∃ n : Nat, ((s.cvuFeedWrite ag u c size d).cvuOf u).ctx c =
      { ((s.cvuOf u).ctx c).drain n with fifo := (((s.cvuOf u).ctx c).drain n).fifo ++ leBytes size d } := by
  obtain ⟨n, hn⟩ := s.cvuAdvance_ctx u c
  have hlen := ((s.cvuOf u).ctx c).drain_fifo_length_le n
  refine ⟨n, ?_⟩
  rw [State.cvuFeedWrite_taken hopen hc hag hsize, State.updCtxOf_ctx, hn, CvuCtx.feed_fits (by rw [length_leBytes]; omega)]

/-- A result is read after every pending byte (R396). -/
theorem State.cvuResultRead_resp {s : State} {u c i : Nat} (hopen : s.cvuOpen u = true) (hc : c < 2) (hi : i < 2) :
    (s.cvuResultRead u c i).link.resp = { kind := 0, data := leBytes 4 ((((s.cvuOf u).ctx c).drain 16).result / 2 ^ (32 * i)) } := by
  rw [State.cvuResultRead, if_neg (by simp [hopen]), if_pos ⟨hc, hi⟩, ← s.updCtxOf_ctx u c (fun x => x.drain 16)]
  rfl

/-! ### The scan engine (R398 to R401) -/

/-- In memory without errors that is open, the lines are read to the last and change nothing. -/
theorem State.scanLines_sound {s : State} (hs : s.sound) (own : Option Nat) (p : Poly) (n a reg : Nat)
    (hopen : ∀ i, i < n → s.carveClosed own (a + 64 * i) 64 = false) :
    s.scanLines own p n a reg = (s, 0, crcRun p reg (SMap.bytes s.mem a (64 * n))) := by
  induction n generalizing a reg with
  | zero => rfl
  | succ n ih =>
    have hfirst : s.carveClosed own a 64 = false := hopen 0 (Nat.succ_pos n)
    have hrest : ∀ i, i < n → s.carveClosed own (a + 64 + 64 * i) 64 = false := fun i hi => by
      rw [show a + 64 + 64 * i = a + 64 * (i + 1) by omega]
      exact hopen (i + 1) (by omega)
    simp only [State.scanLines, hfirst, State.fetch_sound hs a (n := 64) (by decide)]
    rw [if_neg (by decide), if_neg (by decide), ih _ _ hrest, ← crcRun_append, SMap.bytes_append, Nat.mul_succ, Nat.add_comm]

/-- The bytes of the lines that a scan of `n` lines has left. -/
def State.scanRest (s : State) (x : CvuSt) (n : Nat) : List Byte := SMap.bytes s.mem (x.runAddr + 64 * x.runLines) (64 * (n - x.runLines))

/-- The unit after its scan has read to line `n`. -/
def CvuSt.readTo (x : CvuSt) (n reg : Nat) : CvuSt := { x with runLines := n, runReg := reg }

/-- A scan reads the lines that it has left, and touches its unit alone. -/
theorem State.scanSome_rest {s : State} {u n : Nat} {x : CvuSt} (hx : s.cvuOf u = x) (hlen : x.runLen = 64 * n) (hlines : x.runLines ≤ n)
    (hstat : x.runStat = 0) (hs : s.sound)
    (hopen : ∀ i : Nat, x.runLines ≤ i → i < n → s.carveClosed (cvuRegion u) (x.runAddr + 64 * i) 64 = false) :
    (s.scanSome u x.runLen).suspects = s.suspects ∧
      (s.scanSome u x.runLen).cvuOf u = x.readTo n (crcRun (polyOf x.runPoly) x.runReg (s.scanRest x n)) := by
  have hleft : (if x.runStat = 0 then min x.runLen (x.runLen / 64 - x.runLines) else 0) = n - x.runLines := by
    rw [if_pos hstat]
    omega
  have hread := State.scanLines_sound hs (cvuRegion u) (polyOf x.runPoly) (n - x.runLines) (x.runAddr + 64 * x.runLines) x.runReg
    fun i hi => by
      rw [Nat.add_assoc, ← Nat.mul_add]
      exact hopen _ (Nat.le_add_right _ _) (by omega)
  unfold State.scanSome
  simp only [hx, hleft, hread]
  by_cases hdone : x.runLines = n
  · subst hdone
    rw [if_pos (Nat.sub_self _), State.scanRest, Nat.sub_self]
    exact ⟨rfl, hx⟩
  · rw [if_neg (by omega), State.updCvu_cvuOf, hx, Nat.add_sub_of_le hlines, CvuSt.readTo, hstat]
    exact ⟨s.updCvu_suspects u _, rfl⟩

/-- A scan without a failed line ends with the check value, and is counted (R401). -/
theorem CvuSt.endScan_good {x : CvuSt} (h : x.runStat = 0) (result : Nat) : x.endScan x.runStat result =
    { x with busy := false, lastStatus := 0, count := x.count + 1, result := BitVec.ofNat 64 result } :=
  (congrArg (x.endScan · result) h).trans rfl

theorem State.scanStop_mem {s : State} {u : Nat} (h : (s.scanSome u (s.cvuOf u).runLen).suspects = []) : (s.scanStop u).mem = s.mem := by
  rw [State.scanStop, State.settle_of_none ((State.updCvu_suspects ..).trans h), State.updCvu_mem, State.scanSome_mem]

/-- A scan ends with what its last lines have left in the unit. -/
theorem State.scanStop_cvuOf {s : State} {u : Nat} {x : CvuSt} (h : (s.scanSome u (s.cvuOf u).runLen).suspects = [])
    (hx : (s.scanSome u (s.cvuOf u).runLen).cvuOf u = x) :
    (s.scanStop u).cvuOf u = x.endScan x.runStat ((x.runReg ^^^ (polyOf x.runPoly).xorOut) % 2 ^ (polyOf x.runPoly).width) := by
  rw [State.scanStop, State.settle_of_none ((State.updCvu_suspects ..).trans h), State.updCvu_cvuOf, hx]

/-- Settles O52: a context is followed by its value, which time does not change; a scan by the lines that it has left. -/
theorem checkValueUnits : Obligations.CheckValueUnits := by
  unfold Obligations.CheckValueUnits
  refine ⟨fun s ag u c w hopen hc hag hbit => ?init, fun s ag u c size w hopen hc hag hsize hfit => ?feed,
    fun s u c i hopen hc hi hlen => ?result, fun s ag u hopen hag hidle hpoly hnonzero => ?start,
    fun s u n hu hbusy hlen hlines hstat hs hsus hclosed => ?stop⟩
  case init =>
    refine ⟨_, congrArg Host.Outcome.next (State.cvuInit_taken hopen hc hag w.toNat), fun hlegal => ?_, fun hillegal => ?_,
      s.updCvu_eq u _⟩
    · rw [State.updCtxOf_ctx, CvuCtx.init_legal hbit hlegal]
    · rw [State.updCtxOf_ctx, CvuCtx.init_illegal hbit hillegal]
  case feed =>
    intro x
    obtain ⟨n, hn⟩ := State.cvuFeedWrite_ctx hopen hc hag hsize hfit w.toNat
    refine ⟨_, rfl, by rw [hn]; rfl, by rw [hn]; rfl, ?_⟩
    rw [hn, crcRun_append, crcRun_append]
    exact congrArg (crcRun _ · _) (x.drain_value n)
  case result =>
    intro x p
    refine ⟨_, rfl, ?_⟩
    rw [State.cvuResultRead_resp hopen hc hi, CvuCtx.result_eq ((x.drain_fifo_length_le 16).trans hlen), x.drain_value]
    rfl
  case start =>
    refine congrArg Host.Outcome.next ?_
    have hok : ¬ ((s.cvuOf u).busy = true ∨ 6 ≤ (s.cvuOf u).scanPoly.toNat ∨ (s.cvuOf u).scanLen = 0) := by
      rintro (hbusy | hsix | hzero)
      · exact absurd (hidle.symm.trans hbusy) (by decide)
      · omega
      · exact hnonzero hzero
    rw [State.scanGo, if_neg (State.cvu_takes hopen), hag, if_neg (by decide), if_neg hok]
  case stop =>
    intro x p reg
    obtain ⟨hsuspects, hcvu⟩ := State.scanSome_rest (x := x) rfl hlen hlines hstat hs hclosed
    have hnone := hsuspects.trans hsus
    refine ⟨_, congrArg Host.Outcome.next (if_pos ⟨hu, hbusy⟩), ?_, State.scanStop_mem hnone⟩
    exact (State.scanStop_cvuOf hnone hcvu).trans (CvuSt.endScan_good (x := x.readTo n _) hstat _)

end Sys2Proof.Machine
end

section
/-! PROOFS of the family of 17_transactions_update_security.md: COMMIT, ABORT, the votes, the decision and the effective instant of a
transaction (R431 to R437, R463). -/

namespace Sys2Proof.Machine

/-! ### COMMIT (R433, R434) -/

/-- The transaction that a COMMIT at instant `w` makes pending. -/
def State.pendingTxn (s : State) (id : Word) (l : List TxnEntry) (w : Instant) : Txn where
  id := id
  entries := l
  target := (s.txnInstant l w).1
  when_ := w
  beat := (s.txnInstant l w).2
  voted := []
  decision := none

/-- A list that passes its checks, with an instant in its window and no ACTIVATE. -/
theorem State.txnPlace_placed {s : State} {l : List TxnEntry} {w : Instant} (hw : s.whenInstant = some w)
    (hin : countOp l 3 = 0 ∨ s.tb.stepped = true → instantOk s.now w = true) (ha : activateMask l = none) (id : Word) :
    s.txnPlace id l = s.updCtx (fun c => { c.showT ((s.txnInstant l w).1.getD w) (s.txnInstant l w).2 with
      txnLast := 0, txn := some (s.pendingTxn id l w) }) := by
  have hwindow : ¬ ((countOp l 3 = 0 ∨ s.tb.stepped = true) ∧ (!instantOk s.now w) = true) := fun ⟨hc, hbad⟩ => by
    rw [hin hc] at hbad
    exact absurd hbad (by decide)
  simp only [State.txnPlace, hw, ha]
  rw [if_neg hwindow]
  rfl

theorem State.commit_placed {s : State} {id : Word} {l : List TxnEntry} (hr : s.timeRuns = true) (hn : s.ctx.txn = none)
    (hf : s.fetchList = (s, some (id, l))) (hok : s.listOk l = true) : s.commit = s.txnPlace id l := by
  simp [State.commit, hr, hn, hf, hok]

/-- A COMMIT while a transaction is pending, or whose list is not taken (R433). -/
theorem State.commit_refused {s : State} (hr : s.timeRuns = true) (h : s.ctx.txn ≠ none ∨ s.fetchList = (s, none) ∨
    ∃ x : Word × List TxnEntry, s.fetchList = (s, some x) ∧ s.listOk x.2 = false) : s.commit = s.txnRefuse 0x79 := by
  by_cases hn : s.ctx.txn = none
  · obtain hp | hf | ⟨x, hf, hbad⟩ := h
    · exact absurd hn hp
    · simp [State.commit, hr, hn, hf]
    · simp [State.commit, hr, hn, hf, hbad]
  · rw [State.commit, if_neg (by simp [hr]), if_pos (Option.isSome_iff_ne_none.mpr hn)]

/-- A refusal leaves its status and vector 5 alone. -/
theorem State.txnRefuse_eq (s : State) (status : Nat) : s.txnRefuse status =
    { s with ctx := { s.ctx with txnLast := BitVec.ofNat 8 status }, link := s.link.msix 5 } := rfl

/-! ### The end of a transaction (R437) -/

/-- An interrupt is no event. -/
theorem State.raisedTo.msix {s t : State} {es : List (Nat × Nat × Nat)} (h : s.raisedTo t es) (v : Nat) : s.raisedTo (t.msix v) es :=
  State.raisedTo_of_events h rfl (HostLinkSt.msix_events _ _)

/-- The state with the log entry of the transaction that a rollback ends. -/
def State.rollbackLogged (s : State) : State :=
  match s.ctx.txn with
  | some t => s.logTxn 0x7B t
  | none => s

theorem State.logTxn_eq (s : State) (status : Nat) (t : Txn) : s.logTxn status t = { s with ash := (s.logTxn status t).ash } := rfl

theorem State.rollbackLogged_eq (s : State) : s.rollbackLogged = { s with ash := s.rollbackLogged.ash } := by
  unfold State.rollbackLogged
  split
  · rw [State.logTxn_eq]
  · rfl

/-- A transaction that is rolled back leaves a log entry, its status, SEV-253 and vector 5. -/
theorem State.txnRollback_eq (s : State) : s.txnRollback =
    ((s.rollbackLogged.updCtx (fun c => { c with txn := none, txnLast := 0x7B })).raise 253 0xFF 0x7B).msix 5 := rfl

theorem State.txnRollback_ctx (s : State) : s.txnRollback.ctx = { s.ctx with txn := none, txnLast := 0x7B } := by
  rw [State.txnRollback_eq, State.rollbackLogged_eq]
  simp [State.msix]

@[simp] theorem State.txnRollback_tb (s : State) : s.txnRollback.tb = s.tb := by
  rw [State.txnRollback_eq, State.rollbackLogged_eq]
  simp [State.msix]

@[simp] theorem State.txnRollback_die (s : State) (d : Nat) : s.txnRollback.die d = s.die d := by
  rw [State.txnRollback_eq, State.rollbackLogged_eq]
  simp [State.msix, State.die]

theorem State.raisedTo_txnRollback (s : State) : s.raisedTo s.txnRollback [(253, 0xFF, 0x7B)] := by
  rw [State.txnRollback_eq, State.rollbackLogged_eq]
  exact State.raisedTo.msix (State.raisedTo_raise_of_link (by rfl) _ _ _) 5

theorem State.txnAbort_undecided {s : State} {x : Txn} (hr : s.timeRuns = true) (hx : s.ctx.txn = some x) (hd : x.decision = none) :
    s.txnAbort = s.txnRollback := by
  simp [State.txnAbort, hr, hx, hd]

theorem State.txnAbort_decided {s : State} {x : Txn} (hr : s.timeRuns = true) (hx : s.ctx.txn = some x) (hd : x.decision ≠ none) :
    s.txnAbort = s.txnRefuse 0x7A := by
  simp [State.txnAbort, hr, hx, hd]

/-! ### The two phases (R435) -/

/-- An instant that a decision of now reaches in time has not come, and no decision for it is late. -/
theorem reaches_dies {now w : Instant} (h : now + nsInst 100000 ≤ w) : ¬ w ≤ now ∧ ¬ w < now + nsInst 100000 :=
  ⟨Nat.not_le.mpr (Nat.lt_of_lt_of_le (Nat.lt_add_of_pos_right (by decide)) h), Nat.not_lt.mpr h⟩

section
variable {s : State} {x : Txn} {w : Instant} (hx : s.ctx.txn = some x) (hw : x.target = some w) (hd : x.decision = none)
include hx hw hd

/-- The vote of a die that is up, owns entries and has not voted, while votes are taken. -/
theorem State.txnVote_taken {d : Nat} (htime : s.now + nsInst 200000 ≤ w) (hown : d ∈ x.owners s.part)
    (hnew : ∀ v : Nat × Bool, v ∈ x.voted → v.1 ≠ d) (hup : s.dieDown d = false) :
    s.txnVote d = s.updCtx (fun c => { c with txn := some { x with voted := x.voted ++
      [(d, x.entries.all (fun e => (e.units s.part).all (fun u => u.dieOf != d || s.unitServes u)))] } }) := by
  have hfirst : (x.voted.any fun v => v.1 == d) = false := by simpa using hnew
  have htaken : ¬ (x.decision.isSome = true ∨ (!(x.owners s.part).contains d) = true ∨ (x.voted.any fun v => v.1 == d) = true ∨
      s.dieDown d = true ∨ w < s.now + nsInst 200000) := by
    simp [hd, hown, hfirst, hup, htime]
  simp only [State.txnVote, hx, hw]
  exact if_neg htaken

/-- A decision with time to reach every die: COMMIT with every vote in and yes. -/
theorem State.txnDecide_commit (htime : s.now + nsInst 100000 ≤ w) (hyes : x.voted.all (fun v => v.2) = true)
    (hin : x.prepared s.part = true) :
    s.txnDecide = s.updCtx (fun c => { c with txn := some { x with decision := some true, late := false } }) := by
  obtain ⟨hfuture, hearly⟩ := reaches_dies htime
  simp [State.txnDecide, hx, hw, hd, hyes, hin, hfuture, hearly]

/-- A no, or a vote that is out when votes are no longer taken, rolls the transaction back. -/
theorem State.txnDecide_abort (htime : s.now + nsInst 100000 ≤ w)
    (hno : x.voted.all (fun v => v.2) = false ∨ (x.prepared s.part = false ∧ w < s.now + nsInst 200000)) :
    s.txnDecide = s.txnRollback := by
  obtain ⟨hfuture, hearly⟩ := reaches_dies htime
  obtain hno | ⟨hout, hclosed⟩ := hno
  · simp [State.txnDecide, hx, hw, hd, hno, hfuture, hearly]
  · simp [State.txnDecide, hx, hw, hd, hout, hfuture, hearly, Nat.not_le.mpr hclosed]

/-- No decision while a vote is out and may still come. -/
theorem State.txnDecide_waits (htime : s.now + nsInst 200000 ≤ w) (hyes : x.voted.all (fun v => v.2) = true)
    (hout : x.prepared s.part = false) : s.txnDecide = s := by
  simp [State.txnDecide, hx, hw, hd, hyes, hout, htime]

/-- A decision that leaves too late to reach a die before T. -/
theorem State.txnDecide_late (hfuture : s.now < w) (hlate : w < s.now + nsInst 100000) :
    s.txnDecide = s.updCtx (fun c => { c with
      txn := some { x with decision := some (x.prepared s.part && x.voted.all (fun v => v.2)), late := true } }) := by
  have hclosed : ¬ s.now + nsInst 200000 ≤ w :=
    Nat.not_le.mpr (Nat.lt_trans hlate (Nat.add_lt_add_left (by decide : nsInst 100000 < nsInst 200000) _))
  simp [State.txnDecide, hx, hw, hd, hclosed, Nat.not_le.mpr hfuture, hlate]

end

/-! ### Dies that missed the decision (R436) -/

/-- A unit that a fault makes suspect is fenced with the units inside it, waits among the suspects, or stays as it is. -/
theorem State.suspectUnit_cases (s : State) (k : UnitKind) (u cause : Nat) :
    (s.suspectUnit k u cause).standing = (s.openFence k u cause .suspect).standing ∨
      ∃ l : List (UnitKind × Nat × Nat), s.suspectUnit k u cause = { s with suspects := l } := by
  unfold State.suspectUnit
  by_cases hr : s.underRecovery k u = true
  · simp only [hr, if_true]
    split <;> exact .inr ⟨_, rfl⟩
  · by_cases hh : s.recoveryHeld k u = true
    · simp only [hr, hh, if_true]
      split <;> exact .inr ⟨_, rfl⟩
    · simp only [hr, hh]
      split
      case h_5 => exact .inr ⟨_, rfl⟩
      all_goals exact .inl ((State.refreshMissing_standing _).trans (State.answerTiles_standing _ _ _))

/-- The fault fence of a unit touches it and what stands inside it alone. -/
theorem State.suspectUnit_unit (s : State) {k k' : UnitKind} {u u' : Nat} (h : (k', u') ∉ enclosed k u) (hne : (k', u') ≠ (k, u))
    (cause : Nat) : (s.suspectUnit k u cause).unit k' u' = s.unit k' u' := by
  obtain hfence | ⟨l, hl⟩ := s.suspectUnit_cases k u cause
  · rw [State.unit_of_standing hfence, State.openFence_unit s h hne]
  · rw [hl]
    rfl

/-- The fault fence of a unit leaves the time base alone. -/
theorem State.suspectUnit_tb (s : State) (k : UnitKind) (u cause : Nat) : (s.suspectUnit k u cause).tb = s.tb := by
  obtain hfence | ⟨l, hl⟩ := s.suspectUnit_cases k u cause
  · exact congrArg Fittings.tb ((State.fittings_of_standing hfence).trans (State.openFence_fittings s k u cause .suspect))
  · rw [hl]

/-- What T does to a die that voted yes and holds no decision. -/
def State.missDie (s : State) (d : Nat) : State := (s.raiseDie d 254 d 0).suspectUnit .die d 254

/-- A die that is SUSPECT with cause 254. -/
def State.missed (s : State) (d : Nat) : Prop := (s.die d).u.state = .suspect ∧ (s.die d).u.cause = 254

theorem State.missDie_self {s : State} {d : Nat} (h : (s.die d).u.state = .inService) : (s.missDie d).missed d := by
  have hin : ((s.raiseDie d 254 d 0).unit .die d).state = .inService := by
    rw [State.unit_of_standing (State.raiseDie_standing _ _ _ _ _)]
    exact h
  obtain ⟨hstate, hcause, -⟩ := State.suspectUnit_unit_fields hin rfl rfl 254
  exact ⟨hstate, hcause⟩

theorem State.missDie_ne {s : State} {d e : Nat} (h : d ≠ e) : ((s.missDie e).die d).u = (s.die d).u := by
  have hout : (UnitKind.die, d) ∉ enclosed .die e := fun hmem => enclosed_ne_die _ hmem rfl
  have hkept := State.suspectUnit_unit (s.raiseDie e 254 e 0) hout (by simpa using h) 254
  rw [State.unit_of_standing (State.raiseDie_standing _ _ _ _ _)] at hkept
  exact hkept

/-- A die that is SUSPECT already is not fenced again. -/
theorem State.missDie_missed {s : State} {d : Nat} (h : s.missed d) (e : Nat) : (s.missDie e).missed d := by
  have hkept : ((s.missDie e).die d).u = (s.die d).u := by
    by_cases he : d = e
    · subst he
      have hsus : ((s.raiseDie d 254 d 0).unit .die d).state = .suspect := by
        rw [State.unit_of_standing (State.raiseDie_standing _ _ _ _ _)]
        exact h.1
      rw [State.missDie, State.suspectUnit, hsus, State.raiseDie_die]
    · exact State.missDie_ne he
  rw [State.missed, hkept]
  exact h

theorem State.foldl_missDie_missed {s : State} {d : Nat} (h : s.missed d) (l : List Nat) : (l.foldl State.missDie s).missed d :=
  List.foldlRecOn (motive := fun t : State => t.missed d) l _ h fun _ ht e _ => State.missDie_missed ht e

theorem State.foldl_missDie_mem {d : Nat} {l : List Nat} (hd : d ∈ l) {s : State} (h : (s.die d).u.state = .inService) :
    (l.foldl State.missDie s).missed d := by
  induction l generalizing s with
  | nil => exact absurd hd List.not_mem_nil
  | cons e l ih =>
    rw [List.foldl_cons]
    by_cases he : d = e
    · subst he
      exact State.foldl_missDie_missed (State.missDie_self h) l
    · exact ih (List.mem_of_ne_of_mem he hd) (by rw [State.missDie_ne he, h])

theorem State.txnMissed_decided (s : State) {x : Txn} (hd : x.decision.isSome = true) (hl : x.late = false) : s.txnMissed x = s := by
  simp [State.txnMissed, hd, hl]

theorem State.txnMissed_undecided (s : State) {x : Txn} (h : x.decision = none ∨ x.late = true) :
    s.txnMissed x = ((x.voted.filter (·.2)).map (·.1)).foldl State.missDie s := by
  have hmissed : (x.decision.isSome && !x.late) = false := by
    obtain h | h := h <;> simp [h]
  rw [State.txnMissed, if_neg (by simp [hmissed])]
  rfl

theorem State.txnMissed_tb (s : State) (x : Txn) : (s.txnMissed x).tb = s.tb := by
  unfold State.txnMissed
  split
  · rfl
  · refine List.foldlRecOn (motive := fun t : State => t.tb = s.tb) _ _ rfl fun t ht d _ => ?_
    rw [State.suspectUnit_tb, State.raiseDie_tb, ht]

/-! ### The effective instant (R64, R436, R437) -/

section
variable {s : State} {x : Txn} (hx : s.ctx.txn = some x) (hready : s.txnReady x = true)
include hx hready

/-- At T, a transaction without the decision COMMIT is rolled back. -/
theorem State.txnApply_rollsBack (hd : x.decision ≠ some true) : s.txnApply = (s.txnMissed x).txnRollback := by
  simp [State.txnApply, hx, hready, hd]

/-- The state in which the entries of a transaction have applied. -/
def State.txnEntriesApplied (s : State) (x : Txn) : State :=
  x.entries.foldl (fun acc e => acc.applyEntry x e) ((x.touched s.part).foldl State.touchUnit s)

/-- At T, a transaction that every die knows as decided applies, unless a row of R437 stands in its way. -/
theorem State.txnApply_applies (hd : x.decision = some true) (hl : x.late = false) (hb : s.txnBlocked x = false) :
    s.txnApply = (((s.txnEntriesApplied x).updCtx (fun c => { c with txn := none, txnLast := 0 })).logTxn 0 x).msix 5 := by
  have hmissed : s.txnMissed x = s := s.txnMissed_decided (by rw [hd]; rfl) hl
  simp [State.txnApply, hx, hready, hmissed, hd, hb, State.txnEntriesApplied]

end

/-- A START sets T0 to T. -/
theorem State.applyEntry_start (s : State) (x : Txn) {e : TxnEntry} (he : e.op = 3) :
    (s.applyEntry x e).tb.t0 = x.target.map Int.ofNat := by
  simp only [State.applyEntry, he]
  rw [State.reachReplay_eq]
  rfl

/-- Settles O53: each command is followed to the one state that its conditions leave; the fence of a die at T reaches no other die. -/
theorem transactions : Obligations.Transactions := by
  unfold Obligations.Transactions
  refine ⟨fun s id l w hr hn hf hok hw hin ha => ?placed, fun s hr hbad => ?refused, fun s x hr hx => ?abort,
    fun s x w d hx hw htime hd hown hnew hup => ?vote, fun s x w hx hw hd => ?decide, fun s x hx hready => ?apply⟩
  case placed =>
    refine ⟨_, congrArg Host.Outcome.next ((State.commit_placed hr hn hf hok).trans (State.txnPlace_placed hw hin ha id)), rfl, rfl, rfl⟩
  case refused => exact ⟨_, congrArg Host.Outcome.next (State.commit_refused hr hbad), rfl, rfl⟩
  case abort =>
    exact ⟨fun hd => ⟨_, congrArg Host.Outcome.next (State.txnAbort_undecided hr hx hd), s.txnRollback_ctx, s.raisedTo_txnRollback⟩,
      fun hd => ⟨_, congrArg Host.Outcome.next (State.txnAbort_decided hr hx hd), rfl⟩⟩
  case vote => exact congrArg Host.Outcome.next (State.txnVote_taken hx hw hd htime hown hnew hup)
  case decide =>
    exact ⟨fun htime hyes hin => congrArg Host.Outcome.next (State.txnDecide_commit hx hw hd htime hyes hin),
      fun htime hno => ⟨_, congrArg Host.Outcome.next (State.txnDecide_abort hx hw hd htime hno), s.txnRollback_ctx,
        s.raisedTo_txnRollback⟩,
      fun htime hyes hout => congrArg Host.Outcome.next (State.txnDecide_waits hx hw hd htime hyes hout),
      fun hfuture hlate => congrArg Host.Outcome.next (State.txnDecide_late hx hw hd hfuture hlate)⟩
  case apply =>
    refine ⟨fun hd hl hb => ⟨_, congrArg Host.Outcome.next (State.txnApply_applies hx hready hd hl hb), rfl, rfl, fun e w hone hop hw => ?_⟩,
      fun hd => ⟨_, congrArg Host.Outcome.next (State.txnApply_rollsBack hx hready hd), ?_, ?_, ?_, ?_, fun d hmiss hvote hin => ?_⟩⟩
    · change (s.txnEntriesApplied x).tb.t0 = some (w : Int)
      rw [State.txnEntriesApplied, hone]
      exact (State.applyEntry_start _ x hop).trans (by rw [hw]; rfl)
    · rw [State.txnRollback_ctx]
    · rw [State.txnRollback_ctx]
    · rw [State.txnRollback_image, State.txnMissed_image]
    · rw [State.txnRollback_tb, State.txnMissed_tb]
    · have hmem : d ∈ (x.voted.filter (·.2)).map (·.1) := List.mem_map.mpr ⟨(d, true), List.mem_filter.mpr ⟨hvote, rfl⟩, rfl⟩
      rw [State.txnRollback_die, State.txnMissed_undecided s hmiss]
      exact State.foldl_missDie_mem hmem hin

end Sys2Proof.Machine
end

section
/-! PROOFS of the family of 17_transactions_update_security.md: the operations of UPD_CTRL (R440 to R443, R447). -/

namespace Sys2Proof.Machine

/-! ### Bits of a register -/

theorem bit_eq_testBit (x i : Nat) : bit x i = x.testBit i := by
  rw [bit, Nat.testBit_eq_decide_div_mod_eq, beq_eq_decide]

theorem bit_toNat {n : Nat} (x : BitVec n) (i : Nat) : bit x.toNat i = x.getLsbD i := bit_eq_testBit x.toNat i

/-- Bit `i` of the register value `2 ^ i`. -/
theorem getLsbD_twoPow_self {n i : Nat} (h : i < n) : (BitVec.ofNat n (2 ^ i)).getLsbD i = true := by
  rw [BitVec.getLsbD_ofNat, Nat.testBit_two_pow_self, decide_eq_true h, Bool.and_self]

/-! ### What an update of the UPD block leaves alone -/

/-- Which firmware a slot holds is none of the UPD block's. -/
theorem State.updUpd_loadFirmware (s : State) (f : UpdSt → UpdSt) (comp : Nat) (slot : Bool) :
    (s.updUpd f).loadFirmware comp slot = s.loadFirmware comp slot :=
  State.loadFirmware_congr (s := s) (t := s.updUpd f) rfl rfl rfl rfl comp slot

/-- Whether an image slot of the flash passes R57 is none of the UPD block's. -/
theorem State.updUpd_validateSlot (s : State) (f : UpdSt → UpdSt) (k : Nat) : (s.updUpd f).validateSlot k = s.validateSlot k := by
  have hverify : ∀ b g, (s.updUpd f).verifyComponent 1 s.sec.cntStruct b g = s.verifyComponent 1 s.sec.cntStruct b g :=
    State.verifyComponent_congr (s := s) (t := s.updUpd f) rfl rfl 1 _
  have hheader : (s.updUpd f).headerOk = s.headerOk := by
    funext b
    unfold State.headerOk
    rfl
  have hstep5 : (s.updUpd f).step5 = s.step5 := by
    funext b i
    unfold State.step5
    rfl
  simp only [State.validateSlot, State.validate, State.validateSections, State.componentBytes_congr (show (s.updUpd f).flash = s.flash from rfl),
    hheader, hstep5, hverify, State.updUpd_sec, State.updUpd_part]

theorem State.updUpd_checkSlot (s : State) (f : UpdSt → UpdSt) (k : Bool) (fws : List Firmware) :
    (s.updUpd f).checkSlot k fws = s.checkSlot k fws := by
  simp only [State.checkSlot, State.updUpd_validateSlot]

/-! ### How an operation ends (R442, R463) -/

/-- A staging that fails leaves the unit unstaged, with the status of the failure. -/
theorem State.failStage_upd (s : State) (bitNo unit status : Nat) : (s.failStage bitNo unit status).upd = { s.upd with
    staged := s.upd.staged &&& ~~~(BitVec.ofNat 14 (2 ^ bitNo)), last := BitVec.ofNat 8 status } := by
  simp [State.failStage, State.stageFail, State.msix]

theorem State.failStage_dies (s : State) (bitNo unit status : Nat) : (s.failStage bitNo unit status).dies = s.dies := by
  simp [State.failStage, State.stageFail, State.msix]

theorem State.raisedTo_failStage {s t : State} (h : t.link = s.link) (bitNo unit status : Nat) :
    s.raisedTo (t.failStage bitNo unit status) [(255, unit, status)] :=
  State.raisedTo.msix (State.raisedTo_raise_of_link (by exact h) _ _ _) 5

theorem State.failStage_unstaged (s : State) {bitNo : Nat} (h : bitNo < 14) (unit status : Nat) :
    bit (s.failStage bitNo unit status).upd.staged.toNat bitNo = false := by
  rw [State.failStage_upd, bit_toNat, BitVec.getLsbD_and, BitVec.getLsbD_not, getLsbD_twoPow_self h]
  simp

theorem State.stageEnd_staged (s : State) {bitNo : Nat} (h : bitNo < 14) : bit (s.stageEnd (2 ^ bitNo)).upd.staged.toNat bitNo = true := by
  change bit (s.upd.staged ||| BitVec.ofNat 14 (2 ^ bitNo)).toNat bitNo = true
  rw [bit_toNat, BitVec.getLsbD_or, getLsbD_twoPow_self h, Bool.or_true]

/-! ### UPD_CTRL (R442) -/

/-- The state in which an operation of UPD_CTRL runs: UPD_CTRL holds what was written. -/
def State.withUpdCtrl (s : State) (w : Word) : State := s.updUpd (fun x => { x with ctrl := w })

/-- An operation runs while the Pregus firmware runs, no other one does and no ACTIVATE is pending. -/
theorem State.updOp_runs {s : State} (hr : s.timeRuns = true) (hbusy : s.updBusy = false) (hact : s.activatePending = false)
    (op : Nat) (unit : Option Nat) (f : State → State) : ∃ w : Word, s.updOp op unit f = f (s.withUpdCtrl w) := by
  have hidle : ∀ w, ¬ ((s.withUpdCtrl w).updBusy = true ∨ (s.withUpdCtrl w).activatePending = true) := fun w h =>
    h.elim (fun h => absurd (hbusy.symm.trans h) (by decide)) (fun h => absurd (hact.symm.trans h) (by decide))
  unfold State.updOp
  rw [if_neg (by simp [hr])]
  exact ⟨_, if_neg (hidle _)⟩

theorem State.withUpdCtrl_loadFirmware (s : State) (w : Word) : (s.withUpdCtrl w).loadFirmware = s.loadFirmware := by
  funext comp slot
  exact s.updUpd_loadFirmware _ comp slot

theorem State.withUpdCtrl_checkSlot (s : State) (w : Word) : (s.withUpdCtrl w).checkSlot = s.checkSlot := by
  funext k fws
  exact s.updUpd_checkSlot _ k fws

/-! ### Staging of firmware (R440, R447) -/

theorem DieSt.loadStandby_serving (x : DieSt) (f : Firmware) : (x.loadStandby f).serving = x.serving := by
  unfold DieSt.loadStandby
  split <;> rfl

/-- The standby processor of a die is the one that does not serve it. -/
theorem DieSt.loadStandby_standby (x : DieSt) (f : Firmware) :
    (if x.serving then (x.loadStandby f).fwA else (x.loadStandby f).fwB) = f := by
  unfold DieSt.loadStandby
  cases x.serving <;> rfl

theorem State.stagePregus_fits {s : State} {f : Firmware} (hload : s.loadFirmware 1 (!s.upd.selPregus) = .ok f) (hfit : s.pregusFits f = true) :
    s.stagePregus = (((s.updUpd (fun x => { x with pregusStaged := f })).notProven 1).logFirmware 1 f).stageEnd 1 := by
  simp only [State.stagePregus, hload]
  exact if_pos hfit

theorem State.stagePregus_fails {s : State} {e : Nat} (hload : s.loadFirmware 1 (!s.upd.selPregus) = .error e) :
    s.stagePregus = s.failStage 0 0xFF e := by
  simp only [State.stagePregus, hload]

/-- A die whose standby processor holds a firmware that has been staged (R442). -/
def State.dieStaged (s : State) (d : Nat) (f : Firmware) : State :=
  ((((s.updDie d (fun y => y.loadStandby f)).updUpd (fun y => { y with dieSlot := !s.upd.selDie })).notProven 2).logFirmware 2 f).stageEnd
    (2 ^ (d + 1))

/-- STAGE_DIE loads the standby processor of its die, and touches the die no further. -/
theorem State.dieStaged_die (s : State) (d : Nat) (f : Firmware) : (s.dieStaged d f).die d = (s.die d).loadStandby f := by
  simp [State.dieStaged, State.stageEnd, State.logFirmware, State.logComponent, State.log, State.notProven, State.msix]

section
variable {s : State} {d : Nat} (hd : d < 4) (hstandby : (if (s.die d).serving then (s.die d).aRetired else (s.die d).bRetired) = false)
  (hup : s.dieDown d = false)
include hd hstandby hup

theorem State.stageDie_fits {f : Firmware} (hload : s.loadFirmware 2 (!s.upd.selDie) = .ok f) (hfit : s.dieFits d f = true) :
    s.stageDie d true = s.dieStaged d f := by
  rw [State.stageDie, if_neg (Nat.not_le.mpr hd), if_neg (by simp [hstandby, hup]), hload]
  simp [hfit, State.dieStaged]

theorem State.stageDie_fails {e : Nat} (hload : s.loadFirmware 2 (!s.upd.selDie) = .error e) :
    s.stageDie d true = s.failStage (d + 1) d e := by
  rw [State.stageDie, if_neg (Nat.not_le.mpr hd), if_neg (by simp [hstandby, hup]), hload]

end

/-! ### Staging of an image (R443) -/

/-- STAGE_IMAGE discards what was staged of an earlier image before it validates. -/
def State.imageDiscarded (s : State) : State :=
  s.updUpd (fun x => { x with image := none, hitless := false, staged := x.staged &&& 0x1F#14 })

theorem State.imageDiscarded_isStaged (s : State) {b : Nat} (h : b < 5) : s.imageDiscarded.isStaged b = s.isStaged b := by
  have hmask : (0x1F#14).getLsbD b = true := by interval_cases b <;> rfl
  change bit (s.upd.staged &&& 0x1F#14).toNat b = bit s.upd.staged.toNat b
  rw [bit_toNat, bit_toNat, BitVec.getLsbD_and, hmask, Bool.and_true]

/-- The firmware that is to run a new image does not change with what is discarded. -/
theorem State.imageDiscarded_firmwareToRun (s : State) : s.imageDiscarded.firmwareToRun = s.firmwareToRun := by
  have hdies : (List.range 4).filter (fun d => s.imageDiscarded.isStaged (d + 1)) = (List.range 4).filter (fun d => s.isStaged (d + 1)) :=
    List.filter_congr fun d hd => s.imageDiscarded_isStaged (Nat.succ_lt_succ (List.mem_range.mp hd))
  unfold State.firmwareToRun
  rw [hdies, s.imageDiscarded_isStaged (by decide)]
  rfl

/-- The HITLESS bit of an image that is staged beside the active one. -/
def State.hitlessBit (s : State) (i : Image) : Bool := match s.image with | some a => hitless a i | none => false

/-- A valid image is staged in place of what was staged before. -/
def State.imageStaged (s : State) (i : Image) : State :=
  (((s.imageDiscarded.imgPassed.updUpd (fun x => { x with
    image := some i, imageSlot := !s.upd.selImage, hitless := s.hitlessBit i })).notProven 4).logImage i).stageEnd 0x20

theorem State.imageStaged_image (s : State) (i : Image) : (s.imageStaged i).image = s.image := by
  simp [State.imageStaged, State.imageDiscarded]

theorem State.stageImage_valid {s : State} {i : Image} (h : s.checkSlot (!s.upd.selImage) s.firmwareToRun = .ok i) :
    s.stageImage = s.imageStaged i := by
  have hcheck : s.imageDiscarded.checkSlot (!s.upd.selImage) s.imageDiscarded.firmwareToRun = .ok i := by
    rw [State.imageDiscarded_firmwareToRun, State.imageDiscarded, State.updUpd_checkSlot, h]
  unfold State.stageImage
  dsimp only
  rw [← State.imageDiscarded, hcheck]
  rfl

/-! ### Staging of a region (R411, R442) -/

theorem State.stageRegion_fences {s : State} {g : Nat} (hg : g < s.part.regions) (himg : s.isStaged 5 = true)
    (hfence : s.fenceRefusal .region g 1 = 0) : s.stageRegion g = s.planFence .region g .update := by
  simp [State.stageRegion, Nat.not_le.mpr hg, himg, hfence]

end Sys2Proof.Machine
end

section
/-! PROOFS of the family of 17_transactions_update_security.md: ratchets, attestation, the debug port and provisioning (R446 to R454), and
with them the operations of UPD_CTRL. -/

namespace Sys2Proof.Machine

/-! ### The end of an operation (R463) -/

theorem State.secEnd_sec (s : State) (status : Nat) : (s.secEnd status).sec = { s.sec with last := BitVec.ofNat 8 status } := rfl

theorem State.secEnd_last (s : State) (status : Nat) : (s.secEnd status).sec.last = BitVec.ofNat 8 status := rfl

theorem State.raisedTo.secEnd {s t : State} {es : List (Nat × Nat × Nat)} (h : s.raisedTo t es) (status : Nat) :
    s.raisedTo (t.secEnd status) es := State.raisedTo_of_events h rfl (HostLinkSt.msix_events _ _)

/-- A request for safe state is no event. -/
theorem State.raisedTo.requestSafe {s t : State} {es : List (Nat × Nat × Nat)} (h : s.raisedTo t es) (sev : Nat) :
    s.raisedTo (t.noteCause.requestSafe sev) es := State.raisedTo_of_events h rfl (State.requestSafe_events t.noteCause sev)

/-! ### Ratchets (R449) -/

/-- SEC_CTRL.COMP holds the component that a RATCHET names. -/
def State.withComp (s : State) (comp : Nat) : State := s.updSec (fun x => { x with comp := BitVec.ofNat 2 comp })

theorem State.withComp_ratchetPair (s : State) (comp : Nat) : (s.withComp comp).ratchetPair = s.ratchetPair := rfl

theorem State.withComp_ratchetRefused (s : State) (comp : Nat) : (s.withComp comp).ratchetRefused = s.ratchetRefused := rfl

theorem State.ratchet_refused {s : State} {comp : Nat} (hr : s.timeRuns = true) (h : s.ratchetRefused comp = true) :
    s.ratchet comp = (s.withComp comp).secEnd 0x7D := by
  unfold State.ratchet
  rw [if_neg (by simp [hr])]
  exact if_pos h

theorem State.ratchet_takes {s : State} {comp : Nat} (hr : s.timeRuns = true) (h : s.ratchetRefused comp = false) : s.ratchet comp =
    (((((s.withComp comp).setCounter comp (s.ratchetPair comp).1).raise 258 0xFF 0).logRatchet comp)).secEnd 0 := by
  unfold State.ratchet
  rw [if_neg (by simp [hr])]
  exact if_neg (fun hbad => absurd (h.symm.trans hbad) (by decide))

/-- The log entry of a ratchet is all that it leaves beside its counter and its event. -/
theorem State.logRatchet_eq (s : State) (comp : Nat) : s.logRatchet comp = { s with ash := (s.logRatchet comp).ash } := by
  unfold State.logRatchet
  split <;> rfl

theorem State.raisedTo.logRatchet {s t : State} {es : List (Nat × Nat × Nat)} (h : s.raisedTo t es) (comp : Nat) :
    s.raisedTo (t.logRatchet comp) es := State.raisedTo_of_events h rfl (by rw [State.logRatchet_eq])

/-- The counter of a component, set. -/
theorem State.setCounter_ratchetPair (s : State) (comp v : Nat) : (s.setCounter comp v).ratchetPair comp = ((s.ratchetPair comp).1, v) := by
  match comp with
  | 0 => rfl
  | 1 => rfl
  | _ + 2 => rfl

/-- What a ratchet pairs depends on the firmware, the image and the counters alone. -/
theorem State.ratchetPair_congr {s t : State} (hupd : t.upd = s.upd) (hdies : t.dies = s.dies) (himg : t.image = s.image)
    (hsec : t.sec = s.sec) : t.ratchetPair = s.ratchetPair := by
  funext comp
  simp only [State.ratchetPair, State.dieSecVersion, State.die, State.img, hupd, hdies, himg, hsec]

/-- The state in which a ratchet has blown its counter and raised its event. -/
theorem State.ratcheted_ratchetPair (s : State) (comp v : Nat) :
    ((((s.setCounter comp v).raise 258 0xFF 0).logRatchet comp).secEnd 0).ratchetPair comp = ((s.ratchetPair comp).1, v) := by
  have hlast : ∀ t : State, (t.secEnd 0).ratchetPair comp = t.ratchetPair comp := fun _ => rfl
  rw [hlast, State.logRatchet_eq, ← s.setCounter_ratchetPair comp v]
  exact congrFun (State.ratchetPair_congr (by simp) (by simp) (by simp) (by simp)) comp

/-! ### Attestation (R452) -/

theorem State.attest_placed {s : State} (hr : s.timeRuns = true) (hp : s.reportPlaced s.sec.reportAddr = true) : s.attest =
    (s.put s.sec.reportAddr (s.report ++ slice (identitySign (sha3 s.report)) 0 4627)).secEnd 0 := by
  unfold State.attest
  rw [if_neg (by simp [hr])]
  exact if_pos hp

/-! ### Debug (R453, R454) -/

/-- A field inside the first bytes of a sequence is read from them alone. -/
theorem leAt_take {bs : List Byte} {off n k : Nat} (h : off + n ≤ k) : leAt (bs.take k) off n = leAt bs off n := by
  rw [leAt, leAt, List.drop_take, List.take_take, Nat.min_eq_left (by omega)]

/-- A token whose own fields and signature are valid (R454). -/
def State.tokenValid (s : State) (b : List Byte) : Bool :=
  s.tokenOk (b.take 128) && s.signedBy (leAt b 8 4) 2 (b.take 128) (b.drop 128)

theorem State.readToken_sound {s : State} (hs : s.sound) (hin : s.inCarve s.sec.reportAddr (128 + 4627) = true)
    (hopen : s.carveClosed none s.sec.reportAddr (128 + 4627) = false) :
    s.readToken = (s, some (s.fetch s.sec.reportAddr (128 + 4627)).data) := by
  obtain ⟨hst, hstatus⟩ := State.fetch_ok hs s.sec.reportAddr (128 + 4627)
  rw [State.readToken, State.readOpen, if_neg (by simp [hin, hopen])]
  exact congrArg₂ Prod.mk hst (if_pos hstatus)

/-- Nothing outside the carve-outs, or in a closed one, is read (R129). -/
theorem State.readToken_closed {s : State} (h : s.inCarve s.sec.reportAddr (128 + 4627) = false ∨
    s.carveClosed none s.sec.reportAddr (128 + 4627) = true) : s.readToken = (s, none) :=
  if_pos (by obtain h | h := h <;> simp [h])

/-- SEC_CHAL takes a new value. -/
def State.rechallenged (s : State) : State := s.updSec (fun x => { x with chalDraw := x.chalDraw + 1 })

/-- An UNLOCK without a valid token. -/
def State.unlockRefused (s : State) : State := (s.rechallenged.raise 261 0xFF 0x7E).secEnd 0x7E

/-- An UNLOCK with a valid token for a level. -/
def State.unlockGranted (s : State) (level : Nat) : State :=
  let s1 := (s.rechallenged.updSec (fun x => { x with debugLevel := BitVec.ofNat 2 (max level x.debugLevel.toNat) })).raise 260 0xFF 0
  (if level = 2 then s1.noteCause.requestSafe 260 else s1).secEnd 0

theorem State.unlock_unread {s : State} (hr : s.timeRuns = true) (hread : s.readToken = (s, none)) : s.unlock = s.unlockRefused := by
  unfold State.unlock
  rw [if_neg (by simp [hr]), hread]
  rfl

/-- The token's fields at their places in what was read. -/
theorem State.tokenValid_iff (s : State) (b : List Byte) : s.tokenValid b = true ↔
    s.tokenOk (b.take 128) = true ∧ s.signedBy (leAt (b.take 128) 8 4) 2 (b.take 128) (b.drop 128) = true := by
  rw [State.tokenValid, Bool.and_eq_true, leAt_take (by decide)]

theorem State.unlock_valid {s : State} {b : List Byte} (hr : s.timeRuns = true) (hread : s.readToken = (s, some b))
    (h : s.tokenValid b = true) : s.unlock = s.unlockGranted (leAt b 4 4) := by
  unfold State.unlock
  rw [if_neg (by simp [hr]), hread, ← leAt_take (bs := b) (show 4 + 4 ≤ 128 by decide)]
  exact if_pos ⟨rfl, (s.tokenValid_iff b).mp h⟩

theorem State.unlock_invalid {s : State} {b : List Byte} (hr : s.timeRuns = true) (hread : s.readToken = (s, some b))
    (h : s.tokenValid b ≠ true) : s.unlock = s.unlockRefused := by
  unfold State.unlock
  rw [if_neg (by simp [hr]), hread]
  exact if_neg fun hgood => h ((s.tokenValid_iff b).mpr hgood.2)

theorem State.unlockRefused_sec (s : State) : s.unlockRefused.sec = { s.sec with chalDraw := s.sec.chalDraw + 1, last := 0x7E } := by
  rw [State.unlockRefused, State.secEnd_sec, State.raise_sec]
  rfl

theorem State.raisedTo_unlockRefused (s : State) : s.raisedTo s.unlockRefused [(261, 0xFF, 0x7E)] :=
  State.raisedTo.secEnd (State.raisedTo_raise_of_link (by rfl) _ _ _) _

theorem State.unlockGranted_sec (s : State) (level : Nat) : (s.unlockGranted level).sec = { s.sec with
    chalDraw := s.sec.chalDraw + 1, debugLevel := BitVec.ofNat 2 (max level s.sec.debugLevel.toNat), last := 0 } := by
  unfold State.unlockGranted
  dsimp only
  rw [State.secEnd_sec]
  split
  · rw [State.requestSafe_eq, State.noteCause, State.updSaf_sec, State.raise_sec]
    rfl
  · rw [State.raise_sec]
    rfl

theorem State.raisedTo_unlockGranted (s : State) (level : Nat) : s.raisedTo (s.unlockGranted level) [(260, 0xFF, 0)] := by
  unfold State.unlockGranted
  refine State.raisedTo.secEnd ?_ _
  have hraise : s.raisedTo ((s.rechallenged.updSec (fun x => { x with
      debugLevel := BitVec.ofNat 2 (max level x.debugLevel.toNat) })).raise 260 0xFF 0) [(260, 0xFF, 0)] :=
    State.raisedTo_raise_of_link (by rfl) _ _ _
  split
  · exact hraise.requestSafe 260
  · exact hraise

/-! ### Provisioning (R446, R450) -/

theorem State.updKey_keySlot (s : State) (k : Nat) (f : KeySlot → KeySlot) : (s.updKey k f).keySlot k = f (s.keySlot k) :=
  SMap.get_update_self _ _ _ _

theorem State.secEnd_keySlot (s : State) (status k : Nat) : (s.secEnd status).keySlot k = s.keySlot k := rfl

theorem State.raise_keySlot (s : State) (sev unit status k : Nat) : (s.raise sev unit status).keySlot k = s.keySlot k := by
  rw [State.keySlot, State.raise_sec]
  rfl

/-- A command that does not verify, or whose signer may not sign it. -/
theorem State.provision_unsigned {s : State} {c : Provision} {signer : Nat} {msg sig : List Byte} (hr : s.timeRuns = true)
    (h : s.provisionSigned signer msg sig = false ∨ signer ∉ Provision.signers c) : s.provision c signer msg sig = s.secEnd 0x71 := by
  unfold State.provision
  rw [if_neg (by simp [hr]), if_pos (h.symm.imp (by simp) (by simp))]

theorem State.provision_signed {s : State} {c : Provision} {signer : Nat} {msg sig : List Byte} (hr : s.timeRuns = true)
    (hsigner : signer ∈ Provision.signers c) (h : s.provisionSigned signer msg sig = true) :
    s.provision c signer msg sig = (s.provisionAct c).1.secEnd (s.provisionAct c).2 := by
  unfold State.provision
  rw [if_neg (by simp [hr]), if_neg (by simp [hsigner, h])]

theorem State.provisionAct_program {s : State} {slot : Nat} (hpos : 0 < slot) (hlt : slot < 8) (hempty : (s.keySlot slot).programmed = false)
    (digest : List Byte) (roles : Nat) : s.provisionAct (.program slot digest roles) =
      (s.updKey slot (fun _ => { programmed := true, digest := digest, roles := roles % 8, revoked := false }), 0) :=
  if_neg (by simp [Nat.pos_iff_ne_zero.mp hpos, Nat.not_le.mpr hlt, hempty])

theorem State.provisionAct_revoke {s : State} {slot : Nat} (hlt : slot < 8) (hprog : (s.keySlot slot).programmed = true)
    (hrev : (s.keySlot slot).revoked = false) (hlast : s.lastFirmwareSlot slot = false) : s.provisionAct (.revoke slot) =
      ((s.updKey slot (fun k => { k with revoked := true })).raise 259 0xFF 0, 0) :=
  if_neg (by simp [Nat.not_le.mpr hlt, hprog, hrev, hlast])

/-! ### The statement -/

/-- Settles O54: each operation is followed to the one state that its conditions leave. -/
theorem updateAndSecurity : Obligations.UpdateAndSecurity := by
  unfold Obligations.UpdateAndSecurity
  refine ⟨fun s hr hbusy hact => ?update, fun s comp hr => ?ratchet, fun s hr hp => ?attest, fun s hr hs hin hopen => ?unlock,
    fun s hr hclosed => ?unread, fun s slot roles signer digest msg sig hr => ?provision⟩
  case update =>
    have hbit : ∀ {d : Nat}, d < 4 → d + 1 < 14 := fun h => Nat.lt_of_lt_of_le (Nat.succ_lt_succ h) (by decide)
    have hrun := State.updOp_runs hr hbusy hact
    refine ⟨fun f hload hfit => ?pregus, fun e hload => ?pregusFails, fun d f hd hstandby hup hload hfit => ?die,
      fun d e hd hstandby hup hload => ?dieFails, fun i hcheck => ?image, fun g hg himg hfence => ?region, ?unstage, ?save⟩
    case pregus =>
      obtain ⟨w, hw⟩ := hrun 1 none State.stagePregus
      rw [← s.withUpdCtrl_loadFirmware w] at hload
      rw [State.stagePregus_fits (s := s.withUpdCtrl w) hload hfit] at hw
      exact ⟨_, congrArg Host.Outcome.next hw, rfl, State.stageEnd_staged _ (bitNo := 0) (by decide), rfl⟩
    case pregusFails =>
      obtain ⟨w, hw⟩ := hrun 1 none State.stagePregus
      rw [← s.withUpdCtrl_loadFirmware w] at hload
      rw [State.stagePregus_fails (s := s.withUpdCtrl w) hload] at hw
      exact ⟨_, congrArg Host.Outcome.next hw, by rw [State.failStage_upd], by rw [State.failStage_upd]; rfl,
        by rw [State.failStage_upd]; rfl, State.raisedTo_failStage (t := s.withUpdCtrl w) rfl _ _ _⟩
    case die =>
      obtain ⟨w, hw⟩ := hrun 2 (some d) fun s => s.stageDie d true
      rw [← s.withUpdCtrl_loadFirmware w] at hload
      rw [State.stageDie_fits (s := s.withUpdCtrl w) hd hstandby hup hload hfit] at hw
      refine ⟨_, congrArg Host.Outcome.next hw, ?_, State.stageEnd_staged _ (hbit hd), rfl, ?_⟩
      · rw [State.dieStaged_die]
        exact (s.die d).loadStandby_standby f
      · rw [State.dieStaged_die]
        exact (s.die d).loadStandby_serving f
    case dieFails =>
      obtain ⟨w, hw⟩ := hrun 2 (some d) fun s => s.stageDie d true
      rw [← s.withUpdCtrl_loadFirmware w] at hload
      rw [State.stageDie_fails (s := s.withUpdCtrl w) hd hstandby hup hload] at hw
      exact ⟨_, congrArg Host.Outcome.next hw, by rw [State.failStage_upd],
        State.failStage_unstaged _ (hbit hd) _ _, State.failStage_dies _ _ _ _,
        State.raisedTo_failStage (t := s.withUpdCtrl w) rfl _ _ _⟩
    case image =>
      obtain ⟨w, hw⟩ := hrun 3 none State.stageImage
      rw [← s.withUpdCtrl_checkSlot w] at hcheck
      rw [State.stageImage_valid (s := s.withUpdCtrl w) hcheck] at hw
      exact ⟨_, congrArg Host.Outcome.next hw, rfl, State.stageEnd_staged _ (bitNo := 5) (by decide), rfl, State.imageStaged_image _ i, rfl⟩
    case region =>
      obtain ⟨w, hw⟩ := hrun 4 (some g) fun s => s.stageRegion g
      rw [State.stageRegion_fences (s := s.withUpdCtrl w) hg himg hfence] at hw
      exact ⟨_, congrArg Host.Outcome.next hw, State.planFence_unit_state _ .region g .update, State.planFence_fences _ .region g .update⟩
    case unstage =>
      obtain ⟨w, hw⟩ := hrun 5 none State.unstage
      exact ⟨_, congrArg Host.Outcome.next hw, rfl, rfl, rfl⟩
    case save =>
      obtain ⟨w, hw⟩ := hrun 6 none State.saveSettings
      exact ⟨_, congrArg Host.Outcome.next hw, rfl, rfl⟩
  case ratchet =>
    refine ⟨fun h => ⟨_, congrArg Host.Outcome.next (State.ratchet_takes hr h), State.secEnd_last _ 0, ?_, ?_⟩,
      fun h => ⟨_, congrArg Host.Outcome.next (State.ratchet_refused hr h), rfl, rfl, rfl, rfl⟩⟩
    · rw [State.ratcheted_ratchetPair, State.withComp_ratchetPair]
    · exact State.raisedTo.secEnd (State.raisedTo.logRatchet (State.raisedTo_raise_of_link (by rfl) _ _ _) comp) 0
  case attest => exact ⟨_, congrArg Host.Outcome.next (State.attest_placed hr hp), rfl, State.secEnd_mem _ _⟩
  case unlock =>
    intro b good
    have hread := State.readToken_sound hs hin hopen
    by_cases hgood : good = true
    · refine ⟨_, congrArg Host.Outcome.next (State.unlock_valid hr hread hgood), ?_, fun _ => ⟨?_, ?_, s.raisedTo_unlockGranted _⟩,
        fun h => absurd (hgood.symm.trans h) (by decide)⟩ <;> rw [State.unlockGranted_sec]
    · refine ⟨_, congrArg Host.Outcome.next (State.unlock_invalid hr hread hgood), ?_, fun h => absurd h hgood,
        fun _ => ⟨?_, ?_, s.raisedTo_unlockRefused⟩⟩ <;> rw [State.unlockRefused_sec]
  case unread =>
    exact ⟨_, congrArg Host.Outcome.next (State.unlock_unread hr (State.readToken_closed hclosed)), s.unlockRefused_sec,
      s.raisedTo_unlockRefused⟩
  case provision =>
    refine ⟨fun hsig hpos hlt hempty => ?_, fun hsigner hsig hlt hprog hrev hlast => ?_,
      fun c h => ⟨_, congrArg Host.Outcome.next (State.provision_unsigned hr h), rfl⟩⟩
    · have hdone := State.provision_signed (c := .program slot digest roles) hr (List.mem_singleton_self 0) hsig
      rw [State.provisionAct_program hpos hlt hempty] at hdone
      exact ⟨_, congrArg Host.Outcome.next hdone, rfl, by rw [State.secEnd_keySlot, State.updKey_keySlot]⟩
    · have hdone := State.provision_signed (c := .revoke slot) hr (by simpa [Provision.signers] using hsigner) hsig
      rw [State.provisionAct_revoke hlt hprog hrev hlast] at hdone
      refine ⟨_, congrArg Host.Outcome.next hdone, rfl, ?_, State.raisedTo.secEnd (State.raisedTo_raise_of_link (by rfl) _ _ _) _⟩
      rw [State.secEnd_keySlot, State.raise_keySlot, State.updKey_keySlot]

end Sys2Proof.Machine
end

section
/-! PROOFS of the queue of waiting commands (INVENTORY.md Agents). -/

namespace Sys2Proof.Machine

/-- Settles O1: a step is one match on the queue of the commands that wait. -/
theorem stepRunsFront : Obligations.StepRunsFront := by
  unfold Obligations.StepRunsFront
  refine ⟨fun c rest s h => ?front, fun s h => ?idle⟩
  case front => rw [step, h]
  case idle => rw [step, h]

end Sys2Proof.Machine
end

section
/-! PROOFS of the family of 18_host_and_lattice_links.md: the commands of the host link (R463 to R468, R480). -/

namespace Sys2Proof.Machine

/-! ### The flash window (R468) -/

theorem State.flashOpen_opens {s : State} {k : Nat} (hs : s.flashServed = true) (h0 : 0 < k) (h6 : k ≤ 6) (ha : s.slotActive k = false) :
    s.flashOpen k = s.updLink (fun l => { l with
      flSlot := BitVec.ofNat 3 k, flOpenSlot := k, flOpened := true, flLast := 0, flErased := [] }) := by
  have hfree : ¬ (k = 0 ∨ 6 < k ∨ s.slotActive k = true) := by
    rw [ha]
    simp
    omega
  rw [State.flashOpen, if_neg (by simp [hs]), if_neg hfree]

theorem State.flashOpen_refused {s : State} {k : Nat} (hs : s.flashServed = true) (h : k = 0 ∨ 6 < k ∨ s.slotActive k = true) :
    s.flashOpen k = s.updLink (fun l => { l with flSlot := BitVec.ofNat 3 k, flLast := 0x92 }) := by
  rw [State.flashOpen, if_neg (by simp [hs]), if_pos h]

theorem State.flashClose_served {s : State} (hs : s.flashServed = true) :
    s.flashClose = s.updLink (fun l => { l with flOpened := false, flOpenSlot := 0, flErased := [], flLast := 0 }) := by
  rw [State.flashClose, if_neg (by simp [hs])]

/-- Erasing sectors changes the flash and the list of the sectors erased alone. -/
theorem State.eraseSectors_eq (l : List Nat) (s : State) : ∃ (fl : SMap Byte) (er : List Nat),
    s.eraseSectors l = { s with flash := fl, link := { s.link with flErased := er } } := by
  induction l generalizing s with
  | nil => exact ⟨s.flash, s.link.flErased, rfl⟩
  | cons k l ih =>
    unfold State.eraseSectors
    split
    · exact ih s
    · obtain ⟨fl, er, h⟩ := ih ((s.flashErase (k * 65536) 65536).updLink (fun x => { x with flErased := k :: x.flErased }))
      exact ⟨fl, er, h⟩

theorem State.flashWrite_inside {s : State} {off : Nat} {bs : List Byte} (hs : s.flashServed = true) (ho : s.link.flOpened = true)
    (hn : bs ≠ []) (hlo : (flashSlotRange s.link.flOpenSlot).1 ≤ off)
    (hhi : off + bs.length ≤ (flashSlotRange s.link.flOpenSlot).1 + (flashSlotRange s.link.flOpenSlot).2) :
    s.flashWrite off bs = (s.eraseSectors (sectorsOf off bs.length)).flashPut off bs := by
  unfold State.flashWrite
  dsimp only
  rw [if_neg hn, if_pos ⟨hs, ho, hlo, hhi⟩]

theorem State.flashWrite_outside {s : State} {off : Nat} {bs : List Byte} (hn : bs ≠ [])
    (h : off < (flashSlotRange s.link.flOpenSlot).1 ∨
      (flashSlotRange s.link.flOpenSlot).1 + (flashSlotRange s.link.flOpenSlot).2 < off + bs.length) :
    s.flashWrite off bs = s.updLink (fun l => { l with flDrops := satInc l.flDrops, flLast := 0x92 }) := by
  unfold State.flashWrite
  dsimp only
  rw [if_neg hn, if_neg (by rintro ⟨-, -, hlo, hhi⟩; omega)]

/-! ### MSI-X (R467) -/

/-- Releasing a vector changes what was sent and the PBA alone, neither for another vector. -/
theorem HostLinkSt.release_frame (l : HostLinkSt) (v : Nat) : l.release v = { l with sent := (l.release v).sent, pba := (l.release v).pba } := by
  unfold HostLinkSt.release
  split <;> rfl

theorem HostLinkSt.release_pba_ne (l : HostLinkSt) {v w : Nat} (h : v ≠ w) :
    SMap.get false (l.release w).pba v = SMap.get false l.pba v := by
  unfold HostLinkSt.release
  split
  · exact SMap.get_set_ne _ _ _ _ _ h
  · rfl

theorem HostLinkSt.mem_sent_release {l : HostLinkSt} {v : Nat} (h : v ∈ l.sent) (w : Nat) : v ∈ (l.release w).sent := by
  unfold HostLinkSt.release
  split
  · exact List.mem_cons_of_mem w h
  · exact h

/-- A vector that is enabled and unmasked leaves when its turn comes. -/
theorem HostLinkSt.release_enabled {l : HostLinkSt} {v : Nat} (he : l.msixEnable = true) (hu : SMap.get false l.unmasked v = true) :
    SMap.get false (l.release v).pba v = false ∧ (SMap.get false l.pba v = true → v ∈ (l.release v).sent) := by
  unfold HostLinkSt.release
  by_cases hp : SMap.get false l.pba v = true
  · rw [if_pos (by simp [hp, he, hu])]
    exact ⟨SMap.get_set_self _ _ _ _, fun _ => List.mem_cons_self⟩
  · rw [if_neg (by simp [hp])]
    exact ⟨by simpa using hp, fun h => absurd h hp⟩

theorem HostLinkSt.mem_sent_foldl_release (ks : List Nat) {l : HostLinkSt} {v : Nat} (h : v ∈ l.sent) :
    v ∈ (ks.foldl HostLinkSt.release l).sent :=
  List.foldlRecOn (motive := fun x : HostLinkSt => v ∈ x.sent) ks HostLinkSt.release h fun _ hx w _ => HostLinkSt.mem_sent_release hx w

theorem HostLinkSt.foldl_release_frame (ks : List Nat) (l : HostLinkSt) : ks.foldl HostLinkSt.release l =
    { l with sent := (ks.foldl HostLinkSt.release l).sent, pba := (ks.foldl HostLinkSt.release l).pba } := by
  refine List.foldlRecOn (motive := fun x : HostLinkSt => x = { l with sent := x.sent, pba := x.pba }) ks HostLinkSt.release rfl
    fun x hx w _ => ?_
  exact (x.release_frame w).trans (congrArg (fun y : HostLinkSt => { y with sent := (x.release w).sent, pba := (x.release w).pba }) hx)

/-- Of the vectors that take their turn, one that is enabled and unmasked no longer waits, and is sent when it did. -/
theorem HostLinkSt.foldl_release_enabled (ks : List Nat) {l : HostLinkSt} {v : Nat} (he : l.msixEnable = true)
    (hu : SMap.get false l.unmasked v = true) (hk : SMap.get false l.pba v = true → v ∈ ks) :
    SMap.get false (ks.foldl HostLinkSt.release l).pba v = false ∧
      (SMap.get false l.pba v = true → v ∈ (ks.foldl HostLinkSt.release l).sent) := by
  induction ks generalizing l with
  | nil =>
    have hfree : ¬ SMap.get false l.pba v = true := fun h => absurd (hk h) List.not_mem_nil
    exact ⟨by simpa using hfree, fun h => absurd h hfree⟩
  | cons k ks ih =>
    have he' : (l.release k).msixEnable = true := by rw [l.release_frame k]; exact he
    have hu' : SMap.get false (l.release k).unmasked v = true := by rw [l.release_frame k]; exact hu
    rw [List.foldl_cons]
    by_cases hkv : v = k
    · subst hkv
      obtain ⟨hpba, hsent⟩ := HostLinkSt.release_enabled he hu
      exact ⟨(ih he' hu' fun h => absurd (hpba.symm.trans h) (by decide)).1, fun h => HostLinkSt.mem_sent_foldl_release ks (hsent h)⟩
    · rw [← l.release_pba_ne hkv] at hk ⊢
      exact ih he' hu' fun h => List.mem_of_ne_of_mem hkv (hk h)

/-- What does not read as the default is listed. -/
theorem SMap.mem_keys_of_get_ne {α : Type} {d : α} {m : SMap α} {k : Nat} (h : SMap.get d m k ≠ d) : k ∈ m.map (·.1) := by
  induction m with
  | nil => exact absurd rfl h
  | cons e m ih =>
    obtain ⟨k', v⟩ := e
    unfold SMap.get at h
    split at h
    · exact absurd rfl h
    · split at h
      · next hk => exact hk ▸ List.mem_cons_self
      · exact List.mem_cons_of_mem _ (ih h)

theorem HostLinkSt.releaseAll_enabled {l : HostLinkSt} {v : Nat} (he : l.msixEnable = true) (hu : SMap.get false l.unmasked v = true) :
    SMap.get false l.releaseAll.pba v = false ∧ (SMap.get false l.pba v = true → v ∈ l.releaseAll.sent) :=
  HostLinkSt.foldl_release_enabled _ he hu fun h => SMap.mem_keys_of_get_ne (by rw [h]; decide)

/-! ### Events of the link (R463, R464, R466) -/

/-- The host link without what an event changes: the event FIFO, the interrupts that wait and those sent. -/
def HostLinkSt.steady (l : HostLinkSt) : HostLinkSt := { l with events := [], ovf := false, lost := 0, pba := [], sent := [] }

section
variable {l l' : HostLinkSt} (h : l.steady = l'.steady)
include h

theorem HostLinkSt.rate_of_steady : l.rate = l'.rate := (congrArg HostLinkSt.rate h :)
theorem HostLinkSt.mods_of_steady : l.mods = l'.mods := (congrArg HostLinkSt.mods h :)
theorem HostLinkSt.retrains_of_steady : l.retrains = l'.retrains := (congrArg HostLinkSt.retrains h :)
theorem HostLinkSt.mbLast_of_steady : l.mbLast = l'.mbLast := (congrArg HostLinkSt.mbLast h :)

end

@[simp] theorem HostLinkSt.msix_steady (l : HostLinkSt) (v : Nat) : (l.msix v).steady = l.steady := by
  unfold HostLinkSt.msix
  (repeat' split) <;> rfl

@[simp] theorem State.fifo_steady (s : State) (sev unit status : Nat) (stamp : Stamp) :
    (s.fifo sev unit status stamp).link.steady = s.link.steady := by
  unfold State.fifo
  split
  · exact HostLinkSt.msix_steady _ _
  · dsimp only
    split <;> rfl

/-- From `s` to `t` these events were raised, none of them of weight for the safety outputs or a record, and nothing else was done. -/
structure State.Logs (s t : State) (es : List (Nat × Nat × Nat)) : Prop where
  frame : t = { s with link := t.link, ash := t.ash }
  steady : t.link.steady = s.link.steady
  raised : s.raisedTo t es

theorem State.Logs.refl (s : State) : s.Logs s [] := ⟨rfl, rfl, State.raisedTo_nil rfl⟩

theorem State.Logs.trans {s t u : State} {e f : List (Nat × Nat × Nat)} (h : s.Logs t e) (g : t.Logs u f) : s.Logs u (e ++ f) :=
  ⟨g.frame.trans (congrArg (fun x : State => { x with link := u.link, ash := u.ash }) h.frame), g.steady.trans h.steady,
    State.raisedTo_trans h.raised g.raised⟩

theorem State.Logs.raise {sev : Nat} (hs : sevRequestsSafe sev = false) (hm : sevMarksNext sev = false) (s : State) (unit status : Nat) :
    s.Logs (s.raise sev unit status) [(sev, unit, status)] := by
  have hraise : s.raise sev unit status =
      (s.fifo sev unit status s.stamp).updAsh (fun a => a.logEvent s.mono s.stamp sev unit status []) := by
    simp [State.raise, State.raiseAt, hs, hm]
  refine ⟨?_, ?_, s.raisedTo_raise sev unit status⟩
  · rw [hraise, State.fifo_eq]
    rfl
  · rw [hraise]
    exact s.fifo_steady sev unit status s.stamp

theorem State.Logs.foldl_raise {sev : Nat} (hs : sevRequestsSafe sev = false) (hm : sevMarksNext sev = false) (unit : Nat → Nat)
    (status : Nat) (l : List Nat) (s : State) :
    s.Logs (l.foldl (fun acc m => acc.raise sev (unit m) status) s) (l.map fun m => (sev, unit m, status)) := by
  induction l generalizing s with
  | nil => exact .refl s
  | cons m l ih => exact (State.Logs.raise hs hm s (unit m) status).trans (ih _)

/-! ### UCIe modules (R465, R466) -/

/-- The link with the registers that a training or a retrain sets. -/
def State.withModules (s : State) (rate mods status : Nat) : State :=
  s.updLink (fun l => { l with rate := BitVec.ofNat 4 rate, mods := BitVec.ofNat 4 mods, trainStatus := BitVec.ofNat 8 status })

/-- A link with a module up raises SEV-302 for each module lost, then SEV-303 for less rate or width. -/
theorem State.linkState_up {mods : Nat} (h : (bit mods 0 || bit mods 2) = true) (s : State) (rate : Nat) (lost : List Nat) (dropped : Bool)
    (status : Nat) : (s.withModules rate mods status).Logs (s.linkState rate mods lost dropped status)
      (lost.map (fun m => (302, dieOfModule m, status)) ++ if dropped then [(303, 0xFF, 0)] else []) := by
  unfold State.linkState
  simp only [h, Bool.not_true, Bool.false_eq_true, if_false, if_true]
  refine (State.Logs.foldl_raise (by decide) (by decide) dieOfModule status lost _).trans ?_
  split
  · exact .raise (by decide) (by decide) _ _ _
  · exact .refl _

/-- A link with no module up raises SEV-301, and its configuration space is reset. -/
theorem State.linkState_down {mods : Nat} (h : (bit mods 0 || bit mods 2) = false) (s : State) (rate : Nat) (lost : List Nat) (dropped : Bool)
    (status : Nat) : ∃ u : State, s.linkState rate mods lost dropped status = u.configReset ∧
      (s.withModules 0 mods status).Logs u [(301, 0xFF, status)] := by
  unfold State.linkState
  simp only [h, Bool.not_false, Bool.false_eq_true, if_false, if_true]
  exact ⟨_, rfl, .raise (by decide) (by decide) _ _ _⟩

/-- The modules that a training lost, and what it raises for them. -/
theorem trained_losses (a b : Bool) :
    let lost := (if a then [] else [0]) ++ (if b then [] else [1])
    lost.map (fun m => (302, dieOfModule m, if lost = [] then 0 else 0x98)) =
      (if a then [] else [(302, 0, 0x98)]) ++ (if b then [] else [(302, 2, 0x98)]) := by
  cases a <;> cases b <;> rfl

theorem modsOf_up (a x b y : Bool) : (bit (modsOf a x b y) 0 || bit (modsOf a x b y) 2) = (a || b) := by
  revert a x b y
  decide

theorem State.ucieTrained_eq {s : State} (hheld : s.boot ≠ .held) (htest : s.boot ≠ .testMode) {rate : Nat} (h1 : 1 ≤ rate) (h6 : rate ≤ 6)
    (a x b y : Bool) :
    let lost := (if a then [] else [0]) ++ (if b then [] else [1])
    s.ucieTrained a x b y rate = s.linkState rate (modsOf a x b y) lost ((a && x) || (b && y) || decide (rate < s.link.rate.toNat))
      (if lost = [] then 0 else 0x98) := by
  refine if_neg ?_
  rintro (h | h | ⟨-, h⟩)
  · exact hheld h
  · exact htest h
  · omega

/-- A training in which a module comes up. -/
theorem State.ucieTrained_up {s : State} (hheld : s.boot ≠ .held) (htest : s.boot ≠ .testMode) {rate : Nat} (h1 : 1 ≤ rate) (h6 : rate ≤ 6)
    {a b : Bool} (hab : (a || b) = true) (x y : Bool) :
    ∃ status : Nat, (s.withModules rate (modsOf a x b y) status).Logs (s.ucieTrained a x b y rate)
      ((if a then [] else [(302, 0, 0x98)]) ++ (if b then [] else [(302, 2, 0x98)]) ++
        (if (a && x) || (b && y) || decide (rate < s.link.rate.toNat) then [(303, 0xFF, 0)] else [])) := by
  rw [State.ucieTrained_eq hheld htest h1 h6, ← trained_losses]
  exact ⟨_, State.linkState_up ((modsOf_up a x b y).trans hab) s rate _ _ _⟩

/-- A training in which no module comes up. -/
theorem State.ucieTrained_down {s : State} (hheld : s.boot ≠ .held) (htest : s.boot ≠ .testMode) {rate : Nat} (h1 : 1 ≤ rate) (h6 : rate ≤ 6)
    (x y : Bool) : ∃ u : State, s.ucieTrained false x false y rate = u.configReset ∧
      (s.withModules 0 (modsOf false x false y) 0x98).Logs u [(301, 0xFF, 0x98)] := by
  rw [State.ucieTrained_eq hheld htest h1 h6]
  exact State.linkState_down (modsOf_up false x false y) s rate _ _ 0x98

/-- The registers of the link after a training or a retrain. -/
theorem State.Logs.modules {s t : State} {rate mods status : Nat} {es : List (Nat × Nat × Nat)}
    (h : (s.withModules rate mods status).Logs t es) :
    t.link.rate = BitVec.ofNat 4 rate ∧ t.link.mods = BitVec.ofNat 4 mods ∧ t.link.retrains = s.link.retrains :=
  ⟨HostLinkSt.rate_of_steady h.steady, HostLinkSt.mods_of_steady h.steady, (HostLinkSt.retrains_of_steady h.steady :)⟩

/-- What was raised after updates of the link that touch no event. -/
theorem State.Logs.raised_after {s s1 t : State} {rate mods status : Nat} {es : List (Nat × Nat × Nat)}
    (h : (s1.withModules rate mods status).Logs t es) (hev : s1.link.events = s.link.events) : s.raisedTo t es :=
  State.raisedTo_of_events h.raised hev rfl

theorem State.Logs.frame_withModules {s t : State} {rate mods status : Nat} {es : List (Nat × Nat × Nat)}
    (h : (s.withModules rate mods status).Logs t es) : t = { s with link := t.link, ash := t.ash } := h.frame

/-- MODS after a module has retrained: the other module's bits, and its own with its width. -/
def retrainedMods (mods m : Nat) (x8 : Bool) : Nat := (if m = 0 then mods / 4 * 4 else mods % 4) + (1 + atBit x8 1) * 4 ^ m

theorem bit_retrainedMods (w : BitVec 4) {m : Nat} (hm : m < 2) (x8 : Bool) :
    (bit (retrainedMods w.toNat m x8) 0 || bit (retrainedMods w.toNat m x8) 2) = true ∧
      bit (BitVec.ofNat 4 (retrainedMods w.toNat m x8)).toNat (2 * m) = true ∧
      bit (BitVec.ofNat 4 (retrainedMods w.toNat m x8)).toNat (2 * m + 1) = x8 := by
  revert w x8
  interval_cases m <;> decide

/-- MODS after a module has gone down: the other module's bits. -/
def remainingMods (mods m : Nat) : Nat := if m = 0 then mods / 4 * 4 else mods % 4

theorem bit_remainingMods (w : BitVec 4) {m : Nat} (hm : m < 2) :
    (bit (remainingMods w.toNat m) 0 || bit (remainingMods w.toNat m) 2) = bit w.toNat (2 * (1 - m)) ∧
      bit (BitVec.ofNat 4 (remainingMods w.toNat m)).toNat (2 * m) = false := by
  revert w
  interval_cases m <;> decide

/-- A module that was up has retrained. -/
theorem State.moduleDown_retrained {s : State} {m rate : Nat} (hm : m < 2) (hup : bit s.link.mods.toNat (2 * m) = true) (h1 : 1 ≤ rate)
    (h6 : rate ≤ 6) (x8 : Bool) :
    ((s.updLink (fun l => { l with retrains := satInc l.retrains })).withModules rate (retrainedMods s.link.mods.toNat m x8) 0).Logs
      (s.moduleDown m true x8 rate)
      (if (x8 = true ∧ bit s.link.mods.toNat (2 * m + 1) = false) ∨ rate < s.link.rate.toNat then [(303, 0xFF, 0)] else []) := by
  have hlogs := State.linkState_up (bit_retrainedMods s.link.mods hm x8).1 (s.updLink (fun l => { l with retrains := satInc l.retrains }))
    rate [] ((x8 && !(bit s.link.mods.toNat (2 * m + 1))) || decide (rate < s.link.rate.toNat)) 0
  have hrun : s.moduleDown m true x8 rate = (s.updLink (fun l => { l with retrains := satInc l.retrains })).linkState rate
      (retrainedMods s.link.mods.toNat m x8) [] ((x8 && !(bit s.link.mods.toNat (2 * m + 1))) || decide (rate < s.link.rate.toNat)) 0 := by
    refine (if_neg ?_).trans (if_pos rfl)
    rintro (h | h | ⟨-, h⟩)
    · omega
    · simp [hup] at h
    · omega
  rw [hrun]
  simpa using hlogs

/-- A module that was up has failed to retrain. -/
theorem State.moduleDown_failed {s : State} {m : Nat} (hm : m < 2) (hup : bit s.link.mods.toNat (2 * m) = true) (rate : Nat) (x8 : Bool) :
    s.moduleDown m false x8 rate = (s.updLink (fun l => { l with retrains := satInc l.retrains })).linkState s.link.rate.toNat
      (remainingMods s.link.mods.toNat m) [m] false 0x98 := by
  refine (if_neg ?_).trans (if_neg (by decide))
  rintro (h | h | ⟨h, -⟩)
  · omega
  · simp [hup] at h
  · exact absurd h (by decide)

/-! ### MB_TX (R480) -/

/-- The state in which MB_TX looks at its message: word 15 holds what was written. -/
def State.withMbWord (s : State) (w : Word) : State := s.updLink (fun l => { l with mbTx := SMap.set 0 l.mbTx 15 w })

theorem State.mbSend_eq (s : State) (w : Word) :
    let u := s.withMbWord w
    let m := Mgmt.parse u.link.mbMessage
    s.mbSend w = if u.mbBusy ∨ !(mgmtOk u.link.mbMessage) ∨ m.type = 16 then u.refuseMsg
      else if (u.updLink (fun l => { l with mbLast := 0 })).mgmtHere m then
        (u.updLink (fun l => { l with mbLast := 0 })).handleMgmt 0 u.link.mbMessage
      else (u.updLink (fun l => { l with mbLast := 0 })).mgmtOnward 0 0 m := rfl

/-- A malformed message is refused with 0x96 and SEV-311. -/
theorem State.mbSend_malformed {s : State} {w : Word} (h : mgmtOk (s.withMbWord w).link.mbMessage = false) :
    (s.mbSend w).link.mbLast = 0x96 ∧ s.raisedTo (s.mbSend w) [(311, 0xFF, 0x96)] := by
  have hlogs := State.Logs.raise (sev := 311) (by decide) (by decide) ((s.withMbWord w).updLink (fun l => { l with mbLast := 0x96 })) 0xFF 0x96
  rw [State.mbSend_eq, if_pos (by simp [h]), State.refuseMsg]
  exact ⟨HostLinkSt.mbLast_of_steady hlogs.steady, State.raisedTo_of_events hlogs.raised rfl rfl⟩

theorem State.mgmtHere_path {m : Mgmt} (hdst : m.dst = 0x80) (hhops : m.hops ≠ 0) (s : State) : s.mgmtHere m = false := by
  rw [State.mgmtHere, if_pos hdst]
  exact beq_eq_false_iff_ne.mpr hhops

theorem State.mgmtOnward_path {m : Mgmt} (hdst : m.dst = 0x80) (hhops : m.hops ≠ 0) (s : State) (die vl : Nat) :
    s.mgmtOnward die vl m = s.mgmtThrough (m.path % 4) 0 vl { m with hops := m.hops - 1, path := m.path / 4 }.bytes := by
  rw [State.mgmtOnward, if_pos hdst, if_neg hhops]
  rfl

/-- A well-formed message by path leaves through the first port of its path. -/
theorem State.mbSend_path {s : State} {w : Word} (hok : mgmtOk (s.withMbWord w).link.mbMessage = true) (hbusy : s.mbBusy = false)
    {m : Mgmt} (hm : Mgmt.parse (s.withMbWord w).link.mbMessage = m) (htype : m.type ≠ 16) (hdst : m.dst = 0x80) (hhops : m.hops ≠ 0) :
    s.mbSend w = ((s.withMbWord w).updLink (fun l => { l with mbLast := 0 })).mgmtThrough (m.path % 4) 0 0
      { m with hops := m.hops - 1, path := m.path / 4 }.bytes := by
  have hfree : (s.withMbWord w).mbBusy = false := hbusy
  rw [State.mbSend_eq, hm, if_neg (by simp [hok, hfree, htype]), State.mgmtHere_path hdst hhops, if_neg (by decide),
    State.mgmtOnward_path hdst hhops]

/-- A message through a port that is up, of a die that has power and is not in reset. -/
theorem State.mgmtThrough_up {s : State} {p : Nat} (hup : (s.port p).up = true) (hd : s.dieDown p = false) (dst vl : Nat) (b : List Byte) :
    s.mgmtThrough p dst vl b = s.queueAt p { mgmtPacket dst vl b with src := s.chip } :=
  if_pos (by simp [hup, hd])

/-! ### The statement -/

/-- Settles O56: each command is followed to the registers and the events that it leaves; the vectors that wait leave one by one, and
those of the modules that are not up are told by the bits of MODS. -/
theorem hostLinkCommands : Obligations.HostLinkCommands := by
  unfold Obligations.HostLinkCommands
  refine ⟨?slots, ?write, fun s => rfl, fun s => rfl, ?mbTx, ?training, ?module, fun s => rfl, ?unmask⟩
  case slots =>
    intro s k hs
    exact ⟨fun h0 h6 ha => congrArg Host.Outcome.next (State.flashOpen_opens hs h0 h6 ha),
      fun h => congrArg Host.Outcome.next (State.flashOpen_refused hs h), congrArg Host.Outcome.next (State.flashClose_served hs)⟩
  case write =>
    intro s off bs hs ho hn r
    refine ⟨fun hlo hhi => ?_, fun h => congrArg Host.Outcome.next (State.flashWrite_outside hn h)⟩
    obtain ⟨fl, er, herase⟩ := State.eraseSectors_eq (sectorsOf off bs.length) s
    refine ⟨_, congrArg Host.Outcome.next (State.flashWrite_inside hs ho hn hlo hhi), fun i hi => State.flashPut_byte _ _ _ hi, ?_⟩
    rw [herase]
    rfl
  case mbTx =>
    intro s w l m
    refine ⟨fun hbad => ?_, fun hok hbusy htype hdst hhops hup hdown => ?_⟩
    · obtain ⟨hlast, hraised⟩ := State.mbSend_malformed (s := s) (w := w) hbad
      exact ⟨_, rfl, hlast, hraised⟩
    · intro x y k
      have hsend := State.mbSend_path (s := s) (w := w) (m := m) hok hbusy rfl htype hdst hhops
      rw [State.mgmtThrough_up (by exact hup) (by exact hdown)] at hsend
      exact ⟨_, congrArg Host.Outcome.next hsend, rfl, State.updPort_port_self _ _ _⟩
  case training =>
    intro s a x b y rate hheld htest h1 h6
    cases hab : a || b with
    | true =>
      obtain ⟨status, hlogs⟩ := State.ucieTrained_up hheld htest h1 h6 hab x y
      obtain ⟨hrate, hmods, -⟩ := hlogs.modules
      exact ⟨_, rfl, hmods, hrate, hlogs.raised_after rfl, hlogs.frame_withModules⟩
    | false =>
      obtain ⟨rfl, rfl⟩ := Bool.or_eq_false_iff.mp hab
      obtain ⟨u, hrun, hlogs⟩ := State.ucieTrained_down hheld htest h1 h6 x y
      obtain ⟨hrate, hmods, -⟩ := hlogs.modules
      refine ⟨_, congrArg Host.Outcome.next hrun, hmods, hrate, State.raisedTo_of_events (hlogs.raised_after rfl) rfl rfl, ?_⟩
      exact congrArg State.configReset hlogs.frame_withModules
  case module =>
    intro s m rate x8 hm hup h1 h6
    constructor
    · have hlogs := State.moduleDown_retrained hm hup h1 h6 x8
      obtain ⟨hrate, hmods, hretrains⟩ := hlogs.modules
      obtain ⟨-, hself, hwidth⟩ := bit_retrainedMods s.link.mods hm x8
      exact ⟨_, rfl, hretrains, hrate, by rw [hmods, hself], by rw [hmods, hwidth], hlogs.raised_after rfl⟩
    · have hrun := State.moduleDown_failed hm hup rate x8
      obtain ⟨hother, hself⟩ := bit_remainingMods s.link.mods hm
      cases hb : bit s.link.mods.toNat (2 * (1 - m)) with
      | true =>
        have hlogs := State.linkState_up (hother.trans hb) (s.updLink (fun l => { l with retrains := satInc l.retrains }))
          s.link.rate.toNat [m] false 0x98
        rw [← hrun] at hlogs
        obtain ⟨-, hmods, hretrains⟩ := hlogs.modules
        exact ⟨_, rfl, hretrains, by rw [hmods, hself], hlogs.raised_after rfl⟩
      | false =>
        obtain ⟨u, hdown, hlogs⟩ := State.linkState_down (hother.trans hb) (s.updLink (fun l => { l with retrains := satInc l.retrains }))
          s.link.rate.toNat [m] false 0x98
        obtain ⟨-, hmods, hretrains⟩ := hlogs.modules
        have hbit : bit u.configReset.link.mods.toNat (2 * m) = false := by
          rw [show u.configReset.link.mods = _ from hmods, hself]
        exact ⟨_, congrArg Host.Outcome.next (hrun.trans hdown), hretrains, hbit, State.raisedTo_of_events (hlogs.raised_after rfl) rfl rfl⟩
  case unmask =>
    intro s v hv
    let l : HostLinkSt := { s.link with
      msixEnable := true, unmasked := if v < 2048 then SMap.set false s.link.unmasked v true else s.link.unmasked }
    have hu : SMap.get false l.unmasked v = true := by simp [l, hv]
    have hkept := HostLinkSt.foldl_release_frame (l.pba.map (·.1)) l
    obtain ⟨hpba, hsent⟩ := HostLinkSt.releaseAll_enabled (l := l) rfl hu
    exact ⟨_, rfl, congrArg HostLinkSt.msixEnable hkept, (congrArg (fun x => SMap.get false x.unmasked v) hkept).trans hu, hpba, hsent, rfl⟩

end Sys2Proof.Machine
end

section
/-! PROOFS of the family of 18_host_and_lattice_links.md: the Lattice ports, from training to going down (R471 to R475, R478, R479, R481,
R483). -/

namespace Sys2Proof.Machine

/-- A die is down by its recovery state and its power. -/
theorem State.dieDown_of_power {s t : State} (h : t.power = s.power) (d : Nat) : t.dieDown d = s.dieDown d := by
  have hdie := State.power_die h d
  unfold State.dieDown
  rw [show (t.die d).u = (s.die d).u from congrArg DiePower.u hdie, show (t.die d).pgood = (s.die d).pgood from congrArg DiePower.pgood hdie]

theorem State.portLive_iff {s : State} {p : Nat} : s.portLive p = true ↔ p < 4 ∧ s.dieDown p = false := by
  simp [State.portLive]

/-! ### The flits of a packet (R473 to R475) -/

/-- A port with nothing to send sends nothing. -/
theorem PortSt.pumpPackets_nothing {x : PortSt} (hw : x.txWait = []) (ho : x.txOpen = none) (n : Nat) : x.pumpPackets n = x := by
  have hnext : x.nextPacket = none := by simp [PortSt.nextPacket, hw]
  cases n with
  | zero => rfl
  | succ n =>
    unfold PortSt.pumpPackets
    rw [ho, hnext]

theorem PortSt.pumpPackets_next {x : PortSt} {k : Nat × List (List Byte)} (ho : x.txOpen = none) (hk : x.nextPacket = some k) (n : Nat) :
    x.pumpPackets (n + 1) = PortSt.pumpPackets n { x with txOpen := some k, txWait := x.txWait.erase k } := by
  rw [PortSt.pumpPackets, ho, hk]

theorem PortSt.pumpPackets_sent {x y : PortSt} {vc : Nat} {l : List (List Byte)} (ho : x.txOpen = some (vc, l))
    (hs : PortSt.sendOpen vc l x = y) (hy : y.txOpen = none) (n : Nat) : x.pumpPackets (n + 1) = y.pumpPackets n := by
  rw [PortSt.pumpPackets, ho]
  dsimp only
  rw [hs, hy]
  rfl

/-- A packet of one flit that may leave is the next to be sent, and leaves. -/
theorem PortSt.pumpPackets_single {x : PortSt} {b : List Byte} (hw : x.txWait = [(0, [b])]) (ho : x.txOpen = none)
    (hm : x.mayFlit 0 = true) (n : Nat) :
    x.pumpPackets (n + 2) = { PortSt.sendFlit { x with txOpen := some (0, [b]), txWait := [] } 0 b with txOpen := none } := by
  have hnext : x.nextPacket = some (0, [b]) := by simp [PortSt.nextPacket, List.range_succ_eq_map, hw, hm]
  have hsend : PortSt.sendOpen 0 [b] { x with txOpen := some (0, [b]), txWait := [] } =
      { PortSt.sendFlit { x with txOpen := some (0, [b]), txWait := [] } 0 b with txOpen := none } := if_pos hm
  rw [PortSt.pumpPackets_next ho hnext, hw, List.erase_cons_head, PortSt.pumpPackets_sent rfl hsend rfl]
  exact PortSt.pumpPackets_nothing rfl rfl n

theorem chunks_short {l : List Byte} {n : Nat} (h0 : l ≠ []) (hn : l.length ≤ n) : chunks n l = [l] := by
  obtain ⟨b, t, rfl⟩ := List.exists_cons_of_ne_nil h0
  unfold chunks
  rw [List.length_cons, chunksAux, List.take_of_length_le hn, List.drop_of_length_le hn]
  · cases t.length <;> rfl
  · exact h0

theorem length_mgmtBytes (m : Mgmt) : m.bytes.length = 64 := by
  simp [Mgmt.bytes, length_leBytes, length_slice, zeros]

theorem length_packetBytes (k : Packet) : k.bytes.length = 16 + k.data.length := by
  simp [Packet.bytes, length_leBytes]
  omega

/-- A management packet on the first lane of an idle port with credits leaves as one flit. -/
theorem PortSt.queuePacket_management {x : PortSt} (hw : x.txWait = []) (ho : x.txOpen = none) (hm : x.mayFlit 0 = true) {k : Packet}
    (hc : k.cls = 0) (hv : k.vl = 0) (hlen : k.data.length ≤ 224) :
    x.queuePacket k = { PortSt.sendFlit { x with txOpen := some (0, [slice k.bytes 0 240]), txWait := [] } 0 (slice k.bytes 0 240)
      with txOpen := none } := by
  have hbytes : chunks 240 k.bytes = [k.bytes] := by
    have hl := length_packetBytes k
    refine chunks_short (fun h => ?_) (by omega)
    rw [h, List.length_nil] at hl
    omega
  unfold PortSt.queuePacket PortSt.pump
  rw [hbytes, hw, hc, hv]
  exact PortSt.pumpPackets_single (x := { x with txWait := [(0, [slice k.bytes 0 240])] }) rfl ho hm _

/-! ### Training (R471, R472) -/

/-- A port that has trained: four lanes or all, and fresh numbers and credits (R472). -/
def PortSt.trained (x : PortSt) (fourLanes : Bool) (now : Instant) : PortSt :=
  { x with
    state := if fourLanes then 3 else 2, trainStatus := 0, txSeq := 0, rxSeq := 0, rxAny := false, replayBuf := [], noProgress := 0
    crUsed := [], crOwed := [], txWait := [], txOpen := none, partialRx := [], heardAt := now }

theorem PortSt.trained_up (x : PortSt) (four : Bool) (now : Instant) : (x.trained four now).up = true := by
  cases four <;> rfl

/-- The state in which a port has come up, with SEV-308 for four lanes (R471), before HELLO. -/
def State.cameUp (s : State) (p : Nat) (four : Bool) : State :=
  if four then (s.updPort p (fun x => x.trained four s.mono)).raise 308 p 0 else s.updPort p (fun x => x.trained four s.mono)

theorem State.cameUp_port (s : State) (p : Nat) (four : Bool) : (s.cameUp p four).port p = (s.port p).trained four s.mono := by
  unfold State.cameUp
  split
  · rw [State.raise_port, State.updPort_port_self]
  · rw [State.updPort_port_self]

theorem State.cameUp_dieDown (s : State) (p : Nat) (four : Bool) (d : Nat) : (s.cameUp p four).dieDown d = s.dieDown d := by
  refine State.dieDown_of_power ?_ d
  unfold State.cameUp
  split <;> simp

theorem State.raisedTo_cameUp (s : State) (p : Nat) (four : Bool) : s.raisedTo (s.cameUp p four) (if four then [(308, p, 0)] else []) := by
  unfold State.cameUp
  split
  · exact State.raisedTo_raise_of_link (State.updPort_link _ _ _) _ _ _
  · exact State.raisedTo_nil (State.updPort_link _ _ _)

theorem State.portTrained_trains {s : State} {p : Nat} (hlive : s.portLive p = true) (hup : (s.port p).up = false) (four : Bool) :
    s.portTrained p true four = (s.cameUp p four).sendHello p := by
  refine (if_neg ?_).trans (if_neg (by decide))
  simp [hlive, hup]

theorem State.portTrained_fails {s : State} {p : Nat} (hlive : s.portLive p = true) (hup : (s.port p).up = false) (four : Bool) :
    s.portTrained p false four = s.updPort p (fun x => { x with state := 0, trainStatus := 0x97 }) := by
  refine (if_neg ?_).trans (if_pos rfl)
  simp [hlive, hup]

/-- The packet of the HELLO that a port sends. -/
def State.helloPacket (s : State) (p : Nat) : Packet :=
  { mgmtPacket 0 0 (s.stampMgmt { type := 1, dst := 0x80, body := deviceId.take 32 ++ leBytes 1 p ++ leBytes 1 s.chip }).2.bytes with
    src := s.chip }

theorem State.sendHello_up {s : State} {p : Nat} (hup : (s.port p).up = true) (hd : s.dieDown p = false) :
    s.sendHello p = (s.updLat (fun l => { l with mgmtSeq := l.mgmtSeq + 1 })).queueAt p (s.helloPacket p) :=
  State.mgmtThrough_up (s := s.updLat (fun l => { l with mgmtSeq := l.mgmtSeq + 1 })) hup hd 0 0 _

/-- What a port that has trained holds once its HELLO has left. -/
theorem PortSt.trained_hello (x : PortSt) (four : Bool) (now heard : Instant) {k : Packet} (hc : k.cls = 0) (hv : k.vl = 0)
    (hlen : k.data.length ≤ 224) :
    let z := PortSt.queuePacket { x.trained four now with heardAt := heard } k
    z.state = (if four then 3 else 2) ∧ z.txSeq = 1 ∧ z.rxSeq = 0 ∧ z.replayBuf.length = 1 ∧ z.outbox.length = x.outbox.length + 1 := by
  intro z
  have hz : z = _ := PortSt.queuePacket_management (x := { x.trained four now with heardAt := heard }) rfl rfl rfl hc hv hlen
  rw [hz]
  exact ⟨rfl, rfl, rfl, rfl, List.length_append⟩

theorem State.sendHello_port {s : State} {p : Nat} (hup : (s.port p).up = true) (hd : s.dieDown p = false) : ∃ heard : Instant,
    (s.sendHello p).port p = PortSt.queuePacket { s.port p with heardAt := heard } (s.helloPacket p) := by
  rw [State.sendHello_up hup hd, State.queueAt, State.updPort_port_self]
  exact ⟨_, rfl⟩

theorem State.length_helloPacket (s : State) (p : Nat) : (s.helloPacket p).data.length = 64 := length_mgmtBytes _

@[simp] theorem State.mgmtThrough_link (s : State) (p dst vl : Nat) (b : List Byte) : (s.mgmtThrough p dst vl b).link = s.link := by
  unfold State.mgmtThrough
  split <;> rfl

theorem State.sendHello_link (s : State) (p : Nat) : (s.sendHello p).link = s.link := State.mgmtThrough_link _ _ _ _ _

/-! ### Flits that arrive (R473 to R475) -/

/-- What the header of a good flit brings a port: an acknowledgement and credits. -/
def PortSt.takeHeader (x : PortSt) (now : Instant) (h : Nat) : PortSt := ((x.takeAck h).takeCredits h).heard now h

theorem PortSt.takeHeader_eq (x : PortSt) (now : Instant) (h : Nat) : ∃ (b : List (List Byte)) (n : Nat) (c : SMap Nat) (t : Instant),
    x.takeHeader now h = { x with replayBuf := b, noProgress := n, crUsed := c, heardAt := t } := by
  unfold PortSt.takeHeader PortSt.takeAck
  dsimp only
  (repeat' split) <;> exact ⟨_, _, _, _, rfl⟩

/-- A port with nothing to send sends nothing for the credits of a header. -/
theorem PortSt.pump_takeHeader {x : PortSt} (hw : x.txWait = []) (ho : x.txOpen = none) (now : Instant) (h : Nat) :
    ∃ (b : List (List Byte)) (n : Nat) (c : SMap Nat) (t : Instant),
      (x.takeHeader now h).pump = { x with replayBuf := b, noProgress := n, crUsed := c, heardAt := t } := by
  obtain ⟨b, n, c, t, hheader⟩ := x.takeHeader_eq now h
  refine ⟨b, n, c, t, ?_⟩
  rw [hheader]
  refine PortSt.pumpPackets_nothing ?_ ?_ _
  · exact hw
  · exact ho

theorem State.flitReceive_bad {s : State} {p : Nat} {f : List Byte} (hlive : s.portLive p = true) (hup : (s.port p).up = true)
    (hlen : f.length = 256) (hcrc : leAt f 248 8 ≠ crc 5 (f.take 248)) : s.flitReceive p f = s.updPort p (fun x => x.sendIdle true) := by
  rw [State.flitReceive, if_neg (by simp [hlive, hup, hlen]), if_pos hcrc]

/-- A good flit that is no NAK: its header is taken, and its payload when it has one. -/
theorem State.flitReceive_good {s : State} {p : Nat} {f : List Byte} (hlive : s.portLive p = true) (hup : (s.port p).up = true)
    (hlen : f.length = 256) (hcrc : leAt f 248 8 = crc 5 (f.take 248)) (hnak : bit (flitHeader f) 25 = false) :
    s.flitReceive p f = if bit (flitHeader f) 26 then s.updPort p (fun x => (x.takeHeader s.mono (flitHeader f)).pump)
      else (s.updPort p (fun x => (x.takeHeader s.mono (flitHeader f)).pump)).payloadFlit p (flitHeader f) f := by
  rw [State.flitReceive, if_neg (by simp [hlive, hup, hlen]), if_neg (not_not_intro hcrc)]
  simp only [hnak, Bool.false_eq_true, if_false]
  rfl

/-- A payload flit with the number that is due, which is a whole packet. -/
theorem State.payloadFlit_whole {s : State} {p h : Nat} {f : List Byte} (hseq : fld h 11 0 = (s.port p).rxSeq.toNat)
    (hpart : (s.port p).partialRx = []) (hone : flitsOf (leAt (slice f 8 240) 6 2) = 1) :
    s.payloadFlit p h f = (((s.updPort p (fun x => x.takePayload f)).updPort p (fun x => { x with partialRx := [] })).arrivePacket p
      (Packet.parse (slice f 8 240))).updPort p (fun x => x.sendIdle false) := by
  have hlen := length_slice f 8 240
  have hb : ((s.port p).takePayload f).partialRx = slice f 8 240 := by
    rw [PortSt.takePayload, hpart]
    rfl
  have hwhole : ((s.port p).takePayload f).wholePacket = some (Packet.parse (slice f 8 240)) := by
    rw [PortSt.wholePacket, hb, if_pos ⟨fun h => by simp [h] at hlen, by omega⟩]
  unfold State.payloadFlit
  dsimp only
  rw [if_pos hseq, State.updPort_port_self, hwhole]

theorem PortSt.takePayload_eq (x : PortSt) (f : List Byte) : ∃ (b : List Byte) (c : SMap Nat),
    x.takePayload f = { x with rxSeq := x.rxSeq + 1, rxAny := true, partialRx := b, crOwed := c } := ⟨_, _, rfl⟩

theorem PortSt.settleTransit_eq (x : PortSt) (k : Packet) : ∃ l : List (Nat × Packet), x.settleTransit k = { x with transit := l } := by
  unfold PortSt.settleTransit
  split <;> exact ⟨_, rfl⟩

/-- A data packet for this chip goes to the inbox of its port. -/
theorem State.arrivePacket_here {s : State} {k : Packet} (hn : s.lat.numbered = true) (hk : k.kind ∈ [1, 2, 3, 4]) (hdst : k.dst = s.chip)
    (p : Nat) : s.arrivePacket p k = (s.updPort p (fun x => x.settleTransit k)).updPort p (fun x => { x with inbox := x.inbox ++ [k] }) := by
  have hdata : s.arrivePacket p k = s.arriveData p k := by
    unfold State.arrivePacket
    simp only [List.mem_cons, List.not_mem_nil, or_false] at hk
    rcases hk with hk | hk | hk | hk <;> rw [hk] <;> rfl
  rw [hdata, State.arriveData, if_neg (by simp [hn]), if_pos (by exact hdst)]

/-- What a port keeps of a payload flit that was a whole data packet, and the acknowledgement that it sends. -/
def PortSt.takeWhole (x : PortSt) (f : List Byte) (k : Packet) : PortSt :=
  let y := PortSt.settleTransit { x.takePayload f with partialRx := [] } k
  PortSt.sendIdle { y with inbox := y.inbox ++ [k] } false

theorem PortSt.takeWhole_eq (x : PortSt) (f : List Byte) (k : Packet) : ∃ (b : List Byte) (c : SMap Nat) (l : List (Nat × Packet)),
    x.takeWhole f k = { x with
      rxSeq := x.rxSeq + 1, rxAny := true, partialRx := [], crOwed := c, transit := l, inbox := x.inbox ++ [k], outbox := x.outbox ++ [b] } := by
  obtain ⟨b, c, htake⟩ := x.takePayload_eq f
  obtain ⟨l, hsettle⟩ := PortSt.settleTransit_eq { x.takePayload f with partialRx := [] } k
  unfold PortSt.takeWhole
  rw [hsettle, htake]
  exact ⟨_, _, _, rfl⟩

/-- A further update of a port keeps what ports have nothing to do with. -/
theorem State.updPort_frame {s t : State} (h : t = { s with dies := t.dies }) (p : Nat) (f : PortSt → PortSt) :
    t.updPort p f = { s with dies := (t.updPort p f).dies } :=
  congrArg (fun x : State => { x with dies := (t.updPort p f).dies }) h

/-- The single payload flit of a data packet for this chip. -/
theorem State.payloadFlit_here {s : State} {p h : Nat} {f : List Byte} (hseq : fld h 11 0 = (s.port p).rxSeq.toNat)
    (hpart : (s.port p).partialRx = []) (hone : flitsOf (leAt (slice f 8 240) 6 2) = 1) (hn : s.lat.numbered = true)
    {k : Packet} (hparse : Packet.parse (slice f 8 240) = k) (hk : k.kind ∈ [1, 2, 3, 4]) (hdst : k.dst = s.chip) :
    (s.payloadFlit p h f).port p = (s.port p).takeWhole f k ∧ s.payloadFlit p h f = { s with dies := (s.payloadFlit p h f).dies } := by
  have harrive := State.arrivePacket_here (s := (s.updPort p (fun x => x.takePayload f)).updPort p (fun x => { x with partialRx := [] }))
    hn hk hdst p
  rw [State.payloadFlit_whole hseq hpart hone, hparse, harrive]
  refine ⟨by simp only [State.updPort_port_self]; rfl, ?_⟩
  exact State.updPort_frame (State.updPort_frame (State.updPort_frame (State.updPort_frame (State.updPort_frame rfl _ _) _ _) _ _) _ _) _ _

/-! ### Replay and retrain (R474) -/

/-- A replay is counted. -/
def PortSt.countReplay (x : PortSt) : PortSt := { x with replays := satInc x.replays, noProgress := x.noProgress + 1 }

/-- What is not acknowledged leaves again. -/
def PortSt.resend (x : PortSt) : PortSt := { x with outbox := x.outbox ++ x.replayBuf }

theorem State.replayPort_eq (s : State) (p : Nat) : s.replayPort p = (if 3 ≤ (s.port p).noProgress + 1
    then (s.updPort p PortSt.countReplay).retrainPort p else s.updPort p PortSt.countReplay).updPort p PortSt.resend := by
  have hcount : ((s.updPort p PortSt.countReplay).port p).noProgress = (s.port p).noProgress + 1 := by
    rw [State.updPort_port_self, PortSt.countReplay]
  rw [← hcount]
  rfl

theorem State.retrainPort_port (s : State) (p : Nat) :
    (s.retrainPort p).port p = { s.port p with retrains := satInc (s.port p).retrains, noProgress := 0 } := by
  rw [State.retrainPort, State.raise_port, State.updPort_port_self]

/-- The first and the second replay without progress send again what is not acknowledged. -/
theorem State.replayPort_port {s : State} {p : Nat} (h : (s.port p).noProgress < 2) :
    (s.replayPort p).port p = (s.port p).countReplay.resend := by
  rw [State.replayPort_eq, if_neg (by omega), State.updPort_port_self, State.updPort_port_self]

/-- The third retrains the port first. -/
theorem State.replayPort_port_third {s : State} {p : Nat} (h : (s.port p).noProgress = 2) : (s.replayPort p).port p =
    PortSt.resend { (s.port p).countReplay with retrains := satInc (s.port p).retrains, noProgress := 0 } := by
  rw [State.replayPort_eq, if_pos (by omega), State.updPort_port_self, State.retrainPort_port, State.updPort_port_self]
  rfl

theorem State.retrains_port (p n : Nat) (s : State) : ∃ (r : Byte) (k : Nat),
    (s.retrains p n).port p = { s.port p with retrains := r, noProgress := k } := by
  induction n generalizing s with
  | zero => exact ⟨_, _, rfl⟩
  | succ n ih =>
    obtain ⟨r, k, h⟩ := ih (s.retrainPort p)
    rw [State.retrains, h, State.retrainPort_port]
    exact ⟨r, k, rfl⟩

theorem PortSt.idle_of_replayBuf {x : PortSt} (h : x.replayBuf ≠ []) : x.idle = false := by
  simp [PortSt.idle, h]

theorem State.not_early {n : Nat} {now due : Instant} (h : 2 ≤ n ∨ due ≤ now) : ¬ (n < 2 ∧ now < due) := fun ⟨hn, ht⟩ =>
  h.elim (fun h => absurd hn (Nat.not_lt.mpr h)) (fun h => absurd ht (Nat.not_lt.mpr h))

section
variable {s : State} {p : Nat} (hlive : s.portLive p = true) (hup : (s.port p).up = true) (hbuf : (s.port p).replayBuf ≠ [])
include hlive hup hbuf

theorem State.replayTimeout_replays (hn : (s.port p).noProgress < 2) (ht : s.mono < (s.port p).heardAt + nsInst 20000) (failed : Nat) :
    s.replayTimeout p failed = s.replayPort p := by
  unfold State.replayTimeout
  dsimp only
  rw [if_neg (by simp [hlive, hup, PortSt.idle_of_replayBuf hbuf]), if_pos ⟨hn, ht⟩, if_neg hbuf]

theorem State.replayTimeout_down (h : 2 ≤ (s.port p).noProgress ∨ (s.port p).heardAt + nsInst 20000 ≤ s.mono) {failed : Nat}
    (hf : 3 ≤ failed) : s.replayTimeout p failed = (s.retrains p 3).downPort p := by
  unfold State.replayTimeout
  dsimp only
  rw [if_neg (by simp [hlive, hup, PortSt.idle_of_replayBuf hbuf]), if_neg (State.not_early h), if_pos hf]

theorem State.replayTimeout_retrains (h : 2 ≤ (s.port p).noProgress ∨ (s.port p).heardAt + nsInst 20000 ≤ s.mono) {failed : Nat}
    (hf : failed < 3) : s.replayTimeout p failed =
      ((s.retrains p failed).updPort p (fun x => { x with noProgress := 2, heardAt := s.mono })).replayPort p := by
  unfold State.replayTimeout
  dsimp only
  rw [if_neg (by simp [hlive, hup, PortSt.idle_of_replayBuf hbuf]), if_neg (State.not_early h), if_neg (by omega)]

end

/-! ### A port goes down (R474, R483) -/

/-- A port that is DOWN, with nothing to send, to replay or to wait for. -/
def PortSt.downed (x : PortSt) : PortSt :=
  { x with
    state := 0, replayBuf := [], txWait := [], txOpen := none, partialRx := [], outstanding := [], transit := [], noProgress := 0
    crUsed := [], crOwed := [] }

theorem State.queueAt_port_down {s : State} {d p : Nat} (hp : (s.port p).up = true) (hd : (s.port d).up = false) (k : Packet) :
    (s.queueAt p k).port d = s.port d :=
  State.updPort_port_ne _ _ _ _ fun h => absurd ((h ▸ hd).symm.trans hp) (by decide)

/-- Messages and answers leave through ports that are up. -/
theorem State.mgmtThrough_port_down {s : State} {d : Nat} (hd : (s.port d).up = false) (p dst vl : Nat) (b : List Byte) :
    (s.mgmtThrough p dst vl b).port d = s.port d := by
  unfold State.mgmtThrough
  split
  · next h => exact State.queueAt_port_down (Bool.and_eq_true_iff.mp h).1 hd _
  · rfl

theorem State.answerBack_port_down {s : State} {d : Nat} (hd : (s.port d).up = false) (p : Nat) (k : Packet) (code : Nat) :
    (s.answerBack p k code).port d = s.port d := by
  unfold State.answerBack
  split
  · next h => exact State.queueAt_port_down h.2 hd _
  · rfl

theorem State.toMailbox_port (s : State) (b : List Byte) (d : Nat) : (s.toMailbox b).port d = s.port d := by
  unfold State.toMailbox
  split
  · rfl
  · exact s.raise_port _ _ _ d

theorem State.loseOutstanding_port (p d : Nat) (l : List (Nat × Nat × Nat)) (s : State) : (s.loseOutstanding p l).port d = s.port d := by
  induction l generalizing s with
  | nil => rfl
  | cons r l ih => rw [State.loseOutstanding, ih, State.lostRequest, State.raise_port, State.failInFlight, State.updQueue_port]

/-- Steps none of which touches a port that is down. -/
theorem foldl_port_down {α : Type} {g : State → α → State} {d : Nat}
    (hg : ∀ (s : State) (a : α), (s.port d).up = false → (g s a).port d = s.port d) (l : List α) {s : State} (hd : (s.port d).up = false) :
    (l.foldl g s).port d = s.port d :=
  List.foldlRecOn (motive := fun t : State => t.port d = s.port d) l g rfl fun t ht a _ => (hg t a (ht ▸ hd)).trans ht

theorem State.loseTransit_port_down {s : State} {d : Nat} (hd : (s.port d).up = false) (p : Nat) (l : List (Nat × Packet)) :
    (s.loseTransit p l).port d = s.port d := by
  refine foldl_port_down (fun t e ht => ?_) l hd
  have hlost : (t.lostRequest p).port d = t.port d := t.raise_port _ _ _ d
  exact (State.answerBack_port_down (hlost ▸ ht) _ _ _).trans hlost

theorem State.sendLinkDown_port_down {s : State} {d : Nat} (hd : (s.port d).up = false) (p : Nat) : (s.sendLinkDown p).port d = s.port d := by
  unfold State.sendLinkDown
  dsimp only
  split
  · exact State.toMailbox_port _ _ _
  · exact foldl_port_down (fun t o ht => State.mgmtThrough_port_down ht _ _ _ _) _ hd

theorem State.downPort_port (s : State) (p : Nat) : (s.downPort p).port p = (s.port p).downed := by
  let s1 := s.updPort p PortSt.downed
  let s2 := (s1.raise 307 p 0).loseOutstanding p (s.port p).outstanding
  have h2 : s2.port p = (s.port p).downed := by
    rw [State.loseOutstanding_port, State.raise_port, State.updPort_port_self]
  have h3 : (s2.loseTransit p (s.port p).transit).port p = (s.port p).downed := by
    rw [State.loseTransit_port_down (by rw [h2]; rfl), h2]
  exact (State.sendLinkDown_port_down (congrArg PortSt.up h3) p).trans h3

/-! ### The requests of a port that goes down (R483) -/

/-- A command whose request was lost with its port: status 0x94, and nothing left to wait for. -/
def InFlight.LostWithPort (f : InFlight) : Prop := f.status = 0x94 ∧ f.executed = true ∧ f.acksDue = 0

/-- Every command of queue `q` at position `pos` was lost with a port. -/
def State.LostAt (s : State) (q pos : Nat) : Prop := ∀ f ∈ (s.queue q).inflight, f.pos.toNat = pos → f.LostWithPort

theorem State.LostAt.of_queues {s t : State} {q pos : Nat} (h : s.LostAt q pos) (hq : t.queues = s.queues) : t.LostAt q pos := by
  have hqueue : t.queue q = s.queue q := congrArg (fun m => SMap.get ({} : QueueSt) m q) hq
  intro f hf
  exact h f (hqueue ▸ hf)

/-- What ends with 0x94 is lost. -/
theorem State.lostAt_failInFlight (s : State) (q pos : Nat) : (s.failInFlight q pos 0x94).LostAt q pos := by
  intro f hf hpos
  rw [State.failInFlight, State.updQueue_queue_self] at hf
  obtain ⟨g, -, rfl⟩ := List.mem_map.mp hf
  by_cases hg : g.pos.toNat = pos
  · rw [if_pos hg]
    exact ⟨rfl, rfl, rfl⟩
  · rw [if_neg hg] at hpos
    exact absurd hpos hg

/-- What is lost stays lost when another request ends with 0x94. -/
theorem State.LostAt.failInFlight {s : State} {q pos : Nat} (h : s.LostAt q pos) (q' pos' : Nat) :
    (s.failInFlight q' pos' 0x94).LostAt q pos := by
  by_cases hq : q = q'
  · subst hq
    intro f hf hpos
    rw [State.failInFlight, State.updQueue_queue_self] at hf
    obtain ⟨g, hg, rfl⟩ := List.mem_map.mp hf
    by_cases hg' : g.pos.toNat = pos'
    · rw [if_pos hg']
      exact ⟨rfl, rfl, rfl⟩
    · rw [if_neg hg'] at hpos ⊢
      exact h g hg hpos
  · intro f hf
    rw [State.failInFlight, State.updQueue_queue_ne _ _ _ _ hq] at hf
    exact h f hf

theorem State.LostAt.loseOutstanding {q pos : Nat} (p : Nat) (l : List (Nat × Nat × Nat)) {s : State} (h : s.LostAt q pos) :
    (s.loseOutstanding p l).LostAt q pos := by
  induction l generalizing s with
  | nil => exact h
  | cons r l ih => exact ih ((h.failInFlight _ _).of_queues (State.lostRequest_queues _ _))

/-- Every request that was outstanding is lost. -/
theorem State.lostAt_loseOutstanding (p : Nat) {l : List (Nat × Nat × Nat)} {r : Nat × Nat × Nat} (hr : r ∈ l) (s : State) :
    (s.loseOutstanding p l).LostAt r.2.1 r.2.2 := by
  induction l generalizing s with
  | nil => exact absurd hr List.not_mem_nil
  | cons r' l ih =>
    rcases List.mem_cons.mp hr with rfl | hr
    · exact State.LostAt.loseOutstanding p l ((s.lostAt_failInFlight _ _).of_queues (State.lostRequest_queues _ _))
    · exact ih hr _

theorem State.lostAt_downPort (s : State) (p : Nat) {r : Nat × Nat × Nat} (hr : r ∈ (s.port p).outstanding) :
    (s.downPort p).LostAt r.2.1 r.2.2 := by
  refine (State.lostAt_loseOutstanding p hr ((s.updPort p PortSt.downed).raise 307 p 0)).of_queues ?_
  exact (State.sendLinkDown_queues _ _).trans (State.loseTransit_queues _ _ _)

/-! ### The statement -/

/-- Settles O57: what a port does is followed to the port that it leaves; a port that goes down is not touched by what is then sent, and
the commands of its requests stay ended. -/
theorem latticePorts : Obligations.LatticePorts := by
  unfold Obligations.LatticePorts
  refine ⟨?training, ?flit, ?replay, ?down, ?degrade, fun s w => rfl, ?route, ?time⟩
  case training =>
    intro s p four hlive hup
    have hdown := (State.portLive_iff.mp hlive).2
    refine ⟨?_, congrArg Host.Outcome.next (State.portTrained_fails hlive hup four)⟩
    have hport := s.cameUp_port p four
    obtain ⟨heard, hsent⟩ := State.sendHello_port (s := s.cameUp p four) (p := p) (by rw [hport]; exact PortSt.trained_up _ _ _)
      ((s.cameUp_dieDown p four p).trans hdown)
    obtain ⟨hstate, htx, hrx, hbuf, hout⟩ := PortSt.trained_hello (s.port p) four s.mono heard (k := (s.cameUp p four).helloPacket p) rfl rfl
      (by rw [State.length_helloPacket]; decide)
    rw [← hport, ← hsent] at hstate htx hrx hbuf hout
    exact ⟨_, congrArg Host.Outcome.next (State.portTrained_trains hlive hup four), hstate, htx, hrx, hbuf, hout,
      State.raisedTo_of_events (s.raisedTo_cameUp p four) rfl (congrArg HostLinkSt.events (State.sendHello_link _ p))⟩
  case flit =>
    intro s p f hlive hup hlen
    refine ⟨fun hcrc => congrArg Host.Outcome.next (State.flitReceive_bad hlive hup hlen hcrc), fun hcrc hidle hnak => ?_,
      fun hcrc hidle hnak hwait hopen hpart hseq hn hk hdst hone => ?_⟩
    · have hrun := State.flitReceive_good hlive hup hlen hcrc hnak
      rw [if_pos hidle] at hrun
      exact congrArg Host.Outcome.next hrun
    · have hrun := State.flitReceive_good hlive hup hlen hcrc hnak
      rw [if_neg (by simp [hidle])] at hrun
      obtain ⟨b, n, c, t, hheader⟩ := PortSt.pump_takeHeader hwait hopen s.mono (flitHeader f)
      have hport := State.updPort_port_self s p fun x => (x.takeHeader s.mono (flitHeader f)).pump
      rw [hheader] at hport
      obtain ⟨hwhole, hframe⟩ := State.payloadFlit_here (s := s.updPort p fun x => (x.takeHeader s.mono (flitHeader f)).pump)
        (hseq.trans (by rw [hport])) (by rw [hport]; exact hpart) hone hn rfl hk hdst
      obtain ⟨b', c', l, htake⟩ := PortSt.takeWhole_eq _ f (Packet.parse (slice f 8 240))
      rw [hport, htake] at hwhole
      refine ⟨_, congrArg Host.Outcome.next hrun, ?_, ?_, ?_, ?_, ?_, hframe⟩ <;> rw [hwhole]
      exact List.length_append
  case replay =>
    intro s p failed hlive hup hbuf
    refine ⟨fun hn ht => ?_, fun h hf => ?_, fun h hf => ?_⟩
    · refine ⟨_, congrArg Host.Outcome.next (State.replayTimeout_replays hlive hup hbuf hn ht failed), ?_⟩
      rw [State.replayPort_port hn]
      exact ⟨rfl, rfl, rfl, rfl, rfl⟩
    · refine ⟨_, congrArg Host.Outcome.next (State.replayTimeout_down hlive hup hbuf h hf), ?_⟩
      rw [State.downPort_port]
      exact ⟨rfl, rfl, rfl⟩
    · obtain ⟨r, k, hport⟩ := State.retrains_port p failed s
      refine ⟨_, congrArg Host.Outcome.next (State.replayTimeout_retrains hlive hup hbuf h hf), ?_⟩
      rw [State.replayPort_port_third (by rw [State.updPort_port_self]), State.updPort_port_self, hport]
      exact ⟨rfl, rfl, rfl⟩
  case down =>
    intro s p hp hup
    refine ⟨_, congrArg Host.Outcome.next (if_pos ⟨hp, hup⟩), ?_, ?_, fun r f hr hf hpos => s.lostAt_downPort p hr f hf hpos⟩
    all_goals
      rw [State.downPort_port]
      rfl
  case degrade =>
    intro s p hlive hstate
    refine ⟨_, congrArg Host.Outcome.next (if_pos ⟨hlive, hstate⟩), ?_, ?_⟩
    · rw [State.raise_port, State.updPort_port_self]
    · exact State.raisedTo_raise_of_link (State.updPort_link _ _ _) _ _ _
  case route =>
    intro s c w hc
    exact congrArg Host.Outcome.next (if_pos hc)
  case time =>
    intro s p offset hlive hup
    let m : Mgmt := { type := 16, dst := 0x80, body := stampBytes s.stamp }
    have hin : ((s.stampMgmt m).1.mgmtThrough p 0 0 (s.stampMgmt m).2.bytes).inbound = s.inbound :=
      (State.mgmtThrough_inbound _ _ _ _ _).trans (s.stampMgmt_inbound m)
    have hsent := State.mgmtThrough_up (s := (s.stampMgmt m).1) (p := p) hup (State.portLive_iff.mp hlive).2 0 0 (s.stampMgmt m).2.bytes
    refine ⟨_, congrArg Host.Outcome.next (if_pos ⟨hlive, hup⟩), ?_, ?_, ?_, ?_⟩
    · rw [State.updPort_port_self]
    · rw [State.updPort_lat, hsent]
      rfl
    · rw [State.updPort_port_self]
      exact State.inbox_of_inbound hin p
    · rw [State.updPort_tb, hsent]
      rfl

end Sys2Proof.Machine
end
